-- ==== Sys2Proof/Word.lean ====
section
/-! DEFINITION. The word types of the device and their plainest arithmetic. -/

namespace Sys2Proof

/-- A byte of any memory of the device. -/
abbrev Byte := BitVec 8

/-- A BAR0 register (R9). -/
abbrev Reg := BitVec 32

/-- A scalar register, fence word or table entry. -/
abbrev Word := BitVec 64

/-- A 128-bit accumulator entry, grid lane or instruction bundle. -/
abbrev Quad := BitVec 128

/-- Rounds `n` up to a multiple of `m` (for `m = 0`, `n` itself). -/
def roundUp (n m : Nat) : Nat := if m = 0 then n else (n + m - 1) / m * m

/-- Ceiling division. -/
def ceilDiv (n m : Nat) : Nat := if m = 0 then 0 else (n + m - 1) / m

/-- Bits `[hi:lo]` of a natural number. -/
def bitsOf (n hi lo : Nat) : Nat := n / 2 ^ lo % 2 ^ (hi + 1 - lo)

/-- Bit `i` of a natural number. -/
def bitOf (n i : Nat) : Bool := n / 2 ^ i % 2 == 1

/-- One bit as a number. -/
def bnat (b : Bool) : Nat := if b then 1 else 0

/-- A signed reading of the low `w` bits of `n`. -/
def signedOf (n w : Nat) : Int :=
  let m := n % 2 ^ w
  if m < 2 ^ (w - 1) then (m : Int) else (m : Int) - (2 ^ w : Nat)

end Sys2Proof
end

