-- ==== Sys2Proof/Types.lean ====
section
/-! DEFINITION. The operand records that the commands of the block carry: guards, flits, gate
contributions, descriptors, training and discovery reports. Each is plain data. -/

namespace Sys2Proof

/-- The guard of a slot operation: PN and PR of R127, R128. -/
structure Guard where
  pn : Bool
  pr : BitVec 3
  deriving DecidableEq, Repr

/-- The header of a ring descriptor (R495), CRC apart: SEQ and FLAGS. -/
structure DescHdr where
  seq   : Nat
  flags : Nat
  deriving DecidableEq, Repr

/-- A canal flit's header and payload (R254, R255); the payload is its bytes. -/
structure Flit where
  typ     : Nat
  ackv    : Bool := false
  nak     : Bool := false
  first   : Bool := false
  last    : Bool := false
  seq     : Nat := 0
  ack     : Nat := 0
  dst     : Nat := 0
  src     : Nat := 0
  /-- type-specific bits [95:52] -/
  spec    : Nat := 0
  payload : List Byte := []
  deriving DecidableEq, Repr

/-- A flit as it arrives on the line (R253): the symbol errors that its two codewords show, and its 256 bytes after
correction. The spec states neither the field polynomial of the code nor its generator, so the outcome of a codeword is
the command's operand (log entry 33). -/
structure RxFlit where
  errs  : Nat × Nat := (0, 0)
  bytes : List Byte
  deriving DecidableEq, Repr

/-- The host address space that an access of the host names: BAR0, BAR2 (R7), or configuration space (R443). -/
inductive HostSpace where
  | bar0 | bar2 | config
  deriving DecidableEq, Repr

/-- Where an access of the host lies. -/
structure HostPlace where
  sp  : HostSpace
  off : Nat
  deriving DecidableEq, Repr

/-- A read of the host: where it lies, and its size in bytes. -/
structure HostRead where
  sp   : HostSpace
  off  : Nat
  size : Nat
  deriving DecidableEq, Repr

/-- The page of a lockkeeper's access: host memory or HDM, and its attribute (R365, R428). -/
structure LkPage where
  host : Bool
  attr : Nat
  deriving DecidableEq, Repr

/-- One tag record of PART B (R268). -/
structure TagRec where
  hold    : Bool := false
  moor    : Bool := false
  halt    : Bool := false
  snap    : Bool := false
  resume  : Bool := false
  draught : Nat := 0
  deriving DecidableEq, Repr

/-- One muster item of PART A (R268): the key (tag, barrier), its count and its OVER bit (`ovf`). -/
structure MusterItem where
  tag     : Nat
  barrier : Nat
  count   : Nat
  ovf     : Bool := false
  deriving DecidableEq, Repr

/-- A pound-length and gate-lead request of R43. -/
structure SetupReq where
  dev  : Nat
  len  : Nat
  lead : Nat
  deriving DecidableEq, Repr

/-- A gate contribution, or a merge of several (R34, R268). -/
structure Gate where
  reset     : Bool := false
  late      : Bool := false
  presence  : Bool := false
  bound     : Bool := false
  setup     : Option SetupReq := none
  /-- lockmaster candidacy: priority and device index -/
  cand      : Option (Nat × Nat) := none
  leadAllow : Nat := 100
  /-- device indices whose FAULT_MAP bit is set, ascending -/
  faultMap  : List Nat := []
  musters   : List MusterItem := []
  /-- tag records that are not all zero, by ascending tag -/
  tags      : List (Nat × TagRec) := []
  deriving DecidableEq, Repr

/-- What the built-in tests of steps 2 to 5 report (R631, R388). -/
structure BistReport where
  fuseParityOk : Bool := true
  romOk        : Bool := true
  /-- rows repaired and SRAMs left unrepairable at step 3 -/
  rows         : Nat := 0
  unrepairable : Nat := 0
  tiles        : List Nat := []
  lkps         : List Nat := []
  /-- ways that failed two or more of the three passes: (basin?, physical index, way) -/
  ways         : List (Bool × Nat × Nat) := []
  deriving DecidableEq, Repr

/-- The margins of one channel: time early, time late (1/64 UI), voltage down, voltage up (5 mV). -/
structure Margin where
  early : Nat
  late  : Nat
  down  : Nat
  up    : Nat
  deriving DecidableEq, Repr

/-- What one stack port reports at training (R322, R323, R340, R345). -/
structure StackReport where
  port     : Nat
  present  : Bool := true
  dies     : Nat
  /-- 0: 24 Gb, 1: 32 Gb -/
  density  : Nat
  trains   : Bool := true
  initOk   : Bool := true
  /-- pseudo-channels holding a listed row with no spare row left -/
  pprFail  : List Nat := []
  margins  : List (Nat × Margin) := []
  deriving DecidableEq, Repr

/-- What the training of one canal port meets (R279). -/
structure TrainReport where
  /-- the step that fails for a reason the port only senses (1, 2, 3, 4, 7, 8) -/
  failAt   : Option Nat := none
  peerDev  : Nat
  peerPort : Nat
  /-- the peer's variant, as GLB_ID.VARIANT codes it -/
  peerVariant : Nat := 0
  /-- this device's coordinates and the shape, as step 5 exchanges them; they count before the device has joined -/
  ownCoord : Nat × Nat × Nat × Nat := (0, 0, 0, 0)
  shape    : Nat × Nat × Nat × Nat := (1, 1, 1, 1)
  /-- one-way flight in units of 2^-8 ns, and own time minus the peer's in units of 2^-16 ns, that each of step 6's 64
  exchanges measures -/
  flight   : Nat
  offset   : Int := 0
  /-- the lock agreed at step 8 -/
  enterAt  : Nat := 0
  deriving DecidableEq, Repr

/-- The step of an attempt whose limit passes, and what the port has met by then (R279). -/
structure TrainStep where
  step   : Nat
  report : TrainReport
  deriving DecidableEq, Repr

/-- What discovery reaches (R45, R46): the device's place, the shape and the others' priorities. -/
structure DiscoveryReport where
  coord   : Nat × Nat × Nat × Nat
  shape   : Nat × Nat × Nat × Nat
  /-- the variants of the other devices present, as GLB_ID.VARIANT codes them (R4) -/
  variants : List Nat := []
  /-- (device index, LM_PRIO) of every other device that discovery reaches -/
  others  : List (Nat × Nat)
  /-- of a running waterway: epoch, slip, pound, pound length, gate lead, lockmaster index -/
  running : Option (Nat × Nat × Nat × Nat × Nat × Nat)
  /-- waterway time of the first lock the winner announces -/
  firstLock : Nat
  /-- the largest G_min that another device published, in 10 ns units -/
  otherMin  : Nat := 10
  deriving DecidableEq, Repr

/-- How an outbound CXL.io read ended. -/
inductive CplResult where
  | data (bytes : List Byte) (poison : Bool)
  | unsupported
  | abort
  deriving DecidableEq, Repr

/-- A lockkeeper's access to register space (0), or to a UC page of HDM (1) or of host memory (2) (R428). -/
structure DevAccess where
  space_ : Nat
  addr   : Nat
  size   : Nat
  wr     : Bool
  value  : Word
  deriving DecidableEq, Repr

/-- The operands of a berth streaming message (R548). -/
structure BerthMsg where
  oid    : Nat
  aq     : Bool
  rl     : Bool
  poison : Nat
  tag    : Nat
  /-- data words of 8 B, 1 to 32 -/
  len    : Nat
  fn     : Nat
  addr   : Nat
  data   : List Byte
  /-- true where a reserved field is nonzero -/
  reservedSet : Bool := false
  deriving DecidableEq, Repr

/-- A fault message (R599), its pound and offset apart. -/
structure FaultMsg where
  addr   : Nat := 0
  unit   : Nat
  inst   : Nat
  kind   : Nat
  cls    : Nat
  count  : Nat := 1
  status : Nat := 0
  slot   : Nat := 255
  inj    : Bool := false
  deriving DecidableEq, Repr

end Sys2Proof
end

