-- ==== Sys2Proof/Syntax.lean ====
section
/-! DEFINITION. The commands of the block: one constructor per row of the spec's table of operations
and events, with the operands that the event of its rule carries. A read of the host stands under
`tckLoRead` and a write under `registerWrite` whatever space of R7 they name (log entry 71). A tile `t` is a physical tile
index (R62); a flight slot, a context, a ring, a port and a lockkeeper are their numbers. -/

namespace Sys2Proof

/-- The commands, one per row of opcode_table.json, in its order. -/
inductive Instr where
  -- bring-up and resets (18)
  | coldReset (b : BistReport)
  | warmReset (b : BistReport)
  | cxlReset (memClr : Bool) (b : BistReport)
  | flr
  | powerGoodLoss (rail : Nat)
  | hostLinkUp
  | stackTraining (reports : List StackReport)
  | canalTraining (port : Nat) (r : TrainReport)
  | trainingStepTimeout (port : Nat) (step : TrainStep)
  | waterwayDiscovery (d : DiscoveryReport)
  | discoveryTimeout
  | waybillUnjoinedUpdate
  | firmwareBootLoad (v : Reg)
  | firmwareUpdate (v : Reg)
  | firmwareCheckDone (readOk : Bool)
  | roleLoadDone
  | roleMigrate (role : Nat)
  -- time, locks and the gate (01, 07, 16)
  | lock (tj : List Nat)
  | counterDecay
  | voteInstant
  | gateFlitSend (round phase : Nat)
  | gateFlitReceive (port errs0 errs1 head spec crc : Nat) (payload : List Byte)
  | legStart
  | clockStep (t : Nat)
  | clockStepDeferred (t : Nat)
  | droopTrip (reach det level : Nat)
  | droopStretchEnd (reach det : Nat)
  | lockIn (slot : Nat)
  | holdoverExpiry
  | lockmasterAbsence
  | setupRequest (v : Reg)
  | tckLoRead (a : HostRead)
  | registerWrite (a : HostPlace) (size : Nat) (v : Word)
  -- leg instructions, S slot (04 R144)
  | nop (t : Nat) (g : Guard)
  | endLeg (t : Nat) (g : Guard)
  | br (t : Nat) (g : Guard) (imm : BitVec 13)
  | brr (t : Nat) (g : Guard) (ra : BitVec 5)
  | alu (t : Nat) (g : Guard) (rd ra rb : BitVec 5) (fn : BitVec 7)
  | addi (t : Nat) (g : Guard) (rd ra : BitVec 5) (imm : BitVec 12)
  | andi (t : Nat) (g : Guard) (rd ra : BitVec 5) (imm : BitVec 12)
  | ori (t : Nat) (g : Guard) (rd ra : BitVec 5) (imm : BitVec 12)
  | xori (t : Nat) (g : Guard) (rd ra : BitVec 5) (imm : BitVec 12)
  | shfi (t : Nat) (g : Guard) (rd ra : BitVec 5) (kind : BitVec 2) (amt : BitVec 6)
  | li (t : Nat) (g : Guard) (rd : BitVec 5) (imm : BitVec 17)
  | shin (t : Nat) (g : Guard) (rd : BitVec 5) (imm : BitVec 17)
  | cmp (t : Nat) (g : Guard) (pd fn : BitVec 3) (ra rb : BitVec 5)
  | cmpi (t : Nat) (g : Guard) (pd fn : BitVec 3) (ra : BitVec 5) (imm : BitVec 11)
  | pop (t : Nat) (g : Guard) (pd fn pa pb : BitVec 3)
  | ld (t : Nat) (g : Guard) (rd ra : BitVec 5) (imm : BitVec 12)
  | st (t : Nat) (g : Guard) (rb ra : BitVec 5) (imm : BitVec 12)
  | rds (t : Nat) (g : Guard) (rd : BitVec 5) (sel : BitVec 8)
  | flg (t : Nat) (g : Guard) (rd : BitVec 5) (mask : BitVec 3)
  -- T slot (04 R151)
  | tNop (t : Nat) (g : Guard)
  | lds (t : Nat) (g : Guard) (buf sp bs : Bool) (fmt : BitVec 4) (ra : BitVec 5)
  | mma (t : Nat) (g : Guard) (bank buf z ag bs : Bool) (fmt : BitVec 4) (ra rb : BitVec 5)
  | expBank (t : Nat) (g : Guard) (bank cz : Bool) (fmt : BitVec 4) (bs : Bool) (ra rb : BitVec 5)
  | imp (t : Nat) (g : Guard) (bank g64 : Bool) (ra rb : BitVec 5)
  | zb (t : Nat) (g : Guard) (bank : Bool) (w : BitVec 2)
  | gxi (t : Nat) (g : Guard) (imm : BitVec 16)
  | gxr (t : Nat) (g : Guard) (ra : BitVec 5)
  -- V slot (04 R163)
  | vNop (t : Nat) (g : Guard)
  | fop (t : Nat) (g : Guard) (vd va vb : BitVec 6) (fn : BitVec 4)
  | hop (t : Nat) (g : Guard) (vd va vb : BitVec 6) (fn : BitVec 4)
  | iop (t : Nat) (g : Guard) (vd va vb : BitVec 6) (fn : BitVec 4)
  | fcmp (t : Nat) (g : Guard) (vd va vb : BitVec 6) (fn : BitVec 4)
  | icmp (t : Nat) (g : Guard) (vd va vb : BitVec 6) (fn : BitVec 4)
  | vsel (t : Nat) (g : Guard) (vd va vb : BitVec 6) (fn : BitVec 4)
  | vfn (t : Nat) (g : Guard) (vd va vb : BitVec 6) (fn : BitVec 4)
  | vscan (t : Nat) (g : Guard) (vd va vb : BitVec 6) (fn : BitVec 4)
  | vgadd (t : Nat) (g : Guard) (vd va vb : BitVec 6) (fn : BitVec 4)
  | vgexp (t : Nat) (g : Guard) (vd va vb : BitVec 6) (fn : BitVec 4)
  | vcvt (t : Nat) (g : Guard) (vd va vb : BitVec 6) (fn : BitVec 4)
  | vperm (t : Nat) (g : Guard) (vd va vb : BitVec 6) (fn : BitVec 4)
  | vld (t : Nat) (g : Guard) (vd : BitVec 6) (ra : BitVec 5) (imm : BitVec 11)
  | vst (t : Nat) (g : Guard) (va : BitVec 6) (ra : BitVec 5) (imm : BitVec 11)
  | vbc (t : Nat) (g : Guard) (vd : BitVec 6) (ra : BitVec 5)
  | vext (t : Nat) (g : Guard) (rd : BitVec 5) (va : BitVec 6) (lane : BitVec 8)
  -- B slot (04 R166)
  | bNop (t : Nat) (g : Guard)
  | barge (t : Nat) (g : Guard) (lc : BitVec 4) (idx : BitVec 12)
  | waitLc (t : Nat) (g : Guard) (lc : BitVec 4) (n : BitVec 16)
  | waitLock (t : Nat) (g : Guard) (cyc : BitVec 19)
  | bundleStallRelease (t : Nat)
  | lcset (t : Nat) (g : Guard) (lc : BitVec 4) (v : BitVec 16)
  | gld (t : Nat) (g : Guard) (rd : BitVec 5) (lc : BitVec 4) (w : BitVec 3) (ra : BitVec 5)
      (sz : BitVec 2) (aq rl : Bool)
  | gst (t : Nat) (g : Guard) (rb : BitVec 5) (lc : BitVec 4) (w : BitVec 3) (ra : BitVec 5)
      (sz : BitVec 2) (aq rl : Bool)
  | gamo (t : Nat) (g : Guard) (rd : BitVec 5) (lc : BitVec 4) (w : BitVec 3) (ra : BitVec 5)
      (fn : BitVec 4) (nf : Bool)
  | fence (t : Nat) (g : Guard) (lc : BitVec 4)
  | muster (t : Nat) (g : Guard) (bid : BitVec 8)
  -- landings and tile service (04, 05, 02, 18)
  | globalAccessLanding (t id : Nat)
  | bargeLanding (t id : Nat)
  | overrunDrainDone (slot : Nat)
  | tileZeroingDone (t : Nat)
  | substitutionCopyDone (reach : Nat)
  | tileRegrade (v : Reg)
  | regradeDone (reach passed : Nat)
  | spareSubstitution (v : Reg)
  -- ring commands (13 R496): context, ring, header, body
  | ringNop (c r : Nat) (h : DescHdr)
  | fenceSignal (c r : Nat) (h : DescHdr) (fence off value : Nat)
  | fenceWait (c r : Nat) (h : DescHdr) (fence off value timeoutUs : Nat)
  | fenceWaitSatisfied (c r : Nat)
  | fenceWaitTimeout (c r : Nat)
  | copy (c r : Nat) (h : DescHdr) (src dst srcOff dstOff len : Nat)
  | fill (c r : Nat) (h : DescHdr) (dst dstOff len pattern : Nat)
  | mapRange (c r : Nat) (h : DescHdr) (ctx page count va entry : Nat)
  | unmapRange (c r : Nat) (h : DescHdr) (ctx page count va : Nat)
  | invalidateXlt (c r : Nat) (h : DescHdr) (ctx scope page count va : Nat)
  | setBias (c r : Nat) (h : DescHdr) (bias count dpa : Nat)
  | loadFlight (c r : Nat) (h : DescHdr) (image off len : Nat)
  | bindFlight (c r : Nat) (h : DescHdr) (slot tag fence fenceOff endValue : Nat)
  | runFlight (c r : Nat) (h : DescHdr) (slot startPound : Nat)
  | startDeferLimit (slot : Nat)
  | moorFlight (c r : Nat) (h : DescHdr) (slot : Nat)
  | resumeFlight (c r : Nat) (h : DescHdr) (slot : Nat)
  | haltFlight (c r : Nat) (h : DescHdr) (slot release : Nat)
  | snapshot (c r : Nat) (h : DescHdr) (slot exportH exportOff : Nat)
  | snapshotCopyDone (slot : Nat)
  | snapshotExportDone (slot : Nat)
  | replicaStreamEnd (src slot : Nat)
  | restore (c r : Nat) (h : DescHdr) (slot source importH importOff pound : Nat)
  | restoreCopyDone (slot : Nat)
  | maint (c r : Nat) (h : DescHdr) (op space ctx addr len : Nat)
  | setPowerLease (c r : Nat) (h : DescHdr) (watts durUs : Nat)
  | contextTeardown (c r : Nat) (h : DescHdr) (ctx : Nat)
  | barrierTimeout (slot : Nat)
  -- ring service (13)
  | doorbellWake (c r : Nat)
  | doorbellPoll (c r : Nat)
  | descriptorLineWritten (c r : Nat)
  | consumerWordPoll (c : Nat)
  | contextEnable (v : Reg)
  | contextSuspend (v : Reg)
  | contextResume (v : Reg)
  | ringEnable
  | ringDisable
  | rngInjCrc
  -- canals (07)
  | canalSlot (port k : Nat)
  | dataFlitReceive (port : Nat) (errs : Nat × Nat) (bytes : List Byte)
  | lackReceive (port : Nat) (errs : Nat × Nat) (bytes : List Byte)
  | timeFlitReceive (port : Nat) (errs : Nat × Nat) (bytes : List Byte) (t4 : Nat)
  | idleFlitReceive (port : Nat) (errs : Nat × Nat) (bytes : List Byte)
  | trainFlitReceive (port : Nat) (errs : Nat × Nat) (bytes : List Byte) (retire : Option Nat) (failedLink : Option (Nat × Nat))
  | absentFlitReceive (port : Nat) (errs : Nat × Nat) (bytes : List Byte)
  | linkNakReceive (port ack : Nat)
  | replayTimerExpiry (port : Nat)
  | linkSilenceTimeout (port : Nat)
  | linkRetire (port : Nat)
  | linkRetrain (port : Nat)
  | portEnable (port : Nat)
  | cnlInjFec (port : Nat)
  | cnlInjCrc (port : Nat)
  -- stacks (09)
  | stackRead (dpa len : Nat)
  | stackWrite (dpa : Nat) (bytes : List Byte) (poison : Bool)
  | correctedWriteback (dpa : Nat)
  | scrubRead (port : Nat)
  | accountingWindow (port : Nat)
  | stackTempSample (port temp : Nat)
  | channelDrain (port : Nat) (v : Reg)
  | channelMargin (port : Nat) (v : Reg)
  | channelReturn (port : Nat) (v : Reg)
  | pcEvacRelease (port : Nat) (hi : Bool) (v : Reg)
  | pcForce (port : Nat) (v : Reg)
  | stkInjUe (port : Nat)
  | stkInjCe (port : Nat)
  -- basin and coherence (10); `host` selects a host-memory line
  | sharedRead (agent : Nat) (host : Bool) (addr attr : Nat)
  | ownershipRead (agent : Nat) (host : Bool) (addr : Nat)
  | mLineWriteBack (agent : Nat) (host : Bool) (addr : Nat)
  | nonCachingRead (host : Bool) (addr len : Nat)
  | nonCachingWrite (host : Bool) (addr attr : Nat) (bytes : List Byte) (poison : Bool)
  | forwardedRequest (agent : Nat) (host : Bool) (addr : Nat) (own : Bool)
  | victimWritebackAccept (agent : Nat) (host : Bool) (addr : Nat)
  | atomic (addr attr fn size operand compare : Nat) (moored : Bool)
  | mooredAccess (off : Nat) (wr : Bool) (bytes : List Byte) (poison : Bool)
  | wayTestDone (basin : Bool) (idx way passes : Nat)
  | moorRequest (v : Reg)
  | moorCleanDone
  -- maintenance (10)
  | clean (v : Reg)
  | invalidate (v : Reg)
  | cleanInvalidate (v : Reg)
  | warm (v : Reg)
  | zero (v : Reg)
  | maintEntryEnd
  | cmxInjBsnUe
  | cmxInjBsnCe
  | cmxInjRcParity
  -- lockkeepers (11)
  | lkLoad (k : Nat) (page : LkPage) (addr size : Nat)
  | lkStore (k : Nat) (page : LkPage) (addr size value : Nat)
  | storeBufferDrain (k : Nat)
  | lkFence (k : Nat)
  | fenceI (k : Nat)
  | lkAmo (k : Nat) (host : Bool) (addr attr fn size operand compare : Nat) (aq rl : Bool)
  | lr (k : Nat) (host : Bool) (addr attr size : Nat) (aq rl : Bool)
  | sc (k : Nat) (host : Bool) (addr attr size value : Nat) (aq rl : Bool)
  | reservationExpiry (k : Nat)
  | pinExpiry (k : Nat)
  | lkDeviceAccess (k : Nat) (a : DevAccess)
  | trapEntry (k older : Nat)
  | lkPowerDown (k : Nat)
  -- host port (12)
  | bar4Write (off : Nat) (bytes : List Byte) (ep : Bool)
  | bar4Read (off len : Nat)
  | memRd (hpa : Nat) (metaState : Bool) (metaValue snp : Nat)
  | memWr (hpa : Nat) (metaValue snp : Nat) (bytes : List Byte) (poison : Bool)
  | memClnEvct (hpa metaValue : Nat)
  | birspI (dpa : Nat) (data : Option (List Byte))
  | birspS (dpa : Nat) (data : Option (List Byte))
  | birspE (dpa : Nat) (data : Option (List Byte))
  | snpData (hpa : Nat)
  | snpInv (hpa : Nat)
  | snpCur (hpa : Nat)
  | completionReceive (tag off : Nat) (last : Bool) (r : CplResult)
  | completionTimeout (tag : Nat)
  | tagQuarantineExpiry (tag : Nat)
  | decoderCommit (d base size skip ways gran : Nat) (lockIt : Bool)
  | busMasterDisable
  | busMasterEnable
  | d3hotEntry
  | d0Return
  | cacheWritebackInvalidate
  | gpfPhase1
  | viralReceive
  | ideCheckFailed (cachemem : Bool)
  | vectorUnmask (vec : Nat)
  -- SPDM (12 R473)
  | getVersion
  | getCapabilities
  | negotiateAlgorithms (offered : Nat)
  | getDigests
  | getCertificate (slot off len : Nat)
  | challenge (slot nonce : Nat)
  | getMeasurements (index : Nat)
  | keyExchange (slot : Nat)
  | finish (session : Nat) (ok : Bool)
  | heartbeat (session : Nat)
  | keyUpdate (session : Nat)
  | endSession (session : Nat)
  -- berths and access tables (15)
  | berthEnable (b : Nat)
  | berthTrainingDone (b : Nat) (ok : Bool) (modules rate vendor device : Nat)
  | berthModuleFail (b m : Nat)
  | berthLinkDown (b : Nat)
  | berthDrain (b : Nat)
  | berthDrainDone (b : Nat)
  | berthUndrain (b : Nat)
  | berthWr (b : Nat) (m : BerthMsg)
  | berthRd (b : Nat) (m : BerthMsg)
  | berthAmo (b : Nat) (m : BerthMsg)
  | berthCpl (b tag status : Nat) (data : List Byte) (poison : Nat)
  | berthFence (b : Nat) (m : BerthMsg)
  | berthDb (b : Nat) (m : BerthMsg)
  | berthMessageTimeout (b tag : Nat)
  | berthRdCurr (b addr : Nat)
  | berthRdShared (b addr : Nat)
  | berthRdOwn (b addr : Nat)
  | berthRdOwnNoData (b addr : Nat)
  | berthCleanEvict (b addr : Nat)
  | berthCleanEvictNoData (b addr : Nat)
  | berthDirtyEvict (b addr : Nat) (bytes : List Byte) (poison : Bool)
  | brtInjCrc (b : Nat)
  | actHoldSet
  | actHoldClear
  -- power (16)
  | railSample (comp mem links : Nat)
  | fastLimitDisable
  | pwrDroopWrite (v : Reg)
  | leaseExpiry (towpath : Bool)
  | conservativeEntry
  | conservativeExit
  | powerMoorResume (slot : Nat)
  | thermalTrip (junction : List (Nat × Nat)) (ports : List (Nat × Nat))
  -- fault collector (17)
  | faultMessageReceive (m : FaultMsg)
  | faultOutPulseEnd
  | faultLogClear
  | faultRingEnable
  | fltCntWrite (kind : Nat) (v : Reg)
  | fltWwReset
  | devHalt
  | fltInjTile (v : Reg)
  | fltInjLkp (v : Reg)
  | fltInjMsg (v : Reg)
  | xltInjTlbParity
  | xltEnable
  | xltDisable
  -- towpath (18 R643)
  | getStatus
  | getClocks
  | getTemps
  | getLimits
  | getPower
  | setLease (watts durUs : Nat)
  | wwReset
  -- further events
  | lossOfCodewordAlignment (port : Nat)
  | peerSignalReturn (port : Nat)
  | berthDisable (b : Nat)
  | cacheEnableWrite (en : Bool)
  | biconflict (dpa : Nat)
  | cxlCacheHostResponse (hpa : Nat) (data : Option (List Byte)) (poison : Bool)
  | ideKeyProgramming (session : Nat) (cachemem : Bool)
  | lkWatchdogExpiry (k : Nat)
  | bindImagesWritten (slot : Nat)
  | channelMarginDone (port : Nat) (m : Margin)
  deriving DecidableEq, Repr

end Sys2Proof
end

