-- ==== Sys2Proof/Config.lean ====
section
/-! DEFINITION. The free values of the model: what the spec's own text leaves open, as constants
with no body. Nothing in Lean can evaluate them; a statement about one holds for every value (DESIGN CHOICE: the
log entry that each names). -/

namespace Sys2Proof.Config

/-- Bytes that the spec names without stating: the contents of an SPDM reply's certificate, digest,
signature or nonce fields (R473), by request code, a counter of the state and the byte index. Log entry 54. -/
opaque spdmByte : Nat → Nat → Nat → Byte

/-- The bytes of a line that a berth owns, which its chiplet holds (R551), by the counter of the state. Log entry 55. -/
opaque freeByte : Nat → Byte

/-- The Nemeud firmware root key of the mask ROM (R634): the x and y of a P-384 point. Log entry 53. -/
opaque rootKey : Nat × Nat

/-- The mask-ROM revision (R634, R635) and the fused serial number (R444). Log entry 53. -/
opaque romRevision : Nat
opaque serial : Nat

/-- The mapping of pseudo-channel byte-address bits onto banks, rows and columns (R327), by
population and bit: published in the Waybill, with an effect on timing only. Log entry 54. -/
opaque dramMapping : Nat → Nat → Nat

/-- The router x + 8y of each attachment of the router map (R204, R641): canal ports, berths, host
port and lockkeepers, in that order. Log entry 54. -/
opaque routerOf : Nat → Nat

/-- The ratio of measured to estimated power in a pound whose estimate is 0 W (R583 states none): numerator, and
denominator less 1, by the measured sum. Log entry 54. -/
opaque ratioOfZero : Nat → Nat × Nat

/-- Which of the good lockkeepers that are left a role is loaded onto at step 7 (R631 does not say), by its place
among them, counted round. Log entry 52. -/
opaque rolePick : Nat → Nat

/-- Which of two populations of one capacity a device takes when as many ports report each (R323 states no order):
true is the taller stack. Log entry 36. -/
opaque tallerStacks : Bool

/-- The highest and lowest planned clocks that GET_CLOCKS reports for a reach with no BOUND tile (R643 states none),
by the counter of the state and the byte's place. Log entry 54. -/
opaque idleClock : Nat → Nat → Byte

/-- The bits of FEATURES (R213) that this device does not list as supported in its Waybill (R231, R641 state no list):
1 bits are missing features. Log entry 54. -/
opaque featuresAbsent : Nat

/-- The fused subsystem vendor ID and subsystem ID (R443). Log entry 81. -/
opaque subsystem : Reg

/-- The header of a failing packet as AER logs it (R464), by the error's status bit and the dword: no command carries
it. Log entry 81. -/
opaque tlpHeader : Nat → Nat → Reg

/-- Where a CXL.cachemem capability lies in the component register block (R446), by its ID. Log entry 81. -/
opaque compPtr : Nat → Nat

end Sys2Proof.Config
end

