-- ==== Sys2Proof/Machine/State.lean ====
section
/-! DEFINITION. The state of the block, its faults and refusals, and the state after reset. -/

namespace Sys2Proof.Machine

/-- A sparse table: entries by strictly rising key; an unlisted key reads a default. -/
abbrev SMap (α : Type) := List (Nat × α)

/-- A byte memory with the error state of its 8-byte words. `bytes` lists the nonzero bytes by
strictly rising address (an unlisted byte reads 0); `marks` lists, by word index (address / 8), the
words whose check bits are not clean: 1 one check bit wrong, 2 uncorrectable, 3 the reserved
syndrome of stored poison (R84, R334, R335). -/
structure Ram where
  bytes : List Host.Cell := []
  marks : SMap Nat := []
  deriving DecidableEq, Repr

/-- The three fused variants (R1). -/
inductive Variant where
  | a256 | a192 | a128
  deriving DecidableEq, Repr

/-- What is fixed at manufacturing test (R1, R2, R15, R63, R93, R631, R648). The values are a DESIGN CHOICE (log entry
6). -/
structure Fuses where
  variant   : Variant := .a256
  stepping  : Nat := 1
  /-- active physical reaches, ascending -/
  reaches   : List Nat := List.range 16
  /-- position left out of each physical reach's fused tile map -/
  sparePos  : SMap Nat := []
  /-- factory grade of physical tiles whose grade is not 132, in 25 MHz units -/
  grades    : SMap Nat := []
  lkpGood   : List Nat := List.range 24
  fwMin     : Nat := 0
  pwrBase   : Nat := 450
  deriving DecidableEq, Repr

/-- The boundary pins (R5). -/
structure Pins where
  pgCore       : Bool := true
  pgMem        : Bool := true
  pgLink       : Bool := true
  faultOut     : Bool := false
  thermtripOut : Bool := false
  /-- a FAULT_OUT pulse is running (R615) -/
  pulse        : Bool := false
  deriving DecidableEq, Repr

/-- Tile states (R80). -/
inductive TileState where
  | off | spare | free | bound | stopped | parked | retired
  deriving DecidableEq, Repr

/-- Stop kinds (R142), with the control-state error of R84. -/
inductive StopKind where
  | illegal | portCollision | bufferConflict | controlError | holdAddress | windowAddress | bargeLimit
  deriving DecidableEq, Repr

/-- The tags of a stationary buffer (R155): format, 2:4 sparsity, block size 16, E_a. -/
structure BufTags where
  fmt  : Nat
  sp   : Bool
  bs16 : Bool
  ea   : Int
  deriving DecidableEq, Repr

/-- A stationary-operand buffer: bytes 0-4095 elements, 4096-6143 index, 6144-7167 scales (R67). -/
structure StatBuf where
  bytes    : SMap Byte := []
  /-- poison by 8-byte word -/
  poison   : SMap Bool := []
  /-- bytes whose parity is bad (R84) -/
  bad      : SMap Bool := []
  /-- the recorded tags; none while not loaded -/
  tags     : Option BufTags := none
  /-- the expected tags of R153: those of the latest enabled LDS, or of a restore -/
  expected : Option BufTags := none
  deriving DecidableEq, Repr

/-- An accumulator bank (R70): entries that are not (0, clean), entries whose check bits are bad, and
the width code of ZB. -/
structure Bank where
  entries : SMap (Quad × Bool) := []
  bad     : SMap Bool := []
  width   : Nat := 0
  deriving DecidableEq, Repr

/-- A byte string read from a hold, with the poison of each byte. -/
abbrev PBytes := List (Byte × Bool)

/-- A tensor pass in flight (R153 to R157). -/
structure Pass where
  issue : Nat
  pc    : Nat
  bank  : Bool
  buf   : Bool
  z     : Bool
  ag    : Bool
  bs16  : Bool
  fmt   : Nat
  ra    : Nat
  rb    : Nat
  /-- the expected tags that fixed the schedule, and the schedule's b and s -/
  expected : Option BufTags
  b     : Nat
  s     : Nat
  gx    : BitVec 16
  /-- the stationary buffer as read at the end of cycle issue + s + 2 -/
  stat  : StatBuf := {}
  scanned : PBytes := []
  data  : PBytes := []
  scales : PBytes := []
  deriving DecidableEq, Repr

/-- An export in flight (R159): the element and scale bytes converted so far. -/
structure Export where
  issue : Nat
  bank  : Bool
  cz    : Bool
  fmt   : Nat
  bs16  : Bool
  ra    : Nat
  rb    : Nat
  width : Nat
  gx    : BitVec 16
  elems : PBytes := []
  scales : PBytes := []
  deriving DecidableEq, Repr

/-- An import in flight (R160). -/
structure Import where
  issue : Nat
  bank  : Bool
  g64   : Bool
  ra    : Nat
  width : Nat
  grid  : BitVec 16
  gridPoison : Bool
  gx    : BitVec 16
  data  : PBytes := []
  deriving DecidableEq, Repr

/-- What a scheduled cycle of an issued operation does (R131, R144, R152 to R163). -/
inductive TileAct where
  | wrS (r : Nat) (v : Word) (poison : Bool)
  | wrP (r : Nat) (v poison : Bool)
  | wrGx (v : BitVec 16)
  | wrLc (lc v : Nat)
  | clrSticky (mask : Nat)
  | wrV (first : Nat) (elems : List (BitVec 32 × Bool)) (convert : Bool)
  | rdS (r addr : Nat)
  | rdV (vd addr part : Nat)
  | wrHold (addr : Nat) (bytes : PBytes)
  | ldsRow (buf : Bool) (addr off : Nat)
  | ldsWrite (buf : Bool) (off : Nat) (bytes : PBytes)
  | ldsTag (buf : Bool) (fmt : Nat) (sp bs16 : Bool)
  | mmaScale (issue j : Nat)
  | mmaScan (issue j : Nat)
  | mmaFetch (issue j : Nat)
  | mmaTags (issue : Nat)
  | mmaArray (issue : Nat)
  | mmaZero (issue : Nat)
  | mmaRow (issue m : Nat)
  | expRow (issue m : Nat)
  | expWrite (issue j : Nat) (scale : Bool)
  | impRead (issue m q : Nat)
  | impRow (issue m : Nat)
  | zbWrite (bank : Bool) (w : Nat)
  deriving DecidableEq, Repr

/-- An act with the cycle at whose end it falls, the issue cycle and PC of its operation and its slot's
rank (B 3, V 2, T 1, S 0), by which R132 decides between writes of one cycle. -/
structure Sched where
  due    : Nat
  issued : Nat
  rank   : Nat
  pc     : Nat
  act    : TileAct
  deriving DecidableEq, Repr

/-- The ports and units of R134: one operation per cycle each. -/
inductive Port where
  | holdRead | holdWrite | bank0 | bank1 | vector | array
  deriving DecidableEq, Repr

/-- A wait that stalls a bundle (R167). -/
inductive Stall where
  | lc (lc n : Nat)
  | cycle (cyc : Nat)
  deriving DecidableEq, Repr

/-- A barge in flight (R174, R200): its descriptor's 64 bytes and its index list as read (R191). -/
structure BargeInst where
  id    : Nat
  /-- its index in the leg's list: the stride detectors' stream (R385) -/
  idx   : Nat := 0
  lc    : Nat
  desc  : List Byte
  /-- index list with the poison of each entry, read as the barge starts -/
  index : List (Nat × Bool) := []
  /-- it has started: the cycle in which its BARGE issued has ended (R166) -/
  started : Bool := false
  /-- the canal ticket of a REMOTE_HOLD barge (R258), and words already sent -/
  ticket : Option Nat := none
  sent  : Nat := 0
  /-- the message tags a BERTH barge still waits for (R553) -/
  berthTags : List Nat := []
  /-- bytes a BERTH source has returned -/
  berthData : SMap Byte := []
  /-- bytes of a BERTH source that are poisoned -/
  berthBad : SMap Bool := []
  deriving DecidableEq, Repr

/-- A global access in flight (R170 to R172, R421). -/
inductive AccKind where
  | gld (rd : Nat)
  | gst
  | gamo (rd fn : Nat) (nf : Bool)
  | fence
  deriving DecidableEq, Repr

structure Access where
  id    : Nat
  kind  : AccKind
  lc    : Nat
  va    : Nat
  size  : Nat
  value : Word := 0
  compare : Word := 0
  poison : Bool := false
  aq    : Bool := false
  rl    : Bool := false
  /-- the PC of its bundle: the stride detectors' stream (R385) -/
  pc    : Nat := 0
  deriving DecidableEq, Repr

/-- A physical tile (02, 04). -/
structure Tile where
  st       : TileState := .free
  service  : Nat := 132
  clk      : Nat := 120
  /-- a clock step that is pending (R586) -/
  step     : Option Nat := none
  /-- the flight slot it is bound to and its flight tile (R216) -/
  flight   : Option (Nat × Nat) := none
  leg      : Option Nat := none
  running  : Bool := false
  /-- the cycle in which an enabled END issued (R138) -/
  endAt    : Option Nat := none
  pc       : Nat := 0
  cyc      : Nat := 0
  /-- a taken branch: its target, and the bundles to issue before it, the branch's own included (R136) -/
  branch   : Option (Int × Nat) := none
  stall    : Option Stall := none
  stop     : Option (StopKind × Nat) := none
  /-- the stop has entered the gate; the lock at which it takes effect clears the tile (R82, R83) -/
  stopGated : Bool := false
  zeroing  : Bool := false
  sched    : List Sched := []
  held     : List (Port × Nat) := []
  /-- the port cycles that operations of earlier bundles hold (R134, R152) -/
  older    : List (Port × Nat) := []
  passes   : List Pass := []
  exports  : List Export := []
  imports  : List Import := []
  sregs    : SMap Word := []
  spoison  : SMap Bool := []
  /-- scalar registers whose parity is bad (R84) -/
  sbad     : SMap Bool := []
  preds    : SMap Bool := []
  ppoison  : SMap Bool := []
  lcs      : SMap Nat := []
  gx       : BitVec 16 := 0
  t2code   : Bool := false
  convert  : Bool := false
  lcsat    : Bool := false
  vregs    : SMap (BitVec 32) := []
  vpoison  : SMap Bool := []
  /-- vector elements whose check bits are bad (R84) -/
  vbad     : SMap Bool := []
  bank0    : Bank := {}
  bank1    : Bank := {}
  buf0     : StatBuf := {}
  buf1     : StatBuf := {}
  imem     : SMap Quad := []
  /-- bundles whose stored check bits an injection inverted -/
  imemBad  : SMap Bool := []
  hold     : Ram := {}
  barges   : List BargeInst := []
  accs     : List Access := []
  nextId   : Nat := 0
  /-- an armed injection: the TARGET of FLT_INJ_TILE (R625) -/
  inject   : Option Nat := none
  deriving DecidableEq, Repr

/-- A physical reach (02 R63, R90, R94, 16 R589). -/
structure Reach where
  /-- physical position of logical positions 0 to 15; none: the logical number is retired -/
  tileMap  : List (Option Nat) := (List.range 16).map some
  /-- droop detectors: level now tripped -/
  droop    : SMap Nat := []
  /-- a planned substitution: the logical position, and whether the copy has ended (R90) -/
  subst    : Option (Nat × Bool) := none
  /-- the copy ended after the cut-off -/
  substLate : Bool := false
  /-- the substitution serves a re-grade of the old tile (R646) -/
  regradeAfter : Bool := false
  /-- the position under path test, or waiting for the lock that parks it (R646) -/
  regrade  : Option Nat := none
  regradeWait : Option Nat := none
  deriving DecidableEq, Repr

/-- Flight states (R235). -/
inductive FState where
  | empty | loaded | bound | armed | running | moored | held | done
  deriving DecidableEq, Repr

/-- Why a HELD flight is held: the resume rule that applies (R245). -/
inductive HoldCause where
  | lockin | barrier | fault | detour | leadShort | device | stackCap | group
  deriving DecidableEq, Repr

/-- A snapshot area (R305 to R309): the snapshot's bytes in the layout of R308. -/
structure SnapArea where
  pound    : Nat
  replica  : Bool
  complete : Bool
  size     : Nat
  bytes    : Ram
  deriving DecidableEq, Repr

/-- An end fence (R242): the object's context, its VA and offset, and the end value. -/
structure EndFence where
  ctx   : Nat
  va    : Nat
  value : Nat
  deriving DecidableEq, Repr

/-- A flight slot (06, 08, 16). -/
structure Flight where
  st        : FState := .empty
  ctx       : Nat := 0
  size      : Nat := 0
  image     : Ram := {}
  tag       : Nat := 0
  /-- bind in progress: the images are written (R654, R232) -/
  binding   : Option Bool := none
  /-- the bind that R316 makes on a spare: the device slot it takes over -/
  rebind    : Option Nat := none
  haltAtBind : Option Bool := none
  standby   : Bool := false
  /-- the device slot this device serves -/
  devSlot   : Nat := 0
  fence     : Option EndFence := none
  pos       : Nat := 0
  startPound : Nat := 0
  defers    : Nat := 0
  dropTotal : Nat := 0
  variant   : Nat := 0
  /-- the flight ran the pound that is now running -/
  ran       : Bool := false
  slotMap   : SMap Nat := []
  group     : Nat := 0
  /-- the group of R317 that a re-map gave, or 0 -/
  remap     : Nat := 0
  lostGroup : Bool := false
  areas     : List SnapArea := []
  /-- a snapshot copy in progress: its L, whether it moored the flight, whether the copy has ended -/
  snapping  : Option (Nat × Bool × Bool) := none
  replicaSlot : Option Nat := none
  /-- snapshots whose stream to another device waits for a ticket: the device, and the snapshot (R258, R309, R316) -/
  streams   : List (Nat × SnapArea) := []
  /-- of a flight that stands by, or that stood by until a re-map chose it: the snapshot order last seen in the gate,
  and the snapshot that has become the flight's last (R306, R316) -/
  seenSnap  : Option Nat := none
  seenLast  : Option Nat := none
  /-- the spare waits for its replica (R316) -/
  fetching  : Bool := false
  /-- the flight stood by here, and its bind is that of R316 -/
  spared    : Bool := false
  restoring : Option (Nat × Bool) := none
  /-- a snapshot that a RESTORE writes once an overrun has drained (R203) -/
  restoreDue : Option Ram := none
  /-- the flight leaves its tiles once an overrun has drained (R203) -/
  leaveDue  : Bool := false
  causes    : List HoldCause := []
  /-- why this device's contribution carries the flight's hold flag -/
  raised    : List HoldCause := []
  /-- R296 asks for the hold flag in the running pound's contribution -/
  barrierFlag : Bool := false
  barrierHeld : Nat := 0
  lockinOk  : Bool := false
  lockinDone : Bool := false
  /-- a planned substitution moored it (R90) -/
  substMoored : Bool := false
  needRestore   : Bool := false
  devHeld   : Bool := false
  request   : Nat := 0
  powerMoored : Bool := false
  powerMoorOrder : Bool := false
  unmoored  : Nat := 0
  resumeOrder : Bool := false
  suspendMoored : Bool := false
  /-- a tile of it was late at the latest vote -/
  late      : Bool := false
  overrun   : Bool := false
  /-- the leaves that lock-in used for the coming pound, and those of the pound that runs: VA, level,
  entry (R210) -/
  nextXlt   : List (Nat × Nat × Nat) := []
  curXlt    : List (Nat × Nat × Nat) := []
  fatal     : Option Nat := none
  deriving DecidableEq, Repr

/-- A piece of an extent inside one leaf. -/
structure XSeg where
  va   : Nat
  pa   : Nat
  len  : Nat
  host : Bool
  attr : Nat
  peer : Bool
  ce   : Bool
  deriving DecidableEq, Repr

/-- What a ring command in progress waits for. -/
inductive WaitKind where
  | bind (slot : Nat)
  | run (slot : Nat)
  | moor (slot : Nat)
  | resume (slot : Nat)
  | halt (slot : Nat) (release : Bool)
  /-- a SNAPSHOT, with the handle, context and VA of its export object, and its stage: 0 its order waits, 1 the
  copies run, 2 the export of the snapshot that it made runs -/
  | snap (slot : Nat) (exportTo : Option (Nat × Nat × Nat)) (stage : Nat) (made : Option SnapArea := none)
  | restore (slot : Nat) (pound : Nat)
  | fence (word : XSeg) (value deadline : Nat)
  /-- a COPY that waits for host reads: the contexts of its source and destination, their pieces, and whether a
  read has timed out (R458) -/
  | copy (sctx dctx : Nat) (src dst : List XSeg) (timedOut : Bool)
  /-- a FILL that waits at a home: its context, its pieces, its pattern and the offset that it starts at (R370) -/
  | fill (dctx : Nat) (dst : List XSeg) (pattern off len : Nat)
  /-- an UNMAP_RANGE or INVALIDATE_XLT: the first pound in which nothing uses what it removes (R210) -/
  | xlt (pound : Nat) (ctx va len : Nat)
  /-- frames on their way to DEV bias (R378): their DPA range, and the VA range of a MAP_RANGE -/
  | bias (dpa size ctx va len : Nat)
  | maint
  | maintFull (op space ctx addr len : Nat)
  | teardown (ctx stage abandoned halted : Nat)
  deriving DecidableEq, Repr

/-- A command in progress on a ring (R490). -/
structure Wait where
  ctx   : Nat
  ring  : Nat
  seq   : Nat
  flags : Nat
  kind  : WaitKind
  /-- its order has entered the gate (R639) -/
  entered : Bool := false
  /-- it holds an entry of the watch table (R507) -/
  watch   : Bool := false
  /-- what a FENCE_WAIT or a SNAPSHOT's export has translated (R498): context, VA and bytes -/
  uses    : List (Nat × Nat × Nat) := []
  deriving DecidableEq, Repr

/-- A ring's mode (R512). -/
inductive RingMode where
  | off | watched | polled | parked | stopped | active | held
  deriving DecidableEq, Repr

/-- A submission ring, or the completion ring (ring 8), of a context (13 R512). -/
structure Ring where
  base     : Nat := 0
  locDpa   : Bool := false
  vecEn    : Bool := false
  vec      : Nat := 0
  log2n    : Nat := 4
  db       : Nat := 0
  enable   : Bool := false
  mode     : RingMode := .off
  /-- it holds an entry of the watch table (R491) -/
  watch    : Bool := false
  /-- CONSUMER, or records written -/
  count    : Nat := 0
  /-- last doorbell or consumer word read -/
  prod     : Nat := 0
  tries    : Nat := 0
  poison   : Nat := 0
  /-- records that wait for room (R489): 32-byte records and their interrupt wish, oldest first -/
  waiting  : List (List Byte × Bool) := []
  deriving DecidableEq, Repr

/-- Context states (R484). -/
inductive CState where
  | empty | ready | running | suspended | teardown | faulted
  deriving DecidableEq, Repr

/-- A context (R483, R484). The completion journal of R639 is each ring's `count`. -/
structure Context where
  st    : CState := .empty
  rings : SMap Ring := []
  deriving DecidableEq, Repr

/-- Canal port states (R278). -/
inductive PState where
  | disabled | training | active | retrain | retired | absent | safe
  deriving DecidableEq, Repr

/-- A canal port (07). -/
structure Canal where
  st       : PState := .disabled
  step     : Nat := 0
  fail     : Nat := 0
  failures : Nat := 0
  upstream : Bool := false
  peerValid : Bool := false
  peerDev  : Nat := 0
  peerPort : Nat := 0
  /-- the peer's variant, as step 5 of training brings it (R4, R279) -/
  peerVariant : Nat := 0
  /-- one-way flights and offsets -theta of the last 64 exchanges, both in 2^-16 ns, newest first -/
  flights  : List Nat := []
  offsets  : List Int := []
  /-- T_TX of the last accepted TIME flit and its receive time, in 2^-16 ns -/
  echo     : Nat × Nat := (0, 0)
  nextSeq  : Nat := 0
  expected : Nat := 0
  nakSent  : Bool := false
  nakDue   : Bool := false
  replay   : List Flit := []
  /-- how many flits of `replay`, from the oldest, wait to be resent -/
  resend   : Nat := 0
  /-- the place in `replay` of the next flit to resend -/
  resendAt : Nat := 0
  resends  : Nat := 0
  enterAt  : Option Nat := none
  /-- planned EMIT and FORWARD slots of the running pound that passed with no flit ready (R265), by owner: a logical
  tile, or 1024 and an ingress peer -/
  missed   : SMap Nat := []
  /-- state at the last vote instant (R284) -/
  activeAtVote : Bool := false
  deriving DecidableEq, Repr

/-- A flit that waits to be sent on, with the port it arrived on (48: the device's own) and whether its planned slot has
passed (R261, R265). -/
structure QFlit where
  port : Nat
  late : Bool := false
  flit : Flit
  deriving DecidableEq, Repr

/-- Pseudo-channel states (R341, R342). -/
inductive PcState where
  | ok | evacuate | retired
  deriving DecidableEq, Repr

/-- Stack port states (R351). -/
inductive StkState where
  | off | training | active | failed | selfRefresh | safe
  deriving DecidableEq, Repr

/-- A stack port (09). -/
structure Stack where
  st      : StkState := .off
  fail    : Nat := 0
  height  : Nat := 0
  density : Nat := 0
  temp    : Nat := 0
  /-- the highest reading of the running pound (R578, R589) -/
  tempMax : Nat := 0
  /-- the highest reading of the latest complete pound -/
  tempLast : Nat := 0
  pcs     : SMap PcState := []
  drained : List Nat := []
  margins : SMap Margin := []
  failedMargin : List Nat := []
  chReq   : Option (Nat × Nat) := none
  lastCh  : Nat := 0
  lastCode : Nat := 0
  /-- reserved bytes and transactions left in the accounting window, by flight slot (R331) -/
  budget  : SMap (Nat × Nat) := []
  scrub   : Nat := 0
  /-- corrected or poisoned words waiting to be written back: word DPA, and the mark to write -/
  writeback : List (Nat × Nat) := []
  deriving DecidableEq, Repr

/-- The states of a cached copy (R368). -/
inductive LineSt where
  | s | e | m
  deriving DecidableEq, Repr

/-- One agent's cached copy of a line (R368, R373); `agent` is its presence-bit index. -/
structure Copy where
  agent  : Nat
  host   : Bool
  addr   : Nat
  st     : LineSt
  /-- the data of an M copy -/
  data   : List Byte := []
  poison : Nat := 0
  age    : Nat := 1
  way    : Nat := 0
  /-- in the victim buffer (R373) -/
  victim : Bool := false
  /-- a byte's parity is bad (R386, R409) -/
  bad    : Bool := false
  /-- filled by a prefetch and not used yet (R385) -/
  pf     : Bool := false
  deriving DecidableEq, Repr

/-- A basin line with its directory entry (R369). -/
structure Line where
  host     : Bool
  addr     : Nat
  presence : List Nat := []
  owner    : Option Nat := none
  dirty    : Bool := false
  watch    : Bool := false
  data     : List Byte := []
  /-- words of the line, 0 to 7: mark 1 one check bit wrong, 2 uncorrectable, 3 stored poison -/
  marks    : SMap Nat := []
  age      : Nat := 1
  way      : Nat := 0
  victim   : Bool := false
  /-- filled by a prefetch and not used yet (R385) -/
  pf       : Bool := false
  deriving DecidableEq, Repr

/-- A stride detector (R385): its stream, last line, stride, equal misses and distance. -/
structure Stride where
  basin  : Bool
  idx    : Nat
  stream : Nat
  last   : Nat
  stride : Int
  count  : Nat
  dist   : Nat
  deriving DecidableEq, Repr

/-- A maintenance queue entry (R399); `ring` is the context and ring of a MAINT command. -/
structure MaintEntry where
  op    : Nat
  space_ : Nat
  ctx   : Nat
  addr  : Nat
  len   : Nat
  ring  : Option (Nat × Nat)
  deriving DecidableEq, Repr

/-- A store buffer entry (R429): word address, host space, byte mask and data. -/
structure SbEntry where
  word : Nat
  host : Bool
  /-- the attribute of its page (R365) -/
  attr : Nat := 0
  mask : Nat
  data : Nat
  deriving DecidableEq, Repr

/-- Lockkeeper states (R653). -/
inductive LkState where
  | retired | spare | active | loading
  deriving DecidableEq, Repr

/-- A lockkeeper (11, 18). -/
structure Lockkeeper where
  st       : LkState := .spare
  role     : Option Nat := none
  sb       : List SbEntry := []
  /-- the reserved line and the LR's pin wish -/
  resv     : Option Nat := none
  failedSc : Option Nat := none
  /-- in power-down (R432) -/
  sleeping : Bool := false
  /-- an armed injection: the TARGET of FLT_INJ_LKP (R625) -/
  inject   : Option Nat := none
  /-- a register of the register file has bad parity -/
  regBad   : Bool := false
  /-- device accesses that have not issued yet, oldest first (R428) -/
  device   : List DevAccess := []
  /-- lines of the L1 instruction cache (R361, R364): host memory or not, and address -/
  icache   : List (Bool × Nat) := []
  deriving DecidableEq, Repr

/-- A committed HDM decoder (R447). -/
structure Decoder where
  base   : Nat
  size   : Nat
  dpa    : Nat
  skip   : Nat
  ways   : Nat
  gran   : Nat
  locked : Bool
  deriving DecidableEq, Repr

/-- Who made an outbound CXL.io read (R458). -/
inductive IoUser where
  | barge (t id : Nat)
  | ring (ctx ring : Nat)
  | lockkeeper (k : Nat)
  /-- a request whose data is discarded (R465, R467) -/
  | discard
  deriving DecidableEq, Repr

/-- An outstanding CXL.io read (R455, R456): its tag, address, bytes wanted and bytes received. -/
structure IoRead where
  tag  : Nat
  addr : Nat
  want : Nat
  got  : Nat
  user : IoUser
  deriving DecidableEq, Repr

/-- The AER errors that the block itself raises (R463). -/
inductive AerErr where
  | poisonedTlp | completionTimeout | completerAbort | unexpectedCompletion | unsupportedRequest
  | uncorrectableInternal | ideCheckFailed | correctedInternal | headerLogOverflow
  /-- an error handled as Advisory Non-Fatal -/
  | advisoryNonFatal
  deriving DecidableEq, Repr

/-- The CXL and PCIe side of the host port (12). -/
structure HostPort where
  linkUp    : Bool := false
  memSpace  : Bool := false
  busMaster : Bool := false
  serr      : Bool := false
  per       : Bool := false
  d3hot     : Bool := false
  cacheEn   : Bool := false
  biEnable  : Bool := false
  viralEn   : Bool := false
  viralSent : Bool := false
  cacheInvalid : Bool := false
  memActive : Bool := false
  msixEn    : Bool := false
  msiEn     : Bool := false
  msiCount  : Nat := 1
  funcMask  : Bool := false
  /-- MSI vectors that are masked (R475); MSI-X mask bits lie in the MSI-X table -/
  msiMasked : List Nat := []
  /-- vectors whose pending bit is set -/
  pendingVec : List Nat := []
  /-- messages that wait for Bus Master Enable (R475) -/
  waitingVec : List Nat := []
  /-- posted writes to host memory that wait for Bus Master Enable (R465, R466) -/
  waitingWr : List (Nat × List Byte × Bool) := []
  mrrs      : Nat := 512
  ctoValue  : Nat := 0
  tag14     : Bool := false
  tag10     : Bool := false
  outstanding : List IoRead := []
  /-- reads that wait for a tag or for Bus Master Enable (R456, R465) -/
  waitingRd : List IoRead := []
  quarantine : List Nat := []
  /-- tags of requests made before an FLR (R468) -/
  stale     : List Nat := []
  /-- AER: status bits that are set, the headers held (by their errors) and the first error -/
  aer       : List AerErr := []
  aerHeaders : List AerErr := []
  aerFirst  : Option AerErr := none
  rasUncorr : Bool := false
  /-- dwords of configuration space whose writable bits differ from their reset value, by offset (R443, R444) -/
  cfg       : SMap Reg := []
  flrBusy   : Bool := false
  decoders  : List Decoder := []
  commitErr : List Nat := []
  /-- outstanding back-invalidation snoops: line DPA, and true for BISnpInv -/
  bisnp     : List (Nat × Bool) := []
  /-- lines whose BISnpCur has been answered for the request that waits on it -/
  curOk     : List Nat := []
  /-- BIConflicts to answer once the home has ordered the request (R449) -/
  conflicts : List Nat := []
  sessions  : SMap Nat := []
  spdmVersion : Bool := false
  spdmAlgo  : Bool := false
  ideIo     : Nat := 0
  ideMem    : Nat := 0
  deriving DecidableEq, Repr

/-- Berth states (R545). -/
inductive BState where
  | off | training | active | draining | drained | down | safe
  deriving DecidableEq, Repr

/-- A message to a berth that has no CPL yet (R553). -/
structure BerthOut where
  tag   : Nat
  tile  : Nat
  barge : Nat
  off   : Nat
  len   : Nat
  read  : Bool
  deriving DecidableEq, Repr

/-- A berth (15). -/
structure Berth where
  st      : BState := .off
  modules : Nat := 0
  rate    : Nat := 0
  vendor  : Nat := 0
  device  : Nat := 0
  out     : List BerthOut := []
  nextTag : Nat := 0
  deriving DecidableEq, Repr

/-- A power lease (R573, R574). -/
structure Lease where
  watts : Nat
  start : Nat
  dur   : Nat
  deriving DecidableEq, Repr

/-- Power classes (R570). -/
inductive PClass where
  | compute | memory | links
  deriving DecidableEq, Repr

/-- The power side (16). Powers in watts; a ratio is a pair (numerator, denominator). -/
structure Power where
  drv       : Option Lease := none
  tow       : Option Lease := none
  /-- the last 8 rail samples, newest first -/
  samples   : List (Nat × Nat × Nat) := []
  /-- sums of the running pound's samples and their number -/
  sumC      : Nat := 0
  sumM      : Nat := 0
  sumL      : Nat := 0
  count     : Nat := 0
  limits    : List PClass := []
  /-- samples since the last engagement and since the last release of a fast limit, up to 8 -/
  sinceEngage  : Nat := 8
  sinceRelease : Nat := 8
  prio      : Nat := 0
  droop     : Nat := 0x100A06
  conservative : Bool := false
  factor    : Nat × Nat := (1, 1)
  diverge   : Nat := 0
  agree     : Nat := 0
  ratio     : Option (Nat × Nat) := none
  /-- estimate of the pound now running and whether a flight runs in it -/
  estNow    : Nat × Nat := (0, 1)
  ranNow    : Bool := false
  divergeMet : Bool := false
  agreeMet  : Bool := false
  deriving DecidableEq, Repr

/-- A kept fault record (R599) with its sequence number. -/
structure FaultRec where
  msg   : FaultMsg
  pound : Nat
  off   : Nat
  esc   : Bool
  seq   : Nat
  deriving DecidableEq, Repr

/-- A reaction that waits for a lock (R604, R606, R607). -/
inductive Reaction where
  | retireTile (t : Nat)
  | retirePort (p : Nat)
  | retirePc (port pc : Nat)
  | recoverWay (basin : Bool) (idx way : Nat)
  | retireLk (k : Nat)
  | deviceFault
  | deviceHalt
  deriving DecidableEq, Repr

/-- The fault collector (17). -/
structure Collector where
  /-- log slots 0 to 63 in use -/
  log      : SMap FaultRec := []
  nextSeq  : Nat := 0
  newest   : Nat := 0
  ringCount : Nat := 0
  /-- counters by (unit key, kind): pounds of the last events, newest first -/
  counters : List (Nat × Nat × List Nat) := []
  /-- reactions that wait for a lock; true: raised after the cut-off (R27, R604) -/
  reactions : List (Bool × Reaction) := []
  halted   : Bool := false
  /-- the classification in force: true is equal mode (R609) -/
  equal    : Bool := false
  /-- contexts whose abort a fault message has asked for (R485, R607) -/
  ctxAborts : List Nat := []
  deriving DecidableEq, Repr

/-- A translation failure record or batch entry (R530). -/
structure XltRec where
  va      : Nat
  pound   : Nat
  off     : Nat
  engines : Nat
  ctx     : Nat
  cause   : Nat
  needed  : Nat
  page    : Nat
  slot    : Nat
  count   : Nat
  deriving DecidableEq, Repr

/-- A cached leaf (R526): TLB unit, context, VA, level, entry, and whether its parity is bad. -/
structure TlbEntry where
  unit  : Nat
  ctx   : Nat
  va    : Nat
  level : Nat
  entry : Nat
  bad   : Bool := false
  deriving DecidableEq, Repr

/-- Translation (14). -/
structure Xlt where
  /-- pool pages in use as tables -/
  alloc    : List Nat := []
  tlb      : List TlbEntry := []
  batch    : List XltRec := []
  overflow : Option XltRec := none
  /-- posted-fault set: context, VA, page code -/
  posted   : List (Nat × Nat × Nat) := []
  frCount  : Nat := 0
  hrCount  : Nat := 0
  /-- access counters, most recent first: context, block, count, wrote -/
  counters : List (Nat × Nat × Nat × Bool) := []
  hotQ     : List (Nat × Nat × Nat × Bool) := []
  deriving DecidableEq, Repr

/-- A gate flit received in the running pound: its round, phase, sender and part (0 A, 1 B), and what it
carries. -/
structure GateIn where
  round : Nat
  phase : Nat
  peer  : Nat
  part  : Nat
  gate  : Gate
  deriving DecidableEq, Repr

/-- The gate exchange of the running pound (01, 07). -/
structure GateState where
  /-- orders raised in this pound before the cut-off -/
  own     : Gate := {}
  /-- orders raised after the cut-off: they go into the next pound's contribution (R27) -/
  next    : Gate := {}
  /-- the contribution as it left at the cut-off -/
  sent    : Gate := {}
  got     : List GateIn := []
  /-- the vote now being decided, and this device's own vote in it -/
  round   : Nat := 0
  voted   : Bool := false
  cut     : Bool := false
  deriving DecidableEq, Repr

/-- A remote barge or replica stream that is arriving (R258, R309): the logical tile it writes, its prefix word,
whether it is refused, and a stream's words so far. -/
structure Incoming where
  tile   : Nat
  head   : Nat
  denied : Bool
  words  : PBytes := []
  /-- a replica stream whose last flit was accepted -/
  ended  : Bool := false
  deriving DecidableEq, Repr

/-- Waterway membership and time (01, 08). -/
structure Waterway where
  time     : Nat := 0
  /-- the fraction of a nanosecond, in 2^-16 ns, and the time up to which the rate has been corrected (R23) -/
  frac     : Nat := 0
  syncAt   : Nat := 0
  pound    : Nat := 0
  epoch    : Nat := 0
  slip     : Nat := 0
  lockTime : Nat := 0
  index    : Nat := 0
  coord    : Nat × Nat × Nat × Nat := (0, 0, 0, 0)
  shape    : Nat × Nat × Nat × Nat := (1, 1, 1, 1)
  joined   : Bool := false
  lm       : Option Nat := none
  lmAbsent : Nat := 0
  candidate : Bool := false
  holdover : Bool := false
  /-- the holdover has expired: the pound at whose lock the flights hold and the device leaves the waterway (R49) -/
  expired  : Option Nat := none
  /-- upper half captured by the last LO read of each 64-bit pair, by LO offset (R51) -/
  capture  : SMap Reg := []
  /-- the device fault result in force, and bits newly set at the last lock (R313, R314) -/
  faults   : List Nat := []
  newFaults : List Nat := []
  ownFault : Bool := false
  missFault : Bool := false
  /-- the largest minimum gate lead that another device has published, in 10 ns units (R42) -/
  otherMin : Nat := 10
  discovering : Bool := false
  /-- the device has held time lock since its last reset: a later election is no first one (R46, R319) -/
  timed    : Bool := false
  deriving DecidableEq, Repr

/-- Bring-up and firmware (18). -/
structure Boot where
  step       : Nat := 0
  failed     : Option Nat := none
  safe       : Bool := false
  fwReady    : Bool := false
  fwEverReady : Bool := false
  wayValid   : Bool := false
  /-- firmware store (R636) -/
  store      : Ram := {}
  fwSize     : Nat := 0
  stagedSize : Nat := 0
  fwVersion  : Nat := 0
  fwMin      : Nat := 0
  /-- the image read that is in progress: 0 boot, 1 update -/
  reading    : Option Nat := none
  /-- a live update: the role being updated and its stage (0 waits to migrate out, 1 its core loads, 2 loaded) -/
  update     : Option (Nat × Nat) := none
  /-- LKP_UPD.DONE -/
  updDone    : Nat := 0
  updCore    : Option Nat := none
  /-- roles whose planned migration waits for the lock -/
  migrating  : List Nat := []
  /-- the Waybill (R641): its generation, the fields whose changes count as last published, and its bytes up to the
  last that is not 0 for good -/
  generation : Nat := 0
  published  : List Nat := []
  waybill    : List Byte := []
  flightStore : Nat := 2 ^ 30
  capacity   : Nat := 48 * 2 ^ 30
  deriving DecidableEq, Repr

/-- A request that waits at its home for a response of the host or for a pin (R370, R426), with the operands of
its command. -/
inductive HeldReq where
  | sharedRead (agent : Nat) (host : Bool) (addr attr : Nat)
  | ownershipRead (agent : Nat) (host : Bool) (addr : Nat)
  | nonCachingRead (host : Bool) (addr len : Nat)
  | nonCachingWrite (host : Bool) (addr attr : Nat) (bytes : List Byte) (poison : Bool)
  | atomic (addr attr fn size operand compare : Nat) (moored : Bool)
  | storeBufferDrain (k : Nat)
  | lkLoad (k : Nat) (host : Bool) (addr attr size : Nat)
  | lkStore (k : Nat) (host : Bool) (addr attr size value : Nat)
  | lkAmo (k : Nat) (host : Bool) (addr attr fn size operand compare : Nat) (aq rl : Bool)
  | lr (k : Nat) (host : Bool) (addr attr size : Nat) (aq rl : Bool)
  | sc (k : Nat) (host : Bool) (addr attr size value : Nat) (aq rl : Bool)
  | lkFence (k : Nat)
  | fenceI (k : Nat)
  | trapEntry (k older : Nat)
  | lkPowerDown (k : Nat)
  | memRd (hpa : Nat) (metaState : Bool) (metaValue snp : Nat)
  | memWr (hpa metaValue snp : Nat) (bytes : List Byte) (poison : Bool)
  | berthWr (b : Nat) (m : BerthMsg)
  | berthRd (b : Nat) (m : BerthMsg)
  | berthAmo (b : Nat) (m : BerthMsg)
  | berthFence (b : Nat) (m : BerthMsg)
  | berthDb (b : Nat) (m : BerthMsg)
  | berthRdCurr (b addr : Nat)
  | berthRdShared (b addr : Nat)
  | berthRdOwn (b addr : Nat)
  | berthRdOwnNoData (b addr : Nat)
  | bargeLanding (t id : Nat)
  | globalAccessLanding (t id : Nat)
  deriving DecidableEq, Repr

/-- The basin and the mooring (10). -/
structure Basin where
  lines    : List Line := []
  copies   : List Copy := []
  /-- frames whose bias is SHR -/
  shr      : List Nat := []
  moor     : Nat := 0
  moorReq  : Option Nat := none
  moorCleaned : Bool := false
  moored   : Ram := {}
  disabled : List (Bool × Nat × Nat) := []
  /-- ways in recovery (R387) -/
  recovering : List (Bool × Nat × Nat) := []
  strides  : List Stride := []
  queue    : List MaintEntry := []
  lastStatus : Nat := 0
  done     : Nat := 0
  /-- line pins of R426: line and lockkeeper -/
  pins     : List (Nat × Nat) := []
  /-- requests that wait at their home for a host response or a pin (R370, R426) -/
  held     : List HeldReq := []
  deriving DecidableEq, Repr

/-- What the block sends out at its boundary, oldest first (log entry 5). -/
inductive Out where
  /-- a flit's 256 bytes, and whether a parity symbol of codeword 0 is inverted (R253, R291) -/
  | flit (port : Nat) (bytes : List Byte) (fecInverted : Bool)
  | msi (vec : Nat)
  | barData (bytes : List Byte) (ep : Bool)
  | barAbort
  | barUnsupported
  | memData (bytes : List Byte) (poison : Bool)
  | memDone
  | bisnpInv (dpa : Nat)
  | bisnpCur (dpa : Nat)
  | biConflictAck (dpa : Nat)
  | d2h (req addr : Nat)
  | snpRsp (addr : Nat) (data : Option (List Byte))
  | ioRead (tag addr len : Nat)
  | ioWrite (addr len : Nat)
  | spdm (code session : Nat) (bytes : List Byte)
  | berthCpl (b tag status : Nat) (bytes : List Byte) (poison : Nat)
  | berthSend (b tag addr len : Nat) (wr : Bool) (bytes : List Byte) (poison : Nat)
  | berthSnpInv (b addr : Nat)
  | berthSnpData (b addr : Nat)
  | berthSnpCur (b addr : Nat)
  | berthRsp (b addr : Nat) (error : Bool) (data : Option (List Byte)) (poison : Bool)
  | towpath (code status : Nat) (bytes : List Byte)
  | viral
  | lkData (k : Nat) (value : Nat)
  | lkFault (k : Nat) (store : Bool)
  | scResult (k : Nat) (failed : Bool)
  | homeData (bytes : List Byte) (poison : Bool)
  | stackData (bytes : List Byte) (poison : Bool)
  | atomicOld (value : Nat) (poison : Bool)
  | mooredData (bytes : List Byte) (poison : Bool)
  | readLatency (cycles : Nat)
  deriving DecidableEq, Repr

/-- Faults of the model: none is raised, since every stop the spec describes is an effect on the
state. Kept closed and empty of meaning for the interface. -/
inductive Fault where
  /-- raised by no meaning; safe -/
  | none
  deriving DecidableEq, Repr

/-- Refusals of the model. -/
inductive Refusal where
  /-- raised by an arm of `exec` whose command has no meaning yet; safe -/
  | notModelled (mnemonic : String)
  deriving DecidableEq, Repr

/-- The state of the block. -/
structure State where
  /-- the commands that wait, first in first out (the model's own field: log entry 1) -/
  pending  : List Instr := []
  /-- the counter that free values are drawn from (the model's own field: log entry 3) -/
  fresh    : Nat := 0
  fuses    : Fuses := {}
  pins     : Pins := {}
  boot     : Boot := {}
  /-- BAR0 registers that hold a value other than their reset value, by offset (R8) -/
  regs     : SMap Reg := []
  ww       : Waterway := {}
  gate     : GateState := {}
  /-- outcome of the musters that wait: (tag, barrier, count), R293 -/
  musters  : List MusterItem := []
  tiles    : SMap Tile := []
  reaches  : SMap Reach := []
  flights  : SMap Flight := []
  contexts : SMap Context := []
  waits    : List Wait := []
  canals   : SMap Canal := []
  /-- the flits that wait to be sent on, oldest first (R259) -/
  transit  : List QFlit := []
  /-- remote barges of this device: tile and barge by ticket; from 272 up the tile stands for a replica stream
  of the flight in that slot (R258, R309) -/
  tickets  : SMap (Nat × Nat) := []
  /-- remote barges and streams of other devices that are arriving, by source device * 256 + ticket -/
  remote   : SMap Incoming := []
  stk      : SMap Stack := []
  basin    : Basin := {}
  lks      : SMap Lockkeeper := []
  port     : HostPort := {}
  berths   : SMap Berth := []
  power    : Power := {}
  flt      : Collector := {}
  xlt      : Xlt := {}
  /-- HDM by device physical address -/
  hdm      : Ram := {}
  /-- host memory by host physical address, as the device reads and writes it -/
  host     : Ram := {}
  /-- the access-table copy taken when ACT_CTL.HOLD was set (R559): the ACT registers then -/
  actCopy  : Option (SMap Reg) := none
  /-- writes to RWQ fields that were ignored since the unit was not quiesced: the pound and the offset (R19) -/
  rwqLog   : List (Nat × Nat) := []
  out      : List Out := []
  deriving DecidableEq, Repr

/-- The state right after reset: power applied, nothing brought up. Every table is empty, so every
register reads its reset value and every memory reads zero (values that no rule states: DESIGN CHOICE and PRESUMED, log
entries 6 to 10). -/
def State.reset : State := {}

end Sys2Proof.Machine
end

