-- ==== Sys2Proof/Machine/Tables.lean ====
section
/-! DEFINITION. Operations on the sparse tables and byte memories that the state is made of. -/

namespace Sys2Proof.Machine

/-- The entry of `k`, or the default `d`. -/
def sget {α : Type} (d : α) : SMap α → Nat → α
  | [], _ => d
  | (k', v) :: m, k => if k' = k then v else sget d m k

/-- The entry of `k`, if it is listed. -/
def sfind? {α : Type} : SMap α → Nat → Option α
  | [], _ => none
  | (k', v) :: m, k => if k' = k then some v else sfind? m k

/-- Lists `v` at `k`, keeping the keys in rising order. -/
def sput {α : Type} (k : Nat) (v : α) : SMap α → SMap α
  | [] => [(k, v)]
  | (k', v') :: m =>
    if k < k' then (k, v) :: (k', v') :: m
    else if k = k' then (k, v) :: m
    else (k', v') :: sput k v m

/-- Unlists `k`. -/
def sdel {α : Type} (k : Nat) : SMap α → SMap α
  | [] => []
  | (k', v') :: m => if k' = k then sdel k m else (k', v') :: sdel k m

/-- Writes `v` at `k` in canonical form: an entry equal to the default is not listed. -/
def sset {α : Type} [DecidableEq α] (d : α) (k : Nat) (v : α) (m : SMap α) : SMap α :=
  if v = d then sdel k m else sput k v m

/-- Writes a run of values from key `k` upward. -/
def ssetList {α : Type} [DecidableEq α] (d : α) (k : Nat) : List α → SMap α → SMap α
  | [], m => m
  | v :: vs, m => ssetList d (k + 1) vs (sset d k v m)

/-- The values of keys `k` to `k + n - 1`. -/
def sgetList {α : Type} (d : α) (m : SMap α) (k : Nat) : Nat → List α
  | 0 => []
  | n + 1 => sget d m k :: sgetList d m (k + 1) n

/-- The values of keys `k` to `k + n - 1` of a table in canonical form, in one walk. -/
def sslice {α : Type} (d : α) (m : SMap α) (k : Nat) : Nat → List α
  | 0 => []
  | n + 1 =>
    match m.dropWhile fun e => decide (e.1 < k) with
    | [] => d :: sslice d [] (k + 1) n
    | (k', v) :: r => if k' = k then v :: sslice d r (k + 1) n else d :: sslice d ((k', v) :: r) (k + 1) n

/-- Keys strictly rising, and no entry equal to the default: the canonical form of a table. -/
def swf {α : Type} [DecidableEq α] (d : α) : SMap α → Bool
  | [] => true
  | (_, v) :: [] => decide (v ≠ d)
  | (k, v) :: (k', v') :: m => decide (v ≠ d) && decide (k < k') && swf d ((k', v') :: m)

/-! ### Byte memories -/

/-- What an unlisted byte reads as: zero (R325 for HDM, R81 for a hold). -/
def Ram.blank : Byte := 0

/-- The canonical form of a memory. -/
def Ram.wf (m : Ram) : Bool := swf Ram.blank m.bytes && swf 0 m.marks

/-- Reads one byte. -/
def Ram.byte (m : Ram) (a : Nat) : Byte := sget Ram.blank m.bytes a

/-- Writes one byte; the word's mark stays. -/
def Ram.setByte (m : Ram) (a : Nat) (b : Byte) : Ram := { m with bytes := sset Ram.blank a b m.bytes }

/-- The mark of the word that holds byte `a`. -/
def Ram.mark (m : Ram) (a : Nat) : Nat := sget 0 m.marks (a / 8)

/-- Sets the mark of the word that holds byte `a`. -/
def Ram.setMark (m : Ram) (a k : Nat) : Ram := { m with marks := sset 0 (a / 8) k m.marks }

/-- `n` bytes from `a`. -/
def Ram.read (m : Ram) (a : Nat) : Nat → List Byte
  | 0 => []
  | n + 1 => m.byte a :: Ram.read m (a + 1) n

/-- Writes bytes from `a` upward, in ascending order; marks stay. -/
def Ram.write (m : Ram) (a : Nat) : List Byte → Ram
  | [] => m
  | b :: bs => Ram.write (m.setByte a b) (a + 1) bs

/-- The word indices that bytes `a` to `a + n - 1` touch. -/
def wordsOf (a n : Nat) : List Nat :=
  if n = 0 then [] else (List.range ((a + n - 1) / 8 - a / 8 + 1)).map (· + a / 8)

/-- Marks every word of a byte range. -/
def Ram.markRange (m : Ram) (a n k : Nat) : Ram :=
  (wordsOf a n).foldl (fun r w => r.setMark (8 * w) k) m

/-- Whether a mark delivers its word poisoned (R334): uncorrectable or stored poison. -/
def badMark (k : Nat) : Bool := k == 2 || k == 3

/-- Whether any word of a byte range is delivered poisoned. -/
def Ram.poisoned (m : Ram) (a n : Nat) : Bool := (wordsOf a n).any fun w => badMark (m.mark (8 * w))

/-- A write of whole words or of bytes with the poison of R335: clean data clears the mark of the
words it covers whole, keeps a bad mark of a word it covers in part (R337), and poisoned data stores
every word it writes with the reserved syndrome. -/
def Ram.store (m : Ram) (a : Nat) (bs : List Byte) (poison : Bool) : Ram :=
  let r := m.write a bs
  (wordsOf a bs.length).foldl (fun r w =>
    if poison then r.setMark (8 * w) 3
    else if a ≤ 8 * w ∧ 8 * w + 8 ≤ a + bs.length then r.setMark (8 * w) 0
    else if badMark (m.mark (8 * w)) then r.setMark (8 * w) 3
    else r.setMark (8 * w) 0) r

/-- Bytes of a hold (R72). -/
def HOLD_BYTES : Nat := 0x180000

/-! ### Little-endian numbers (R19) -/

/-- The number that little-endian bytes spell. -/
def leNat : List Byte → Nat
  | [] => 0
  | b :: bs => b.toNat + 256 * leNat bs

/-- The number that big-endian bytes spell (R228, R634). -/
def beNat (bs : List Byte) : Nat := leNat bs.reverse

/-- The low `n` bytes of a number, little-endian. -/
def toLe : Nat → Nat → List Byte
  | 0, _ => []
  | n + 1, v => BitVec.ofNat 8 v :: toLe n (v / 256)

/-- A little-endian field of `n` bytes at `a`. -/
def Ram.num (m : Ram) (a n : Nat) : Nat := leNat (m.read a n)

end Sys2Proof.Machine
end

