-- ==== Sys2Proof/Machine/Regs.lean ====
section
/-! DEFINITION. The register map of BAR0 (R8): for each register the fields that a write may change,
its reset value and the fields that a warm reset keeps; and the read and write of a register's store. -/

namespace Sys2Proof.Machine

/-- When the RWQ fields of a register are writable (R19). -/
inductive Quiesce where
  | always | notJoined | stkIdle | ringOff | rngOff | xltOff | fltRingOff | beforeFwReady | berthQuiet
  deriving DecidableEq, Repr

/-- A register of BAR0: the masks of its writable fields by type (R19), the RW fields that a set bit
31 (GO) locks, its reset value and the fields marked W. -/
structure RegDef where
  rw    : Nat := 0
  rwq   : Nat := 0
  quiet : Quiesce := .always
  w1c   : Nat := 0
  w1s   : Nat := 0
  /-- while GO is 1, writes to the RW fields are ignored -/
  goLock : Bool := false
  reset : Nat := 0
  warm  : Nat := 0
  deriving DecidableEq, Repr

/-! ### Register offsets, by their names in the spec -/

def GLB_ID := 0x0
def GLB_STATUS := 0x4
def GLB_SCRATCH := 0x8
def TCK_CTL := 0x1000
def TCK_STAT := 0x1004
def TCK_PLEN := 0x1028
def TCK_GATE := 0x102C
def TCK_REQ := 0x1030
def TCK_LOCK_IRQ := 0x1034
def PWR_CTL := 0x2000
def PWR_FLOOR := 0x2004
def PWR_BASE := 0x2008
def PWR_LEASE_DRV := 0x200C
def PWR_LEASE_TOW := 0x2010
def PWR_CAP := 0x2014
def PWR_MEAS0 := 0x2018
def PWR_MEAS1 := 0x201C
def PWR_STAT := 0x2020
def PWR_DROOP := 0x2024
def PWR_THERM := 0x2028
def PWR_BOOST := 0x202C
def PWR_REACH := 0x2040
def FLT_CTL := 0x3000
def FLT_STAT := 0x3004
def FLT_PIN := 0x3008
def FLT_RESET := 0x300C
def FLT_LOG_CTL := 0x3010
def FLT_LOG_OVF := 0x3014
def FLT_RING_LO := 0x3018
def FLT_RING_HI := 0x301C
def FLT_RING_CW_LO := 0x3020
def FLT_RING_CW_HI := 0x3024
def FLT_RING := 0x3028
def FLT_RING_LOST := 0x302C
def FLT_INJ_TILE := 0x3030
def FLT_INJ_LKP := 0x3034
def FLT_INJ_MSG := 0x3038
def FLT_CNT := 0x3400
def FLT_LOG := 0x3800
def IRQ_CTL := 0x4000
def IRQ_PEND := 0x4004
def IRQ_CTO := 0x4008
def IRQ_TAGS := 0x400C
def IRQ_SRC := 0x4010
def RNG_CTL := 0x5000
def RNG_POLL := 0x5004
def RNG_SEL := 0x5008
def RNG_CTX_CTL := 0x500C
def RNG_BASE_LO := 0x5010
def RNG_BASE_HI := 0x5014
def RNG_SIZE := 0x5018
def RNG_DB_LO := 0x501C
def RNG_DB_HI := 0x5020
def RNG_RCTL := 0x5024
def RNG_CONS := 0x5028
def RNG_PROD := 0x502C
def RNG_OBJ_LO := 0x5030
def RNG_OBJ_HI := 0x5034
def RNG_OBJ_COUNT := 0x5038
def RNG_WATCH := 0x503C
def RNG_ERR := 0x5040
def RNG_INJ := 0x5044
def XLT_CTL := 0x6000
def XLT_STAT := 0x6004
def XLT_POOL_LO := 0x6008
def XLT_POOL_HI := 0x600C
def XLT_POOL_SIZE := 0x6010
def XLT_POOL_FREE := 0x6014
def XLT_FR_LO := 0x6018
def XLT_FR_HI := 0x601C
def XLT_FR_CW_LO := 0x6020
def XLT_FR_CW_HI := 0x6024
def XLT_HR_LO := 0x6028
def XLT_HR_HI := 0x602C
def XLT_HR_CW_LO := 0x6030
def XLT_HR_CW_HI := 0x6034
def XLT_HOT := 0x6038
def XLT_ERR := 0x603C
def XLT_INJ := 0x6040
def CMX_CMD := 0x7000
def CMX_ADDR_LO := 0x7004
def CMX_ADDR_HI := 0x7008
def CMX_LEN_LO := 0x700C
def CMX_LEN_HI := 0x7010
def CMX_STAT := 0x7014
def CMX_DONE := 0x7018
def CMX_ERR := 0x701C
def CMX_MOOR := 0x7020
def CMX_PF := 0x7024
def CMX_WAYSEL := 0x7028
def CMX_WAYDIS := 0x702C
def CMX_INJ := 0x7030
def ACT_CTL := 0x8000
def ACT_LOG0 := 0x8004
def ACT_LOG1 := 0x8008
def ACT_RULE := 0x8400
def ACT_TGT := 0x8800
def CNL := 0x10000
def STK := 0x14000
def BRT := 0x16000
def FUS_REACHES := 0x17000
def FUS_LKP := 0x17004
def FUS_FW_MIN := 0x17008
def FUS_REPAIR := 0x1700C
def FUS_REGRADE := 0x17010
def FUS_SUBST := 0x17014
def FUS_TILE := 0x17400
def LKP_FW_ADDR_LO := 0x18000
def LKP_FW_ADDR_HI := 0x18004
def LKP_FW_LEN := 0x18008
def LKP_FW_CTL := 0x1800C
def LKP_FW_VER := 0x18010
def LKP_BOOT := 0x18014
def LKP_UPD := 0x18018
def LKP_CORE := 0x18040
def LKP_ROLE := 0x180A0
def MSIX_TABLE := 0x20000
def MSIX_PBA := 0x28000

/-- Base of a canal port's window. -/
def cnlReg (p off : Nat) : Nat := CNL + 0x100 * p + off
/-- Base of a stack port's window. -/
def stkReg (p off : Nat) : Nat := STK + 0x100 * p + off
/-- Base of a berth's window. -/
def brtReg (b off : Nat) : Nat := BRT + 0x400 * b + off

/-! ### Assigned fault kinds (R601): code, base class, unit class, default N and W -/

/-- One row of the kind table: code, unit class, base class (0 to 4), N, W. -/
structure KindDef where
  code : Nat
  unit : Nat
  cls  : Nat
  n    : Nat := 0
  w    : Nat := 0
  deriving DecidableEq, Repr

/-- The kinds of R601. A kind with several unit classes lists its first. -/
def kindTable : List KindDef :=
  [⟨0x01, 1, 3, 0, 0⟩, ⟨0x02, 1, 3, 0, 0⟩, ⟨0x03, 1, 3, 0, 0⟩, ⟨0x04, 1, 1, 3, 100000⟩,
   ⟨0x05, 1, 3, 0, 0⟩, ⟨0x06, 1, 3, 0, 0⟩, ⟨0x07, 1, 3, 0, 0⟩, ⟨0x08, 1, 0, 0, 0⟩,
   ⟨0x09, 1, 1, 8, 100000⟩, ⟨0x0A, 1, 2, 0, 0⟩, ⟨0x10, 11, 1, 0, 0⟩, ⟨0x11, 0, 1, 4, 1000⟩,
   ⟨0x12, 0, 2, 0, 0⟩, ⟨0x13, 0, 1, 0, 0⟩, ⟨0x14, 11, 3, 0, 0⟩, ⟨0x15, 11, 3, 0, 0⟩,
   ⟨0x16, 11, 0, 8, 10000⟩, ⟨0x17, 11, 0, 0, 0⟩, ⟨0x20, 1, 0, 0, 0⟩, ⟨0x21, 1, 1, 0, 0⟩] ++
  [⟨0x22, 11, 3, 0, 0⟩, ⟨0x23, 1, 0, 0, 0⟩, ⟨0x24, 11, 1, 0, 0⟩, ⟨0x30, 5, 0, 0, 0⟩,
   ⟨0x31, 5, 1, 8, 100000⟩, ⟨0x32, 5, 2, 0, 0⟩, ⟨0x33, 5, 1, 0, 0⟩, ⟨0x40, 4, 0, 0, 0⟩,
   ⟨0x41, 4, 1, 16, 1000000⟩, ⟨0x42, 4, 1, 0, 0⟩, ⟨0x43, 4, 1, 0, 0⟩, ⟨0x44, 4, 1, 0, 0⟩,
   ⟨0x45, 4, 2, 0, 0⟩, ⟨0x50, 2, 0, 16, 100000⟩, ⟨0x51, 2, 3, 0, 0⟩, ⟨0x52, 6, 0, 16, 100000⟩,
   ⟨0x53, 3, 0, 64, 100000⟩, ⟨0x54, 3, 1, 4, 100000⟩, ⟨0x55, 3, 1, 4, 100000⟩,
   ⟨0x56, 3, 1, 4, 100000⟩] ++
  [⟨0x57, 3, 2, 0, 0⟩, ⟨0x60, 6, 1, 0, 0⟩, ⟨0x61, 6, 1, 2, 100000⟩, ⟨0x62, 6, 1, 4, 100000⟩,
   ⟨0x63, 6, 2, 0, 0⟩, ⟨0x70, 7, 1, 0, 0⟩, ⟨0x71, 7, 3, 0, 0⟩, ⟨0x72, 9, 1, 0, 0⟩,
   ⟨0x73, 9, 0, 0, 0⟩, ⟨0x74, 8, 0, 0, 0⟩, ⟨0x75, 8, 1, 0, 0⟩, ⟨0x76, 8, 1, 0, 0⟩,
   ⟨0x77, 16, 1, 0, 0⟩, ⟨0x80, 12, 1, 0, 0⟩, ⟨0x81, 12, 1, 0, 0⟩, ⟨0x82, 13, 4, 0, 0⟩,
   ⟨0x83, 12, 4, 0, 0⟩, ⟨0x90, 10, 3, 0, 0⟩, ⟨0x91, 0, 3, 0, 0⟩]

/-- The row of a kind code, if it is assigned. -/
def kindOf (code : Nat) : Option KindDef := kindTable.find? fun k => k.code == code

/-! ### Units of the variant (R1, R2) -/

/-- Active reaches of a variant. -/
def Variant.reaches : Variant → Nat
  | .a256 => 16 | .a192 => 12 | .a128 => 8

/-- Fused canal ports of a variant (R250: the lowest). -/
def Variant.canals : Variant → Nat
  | .a256 => 48 | .a192 => 36 | .a128 => 24

/-- Fused berths of a variant (R1). -/
def Variant.berths : Variant → Nat
  | .a256 => 4 | .a192 => 4 | .a128 => 2

/-- GLB_ID.VARIANT (R15). -/
def Variant.code : Variant → Nat
  | .a256 => 0 | .a192 => 1 | .a128 => 2

/-- Whether a physical reach is active. -/
def Fuses.reachActive (f : Fuses) (p : Nat) : Bool := f.reaches.contains p

/-- Whether a physical stack port is in the fused set (R2: the home ports of active reaches). -/
def Fuses.stackFused (f : Fuses) (n : Nat) : Bool := f.reachActive (n / 2) && decide (n < 32)

/-! ### The map -/

/-- Registers at fixed offsets (offset, definition). -/
def fixedRegsA : List (Nat × RegDef) :=
  [(GLB_ID, {}), (GLB_STATUS, {}),
   (GLB_SCRATCH, { rw := 0xFFFFFFFF, warm := 0xFFFFFFFF }),
   (TCK_CTL, { rwq := 0xFF01, quiet := .notJoined, reset := 0x8001, warm := 0xFF01 }),
   (TCK_STAT, { w1c := 0x7E }),
   (0x1008, {}), (0x100C, {}), (0x1010, {}), (0x1014, {}), (0x1018, {}), (0x101C, {}),
   (0x1020, {}), (0x1024, {}),
   (TCK_PLEN, { reset := 0x64 }), (TCK_GATE, { reset := 0xA0028 }),
   (TCK_REQ, { rw := 0x7F03FF, w1s := 0x80000000, goLock := true, reset := 0x280064 }),
   (TCK_LOCK_IRQ, { rw := 0xFFFF })]

def fixedRegsB : List (Nat × RegDef) :=
  [(PWR_CTL, { rw := 0x107, reset := 0x100, warm := 0x107 }),
   (PWR_FLOOR, { rw := 0xFFF, reset := 0x4B0, warm := 0xFFF }),
   (PWR_BASE, { rw := 0xFFF, warm := 0xFFF }),
   (PWR_LEASE_DRV, {}), (PWR_LEASE_TOW, {}), (PWR_CAP, { reset := 0x4B0 }),
   (PWR_MEAS0, {}), (PWR_MEAS1, {}), (PWR_STAT, { w1c := 0x8E }),
   (PWR_DROOP, { rw := 0xFFFFFF, reset := 0x100A06, warm := 0xFFFFFF }),
   (PWR_THERM, { reset := 0x7864695A }),
   (PWR_BOOST, { rw := 0xFF, reset := 0x5A, warm := 0xFF })]

def fixedRegsC : List (Nat × RegDef) :=
  [(FLT_CTL, { rw := 0x3, warm := 0x1 }), (FLT_STAT, { w1c := 0x71F }),
   (FLT_PIN, { rw := 0xFF011F00, rwq := 0x1, quiet := .beforeFwReady, reset := 0x0A001C00,
               warm := 0xFF001F01 }),
   (FLT_RESET, { w1s := 0xC0000000 }), (FLT_LOG_CTL, { w1s := 0x80000000 }), (FLT_LOG_OVF, {}),
   (FLT_RING_LO, { rwq := 0xFFFFF1F1, quiet := .fltRingOff, reset := 0x40 }),
   (FLT_RING_HI, { rwq := 0xFFFFFFFF, quiet := .fltRingOff }),
   (FLT_RING_CW_LO, { rwq := 0xFFFFFFF8, quiet := .fltRingOff }),
   (FLT_RING_CW_HI, { rwq := 0xFFFFFFFF, quiet := .fltRingOff }),
   (FLT_RING, { rw := 0x7, reset := 0x1 }), (FLT_RING_LOST, {}),
   (FLT_INJ_TILE, { rw := 0x701FF, w1s := 0x80000000 }),
   (FLT_INJ_LKP, { rw := 0x31F, w1s := 0x80000000 }),
   (FLT_INJ_MSG, { rw := 0x07FFFFFF, w1s := 0x80000000 }),
   (IRQ_CTL, { rw := 0x1 }), (IRQ_PEND, { w1c := 0xFF }),
   (IRQ_CTO, { rw := 0x8000FFFF, reset := 0x3E80, warm := 0x8000FFFF }), (IRQ_TAGS, {})]

def fixedRegsD : List (Nat × RegDef) :=
  [(RNG_CTL, { rw := 0x1 }), (RNG_POLL, { rw := 0xFFFF, reset := 0x64 }),
   (RNG_SEL, { rw := 0xF03FF }),
   (RNG_CTX_CTL, { rw := 0x07000000, w1s := 0x80000000, goLock := true }),
   (RNG_OBJ_LO, { rwq := 0xFFFFF001, quiet := .rngOff }),
   (RNG_OBJ_HI, { rwq := 0xFFFFFFFF, quiet := .rngOff }),
   (RNG_OBJ_COUNT, { rwq := 0x1FFFFF, quiet := .rngOff }), (RNG_WATCH, {}),
   (RNG_ERR, { w1c := 0x3F }), (RNG_INJ, { w1s := 0x1 }),
   (XLT_CTL, { rw := 0x1 }), (XLT_STAT, {}),
   (XLT_POOL_LO, { rwq := 0xFFFFF000, quiet := .xltOff }),
   (XLT_POOL_HI, { rwq := 0xFFFFFFFF, quiet := .xltOff }),
   (XLT_POOL_SIZE, { rwq := 0xFFFFFF, quiet := .xltOff }), (XLT_POOL_FREE, {}),
   (XLT_FR_LO, { rwq := 0xFFFFF1F1, quiet := .xltOff, reset := 0x40 }),
   (XLT_FR_HI, { rwq := 0xFFFFFFFF, quiet := .xltOff }),
   (XLT_FR_CW_LO, { rwq := 0xFFFFFFF8, quiet := .xltOff }),
   (XLT_FR_CW_HI, { rwq := 0xFFFFFFFF, quiet := .xltOff }),
   (XLT_HR_LO, { rwq := 0xFFFFF1F1, quiet := .xltOff, reset := 0x40 }),
   (XLT_HR_HI, { rwq := 0xFFFFFFFF, quiet := .xltOff }),
   (XLT_HR_CW_LO, { rwq := 0xFFFFFFF8, quiet := .xltOff }),
   (XLT_HR_CW_HI, { rwq := 0xFFFFFFFF, quiet := .xltOff }),
   (XLT_HOT, { rw := 0x801FFFFF, reset := 0xA1000 }), (XLT_ERR, { w1c := 0x3F }),
   (XLT_INJ, { w1s := 0x1 })]

def fixedRegsE : List (Nat × RegDef) :=
  [(CMX_CMD, { rw := 0x03FF0037 }),
   (CMX_ADDR_LO, { rw := 0xFFFFFFFF }), (CMX_ADDR_HI, { rw := 0xFFFFFFFF }),
   (CMX_LEN_LO, { rw := 0xFFFFFFFF }), (CMX_LEN_HI, { rw := 0xFFFFFFFF }), (CMX_STAT, {}),
   (CMX_DONE, {}), (CMX_ERR, { w1c := 0x7F }),
   (CMX_MOOR, { rw := 0x1F0000, w1s := 0x80000000, goLock := true, warm := 0x1F }),
   (CMX_PF, { rw := 0xF03, reset := 0x803, warm := 0xF03 }), (CMX_WAYSEL, { rw := 0x1F }),
   (CMX_WAYDIS, {}), (CMX_INJ, { w1s := 0x7 }),
   (ACT_CTL, { rw := 0x1 }), (ACT_LOG0, { w1c := 0x80000000 }), (ACT_LOG1, {}),
   (FUS_REACHES, {}), (FUS_LKP, {}), (FUS_FW_MIN, {}), (FUS_REPAIR, {}),
   (FUS_REGRADE, { rw := 0x1FF, w1s := 0x80000000, goLock := true }),
   (FUS_SUBST, { rw := 0xFF, w1s := 0x80000000, goLock := true }),
   (LKP_FW_ADDR_LO, { rw := 0xFFFFFF00 }), (LKP_FW_ADDR_HI, { rw := 0xFFFFFFFF }),
   (LKP_FW_LEN, { rw := 0x7FFFFF }),
   (LKP_FW_CTL, { rw := 0x100, w1s := 0x80000000, goLock := true }), (LKP_FW_VER, {}),
   (LKP_BOOT, {}), (LKP_UPD, {})]

/-- The registers at fixed offsets. -/
def fixedRegs : List (Nat × RegDef) :=
  fixedRegsA ++ fixedRegsB ++ fixedRegsC ++ fixedRegsD ++ fixedRegsE

/-- A canal port's window (R286 to R291). -/
def cnlDef (fused : Bool) (off : Nat) : Option RegDef :=
  if !fused then none
  else if off = 0x00 then some { rw := 0x1, w1s := 0xC, reset := 1, warm := 0x1 }
  else if off = 0x04 ∨ off = 0x08 ∨ off = 0x0C ∨ off = 0x10 then some {}
  else if off = 0x14 then some { w1c := 0x7F }
  else if off = 0x18 then some { w1s := 0x3 }
  else none

/-- A stack port's window (R350 to R359). -/
def stkDef (fused : Bool) (off : Nat) : Option RegDef :=
  if !fused then none
  else if off = 0x00 then
    some { rw := 0xFF00, rwq := 0x1, quiet := .stkIdle, reset := 0x1801, warm := 0xFF01 }
  else if off = 0x08 then some { rw := 0x31F, w1s := 0x80000000, goLock := true }
  else if off = 0x20 ∨ off = 0x24 then some { w1c := 0xFFFFFFFF }
  else if off = 0x28 then some { rw := 0x3F, w1s := 0x80000000, goLock := true }
  else if off = 0x34 then some { w1c := 0x1FF }
  else if off = 0x38 then some { w1s := 0x3 }
  else if off % 4 = 0 ∧ off ≤ 0x30 then some {}
  else none

/-- A berth's window (R565 to R568). -/
def brtDef (fused : Bool) (off : Nat) : Option RegDef :=
  if !fused then none
  else if off = 0x00 then
    some { rw := 0xFF00000D, rwq := 0x2, quiet := .berthQuiet, reset := 0x14000007, warm := 0xFF000007 }
  else if off = 0x04 ∨ off = 0x0C then some {}
  else if off = 0x08 then some { rw := 0x800003FF }
  else if off = 0x10 then some { w1c := 0x1F }
  else if off = 0x14 then some { w1s := 0x1 }
  else none

/-- The definition of the register at a BAR0 offset, if one is assigned there (R8, R10). -/
def regDef (f : Fuses) (off : Nat) : Option RegDef :=
  match fixedRegs.find? (fun p => p.1 == off) with
  | some (_, d) => some (if off = PWR_BASE then { d with reset := f.pwrBase } else d)
  | none =>
    if off % 4 ≠ 0 then none
    else if 0x2040 ≤ off ∧ off < 0x2080 then
      (if f.reachActive ((off - 0x2040) / 4) then some { reset := 0x84 } else none)
    else if 0x3400 ≤ off ∧ off < 0x3800 then
      (kindOf ((off - 0x3400) / 4)).map fun k =>
        { rw := 0x0FFFFFFF, reset := k.w * 256 + k.n, warm := 0x0FFFFFFF }
    else if 0x3800 ≤ off ∧ off < 0x4000 then some {}
    else if 0x4010 ≤ off ∧ off < 0x4030 then some { rw := 0x800007FF }
    else if 0x5010 ≤ off ∧ off < 0x5030 then some {}
    else if 0x8400 ≤ off ∧ off < 0x8800 then
      some { rw := 0xF0FFFFFF, reset := if off = 0x8400 then 0xF0FFF000 else 0 }
    else if 0x8800 ≤ off ∧ off < 0xAC48 then some { rw := 0xFFFF, reset := 0x100 }
    else if 0x10000 ≤ off ∧ off < 0x13000 then
      cnlDef (decide ((off - 0x10000) / 0x100 < f.variant.canals)) (off % 0x100)
    else if 0x14000 ≤ off ∧ off < 0x16000 then
      stkDef (f.stackFused ((off - 0x14000) / 0x100)) (off % 0x100)
    else if 0x16000 ≤ off ∧ off < 0x17000 then
      brtDef (decide ((off - 0x16000) / 0x400 < f.variant.berths)) (off % 0x400)
    else if 0x17400 ≤ off ∧ off < 0x17840 then some {}
    else if 0x18040 ≤ off ∧ off < 0x180A0 then some {}
    else if 0x180A0 ≤ off ∧ off < 0x180F0 then some { w1s := 0x80000000 }
    else if 0x20000 ≤ off ∧ off < 0x28000 then
      (if off % 16 = 12 then some { rw := 0x1, reset := 1 } else some { rw := 0xFFFFFFFF })
    else if 0x28000 ≤ off ∧ off < 0x28100 then some {}
    else none

/-- The reset value of a register. -/
def regReset (f : Fuses) (off : Nat) : Reg :=
  match regDef f off with
  | some d => BitVec.ofNat 32 d.reset
  | none => 0

/-- The stored value of a register: what software and hardware last wrote, or its reset value. -/
def State.reg (s : State) (off : Nat) : Reg := sget (regReset s.fuses off) s.regs off

/-- Stores a register's whole value. -/
def State.setReg (s : State) (off : Nat) (v : Reg) : State :=
  { s with regs := sset (regReset s.fuses off) off v s.regs }

/-- Bits [hi:lo] of a register. -/
def State.fld (s : State) (off hi lo : Nat) : Nat := bitsOf (s.reg off).toNat hi lo

/-- One bit of a register. -/
def State.bit (s : State) (off i : Nat) : Bool := (s.reg off).getLsbD i

/-- A word with bits [hi:lo] replaced by `v`. -/
def putBits (w : Reg) (hi lo v : Nat) : Reg :=
  let m := BitVec.ofNat 32 ((2 ^ (hi + 1 - lo) - 1) * 2 ^ lo)
  (w &&& ~~~m) ||| (BitVec.ofNat 32 (v * 2 ^ lo) &&& m)

/-- Hardware writes a field. -/
def State.setFld (s : State) (off hi lo v : Nat) : State := s.setReg off (putBits (s.reg off) hi lo v)

/-- Hardware sets or clears one bit. -/
def State.setBit (s : State) (off i : Nat) (b : Bool) : State := s.setFld off i i (bnat b)

/-- What a software write of `v` makes of a register's stored value, by the types of its fields
(R19): `quiet` says whether the RWQ fields are writable now. -/
def writeReg (d : RegDef) (quiet : Bool) (old v : Reg) : Reg :=
  let m (n : Nat) : Reg := BitVec.ofNat 32 n
  let locked := d.goLock && old.getLsbD 31
  let rwMask := if locked then 0 else m d.rw
  let rwqMask := if quiet then m d.rwq else 0
  let plain := rwMask ||| rwqMask
  let base := (old &&& ~~~plain) ||| (v &&& plain)
  let cleared := base &&& ~~~(v &&& m d.w1c)
  cleared ||| (v &&& m d.w1s)

/-- What a warm reset makes of a register's stored value: the fields marked W are kept (R19). -/
def warmReg (d : RegDef) (old : Reg) : Reg :=
  let w := BitVec.ofNat 32 d.warm
  (old &&& w) ||| (BitVec.ofNat 32 d.reset &&& ~~~w)

end Sys2Proof.Machine
end

