-- ==== Sys2Proof/Machine/Ops.lean ====
section
/-! DEFINITION. Named operations on the state that every family of commands shares: the tables of
units, time, gate orders, interrupts, the frames of device memory and the latest bytes of a line. -/

namespace Sys2Proof.Machine

/-! ### Units -/

/-- A reach as fused: positions in ascending order without the fused spare (R63). -/
def reachDefault (f : Fuses) (p : Nat) : Reach :=
  { tileMap := (((List.range 17).filter fun q => q ≠ sget 16 f.sparePos p).map some) }

/-- A physical reach. -/
def State.reach (s : State) (p : Nat) : Reach := sget (reachDefault s.fuses p) s.reaches p

/-- Stores a physical reach. -/
def State.setReach (s : State) (p : Nat) (r : Reach) : State :=
  { s with reaches := sset (reachDefault s.fuses p) p r s.reaches }

/-- A physical tile as cold reset leaves it (R63, R80, R93). -/
def tileDefault (f : Fuses) (t : Nat) : Tile :=
  if !f.reachActive (t / 17) || decide (272 ≤ t) then { st := .off }
  else
    { st := if t % 17 = sget 16 f.sparePos (t / 17) then .spare else .free
      service := sget 132 f.grades t, clk := min 120 (sget 132 f.grades t) }

/-- A physical tile. -/
def State.tile (s : State) (t : Nat) : Tile := sget (tileDefault s.fuses t) s.tiles t

/-- Stores a physical tile. -/
def State.setTile (s : State) (t : Nat) (x : Tile) : State :=
  { s with tiles := sset (tileDefault s.fuses t) t x s.tiles }

/-- Changes a physical tile. -/
def State.modTile (s : State) (t : Nat) (f : Tile → Tile) : State := s.setTile t (f (s.tile t))

/-- The physical reach that serves logical reach `r` (R63). -/
def State.physReach (s : State) (r : Nat) : Option Nat := s.fuses.reaches[r]?

/-- The logical number of a physical reach. -/
def State.logReach (s : State) (p : Nat) : Option Nat := s.fuses.reaches.idxOf? p

/-- The physical tile of a logical tile, if its number is not retired (R63, R89). -/
def State.physTile (s : State) (lt : Nat) : Option Nat :=
  match s.physReach (lt / 16) with
  | none => none
  | some p =>
    match (s.reach p).tileMap[lt % 16]? with
    | some (some q) => some (17 * p + q)
    | _ => none

/-- The logical number of a physical tile, if it has one. -/
def State.logTile (s : State) (t : Nat) : Option Nat :=
  match s.logReach (t / 17), (s.reach (t / 17)).tileMap.idxOf? (some (t % 17)) with
  | some r, some q => some (16 * r + q)
  | _, _ => none

/-- A flight slot. -/
def State.flight (s : State) (k : Nat) : Flight := sget {} s.flights k

/-- Stores a flight slot. -/
def State.setFlight (s : State) (k : Nat) (x : Flight) : State :=
  { s with flights := sset {} k x s.flights }

/-- Changes a flight slot. -/
def State.modFlight (s : State) (k : Nat) (f : Flight → Flight) : State := s.setFlight k (f (s.flight k))

/-- A flight that holds tiles: BOUND, ARMED, RUNNING, MOORED, HELD or DONE (R235). -/
def FState.bound_ : FState → Bool
  | .empty | .loaded => false
  | _ => true

/-- The slots of every flight that is bound on this device. -/
def State.boundSlots (s : State) : List Nat := (s.flights.filter fun p => p.2.st.bound_).map Prod.fst

/-- A context, a canal port, a stack port, a lockkeeper, a berth. -/
def State.context (s : State) (c : Nat) : Context := sget {} s.contexts c
def State.setContext (s : State) (c : Nat) (x : Context) : State :=
  { s with contexts := sset {} c x s.contexts }
def State.canal (s : State) (p : Nat) : Canal := sget {} s.canals p
def State.setCanal (s : State) (p : Nat) (x : Canal) : State := { s with canals := sset {} p x s.canals }
def State.modCanal (s : State) (p : Nat) (f : Canal → Canal) : State := s.setCanal p (f (s.canal p))
def State.stack (s : State) (p : Nat) : Stack := sget {} s.stk p
def State.setStack (s : State) (p : Nat) (x : Stack) : State := { s with stk := sset {} p x s.stk }
def State.modStack (s : State) (p : Nat) (f : Stack → Stack) : State := s.setStack p (f (s.stack p))

/-- A lockkeeper as cold reset leaves it (R630, R653). -/
def lkDefault (f : Fuses) (k : Nat) : Lockkeeper :=
  { st := if f.lkpGood.contains k then .spare else .retired }
def State.lk (s : State) (k : Nat) : Lockkeeper := sget (lkDefault s.fuses k) s.lks k
def State.setLk (s : State) (k : Nat) (x : Lockkeeper) : State :=
  { s with lks := sset (lkDefault s.fuses k) k x s.lks }
def State.modLk (s : State) (k : Nat) (f : Lockkeeper → Lockkeeper) : State := s.setLk k (f (s.lk k))
def State.berth (s : State) (b : Nat) : Berth := sget {} s.berths b
def State.setBerth (s : State) (b : Nat) (x : Berth) : State := { s with berths := sset {} b x s.berths }

/-- A ring of a context (ring 8 is the completion ring). -/
def State.ring (s : State) (c r : Nat) : Ring := sget {} (s.context c).rings r
def State.setRing (s : State) (c r : Nat) (x : Ring) : State :=
  s.setContext c { s.context c with rings := sset {} r x (s.context c).rings }

/-- Appends what the block sends out at its boundary. -/
def State.emit (s : State) (o : Out) : State := { s with out := s.out ++ [o] }

/-- Draws a fresh number for a free value. -/
def State.draw (s : State) : Nat × State := (s.fresh, { s with fresh := s.fresh + 1 })

/-! ### Time (R24) -/

/-- The pound of a timestamp. -/
def State.poundNow (s : State) : Nat := s.ww.pound

/-- The offset of a timestamp: waterway nanoseconds since the pound's lock. -/
def State.offsetNow (s : State) : Nat := s.ww.time - s.ww.lockTime

/-- Pound length in nanoseconds, from TCK_PLEN (R55). -/
def State.poundLen (s : State) : Nat := 100 * s.fld TCK_PLEN 9 0

/-- Gate lead in nanoseconds, from TCK_GATE (R56). -/
def State.gateLead (s : State) : Nat := 10 * s.fld TCK_GATE 6 0

/-- The waterway time in 2^-16 ns. -/
def State.stamp (s : State) : Nat := s.ww.time * 2 ^ 16 + s.ww.frac

/-- The next lock's instant as the votes so far fix it (R21, R30). -/
def State.nextLock (s : State) : Nat :=
  (s.ww.epoch + (s.ww.pound + 1) * s.poundLen + s.ww.slip + 250 * s.gate.round) % 2 ^ 64

/-- Waterway time comes to `t`, in 2^-16 ns: it never runs backwards, and no event of a pound lies past its end
(R23; DESIGN CHOICE: log entry 2). -/
def State.clockTo (s : State) (t : Nat) : State :=
  let u := max s.stamp (min t (s.nextLock * 2 ^ 16))
  { s with ww := { s.ww with time := u / 2 ^ 16, frac := u % 2 ^ 16 } }

/-- Waterway time comes to a number of nanoseconds after the pound's lock. -/
def State.clockAt (s : State) (ns : Nat) : State := s.clockTo ((s.ww.lockTime + ns) * 2 ^ 16)

/-! ### Gate orders (R27, R34) -/

/-- The tag record of a tag in a gate contribution. -/
def gateTag (g : Gate) (t : Nat) : TagRec := sget {} g.tags t

/-- Changes the tag record of a tag. -/
def gateModTag (g : Gate) (t : Nat) (f : TagRec → TagRec) : Gate :=
  { g with tags := sset {} t (f (gateTag g t)) g.tags }

/-- Applies an order to the device's gate contribution: of this pound before the cut-off, of the next
pound after it (R27). -/
def State.order (s : State) (f : Gate → Gate) : State :=
  if s.gate.cut then { s with gate := { s.gate with next := f s.gate.next } }
  else { s with gate := { s.gate with own := f s.gate.own } }

/-- Raises orders of a flight tag. -/
def State.orderTag (s : State) (t : Nat) (f : TagRec → TagRec) : State := s.order fun g => gateModTag g t f

/-- Raises the hold flag of a flight's tag. -/
def State.holdTag (s : State) (t : Nat) : State := s.orderTag t fun r => { r with hold := true }

/-- Raises the hold flag of the flight in a slot. -/
def State.holdSlot (s : State) (k : Nat) : State := s.holdTag (s.flight k).tag

/-- Sets a bit of the device fault map. -/
def insertNat (n : Nat) (l : List Nat) : List Nat := if l.contains n then l else (l ++ [n])

/-- Sets this device's bit of the device fault result. -/
def State.ownFaultBit (s : State) : State :=
  s.order fun g => { g with faultMap := insertNat s.ww.index g.faultMap }

/-- Adds `n` musters of a key to the musters that wait (R293). -/
def addMuster (tag bid n : Nat) : List MusterItem → List MusterItem
  | [] => [{ tag := tag, barrier := bid, count := n }]
  | m :: ms =>
    if m.tag = tag ∧ m.barrier = bid then { m with count := m.count + n } :: ms
    else if tag < m.tag ∨ (tag = m.tag ∧ bid < m.barrier) then
      { tag := tag, barrier := bid, count := n } :: m :: ms
    else m :: addMuster tag bid n ms

/-- A muster enters the device's pending musters; they enter the contribution at the cut-off. -/
def State.muster (s : State) (tag bid n : Nat) : State :=
  { s with musters := addMuster tag bid n s.musters }

/-- Enters one muster of a key unless one is already pending (R238, R315, R605). -/
def State.musterOnce (s : State) (tag bid : Nat) : State :=
  if s.musters.any fun m => m.tag == tag && m.barrier == bid then s else s.muster tag bid 1

/-! ### Interrupts (R475, R476) -/

/-- Whether a vector is masked: by the function mask, its MSI-X mask bit or its MSI mask. -/
def State.vecMasked (s : State) (v : Nat) : Bool :=
  if s.port.msixEn then s.port.funcMask || s.bit (MSIX_TABLE + 16 * v + 12) 0
  else s.port.msiMasked.contains (v % s.port.msiCount)

/-- Whether CXL.io requests may leave: Bus Master Enable is 1, the function is not in D3hot, and the link
stream is not Insecure (R465, R470, R474). -/
def HostPort.ioOpen (p : HostPort) : Bool := p.busMaster && !p.d3hot && p.ideIo ≠ 2

/-- Sends the message of a vector. -/
def State.sendVec (s : State) (v : Nat) : State :=
  if !(s.port.msixEn || s.port.msiEn) then s
  else
    let n := if s.port.msixEn then v else v % s.port.msiCount
    if s.vecMasked v then { s with port := { s.port with pendingVec := insertNat n s.port.pendingVec } }
    else if !s.port.ioOpen then
      { s with port := { s.port with waitingVec := insertNat n s.port.waitingVec } }
    else s.emit (.msi n)

/-- An event of a fixed interrupt source: its IRQ_PEND bit, and its vector where enabled. -/
def State.irq (s : State) (n : Nat) : State :=
  let s := s.setBit IRQ_PEND n true
  if s.bit IRQ_CTL 0 && s.bit (IRQ_SRC + 4 * n) 31 then s.sendVec (s.fld (IRQ_SRC + 4 * n) 10 0) else s

/-- The status bit of an error; true for one of the correctable register. -/
def AerErr.place : AerErr → Bool × Nat
  | .poisonedTlp => (false, 12) | .completionTimeout => (false, 14) | .completerAbort => (false, 15)
  | .unexpectedCompletion => (false, 16) | .unsupportedRequest => (false, 20) | .uncorrectableInternal => (false, 22)
  | .ideCheckFailed => (false, 27) | .advisoryNonFatal => (true, 13) | .correctedInternal => (true, 14)
  | .headerLogOverflow => (true, 15)

/-- The reset values of the writable bits of configuration space, where they are not 0: Extended Tag Field Enable, and the mask and severity
registers of AER. -/
def cfgReset (off : Nat) : Reg :=
  if off = 0x78 then 0x100
  else if off = 0x108 then 0x400000
  else if off = 0x10C then BitVec.ofNat 32 (2 ^ 4 + 2 ^ 13 + 2 ^ 17 + 2 ^ 18 + 2 ^ 22 + 2 ^ 27)
  else if off = 0x114 then 0xE000
  else 0

/-- A stored dword of configuration space. -/
def HostPort.cfgReg (p : HostPort) (off : Nat) : Nat := (sget (cfgReset off) p.cfg off).toNat

/-- An error's status bit. -/
def State.aerSet (s : State) (e : AerErr) : State :=
  { s with port := { s.port with aer := if s.port.aer.contains e then s.port.aer else s.port.aer ++ [e] } }

/-- An error whose severity is non-fatal is handled as Advisory Non-Fatal (R460, R463). -/
def State.advise (s : State) (e : AerErr) : State :=
  if bitOf (s.port.cfgReg 0x10C) e.place.2 then s else s.aerSet .advisoryNonFatal

/-- Raises an AER error; one that logs a header takes one of the 4 places (R463, R464). -/
def State.aer (s : State) (e : AerErr) (header : Bool) : State :=
  let s := s.aerSet e
  let s := if e = .poisonedTlp ∨ e = .completionTimeout ∨ e = .unexpectedCompletion then s.advise e else s
  if !header then s
  else if s.port.aerHeaders.length < 4 then
    { s with port := { s.port with aerHeaders := s.port.aerHeaders ++ [e],
                                   aerFirst := if s.port.aerFirst = none then some e else s.port.aerFirst } }
  else s.aerSet .headerLogOverflow

/-! ### The address map (R326 to R328) -/

/-- A frame's home: physical reach, stack port and pseudo-channel of a DPA. -/
structure Frame where
  reach : Nat
  port  : Nat
  pc    : Nat
  deriving DecidableEq, Repr

/-- HDM bytes of the device: a region of 2C for each active reach. -/
def State.hdmSize (s : State) : Nat := s.fuses.reaches.length * 2 * s.boot.capacity

/-- The frame that holds a DPA (R326, R327). -/
def State.frame (s : State) (dpa : Nat) : Option Frame :=
  let region := 2 * s.boot.capacity
  match s.physReach (dpa / region) with
  | none => none
  | some p =>
    let o := dpa % region
    some { reach := p, port := 2 * p + bitsOf o 18 18, pc := bitsOf o 17 12 }

/-- The state of a pseudo-channel; in a port that failed training all are retired (R328), and so they are in a port that
stack training passed over (R350; DESIGN CHOICE: log entry 83). -/
def State.pcState (s : State) (port pc : Nat) : PcState :=
  let k := s.stack port
  if k.st = .failed ∨ (k.st = .off ∧ 8 ≤ s.boot.step) then .retired else sget .ok k.pcs pc

/-- Whether a pseudo-channel lies in a drained channel (R346). -/
def State.pcDrained (s : State) (port pc : Nat) : Bool := (s.stack port).drained.contains (pc / 2)

/-- What a frame admits. -/
inductive FrameUse where
  | normal | evacuate | retired | drained | absent
  deriving DecidableEq, Repr

/-- The use of the frame that holds a DPA. -/
def State.frameUse (s : State) (dpa : Nat) : FrameUse :=
  match s.frame dpa with
  | none => .absent
  | some f =>
    if s.pcDrained f.port f.pc then .drained
    else
      match s.pcState f.port f.pc with
      | .ok => .normal
      | .evacuate => .evacuate
      | .retired => .retired

/-- The frames (DPA / 4096) that a byte range touches. -/
def framesOf (a n : Nat) : List Nat :=
  if n = 0 then [] else (List.range ((a + n - 1) / 4096 - a / 4096 + 1)).map (· + a / 4096)

/-- Whether a write extent touches an unbacked frame (R328, R344). -/
def State.unbackedWrite (s : State) (dpa n : Nat) : Bool :=
  (framesOf dpa n).any fun f => s.frameUse (4096 * f) ≠ .normal

/-- Whether a read extent touches an unbacked frame: EVACUATE frames may be read. -/
def State.unbackedRead (s : State) (dpa n : Nat) : Bool :=
  (framesOf dpa n).any fun f => s.frameUse (4096 * f) ≠ .normal ∧ s.frameUse (4096 * f) ≠ .evacuate

/-! ### The latest bytes of a line (R371, R411) -/

/-- The line address of a byte. -/
def lineOf (a : Nat) : Nat := a / 64 * 64

/-- The basin's line, in a way or in the victim buffer. -/
def State.basinLine (s : State) (host : Bool) (la : Nat) : Option Line :=
  s.basin.lines.find? fun l => l.host == host && l.addr == la

/-- An agent's copy of a line. -/
def State.copyOf (s : State) (agent : Nat) (host : Bool) (la : Nat) : Option Copy :=
  s.basin.copies.find? fun c => c.agent == agent && c.host == host && c.addr == la

/-- The copy that is modified, if there is one. -/
def State.mCopy (s : State) (host : Bool) (la : Nat) : Option Copy :=
  s.basin.copies.find? fun c => c.host == host && c.addr == la && c.st == .m

/-- The memory of a space. -/
def State.mem (s : State) (host : Bool) : Ram := if host then s.host else s.hdm

/-- The poison of each of a memory line's 8 words, as a mask. -/
def Ram.poisonMask (m : Ram) (la : Nat) : Nat :=
  (List.range 8).foldl (fun k i => k + (if badMark (m.mark (la + 8 * i)) then 2 ^ i else 0)) 0

/-- The poison mask of a basin line's marks. -/
def markMask (marks : SMap Nat) : Nat :=
  (List.range 8).foldl (fun k i => k + (if badMark (sget 0 marks i) then 2 ^ i else 0)) 0

/-- A line's data and the poison of its words. -/
structure LineData where
  data   : List Byte
  poison : Nat
  deriving DecidableEq, Repr

/-- Whether a read of a line of HDM reaches no data: its frame is RETIRED, drained or absent (R342, R347). -/
def State.lostLine (s : State) (la : Nat) : Bool :=
  match s.frameUse la with
  | .normal | .evacuate => false
  | .retired | .drained | .absent => true

/-- The line as memory gives it: poison from a frame that returns no data (R342, R347). -/
def State.memLine (s : State) (host : Bool) (la : Nat) : LineData :=
  if !host && s.lostLine la then { data := List.replicate 64 0, poison := 0xFF }
  else { data := (s.mem host).read la 64, poison := (s.mem host).poisonMask la }

/-- The latest data of a line: of its owner, else of the basin, else of memory (R371). -/
def State.latestLine (s : State) (host : Bool) (la : Nat) : LineData :=
  match s.mCopy host la with
  | some c => { data := c.data, poison := c.poison }
  | none =>
    match s.basinLine host la with
    | some l => { data := l.data, poison := markMask l.marks }
    | none => s.memLine host la

/-- The line addresses that a byte range touches. -/
def linesOf (a n : Nat) : List Nat :=
  if n = 0 then [] else (List.range ((a + n - 1) / 64 - a / 64 + 1)).map fun i => lineOf a + 64 * i

/-- The latest bytes of a range with the poison of their 64 B lines (R336). -/
def State.latest (s : State) (host : Bool) (a n : Nat) : List (Byte × Bool) :=
  let all := (linesOf a n).flatMap fun la =>
    let l := s.latestLine host la
    l.data.map fun b => (b, decide (l.poison ≠ 0))
  (all.drop (a - lineOf a)).take n

/-- The bytes alone. -/
def bytesOf (l : List (Byte × Bool)) : List Byte := l.map Prod.fst

/-- Whether any byte is poisoned. -/
def anyPoison (l : List (Byte × Bool)) : Bool := l.any Prod.snd

/-- Reservations on a line of HDM go, but `keep`'s agent keeps its own (R424). -/
def State.cancelResv (s : State) (host : Bool) (la : Nat) (keep : Option Nat) : State :=
  if host then s
  else
    (s.lks.filter fun e => e.2.resv == some la && some (e.1 + 16) ≠ keep).foldl
      (fun s e => s.setLk e.1 { e.2 with resv := none }) s

/-- The berths whose copies of a line go, but `keep`'s, see a SnpInv (R551). -/
def State.snoopBerths (s : State) (host : Bool) (la : Nat) (keep : Option Nat) : State :=
  (s.basin.copies.filter fun c => !host && !c.host && c.addr == la && some c.agent ≠ keep && decide (40 ≤ c.agent)).foldl
    (fun s c => s.emit (.berthSnpInv (c.agent - 40) la)) s

/-- Removes every cached copy of a line but `keep`'s, and clears their presence bits. -/
def State.dropCopies (s : State) (host : Bool) (la : Nat) (keep : Option Nat) : State :=
  let s := (s.cancelResv host la keep).snoopBerths host la keep
  { s with basin := { s.basin with
      copies := s.basin.copies.filter fun c =>
        !(c.host == host && c.addr == la && some c.agent ≠ keep),
      lines := s.basin.lines.map fun l =>
        if l.host == host && l.addr == la then
          { l with presence := l.presence.filter fun a => some a = keep ∨ a = 44,
                   owner := if l.owner = keep then l.owner else none }
        else l } }

/-- Bytes put into a line's data at an offset. -/
def putAt (d : List Byte) (off : Nat) (bs : List Byte) : List Byte :=
  d.take off ++ bs ++ d.drop (off + bs.length)

/-- The marks of a line after a write of `n` bytes at `off` (R337, R335, R386). -/
def lineMarks (marks : SMap Nat) (off n : Nat) (poison : Bool) : SMap Nat :=
  (wordsOf off n).foldl (fun m w =>
    if poison then sset 0 w 3 m
    else if off ≤ 8 * w ∧ 8 * w + 8 ≤ off + n then sset 0 w 0 m
    else if badMark (sget 0 m w) then sset 0 w 3 m else sset 0 w 0 m) marks

/-- Replaces a basin line. -/
def State.putLine (s : State) (l : Line) : State :=
  { s with basin := { s.basin with
      lines := s.basin.lines.map fun x => if x.host == l.host && x.addr == l.addr then l else x } }

/-- Replaces an agent's copy. -/
def State.putCopy (s : State) (c : Copy) : State :=
  { s with basin := { s.basin with
      copies := s.basin.copies.map fun x =>
        if x.agent == c.agent && x.host == c.host && x.addr == c.addr then c else x } }

/-- A posted write to host memory: it leaves the host port, or waits while Bus Master Enable is 0
(R465, R466). -/
def State.hostWrite (s : State) (a : Nat) (bs : List Byte) (poison : Bool) : State :=
  if s.port.ioOpen then { s with host := s.host.store a bs poison }.emit (.ioWrite a bs.length)
  else { s with port := { s.port with waitingWr := s.port.waitingWr ++ [(a, bs, poison)] } }

/-- Merges bytes into the basin's line where it is present (R371). -/
def State.mergeLine (s : State) (host : Bool) (la off : Nat) (bs : List Byte) (poison dirty : Bool) : State :=
  match s.basinLine host la with
  | none => s
  | some l =>
    s.putLine { l with data := putAt l.data off bs, marks := lineMarks l.marks off bs.length poison,
                       dirty := l.dirty || dirty }

/-- A modified copy's data taken into the basin before its copy goes (R371, R376). -/
def State.recall (s : State) (host : Bool) (la : Nat) : State :=
  match s.mCopy host la, s.basinLine host la with
  | some c, some l =>
    s.putLine { l with data := c.data, dirty := true, owner := none,
                       marks := (List.range 8).foldl (fun m i =>
                         sset 0 i (if bitOf c.poison i then 3 else 0) m) [] }
  | _, _ => s

/-- BITags of back-invalidation snoops (R449). -/
def BITAGS := 4096

/-- A back-invalidation snoop leaves the host port. -/
def State.sendSnoop (s : State) (b : Nat × Bool) : State := s.emit (if b.2 then .bisnpInv b.1 else .bisnpCur b.1)

/-- A back-invalidation snoop to the host unless one is outstanding on the line; past 4,096 outstanding it waits for
a BITag (R449). -/
def State.snoopHost (s : State) (la : Nat) (inv : Bool) : State :=
  if s.port.bisnp.contains (la, inv) then s
  else
    let t : State := { s with port := { s.port with bisnp := s.port.bisnp ++ [(la, inv)] } }
    if s.port.bisnp.length < BITAGS then t.sendSnoop (la, inv) else t

/-- A back-invalidation of the host's copy of a line, where bit 44 is set (R377). -/
def State.recallHost (s : State) (host : Bool) (la : Nat) : State :=
  match s.basinLine host la with
  | some l => if !host && l.presence.contains 44 then s.snoopHost la true else s
  | none => s

/-- Sets a bit of the STK_ERR of the port that holds a DPA (R358). -/
def State.stkErr (s : State) (dpa bit : Nat) : State :=
  match s.frame dpa with
  | some f => s.setBit (stkReg f.port 0x34) bit true
  | none => s

/-- Forgets the write-back of a word that an agent has written (R339). -/
def State.dropWriteback (s : State) (dpa : Nat) : State :=
  match s.frame dpa with
  | some f => s.modStack f.port fun k => { k with writeback := k.writeback.filter fun e => e.1 ≠ dpa }
  | none => s

/-- The mark that a whole word written takes: clean or poisoned, with the injections of STK_INJ (R359). -/
def State.wholeMark (s : State) (port : Nat) (poison : Bool) : State × Nat :=
  let r := stkReg port 0x38
  let base := if poison then 3 else 0
  if s.bit r 1 then ((s.setBit r 1 false).setBit r 0 false, 2)
  else if s.bit r 0 then (s.setBit r 0 false, if poison then 2 else 1)
  else (s, base)

/-- The part of bytes placed at `a` that falls into the range of `n` bytes at `lo`: its address and the
bytes. -/
def partAt {α : Type} (a : Nat) (bs : List α) (lo n : Nat) : Nat × List α :=
  let b := max a lo
  (b, (bs.drop (b - a)).take (lo + n - b))

/-- A write of whole words at their stack controllers that raises no report: a frame out of service discards it and keeps
the error bit alone (R342, R347, R358, R359). -/
def State.quietStore (s : State) (a : Nat) (bs : List Byte) : State :=
  match s.frameUse a with
  | .normal => (wordsOf a bs.length).foldl (fun s w =>
      match s.frame (8 * w) with
      | none => s
      | some f =>
        let p := partAt a bs (8 * w) 8
        let m := (s.dropWriteback (8 * w)).wholeMark f.port false
        { m.1 with hdm := (m.1.hdm.write p.1 p.2).setMark (8 * w) m.2 }) s
  | .drained => s.stkErr a 4
  | .evacuate | .retired => s.stkErr a 5
  | .absent => s

/-- A write of a fault-ring entry at the home. It raises no report, since a report would write another entry (DESIGN
CHOICE: log entry 83): every copy is recalled and invalidated, and the basin line merged or memory written. -/
def State.flagWrite (s : State) (host : Bool) (a : Nat) (bs : List Byte) : State :=
  if host then s.hostWrite a bs false
  else
    (linesOf a bs.length).foldl (fun s la =>
      let p := partAt a bs la 64
      let s := ((s.recallHost false la).recall false la).dropCopies false la none
      match s.basinLine false la with
      | some _ => s.mergeLine false la (p.1 - la) p.2 false true
      | none => s.quietStore p.1 p.2) s

/-- A fault-ring write to a ring whose location bit says host memory or HDM. -/
def State.flagWriteLoc (s : State) (dpa : Bool) (a : Nat) (bs : List Byte) : State :=
  s.flagWrite (!dpa) a bs

/-- The bytes of a ring or word in host memory or HDM. -/
def State.readLoc (s : State) (dpa : Bool) (a n : Nat) : List (Byte × Bool) := s.latest (!dpa) a n

/-- The end of every command: the queue is the step's (exec changes everything but it), the fuses are
fixed at manufacturing test (R1), and FAULT_OUT is driven by its rule (R615). -/
def faultLevel (s : State) : Bool :=
  if s.boot.safe then true
  else if s.bit FLT_PIN 0 then s.pins.pulse || s.bit FLT_PIN 16
  else decide (s.fld (0x3004) 4 0 &&& s.fld FLT_PIN 12 8 ≠ 0)

/-- The state that a command leaves, from the state it began in. -/
def State.seal (t s : State) : State :=
  { t with pending := s.pending, fuses := s.fuses, pins := { t.pins with faultOut := faultLevel t } }

/-- A command's answer. -/
def done (s t : State) : Host.Outcome State Fault Refusal := .next (t.seal s)

/-- The answer of a command that does nothing in safe state: tile clocks, canals, stacks, berths and lockkeepers have
stopped, and register writes are discarded (R462, R612). -/
def doneLive (s t : State) : Host.Outcome State Fault Refusal := done s (if s.boot.safe then s else t)

end Sys2Proof.Machine
end

