-- ==== Sys2Proof/Machine/Faults.lean ====
section
/-! DEFINITION. The fault collector (17): records, log, ring, counters, escalation and the reactions
that a message starts. -/

namespace Sys2Proof.Machine

/-! ### Kinds by name (R601) -/

def K_ILLEGAL := 0x01
def K_PORT_COLLISION := 0x02
def K_BUFFER_CONFLICT := 0x03
def K_CONTROL_ERROR := 0x04
def K_HOLD_ADDRESS := 0x05
def K_WINDOW_ADDRESS := 0x06
def K_BARGE_LIMIT := 0x07
def K_TILE_CE := 0x08
def K_TILE_UE := 0x09
def K_TILE_GRADE := 0x0A
def K_OVERRUN := 0x10
def K_GATE_MISS := 0x11
def K_TIME_LOSS := 0x12
def K_LEAD_SHORT := 0x13
def K_BARRIER_EXCESS := 0x14
def K_BARRIER_TIMEOUT := 0x15
def K_FLIGHT_REPLAY := 0x16
def K_LOCKIN_LATE := 0x17
def K_BARGE_INDEX := 0x20
def K_BARGE_TIMEOUT := 0x21
def K_BARGE_DENIED := 0x22
def K_ROUTED_DROP := 0x23
def K_REPLICA_REFUSED := 0x24
def K_LINK_REPLAY := 0x30
def K_LINK_RETRAIN := 0x31
def K_LINK_RETIRED := 0x32
def K_LINK_ABSENT := 0x33
def K_STK_CE := 0x40
def K_STK_UE := 0x41
def K_STK_MERGE_UE := 0x42
def K_STK_UNBACKED_WRITE := 0x43
def K_STK_DRAINED_ACCESS := 0x44
def K_STK_PC_RETIRED := 0x45
def K_RC_PARITY := 0x50
def K_RC_PARITY_DIRTY := 0x51
def K_LK_PARITY := 0x52
def K_BSN_CE := 0x53
def K_BSN_UE := 0x54
def K_BSN_TAG := 0x55
def K_DIR_UE := 0x56
def K_WAY_DISABLED := 0x57
def K_LK_STORE_DENIED := 0x60
def K_LK_WATCHDOG := 0x61
def K_LK_FAILED := 0x63
def K_HOST_CPL_ERR := 0x70
def K_VIRAL_RX := 0x71
def K_XLT_POISON := 0x72
def K_XLT_PARITY := 0x73
def K_BERTH_RETRY := 0x74
def K_BERTH_TIMEOUT := 0x75
def K_BERTH_LOST_LINE := 0x76
def K_ACT_DENIED := 0x77
def K_PWR_TELEMETRY := 0x80
def K_PWR_DIVERGE := 0x81
def K_THERM_TRIP := 0x82
def K_RAIL_LOSS := 0x83
def K_CTX_ABORT := 0x90
def K_DEVICE_HALT := 0x91

/-- A message of a kind with its base class (R601). -/
def msgOf (kind unit inst : Nat) : FaultMsg :=
  { unit := unit, inst := inst, kind := kind,
    cls := match kindOf kind with
      | some k => k.cls
      | none => 0 }

/-- ACCESS_DENIED in the shared status space (R486). -/
def ST_ACCESS_DENIED := 0x0003

/-! ### Flights, as far as the collector needs them -/

/-- The newest complete snapshot that the device took itself: the flight's last snapshot (R306). -/
def lastSnap (f : Flight) : Option SnapArea :=
  (f.areas.filter fun a => a.complete && !a.replica).foldl (fun b a =>
    match b with
    | none => some a
    | some x => if a.pound ≥ x.pound then some a else b) none

/-- REPLAY of the flight image's FLAGS (R213). -/
def optsReplay (f : Flight) : Bool := bitOf (f.image.num 0x10 4) 0

/-- Makes a flight FATAL: it acts at the next lock (R247); the status is the fault record's. -/
def State.fatalFlight (s : State) (k status : Nat) : State :=
  if (s.flight k).st.bound_ then
    (s.modFlight k fun f => { f with fatal := some (f.fatal.getD status) }).holdSlot k
  else s

/-! ### Records -/

/-- The CLASS byte of a record (R599). -/
def classByte (r : FaultRec) (phase : Bool) : Nat :=
  r.msg.cls % 8 + 8 * bnat r.esc + 16 * bnat phase + 32 * bnat r.msg.inj

/-- A record's 32 bytes (R599). -/
def faultBytes (r : FaultRec) (phase : Bool) (seqByte : Nat) : List Byte :=
  toLe 8 r.msg.addr ++ toLe 8 r.pound ++ toLe 4 r.off ++ toLe 4 (min r.msg.count 0xFFFFFFFF) ++
  toLe 2 (r.msg.unit * 1024 + r.msg.inst % 1024) ++ toLe 1 r.msg.kind ++ toLe 1 (classByte r phase) ++
  toLe 2 r.msg.status ++ toLe 1 r.msg.slot ++ toLe 1 seqByte

/-- The log slot of the oldest record that satisfies a test. -/
def oldestSlot (log : SMap FaultRec) (p : FaultRec → Bool) : Option Nat :=
  (log.filter fun e => p e.2).foldl (fun b e =>
    match b with
    | none => some e.1
    | some k => if e.2.seq < (sget e.2 log k).seq then some e.1 else b) none

/-- The lowest free log slot. -/
def freeSlot (log : SMap FaultRec) : Option Nat :=
  (List.range 64).find? fun i => (sfind? log i).isNone

/-- The log slot that a new record of class `c` takes (R616): a free one, or the one it replaces. -/
def logPlace (log : SMap FaultRec) (c : Nat) : Option Nat :=
  match freeSlot log with
  | some i => some i
  | none =>
    match oldestSlot log fun r => r.msg.cls == 0 with
    | some i => some i
    | none =>
      if c = 0 then none
      else
        match oldestSlot log fun r => r.msg.cls == 1 with
        | some i => some i
        | none => if c = 1 then none else oldestSlot log fun r => decide (r.msg.cls < c)

/-- Adds 1 to a counting register, saturating. -/
def State.bump (s : State) (off : Nat) : State :=
  if (s.reg off).toNat = 0xFFFFFFFF then s else s.setReg off (s.reg off + 1)

/-- Logs a record (R616) and says whether it was kept. -/
def State.logRecord (s : State) (m : FaultMsg) (esc : Bool) : State × Bool :=
  match logPlace s.flt.log m.cls with
  | none => (s.bump FLT_LOG_OVF, false)
  | some i =>
    let full := (freeSlot s.flt.log).isNone
    let s := if full then s.bump FLT_LOG_OVF else s
    let r : FaultRec := { msg := m, pound := s.poundNow, off := s.offsetNow, esc := esc, seq := s.flt.nextSeq }
    ({ s with flt := { s.flt with log := sput i r s.flt.log, nextSeq := s.flt.nextSeq + 1, newest := i } }, true)

/-- Writes a record into the fault ring where it is enabled, the class is high enough and there is
room by the consumer word; otherwise counts it lost (R617). -/
def State.ringRecord (s : State) (m : FaultMsg) (esc : Bool) : State × Bool :=
  if !s.bit FLT_CTL 1 || decide (m.cls < s.fld FLT_RING 2 0) then (s, false)
  else
    let log2n := s.fld FLT_RING_LO 8 4
    let slots := 2 ^ log2n
    let cw := (s.reg FLT_RING_CW_HI).toNat * 2 ^ 32 + (s.reg FLT_RING_CW_LO).toNat
    let consumer := leNat (bytesOf (s.latest true cw 8)) % 2 ^ 32
    let n := s.flt.ringCount
    if (n + 2 ^ 32 - consumer) % 2 ^ 32 ≥ slots then (s.bump FLT_RING_LOST, false)
    else
      let base := (s.reg FLT_RING_HI).toNat * 2 ^ 32 + 4096 * s.fld FLT_RING_LO 31 12
      let r : FaultRec := { msg := m, pound := s.poundNow, off := s.offsetNow, esc := esc, seq := 0 }
      let phase := n / slots % 2 == 0
      let s := s.flagWriteLoc (s.bit FLT_RING_LO 0) (base + 32 * (n % slots)) (faultBytes r phase 0)
      ({ s with flt := { s.flt with ringCount := (n + 1) % 2 ^ 32 } }, true)

/-! ### Counting and escalation (R609 to R611) -/

/-- The unit that a kind counts: class and instance, with the pseudo-channel of a stack word or the
way of a cache line (R601). -/
def countKey (s : State) (m : FaultMsg) : Nat :=
  let sub :=
    if m.unit = 4 then
      match s.frame m.addr with
      | some f => f.pc
      | none => m.inst % 32 * 2
    else if 0x50 ≤ m.kind ∧ m.kind ≤ 0x57 then m.status % 32
    else 0
  let inst := if m.unit = 4 then m.inst / 32 else m.inst
  m.unit * 2 ^ 20 + inst * 64 + sub

/-- The class that an escalation gives: FATAL for a flight, PERMANENT for every other unit. -/
def escClass (m : FaultMsg) : Nat := if m.unit = 11 then 3 else 2

/-- Enters an event into its counter and says whether it escalates (R610), and whether a pair was
replaced (R611). -/
def countEvent (cs : List (Nat × Nat × List Nat)) (key kind pound count n w : Nat) :
    List (Nat × Nat × List Nat) × Bool × Bool :=
  let old := (cs.find? fun c => c.1 == key && c.2.1 == kind).map fun c => c.2.2
  let rest := cs.filter fun c => !(c.1 == key && c.2.1 == kind)
  let events := (List.replicate (min count n) pound ++ old.getD []).take n
  let esc := decide (events.length = n) && decide (pound - events.getLastD pound < max w 1)
  if esc then (rest, true, false)
  else if old.isSome || decide (rest.length < 2048) then ((key, kind, events) :: rest, false, false)
  else ((key, kind, events) :: rest.dropLast, false, true)

/-! ### Reactions -/

/-- The flight bound to a tile. -/
def State.flightOfTile (s : State) (t : Nat) : Option Nat := (s.tile t).flight.map Prod.fst

/-- Queues a reaction for its lock (R604). -/
def State.react (s : State) (r : Reaction) : State :=
  let e := (s.gate.cut, r)
  if s.flt.reactions.any fun x => x.2 == r then s
  else { s with flt := { s.flt with reactions := s.flt.reactions ++ [e] } }

/-- The SPARE position of a physical reach. -/
def State.spareOf (s : State) (p : Nat) : Option Nat :=
  (List.range 17).find? fun q => decide ((s.tile (17 * p + q)).st = .spare)

/-- Whether a reach can replace a tile: it has a SPARE, or one whose re-grade R646 abandons. -/
def State.canReplace (s : State) (p : Nat) : Bool := (s.spareOf p).isSome || (s.reach p).regrade.isSome

/-- A PERMANENT tile: its flight holds, and where a spare takes its place the flight replays or is FATAL (R88). -/
def State.retireBound (s : State) (m : FaultMsg) : State :=
  let s := s.react (.retireTile m.inst)
  match s.flightOfTile m.inst with
  | none => s
  | some k =>
    let f := s.flight k
    if !f.st.bound_ then s
    else
      let s := s.holdSlot k
      if !s.canReplace (m.inst / 17) then s
      else if optsReplay f && (lastSnap f).isSome then
        s.musterOnce f.tag 258
      else s.fatalFlight k m.status

/-- The retirement of a PERMANENT unit (R606). -/
def State.retire (s : State) (m : FaultMsg) : State :=
  match m.unit with
  | 0 => (s.react .deviceFault).ownFaultBit
  | 1 => s.retireBound m
  | 2 => s.react (.recoverWay false m.inst (m.status % 32))
  | 3 => s.react (.recoverWay true m.inst (m.status % 32))
  | 4 =>
    match s.frame m.addr with
    | some f => s.react (.retirePc f.port f.pc)
    | none => s
  | 5 => s.react (.retirePort m.inst)
  | 6 =>
    if m.kind = K_LK_PARITY ∨ m.kind = K_WAY_DISABLED then
      s.react (.recoverWay false (32 + m.inst) (m.status % 32))
    else s.react (.retireLk m.inst)
  | 12 => if m.kind = K_PWR_DIVERGE then (s.react .deviceFault).ownFaultBit else s
  | _ => s

/-- The flight that an event of flight scope concerns: the tile's, or the slot named. -/
def scopeFlight (s : State) (m : FaultMsg) : Option Nat :=
  if m.unit = 1 then s.flightOfTile m.inst
  else if m.unit = 11 then some m.inst
  else if m.slot < 255 then some m.slot
  else none

/-- The slots of flights bound on a tile of a physical reach (R386). -/
def State.slotsOfReach (s : State) (p : Nat) : List Nat :=
  s.boundSlots.filter fun k =>
    s.tiles.any fun e => e.1 / 17 == p && (e.2.flight.map Prod.fst) == some k

/-- A FATAL event of the device: it takes no new descriptor from now on, its flights halt at the next lock, and its
fault flag is set (R607). -/
def State.haltFault (s : State) : State :=
  (({ s with flt := { s.flt with halted := true } } : State).react .deviceHalt).ownFaultBit

/-- The reaction to a FATAL event in its scope (R607). -/
def State.reactFatal (s : State) (m : FaultMsg) : State :=
  match m.unit with
  | 1 | 11 =>
    match scopeFlight s m with
    | some k => s.fatalFlight k m.status
    | none => s
  | 2 => (s.slotsOfReach m.inst).foldl (fun s k => s.fatalFlight k m.status) s
  | 10 => { s with flt := { s.flt with ctxAborts := insertNat m.inst s.flt.ctxAborts } }
  | _ => s.haltFault

/-- A TRANSIENT event of flight scope: the flight replays, or is FATAL (R605). -/
def State.replayFlight (s : State) (k : Nat) : State × List FaultMsg :=
  let f := s.flight k
  if !f.st.bound_ then (s, [])
  else if optsReplay f && (lastSnap f).isSome then
    ((s.holdSlot k).musterOnce f.tag 258,
      [{ msgOf K_FLIGHT_REPLAY 11 k with slot := k }])
  else (s.fatalFlight k 0, [])

/-- The reaction to the class of an event (R603), with the messages that it sends. -/
def State.reactClass (s : State) (m : FaultMsg) (cls : Nat) : State × List FaultMsg :=
  match cls with
  | 1 =>
    if m.kind = K_CONTROL_ERROR ∨ m.kind = K_OVERRUN then
      match scopeFlight s m with
      | some k => s.replayFlight k
      | none => (s, [])
    else (s, [])
  | 2 => (s.retire m, [])
  | 3 => (s.reactFatal m, [])
  | _ => (s, [])

/-- A message enters the counter of its unit and kind, where FLT_CNT counts it (R609 to R611); with whether it
escalates. -/
def State.countFault (s : State) (m : FaultMsg) : State × Bool :=
  let cnt := s.reg (FLT_CNT + 4 * m.kind)
  let n := bitsOf cnt.toNat 7 0
  let w := bitsOf cnt.toNat 27 8
  if s.flt.equal || n == 0 then (s, false)
  else
    let c := countEvent s.flt.counters (countKey s m) m.kind s.poundNow m.count n w
    let t : State := { s with flt := { s.flt with counters := c.1 } }
    (if c.2.2 then t.setBit FLT_STAT 9 true else t, c.2.1)

/-- A message is logged, written to the ring, marked pending, raised as an interrupt where it was kept, and shown on the
pin in PULSE mode (R615 to R618). -/
def State.recordFault (s : State) (m : FaultMsg) (esc : Bool) : State :=
  let l := s.logRecord m esc
  let r := l.1.ringRecord m esc
  let s := r.1.setBit FLT_STAT m.cls true
  let s := if l.2 || r.2 then s.irq 2 else s
  if s.bit FLT_PIN 0 && s.bit FLT_PIN (8 + m.cls) then { s with pins := { s.pins with pulse := true } } else s

/-- One message at the collector: counted, escalated, recorded and reacted to; with the messages that the reaction
sends. -/
def State.collect (s : State) (m : FaultMsg) : State × List FaultMsg :=
  let c := s.countFault m
  let s := c.1.recordFault { m with cls := if c.2 then max m.cls (escClass m) else m.cls } c.2
  if c.2 && decide (m.cls < escClass m) then s.reactClass m (escClass m)
  else
    let own := s.reactClass m m.cls
    if c.2 && decide (escClass m < m.cls) then
      let e := own.1.reactClass m (escClass m)
      (e.1, own.2 ++ e.2)
    else own

/-- A message and those that its reactions send, to a depth of two. -/
def State.fault (s : State) (m : FaultMsg) : State :=
  let a := s.collect m
  a.2.foldl (fun s m => (s.collect m).1) a.1

/-- A message of a kind with an address and a flight slot. -/
def State.report (s : State) (kind unit inst addr : Nat) : State :=
  s.fault { msgOf kind unit inst with addr := addr }

end Sys2Proof.Machine
end

