-- ==== Sys2Proof/Machine/Operands.lean ====
section
/-! DEFINITION. Operand forms of leg operations: the sources that an operation reads in its issue
cycle, hold addresses, and the guard (R127 to R130, R141). -/

namespace Sys2Proof.Machine

/-- A scalar register; s0 reads 0 (R61). -/
def Tile.rs (x : Tile) (r : Nat) : Word := if r = 0 then 0 else sget 0 x.sregs r

/-- Whether a scalar register holds a poisoned value (R140). -/
def Tile.rsPoison (x : Tile) (r : Nat) : Bool := if r = 0 then false else sget false x.spoison r

/-- A predicate; p0 reads true. -/
def Tile.rp (x : Tile) (p : Nat) : Bool := if p = 0 then true else sget false x.preds p

/-- Whether a predicate is poisoned. -/
def Tile.rpPoison (x : Tile) (p : Nat) : Bool := if p = 0 then false else sget false x.ppoison p

/-- A landing counter. -/
def Tile.lc (x : Tile) (c : Nat) : Nat := sget 0 x.lcs c

/-- A 32-bit element of a vector register. -/
def Tile.velem (x : Tile) (v e : Nat) : BitVec 32 := sget 0 x.vregs (256 * v + e)

/-- Whether a vector element is poisoned. -/
def Tile.velemPoison (x : Tile) (v e : Nat) : Bool := sget false x.vpoison (256 * v + e)

/-- A vector register as its 256 elements with their poison. -/
def Tile.vreg (x : Tile) (v : Nat) : List (BitVec 32 × Bool) :=
  (List.range 256).map fun e => (x.velem v e, x.velemPoison v e)

/-- An accumulator bank. -/
def Tile.bank (x : Tile) (b : Bool) : Bank := if b then x.bank1 else x.bank0
def Tile.setBank (x : Tile) (b : Bool) (k : Bank) : Tile :=
  if b then { x with bank1 := k } else { x with bank0 := k }

/-- A stationary buffer. -/
def Tile.buf (x : Tile) (b : Bool) : StatBuf := if b then x.buf1 else x.buf0
def Tile.setBuf (x : Tile) (b : Bool) (k : StatBuf) : Tile :=
  if b then { x with buf1 := k } else { x with buf0 := k }

/-- Columns of a bank by its width code (R161). -/
def widthCols (w : Nat) : Nat := if w = 0 then 64 else if w = 1 then 32 else 16

/-- Hold bytes (R72). -/
def holdSize : Nat := 0x180000

/-- Whether a range of hold bytes lies in the hold. -/
def holdOk (a n : Nat) : Bool := decide (a + n ≤ holdSize)

/-- The 64-bit address RA + sext(imm) * scale with the low `clr` bits cleared (R144, R163). -/
def addrOf (ra : Word) (imm : Int) (scale : Int) (clr : Nat) : Nat :=
  let a := ((ra.toNat : Int) + imm * scale) % (2 ^ 64 : Int)
  a.toNat / 2 ^ clr * 2 ^ clr

/-- Whether a guard enables its operation (R128). -/
def Tile.enabled (x : Tile) (g : Guard) : Bool := xor (x.rp g.pr.toNat) g.pn

/-- Whether the guard's predicate is poisoned: a control use (R141). -/
def Tile.guardPoison (x : Tile) (g : Guard) : Bool := x.rpPoison g.pr.toNat

end Sys2Proof.Machine
end

