-- ==== Sys2Proof/Machine/Flags.lean ====
section
/-! DEFINITION. Flags of a tile: the sticky flags (R147), comparisons (R145, R163) and the poison that
travels with values (R140). -/

namespace Sys2Proof.Machine

/-- The sticky flags as FLG returns them: bit 0 T2CODE, bit 1 CONVERT, bit 2 LCSAT. -/
def Tile.sticky (x : Tile) : Nat := bnat x.t2code + 2 * bnat x.convert + 4 * bnat x.lcsat

/-- Clears the sticky flags that a mask selects. -/
def Tile.clearSticky (x : Tile) (mask : Nat) : Tile :=
  { x with t2code := x.t2code && !bitOf mask 0, convert := x.convert && !bitOf mask 1,
           lcsat := x.lcsat && !bitOf mask 2 }

/-- A scalar condition (CMP and CMPI FN 0 to 5); none for a reserved FN. -/
def scalarCond (fn : Nat) (a b : Word) : Option Bool :=
  match fn with
  | 0 => some (a == b)
  | 1 => some (a != b)
  | 2 => some (a.slt b)
  | 3 => some (!a.slt b)
  | 4 => some (a.ult b)
  | 5 => some (!a.ult b)
  | _ => none

/-- A predicate operation (POP FN 0 to 6); none for a reserved FN. -/
def predOp (fn : Nat) (a b : Bool) : Option Bool :=
  match fn with
  | 0 => some (a && b)
  | 1 => some (a || b)
  | 2 => some (xor a b)
  | 3 => some (a && !b)
  | 4 => some (!a)
  | 5 => some true
  | 6 => some false
  | _ => none

/-- Whether a predicate operation reads its inputs pa and pb. -/
def predReads (fn : Nat) : Bool × Bool :=
  if fn ≤ 3 then (true, true) else if fn = 4 then (true, false) else (false, false)

/-- The scalar ALU (R145); none for a reserved FN. -/
def aluOp (fn : Nat) (a b : Word) : Option Word :=
  let sh := b.toNat % 64
  match fn with
  | 0x00 => some (a + b)
  | 0x01 => some (a - b)
  | 0x02 => some (a &&& b)
  | 0x03 => some (a ||| b)
  | 0x04 => some (a ^^^ b)
  | 0x05 => some (a <<< sh)
  | 0x06 => some (a >>> sh)
  | 0x07 => some (a.sshiftRight sh)
  | 0x08 => some (if a.slt b then a else b)
  | 0x09 => some (if a.slt b then b else a)
  | 0x0A => some (if a.ult b then a else b)
  | 0x0B => some (if a.ult b then b else a)
  | 0x0C => some (a * b)
  | _ => none

/-- The immediate shift (SHFI kinds 0 to 2); none for the reserved kind. -/
def shiftOp (kind : Nat) (a : Word) (amt : Nat) : Option Word :=
  match kind with
  | 0 => some (a <<< amt)
  | 1 => some (a >>> amt)
  | 2 => some (a.sshiftRight amt)
  | _ => none

/-- A 32-bit integer comparison of ICMP (R163). -/
def vecIntCond (fn : Nat) (a b : BitVec 32) : Option Bool :=
  match fn with
  | 0 => some (a == b)
  | 1 => some (a != b)
  | 2 => some (a.slt b)
  | 3 => some (a.ult b)
  | _ => none

/-- A 32-bit integer operation of IOP (R163). -/
def vecIntOp (fn : Nat) (a b : BitVec 32) : Option (BitVec 32) :=
  let sh := b.toNat % 32
  match fn with
  | 0 => some (a + b)
  | 1 => some (a - b)
  | 2 => some (a * b)
  | 3 => some (a &&& b)
  | 4 => some (a ||| b)
  | 5 => some (a ^^^ b)
  | 6 => some (a <<< sh)
  | 7 => some (a >>> sh)
  | 8 => some (a.sshiftRight sh)
  | 9 => some (if a.slt b then a else b)
  | 10 => some (if a.slt b then b else a)
  | _ => none

end Sys2Proof.Machine
end

