-- ==== Sys2Proof/Machine/Formats.lean ====
section
/-! DEFINITION. Element and block formats: decoding of elements to exact numbers, and one rounding
back (R96 to R101, R117, R120, R121, R125). -/

namespace Sys2Proof.Machine

/-- A decoded element value: not a number, an infinity, or the exact number (-1)^neg * m * 2^e. -/
inductive Num where
  | nan
  | inf (neg : Bool)
  | fin (neg : Bool) (m : Nat) (e : Int)
  deriving DecidableEq, Repr

/-- The element formats of R96 and the two grid formats of R104. -/
inductive Elem where
  | e4m3 | e5m2 | e3m2 | e2m3 | e2m1 | mxint8 | int8 | t2 | bf16 | f16 | f32 | g64 | g128
  deriving DecidableEq, Repr

/-- The format codes of R148. -/
def fmtElem : Nat → Option Elem
  | 0 => some .e4m3 | 1 => some .e5m2 | 2 => some .int8 | 3 => some .e4m3 | 4 => some .e5m2
  | 5 => some .mxint8 | 6 => some .e3m2 | 7 => some .e2m3 | 8 => some .e2m1 | 9 => some .t2
  | 10 => some .bf16 | 11 => some .f16 | 12 => some .f32 | 13 => some .g64 | 14 => some .g128
  | _ => none

/-- Block formats (R148): codes 3 to 9. -/
def fmtBlock (f : Nat) : Bool := decide (3 ≤ f ∧ f ≤ 9)

/-- MX formats: block formats other than T2. -/
def fmtMx (f : Nat) : Bool := decide (3 ≤ f ∧ f ≤ 8)

/-- Width in bits of an element. -/
def Elem.bits : Elem → Nat
  | .e4m3 | .e5m2 | .mxint8 | .int8 => 8
  | .e3m2 | .e2m3 => 6
  | .e2m1 => 4
  | .t2 => 2
  | .bf16 | .f16 => 16
  | .f32 => 32
  | .g64 => 64
  | .g128 => 128

/-- How a float format spells what is not finite. -/
inductive FloatStyle where
  | ieee | e4m3 | plain
  deriving DecidableEq, Repr

/-- Mantissa bits, exponent bits, bias, style (R96). -/
structure FloatFmt where
  mb : Nat
  eb : Nat
  bias : Nat
  style : FloatStyle
  deriving DecidableEq, Repr

/-- The float layout of a format, for those that are floats. -/
def Elem.float : Elem → Option FloatFmt
  | .e4m3 => some ⟨3, 4, 7, .e4m3⟩
  | .e5m2 => some ⟨2, 5, 15, .ieee⟩
  | .e3m2 => some ⟨2, 3, 3, .plain⟩
  | .e2m3 => some ⟨3, 2, 1, .plain⟩
  | .e2m1 => some ⟨1, 2, 1, .plain⟩
  | .bf16 => some ⟨7, 8, 127, .ieee⟩
  | .f16 => some ⟨10, 5, 15, .ieee⟩
  | .f32 => some ⟨23, 8, 127, .ieee⟩
  | _ => none

/-- Decodes the bits of a float element (R97). -/
def decodeFloat (f : FloatFmt) (x : Nat) : Num :=
  let neg := bitOf x (f.mb + f.eb)
  let ex := bitsOf x (f.mb + f.eb - 1) f.mb
  let m := x % 2 ^ f.mb
  let ones := 2 ^ f.eb - 1
  let special : Option Num :=
    match f.style with
    | .ieee => if ex = ones then (if m = 0 then some (.inf neg) else some .nan) else none
    | .e4m3 => if ex = ones ∧ m = 2 ^ f.mb - 1 then some .nan else none
    | .plain => none
  match special with
  | some v => v
  | none =>
    if ex = 0 then .fin neg m (1 - (f.bias : Int) - f.mb)
    else .fin neg (2 ^ f.mb + m) ((ex : Int) - f.bias - f.mb)

/-- A number from a signed integer and an exponent. -/
def Num.ofInt (i : Int) (e : Int) : Num := .fin (decide (i < 0)) i.natAbs e

/-- Decodes an element's bits (R97, R98); the grid formats are decoded elsewhere. -/
def decodeElem (el : Elem) (x : Nat) : Num :=
  match el.float with
  | some f => decodeFloat f x
  | none =>
    match el with
    | .mxint8 => Num.ofInt (signedOf x 8) (-6)
    | .int8 => Num.ofInt (signedOf x 8) 0
    | .t2 => if x % 4 = 1 then .fin false 1 0 else if x % 4 = 3 then .fin true 1 0 else .fin false 0 0
    | _ => .nan

/-- A number times a power of two. -/
def Num.scale (k : Int) : Num → Num
  | .fin s m e => .fin s m (e + k)
  | v => v

/-- The scale of an E8M0 byte applied to an element (R100). -/
def applyScale (s : Nat) (v : Num) : Num := if s = 255 then .nan else v.scale ((s : Int) - 127)

/-! ### Rounding -/

/-- `m * 2^e` rounded to an integer, half to even. -/
def rne (m : Nat) (e : Int) : Nat :=
  match e with
  | .ofNat k => m * 2 ^ k
  | .negSucc k =>
    let d := 2 ^ (k + 1)
    let q := m / d
    let r := m % d
    if 2 * r < d then q
    else if 2 * r > d then q + 1
    else if q % 2 = 0 then q else q + 1

/-- A signed value `i * 2^e` rounded to an integer, half to even. -/
def rneInt (i : Int) (e : Int) : Int :=
  let q : Int := rne i.natAbs e
  if i < 0 then -q else q

/-- floor(log2 (m * 2^e)) for nonzero m. -/
def floorLog2 (m : Nat) (e : Int) : Int := (Nat.log2 m : Int) + e

/-- The magnitude bits that `m * 2^e` rounds to with no upper limit: exponent field and mantissa as
one number, growing past the largest finite pattern when the value overflows. -/
def roundMag (f : FloatFmt) (m : Nat) (e : Int) : Nat :=
  if m = 0 then 0
  else
    let emin : Int := 1 - (f.bias : Int)
    let top := max (floorLog2 m e) emin
    let n := rne m (e - (top - f.mb))
    (top - emin).toNat * 2 ^ f.mb + n

/-- The magnitude bits of the largest finite value. -/
def maxMag (f : FloatFmt) : Nat :=
  match f.style with
  | .ieee => (2 ^ f.eb - 1) * 2 ^ f.mb - 1
  | .e4m3 => 2 ^ (f.eb + f.mb) - 2
  | .plain => 2 ^ (f.eb + f.mb) - 1

/-- The sign bit in place. -/
def signBit (f : FloatFmt) (neg : Bool) : Nat := bnat neg * 2 ^ (f.eb + f.mb)

/-- The canonical NaN of a float format (R120). -/
def canonNaN (f : FloatFmt) : Nat :=
  match f.style with
  | .ieee => (2 ^ f.eb - 1) * 2 ^ f.mb + 2 ^ (f.mb - 1)
  | .e4m3 => 2 ^ (f.eb + f.mb) - 1
  | .plain => 0

/-- The bits of an infinity. A format without one gives the canonical NaN (R120: E4M3). -/
def infBits (f : FloatFmt) (neg : Bool) : Nat :=
  match f.style with
  | .ieee => signBit f neg + (2 ^ f.eb - 1) * 2 ^ f.mb
  | _ => canonNaN f

/-- What a finite value beyond the largest finite one becomes (R120): infinity for binary32, bfloat16
and binary16, the largest finite value for the FP8 formats and the elements of MX blocks. -/
def overflowBits (el : Elem) (f : FloatFmt) (neg : Bool) : Nat :=
  match el with
  | .bf16 | .f16 | .f32 => infBits f neg
  | _ => signBit f neg + maxMag f

/-- A finite value rounded to a float format (R120, finite rows). -/
def encodeFinite (el : Elem) (f : FloatFmt) (neg : Bool) (m : Nat) (e : Int) : Nat :=
  let mag := roundMag f m e
  if mag > maxMag f then overflowBits el f neg else signBit f neg + mag

/-- Clamps an integer to a range. -/
def clampInt (lo hi i : Int) : Int := if i < lo then lo else if i > hi then hi else i

/-- The low 8 bits of an integer. -/
def int8Bits (i : Int) : Nat := (i % 256).toNat

/-- A number rounded once to an element format outside a block (R120, R125); the second part says
that a conversion to INT8 met an infinity or a NaN (R120's sticky conversion flag). -/
def encodeElem (el : Elem) (v : Num) : Nat × Bool :=
  match el.float with
  | some f =>
    match v with
    | .nan => (canonNaN f, false)
    | .inf neg => (infBits f neg, false)
    | .fin neg m e => (encodeFinite el f neg m e, false)
  | none =>
    match v with
    | .nan => (0, true)
    | .inf neg => (if neg then 128 else 127, true)
    | .fin neg m e =>
      let q : Int := rne m e
      (int8Bits (clampInt (-128) 127 (if neg then -q else q)), false)

/-! ### Blocks (R117) -/

/-- e_max of an MX element format (R117). -/
def mxEmax : Elem → Int
  | .e4m3 => 8 | .e5m2 => 15 | .e3m2 => 4 | .e2m3 => 2 | .e2m1 => 2 | _ => 0

/-- The largest of the exponents floor(log2 |v|) of a block's nonzero values. -/
def blockTop : List Num → Option Int
  | [] => none
  | .fin _ m e :: vs =>
    let r := blockTop vs
    if m = 0 then r
    else
      match r with
      | none => some (floorLog2 m e)
      | some t => some (max t (floorLog2 m e))
  | _ :: vs => blockTop vs

/-- Whether a value is an infinity or a NaN. -/
def Num.special : Num → Bool
  | .fin .. => false
  | _ => true

/-- One element of an MX block at the scale exponent `k`. -/
def mxElem (el : Elem) (k : Int) (v : Num) : Nat :=
  match v with
  | .fin neg m e =>
    match el.float with
    | some f => encodeFinite el f neg m (e - k)
    | none =>
      let q : Int := rne m (e - k + 6)
      int8Bits (clampInt (-128) 127 (if neg then -q else q))
  | _ => 0

/-- A block's scale byte and element bits (R117). -/
def mxBlock (el : Elem) (vs : List Num) : Nat × List Nat :=
  if vs.any Num.special then (255, vs.map fun _ => 0)
  else
    match blockTop vs with
    | none => (0, vs.map fun _ => 0)
    | some t =>
      let k := clampInt (-127) 127 (t - mxEmax el)
      ((k + 127).toNat, vs.map (mxElem el k))

/-! ### Packing (R99) -/

/-- Elements of `w` bits packed densely into a number, the first lowest. -/
def packBits (w : Nat) : List Nat → Nat
  | [] => 0
  | x :: xs => x % 2 ^ w + 2 ^ w * packBits w xs

/-- Elements of `w` bits packed into bytes; a last part byte is filled with zeros. -/
def packBytes (w : Nat) (xs : List Nat) : List Byte := toLe ((w * xs.length + 7) / 8) (packBits w xs)

/-- `n` elements of `w` bits of a little-endian bit string. -/
def unpackBits (w : Nat) (bits : Nat) : Nat → List Nat
  | 0 => []
  | n + 1 => bits % 2 ^ w :: unpackBits w (bits / 2 ^ w) n

/-- `n` elements of `w` bits of a byte string. -/
def unpackBytes (w n : Nat) (bs : List Byte) : List Nat := unpackBits w (leNat bs) n

/-! ### Exact arithmetic (R121) -/

/-- The exact product, with the special values of IEEE 754 multiplication; R119 gives the tensor
array's products the same classes. -/
def Num.mul : Num → Num → Num
  | .nan, _ => .nan
  | _, .nan => .nan
  | .inf a, .inf b => .inf (xor a b)
  | .inf a, .fin b m _ => if m = 0 then .nan else .inf (xor a b)
  | .fin a m _, .inf b => if m = 0 then .nan else .inf (xor a b)
  | .fin a m e, .fin b n f => .fin (xor a b) (m * n) (e + f)

/-- The signed integer of a finite number at an exponent no greater than its own. -/
def alignTo (neg : Bool) (m : Nat) (e lo : Int) : Int :=
  let v : Int := (m * 2 ^ (e - lo).toNat : Nat)
  if neg then -v else v

/-- The exact sum. A zero sum of unlike signs is +0 (roundTiesToEven). -/
def Num.add : Num → Num → Num
  | .nan, _ => .nan
  | _, .nan => .nan
  | .inf a, .inf b => if a = b then .inf a else .nan
  | .inf a, _ => .inf a
  | _, .inf b => .inf b
  | .fin a m e, .fin b n f =>
    if m = 0 ∧ n = 0 then .fin (a && b) 0 0
    else
      let lo := min e f
      Num.ofInt (alignTo a m e lo + alignTo b n f lo) lo

/-- The negation. -/
def Num.neg : Num → Num
  | .nan => .nan
  | .inf a => .inf (!a)
  | .fin a m e => .fin (!a) m e

/-- Exact comparison of two numbers, neither NaN: strictly less, with -0 = +0. -/
def Num.lt : Num → Num → Bool
  | .nan, _ => false
  | _, .nan => false
  | .inf a, .inf b => a && !b
  | .inf a, .fin .. => a
  | .fin .., .inf b => !b
  | .fin a m e, .fin b n f =>
    let lo := min e f
    decide (alignTo a m e lo < alignTo b n f lo)

/-- Numerical equality, with -0 = +0; NaN equals nothing. -/
def Num.eqv : Num → Num → Bool
  | .inf a, .inf b => a == b
  | .fin a m e, .fin b n f =>
    let lo := min e f
    decide (alignTo a m e lo = alignTo b n f lo)
  | _, _ => false

/-- The sign of a number. -/
def Num.sign : Num → Bool
  | .nan => false
  | .inf a => a
  | .fin a _ _ => a

/-- IEEE 754-2019 minimum: NaN propagates and -0 orders below +0. -/
def Num.minimum (x y : Num) : Num :=
  if x = .nan ∨ y = .nan then .nan
  else if x.lt y then x
  else if y.lt x then y
  else if x.sign then x else y

/-- IEEE 754-2019 maximum. -/
def Num.maximum (x y : Num) : Num :=
  if x = .nan ∨ y = .nan then .nan
  else if x.lt y then y
  else if y.lt x then x
  else if x.sign then y else x

end Sys2Proof.Machine
end

