-- ==== Sys2Proof/Machine/Grid.lean ====
section
/-! DEFINITION. Grid arithmetic: accumulator values, rounding to the grid, order-free addition, the import
and the export (R104 to R120). -/

namespace Sys2Proof.Machine

/-- What a grid entry holds (R104). -/
inductive GVal where
  | fin (a : Int)
  | satP | satN | satX | infP | infN | nan
  deriving DecidableEq, Repr

/-- The special class of a code's low 3 bits (R104). -/
def specialOf (c : Nat) : GVal :=
  match c with
  | 1 => .satP | 2 => .satN | 3 => .satX | 4 => .infP | 5 => .infN | _ => .nan

/-- The code of a special class. -/
def specialCode : GVal → Nat
  | .satP => 1 | .satN => 2 | .satX => 3 | .infP => 4 | .infN => 5 | _ => 6

/-- Decodes a `w`-bit grid value, `w` = 64 or 128 (R104, R116). A 64-bit special code keeps its class
and any other 64-bit value is sign-extended (R114). -/
def decodeGrid (w x : Nat) : GVal :=
  let x := x % 2 ^ w
  if 2 ^ (w - 1) ≤ x ∧ x < 2 ^ (w - 1) + 8 then specialOf (x % 8) else .fin (signedOf x w)

/-- Whether an integer lies in the finite range of `w`-bit grid values (R104, R116). -/
def gridFits (w : Nat) (a : Int) : Bool :=
  decide (-(2 ^ (w - 1) : Int) + 8 ≤ a ∧ a ≤ (2 ^ (w - 1) : Int) - 1)

/-- An exact integer as a grid value of 128 bits: beyond the range it saturates (R106). -/
def gridOfInt (a : Int) : GVal :=
  if gridFits 128 a then .fin a else if a < 0 then .satN else .satP

/-- The bits of a `w`-bit grid value (R104, R116): a finite value beyond G64 writes the SAT code. -/
def encodeGrid (w : Nat) (v : GVal) : Nat :=
  match v with
  | .fin a =>
    if gridFits w a then (a % (2 ^ w : Int)).toNat
    else 2 ^ (w - 1) + (if a < 0 then 2 else 1)
  | g => 2 ^ (w - 1) + specialCode g

/-- Whether the entry holds a special code: its saturation flag (R104). -/
def GVal.special : GVal → Bool
  | .fin _ => false
  | _ => true

/-- Rounds an exact product or vector element to the grid `gx` (R105, R119). -/
def roundGrid (gx : Int) : Num → GVal
  | .nan => .nan
  | .inf neg => if neg then .infN else .infP
  | .fin neg m e =>
    let q := rne m (e - gx)
    if q > 2 ^ 88 then (if neg then .satN else .satP)
    else .fin (if neg then -(q : Int) else q)

/-- The sum of the finite values of a multiset. -/
def finSum : List GVal → Int
  | [] => 0
  | .fin a :: vs => a + finSum vs
  | _ :: vs => finSum vs

/-- The first rule of R106 that applies to a multiset of values. -/
def gridSum (vs : List GVal) : GVal :=
  let has (g : GVal) := vs.contains g
  if has .nan || (has .infP && has .infN) then .nan
  else if has .infP then .infP
  else if has .infN then .infN
  else if has .satX || (has .satP && has .satN) then .satX
  else if has .satP then .satP
  else if has .satN then .satN
  else gridOfInt (finSum vs)

/-- A value imported from grid `gs` to grid `gd` (R114). -/
def gridImport (gs gd : Int) : GVal → GVal
  | .fin a =>
    if gs ≥ gd then gridOfInt (a * 2 ^ (gs - gd).toNat) else gridOfInt (rneInt a (gs - gd))
  | v => v

/-- The exact number that a grid value stands for on grid `gx`, its special classes as R120 reads
them for the IEEE formats: SAT as an infinity, SATX as NaN. -/
def gridNum (gx : Int) : GVal → Num
  | .fin a => .fin (decide (a < 0)) a.natAbs gx
  | .satP | .infP => .inf false
  | .satN | .infN => .inf true
  | .satX | .nan => .nan

/-- A grid value in an element format (R115, R120), with the INT8 conversion flag. -/
def exportElem (el : Elem) (gx : Int) (v : GVal) : Nat × Bool :=
  match el with
  | .g128 => (encodeGrid 128 v, false)
  | .g64 => (encodeGrid 64 v, false)
  | .e4m3 | .e5m2 =>
    match v with
    | .satP => ((encodeElem el (.fin false 1 64)).1, false)
    | .satN => ((encodeElem el (.fin true 1 64)).1, false)
    | _ => encodeElem el (gridNum gx v)
  | .int8 =>
    match v with
    | .satP => (127, false)
    | .satN => (128, false)
    | _ => encodeElem .int8 (gridNum gx v)
  | _ => encodeElem el (gridNum gx v)

/-- A block of grid values in an MX format (R117). -/
def exportBlock (el : Elem) (gx : Int) (vs : List GVal) : Nat × List Nat :=
  mxBlock el (vs.map (gridNum gx))

end Sys2Proof.Machine
end

