-- ==== Sys2Proof/Machine/TileCore.lean ====
section
/-! DEFINITION. The exposed pipeline of a tile: issue, ports, stops, and what each scheduled cycle does
(R129 to R161). -/

namespace Sys2Proof.Machine

/-! ### Stops (R82, R142) -/

/-- The fault kind of a stop. -/
def StopKind.kind : StopKind → Nat
  | .illegal => K_ILLEGAL
  | .portCollision => K_PORT_COLLISION
  | .bufferConflict => K_BUFFER_CONFLICT
  | .controlError => K_CONTROL_ERROR
  | .holdAddress => K_HOLD_ADDRESS
  | .windowAddress => K_WINDOW_ADDRESS
  | .bargeLimit => K_BARGE_LIMIT

/-- A tile as a stop leaves it: nothing more issues and operations in flight are abandoned (R142). -/
def Tile.stopped (x : Tile) (k : StopKind) (pc : Nat) : Tile :=
  { x with st := .stopped, running := false, endAt := none, branch := none, stall := none,
           stop := some (k, pc), sched := [], held := [], older := [], passes := [], exports := [], imports := [] }

/-- A tile stops: the fault message records the PC, and the flight's hold flag enters the gate (R82,
R83). -/
def State.stopTile (s : State) (t : Nat) (k : StopKind) (pc : Nat) : State :=
  let x := s.tile t
  let s := s.setTile t (x.stopped k pc)
  let slot := x.flight.map Prod.fst
  let s := match slot with
    | some f => s.holdSlot f
    | none => s
  s.fault { msgOf k.kind 1 t with addr := pc, slot := slot.getD 255 }

/-! ### Issue -/

/-- What an operation's issue comes to: a stop with its kind and PC, or the tile with its cycles held
and its writes scheduled. -/
inductive Issue where
  | stop (k : StopKind) (pc : Nat)
  | ok (x : Tile)
  deriving DecidableEq, Repr

/-- Whether the tile's present bundle can still issue operations (R138, R142, R167). -/
def Tile.issuing (x : Tile) : Bool :=
  x.running && x.stop.isNone && x.stall.isNone &&
    (match x.endAt with
     | none => true
     | some c => c == x.cyc)

/-- Issues an operation of tile `t`'s present bundle (R128 to R130): a poisoned guard is a control use
and stops the tile; `op` is told whether the operation is enabled. A tile that issues nothing now is
left alone. -/
def State.issue (s : State) (t : Nat) (g : Guard) (op : Bool → Tile → Issue) : State :=
  let x := s.tile t
  if !x.issuing then s
  else if x.guardPoison g then s.stopTile t .controlError x.pc
  else
    match op (x.enabled g) x with
    | .stop k pc => s.stopTile t k pc
    | .ok y => s.setTile t y

/-- An enabled operation that reads a scalar register whose parity is bad stops the tile (R84). -/
def readsS (rs : List Nat) (op : Bool → Tile → Issue) (en : Bool) (x : Tile) : Issue :=
  if en && rs.any fun r => sget false x.sbad r then .stop .controlError x.pc else op en x

/-- Schedules an act at the end of cycle `cyc + d`. -/
def Tile.plan (x : Tile) (rank d : Nat) (act : TileAct) : Tile :=
  { x with sched := x.sched ++ [{ due := x.cyc + d, issued := x.cyc, rank := rank, pc := x.pc, act := act }] }

/-- Schedules an act of an enabled operation. -/
def Tile.planIf (x : Tile) (en : Bool) (rank d : Nat) (act : TileAct) : Tile :=
  if en then x.plan rank d act else x

/-- Schedules acts given with their delays. -/
def Tile.planAll (x : Tile) (en : Bool) (rank : Nat) (acts : List (Nat × TileAct)) : Tile :=
  if en then acts.foldl (fun x a => x.plan rank a.1 a.2) x else x

/-- Holds cycles of a port; none when an earlier operation, or another of the same bundle, holds one
(R134). -/
def Tile.hold? (x : Tile) (p : Port) (cycles : List Nat) : Option Tile :=
  if cycles.any fun c => x.held.contains (p, c) then none
  else some { x with held := x.held ++ cycles.map fun c => (p, c) }

/-- Holds several ports in turn, or stops on a port collision. -/
def Tile.holdAll (x : Tile) : List (Port × List Nat) → (Tile → Issue) → Issue
  | [], k => k x
  | (p, cs) :: ps, k =>
    match x.hold? p cs with
    | none => .stop .portCollision x.pc
    | some y => y.holdAll ps k

/-- Cycles `cyc + lo` to `cyc + hi`. -/
def Tile.span (x : Tile) (lo hi : Nat) : List Nat := (List.range (hi + 1 - lo)).map (· + (x.cyc + lo))

/-- The update port of a bank. -/
def bankPort (b : Bool) : Port := if b then .bank1 else .bank0

/-- A scalar write of latency `l`. -/
def Tile.writeS (x : Tile) (en : Bool) (rank l r : Nat) (v : Word) (poison : Bool) : Tile :=
  x.planIf en rank (l - 1) (.wrS r v poison)

/-! ### Storage writes and reads with their check bits (R84, R140) -/

/-- Writes a scalar register: s0 discards it (R132), an armed parity injection spoils it (R625). -/
def Tile.putS (x : Tile) (r : Nat) (v : Word) (poison : Bool) : Tile :=
  if r = 0 then x
  else
    let bad := decide (x.inject = some 5)
    { x with sregs := sset 0 r v x.sregs, spoison := sset false r poison x.spoison,
             sbad := sset false r bad x.sbad, inject := if bad then none else x.inject }

/-- Writes a predicate: p0 discards it. -/
def Tile.putP (x : Tile) (p : Nat) (v poison : Bool) : Tile :=
  if p = 0 then x
  else { x with preds := sset false p v x.preds, ppoison := sset false p poison x.ppoison }

/-- Writes one vector element. -/
def Tile.putV (x : Tile) (i : Nat) (v : BitVec 32) (poison : Bool) : Tile :=
  let bad := decide (x.inject = some 2)
  { x with vregs := sset 0 i v x.vregs, vpoison := sset false i poison x.vpoison,
           vbad := sset false i bad x.vbad, inject := if bad then none else x.inject }

/-- Writes elements from index `i` upward. -/
def Tile.putVs (x : Tile) (i : Nat) : List (BitVec 32 × Bool) → Tile
  | [] => x
  | (v, p) :: l => (x.putV i v p).putVs (i + 1) l

/-- Writes one accumulator entry (R70). -/
def Tile.putAcc (x : Tile) (b : Bool) (e : Nat) (v : Quad) (poison : Bool) : Tile :=
  let bad := decide (x.inject = some 3)
  let k := x.bank b
  let k := { k with entries := sset (0, false) e (v, poison) k.entries, bad := sset false e bad k.bad }
  { x.setBank b k with inject := if bad then none else x.inject }

/-- Sets every entry of a bank to finite 0 with clear flags (R157, R161). -/
def Tile.zeroBank (x : Tile) (b : Bool) (width : Nat) : Tile :=
  x.setBank b { entries := [], bad := [], width := width }

/-- Writes one stationary-buffer byte; an armed parity injection spoils it. -/
def Tile.putBuf (x : Tile) (b : Bool) (i : Nat) (v : Byte) : Tile :=
  let bad := decide (x.inject = some 6)
  let k := x.buf b
  { x.setBuf b { k with bytes := sset 0 i v k.bytes, bad := sset false i bad k.bad } with
    inject := if bad then none else x.inject }

/-- The mark that an armed hold injection gives the next hold word. -/
def Tile.holdInject (x : Tile) : Option Nat :=
  match x.inject with
  | some 0 => some 1
  | some 1 => some 2
  | _ => none

/-- Writes whole aligned words into the hold with their poison (R72, R84, R140). -/
def Tile.putHold (x : Tile) (a : Nat) (bs : PBytes) : Tile :=
  let h := x.hold.write a (bytesOf bs)
  let h := (wordsOf a bs.length).foldl (fun h w =>
    let part := (bs.drop (8 * w - a)).take 8
    h.setMark (8 * w) (if anyPoison part then 3 else 0)) h
  match x.holdInject with
  | some k => { x with hold := h.setMark a k, inject := none }
  | none => { x with hold := h }

/-- Hold bytes with the poison of their words. -/
def Tile.holdBytes (x : Tile) (a n : Nat) : PBytes :=
  (List.range n).map fun i => (x.hold.byte (a + i), badMark (x.hold.mark (a + i)))

/-- The reports that a read of hold words makes: corrected and uncorrectable words (R84). -/
def Tile.holdErrors (x : Tile) (a n : Nat) : List (Nat × Nat) :=
  (wordsOf a n).filterMap fun w =>
    if x.hold.mark (8 * w) = 1 then some (K_TILE_CE, 8 * w)
    else if x.hold.mark (8 * w) = 2 then some (K_TILE_UE, 8 * w)
    else none

/-! ### Shapes of the tensor array (R65, R68, R153) -/

/-- K and N of a dense stationary block (R65). -/
def arrayShape (fmt : Nat) : Nat × Nat :=
  if fmt = 8 then (128, 64)
  else if fmt = 9 then (256, 64)
  else if fmt = 10 ∨ fmt = 11 then (32, 32)
  else if fmt = 12 then (16, 16)
  else (64, 64)

/-- Element width of a format code. -/
def fmtBits (fmt : Nat) : Nat :=
  match fmtElem fmt with
  | some e => e.bits
  | none => 0

/-- Block size by the BS bit. -/
def blockSize (bs16 : Bool) : Nat := if bs16 then 16 else 32

/-- Logical K of a pass: doubled under 2:4. -/
def logicalK (fmt : Nat) (sp : Bool) : Nat := (arrayShape fmt).1 * (if sp then 2 else 1)

/-- The 256 B rows of a stationary image's element, index and scale sections (R68, R149). -/
def ldsSections (fmt : Nat) (sp bs16 : Bool) : Nat × Nat × Nat :=
  let (k, n) := arrayShape fmt
  (ceilDiv (k * n * fmtBits fmt / 8) 256,
   if sp then ceilDiv (k * n * 2 / 8) 256 else 0,
   if fmtBlock fmt then ceilDiv (n * (logicalK fmt sp / blockSize bs16)) 256 else 0)

/-- Buffer offset of each row of an image, in image order. -/
def ldsOffsets (fmt : Nat) (sp bs16 : Bool) : List Nat :=
  let (d, i, c) := ldsSections fmt sp bs16
  (List.range d).map (256 * ·) ++ (List.range i).map (fun r => 4096 + 256 * r) ++
    (List.range c).map fun r => 6144 + 256 * r

/-- Whether a stationary and a streaming format belong to one row of R102. -/
def formatPair (stat stream : Nat) : Bool :=
  (decide (stat ≤ 5) && decide (stream ≤ 5)) ||
  ((stat == 6 || stat == 7) && (stream == 6 || stream == 7)) ||
  (stat == 8 && stream == 8) || (stat == 9 && decide (stream ≤ 2)) ||
  ((stat == 10 || stat == 11) && (stream == 10 || stream == 11)) || (stat == 12 && stream == 12)

/-- Logical K of a pass's schedule: a T2 stationary operand selects the T2 row, otherwise the streaming
format's row, and 2:4 its columns (R153). -/
def passK (stream : Nat) (t : Option BufTags) : Nat :=
  match t with
  | none => logicalK stream false
  | some t => if t.fmt = 9 then 256 else logicalK stream t.sp

/-- Whether a stationary operand is T2: its row of R153 stands for every streaming format. -/
def isT2 (t : Option BufTags) : Bool :=
  match t with
  | some t => t.fmt == 9
  | none => false

/-- Streaming bytes per row. -/
def passB (stream : Nat) (t : Option BufTags) : Nat := if isT2 t then 256 else passK stream t * fmtBits stream / 8

/-- Streaming fetches of a pass. -/
def passF (b : Nat) : Nat := 64 * b / 256

/-- Scale or scan cycles of a pass (R153). -/
def passS (stream : Nat) (ag bs16 : Bool) (t : Option BufTags) : Nat :=
  if fmtMx stream then ceilDiv (64 * passK stream t) (blockSize bs16 * 256)
  else if ag && decide (10 ≤ stream ∧ stream ≤ 12) then passF (passB stream t) + 1
  else 0

/-! ### Arithmetic of a pass -/

/-- The elements of a packed string: their bits and their poison. -/
def pelems (w n : Nat) (bs : PBytes) : List (Nat × Bool) :=
  (unpackBytes w n (bytesOf bs)).zipIdx.map fun p =>
    (p.1, anyPoison ((bs.drop (w * p.2 / 8)).take ((w * p.2 + w + 7) / 8 - w * p.2 / 8)))

/-- Bytes of a stationary buffer with their poison: stored poison, and bad parity (R84). -/
def StatBuf.pbytes (k : StatBuf) (lo n : Nat) : PBytes :=
  (sslice 0 k.bytes lo n).zipIdx.map fun p =>
    (p.1, sget false k.poison ((lo + p.2) / 8) || sget false k.bad (lo + p.2))

/-- The exponent of a format's smallest subnormal (R111). -/
def minExp (fmt : Nat) : Int := if fmt = 11 then -24 else if fmt = 10 then -133 else -149

/-- t of R111. -/
def formatT (fmt : Nat) : Int :=
  match fmtElem fmt with
  | some .e4m3 => 9 | some .e5m2 => 16 | some .e3m2 => 5 | some .e2m3 => 3 | some .e2m1 => 3
  | some .mxint8 => 1 | some .int8 => 7 | some .t2 => 0 | _ => 1

/-- The largest scale exponent of a list of scale bytes, NaN scales left out; -127 for none. -/
def maxScale (bs : List Byte) : Int :=
  (bs.filterMap fun b => if b.toNat = 255 then none else some ((b.toNat : Int) - 127)).foldl max (-127)

/-- The largest floor(log2 |x|) of the finite nonzero elements, or the format's smallest exponent. -/
def maxElemExp (fmt : Nat) (vals : List Num) : Int :=
  match blockTop vals with
  | some e => e
  | none => minExp fmt

/-- The operand exponent E of R111: of scales for block formats, 0 for plain FP8 and INT8, of the
elements for the IEEE formats. -/
def operandE (fmt : Nat) (scales : List Byte) (elems : List Num) : Int :=
  if fmtBlock fmt then maxScale scales
  else if fmt ≤ 2 then 0
  else maxElemExp fmt elems

/-- The decoded elements of a packed string. -/
def decodeAll (fmt n : Nat) (bs : List Byte) : List Num :=
  match fmtElem fmt with
  | some el => (unpackBytes el.bits n bs).map (decodeElem el)
  | none => []

/-- A decoded operand element, its block scale applied, with the poison of both. -/
abbrev PNum := Num × Bool

/-- Column `n` of a stationary buffer: for each kept element, the logical position that it meets and
its scaled value (R100, R149). -/
def statColumn (k : StatBuf) (t : BufTags) (n : Nat) : List (Nat × PNum) :=
  match fmtElem t.fmt with
  | none => []
  | some el =>
    let kept := (arrayShape t.fmt).1
    let eb := kept * el.bits / 8
    let ib := kept / 4
    let sb := logicalK t.fmt t.sp / blockSize t.bs16
    let elems := pelems el.bits kept (k.pbytes (n * eb) eb)
    let index := if t.sp then pelems 2 kept (k.pbytes (4096 + n * ib) ib) else []
    let scales := if fmtBlock t.fmt then k.pbytes (6144 + n * sb) sb else []
    elems.zipIdx.map fun p =>
      let ix := index.getD p.2 (0, false)
      let pos := if t.sp then 4 * (p.2 / 2) + ix.1 else p.2
      let sc := scales.getD (pos / blockSize t.bs16) (127, false)
      (pos, applyScale sc.1.toNat (decodeElem el p.1.1), p.1.2 || ix.2 || sc.2)

/-- A streaming row: its logical elements, scaled (R100, R150). -/
def streamRow (fmt : Nat) (bs16 : Bool) (k : Nat) (row scales : PBytes) : List PNum :=
  match fmtElem fmt with
  | none => []
  | some el =>
    (pelems el.bits k row).zipIdx.map fun p =>
      let sc := if fmtMx fmt then scales.getD (p.2 / blockSize bs16) (127, false) else (127, false)
      (applyScale sc.1.toNat (decodeElem el p.1.1), p.1.2 || sc.2)

/-- The products of a column with a streaming row on a grid, each with its poison (R103, R105, R109). -/
def passColumn (gx : Int) (row : List PNum) (col : List (Nat × PNum)) : List (GVal × Bool) :=
  col.map fun c =>
    let b := row.getD c.1 (.fin false 0 0, false)
    (roundGrid gx (c.2.1.mul b.1), c.2.2 || b.2)

/-- Adds terms into an accumulator entry (R106, R109); an entry whose check bits are bad takes its poison flag (R84). -/
def Tile.addAcc (x : Tile) (b : Bool) (e : Nat) (terms : List (GVal × Bool)) : Tile :=
  let old := sget ((0 : Quad), false) (x.bank b).entries e
  let v := gridSum (decodeGrid 128 old.1.toNat :: terms.map Prod.fst)
  x.putAcc b e (BitVec.ofNat 128 (encodeGrid 128 v)) (old.2 || sget false (x.bank b).bad e || terms.any Prod.snd)

/-- Row `m` of a pass added into its bank. -/
def Tile.passRow (x : Tile) (p : Pass) (t : BufTags) (m : Nat) : Tile :=
  let k := logicalK t.fmt t.sp
  let perRow := k / blockSize p.bs16
  let row := streamRow p.fmt p.bs16 k ((p.data.drop (m * p.b)).take p.b) ((p.scales.drop (m * perRow)).take perRow)
  (List.range (arrayShape t.fmt).2).foldl (fun x n =>
    x.addAcc p.bank (64 * m + n) (passColumn p.gx.toInt row (statColumn p.stat t n))) x

/-! ### Rows of an export (R159) -/

/-- Row `m` of a bank as it stands: values and poison of the exported columns. -/
def Bank.row (k : Bank) (m cols : Nat) : List (GVal × Bool) :=
  (List.range cols).map fun n =>
    let e := sget ((0 : Quad), false) k.entries (64 * m + n)
    (decodeGrid 128 e.1.toNat, e.2 || sget false k.bad (64 * m + n))

/-- Splits a list into parts of `n` (fuel: its length). -/
def chunks {α : Type} (n : Nat) : Nat → List α → List (List α)
  | 0, _ => []
  | f + 1, l => if l.isEmpty then [] else l.take n :: chunks n f (l.drop n)

/-- Converted row bytes with the poison of each byte, scale bytes with theirs, and the INT8 flag. -/
structure RowOut where
  elems   : PBytes
  scales  : PBytes
  convert : Bool
  deriving DecidableEq, Repr

/-- A byte's poison: of any element whose bits it holds. -/
def bytePoison (w : Nat) (ps : List Bool) (i : Nat) : Bool :=
  ((ps.drop (8 * i / w)).take ((8 * i + 7) / w + 1 - 8 * i / w)).any id

/-- Packs elements with their poison into bytes. -/
def packPoison (w : Nat) (xs : List (Nat × Bool)) : PBytes :=
  (packBytes w (xs.map Prod.fst)).zipIdx.map fun p => (p.1, bytePoison w (xs.map Prod.snd) p.2)

/-- A row of grid values converted to an export format (R115 to R118). -/
def exportRow (fmt : Nat) (bs16 : Bool) (gx : Int) (vs : List (GVal × Bool)) : RowOut :=
  match fmtElem fmt with
  | none => { elems := [], scales := [], convert := false }
  | some el =>
    if fmtMx fmt then
      let blocks := (chunks (blockSize bs16) vs.length vs).map fun b =>
        (exportBlock el gx (b.map Prod.fst), b.map Prod.snd)
      { elems := packPoison el.bits (blocks.flatMap fun b => b.1.2.zip b.2)
        scales := blocks.map fun b => (BitVec.ofNat 8 b.1.1, b.2.any id)
        convert := false }
    else
      let es := vs.map fun v => (exportElem el gx v.1, v.2)
      { elems := packPoison el.bits (es.map fun e => (e.1.1, e.2))
        scales := []
        convert := es.any fun e => e.1.2 }

/-- W_e and W of an export (R159). -/
def expCycles (fmt : Nat) (bs16 : Bool) (width : Nat) : Nat × Nat :=
  let cols := widthCols width
  let we := roundUp (64 * cols * fmtBits fmt / 8) 128 / 128
  let sc := if fmtMx fmt then 64 * cols / blockSize bs16 else 0
  (we, we + roundUp sc 128 / 128)

/-- Read cycles per row of an import (R160). -/
def impR (g64 : Bool) (width : Nat) : Nat := max 1 (widthCols width * (if g64 then 8 else 16) / 256)

/-! ### The end of a cycle -/

/-- What processing an act gives: the tile, reports (kind, address), and a stop. -/
structure ActOut where
  tile : Tile
  reports : List (Nat × Nat) := []
  stop : Option (StopKind × Nat) := none
  deriving DecidableEq, Repr

/-- Reads hold bytes for an act, with their reports. -/
def readHold (x : Tile) (a n : Nat) (f : PBytes → Tile) : ActOut :=
  { tile := f (x.holdBytes a n), reports := x.holdErrors a n }

/-- A pass by its issue cycle. -/
def Tile.pass? (x : Tile) (i : Nat) : Option Pass := x.passes.find? fun p => p.issue == i

/-- Changes a pass. -/
def Tile.modPass (x : Tile) (i : Nat) (f : Pass → Pass) : Tile :=
  { x with passes := x.passes.map fun p => if p.issue == i then f p else p }

def Tile.modExport (x : Tile) (i : Nat) (f : Export → Export) : Tile :=
  { x with exports := x.exports.map fun p => if p.issue == i then f p else p }

def Tile.modImport (x : Tile) (i : Nat) (f : Import → Import) : Tile :=
  { x with imports := x.imports.map fun p => if p.issue == i then f p else p }

/-- Adds an act that follows from another one, `d` cycles later, with the same issue. -/
def Tile.follow (x : Tile) (e : Sched) (d : Nat) (a : TileAct) : Tile :=
  { x with sched := x.sched ++ [{ e with due := e.due + d, act := a }] }

/-- Forms gx of an auto-grid pass from E_a and E_b (R111, R156). -/
def passGrid (p : Pass) (t : BufTags) : Int :=
  let eb :=
    if fmtMx p.fmt then maxScale (bytesOf (p.scales.take (64 * (logicalK t.fmt t.sp / blockSize p.bs16))))
    else if p.fmt ≤ 2 then 0
    else maxElemExp p.fmt (decodeAll p.fmt (p.scanned.length * 8 / fmtBits p.fmt) (bytesOf p.scanned))
  t.ea + eb + formatT t.fmt + formatT p.fmt - 88

/-- The check of a pass's tags at the end of cycle i + s + 2 (R155), and gx of an auto-grid pass. -/
def Tile.passTags (x : Tile) (e : Sched) (i : Nat) : ActOut :=
  match x.pass? i with
  | none => { tile := x }
  | some p =>
    let k := x.buf p.buf
    let ok : Option BufTags :=
      match k.tags, p.expected with
      | some t, some ex =>
        if t.fmt = ex.fmt ∧ t.sp = ex.sp ∧ formatPair t.fmt p.fmt ∧ !(t.fmt == 9 && t.sp) then some t else none
      | _, _ => none
    match ok with
    | none => { tile := x, stop := some (.illegal, e.pc) }
    | some t =>
      let gx := if p.ag then BitVec.ofInt 16 (passGrid p t) else p.gx
      let x := x.modPass i fun p => { p with stat := k, gx := gx }
      { tile := if p.ag then { x with gx := gx } else x }

/-- What an act that reads does at the end of its cycle: reads see the storage as the cycle began
(R73, R158). The spec does not say in which cycle CONVERT is set: an export sets it as it reads and converts a row, a VCVT
with its result (DESIGN CHOICE: log entry 78). -/
def Tile.readAct (x : Tile) (e : Sched) : ActOut :=
  match e.act with
  | .rdS r a =>
    readHold x a 8 fun bs => x.follow e 1 (.wrS r (BitVec.ofNat 64 (leNat (bytesOf bs))) (anyPoison bs))
  | .rdV vd a part =>
    readHold x (a + 256 * part) 256 fun bs =>
      x.follow e (5 - part) (.wrV (256 * vd + 64 * part)
        ((chunks 4 64 bs).map fun w => (BitVec.ofNat 32 (leNat (bytesOf w)), anyPoison w)) false)
  | .ldsRow b a off => readHold x a 256 fun bs => x.follow e 1 (.ldsWrite b off bs)
  | .mmaScale i _ =>
    match x.pass? i with
    | none => { tile := x }
    | some p =>
      readHold x (p.rb + p.scales.length) 256 fun bs => x.modPass i fun p => { p with scales := p.scales ++ bs }
  | .mmaScan i j =>
    match x.pass? i with
    | none => { tile := x }
    | some p => readHold x (p.ra + 256 * j) 256 fun bs => x.modPass i fun p => { p with scanned := p.scanned ++ bs }
  | .mmaFetch i j =>
    match x.pass? i with
    | none => { tile := x }
    | some p => readHold x (p.ra + 256 * j) 256 fun bs => x.modPass i fun p => { p with data := p.data ++ bs }
  | .expRow i m =>
    match x.exports.find? fun p => p.issue == i with
    | none => { tile := x }
    | some p =>
      let k := x.bank p.bank
      let cols := widthCols p.width
      let r := exportRow p.fmt p.bs16 p.gx.toInt (k.row m cols)
      let ue := (List.range cols).any fun n => sget false k.bad (64 * m + n)
      let y := x.modExport i fun p => { p with elems := p.elems ++ r.elems, scales := p.scales ++ r.scales }
      let y := if p.cz then
          y.setBank p.bank { y.bank p.bank with
            entries := (y.bank p.bank).entries.filter fun q => !(decide (64 * m ≤ q.1) && decide (q.1 < 64 * m + cols)),
            bad := (y.bank p.bank).bad.filter fun q => !(decide (64 * m ≤ q.1) && decide (q.1 < 64 * m + cols)) }
        else y
      { tile := { y with convert := y.convert || r.convert }, reports := if ue then [(K_TILE_UE, 0)] else [] }
  | .impRead i m q =>
    match x.imports.find? fun p => p.issue == i with
    | none => { tile := x }
    | some p =>
      let rowBytes := widthCols p.width * (if p.g64 then 8 else 16)
      let n := min 256 rowBytes
      readHold x (p.ra + m * rowBytes + 256 * q) n fun bs => x.modImport i fun p => { p with data := p.data ++ bs }
  | _ => { tile := x }

/-- Whether an act reads. -/
def TileAct.reads : TileAct → Bool
  | .rdS .. | .rdV .. | .ldsRow .. | .mmaScale .. | .mmaScan .. | .mmaFetch .. | .expRow .. | .impRead .. => true
  | _ => false

/-- Whether an act clears sticky flags: it is applied before the sets of its cycle, so that a flag set
in the same cycle ends the cycle set (R147). -/
def TileAct.clears : TileAct → Bool
  | .clrSticky _ => true
  | _ => false

/-- The order of the writes of one cycle: an LDS records its tags after its last row is written, a pass reads them after
that and may write gx (R152, R155), and a GXI or GXR whose write falls in that cycle has issued later (R132). -/
def TileAct.phase : TileAct → Nat
  | .ldsTag .. => 1
  | .mmaTags _ => 2
  | .wrGx _ => 3
  | _ => 0

/-- What an act that writes does at the end of its cycle. -/
def Tile.writeAct (x : Tile) (e : Sched) : ActOut :=
  match e.act with
  | .wrS r v p => { tile := x.putS r v p }
  | .wrP r v p => { tile := x.putP r v p }
  | .wrGx v => { tile := { x with gx := v } }
  | .wrLc c v => { tile := { x with lcs := sset 0 c v x.lcs } }
  | .clrSticky m => { tile := x.clearSticky m }
  | .wrV i vs conv => { tile := { x.putVs i vs with convert := x.convert || conv } }
  | .wrHold a bs => { tile := x.putHold a bs }
  | .ldsWrite b off bs =>
    let y := bs.zipIdx.foldl (fun y p => y.putBuf b (off + p.2) p.1.1) x
    let k := y.buf b
    { tile := y.setBuf b { k with poison := (wordsOf off bs.length).foldl (fun m w =>
        sset false w (anyPoison ((bs.drop (8 * w - off)).take 8)) m) k.poison } }
  | .ldsTag b fmt sp bs16 =>
    let k := x.buf b
    let n := (arrayShape fmt).1 * (arrayShape fmt).2
    let sc := (arrayShape fmt).2 * (logicalK fmt sp / blockSize bs16)
    let ea := operandE fmt (bytesOf (k.pbytes 6144 sc)) (decodeAll fmt n (bytesOf (k.pbytes 0 4096)))
    { tile := x.setBuf b { k with tags := some { fmt := fmt, sp := sp, bs16 := bs16, ea := ea } } }
  | .mmaTags i => x.passTags e i
  | .mmaArray i =>
    match x.pass? i with
    | some p =>
      let t2 := match p.stat.tags with
        | some t => t.fmt == 9 && (unpackBytes 2 16384 (bytesOf (p.stat.pbytes 0 4096))).contains 2
        | none => false
      let ue := p.stat.bad.any fun q => q.2
      { tile := { x with t2code := x.t2code || t2 }, reports := if ue then [(K_TILE_UE, 0)] else [] }
    | none => { tile := x }
  | .mmaZero i =>
    match x.pass? i with
    | some p =>
      let n := match p.stat.tags with
        | some t => (arrayShape t.fmt).2
        | none => 64
      { tile := x.zeroBank p.bank (if n = 64 then 0 else if n = 32 then 1 else 2) }
    | none => { tile := x }
  | .mmaRow i m =>
    match x.pass? i with
    | some p =>
      match p.stat.tags with
      | some t =>
        let ue := (List.range (arrayShape t.fmt).2).any fun n => sget false (x.bank p.bank).bad (64 * m + n)
        let y := x.passRow p t m
        { tile := if m = 63 then { y with passes := y.passes.filter fun q => q.issue ≠ i } else y
          reports := if ue then [(K_TILE_UE, 0)] else [] }
      | none => { tile := x }
    | none => { tile := x }
  | .expWrite i j scale =>
    match x.exports.find? fun p => p.issue == i with
    | none => { tile := x }
    | some p =>
      let src := if scale then p.scales else p.elems
      let a := (if scale then p.rb else p.ra) + 128 * j
      { tile := x.putHold a ((src.drop (128 * j)).take 128) }
  | .impRow i m =>
    match x.imports.find? fun p => p.issue == i with
    | none => { tile := x }
    | some p =>
      let w := if p.g64 then 8 else 16
      let cols := widthCols p.width
      let row := (p.data.drop (m * cols * w)).take (cols * w)
      let y := (chunks w cols row).zipIdx.foldl (fun y c =>
        let v := gridImport p.grid.toInt p.gx.toInt (decodeGrid (8 * w) (leNat (bytesOf c.1)))
        y.addAcc p.bank (64 * m + c.2) [(v, anyPoison c.1 || p.gridPoison)]) x
      { tile := if m = 63 then { y with imports := y.imports.filter fun q => q.issue ≠ i } else y }
  | .zbWrite b w => { tile := x.zeroBank b w }
  | _ => { tile := x }

/-- Inserts an act in the order in which one cycle's writes are applied: by issue, then slot rank, so
that the later-issued and higher-ranked write is the one kept (R132). -/
def insertSched (e : Sched) : List Sched → List Sched
  | [] => [e]
  | f :: l =>
    if e.issued < f.issued ∨ (e.issued = f.issued ∧ e.rank < f.rank) then e :: f :: l
    else f :: insertSched e l

/-- A cycle's acts in that order. -/
def sortSched (l : List Sched) : List Sched := l.foldl (fun acc e => insertSched e acc) []

/-- Runs acts one after another, gathering reports and the first stop. -/
def runActs (f : Tile → Sched → ActOut) (l : List Sched) (o : ActOut) : ActOut :=
  l.foldl (fun o e =>
    let r := f o.tile e
    { tile := r.tile, reports := o.reports ++ r.reports, stop := if o.stop.isSome then o.stop else r.stop }) o

/-- Whether an LDS in flight (read or write still to come, from the cycle after its first write may
fall) shares cycle `c` with an array cycle of an enabled pass on the same buffer (R67, R152); the LDS's
PC. The spec gives no cycle for this stop: it comes at the end of the first shared cycle, whose bundle has issued
(DESIGN CHOICE: log entry 78). -/
def Tile.conflict (x : Tile) (c : Nat) : Option Nat :=
  (x.sched.find? fun e =>
    match e.act with
    | .ldsTag b .. =>
      decide (e.issued + 2 ≤ c ∧ c ≤ e.due) &&
        x.passes.any fun p => p.buf == b && decide (p.issue + p.s + 3 ≤ c ∧ c ≤ p.issue + p.s + 66)
    | _ => false).map fun e => e.pc

/-- A cycle's acts: what clears sticky flags, the reads, then the writes in their phases. -/
def Tile.runDue (x : Tile) (due : List Sched) : ActOut :=
  let o := runActs Tile.writeAct (due.filter fun e => e.act.clears) { tile := x }
  let o := runActs Tile.readAct (due.filter fun e => e.act.reads) o
  let writes := due.filter fun e => !e.act.reads && !e.act.clears
  [0, 1, 2, 3].foldl (fun o n => runActs Tile.writeAct (writes.filter fun e => e.act.phase == n) o) o

/-- The cycle count rises by 1, port cycles that have passed and exports that are done are dropped, and a leg whose END
has issued ends when nothing of it still writes (R138). -/
def Tile.closeCycle (y : Tile) : Tile :=
  let held := y.held.filter fun h => decide (y.cyc < h.2)
  { y with cyc := y.cyc + 1, held := held, older := held,
           exports := y.exports.filter fun p =>
             y.sched.any fun e => match e.act with
               | .expRow i _ | .expWrite i _ _ => i == p.issue
               | _ => false,
           running := y.running && !(y.endAt.isSome && y.sched.isEmpty) }

/-- The end of a tile's present cycle: its reads, then its writes; the cycle count rises by 1. -/
def Tile.endCycle (x : Tile) : ActOut :=
  let conf := x.conflict x.cyc
  let due := sortSched (x.sched.filter fun e => decide (e.due ≤ x.cyc))
  let o := ({ x with sched := x.sched.filter fun e => decide (x.cyc < e.due) } : Tile).runDue due
  { o with tile := o.tile.closeCycle, stop := match conf with
      | some pc => if o.stop.isSome then o.stop else some (.bufferConflict, pc)
      | none => o.stop }

/-- Clears FLT_INJ_TILE.GO once the armed injection has been used (R625). -/
def State.injUsed (s : State) (before after : Tile) : State :=
  if before.inject.isSome && after.inject.isNone then s.setBit FLT_INJ_TILE 31 false else s

/-- The end of tile `t`'s present cycle, with its reports and its stop. -/
def State.endTileCycle (s : State) (t : Nat) : State :=
  let x := s.tile t
  let o := x.endCycle
  let s := (s.setTile t o.tile).injUsed x o.tile
  let s := o.reports.foldl (fun s r => s.fault { msgOf r.1 1 t with addr := r.2, slot := (x.flight.map Prod.fst).getD 255 }) s
  match o.stop with
  | some (k, pc) => s.stopTile t k pc
  | none => s

end Sys2Proof.Machine
end

