-- ==== Sys2Proof/Machine/Image.lean ====
section
/-! DEFINITION. The flight image as the device reads it: header, directory, sections and entries (R212 to
R228, R178, R179). -/

namespace Sys2Proof.Machine

/-! ### Header and directory (R213, R214) -/

def hdrSections (m : Ram) : Nat := m.num 0x006 2
def hdrSize (m : Ram) : Nat := m.num 0x008 8
def hdrFlags (m : Ram) : Nat := m.num 0x010 4
def hdrLoop (m : Ram) : Bool := bitOf (hdrFlags m) 1
def hdrTiles (m : Ram) : Nat := m.num 0x014 4
def hdrDevices (m : Ram) : Nat := m.num 0x018 2
def hdrPositions (m : Ram) : Nat := m.num 0x01A 2
def hdrLoopPos (m : Ram) : Nat := m.num 0x01C 2
def hdrVariants (m : Ram) : Nat := m.num 0x01E 1
def hdrPriority (m : Ram) : Nat := m.num 0x01F 1
def hdrPoundLen (m : Ram) : Nat := m.num 0x020 2
def hdrGateLead (m : Ram) : Nat := m.num 0x022 2
def hdrFreeboard (m : Ram) : Nat := m.num 0x024 2
def hdrFixedClock (m : Ram) : Nat := m.num 0x026 2
def hdrFeatures (m : Ram) : Nat := m.num 0x028 4
def hdrLegs (m : Ram) : Nat := m.num 0x02C 4
def hdrSnapBytes (m : Ram) : Nat := m.num 0x030 8
def hdrBuild (m : Ram) : Nat := m.num 0x038 8

/-- A section of the image: type, entry count, offset, size. -/
structure Section_ where
  typ    : Nat
  count  : Nat
  off    : Nat
  size   : Nat
  deriving DecidableEq, Repr

/-- Directory entry `i`. -/
def dirEntry (m : Ram) (i : Nat) : Section_ :=
  let b := 0x040 + 24 * i
  { typ := m.num b 2, count := m.num (b + 4) 4, off := m.num (b + 8) 8, size := m.num (b + 16) 8 }

/-- The used directory entries. -/
def sections (m : Ram) : List Section_ := (List.range (min (hdrSections m) 24)).map (dirEntry m)

/-- The section of a type; one with no entry reads as empty. -/
def sectOf (m : Ram) (t : Nat) : Section_ :=
  ((sections m).find? fun e => e.typ == t).getD { typ := t, count := 0, off := 0, size := 0 }

/-- Section types (R215). -/
def SEC_DEVICE_SET := 0x01
def SEC_TILE_TABLE := 0x02
def SEC_INSTR := 0x03
def SEC_HOLD_CHUNKS := 0x04
def SEC_HOLD_DATA := 0x05
def SEC_LEG_RECORDS := 0x06
def SEC_BARGES := 0x07
def SEC_WINDOWS := 0x08
def SEC_LEG_TABLE := 0x09
def SEC_CLOCKS := 0x0A
def SEC_PLAN := 0x0B
def SEC_SLOT_TABLES := 0x0C
def SEC_DETOURS := 0x0D
def SEC_LANE_PLAN := 0x0E
def SEC_STACK_RES := 0x0F
def SEC_ROUTED := 0x10
def SEC_SNAPSHOT := 0x11
def SEC_BARRIERS := 0x12

/-- Entry size of a type with a fixed one (R215); 0 for SLOT_TABLES. -/
def entrySize (t : Nat) : Nat :=
  match t with
  | 0x01 => 32 | 0x02 => 16 | 0x03 => 16 | 0x04 => 16 | 0x05 => 1 | 0x06 => 16 | 0x07 => 64
  | 0x08 => 16 | 0x09 => 4 | 0x0A => 2 | 0x0B => 8 | 0x0D => 16 | 0x0E => 16 | 0x0F => 16
  | 0x10 => 16 | 0x11 => 16 | 0x12 => 4 | _ => 0

/-- A field of entry `i` of a section. -/
def entryNum (m : Ram) (t i off n : Nat) : Nat := m.num ((sectOf m t).off + entrySize t * i + off) n

/-- Number of entries of a section. -/
def entryCount (m : Ram) (t : Nat) : Nat := (sectOf m t).count

/-! ### Devices and tiles (R216, R217) -/

def devIndex (m : Ram) (d : Nat) : Nat := entryNum m SEC_DEVICE_SET d 0x00 2
def devMask (m : Ram) (d : Nat) : Nat := entryNum m SEC_DEVICE_SET d 0x02 2
def devFirst (m : Ram) (d : Nat) : Nat := entryNum m SEC_DEVICE_SET d 0x04 4
def devTiles (m : Ram) (d : Nat) : Nat := entryNum m SEC_DEVICE_SET d 0x08 2
def devSpares (m : Ram) (d : Nat) : List Nat :=
  (List.range (min (entryNum m SEC_DEVICE_SET d 0x0A 2) 4)).map fun k =>
    entryNum m SEC_DEVICE_SET d (0x0C + 2 * k) 2
def devBuddy (m : Ram) (d : Nat) : Nat := entryNum m SEC_DEVICE_SET d 0x14 2

/-- The device slots. -/
def devSlots (m : Ram) : List Nat := List.range (entryCount m SEC_DEVICE_SET)

/-- The device slot whose DEV_INDEX is `x`. -/
def slotOfDev (m : Ram) (x : Nat) : Option Nat := (devSlots m).find? fun d => devIndex m d == x

def tileLogical (m : Ram) (f : Nat) : Nat := entryNum m SEC_TILE_TABLE f 0x00 2
def tileSlot (m : Ram) (f : Nat) : Nat := entryNum m SEC_TILE_TABLE f 0x02 2
def tileImemFirst (m : Ram) (f : Nat) : Nat := entryNum m SEC_TILE_TABLE f 0x04 4
def tileImemCount (m : Ram) (f : Nat) : Nat := entryNum m SEC_TILE_TABLE f 0x08 2
def tileChunkCount (m : Ram) (f : Nat) : Nat := entryNum m SEC_TILE_TABLE f 0x0A 2
def tileChunkFirst (m : Ram) (f : Nat) : Nat := entryNum m SEC_TILE_TABLE f 0x0C 4

/-- The flight tiles of a device slot (R216). -/
def slotTiles (m : Ram) (d : Nat) : List Nat := (List.range (devTiles m d)).map (· + devFirst m d)

/-! ### Legs (R220, R221) -/

def legPc (m : Ram) (l : Nat) : Nat := entryNum m SEC_LEG_RECORDS l 0x00 2
def legBarges (m : Ram) (l : Nat) : Nat := entryNum m SEC_LEG_RECORDS l 0x02 2
def legBargeFirst (m : Ram) (l : Nat) : Nat := entryNum m SEC_LEG_RECORDS l 0x04 4
def legWindows (m : Ram) (l : Nat) : Nat := entryNum m SEC_LEG_RECORDS l 0x08 1
def legWindowFirst (m : Ram) (l : Nat) : Nat := entryNum m SEC_LEG_RECORDS l 0x0C 4

/-- The leg of variant `v`, position `j` and flight tile `f`; none for 0xFFFF_FFFF (R221). -/
def legOf (m : Ram) (v j f : Nat) : Option Nat :=
  let l := entryNum m SEC_LEG_TABLE ((v * hdrPositions m + j) * hdrTiles m + f) 0 4
  if l = 0xFFFFFFFF then none else some l

/-- The planned clock of a flight tile in a variant (R223). -/
def planClock (m : Ram) (v f : Nat) : Nat := entryNum m SEC_CLOCKS (v * hdrTiles m + f) 0 2

/-- ENERGY and PLAN_END (R224). -/
def planEnergy (m : Ram) (v j d : Nat) : Nat :=
  entryNum m SEC_PLAN ((v * hdrPositions m + j) * hdrDevices m + d) 0 4
def planEnd (m : Ram) (v j d : Nat) : Nat :=
  entryNum m SEC_PLAN ((v * hdrPositions m + j) * hdrDevices m + d) 4 4

/-- An access window: base and length (R220). -/
def window (m : Ram) (w : Nat) : Nat × Nat := (entryNum m SEC_WINDOWS w 0 8, entryNum m SEC_WINDOWS w 8 8)

/-- The participants of a barrier, if the flight has an entry for its BID (R226, R294). -/
def barrierCount (m : Ram) (bid : Nat) : Option Nat :=
  ((List.range (entryCount m SEC_BARRIERS)).find? fun i => entryNum m SEC_BARRIERS i 0 1 == bid).map fun i =>
    entryNum m SEC_BARRIERS i 2 2

/-! ### Barge descriptors (R178, R179) -/

/-- A barge descriptor, its fields decoded. -/
structure Desc where
  ctl      : Nat
  deadline : Nat
  src      : Nat
  dst      : Nat
  l0       : Nat
  c1       : Nat
  c2       : Nat
  c3       : Nat
  ss1      : Int
  ss2      : Int
  ss3      : Int
  ds1      : Int
  ds2      : Int
  ds3      : Int
  aux      : Nat
  deriving DecidableEq, Repr

/-- Decodes a descriptor's 64 bytes. -/
def descOf (b : List Byte) : Desc :=
  let n (off len : Nat) := leNat ((b.drop off).take len)
  { ctl := n 0 4, deadline := n 4 4, src := n 8 8, dst := n 16 8, l0 := n 24 4, c1 := n 28 2, c2 := n 30 2,
    c3 := n 32 2, ss1 := signedOf (n 36 4) 32, ss2 := signedOf (n 40 4) 32, ss3 := signedOf (n 44 4) 32,
    ds1 := signedOf (n 48 4) 32, ds2 := signedOf (n 52 4) 32, ds3 := signedOf (n 56 4) 32, aux := n 60 4 }

def Desc.lane (d : Desc) : Nat := bitsOf d.ctl 29 29
def Desc.esz (d : Desc) : Nat := bitsOf d.ctl 28 27
def Desc.bs16 (d : Desc) : Bool := bitOf d.ctl 26
def Desc.cvtTo (d : Desc) : Nat := bitsOf d.ctl 25 22
def Desc.cvtFrom (d : Desc) : Nat := bitsOf d.ctl 21 18
def Desc.cvt (d : Desc) : Bool := bitOf d.ctl 17
def Desc.rlc (d : Desc) : Nat := bitsOf d.ctl 16 13
def Desc.rlcEn (d : Desc) : Bool := bitOf d.ctl 12
def Desc.freight (d : Desc) : Bool := bitOf d.ctl 11
def Desc.op (d : Desc) : Nat := bitsOf d.ctl 10 8
def Desc.dstKind (d : Desc) : Nat := bitsOf d.ctl 7 4
def Desc.srcKind (d : Desc) : Nat := bitsOf d.ctl 3 0

/-- The region size N of a gather or scatter (R189): an unsigned 32-bit field. -/
def Desc.region (d : Desc) : Nat := ((if d.op = 1 then d.ss3 else d.ds3) % (2 ^ 32 : Int)).toNat

/-- Bytes of descriptor `i` of the BARGES section. -/
def bargeBytes (m : Ram) (i : Nat) : List Byte := m.read ((sectOf m SEC_BARGES).off + 64 * i) 64

end Sys2Proof.Machine
end

