-- ==== Sys2Proof/Machine/Home.lean ====
section
/-! DEFINITION. Stack controllers, the basin homes and the caches: protection of stack words (R334 to
R342, R347), the home's answers (R371, R365), replacement and victim buffers (R373, R384), bias (R376)
and the errors of cache storage (R386). -/

namespace Sys2Proof.Machine

/-! ### Stack controllers -/

/-- A message of a stack port about a DPA: the instance is port x 32 + channel (R334). -/
def State.stkFault (s : State) (kind dpa : Nat) : State :=
  match s.frame dpa with
  | some f => s.report kind 4 (f.port * 32 + f.pc / 2) dpa
  | none => s

/-- Queues the write-back of a word (R334); a later write of the word removes it (R339). -/
def State.queueWriteback (s : State) (dpa mark : Nat) : State :=
  match s.frame dpa with
  | some f => s.modStack f.port fun k =>
      { k with writeback := (k.writeback.filter fun e => e.1 ≠ dpa) ++ [(dpa, mark)] }
  | none => s

/-- One word of a burst read under R334: its reports, flags and write-back. -/
def State.checkWord (s : State) (w : Nat) : State :=
  match s.hdm.mark (8 * w) with
  | 1 => ((s.stkFault K_STK_CE (8 * w)).stkErr (8 * w) 0).queueWriteback (8 * w) 0
  | 2 => ((s.stkFault K_STK_UE (8 * w)).stkErr (8 * w) 1).queueWriteback (8 * w) 3
  | _ => s

/-- An access to a drained channel (R347). -/
def State.drainedAccess (s : State) (dpa : Nat) : State :=
  (s.stkFault K_STK_DRAINED_ACCESS dpa).stkErr dpa 4

/-- A write to an EVACUATE or RETIRED pseudo-channel (R342). -/
def State.discardedWrite (s : State) (dpa : Nat) : State :=
  (s.stkFault K_STK_UNBACKED_WRITE dpa).stkErr dpa 5

/-- A burst read of the line at `la` at its stack controller: the data and the poison of its words. -/
def State.stkReadLine (s : State) (la : Nat) : State × LineData :=
  match s.frameUse la with
  | .normal | .evacuate =>
    ((wordsOf la 64).foldl State.checkWord s, s.memLine false la)
  | .drained => (s.drainedAccess la, s.memLine false la)
  | .retired | .absent => (s, s.memLine false la)

/-- Part of one word written at its stack controller (R335, R337). -/
def State.stkWord (s : State) (port a : Nat) (part : List Byte) (poison : Bool) : State :=
  let w := 8 * (a / 8)
  let old := s.hdm.mark w
  let s := { s with hdm := s.hdm.write a part }.dropWriteback w
  let s := if poison then s.stkErr w 2 else s
  if part.length = 8 then
    let m := s.wholeMark port poison
    { m.1 with hdm := m.1.hdm.setMark w m.2 }
  else
    let s := if old = 1 then (s.stkFault K_STK_CE w).stkErr w 0 else s
    if badMark old then
      (({ s with hdm := s.hdm.setMark w 3 }.stkFault K_STK_MERGE_UE w).stkErr w 3).stkErr w 2
    else { s with hdm := s.hdm.setMark w (if poison then 3 else 0) }

/-- A write of bytes within one line at its stack controller; `mask` gives the poison of the line's
words. -/
def State.stkWriteLine (s : State) (a : Nat) (bs : List Byte) (mask : Nat) : State :=
  match s.frame a, s.frameUse a with
  | some f, .normal =>
    (wordsOf a bs.length).foldl (fun s w =>
      let p := partAt a bs (8 * w) 8
      s.stkWord f.port p.1 p.2 (bitOf mask (w % 8))) s
  | _, .drained => s.drainedAccess a
  | _, .absent => s
  | _, _ => s.discardedWrite a

/-! ### Slices, sets and ways (R361 to R363, R384, R388 to R390) -/

/-- The physical slice that is the home of a line. -/
def State.slice (s : State) (host : Bool) (la : Nat) : Nat :=
  if host then s.fuses.reaches.getD (la / 4096 % s.fuses.reaches.length) 0
  else match s.frame la with
    | some f => f.reach
    | none => 0

/-- The address A of R363. -/
def State.setAddr (s : State) (host : Bool) (la : Nat) : Nat :=
  if host then la else la % (2 * s.boot.capacity)

/-- The set of a line in its basin slice. -/
def State.bsnSet (s : State) (host : Bool) (la : Nat) : Nat :=
  let a := s.setAddr host la
  bitsOf a 18 6 ^^^ bitsOf a 31 19

/-- The set of a line in an agent's cache: a reach cache (R363), or a lockkeeper L1 by A[12:6]. -/
def State.copySet (s : State) (agent : Nat) (host : Bool) (la : Nat) : Nat :=
  let a := s.setAddr host la
  if agent < 16 then bitsOf a 15 6 ^^^ bitsOf a 25 16 else bitsOf a 12 6

/-- Whether a way is disabled or in recovery. -/
def State.wayOut (s : State) (basin : Bool) (idx w : Nat) : Bool :=
  s.basin.disabled.contains (basin, idx, w) || s.basin.recovering.contains (basin, idx, w)

/-- The enabled ways of a slice, ascending. -/
def State.enabledWays (s : State) (p : Nat) : List Nat :=
  (List.range 24).filter fun w => !s.basin.disabled.contains (true, p, w)

/-- The moored ways of a slice, moored way 0 first (R390). -/
def State.mooredWays (s : State) (p : Nat) : List Nat := ((s.enabledWays p).reverse).take s.basin.moor

/-- The ways of a slice that may take a line. -/
def State.bsnWays (s : State) (p : Nat) : List Nat :=
  (s.enabledWays p).filter fun w =>
    !(s.mooredWays p).contains w && !s.basin.recovering.contains (true, p, w)

/-- The ways of an agent's cache that may take a line; a berth's cache is its own. -/
def State.copyWays (s : State) (agent : Nat) : List Nat :=
  if agent < 16 then (List.range 16).filter fun w => !s.wayOut false agent w
  else if agent < 40 then (List.range 4).filter fun w => !s.wayOut false (agent + 16) w
  else []

/-- A way's occupant as replacement sees it: its way, age, whether its presence vector is empty, and
whether it may be chosen. -/
structure WayUse where
  way   : Nat
  age   : Nat
  empty : Bool
  free  : Bool
  deriving DecidableEq, Repr

/-- What replacement decides: the way to fill, how much every age of the set rises, and whether the
way's line must leave (R384). -/
def chooseWay (ways : List Nat) (used : List WayUse) : Option (Nat × Nat × Bool) :=
  match ways.find? fun w => !(used.any fun u => u.way == w) with
  | some w => some (w, 0, false)
  | none =>
    let cand := used.filter fun u => u.free && ways.contains u.way
    let top := cand.foldl (fun m u => max m u.age) 0
    let best := cand.filter fun u => u.age == top
    let pool := if best.any fun u => u.empty then best.filter fun u => u.empty else best
    match pool with
    | [] => none
    | u :: us => some (us.foldl (fun m v => min m v.way) u.way, 3 - top, true)

/-- The non-victim lines of a slice's set. -/
def State.setLines (s : State) (p set : Nat) : List Line :=
  s.basin.lines.filter fun l => !l.victim && s.slice l.host l.addr == p && s.bsnSet l.host l.addr == set

/-- The non-victim copies of an agent's set. -/
def State.setCopies (s : State) (agent set : Nat) : List Copy :=
  s.basin.copies.filter fun c => c.agent == agent && !c.victim && s.copySet agent c.host c.addr == set

/-! ### Snoops of the host (R377, R449) -/

/-- A D2H request of the CXL.cache agent (R452), numbered in that rule's order from RdCurr = 0. -/
def State.d2h (s : State) (req la : Nat) : State := s.emit (.d2h req la)

/-! ### Memory behind a home -/

/-- A line that the home reads from memory. -/
def State.homeRead (s : State) (host : Bool) (la : Nat) : State × LineData :=
  if host then (s.d2h 1 la, s.memLine true la) else s.stkReadLine la

/-- Bytes of a line that the home writes to memory, with the poison of the line's words: a host line goes
out as a CXL.cache eviction (R379, R452). -/
def State.homeWrite (s : State) (host : Bool) (a : Nat) (bs : List Byte) (mask : Nat) : State :=
  if host then
    { s with host := (wordsOf a bs.length).foldl (fun m w =>
        let p := partAt a bs (8 * w) 8
        m.store p.1 p.2 (bitOf mask (w % 8))) s.host }.d2h 6 (lineOf a)
  else s.stkWriteLine a bs mask

/-! ### Errors of cache storage (R386, R409) -/

/-- A message of a cache: its instance is the physical index, and STATUS carries the way that the kind
counts. -/
def State.cacheFault (s : State) (kind unit inst way addr : Nat) : State :=
  s.fault { msgOf kind unit inst with addr := addr, status := way }

/-- The injection that CMX_INJ makes on the next basin word written, if it selects this slice. -/
def State.bsnInject (s : State) (host : Bool) (la word : Nat) : State :=
  if s.bit CMX_WAYSEL 4 && (s.fld CMX_WAYSEL 3 0 == s.slice host la) &&
      (s.bit CMX_INJ 1 || s.bit CMX_INJ 2) then
    match s.basinLine host la with
    | some l =>
      let mark := if s.bit CMX_INJ 2 then 2 else 1
      ((s.putLine { l with marks := sset 0 word mark l.marks }).setBit CMX_INJ 1 false).setBit CMX_INJ 2 false
    | none => s
  else s

/-- The check of a basin line that is read: corrected words are rewritten, uncorrectable words of a clean
line are refetched, those of a DIRTY line become stored poison. -/
def State.basinCheck (s : State) (host : Bool) (la : Nat) : State :=
  match s.basinLine host la with
  | none => s
  | some l =>
    let cor := l.marks.any fun m => m.2 == 1
    let uncor := l.marks.any fun m => m.2 == 2
    let s := if cor then
        (s.putLine { l with marks := l.marks.filter fun m => m.2 ≠ 1 }).cacheFault K_BSN_CE 3
          (s.slice host la) l.way la
      else s
    if !uncor then s
    else
      let s := (s.cacheFault K_BSN_UE 3 (s.slice host la) l.way la).setBit CMX_ERR 4 true
      match s.basinLine host la with
      | none => s
      | some l =>
        if l.dirty then s.putLine { l with marks := l.marks.map fun m => (m.1, if m.2 = 2 then 3 else m.2) }
        else
          let r := s.homeRead host la
          r.1.putLine { l with data := r.2.data,
                               marks := if r.2.poison = 0 then []
                                        else (List.range 8).map fun i => (i, 3) }

/-! ### The basin's own lines -/

/-- Raises the ages of a set (R384). -/
def State.ageSet (s : State) (p set n : Nat) : State :=
  { s with basin := { s.basin with lines := s.basin.lines.map fun l =>
      if (!l.victim && s.slice l.host l.addr == p && s.bsnSet l.host l.addr == set) then
        { l with age := min 3 (l.age + n) } else l } }

/-- The write-back of a line in a slice's victim buffer is accepted by memory. -/
def State.drainLine (s : State) (host : Bool) (la : Nat) : State :=
  match s.basinLine host la with
  | none => s
  | some l =>
    if !l.victim then s
    else
      let s := { s with basin := { s.basin with lines := s.basin.lines.filter (· ≠ l) } }
      s.homeWrite host la l.data (markMask l.marks)

/-- Room in a slice's victim buffer of 64 lines: its first line leaves a full one (R361, R374). -/
def State.victimRoom (s : State) (p : Nat) : State :=
  let vs := s.basin.lines.filter fun l => l.victim && s.slice l.host l.addr == p
  match vs with
  | v :: _ => if vs.length < 64 then s else s.drainLine v.host v.addr
  | [] => s

/-- A line leaves its way: its modified copy is recalled, every copy is invalidated, and a dirty line
waits in the victim buffer for its write-back (R364, R373). -/
def State.evictLine (s : State) (host : Bool) (la : Nat) : State :=
  let s := ((s.recallHost host la).recall host la).dropCopies host la none
  match s.basinLine host la with
  | none => s
  | some l =>
    if l.dirty then (s.victimRoom (s.slice host la)).putLine { l with victim := true, presence := [] }
    else { s with basin := { s.basin with lines := s.basin.lines.filter fun x => !(x.host == host && x.addr == la) } }

/-- A way for a line of a slice's set, its former line evicted. -/
def State.placeLine (s : State) (host : Bool) (la : Nat) : State × Option Nat :=
  let p := s.slice host la
  let set := s.bsnSet host la
  let used := (s.setLines p set).map fun l =>
    { way := l.way, age := l.age, empty := l.presence.isEmpty, free := !l.watch : WayUse }
  match chooseWay (s.bsnWays p) used with
  | none => (s, none)
  | some (w, up, leave) =>
    let s := if up = 0 then s else s.ageSet p set up
    let s := if leave then
        match (s.setLines p set).find? fun l => l.way == w with
        | some l => s.evictLine l.host l.addr
        | none => s
      else s
    (s, some w)

/-- Ensures that a line is in its slice: a hit sets its age to 0, a line in the victim buffer returns to a
way, and a miss fills from memory at the given age (R373, R384). -/
def State.fillLine (s : State) (host : Bool) (la age : Nat) : State :=
  match s.basinLine host la with
  | some l =>
    if !l.victim then s.putLine { l with age := 0 }
    else
      let t : State := { s with basin := { s.basin with lines := s.basin.lines.filter (· ≠ l) } }
      match t.placeLine host la with
      | (t, some w) =>
        { t with basin := { t.basin with lines := t.basin.lines ++ [{ l with victim := false, way := w, age := 0 }] } }
      | (_, none) => s
  | none =>
    match s.placeLine host la with
    | (s, none) => s
    | (s, some w) =>
      let r := s.homeRead host la
      let marks := if r.2.poison = 0 then [] else (List.range 8).map fun i => (i, 3)
      let new : Line := { host := host, addr := la, data := r.2.data, marks := marks, age := age, way := w }
      let t : State := { r.1 with basin := { r.1.basin with lines := r.1.basin.lines ++ [new] } }
      t.bsnInject host la 0

/-- The age of a fill by the page's attribute: NA fills are inserted old. -/
def fillAge (attr : Nat) : Nat := if attr = 2 then 3 else 1

/-! ### Copies in reach caches, lockkeeper L1s and berth caches -/

/-- A lockkeeper's L1 loses a line: its reservation on it goes (R424). -/
def State.loseResv (s : State) (k : Nat) (host : Bool) (la : Nat) : State :=
  if !host && (s.lk k).resv == some la then s.modLk k fun x => { x with resv := none } else s

/-- Removes an agent's copy and its presence bit. -/
def State.removeCopy (s : State) (agent : Nat) (host : Bool) (la : Nat) : State :=
  let s := if 16 ≤ agent ∧ agent < 40 then s.loseResv (agent - 16) host la else s
  { s with basin := { s.basin with
      copies := s.basin.copies.filter fun c => !(c.agent == agent && c.host == host && c.addr == la),
      lines := s.basin.lines.map fun l =>
        if l.host == host && l.addr == la then
          { l with presence := l.presence.filter (· ≠ agent),
                   owner := if l.owner = some agent then none else l.owner }
        else l } }

/-- An M copy's data written back at its home (R371): from an agent that is no longer the owner it is
discarded (R373). -/
def State.writeBack (s : State) (agent : Nat) (host : Bool) (la : Nat) : State :=
  match s.copyOf agent host la with
  | none => s
  | some c =>
    if c.st = .m then (s.recall host la).removeCopy agent host la
    else { s with basin := { s.basin with copies := s.basin.copies.filter (· ≠ c) } }

/-- Room in an agent's victim buffer of 32 lines: its first line leaves a full one (R361, R374). -/
def State.copyRoom (s : State) (agent : Nat) : State :=
  let vs := s.basin.copies.filter fun c => c.agent == agent && c.victim
  match vs with
  | v :: _ => if vs.length < 32 then s else s.writeBack agent v.host v.addr
  | [] => s

/-- A copy leaves its way: a modified one waits in the victim buffer, a clean one goes silently. -/
def State.evictCopy (s : State) (c : Copy) : State :=
  let s := if 16 ≤ c.agent ∧ c.agent < 40 then s.loseResv (c.agent - 16) c.host c.addr else s
  if c.st = .m then (s.copyRoom c.agent).putCopy { c with victim := true }
  else { s with basin := { s.basin with copies := s.basin.copies.filter fun x =>
    !(x.agent == c.agent && x.host == c.host && x.addr == c.addr) } }

/-- A way for a copy in its agent's cache. -/
def State.placeCopy (s : State) (agent : Nat) (host : Bool) (la : Nat) : State × Nat :=
  let set := s.copySet agent host la
  let used := (s.setCopies agent set).map fun c =>
    { way := c.way, age := c.age, empty := true, free := true : WayUse }
  match chooseWay (s.copyWays agent) used with
  | none => (s, 0)
  | some (w, up, leave) =>
    let s := if up = 0 then s else
      { s with basin := { s.basin with copies := s.basin.copies.map fun c =>
          if c.agent == agent && !c.victim && s.copySet agent c.host c.addr == set then
            { c with age := min 3 (c.age + up) } else c } }
    let s := if leave then
        match (s.setCopies agent set).find? fun c => c.way == w with
        | some c => s.evictCopy c
        | none => s
      else s
    (s, w)

/-- Uses an armed injection of a lockkeeper (R625). -/
def State.lkInjUsed (s : State) (k : Nat) : State :=
  (s.modLk k fun x => { x with inject := none }).setBit FLT_INJ_LKP 31 false

/-- Whether an injection spoils the next byte written into an agent's cache: CMX_INJ for a reach cache (R409),
FLT_INJ_LKP for a lockkeeper's L1 (R625); the injection is used. -/
def State.rcInject (s : State) (agent : Nat) : State × Bool :=
  if agent < 16 && !s.bit CMX_WAYSEL 4 && s.fld CMX_WAYSEL 3 0 == agent && s.bit CMX_INJ 0 then
    (s.setBit CMX_INJ 0 false, true)
  else if 16 ≤ agent ∧ agent < 40 ∧ (s.lk (agent - 16)).inject = some 0 then (s.lkInjUsed (agent - 16), true)
  else (s, false)

/-- Gives an agent a copy of a line in a state, with the presence bit and the owner that go with it. -/
def State.grant (s : State) (agent : Nat) (host : Bool) (la : Nat) (st : LineSt) (data : LineData)
    (age : Nat) : State :=
  let old := s.copyOf agent host la
  let p : State × Nat := match old with
    | some c => if c.victim then s.placeCopy agent host la else (s, c.way)
    | none => s.placeCopy agent host la
  let i := p.1.rcInject agent
  let c : Copy := { agent := agent, host := host, addr := la, st := st,
                    data := if st = .m then data.data else [], poison := if st = .m then data.poison else 0,
                    age := age, way := p.2, bad := i.2 }
  let s : State := i.1
  let s : State := { s with basin := { s.basin with copies := (s.basin.copies.filter fun (x : Copy) =>
    !(x.agent == agent && x.host == host && x.addr == la)) ++ [c] } }
  match s.basinLine host la with
  | none => s
  | some l => s.putLine { l with presence := insertNat agent l.presence,
                                 owner := if st = .s then l.owner else some agent }

/-- Whether another agent than `agent`, the host included, holds the line: a presence bit that has outlived its copy
counts for nothing (R368). -/
def State.sharedWith (s : State) (agent : Nat) (host : Bool) (la : Nat) : Bool :=
  match s.basinLine host la with
  | some l => l.presence.any fun a => a ≠ agent ∧ (a = 44 ∨ (s.copyOf a host la).isSome)
  | none => false

/-- A snoop of the owner of a line, where that is a berth (R371, R551). -/
def State.snoopOwner (s : State) (host : Bool) (la : Nat) (o : Nat → Nat → Out) : State :=
  match (s.basinLine host la).bind fun l => l.owner with
  | some a => if !host && decide (40 ≤ a) then s.emit (o (a - 40) la) else s
  | none => s

/-- Shared read at the home (R368, R371): the owner's data is forwarded and copied home, the basin fills,
and the requester gets E when it may and nobody else holds the line, otherwise S. -/
def State.sharedRead (s : State) (agent : Nat) (host : Bool) (la attr : Nat) : State × LineData :=
  let s := s.fillLine host la (fillAge attr)
  let s := match s.basinLine host la with
    | none => s
    | some l =>
      match l.owner with
      | none => s
      | some o =>
        if o = agent then s
        else
          let s := (s.snoopOwner host la .berthSnpData).recall host la
          let s := match s.copyOf o host la with
            | some c => s.putCopy { c with st := .s, data := [], poison := 0 }
            | none => s
          match s.basinLine host la with
          | some l => s.putLine { l with owner := none }
          | none => s
  let s := s.basinCheck host la
  let d := s.latestLine host la
  let mayE := decide (agent < 16) || decide (40 ≤ agent)
  let st := match s.copyOf agent host la with
    | some c => c.st
    | none => if mayE && !s.sharedWith agent host la then .e else .s
  if (s.basinLine host la).isNone then (s, d)
  else (s.grant agent host la st d (fillAge attr), d)

/-- Ownership read or upgrade at the home (R371): every other copy goes, the owner's data with it, and the
requester owns the line in M. -/
def State.ownershipRead (s : State) (agent : Nat) (host : Bool) (la : Nat) : State × LineData :=
  let s := s.fillLine host la 1
  let s := s.basinCheck host la
  let d := s.latestLine host la
  let s := s.dropCopies host la (some agent)
  let s := match s.basinLine host la with
    | some l => s.putLine { l with presence := l.presence.filter (· ≠ 44) }
    | none => s
  if (s.basinLine host la).isNone then (s, d)
  else (s.grant agent host la .m d 1, d)

/-- A copy read by its own agent: a parity error in it is found here (R386). -/
def State.copyCheck (s : State) (agent : Nat) (host : Bool) (la : Nat) : State :=
  match s.copyOf agent host la with
  | none => s
  | some c =>
    if !c.bad then s
    else if agent < 16 then
      let s := s.setBit CMX_ERR 3 true
      if c.st = .m then
        ((s.putCopy { c with bad := false, poison := 0xFF }).writeBack agent host la).cacheFault
          K_RC_PARITY_DIRTY 2 agent c.way la
      else (s.removeCopy agent host la).cacheFault K_RC_PARITY 2 agent c.way la
    else ((s.removeCopy agent host la).cacheFault K_LK_PARITY 6 (agent - 16) c.way la).setBit CMX_ERR 3 true

/-- A read of a line by a caching agent through its own cache: a hit sets the age to 0; a miss is a shared
read. -/
def State.agentRead (s : State) (agent : Nat) (host : Bool) (la attr : Nat) : State × LineData :=
  let s := s.copyCheck agent host la
  match s.copyOf agent host la with
  | some c =>
    if !c.victim then (s.putCopy { c with age := 0 }, s.latestLine host la)
    else
      let p := s.placeCopy agent host la
      (p.1.putCopy { c with victim := false, way := p.2, age := 0 }, p.1.latestLine host la)
  | none => s.sharedRead agent host la attr

/-- Non-caching read of a line (R371): the owner's data, else the basin's, else memory's; no presence bit
and no state changes. A hit in the basin makes the line young (R384). -/
def State.ncReadLine (s : State) (host : Bool) (la : Nat) : State × LineData :=
  let s := s.snoopOwner host la .berthSnpCur
  if (s.mCopy host la).isSome then (s, s.latestLine host la)
  else
    match s.basinLine host la with
    | some _ =>
      let s := (s.fillLine host la 1).basinCheck host la
      (s, s.latestLine host la)
    | none => s.homeRead host la

/-- The part of a line's data that falls into `n` bytes at `a`, with the line's poison (R336). -/
def LineData.part (d : LineData) (la a n : Nat) : PBytes :=
  (partAt la d.data a n).2.map fun b => (b, decide (d.poison ≠ 0))

/-- Non-caching read of a byte range. -/
def State.ncRead (s : State) (host : Bool) (a n : Nat) : State × PBytes :=
  (linesOf a n).foldl (fun r la =>
    let x := r.1.ncReadLine host la
    (x.1, r.2 ++ x.2.part la a n)) (s, [])

/-- The mask of the words that a write of `n` bytes at `a` touches. -/
def wordMask (a n : Nat) : Nat := (wordsOf a n).foldl (fun m w => m + 2 ^ (w % 8)) 0

/-- A write into a basin line that is present, with its injection. -/
def State.bsnWrite (s : State) (host : Bool) (la off : Nat) (bs : List Byte) (poison dirty : Bool) : State :=
  (s.mergeLine host la off bs poison dirty).bsnInject host la (off / 8)

/-- Every copy of a line but `keep`'s is recalled and invalidated at the home, the host's presence bit
with them. -/
def State.purge (s : State) (host : Bool) (la : Nat) (keep : Option Nat) : State :=
  let s := ((s.recallHost host la).recall host la).dropCopies host la keep
  match s.basinLine host la with
  | some l => s.putLine { l with presence := l.presence.filter (· ≠ 44), owner := none }
  | none => s

/-- Non-caching write of bytes within one line at its home (R365, R371): every copy but `keep`'s goes; the
data merges into the basin line and, under WT, is written to memory; with no line it goes to memory. -/
def State.ncWriteLine (s : State) (host : Bool) (a attr : Nat) (bs : List Byte) (poison : Bool)
    (keep : Option Nat) : State :=
  let la := lineOf a
  let s := s.purge host la keep
  let mask := if poison then wordMask a bs.length else 0
  let out (s : State) : State := if host then s.hostWrite a bs poison else s.homeWrite false a bs mask
  match s.basinLine host la with
  | none => out s
  | some l =>
    let s := (s.putLine { l with age := 0 }).bsnWrite host la (a - la) bs poison (attr ≠ 1)
    if attr = 1 then out s else s

/-- The bytes of a write, line by line: each part's address, its bytes and whether any is poisoned. -/
def lineParts (a : Nat) (bs : PBytes) : List (Nat × List Byte × Bool) :=
  (linesOf a bs.length).map fun la =>
    let p := partAt a bs la 64
    (p.1, bytesOf p.2, anyPoison p.2)

/-- Non-caching write of a byte range; poison marks the whole of each 64 B write (R336). -/
def State.ncWrite (s : State) (host : Bool) (a attr : Nat) (bs : PBytes) (keep : Option Nat) : State :=
  (lineParts a bs).foldl (fun s p => s.ncWriteLine host p.1 attr p.2.1 p.2.2 keep) s

/-- A flag write (R436): a posted write to host memory, never through a basin copy, or a non-caching write of HDM at the
home. -/
def State.flagStore (s : State) (host : Bool) (a : Nat) (bs : List Byte) : State :=
  if host then s.hostWrite a bs false else s.ncWrite false a 0 (bs.map fun b => (b, false)) none

/-- A read of HDM at its home by the device itself, with what its check reports (R334, R386); a read of host memory goes
to the host, where nothing of the device changes. -/
def State.markRead (s : State) (host : Bool) (a n : Nat) : State :=
  if host then s else (s.ncRead false a n).1

/-- An uncached write (UC): to the stack controller, or through the host port. -/
def State.ucWrite (s : State) (host : Bool) (a : Nat) (bs : PBytes) : State :=
  (lineParts a bs).foldl (fun s p =>
    if host then s.hostWrite p.1 p.2.1 p.2.2
    else s.stkWriteLine p.1 p.2.1 (if p.2.2 then wordMask p.1 p.2.1.length else 0)) s

/-- An uncached read. -/
def State.ucRead (s : State) (host : Bool) (a n : Nat) : State × PBytes :=
  (linesOf a n).foldl (fun r la =>
    let x := if host then (r.1, r.1.memLine true la) else r.1.stkReadLine la
    (x.1, r.2 ++ x.2.part la a n)) (s, [])

/-- UC of the page attribute codes: 0 WB, 1 WT, 2 NA, 3 UC. -/
def ATTR_UC : Nat := 3

/-- Whether a page is treated as UC: by its attribute, or a host page while Cache_Enable is 0 (R452). -/
def State.isUc (s : State) (host : Bool) (attr : Nat) : Bool :=
  attr == ATTR_UC || (host && !s.port.cacheEn)

/-- A non-caching agent's read or write of a page, by its attribute. -/
def State.pageRead (s : State) (host : Bool) (attr a n : Nat) : State × PBytes :=
  if s.isUc host attr then s.ucRead host a n else s.ncRead host a n
def State.pageWrite (s : State) (host : Bool) (attr a : Nat) (bs : PBytes) : State :=
  if s.isUc host attr then s.ucWrite host a bs else s.ncWrite host a attr bs none

/-- A store by a reach cache's requester (R365): under WB the line is taken in M and written there; under
WT the home and memory are written and the reach keeps its copy in S; otherwise the home is written. -/
def State.reachStore (s : State) (p : Nat) (host : Bool) (a attr : Nat) (bs : List Byte) (poison : Bool) : State :=
  if s.isUc host attr then s.ucWrite host a (bs.map fun b => (b, poison))
  else if attr = 0 then
    let la := lineOf a
    let s := s.copyCheck p host la
    let own : Bool := match s.copyOf p host la with
      | some c => decide (c.st ≠ .s) && !c.victim
      | none => false
    let s := if own = true then s else (s.ownershipRead p host la).1
    match s.copyOf p host la with
    | none => s.ncWriteLine host a attr bs poison none
    | some c =>
      let base := if c.st = .m then c.data else (s.latestLine host la).data
      let old := if c.st = .m then c.poison else (s.latestLine host la).poison
      let touched := wordMask a bs.length
      let mask := if poison then old ||| touched else
        if bs.length = 8 then old &&& (0xFF ^^^ touched) else old
      let i := s.rcInject p
      i.1.putCopy { c with st := .m, data := putAt base (a - la) bs, poison := mask, age := 0,
                           bad := c.bad || i.2 }
  else if attr = 1 then
    let s := s.ncWriteLine host a attr bs poison (some p)
    match s.copyOf p host (lineOf a) with
    | some c => s.putCopy { c with st := .s, data := [], poison := 0 }
    | none => s
  else s.ncWriteLine host a attr bs poison none

/-! ### Bias (R375 to R378) -/

/-- Whether a line's frame is in SHR bias. -/
def State.isShr (s : State) (dpa : Nat) : Bool := s.basin.shr.contains (dpa / 4096)

/-- Sets a frame's bias bit. -/
def State.setShr (s : State) (frame : Nat) (shr : Bool) : State :=
  { s with basin := { s.basin with
      shr := if shr then insertNat frame s.basin.shr else s.basin.shr.filter (· ≠ frame) } }

/-- The flip of a DEV frame by a host request (R376): every owner's data is recalled into the basin, every
device copy goes, and the frame becomes SHR. -/
def State.flip (s : State) (frame : Nat) : State :=
  let las := (s.basin.lines.filter fun l => !l.host && l.addr / 4096 == frame).map fun l => l.addr
  (las.foldl (fun s la => s.purge false la none) s).setShr frame true

/-- The lines of frames that the host holds by bit 44. -/
def State.hostHeld (s : State) (inRange : Nat → Bool) : List Nat :=
  (s.basin.lines.filter fun l => !l.host && l.presence.contains 44 && inRange l.addr).map fun l => l.addr

/-! ### Victim buffers -/

/-- A line's modifications written to memory (CLEAN, R396): copies stay valid and become clean. -/
def State.cleanLine (s : State) (host : Bool) (la : Nat) : State :=
  let o := s.mCopy host la
  let s := s.recall host la
  let s := match o with
    | some c => s.putCopy { c with st := .s, data := [], poison := 0 }
    | none => s
  let s := s.basinCheck host la
  match s.basinLine host la with
  | none => s
  | some l =>
    let s := if l.dirty then s.homeWrite host la l.data (markMask l.marks) else s
    if l.victim then { s with basin := { s.basin with lines := s.basin.lines.filter (· ≠ l) } }
    else s.putLine { l with dirty := false, owner := none }

/-- Every copy of a line discarded without write-back (INVALIDATE, R396). -/
def State.discardLine (s : State) (host : Bool) (la : Nat) : State :=
  let s := s.cancelResv host la none
  { s with basin := { s.basin with
      copies := s.basin.copies.filter fun c => !(c.host == host && c.addr == la),
      lines := s.basin.lines.filter fun l => !(l.host == host && l.addr == la) } }

/-- A directory entry rebuilt: a modified copy is collected, the host's with it, and the presence bits are those of the
copies that are left. -/
def State.rebuildEntry (s : State) (l : Line) : State :=
  let o := s.mCopy l.host l.addr
  let s := if !l.host && s.isShr l.addr then s.snoopHost l.addr false else s
  let s := s.recall l.host l.addr
  let s := match o with
    | some c => s.putCopy { c with st := .s, data := [], poison := 0 }
    | none => s
  match s.basinLine l.host l.addr with
  | some x =>
    let held := x.presence.filter fun a => a == 44 || (s.copyOf a l.host l.addr).isSome
    s.putLine { x with owner := none, presence := held }
  | none => s

/-- What a home does for an error of a line's tag or directory entry that its message reports (R386): a rebuilt entry; a
line whose tag is lost is snooped everywhere and goes, with its data where it is DIRTY. A synthetic message stands for
no error. No row of the block makes such an error, so that it shows with its message alone (DEDUCED: log entry 84). -/
def State.homeRepair (s : State) (m : FaultMsg) : State :=
  if m.inj || !(m.kind == K_BSN_TAG || m.kind == K_DIR_UE) then s
  else
    (s.basin.lines.filter fun l => l.addr == lineOf m.addr && s.slice l.host l.addr == m.inst).foldl (fun s l =>
      if m.kind = K_DIR_UE then s.rebuildEntry l
      else if m.cls = 0 then s
      else if m.cls = 1 then ((s.recallHost l.host l.addr).cleanLine l.host l.addr).discardLine l.host l.addr
      else (s.recallHost l.host l.addr).discardLine l.host l.addr) (s.setBit CMX_ERR 5 true)

end Sys2Proof.Machine
end

