-- ==== Sys2Proof/Machine/Act.lean ====
section
/-! DEFINITION. Master IDs and the access tables (R556 to R563). -/

namespace Sys2Proof.Machine

/-! ### Master IDs (R556) -/

def MID_BERTH (b : Nat) : Nat := 0x400 + b
def MID_LK (k : Nat) : Nat := 0x410 + k
def MID_MAINT : Nat := 0x430
def MID_WALKER : Nat := 0x432
def MID_FLIGHT (k : Nat) : Nat := 0x800 + k
def MID_CANAL (x : Nat) : Nat := 0xC00 + x

/-! ### Targets (R557) -/

def tgtHdm (dpa : Nat) : Nat := dpa / 2 ^ 30
def tgtHold (lt : Nat) : Nat := 2048 + lt
def TGT_MOORED : Nat := 2304
def tgtBar0 (k : Nat) : Nat := 2305 + k
def TGT_CANAL : Nat := 2321

/-- Rights as a mask (R561): 1 read, 2 write, 4 atomic. -/
def NEED_R : Nat := 1
def NEED_W : Nat := 2
def NEED_A : Nat := 4

/-- A register of the ACT block as checks see it: the copy taken when HOLD was set, or the register
(R559). -/
def State.actReg (s : State) (off : Nat) : Nat :=
  match s.actCopy with
  | some m => (sget (regReset s.fuses off) m off).toNat
  | none => (s.reg off).toNat

/-- The rights that a rule gives a master: none where it is invalid or its range does not hold it (R562). -/
def ruleRights (v master : Nat) : Nat :=
  if bitOf v 31 && decide (bitsOf v 11 0 ≤ master) && decide (master ≤ bitsOf v 23 12) then
    bitsOf v 30 28
  else 0

/-- The rights of a request: the OR over the run of its target (R558). -/
def State.actRights (s : State) (target master : Nat) : Nat :=
  let e := s.actReg (ACT_TGT + 4 * target)
  (List.range (bitsOf e 15 8)).foldl (fun r i =>
    r ||| ruleRights (s.actReg (ACT_RULE + 4 * ((bitsOf e 7 0 + i) % 256))) master) 0

/-- Whether a request passes its target's check; the BAR0 targets check only berths. -/
def State.actPass (s : State) (target master need : Nat) : Bool :=
  if 2305 ≤ target ∧ target < 2321 ∧ !(decide (0x400 ≤ master) && decide (master ≤ 0x403)) then true
  else s.actRights target master &&& need == need

/-- A refusal recorded in ACT_LOG and sent as ACT_DENIED (R560). -/
def State.actDeny (s : State) (target master need addr slot : Nat) : State :=
  let s := s.setReg ACT_LOG0 (BitVec.ofNat 32 (2 ^ 31 + target % 4096 * 4096 + master))
  let s := s.setReg ACT_LOG1 (BitVec.ofNat 32 need)
  s.fault { msgOf K_ACT_DENIED (0x10 + master / 1024) (master % 1024) with
            addr := addr, status := ST_ACCESS_DENIED, slot := slot }

/-- A checked request: whether it passes, with the record of a refusal. -/
def State.actCheck (s : State) (target master need addr : Nat) : State × Bool :=
  if s.actPass target master need then (s, true) else (s.actDeny target master need addr 255, false)

/-- The territories that an HDM range touches, with the first address in each. -/
def territories (dpa n : Nat) : List (Nat × Nat) :=
  if n = 0 then [] else
    (List.range ((dpa + n - 1) / 2 ^ 30 - dpa / 2 ^ 30 + 1)).map fun i =>
      (dpa / 2 ^ 30 + i, max dpa ((dpa / 2 ^ 30 + i) * 2 ^ 30))

/-- The first refusal of a range of HDM, if there is one: target and address. A DPA past the 2,048 territories has no
target; its frame is absent. -/
def State.hdmRefusal (s : State) (master need dpa n : Nat) : Option (Nat × Nat) :=
  (territories dpa n).find? fun t => decide (t.1 < 2048) && !s.actPass t.1 master need

/-- A checked access to a range of HDM. -/
def State.hdmCheck (s : State) (master need dpa n : Nat) : State × Bool :=
  match s.hdmRefusal master need dpa n with
  | none => (s, true)
  | some (t, a) => (s.actDeny t master need a 255, false)

end Sys2Proof.Machine
end

