-- ==== Sys2Proof/Machine/Xlt.lean ====
section
/-! DEFINITION. Address translation (14): the table walk, the TLBs, fault batches, access counters and the
table writes of the ring commands. -/

namespace Sys2Proof.Machine

/-! ### Entries (R516, R517) -/

def entV (e : Nat) : Bool := bitOf e 0
def entRights (e : Nat) : Nat := bitsOf e 3 1
def entAttr (e : Nat) : Nat := bitsOf e 5 4
def entShr (e : Nat) : Bool := bitOf e 6
def entHost (e : Nat) : Bool := bitOf e 7
def entCe (e : Nat) : Bool := bitOf e 8
def entT (e : Nat) : Bool := bitOf e 9
def entPeer (e : Nat) : Bool := bitOf e 10
def entPa (e : Nat) : Nat := bitsOf e 51 12 * 4096

/-- Bytes of a page by its code (R496, R530): 4 KiB, 2 MiB, 1 GiB, 512 GiB, 256 TiB, 128 PiB. -/
def pageSize (code : Nat) : Nat := 2 ^ (12 + 9 * code)

/-- The index of a VA at a level (R516). -/
def vaIndex (va level : Nat) : Nat := va / 2 ^ (12 + 9 * level) % 512

/-- Whether a range of HDM may hold an unbacked frame at all. -/
def State.anyUnbacked (s : State) : Bool :=
  (s.stk.any fun p => !p.2.pcs.isEmpty || !p.2.drained.isEmpty || p.2.st == .failed) ||
    (decide (8 ≤ s.boot.step) && (List.range 32).any fun n => s.fuses.stackFused n && (s.stack n).st == .off)

/-- Range 1 Size: HDM below the flight store and the bias table, a multiple of 256 MiB (R445). -/
def State.biasBytes (s : State) : Nat := s.hdmSize / 4096 / 8
def State.range1 (s : State) : Nat :=
  (s.hdmSize - (s.boot.flightStore + s.biasBytes)) / 2 ^ 28 * 2 ^ 28

/-! ### The pool (R519) -/

def State.poolBase (s : State) : Nat := (s.reg XLT_POOL_HI).toNat * 2 ^ 32 + (s.reg XLT_POOL_LO).toNat / 4096 * 4096
def State.poolPages (s : State) : Nat := s.fld XLT_POOL_SIZE 23 0
def State.xltOn (s : State) : Bool := s.bit XLT_CTL 0
def State.rootAddr (s : State) (ctx : Nat) : Nat := s.poolBase + 8 * ctx
def State.poolFree (s : State) : Nat := s.poolPages - 2 - s.xlt.alloc.length

/-! ### The walk (R520) -/

/-- Why a translation fails: the cause of R528 and the page code of the range. -/
structure XltFail where
  cause : Nat
  page  : Nat
  deriving DecidableEq, Repr

/-- An entry read at its home: a poisoned one counts as invalid and is reported (R520). -/
def State.readEntry (s : State) (unit dpa : Nat) : State × Nat :=
  let r := s.ncRead false dpa 8
  if anyPoison r.2 then ((r.1.setBit XLT_ERR 3 true).report K_XLT_POISON 9 unit dpa, 0)
  else (r.1, leNat (bytesOf r.2))

/-- The walk from the table at `tbl` down from `level` (fuel: the level plus 1). -/
def State.walkFrom (s : State) (unit va tbl : Nat) : Nat → State × (Nat × Nat ⊕ XltFail)
  | 0 => (s, .inr { cause := 0, page := 0 })
  | level + 1 =>
    let a := tbl + 8 * vaIndex va level
    let c := s.actCheck (tgtHdm a) MID_WALKER NEED_R a
    if !c.2 then (c.1, .inr { cause := 3, page := level })
    else
      let r := c.1.readEntry unit a
      let e := r.2
      if !entV e then (r.1, .inr { cause := 0, page := level })
      else if entT e && decide (0 < level) then r.1.walkFrom unit va (entPa e) level
      else if level ≤ 2 then (r.1, .inl (e, level))
      else (r.1, .inr { cause := 0, page := level })

/-- A whole walk of a context's VA: the leaf and its level, or the failure. -/
def State.walk (s : State) (unit ctx va : Nat) : State × (Nat × Nat ⊕ XltFail) :=
  let a := s.rootAddr ctx
  let c := s.actCheck (tgtHdm a) MID_WALKER NEED_R a
  if !c.2 then (c.1, .inr { cause := 3, page := 5 })
  else
    let r := c.1.readEntry unit a
    if !entV r.2 then (r.1, .inr { cause := 0, page := 5 }) else r.1.walkFrom unit va (entPa r.2) 5

/-- Whether a cached leaf serves a VA. -/
def TlbEntry.serves (t : TlbEntry) (unit ctx va : Nat) : Bool :=
  t.unit == unit && t.ctx == ctx && t.va == va / pageSize t.level * pageSize t.level

/-- Entries that a TLB unit holds (R526). -/
def tlbSize (unit : Nat) : Nat := if unit < 16 then 4096 else 128

/-- Fills a TLB entry, the oldest leaving a full unit; the injection spoils it (R541). -/
def State.tlbFill (s : State) (unit ctx va level entry : Nat) : State :=
  let inj := s.bit XLT_INJ 0
  let s := if inj then s.setBit XLT_INJ 0 false else s
  let t : TlbEntry := { unit := unit, ctx := ctx, va := va / pageSize level * pageSize level, level := level,
                        entry := entry, bad := inj }
  let mine := s.xlt.tlb.filter fun x => x.unit == unit
  let keep := if mine.length < tlbSize unit then s.xlt.tlb
    else match mine with
      | [] => s.xlt.tlb
      | o :: _ => s.xlt.tlb.filter (· ≠ o)
  { s with xlt := { s.xlt with tlb := keep ++ [t] } }

/-- The translation of a VA: from the unit's TLB, or by a walk that fills it. -/
def State.lookup (s : State) (unit ctx va : Nat) : State × (Nat × Nat ⊕ XltFail) :=
  if !s.xltOn then (s, .inr { cause := 0, page := 5 })
  else
    let hit := s.xlt.tlb.find? fun t => t.serves unit ctx va
    let s := match hit with
      | some t =>
        if t.bad then
          ({ s with xlt := { s.xlt with tlb := s.xlt.tlb.filter (· ≠ t) } }.setBit XLT_ERR 4 true).report
            K_XLT_PARITY 9 unit va
        else s
      | none => s
    match hit with
    | some t => if t.bad then
        match s.walk unit ctx va with
        | (s, .inl (e, l)) => (s.tlbFill unit ctx va l e, .inl (e, l))
        | r => r
      else (s, .inl (t.entry, t.level))
    | none =>
      match s.walk unit ctx va with
      | (s, .inl (e, l)) => (s.tlbFill unit ctx va l e, .inl (e, l))
      | r => r

/-! ### Extents -/

/-- A failing range of an extent: the address reached, the range's start, and the record of R528. -/
structure XFail where
  va    : Nat
  start : Nat
  cause : Nat
  page  : Nat
  need  : Nat
  /-- the refused DPA and target of an access-table check of the data -/
  act   : Option (Nat × Nat) := none
  /-- the first unbacked DPA -/
  pa    : Nat := 0
  deriving DecidableEq, Repr

/-- The failing range of a walk that found no leaf: all that the failing entry would cover. -/
def walkFail (va need : Nat) (e : XltFail) : XFail :=
  let size := pageSize e.page
  { va := va, start := if e.page = 5 then 0 else va / size * size, cause := e.cause, page := e.page, need := need }

/-- Checks one leaf's part of an extent (R207, R328, R518). -/
def State.checkLeaf (s : State) (master need va n entry level : Nat) (write : Bool) : Option XFail :=
  let size := pageSize level
  let start := va / size * size
  let pa := entPa entry + (va - start)
  let f (c : Nat) : XFail := { va := va, start := start, cause := c, page := level, need := need }
  if entRights entry &&& need ≠ need then some (f 1)
  else if entHost entry then none
  else if s.anyUnbacked && (if write then s.unbackedWrite pa n else s.unbackedRead pa n) then
    some { f 2 with pa := (((framesOf pa n).find? fun k => s.frameUse (4096 * k) ≠ .normal).map fun k =>
      max pa (4096 * k)).getD pa }
  else
    match s.hdmRefusal master need pa n with
    | some (t, a) => some { f 3 with act := some (t, a) }
    | none => none

/-- Translates an extent page by page (fuel: pages that it can touch): its pieces, and every failing
range. -/
def State.xlate (s : State) (unit ctx master need : Nat) (write : Bool) :
    Nat → Nat → Nat → State × List XSeg × List XFail
  | 0, _, _ => (s, [], [])
  | fuel + 1, va, n =>
    if n = 0 then (s, [], [])
    else
      match s.lookup unit ctx va with
      | (s, .inr e) =>
        let f := walkFail va need e
        let stop := min (va + n) (f.start + pageSize e.page)
        let r := s.xlate unit ctx master need write fuel stop (va + n - stop)
        (r.1, r.2.1, f :: r.2.2)
      | (s, .inl (e, l)) =>
        let size := pageSize l
        let start := va / size * size
        let len := min n (start + size - va)
        let r := s.xlate unit ctx master need write fuel (va + len) (n - len)
        match s.checkLeaf master need va len e l write with
        | some f => (r.1, r.2.1, f :: r.2.2)
        | none =>
          (r.1, { va := va, pa := entPa e + (va - start), len := len, host := entHost e, attr := entAttr e,
                  peer := entPeer e, ce := entCe e } :: r.2.1, r.2.2)

/-- Translates an extent of `n` bytes at `va`. -/
def State.xlateExtent (s : State) (unit ctx master need : Nat) (write : Bool) (va n : Nat) :
    State × List XSeg × List XFail :=
  s.xlate unit ctx master need write (n / 4096 + 2) va n

/-! ### The fault-batch ring (R528 to R533) -/

/-- Bytes of a fault-ring entry (R530). -/
def xltBytes (r : XltRec) (phase : Bool) : List Byte :=
  toLe 8 r.va ++ toLe 8 r.pound ++ toLe 4 r.off ++ toLe 4 r.engines ++ toLe 2 r.ctx ++
  toLe 1 (r.cause + 4 * r.needed) ++ toLe 1 r.page ++ toLe 1 r.slot ++ toLe 1 (bnat phase) ++
  toLe 2 (min r.count 0xFFFF)

/-- A ring of the XLT block: the base register's offset, its consumer word and its slots. -/
structure XltRing where
  lo : Nat
  cw : Nat
  deriving DecidableEq, Repr

def frRing : XltRing := { lo := XLT_FR_LO, cw := XLT_FR_CW_LO }
def hrRing : XltRing := { lo := XLT_HR_LO, cw := XLT_HR_CW_LO }

def State.xrLog2n (s : State) (r : XltRing) : Nat := s.fld r.lo 8 4
def State.xrBase (s : State) (r : XltRing) : Nat := (s.reg (r.lo + 4)).toNat * 2 ^ 32 + 4096 * s.fld r.lo 31 12
def State.xrCw (s : State) (r : XltRing) : Nat := (s.reg (r.cw + 4)).toNat * 2 ^ 32 + 8 * s.fld r.cw 31 3

/-- Whether a ring has room for record `n` by its consumer word (R489). -/
def State.xrRoom (s : State) (r : XltRing) (n : Nat) : Bool :=
  let consumed := leNat (bytesOf (s.latest true (s.xrCw r) 8)) % 2 ^ 32
  decide ((n + 2 ^ 32 - consumed) % 2 ^ 32 < 2 ^ s.xrLog2n r)

/-- The merge of a record into the pending overflow entry (R532). -/
def overflowWith (o : Option XltRec) (r : XltRec) : XltRec :=
  match o with
  | none => { r with engines := r.engines ||| 2 ^ 31, slot := 0xFF }
  | some o => { o with engines := o.engines ||| r.engines, needed := o.needed ||| r.needed,
                       count := o.count + r.count }

/-- A range enters the posted-fault set while it holds fewer than 1,024 (R533). -/
def State.posted (s : State) (r : XltRec) : State :=
  if s.xlt.posted.length < 1024 then
    { s with xlt := { s.xlt with posted := s.xlt.posted ++ [(r.ctx, r.va, r.page)] } }
  else s

/-- Writes one entry of the fault ring, if it has room. -/
def State.writeFr (s : State) (r : XltRec) : Option State :=
  let n := s.xlt.frCount
  if !s.xrRoom frRing n then none
  else
    let slots := 2 ^ s.xrLog2n frRing
    let s := s.flagStore (!s.bit XLT_FR_LO 0) (s.xrBase frRing + 32 * (n % slots))
      (xltBytes r (n / slots % 2 == 0))
    some { s with xlt := { s.xlt with frCount := (n + 1) % 2 ^ 32 } }

/-- Posts the batch: the overflow entry first, then the entries in order; those with no room join the
overflow entry (R531, R532). -/
def State.postFaults (s : State) : State :=
  let n0 := s.xlt.frCount
  let s := match s.xlt.overflow with
    | none => s
    | some o =>
      match s.writeFr o with
      | some s => { s with xlt := { s.xlt with overflow := none } }
      | none => s
  let s := s.xlt.batch.foldl (fun s r =>
    let keep (s : State) : State :=
      { s with xlt := { s.xlt with overflow := some (overflowWith s.xlt.overflow r) } }.setBit XLT_ERR 1 true
    if s.xlt.overflow.isSome then keep s
    else
      match s.writeFr r with
      | some s => s.posted r
      | none => keep s) s
  let s := { s with xlt := { s.xlt with batch := [] } }
  if s.xlt.frCount = n0 then s else s.irq 3

/-- Whether two records become one entry (R529). -/
def sameRange (a b : XltRec) : Bool :=
  a.ctx == b.ctx && a.va == b.va && a.page == b.page && a.cause == b.cause

/-- Records a failing range: ranges already posted are not recorded again (R533), records of one range
coalesce (R529), and a batch of 256 is posted at once. -/
def State.recordFail (s : State) (ctx engines slot : Nat) (f : XFail) : State :=
  if !s.xltOn then s
  else if s.xlt.posted.contains (ctx, f.start, f.page) then s
  else
    let r : XltRec := { va := f.start, pound := s.poundNow, off := s.offsetNow, engines := engines, ctx := ctx,
                        cause := f.cause, needed := f.need, page := f.page, slot := slot, count := 1 }
    if s.xlt.batch.any (sameRange r) then
      { s with xlt := { s.xlt with batch := s.xlt.batch.map fun b =>
          if (sameRange r b) then
            { b with engines := b.engines ||| engines, needed := b.needed ||| f.need, count := b.count + 1,
                     slot := if b.slot = slot then slot else 0xFF }
          else b } }
    else
      let s := { s with xlt := { s.xlt with batch := s.xlt.batch ++ [r] } }
      if 256 ≤ s.xlt.batch.length then s.postFaults else s

/-- A failing range as lock-in or a ring command reports it: its record, and the ACT_DENIED message of an
access-table check of the data (R208, R560). -/
def State.reportFail (s : State) (ctx master engines slot : Nat) (f : XFail) : State :=
  let s := match f.act with
    | some (t, a) => s.actDeny t master f.need a slot
    | none => s
  s.recordFail ctx engines slot f

/-- Ranges that overlap leave the posted-fault set (R533). -/
def State.unpost (s : State) (ctx va n : Nat) : State :=
  { s with xlt := { s.xlt with posted := s.xlt.posted.filter fun p =>
      !(p.1 == ctx && decide (p.2.1 < va + n) && decide (va < p.2.1 + pageSize p.2.2)) } }

/-- Cached leaves of a range are discarded. -/
def State.flushTlb (s : State) (ctx va n : Nat) : State :=
  { s with xlt := { s.xlt with tlb := s.xlt.tlb.filter fun t =>
      !(t.ctx == ctx && decide (t.va < va + n) && decide (va < t.va + pageSize t.level)) } }

/-! ### Access counters and the hot-page ring (R535 to R537) -/

/-- Counts lines moved to or from one 64 KiB block. -/
def State.countBlock (s : State) (ctx block n : Nat) (wr : Bool) : State :=
  let old := s.xlt.counters.find? fun c => c.1 == ctx && c.2.1 == block
  let c0 := match old with
    | some c => c.2.2.1
    | none => 0
  let w := wr || (match old with
    | some c => c.2.2.2
    | none => false)
  let rest := s.xlt.counters.filter fun c => !(c.1 == ctx && c.2.1 == block)
  let th := max 1 (s.fld XLT_HOT 15 0)
  let total := c0 + n
  let hits := total / th
  let left := min (total % th) 0xFFFF
  let hot := List.replicate hits (ctx, block, s.poundNow, w)
  { s with xlt := { s.xlt with
      counters := ((ctx, block, left, if hits = 0 then w else false) :: rest).take 16384,
      hotQ := s.xlt.hotQ ++ hot } }

/-- Counts the lines of a piece of an extent whose leaf has CE = 1. -/
def State.countSeg (s : State) (ctx : Nat) (g : XSeg) (wr : Bool) : State :=
  if !g.ce || !s.bit XLT_HOT 31 || g.len = 0 then s
  else
    (List.range ((g.va + g.len - 1) / 65536 - g.va / 65536 + 1)).foldl (fun s i =>
      let b := g.va / 65536 + i
      let lo := max g.va (b * 65536)
      let hi := min (g.va + g.len) ((b + 1) * 65536)
      s.countBlock ctx b (linesOf lo (hi - lo)).length wr) s

/-- Bytes of a hot-page entry (R536). -/
def hotBytes (ctx block pound : Nat) (wrote phase : Bool) : List Byte :=
  toLe 8 (block * 65536) ++ toLe 4 (pound % 2 ^ 32) ++ toLe 2 (ctx + 32768 * bnat phase) ++
  toLe 1 (bnat wrote) ++ toLe 1 0

/-- Posts the queued hot-page entries; one that finds the ring full is discarded (R537). -/
def State.postHot (s : State) : State :=
  let n0 := s.xlt.hrCount
  let s := s.xlt.hotQ.foldl (fun s q =>
    let n := s.xlt.hrCount
    if !s.xrRoom hrRing n then s.setBit XLT_ERR 2 true
    else
      let slots := 2 ^ s.xrLog2n hrRing
      let s := s.flagStore (!s.bit XLT_HR_LO 0) (s.xrBase hrRing + 16 * (n % slots))
        (hotBytes q.1 q.2.1 q.2.2.1 q.2.2.2 (n / slots % 2 == 0))
      { s with xlt := { s.xlt with hrCount := (n + 1) % 2 ^ 32 } }) s
  let s := { s with xlt := { s.xlt with hotQ := [] } }
  if s.xlt.hrCount = n0 then s else s.irq 4

/-! ### Table writes (R518, R521, R523) -/

/-- What stops a table command: a status code with its result and detail. -/
structure XltStop where
  status : Nat
  detail : Nat := 0
  result : Nat := 0
  deriving DecidableEq, Repr

/-- A table entry written at its home, after the access-table check. -/
def State.writeEntry (s : State) (a e : Nat) : State ⊕ Nat :=
  if s.actPass (tgtHdm a) MID_WALKER NEED_W then
    .inl (s.ncWrite false a 0 ((toLe 8 e).map fun b => (b, false)) none)
  else .inr a

/-- The lowest free pool page. -/
def State.freePage (s : State) : Option Nat :=
  if s.poolFree = 0 then none
  else ((List.range (s.xlt.alloc.length + 1)).map (· + 2)).find? fun i => !s.xlt.alloc.contains i

/-- The DPA of a pool page. -/
def State.poolAddr (s : State) (i : Nat) : Nat := s.poolBase + 4096 * i

/-- A pool page returns to the pool. -/
def State.returnPage (s : State) (dpa : Nat) : State :=
  { s with xlt := { s.xlt with alloc := s.xlt.alloc.filter (· ≠ (dpa - s.poolBase) / 4096) } }

/-- Takes a page from the pool as an empty table. -/
def State.takePage (s : State) (va : Nat) : (State × Nat) ⊕ XltStop :=
  match s.freePage with
  | none => .inr { status := 0x0004, result := va }
  | some i =>
    let a := s.poolAddr i
    if !s.actPass (tgtHdm a) MID_WALKER NEED_W then .inr { status := ST_ACCESS_DENIED, result := a }
    else
      let s := s.ncWrite false a 0 (List.replicate 4096 (0, false)) none
      .inl ({ s with xlt := { s.xlt with alloc := s.xlt.alloc ++ [i] } }, a)

/-- Whether every entry of a table is invalid, by its entries as they stand. -/
def State.tableEmpty (s : State) (tbl : Nat) : Bool :=
  (List.range 512).all fun i => !entV (leNat (bytesOf (s.latest false (tbl + 8 * i) 8)))

/-- Writes one leaf at a level, taking the tables that are missing (fuel: levels left). -/
def State.mapAt (s : State) (unit va leaf target tbl : Nat) : Nat → State ⊕ XltStop
  | 0 => .inr { status := 0x0001 }
  | level + 1 =>
    let a := tbl + 8 * vaIndex va level
    let r := s.readEntry unit a
    let e := r.2
    let put (s : State) (v : Nat) : State ⊕ XltStop :=
      match s.writeEntry a v with
      | .inl s => .inl s
      | .inr x => .inr { status := ST_ACCESS_DENIED, result := x }
    if level = target then
      if entV e && entT e && decide (0 < level) then
        if r.1.tableEmpty (entPa e) then put (r.1.returnPage (entPa e)) leaf else .inr { status := 0x0001 }
      else put r.1 leaf
    else if entV e && entT e then r.1.mapAt unit va leaf target (entPa e) level
    else if entV e then .inr { status := 0x0001 }
    else
      match r.1.takePage va with
      | .inr x => .inr x
      | .inl (s, p) =>
        match put s (p + 0x201) with
        | .inr x => .inr x
        | .inl s => s.mapAt unit va leaf target p level

/-- The root table of a context, taken from the pool at its first mapping. -/
def State.rootTable (s : State) (unit ctx va : Nat) : (State × Nat) ⊕ XltStop :=
  let r := s.readEntry unit (s.rootAddr ctx)
  if entV r.2 then .inl (r.1, entPa r.2)
  else
    match r.1.takePage va with
    | .inr x => .inr x
    | .inl (s, p) =>
      match s.writeEntry (s.rootAddr ctx) (p + 0x201) with
      | .inl s => .inl (s, p)
      | .inr x => .inr { status := ST_ACCESS_DENIED, result := x }

/-- A frame's bias is written; a frame on its way to DEV keeps SHR while the host holds lines of it, which are
snooped (R378). -/
def State.biasFrame (s : State) (f : Nat) (shr : Bool) : State :=
  if shr then s.setShr f true
  else
    match s.hostHeld fun a => a / 4096 == f with
    | [] => s.setShr f false
    | las => las.foldl (fun s la => s.snoopHost la true) s

/-- Whether a table of a context lets a leaf of size `target` stand at a VA (R521, R523): no valid leaf of another
size covers it, and no valid entry stands below it (fuel: levels left). -/
def State.leafClear (s : State) (va target tbl : Nat) : Nat → Bool
  | 0 => false
  | level + 1 =>
    let e := leNat (bytesOf (s.latest false (tbl + 8 * vaIndex va level) 8))
    if !entV e then true
    else if level = target then !(entT e && decide (0 < level)) || s.tableEmpty (entPa e)
    else if entT e then s.leafClear va target (entPa e) level
    else false

/-- Whether every target of a table command is clear in that sense. -/
def State.rangeClear (s : State) (ctx page n va : Nat) : Bool :=
  let root := leNat (bytesOf (s.latest false (s.rootAddr ctx) 8))
  !entV root || (List.range n).all fun i => s.leafClear (va + i * pageSize page) page (entPa root) 5

/-- Writes `n` consecutive leaves (R521); a stop leaves the caller's state. -/
def State.mapLeaves (s : State) (unit ctx page first entry : Nat) : Nat → Nat → State ⊕ XltStop
  | 0, _ => .inl s
  | n + 1, va =>
    match s.rootTable unit ctx first with
    | .inr x => .inr { x with result := if x.status = 0x0004 then first else x.result }
    | .inl (s, root) =>
      match s.mapAt unit va entry page root 5 with
      | .inr x => .inr { x with result := if x.status = 0x0004 then first else x.result }
      | .inl s =>
        let s := if entHost entry then s else
          (framesOf (entPa entry) (pageSize page)).foldl (fun s f => s.biasFrame f (entShr entry)) s
        s.mapLeaves unit ctx page first (entry + pageSize page) n (va + pageSize page)

/-- Makes one leaf invalid; a table left with no valid entry returns to the pool, its entry becoming
invalid (fuel: levels left). The Bool says whether the table is now empty. -/
def State.unmapAt (s : State) (unit va target tbl : Nat) : Nat → (State × Bool) ⊕ XltStop
  | 0 => .inr { status := 0x0001 }
  | level + 1 =>
    let a := tbl + 8 * vaIndex va level
    let r := s.readEntry unit a
    let e := r.2
    let put (s : State) : (State × Bool) ⊕ XltStop :=
      match s.writeEntry a 0 with
      | .inl s =>
        let s := s.markRead false tbl 4096
        .inl (s, s.tableEmpty tbl)
      | .inr x => .inr { status := ST_ACCESS_DENIED, result := x }
    if !entV e then .inl (r.1, false)
    else if level = target then
      if entT e && decide (0 < level) then
        if r.1.tableEmpty (entPa e) then .inl (r.1, false) else .inr { status := 0x0001 }
      else put r.1
    else if !entT e then .inr { status := 0x0001 }
    else
      match r.1.unmapAt unit va target (entPa e) level with
      | .inr x => .inr x
      | .inl (s, false) => .inl (s, false)
      | .inl (s, true) => put (s.returnPage (entPa e))

/-- Makes `n` leaves invalid (R523). -/
def State.unmapLeaves (s : State) (unit ctx page : Nat) : Nat → Nat → State ⊕ XltStop
  | 0, _ => .inl s
  | n + 1, va =>
    let r := s.readEntry unit (s.rootAddr ctx)
    if !entV r.2 then r.1.unmapLeaves unit ctx page n (va + pageSize page)
    else
      match r.1.unmapAt unit va page (entPa r.2) 5 with
      | .inr x => .inr x
      | .inl (s, emptied) =>
        let s :=
          if emptied then
            match s.writeEntry (s.rootAddr ctx) 0 with
            | .inl s => s.returnPage (entPa r.2)
            | .inr _ => s
          else s
        s.unmapLeaves unit ctx page n (va + pageSize page)

/-- The tables under a table, by levels left (R525). -/
def State.tablesUnder (s : State) (tbl : Nat) : Nat → List Nat
  | 0 => [tbl]
  | level + 1 =>
    tbl :: (List.range 512).flatMap fun i =>
      let e := leNat (bytesOf (s.latest false (tbl + 8 * i) 8))
      if entV e && entT e then s.tablesUnder (entPa e) level else []

/-- Every translation of a context goes: its tables return to the pool, its root pointer becomes invalid,
its cached leaves and posted ranges are discarded (R525). -/
def State.dropContextXlt (s : State) (ctx : Nat) : State :=
  let e := leNat (bytesOf (s.latest false (s.rootAddr ctx) 8))
  let s :=
    if s.xltOn && entV e then
      let s := (s.tablesUnder (entPa e) 4).foldl (fun s t => (s.markRead false t 4096).returnPage t) s
      s.ncWrite false (s.rootAddr ctx) 0 (List.replicate 8 (0, false)) none
    else s
  { s with xlt := { s.xlt with tlb := s.xlt.tlb.filter fun t => t.ctx ≠ ctx,
                               posted := s.xlt.posted.filter fun p => p.1 ≠ ctx } }

/-- Whether a leaf entry of MAP_RANGE meets R517 and R518 for `n` pages. -/
def State.entryOk (s : State) (page n entry : Nat) : Bool :=
  let pa := entPa entry
  let r := entRights entry
  decide (entry / 2 ^ 52 = 0) && !bitOf entry 11 && entV entry && !entT entry &&
  decide (pa % pageSize page = 0) &&
  (!bitOf r 1 || bitOf r 0) && (!bitOf r 2 || (bitOf r 0 && bitOf r 1)) &&
  (!entHost entry || (!entShr entry && !bitOf r 2)) &&
  (!entCe entry || entHost entry) &&
  (!entPeer entry || (entHost entry && entAttr entry == 3)) &&
  (entHost entry ||
    (decide (pa + n * pageSize page ≤ s.range1) &&
     (decide (pa + n * pageSize page ≤ s.poolBase) || decide (s.poolBase + 4096 * s.poolPages ≤ pa))))

end Sys2Proof.Machine
end

