-- ==== Sys2Proof/Machine/Barge.lean ====
section
/-! DEFINITION. Barges and global accesses as data movements: endpoints (R180 to R182), shapes (R186 to
R192), conversion (R195, R196), atomics (R381, R382), prefetch (R385) and landings (R200, R421). -/

namespace Sys2Proof.Machine

/-! ### Prefetch (R385) -/

/-- Largest distance of a prefetch: CMX_PF.DIST_MAX, at least 2 (R407). -/
def State.pfMax (s : State) : Nat := max 2 (s.fld CMX_PF 11 8)

/-- A miss of a stream at a detector: the detector's new state, and the lines to prefetch. -/
def strideMiss (d : Option Stride) (basin : Bool) (idx stream la : Nat) : Stride × List Nat :=
  match d with
  | none => ({ basin := basin, idx := idx, stream := stream, last := la, stride := 0, count := 0, dist := 2 }, [])
  | some d =>
    let st : Int := (la : Int) - d.last
    let n := if d.count ≠ 0 ∧ st = d.stride then d.count + 1 else 1
    let d' := { d with last := la, stride := st, count := n, dist := if n = 1 then 2 else d.dist }
    let ok := decide (2 ≤ n) && decide (64 ≤ st.natAbs ∧ st.natAbs ≤ 16384)
    let lines := if ok then
        ((List.range d.dist).map fun (i : Nat) => lineOf ((la : Int) + st * ((i : Int) + 1)).toNat).filter fun a =>
          a / 4096 == la / 4096
      else []
    (d', lines)

/-- Prefetch pauses while the memory limit is engaged (R572). -/
def State.pfLines (s : State) (l : List Nat) : List Nat := if s.power.limits.contains .memory then [] else l

/-- Puts a detector first; the least recent one makes room. -/
def State.putStride (s : State) (d : Stride) : State :=
  let rest := s.basin.strides.filter fun x => !(x.basin == d.basin && x.idx == d.idx && x.stream == d.stream)
  let mine := rest.filter fun x => x.basin == d.basin && x.idx == d.idx
  let keep := if mine.length < (if d.basin then 128 else 64) then rest
    else match mine.getLast? with
      | some o => rest.filter (· ≠ o)
      | none => rest
  { s with basin := { s.basin with strides := d :: keep } }

/-- The detector of a stream. -/
def State.strideOf (s : State) (basin : Bool) (idx stream : Nat) : Option Stride :=
  s.basin.strides.find? fun d => d.basin == basin && d.idx == idx && d.stream == stream

/-- Whether the host holds a line by bit 44: a prefetch leaves it alone, since its home would have to ask the host. -/
def State.hostHas (s : State) (host : Bool) (la : Nat) : Bool :=
  match s.basinLine host la with
  | some l => l.presence.contains 44
  | none => false

/-- A miss of a reach cache's stream, with the prefetches that it starts: shared reads inserted old. -/
def State.reachMiss (s : State) (p stream : Nat) (host : Bool) (la : Nat) : State :=
  if !s.bit CMX_PF 0 then s
  else
    let r := strideMiss (s.strideOf false p stream) false p stream la
    (s.pfLines r.2).foldl (fun s a =>
      if (s.copyOf p host a).isSome || s.hostHas host a then s
      else
        let s := (s.sharedRead p host a 2).1
        match s.copyOf p host a with
        | some c => s.putCopy { c with pf := true }
        | none => s) (s.putStride r.1)

/-- A miss of a slice's stream, with its prefetches. -/
def State.sliceMiss (s : State) (stream : Nat) (host : Bool) (la : Nat) : State :=
  if !s.bit CMX_PF 1 then s
  else
    let p := s.slice host la
    let r := strideMiss (s.strideOf true p stream) true p stream la
    (s.pfLines r.2).foldl (fun s a =>
      if (s.basinLine host a).isSome then s
      else
        let s := s.fillLine host a 3
        match s.basinLine host a with
        | some l => s.putLine { l with pf := true }
        | none => s) (s.putStride r.1)

/-- A prefetched line is used: the distance of its stream rises by 1. -/
def State.pfUsed (s : State) (basin : Bool) (idx stream : Nat) : State :=
  match s.strideOf basin idx stream with
  | some d => s.putStride { d with dist := min s.pfMax (d.dist + 1) }
  | none => s

/-- A tile's scalar read of a line through its reach cache, with its stride detector. -/
def State.reachRead (s : State) (p stream : Nat) (host : Bool) (la attr : Nat) : State × LineData :=
  let old := s.copyOf p host la
  let s := match old with
    | some c => if c.pf then (s.putCopy { c with pf := false }).pfUsed false p stream else s
    | none => s
  let r := s.agentRead p host la attr
  if old.isSome then r else (r.1.reachMiss p stream host la, r.2)

/-! ### Atomics (R381, R382) -/

/-- The number that an integer atomic stores (R171, R381): 0 add, 1 signed min, 2 signed max, 3 swap, 4 and,
5 or, 6 xor, 7 compare-and-swap, 9 unsigned min, 10 unsigned max. -/
def atomicNew (fn bits old operand compare : Nat) : Nat :=
  let m := 2 ^ bits
  match fn with
  | 0 => (old + operand) % m
  | 1 => if signedOf old bits ≤ signedOf operand bits then old else operand
  | 2 => if signedOf operand bits ≤ signedOf old bits then old else operand
  | 3 => operand % m
  | 4 => old &&& (operand % m)
  | 5 => old ||| (operand % m)
  | 6 => old ^^^ (operand % m)
  | 7 => if old = compare % m then operand % m else old
  | 9 => min old (operand % m)
  | 10 => max old (operand % m)
  | _ => old

/-- An atomic at the home slice, on a line that no other cache holds any more. -/
def State.sliceRmw (s : State) (a n attr : Nat) (f : PBytes → PBytes) : State × PBytes :=
  let la := lineOf a
  let old : PBytes := match s.basinLine false la with
    | some l => (partAt la l.data a n).2.map fun b => (b, badMark (sget 0 l.marks ((a - la) / 8)))
    | none => s.latest false a n
  let new := f old
  let p := anyPoison new
  let s := match s.basinLine false la with
    | some _ => s.bsnWrite false la (a - la) (bytesOf new) p (attr ≠ 1)
    | none => s
  if attr = 1 ∨ (s.basinLine false la).isNone then
    (s.stkWriteLine a (bytesOf new) (if p then wordMask a n else 0), old)
  else (s, old)

/-- An atomic at the stack controller, on a line that no cache holds any more. -/
def State.stkRmw (s : State) (a n : Nat) (f : PBytes → PBytes) : State × PBytes :=
  let la := lineOf a
  let r := s.stkReadLine la
  let old : PBytes := (partAt la r.2.data a n).2.map fun b => (b, bitOf r.2.poison ((a - la) / 8))
  let new := f old
  (r.1.stkWriteLine a (bytesOf new) (if anyPoison new then wordMask a n else 0), old)

/-- Reads, changes and writes `n` bytes of HDM at the place of R382: at the home slice for WB and WT pages,
at the stack controller for NA and UC pages. -/
def State.hdmRmw (s : State) (a n attr : Nat) (f : PBytes → PBytes) : State × PBytes :=
  let la := lineOf a
  if attr ≤ 1 then (((s.fillLine false la 1).purge false la none).basinCheck false la).sliceRmw a n attr f
  else (((s.cleanLine false la).purge false la none).discardLine false la).stkRmw a n f

/-- Reads, changes and writes bytes of moored memory at its slice. -/
def State.mooredRmw (s : State) (o n : Nat) (f : PBytes → PBytes) : State × PBytes :=
  let old : PBytes := (s.basin.moored.read o n).map fun b => (b, s.basin.moored.poisoned o n)
  let new := f old
  ({ s with basin := { s.basin with moored := s.basin.moored.store o (bytesOf new) (anyPoison new) } }, old)

/-- The change that an integer atomic makes to its bytes: a poisoned operand or old value makes the result
poisoned. -/
def atomicBytes (fn size operand compare : Nat) (poison : Bool) (old : PBytes) : PBytes :=
  let p := poison || anyPoison old
  (toLe size (atomicNew fn (8 * size) (leNat (bytesOf old)) operand compare)).map fun b => (b, p)

/-- The change of a grid-exact add (R192): the source value imported, added under R106 and stored under
R116. -/
def gridAddBytes (w : Nat) (v : GVal) (poison : Bool) (old : PBytes) : PBytes :=
  let p := poison || anyPoison old
  let sum := gridSum [decodeGrid w (leNat (bytesOf old)), v]
  let bits := if w = 64 then (exportElem .g64 0 sum).1 else encodeGrid 128 sum
  (toLe (w / 8) bits).map fun b => (b, p)

/-! ### Endpoints -/

/-- A barge's read of one cached line: its own reach's cache serves a line that it holds, and the home gives any other;
a barge fills no reach cache (R86, R371). -/
def State.bargeReadLine (s : State) (p : Nat) (host : Bool) (la : Nat) : State × LineData :=
  let s := s.copyCheck p host la
  if (s.copyOf p host la).isSome then s.agentRead p host la 0 else s.ncReadLine host la

/-- A barge's read of a page, from physical reach `p`. -/
def State.bargeRead (s : State) (p : Nat) (host : Bool) (attr a n : Nat) : State × PBytes :=
  if s.isUc host attr then s.ucRead host a n
  else
    (linesOf a n).foldl (fun r la =>
      let x := r.1.bargeReadLine p host la
      (x.1, r.2 ++ x.2.part la a n)) (s, [])

/-- The context of a flight. -/
def State.flightCtx (s : State) (k : Nat) : Nat := (s.flight k).ctx

/-- The pieces of a VIRTUAL extent by the leaves of lock-in, or by the tables where lock-in left none
(fuel: pages). -/
def State.segsFrom (s : State) (unit k : Nat) : Nat → Nat → Nat → State × List XSeg
  | 0, _, _ => (s, [])
  | fuel + 1, va, n =>
    if n = 0 then (s, [])
    else
      let hit := (s.flight k).curXlt.find? fun e => va / pageSize e.2.1 * pageSize e.2.1 == e.1
      let r : State × Option (Nat × Nat) := match hit with
        | some e => (s, some (e.2.2, e.2.1))
        | none =>
          match s.lookup unit (s.flightCtx k) va with
          | (s, .inl e) => (s, some e)
          | (s, .inr _) => (s, none)
      match r.2 with
      | none =>
        let stop := min (va + n) ((va / 4096 + 1) * 4096)
        r.1.segsFrom unit k fuel stop (va + n - stop)
      | some (e, l) =>
        let start := va / pageSize l * pageSize l
        let len := min n (start + pageSize l - va)
        let q := r.1.segsFrom unit k fuel (va + len) (n - len)
        (q.1, { va := va, pa := entPa e + (va - start), len := len, host := entHost e, attr := entAttr e,
                peer := entPeer e, ce := entCe e } :: q.2)

/-- The pieces of `n` bytes at a VA for tile `t`'s flight. -/
def State.segs (s : State) (t va n : Nat) : State × List XSeg :=
  match (s.tile t).flight with
  | some (k, _) => s.segsFrom (t / 17) k (n / 4096 + 2) va n
  | none => (s, [])

/-- The physical tile of a HOLD endpoint. -/
def State.holdOf (s : State) (t kind addr : Nat) : Option Nat :=
  if kind = 1 then some t else s.physTile (bitsOf addr 39 32)

/-- Hold bytes read by a barge engine, with the reports of the words read (R84). -/
def State.holdRead (s : State) (p a n : Nat) : State × PBytes :=
  let x := s.tile p
  ((x.holdErrors a n).foldl (fun s r =>
      s.fault { msgOf r.1 1 p with addr := r.2, slot := (x.flight.map Prod.fst).getD 255 }) s,
   x.holdBytes a n)

/-- Hold bytes written by a barge engine; an armed injection is used here too (R625). -/
def State.holdWrite (s : State) (p a : Nat) (bs : PBytes) : State :=
  let x := s.tile p
  let y := x.putHold a bs
  (s.setTile p y).injUsed x y

/-- Reads `n` bytes of an endpoint. -/
def State.epRead (s : State) (t : Nat) (b : BargeInst) (kind addr n : Nat) : State × PBytes :=
  if kind = 1 ∨ kind = 2 then
    match s.holdOf t kind addr with
    | some p => s.holdRead p (addr % 2 ^ 24) n
    | none => (s, List.replicate n (0, true))
  else if kind = 3 then
    (s, (linesOf addr n).flatMap fun la =>
      let q := s.basin.moored.poisoned la 64
      (partAt la (s.basin.moored.read la 64) addr n).2.map fun x => (x, q))
  else if kind = 4 then
    let g := s.segs t addr n
    g.2.foldl (fun r g =>
      let s := r.1.countSeg (match (r.1.tile t).flight with
        | some (k, _) => r.1.flightCtx k
        | none => 0) g false
      let miss := !g.host && !s.isUc g.host g.attr && (s.basinLine g.host (lineOf g.pa)).isNone &&
        (s.copyOf (t / 17) g.host (lineOf g.pa)).isNone
      let s := if miss then s.sliceMiss (2 ^ 20 * (t + 1) + b.idx) g.host (lineOf g.pa) else s
      let x := if g.peer then s.ucRead true g.pa g.len else s.bargeRead (t / 17) g.host g.attr g.pa g.len
      (x.1, r.2 ++ x.2)) (g.1, [])
  else
    (s, (List.range n).map fun i => (sget 0 b.berthData (addr + i), sget false b.berthBad (addr + i)))

/-- Writes bytes to an endpoint. -/
def State.epWrite (s : State) (t kind addr : Nat) (bs : PBytes) : State :=
  if kind = 1 ∨ kind = 2 then
    match s.holdOf t kind addr with
    | some p => s.holdWrite p (addr % 2 ^ 24) bs
    | none => s
  else if kind = 3 then
    (lineParts addr bs).foldl (fun s p =>
      { s with basin := { s.basin with moored := s.basin.moored.store p.1 p.2.1 p.2.2 } }) s
  else if kind = 4 then
    let g := s.segs t addr bs.length
    (g.2.foldl (fun r g =>
      let s := r.countSeg (match (r.tile t).flight with
        | some (k, _) => r.flightCtx k
        | none => 0) g true
      let part := (bs.drop (g.va - addr)).take g.len
      if g.peer then s.ucWrite true g.pa part else s.pageWrite g.host g.attr g.pa part) g.1)
  else s

/-- The change of `n` bytes of an endpoint by a grid-exact add (R193). The spec does not say what becomes of an element of
a VIRTUAL page that is not naturally aligned and straddles a line or a page: the add takes the element at the place of its
first byte (DESIGN CHOICE: log entry 79). -/
def State.epRmw (s : State) (t kind addr n : Nat) (f : PBytes → PBytes) : State :=
  if kind = 1 ∨ kind = 2 then
    match s.holdOf t kind addr with
    | some p =>
      let r := s.holdRead p (addr % 2 ^ 24) n
      r.1.holdWrite p (addr % 2 ^ 24) (f r.2)
    | none => s
  else if kind = 3 then (s.mooredRmw addr n f).1
  else if kind = 4 then
    let g := s.segs t addr n
    match g.2 with
    | g1 :: _ => if g1.host then g.1 else (g.1.hdmRmw g1.pa n g1.attr f).1
    | [] => g.1
  else s

/-! ### Shapes (R186 to R190) -/

/-- An address moved by a signed offset. -/
def moveBy (a : Nat) (i : Int) : Nat := ((a : Int) + i).toNat

/-- The iterations of a shape in order: i3 outermost. -/
def iters (d : Desc) : List (Nat × Nat × Nat) :=
  (List.range d.c3).flatMap fun i3 => (List.range d.c2).flatMap fun i2 =>
    (List.range d.c1).map fun i1 => (i1, i2, i3)

/-- One record: where it comes from (none: a zero record), whether it is poisoned, where it goes, and its
place in iteration order. -/
structure Rec where
  src    : Option Nat
  poison : Bool
  dst    : Nat
  r      : Nat
  deriving DecidableEq, Repr

/-- The records of a COPY. -/
def copyRecs (d : Desc) : List Rec :=
  (iters d).zipIdx.map fun p =>
    let i := p.1
    { src := some (moveBy d.src (i.1 * d.ss1 + i.2.1 * d.ss2 + i.2.2 * d.ss3)), poison := false,
      dst := moveBy d.dst (i.1 * d.ds1 + i.2.1 * d.ds2 + i.2.2 * d.ds3), r := p.2 }

/-- What an index decides (R190): moved, absent (0xFFFF_FFFF), or out of range or poisoned. -/
inductive IdxFate where
  | moved | absent | bad
  deriving DecidableEq, Repr

/-- The fate of an index in a region of `n` records. -/
def idxFate (n : Nat) (ix : Nat × Bool) : IdxFate :=
  if ix.2 then .bad else if ix.1 < n then .moved else if ix.1 = 0xFFFFFFFF then .absent else .bad

/-- The indices of a gather or scatter: the list read at issue, or 0 to C1 - 1 (R192). -/
def Desc.indices (d : Desc) (index : List (Nat × Bool)) : List ((Nat × Bool) × Nat) :=
  (if d.op = 3 ∧ d.aux % 2 ^ 24 = 0xFFFFFF then (List.range d.c1).map fun i => (i, false) else index).zipIdx

/-- The records of a GATHER: absent and bad indices give zero records. -/
def gatherRecs (d : Desc) (index : List (Nat × Bool)) : List Rec :=
  (d.indices index).map fun p =>
    let dst := moveBy d.dst (p.2 * d.ds1)
    match idxFate d.region p.1 with
    | .moved => { src := some (moveBy d.src (p.1.1 * d.ss1)), poison := false, dst := dst, r := p.2 }
    | .absent => { src := none, poison := false, dst := dst, r := p.2 }
    | .bad => { src := none, poison := true, dst := dst, r := p.2 }

/-- The records of a SCATTER or SCATTER_ADD: only indices in the region move. -/
def scatterRecs (d : Desc) (index : List (Nat × Bool)) : List Rec :=
  (d.indices index).filterMap fun p =>
    match idxFate d.region p.1 with
    | .moved => some { src := some (moveBy d.src (p.2 * d.ss1)), poison := false,
                       dst := moveBy d.dst (p.1.1 * d.ds1), r := p.2 }
    | _ => none

/-- The bad indices of a gather or scatter, each a BARGE_INDEX message. -/
def badIndices (d : Desc) (index : List (Nat × Bool)) : Nat :=
  if d.op = 1 ∨ d.op = 2 ∨ d.op = 3 then
    ((d.indices index).filter fun p => idxFate d.region p.1 == .bad).length
  else 0

/-! ### Conversion (R195, R196) -/

/-- Bits of a source element. -/
def Desc.srcBits (d : Desc) : Nat := fmtBits d.cvtFrom
def Desc.dstBits (d : Desc) : Nat := fmtBits d.cvtTo

/-- Source bytes decoded, with their scales. -/
def cvtIn (d : Desc) (bs scales : PBytes) : List PNum :=
  match fmtElem d.cvtFrom with
  | none => []
  | some el =>
    (pelems el.bits (bs.length * 8 / el.bits) bs).zipIdx.map fun p =>
      let sc := if fmtBlock d.cvtFrom then scales.getD (p.2 / blockSize d.bs16) (127, false) else (127, false)
      (applyScale sc.1.toNat (decodeElem el p.1.1), p.1.2 || sc.2)

/-- Elements encoded in the target format: bytes and scale bytes. -/
def cvtOut (d : Desc) (vs : List PNum) : PBytes × PBytes :=
  match fmtElem d.cvtTo with
  | none => ([], [])
  | some el =>
    if fmtMx d.cvtTo then
      let blocks := (chunks (blockSize d.bs16) vs.length vs).map fun b =>
        (mxBlock el (b.map Prod.fst), b.map Prod.snd)
      (packPoison el.bits (blocks.flatMap fun b => b.1.2.zip b.2),
       blocks.map fun b => (BitVec.ofNat 8 b.1.1, b.2.any id))
    else (packPoison el.bits (vs.map fun v => ((encodeElem el v.1).1, v.2)), [])

/-- Blocks of a run of `n` elements. -/
def Desc.blocks (d : Desc) (n : Nat) : Nat := n / blockSize d.bs16

/-- The signed byte offset AUX of a scale array. A converting GATHER or SCATTER with a block-format side has one AUX for
two uses, and it is both its index list's address and this offset (DESIGN CHOICE: log entry 79). -/
def Desc.scaleAt (d : Desc) (side : Nat) : Nat := moveBy side (signedOf d.aux 32)

/-- A record's source as read: bytes, and for a block format its scales. -/
def State.readRec (s : State) (t : Nat) (b : BargeInst) (d : Desc) (q : Rec) : State × PBytes × PBytes :=
  match q.src with
  | none =>
    (s, List.replicate d.l0 (0, q.poison), List.replicate (d.blocks (d.l0 * 8 / max 1 d.srcBits)) (127, false))
  | some a =>
    let r := s.epRead t b d.srcKind a d.l0
    if d.cvt && fmtBlock d.cvtFrom then
      let n := d.blocks (d.l0 * 8 / d.srcBits)
      let c := r.1.epRead t b d.srcKind (d.scaleAt d.src + q.r * n) n
      (c.1, r.2, c.2)
    else (r.1, r.2, [])

/-- What a barge writes: destination address and bytes, in order. -/
abbrev Writes := List (Nat × PBytes)

/-- One converted run: its bytes at `dst`, and its scales at run `r`'s place in the scale array. -/
def outRun (d : Desc) (dst r : Nat) (vs : List PNum) : Writes :=
  let o := cvtOut d vs
  if fmtMx d.cvtTo then [(dst, o.1), (d.scaleAt d.dst + r * o.2.length, o.2)] else [(dst, o.1)]

/-- The writes of a record. -/
def recWrites (d : Desc) (q : Rec) (bs scales : PBytes) : Writes :=
  if d.cvt then outRun d q.dst q.r (cvtIn d bs scales) else [(q.dst, bs)]

/-- Reads every record and gathers the writes. -/
def State.recsWrites (s : State) (t : Nat) (b : BargeInst) (d : Desc) (l : List Rec) : State × Writes :=
  l.foldl (fun r q =>
    let x := r.1.readRec t b d q
    (x.1, r.2 ++ recWrites d q x.2.1 x.2.2)) (s, [])

/-- Column `j` of rows. -/
def column {α : Type} (dflt : α) (rows : List (List α)) (j : Nat) : List α := rows.map fun r => r.getD j dflt

/-- The writes of a TRANSPOSE (R188): each matrix's columns become destination rows. -/
def State.transposeWrites (s : State) (t : Nat) (b : BargeInst) (d : Desc) : State × Writes :=
  let e := 2 ^ d.esz
  let mats := (List.range d.c3).flatMap fun i3 => (List.range d.c2).map fun i2 => (i2, i3)
  mats.zipIdx.foldl (fun acc m =>
    let i2 : Nat := m.1.1
    let i3 : Nat := m.1.2
    let rows := (List.range d.c1).foldl (fun r (i1 : Nat) =>
      let q : Rec := { src := some (moveBy d.src (i1 * d.ss1 + i2 * d.ss2 + i3 * d.ss3)), poison := false,
                       dst := 0, r := m.2 * d.c1 + i1 }
      let x := r.1.readRec t b d q
      (x.1, r.2 ++ [x.2])) (acc.1, [])
    let n := d.l0 / e
    let base := moveBy d.dst (i2 * d.ds2 + i3 * d.ds3)
    let w : Writes := (List.range n).flatMap fun (j : Nat) =>
      let dst := moveBy base (j * d.ds1)
      if d.cvt then
        outRun d dst (m.2 * n + j) (column (.fin false 0 0, false) (rows.2.map fun x => cvtIn d x.1 x.2) j)
      else [(dst, rows.2.flatMap fun x => (x.1.drop (j * e)).take e)]
    (rows.1, acc.2 ++ w)) (s, [])

/-- The writes of every operation but SCATTER_ADD. -/
def State.bargeWrites (s : State) (t : Nat) (b : BargeInst) (d : Desc) : State × Writes :=
  match d.op with
  | 0 => s.recsWrites t b d (copyRecs d)
  | 1 => s.recsWrites t b d (gatherRecs d b.index)
  | 2 => s.recsWrites t b d (scatterRecs d b.index)
  | 4 => s.transposeWrites t b d
  | _ => (s, [])

/-! ### SCATTER_ADD (R192) -/

/-- A source element of a SCATTER_ADD, of format `fm` and `sb` bytes, on the destination grid (R192). -/
def termValue (fm sb : Nat) (gs gd : Int) (raw : Nat) : GVal :=
  if fm = 13 ∨ fm = 14 then gridImport gs gd (decodeGrid (8 * sb) raw)
  else
    match fmtElem fm with
    | some el => roundGrid gd (decodeElem el raw)
    | none => .fin 0

/-- The elements that a SCATTER_ADD adds: destination address, imported value, poison. -/
def State.addTerms (s : State) (t : Nat) (b : BargeInst) (d : Desc) : State × List (Nat × GVal × Bool) :=
  let gs : Int := signedOf ((d.ds2 % (2 ^ 16 : Int)).toNat) 16
  let gd : Int := signedOf (((d.ds2 / (2 ^ 16 : Int)) % (2 ^ 16 : Int)).toNat) 16
  let sb := fmtBits d.cvtFrom / 8
  let db := fmtBits d.cvtTo / 8
  let n := d.l0 / db
  (scatterRecs d b.index).foldl (fun r q =>
    let x := r.1.epRead t b d.srcKind (q.src.getD 0) (n * sb)
    let els := (chunks sb n x.2).zipIdx.map fun c =>
      (q.dst + c.2 * db, termValue d.cvtFrom sb gs gd (leNat (bytesOf c.1)), anyPoison c.1)
    (x.1, r.2 ++ els)) (s, [])

/-- A BARGE_INDEX message for each bad index (R190). -/
def State.indexFaults (s : State) (t : Nat) (b : BargeInst) : State :=
  let slot := ((s.tile t).flight.map Prod.fst).getD 255
  (List.range (badIndices (descOf b.desc) b.index)).foldl (fun s _ => s.fault { msgOf K_BARGE_INDEX 1 t with slot := slot }) s

/-- The whole movement of a barge on the issuing device. -/
def State.moveBarge (s : State) (t : Nat) (b : BargeInst) : State :=
  let d := descOf b.desc
  let s := s.indexFaults t b
  if d.op = 3 then
    let r := s.addTerms t b d
    let w := fmtBits d.cvtTo
    r.2.foldl (fun s e => s.epRmw t d.dstKind e.1 (w / 8) (gridAddBytes w e.2.1 e.2.2)) r.1
  else
    let r := s.bargeWrites t b d
    r.2.foldl (fun s w => s.epWrite t d.dstKind w.1 w.2) r.1

/-! ### Landings (R168, R200, R421) -/

/-- The count that a landing adds to: what an LCSET or a WAIT_LC of the present cycle leaves, else the counter (R168). -/
def Tile.landOn (x : Tile) (c : Nat) : Nat :=
  x.sched.foldl (fun n e =>
    match e.act with
    | .wrLc c' v => if c' = c ∧ e.due = x.cyc then v else n
    | _ => n) (x.lc c)

/-- A landing on a counter: 1 is added, and a count that would pass 0xFFFF stays there and sets LCSAT. A write of the
counter that the present cycle still makes takes the landing too (R168), and an FLG of that cycle does not clear the LCSAT
that it sets (R147). -/
def Tile.land (x : Tile) (c : Nat) : Tile :=
  let sat := decide (0xFFFF ≤ x.landOn c)
  { x with
    lcs := sset 0 c (min 0xFFFF (x.lc c + 1)) x.lcs, lcsat := x.lcsat || sat
    sched := x.sched.map fun e =>
      match e.act with
      | .wrLc c' v => if c' = c ∧ e.due = x.cyc then { e with act := .wrLc c (min 0xFFFF (v + 1)) } else e
      | .clrSticky m => if sat ∧ e.due = x.cyc then { e with act := .clrSticky (m % 4) } else e
      | _ => e }

/-- A barge leaves flight and lands on LC, and on RLC of its destination tile (R200). -/
def State.landBarge (s : State) (t id : Nat) : State :=
  match (s.tile t).barges.find? fun b => b.id == id with
  | none => s
  | some b =>
    let d := descOf b.desc
    let s := s.modTile t fun x => { x with barges := x.barges.filter fun b => b.id ≠ id }.land b.lc
    if d.rlcEn && (d.dstKind == 1 || d.dstKind == 2) then
      match s.holdOf t d.dstKind d.dst with
      | some p => s.modTile p fun x => x.land d.rlc
      | none => s
    else s

/-- Whether an access must wait for an earlier one of its tile (R416 to R420, R172). -/
def Access.waitsFor (a e : Access) : Bool :=
  let f (x : Access) : Bool := match x.kind with
    | .fence => true
    | _ => false
  e.aq || a.rl || f e || f a ||
    (decide (a.va < e.va + e.size) && decide (e.va < a.va + a.size))

/-- The accesses issued before one. -/
def earlier (l : List Access) (id : Nat) : List Access := l.takeWhile fun e => e.id ≠ id

/-- A global access that is performed: its memory effect and, for a load or a fetching atomic, RD. -/
def State.performAccess (s : State) (t : Nat) (a : Access) : State :=
  let p := t / 17
  let stream := 2 ^ 13 * (t + 1) + a.pc
  let g := s.segs t a.va a.size
  match g.2 with
  | [] => g.1
  | g1 :: _ =>
    let ctx := match (s.tile t).flight with
      | some (k, _) => s.flightCtx k
      | none => 0
    let la := lineOf g1.pa
    match a.kind with
    | .fence => s
    | .gld rd =>
      let s := g.1.countSeg ctx g1 false
      let r : State × PBytes :=
        if s.isUc g1.host g1.attr then s.ucRead g1.host g1.pa a.size
        else
          let r := s.reachRead p stream g1.host la g1.attr
          (r.1, r.2.part la g1.pa a.size)
      r.1.modTile t fun x => x.putS rd (BitVec.ofNat 64 (leNat (bytesOf r.2))) (anyPoison r.2)
    | .gst =>
      (g.1.countSeg ctx g1 true).reachStore p g1.host g1.pa g1.attr (toLe a.size a.value.toNat) a.poison
    | .gamo rd fn nf =>
      if g1.host then g.1
      else
        let r := (g.1.countSeg ctx g1 true).hdmRmw g1.pa 8 g1.attr
          (atomicBytes fn 8 a.value.toNat a.compare.toNat a.poison)
        if nf then r.1
        else r.1.modTile t fun x => x.putS rd (BitVec.ofNat 64 (leNat (bytesOf r.2))) (anyPoison r.2)

/-- Whether an access is a write to host memory that cannot leave the host port now: it is not globally observable
before it has left (R411, R466). -/
def State.accessShut (s : State) (t : Nat) (a : Access) : Bool :=
  match a.kind with
  | .gst => !s.port.ioOpen && (s.segs t a.va a.size).2.any fun g => g.host && s.isUc true g.attr
  | _ => false

/-- A global access lands once nothing earlier holds it back. -/
def State.landAccess (s : State) (t id : Nat) : State :=
  match (s.tile t).accs.find? fun a => a.id == id with
  | none => s
  | some a =>
    if (earlier (s.tile t).accs id).any a.waitsFor || s.accessShut t a then s
    else
      let s := match a.kind with
        | .fence => s
        | _ => s.performAccess t a
      s.modTile t fun x => { x with accs := x.accs.filter fun e => e.id ≠ id }.land a.lc

end Sys2Proof.Machine
end

