-- ==== Sys2Proof/Machine/RegOps.lean ====
section
/-! DEFINITION. A software write of one register's stored value (R19), and the power, reservation and
population figures that several blocks share. -/

namespace Sys2Proof.Machine

/-- Whether the RWQ fields of the register at `off` are writable now (R19). -/
def State.quietNow (s : State) (off : Nat) : Quiesce → Bool
  | .always => true
  | .notJoined => !s.ww.joined
  | .stkIdle => decide ((s.stack ((off - STK) / 0x100)).st ≠ .active)
  | .ringOff => false
  | .rngOff => !s.bit RNG_CTL 0
  | .xltOff => !s.bit XLT_CTL 0
  | .fltRingOff => !s.bit FLT_CTL 1
  | .beforeFwReady => !s.boot.fwEverReady
  | .berthQuiet =>
    let b := s.berth ((off - BRT) / 0x400)
    decide (b.st = .off) || decide (b.st = .drained)

/-- A write that a unit at work ignores is logged: the pound and the register (R19). The spec names no log that takes
it (DESIGN CHOICE: log entry 74). -/
def State.logRwq (s : State) (off : Nat) : State := { s with rwqLog := s.rwqLog ++ [(s.ww.pound, off)] }

/-- A software write of `v` to the register at `off`, by the types of its fields; an offset that no
block assigns discards it (R10). A write that would change a field whose unit is not quiesced leaves it and is
logged (R19). -/
def State.swWrite (s : State) (off : Nat) (v : Reg) : State :=
  match regDef s.fuses off with
  | some d =>
    let quiet := s.quietNow off d.quiet
    let t := s.setReg off (writeReg d quiet (s.reg off) v)
    if !quiet && writeReg d true (s.reg off) v != writeReg d false (s.reg off) v then t.logRwq off else t
  | none => s

/-! ### Roles (R637) -/

/-- The lockkeeper that runs a role. -/
def State.roleCore (s : State) (role : Nat) : Option Nat :=
  (s.lks.find? fun e => e.2.st == .active && e.2.role == some role).map Prod.fst

/-- The TLB unit of the lockkeeper that runs a role (R526, R600). -/
def State.roleUnit (s : State) (role : Nat) : Nat := 16 + (s.roleCore role).getD 0

/-- The TLB unit of a context's ring server. -/
def State.ringUnit (s : State) (ctx : Nat) : Nat := s.roleUnit (ctx % 8)

/-! ### Stack capacity (R330) -/

/-- Pseudo-channels of a port in service. -/
def State.pcsInService (s : State) (port : Nat) : Nat :=
  ((List.range 64).filter fun k => s.pcState port k = .ok && !s.pcDrained port k).length

/-- Reservable GB/s and transactions with `a` pseudo-channels in service. -/
def capOf (a : Nat) : Nat × Nat := (1440 * a / 64, 3584 * a / 64)

/-- A port's current capacity. -/
def State.stkCap (s : State) (port : Nat) : Nat × Nat := capOf (s.pcsInService port)

/-- The STACK_RES entries of a flight on its device slot (R226): port, bandwidth, transactions. -/
def stackRes (m : Ram) (d : Nat) : List (Nat × Nat × Nat) :=
  (List.range (entryCount m SEC_STACK_RES)).filterMap fun i =>
    if entryNum m SEC_STACK_RES i 0 2 = d then
      some (entryNum m SEC_STACK_RES i 2 1, entryNum m SEC_STACK_RES i 4 2, entryNum m SEC_STACK_RES i 6 2)
    else none

/-- What a flight reserves on a port. -/
def Flight.stackResOn (f : Flight) (port : Nat) : Nat × Nat :=
  ((stackRes f.image f.devSlot).filter fun e => e.1 == port).foldl
    (fun r e => (r.1 + e.2.1, r.2 + e.2.2)) (0, 0)

/-- Whether a flight in its slot holds reservations: from bind step 1 until its tiles are unbound. -/
def Flight.reserves (f : Flight) : Bool := f.st.bound_ || f.binding.isSome

/-- What all bound flights reserve on a port (R357). -/
def State.stkReserved (s : State) (port : Nat) : Nat × Nat :=
  (s.flights.filter fun e => e.2.reserves).foldl
    (fun r e => let x := e.2.stackResOn port; (r.1 + x.1, r.2 + x.2)) (0, 0)

/-- Whether reservations fit a capacity. -/
def fitsCap (need cap : Nat × Nat) : Bool := decide (need.1 ≤ cap.1) && decide (need.2 ≤ cap.2)

/-- The DPA of byte 0 of a port's pseudo-channel (R326, R327). -/
def State.pcAddr (s : State) (port pc : Nat) : Nat :=
  match s.logReach (port / 2) with
  | some r => r * (2 * s.boot.capacity) + port % 2 * 2 ^ 18 + pc * 2 ^ 12
  | none => 0

end Sys2Proof.Machine
end

