-- ==== Sys2Proof/Machine/Extents.lean ====
section
/-! DEFINITION. The extents of a barge descriptor (R187): the bytes that each side can read or write, as
runs at strided addresses. -/

namespace Sys2Proof.Machine

/-- A strided set of runs: a base, dimensions of count and signed stride, and the bytes of a run. -/
structure Ext where
  base : Int
  dims : List (Nat × Int)
  run  : Nat
  deriving DecidableEq, Repr

/-- The same bytes with every dimension that continues its run folded into the run, and dimensions of
count 1 left out. -/
def Ext.fold (e : Ext) : Ext :=
  e.dims.foldl (fun x d =>
    if d.1 = 1 then x
    else if x.dims.isEmpty ∧ d.2 = (x.run : Int) then { x with run := x.run * d.1 }
    else { x with dims := x.dims ++ [d] }) { e with dims := [] }

/-- The addresses of the runs. -/
def dimStarts (base : Int) : List (Nat × Int) → List Int
  | [] => [base]
  | (n, st) :: ds => (List.range n).flatMap fun (i : Nat) => dimStarts (base + st * i) ds

/-- The runs of an extent: address and length. -/
def Ext.runs (e : Ext) : List (Int × Nat) :=
  let f := e.fold
  (dimStarts f.base f.dims).map fun a => (a, f.run)

/-- The lowest address of an extent. -/
def Ext.low (e : Ext) : Int := e.dims.foldl (fun a d => a + min 0 (d.2 * ((d.1 : Int) - 1))) e.base

/-- The address after the last byte. -/
def Ext.high (e : Ext) : Int := e.dims.foldl (fun a d => a + max 0 (d.2 * ((d.1 : Int) - 1))) (e.base + e.run)

/-- Whether every byte lies below `n`. -/
def Ext.within (e : Ext) (n : Nat) : Bool := decide (0 ≤ e.low) && decide (e.high ≤ n)

/-- Whether two extents share a byte. -/
def Ext.overlaps (e f : Ext) : Bool :=
  decide (e.low < f.high) && decide (f.low < e.high) &&
    e.runs.any fun a => f.runs.any fun b => decide (a.1 < b.1 + b.2) && decide (b.1 < a.1 + a.2)

/-- Elements of a source run. -/
def Desc.elems (d : Desc) : Nat := d.l0 * 8 / max 1 d.srcBits

/-- Bytes of a converted run of `n` elements. -/
def Desc.outLen (d : Desc) (n : Nat) : Nat := n * d.dstBits / 8

/-- Runs of the source in iteration order, and rows of a TRANSPOSE's destination. -/
def Desc.srcRuns (d : Desc) : Nat := d.c1 * d.c2 * d.c3
def Desc.rows (d : Desc) : Nat := d.l0 / 2 ^ d.esz

/-- The source side's extents: the data, and the scales of a block format. -/
def srcExts (d : Desc) : List Ext :=
  let copyDims := [(d.c1, d.ss1), (d.c2, d.ss2), (d.c3, d.ss3)]
  let main : Ext :=
    match d.op with
    | 1 => { base := d.src, dims := [(d.region, d.ss1)], run := d.l0 }
    | 2 => { base := d.src, dims := [(d.c1, d.ss1)], run := d.l0 }
    | 3 => { base := d.src, dims := [(d.c1, d.ss1)],
             run := d.l0 / max 1 (fmtBits d.cvtTo / 8) * (fmtBits d.cvtFrom / 8) }
    | _ => { base := d.src, dims := copyDims, run := d.l0 }
  if d.cvt && fmtBlock d.cvtFrom then
    [main, { base := (d.src : Int) + signedOf d.aux 32, dims := [], run := d.srcRuns * d.blocks d.elems }]
  else [main]

/-- The destination side's extents. -/
def dstExts (d : Desc) : List Ext :=
  let out := if d.cvt then d.outLen d.elems else d.l0
  let main : Ext :=
    match d.op with
    | 1 => { base := d.dst, dims := [(d.c1, d.ds1)], run := out }
    | 2 => { base := d.dst, dims := [(d.region, d.ds1)], run := out }
    | 3 => { base := d.dst, dims := [(d.region, d.ds1)], run := d.l0 }
    | 4 => { base := d.dst, dims := [(d.rows, d.ds1), (d.c2, d.ds2), (d.c3, d.ds3)],
             run := if d.cvt then d.outLen d.c1 else d.c1 * 2 ^ d.esz }
    | _ => { base := d.dst, dims := [(d.c1, d.ds1), (d.c2, d.ds2), (d.c3, d.ds3)], run := out }
  if d.cvt && fmtMx d.cvtTo then
    let n := if d.op = 4 then d.rows * d.c2 * d.c3 * d.blocks d.c1 else d.srcRuns * d.blocks d.elems
    [main, { base := (d.dst : Int) + signedOf d.aux 32, dims := [], run := n }]
  else [main]

/-- The records of a gather or a scatter that move (R190). -/
def Desc.movedRecs (d : Desc) (index : List (Nat × Bool)) : List Rec :=
  (if d.op = 1 then gatherRecs d index else scatterRecs d index).filter fun q => q.src.isSome

/-- The runs of some extents: address and length. -/
def extRuns (es : List Ext) : List (Nat × Nat) := (es.flatMap Ext.runs).map fun r => (r.1.toNat, r.2)

/-- The runs that a barge reads: of a gather or a scatter only the records that it moves, with their scales (R176). -/
def Desc.reads (d : Desc) (index : List (Nat × Bool)) : List (Nat × Nat) :=
  if d.op = 1 ∨ d.op = 2 ∨ d.op = 3 then
    let n := if d.op = 3 then d.l0 / max 1 (fmtBits d.cvtTo / 8) * (fmtBits d.cvtFrom / 8) else d.l0
    let k := if d.cvt && fmtBlock d.cvtFrom then d.blocks d.elems else 0
    (d.movedRecs index).flatMap fun q =>
      (q.src.getD 0, n) :: if k = 0 then [] else [(d.scaleAt d.src + q.r * k, k)]
  else extRuns (srcExts d)

/-- The runs that a barge writes: of a scatter only the records that it moves, with their scales. -/
def Desc.writes (d : Desc) (index : List (Nat × Bool)) : List (Nat × Nat) :=
  if d.op = 2 ∨ d.op = 3 then
    let k := if d.cvt && fmtMx d.cvtTo then d.blocks d.elems else 0
    (d.movedRecs index).flatMap fun q =>
      (q.dst, if d.cvt then d.outLen d.elems else d.l0) :: if k = 0 then [] else [(d.scaleAt d.dst + q.r * k, k)]
  else extRuns (dstExts d)

/-- The rights that a descriptor's destination needs (R207): SCATTER_ADD needs the atomic right. -/
def Desc.dstNeed (d : Desc) : Nat := if d.op = 3 then NEED_A else NEED_W

/-- The descriptors of a leg's list. -/
def legDescs (m : Ram) (l : Nat) : List Desc :=
  (List.range (legBarges m l)).map fun i => descOf (bargeBytes m (legBargeFirst m l + i))

/-- The legs that a flight tile runs in some variant and position. -/
def tileLegs (m : Ram) (f : Nat) : List Nat :=
  (List.range (hdrVariants m)).flatMap fun v =>
    (List.range (hdrPositions m)).filterMap fun j => legOf m v j f

/-- The descriptors that a device slot's tiles may start. -/
def slotDescs (m : Ram) (d : Nat) : List Desc :=
  (((slotTiles m d).flatMap (tileLegs m)).eraseDups).flatMap (legDescs m)

/-- The address after the last byte of MOORED endpoint extents of a descriptor. -/
def Desc.mooredEnd (d : Desc) : Nat :=
  let top (k : Nat) (es : List Ext) : Nat :=
    if k = 3 then es.foldl (fun (t : Nat) e => max t e.high.toNat) 0 else 0
  max (top d.srcKind (srcExts d)) (top d.dstKind (dstExts d))

/-- Whether every byte of the MOORED endpoint extents of a descriptor lies in `n` bytes of moored memory (R183). -/
def Desc.mooredWithin (d : Desc) (n : Nat) : Bool :=
  (d.srcKind != 3 || (srcExts d).all fun e => e.within n) && (d.dstKind != 3 || (dstExts d).all fun e => e.within n)

/-- Bytes of moored memory that a flight's barges name (R183, R394). -/
def Flight.mooredNeed (f : Flight) : Nat :=
  (slotDescs f.image f.devSlot).foldl (fun t d => max t d.mooredEnd) 0

/-- The size of moored memory with a moor count (R392). -/
def State.mooredSize (s : State) (m : Nat) : Nat := s.fuses.reaches.length * m * 2 ^ 19

end Sys2Proof.Machine
end

