-- ==== Sys2Proof/Machine/HomeQueue.lean ====
section
/-! DEFINITION. Requests at their home (R370, R371, R377, R426): what a request waits for, and the effects
of the requests that the commands of the basin make. -/

namespace Sys2Proof.Machine

/-- A line of HDM that a request touches: `some true` a device write, `some false` a device read, `none`
a request of the host. -/
abbrev Touch := Nat × Option Bool

/-- Whether a line's home holds a request back: the line is pinned for another lockkeeper (R426), it has a
snoop of the host outstanding (R370), its frame's bias changes (R370, R378), or the request needs the host's answer first
(R377). -/
def State.homeBusy (s : State) (lk : Option Nat) (t : Touch) : Bool :=
  (s.waits.any fun w =>
    match w.kind with
    | .bias dpa size _ _ _ => decide (dpa ≤ t.1) && decide (t.1 < dpa + size)
    | _ => false) ||
  (s.basin.pins.any fun p => p.1 == t.1 && lk ≠ some p.2) ||
  (s.port.bisnp.any fun b => b.1 == t.1) ||
  (match t.2, s.basinLine false t.1 with
   | some wr, some l => l.presence.contains 44 && (wr || !s.port.curOk.contains t.1)
   | _, _ => false)

/-- Sends the snoops of the host that a request needs on a line where it waits. -/
def State.askHost (s : State) (t : Touch) : State :=
  match t.2, s.basinLine false t.1 with
  | some wr, some l =>
    if l.presence.contains 44 && !(s.port.bisnp.any fun b => b.1 == t.1) then s.snoopHost t.1 wr else s
  | _, _ => s

/-- A request reaches its home: it runs, or it waits there behind the lines that hold it back, oldest
first. -/
def State.atHome (s : State) (c : HeldReq) (lk : Option Nat) (ts : List Touch) (act : State → State) : State :=
  let busy := ts.filter fun t => s.homeBusy lk t
  if busy.isEmpty then
    act { s with port := { s.port with
      curOk := s.port.curOk.filter fun la => !(ts.any fun t => t.1 == la) } }
  else
    let s := busy.foldl State.askHost s
    { s with basin := { s.basin with held := s.basin.held ++ [c] } }

/-- The lines of an access to a space, as touches; host lines wait for nothing here. -/
def touches (host : Bool) (a n : Nat) (wr : Bool) : List Touch :=
  if host then [] else (linesOf a n).map fun la => (la, some wr)

/-- The lines of an extent's pieces, as touches. -/
def segTouches (gs : List XSeg) (wr : Bool) : List Touch := gs.flatMap fun g => touches g.host g.pa g.len wr

/-- The lines among some that their homes hold back now. -/
def State.busyOf (s : State) (ts : List Touch) : List Touch := ts.filter (s.homeBusy none)

/-- Sends the snoops of the host that waiting requests need. -/
def State.askAll (s : State) (ts : List Touch) : State := ts.foldl State.askHost s

/-! ### The requests of R371 -/

/-- SHARED_READ at the home. -/
def State.doSharedRead (s : State) (agent : Nat) (host : Bool) (addr attr : Nat) : State :=
  let la := lineOf addr
  s.atHome (.sharedRead agent host addr attr) none (touches host la 64 false) fun s =>
    (s.sharedRead agent host la attr).1

/-- OWNERSHIP_READ at the home. -/
def State.doOwnershipRead (s : State) (agent : Nat) (host : Bool) (addr : Nat) : State :=
  let la := lineOf addr
  s.atHome (.ownershipRead agent host addr) none (touches host la 64 true) fun s =>
    (s.ownershipRead agent host la).1

/-- NON_CACHING_READ at the home: the latest data goes to the requester. -/
def State.doNonCachingRead (s : State) (host : Bool) (addr len : Nat) : State :=
  s.atHome (.nonCachingRead host addr len) none (touches host addr len false) fun s =>
    let r := s.ncRead host addr len
    r.1.emit (.homeData (bytesOf r.2) (anyPoison r.2))

/-- NON_CACHING_WRITE at the home, or at the stack controller or host port for a UC page. -/
def State.doNonCachingWrite (s : State) (host : Bool) (addr attr : Nat) (bytes : List Byte) (poison : Bool) :
    State :=
  s.atHome (.nonCachingWrite host addr attr bytes poison) none (touches host addr bytes.length true) fun s =>
    s.pageWrite host attr addr (bytes.map fun b => (b, poison))

/-- A flag write (R436): a posted write to host memory, or a non-caching write of HDM that its home may hold back. -/
def State.flagAtHome (s : State) (host : Bool) (a : Nat) (bs : List Byte) : State :=
  if host then s.flagStore true a bs else s.doNonCachingWrite false a 0 bs false

/-- The change that an atomic makes: an integer function, or the grid-exact add of an element of the same
format and grid (R381). -/
def atomicChange (fn size operand compare : Nat) (poison : Bool) : PBytes → PBytes :=
  if fn = 8 then gridAddBytes (8 * size) (decodeGrid (8 * size) operand) poison
  else atomicBytes fn size operand compare poison

/-- ATOMIC at the place of R382. -/
def State.doAtomic (s : State) (addr attr fn size operand compare : Nat) (moored : Bool) : State :=
  let f := atomicChange fn size operand compare false
  let out (r : State × PBytes) : State := r.1.emit (.atomicOld (leNat (bytesOf r.2)) (anyPoison r.2))
  if moored then out (s.mooredRmw addr size f)
  else
    s.atHome (.atomic addr attr fn size operand compare moored) none (touches false addr size true) fun s =>
      out (s.hdmRmw addr size attr f)

end Sys2Proof.Machine
end

