-- ==== Sys2Proof/Machine/HostIo.lean ====
section
/-! DEFINITION. Reads that the device makes through CXL.io (R455 to R459): splitting, tags, completions
and timeouts, and the host side of a barge. -/

namespace Sys2Proof.Machine

/-- The tag values in use (R456). -/
def HostPort.tags (p : HostPort) : List Nat :=
  if p.tag14 then (List.range 16383).map (· + 1)
  else if p.tag10 then (List.range 768).map (· + 256)
  else List.range 256

/-- Whether a tag may not be drawn: outstanding, in quarantine, or made before an FLR. -/
def HostPort.tagBusy (p : HostPort) (t : Nat) : Bool :=
  (p.outstanding.any fun r => r.tag == t) || p.quarantine.contains t || p.stale.contains t

/-- The lowest free tag. -/
def HostPort.freeTag (p : HostPort) : Option Nat := p.tags.find? fun t => !p.tagBusy t

/-- A read split at the max read request size and at 4 KiB boundaries (R455; fuel: bytes). -/
def splitRead (mrrs : Nat) : Nat → Nat → Nat → List (Nat × Nat)
  | 0, _, _ => []
  | fuel + 1, a, n =>
    if n = 0 then []
    else
      let k := min n (min (max 1 mrrs) ((a / 4096 + 1) * 4096 - a))
      (a, k) :: splitRead mrrs fuel (a + k) (n - k)

/-- Sends one request with a tag. -/
def State.sendRead (s : State) (r : IoRead) (tag : Nat) : State :=
  { s with port := { s.port with outstanding := s.port.outstanding ++ [{ r with tag := tag }] } }.emit
    (.ioRead tag r.addr r.want)

/-- Requests that wait go out in their original order while tags are free (R456, R466; fuel: requests). -/
def State.pumpReads (s : State) : Nat → State
  | 0 => s
  | fuel + 1 =>
    match s.port.waitingRd, s.port.freeTag with
    | r :: rest, some tag =>
      if s.port.ioOpen then
        ({ s with port := { s.port with waitingRd := rest } }.sendRead r tag).pumpReads fuel
      else s
    | _, _ => s

/-- A read for a requester: its requests enter the queue, and those that can go out go. -/
def State.ioRequest (s : State) (user : IoUser) (a n : Nat) : State :=
  let rs := (splitRead s.port.mrrs n a n).map fun p =>
    { tag := 0, addr := p.1, want := p.2, got := 0, user := user : IoRead }
  let s := { s with port := { s.port with waitingRd := s.port.waitingRd ++ rs } }
  s.pumpReads rs.length

/-- Whether a requester has reads that have not ended. -/
def State.ioBusy (s : State) (user : IoUser) : Bool :=
  (s.port.outstanding.any fun r => r.user == user) || (s.port.waitingRd.any fun r => r.user == user)

/-- Host bytes that never arrived are delivered poisoned. -/
def State.hostPoison (s : State) (a n : Nat) : State :=
  if n = 0 then s else { s with host := s.host.markRange a n 3 }

/-! ### The host and berth side of a barge -/

/-- The flight slot of a tile. -/
def State.slotOf (s : State) (t : Nat) : Nat := ((s.tile t).flight.map Prod.fst).getD 255

/-- The pieces of a barge's source that leave through the host port uncached (R181). -/
def State.bargeHostReads (s : State) (t : Nat) (b : BargeInst) (d : Desc) : State × List XSeg :=
  if d.srcKind ≠ 4 then (s, [])
  else
    (d.reads b.index).foldl (fun r x =>
      let g := r.1.segs t x.1 x.2
      (g.1, r.2 ++ g.2.filter fun q => q.host && (q.peer || g.1.isUc true q.attr))) (s, [])

/-- Poison by 64 B of data, as a mask (R548). -/
def poison64 (bs : PBytes) : Nat :=
  (List.range (ceilDiv bs.length 64)).foldl (fun m i =>
    m + (if anyPoison ((bs.drop (64 * i)).take 64) then 2 ^ i else 0)) 0

/-- A flit sent to a berth; an armed CRC injection makes the adapter retry it (R543, R568). -/
def State.berthTx (s : State) (b : Nat) (o : Out) : State :=
  let off := brtReg b 0x14
  let s := if s.bit off 0 then
      ((s.setBit off 0 false).setBit (brtReg b 0x10) 0 true).fault (msgOf K_BERTH_RETRY 8 b)
    else s
  s.emit o

/-- A request to a berth: its address, length and the tag drawn from the berth's counter. -/
def State.berthMsg (s : State) (b t id addr off len : Nat) (wr : Bool) (bytes : PBytes) : State × Nat :=
  let x := s.berth b
  let tag := x.nextTag % 65536
  let o : BerthOut := { tag := tag, tile := t, barge := id, off := off, len := len, read := !wr }
  ((s.setBerth b { x with out := x.out ++ [o], nextTag := (x.nextTag + 1) % 65536 }).berthTx b
    (.berthSend b tag addr len wr (bytesOf bytes) (poison64 bytes)), tag)

/-- Changes a barge in flight. -/
def State.modBarge (s : State) (t id : Nat) (f : BargeInst → BargeInst) : State :=
  s.modTile t fun x => { x with barges := x.barges.map fun b => if b.id = id then f b else b }

/-- A barge in flight. -/
def State.barge? (s : State) (t id : Nat) : Option BargeInst := (s.tile t).barges.find? fun b => b.id == id

/-- Splits a run into messages of up to 256 B (R548; fuel: bytes). -/
def berthParts : Nat → Nat → Nat → List (Nat × Nat)
  | 0, _, _ => []
  | fuel + 1, a, n => if n = 0 then [] else
    (a, min n 256) :: berthParts fuel (a + min n 256) (n - min n 256)

/-- Bytes that a berth never returns are delivered poisoned, with a BERTH_TIMEOUT message (R553, R554). -/
def State.berthMissing (s : State) (b t id off len : Nat) : State :=
  ((s.modBarge t id fun x =>
      { x with berthBad := (List.range len).foldl (fun m i => sset false (off + i) true m) x.berthBad }).setBit
    (brtReg b 0x10) 3 true).fault { msgOf K_BERTH_TIMEOUT 8 b with slot := s.slotOf t }

/-- The RD messages of a barge whose source is a berth (R553). -/
def State.berthReads (s : State) (t : Nat) (b : BargeInst) (d : Desc) : State :=
  (d.reads b.index).foldl (fun s x =>
    (berthParts x.2 x.1 x.2).foldl (fun s p =>
      if (s.berth (bitsOf p.1 49 48)).st ≠ .active then s.berthMissing (bitsOf p.1 49 48) t b.id p.1 p.2
      else
        let r := s.berthMsg (bitsOf p.1 49 48) t b.id (p.1 % 2 ^ 48) p.1 p.2 false []
        r.1.modBarge t b.id fun b => { b with berthTags := b.berthTags ++ [r.2] }) s) s

/-- The WR messages of a barge whose destination is a berth. -/
def State.berthWrites (s : State) (t : Nat) (b : BargeInst) (d : Desc) : State :=
  let r := (s.indexFaults t b).bargeWrites t b d
  r.2.foldl (fun s w =>
    (berthParts w.2.length w.1 w.2.length).foldl (fun s p =>
      let part := (w.2.drop (p.1 - w.1)).take p.2
      if (s.berth (bitsOf p.1 49 48)).st ≠ .active then s.berthMissing (bitsOf p.1 49 48) t b.id p.1 0
      else
      let q := s.berthMsg (bitsOf p.1 49 48) t b.id (p.1 % 2 ^ 48) p.1 p.2 true part
      q.1.modBarge t b.id fun b => { b with berthTags := b.berthTags ++ [q.2] }) s) r.1

/-- A barge moves on once its reads have all come in: one with a berth destination sends its data. -/
def State.bargeGo (s : State) (t id : Nat) : State :=
  match s.barge? t id with
  | none => s
  | some b =>
    let d := descOf b.desc
    if d.dstKind = 6 ∧ b.sent = 0 ∧ b.berthTags.isEmpty ∧ !s.ioBusy (.barge t id) then
      (s.modBarge t id fun b => { b with sent := 1 }).berthWrites t b d
    else s

/-- The requests of the host and of berths that a barge makes as it starts. -/
def State.bargeRequests (s : State) (t id : Nat) : State :=
  match s.barge? t id with
  | none => s
  | some b =>
    let d := descOf b.desc
    let r := s.bargeHostReads t b d
    let s := r.2.foldl (fun s g => s.ioRequest (.barge t id) g.pa g.len) r.1
    let s := if d.srcKind = 6 then s.berthReads t b d else s
    s.bargeGo t id

/-- The index list of a barge as its hold stands (R189, R191), with the reports of its words. -/
def State.indexList (s : State) (t : Nat) (d : Desc) : State × List (Nat × Bool) :=
  if d.op = 1 ∨ d.op = 2 ∨ (d.op = 3 ∧ d.aux % 2 ^ 24 ≠ 0xFFFFFF) then
    let r := s.holdRead t (d.aux % 2 ^ 24) (4 * d.c1)
    (r.1, (chunks 4 d.c1 r.2).map fun bs => (leNat (bytesOf bs), anyPoison bs))
  else (s, [])

/-- A barge starts once the cycle in which its BARGE issued has ended (R166): it reads its index list, and its requests
go out. -/
def State.bargeStart (s : State) (t id : Nat) : State :=
  match s.barge? t id with
  | none => s
  | some b =>
    if b.started then s
    else
      let r := s.indexList t (descOf b.desc)
      (r.1.modBarge t id fun b => { b with index := r.2, started := true }).bargeRequests t id

/-- Every barge of a tile that has not started starts. -/
def State.startBarges (s : State) (t : Nat) : State :=
  ((s.tile t).barges.filter fun b => !b.started).foldl (fun s b => s.bargeStart t b.id) s

end Sys2Proof.Machine
end

