-- ==== Sys2Proof/Machine/BerthCtl.lean ====
section
/-! DEFINITION. Berths as links (15): training, drain, loss, and the completions of the device's own
messages. -/

namespace Sys2Proof.Machine

/-- A fused berth. -/
def State.berthFused (s : State) (b : Nat) : Bool := decide (b < s.fuses.variant.berths)

/-- The presence-bit index of a berth's cache. -/
def berthAgent (b : Nat) : Nat := 40 + b

/-- A message's completion leaves the berth's list, and the barge that sent it moves on. -/
def State.berthEnd (s : State) (b : Nat) (o : BerthOut) : State :=
  let s := s.setBerth b { s.berth b with out := (s.berth b).out.filter fun x => x.tag ≠ o.tag }
  (s.modBarge o.tile o.barge fun x => { x with berthTags := x.berthTags.filter (· ≠ o.tag) }).bargeGo o.tile o.barge

/-- A message with no completion is treated as complete: missing read bytes are poisoned (R553). -/
def State.berthGiveUp (s : State) (b : Nat) (o : BerthOut) : State :=
  (s.berthMissing b o.tile o.barge o.off (if o.read then o.len else 0)).berthEnd b o

/-- A line that a lost berth held: one in M is stored poisoned at its home with a message, others are dropped
from the directory (R554). -/
def State.berthLoseLine (s : State) (b : Nat) (c : Copy) : State :=
  if c.st = .m then
    (((s.putCopy { c with poison := 0xFF }).writeBack c.agent c.host c.addr).setBit (brtReg b 0x10) 4 true).report
      K_BERTH_LOST_LINE 8 b c.addr
  else s.removeCopy c.agent c.host c.addr

/-- What a berth that goes DOWN or SAFE, or is disabled, leaves (R554). -/
def State.berthLoss (s : State) (b : Nat) : State :=
  let s := (s.berth b).out.foldl (fun s o => s.berthGiveUp b o) s
  (s.basin.copies.filter fun c => c.agent == berthAgent b).foldl (fun s c => s.berthLoseLine b c) s

/-- A berth's state. -/
def State.berthTo (s : State) (b : Nat) (st : BState) : State := s.setBerth b { s.berth b with st := st }

/-- ENABLE of a berth rises: an OFF berth trains (R545). -/
def State.berthEnable (s : State) (b : Nat) : State :=
  if !s.berthFused b then s
  else
    let t := s.setBit (brtReg b 0x00) 0 true
    if (s.berth b).st = .off then t.berthTo b .training else t

/-- BERTH_ENABLE. -/
def execBerthEnable (b : Nat) (s : State) : Host.Outcome State Fault Refusal := doneLive s (s.berthEnable b)

/-- BERTH_TRAINING_DONE: ACTIVE with the modules, rate and identity that training found, or DOWN. -/
def execBerthTrainingDone (b : Nat) (ok : Bool) (modules rate vendor device : Nat) (s : State) :
    Host.Outcome State Fault Refusal :=
  doneLive s (if (s.berth b).st ≠ .training then s
    else if ok && decide (modules % 4 ≠ 0) then
      s.setBerth b { s.berth b with st := .active, modules := modules % 4, rate := rate, vendor := vendor,
                                    device := device }
    else s.berthTo b .down)

/-- The link of a berth is lost. -/
def State.berthDown (s : State) (b : Nat) : State :=
  let live := decide ((s.berth b).st = .active) || decide ((s.berth b).st = .draining) ||
    decide ((s.berth b).st = .drained) || decide ((s.berth b).st = .training)
  if live then ((s.berthTo b .down).berthLoss b) else s

/-- BERTH_MODULE_FAIL: the module leaves service, and the berth runs on the other one, if there is one (R543). -/
def execBerthModuleFail (b m : Nat) (s : State) : Host.Outcome State Fault Refusal :=
  let x := s.berth b
  let left := (List.range 2).foldl (fun k i => if bitOf x.modules i && i ≠ m then k + 2 ^ i else k) 0
  doneLive s (if !s.berthFused b || !bitOf x.modules m then s
    else
      let t := (s.setBerth b { x with modules := left }).setBit (brtReg b 0x10) 1 true
      if left = 0 then t.berthDown b else t)

/-- BERTH_LINK_DOWN. -/
def execBerthLinkDown (b : Nat) (s : State) : Host.Outcome State Fault Refusal :=
  doneLive s (s.berthDown b)

/-- DRAIN of a berth is written 1: an ACTIVE berth admits no new request, and every line that it holds is snooped
with SnpInv (R555). -/
def State.berthDrain (s : State) (b : Nat) : State :=
  if !s.berthFused b then s
  else
    let t := s.setBit (brtReg b 0x00) 3 true
    if (s.berth b).st ≠ .active then t
    else
      (t.basin.copies.filter fun c => c.agent == berthAgent b).foldl (fun s c =>
        let s := s.berthTx b (.berthSnpInv b c.addr)
        if c.st = .m then s.writeBack c.agent c.host c.addr else s.removeCopy c.agent c.host c.addr)
        (t.berthTo b .draining)

/-- BERTH_DRAIN. -/
def execBerthDrain (b : Nat) (s : State) : Host.Outcome State Fault Refusal := doneLive s (s.berthDrain b)

/-- Whether a request that waits at a home came from a berth. -/
def HeldReq.ofBerth (b : Nat) : HeldReq → Bool
  | .berthWr i _ | .berthRd i _ | .berthAmo i _ | .berthFence i _ | .berthDb i _ | .berthRdCurr i _ | .berthRdShared i _
  | .berthRdOwn i _ | .berthRdOwnNoData i _ => i == b
  | _ => false

/-- BERTH_DRAIN_DONE: with no request outstanding in either direction the berth is DRAINED. -/
def execBerthDrainDone (b : Nat) (s : State) : Host.Outcome State Fault Refusal :=
  doneLive s (if (s.berth b).st = .draining && (s.berth b).out.isEmpty && !s.basin.held.any (HeldReq.ofBerth b) then
      s.berthTo b .drained
    else s)

/-- ENABLE of a berth clears: the berth is OFF, with R554 unless it was DRAINED or OFF (R565). -/
def State.berthDisable (s : State) (b : Nat) : State :=
  let st := (s.berth b).st
  if !s.berthFused b then s
  else
    let t := s.setBit (brtReg b 0x00) 0 false
    let t := if st = .off ∨ st = .drained then t else t.berthLoss b
    if st = .safe then t
    else t.setBerth b { t.berth b with st := .off, modules := 0, rate := 0 }

/-- BERTH_DISABLE. -/
def execBerthDisable (b : Nat) (s : State) : Host.Outcome State Fault Refusal := doneLive s (s.berthDisable b)

/-- BERTH_CPL: a message of the device completes; the bytes of a read come in, or are poisoned where its status
refuses it (R549, R553). -/
def execBerthCpl (b tag status : Nat) (data : List Byte) (poison : Nat) (s : State) :
    Host.Outcome State Fault Refusal :=
  doneLive s (match (s.berth b).out.find? fun o => o.tag == tag with
    | none => s
    | some o =>
      let t := if !o.read then s
        else
          s.modBarge o.tile o.barge fun x =>
            { x with
              berthData := ssetList 0 o.off (data.take o.len) x.berthData
              berthBad := (List.range o.len).foldl (fun m i =>
                sset false (o.off + i) (status ≠ 0 || bitOf poison (i / 64) || decide (data.length ≤ i)) m)
                x.berthBad }
      t.berthEnd b o)

/-- BERTH_MESSAGE_TIMEOUT. -/
def execBerthMessageTimeout (b tag : Nat) (s : State) : Host.Outcome State Fault Refusal :=
  doneLive s (match (s.berth b).out.find? fun o => o.tag == tag with
    | none => s
    | some o => s.berthGiveUp b o)

/-- BRT_INJ_CRC: the next flit sent to the berth has its CRC inverted (R568). -/
def execBrtInjCrc (b : Nat) (s : State) : Host.Outcome State Fault Refusal :=
  doneLive s (s.swWrite (brtReg b 0x14) 1)

/-! ### Access tables (R559) -/

/-- The registers of the ACT block's rules and targets. -/
def State.actRegs (s : State) : SMap Reg :=
  s.regs.filter fun e => decide (ACT_RULE ≤ e.1) && decide (e.1 < 0xAC48)

/-- A write of ACT_CTL.HOLD: 1 makes checks use a copy of the tables from now on, 0 makes the current tables
apply. -/
def State.actHold (s : State) (on : Bool) : State :=
  let t := s.setBit ACT_CTL 0 on
  if on then { t with actCopy := some (s.actCopy.getD s.actRegs) } else { t with actCopy := none }

/-- ACT_HOLD_SET. -/
def execActHoldSet (s : State) : Host.Outcome State Fault Refusal := doneLive s (s.actHold true)

/-- ACT_HOLD_CLEAR. -/
def execActHoldClear (s : State) : Host.Outcome State Fault Refusal := doneLive s (s.actHold false)

end Sys2Proof.Machine
end

