-- ==== Sys2Proof/Machine/Coherence.lean ====
section
/-! DEFINITION. The commands of the basin, of moored memory and of the maintenance engine (10). -/

namespace Sys2Proof.Machine

/-! ### Requests at a home (R371) -/

/-- SHARED_READ. -/
def execSharedRead (agent : Nat) (host : Bool) (addr attr : Nat) (s : State) :
    Host.Outcome State Fault Refusal :=
  doneLive s (s.doSharedRead agent host addr attr)

/-- OWNERSHIP_READ. -/
def execOwnershipRead (agent : Nat) (host : Bool) (addr : Nat) (s : State) :
    Host.Outcome State Fault Refusal :=
  doneLive s (s.doOwnershipRead agent host addr)

/-- M_LINE_WRITE_BACK: the home takes the owner's data, sets DIRTY and clears the owner's bits; a
write-back from an agent that no longer owns the line is discarded (R371, R373). -/
def execMLineWriteBack (agent : Nat) (host : Bool) (addr : Nat) (s : State) :
    Host.Outcome State Fault Refusal :=
  doneLive s (s.writeBack agent host (lineOf addr))

/-- NON_CACHING_READ. -/
def execNonCachingRead (host : Bool) (addr len : Nat) (s : State) : Host.Outcome State Fault Refusal :=
  doneLive s (s.doNonCachingRead host addr len)

/-- NON_CACHING_WRITE. -/
def execNonCachingWrite (host : Bool) (addr attr : Nat) (bytes : List Byte) (poison : Bool) (s : State) :
    Host.Outcome State Fault Refusal :=
  doneLive s (s.doNonCachingWrite host addr attr bytes poison)

/-- FORWARDED_REQUEST: the owner answers from its cache or its victim buffer, with a copy of the data to the
home; for ownership its copy goes, otherwise it keeps the line in S (R371, R373). -/
def execForwardedRequest (agent : Nat) (host : Bool) (addr : Nat) (own : Bool) (s : State) :
    Host.Outcome State Fault Refusal :=
  let la := lineOf addr
  doneLive s (match s.copyOf agent host la with
    | none => s
    | some c =>
      let d := s.latestLine host la
      let s := s.emit (.homeData d.data (decide (d.poison ≠ 0)))
      let s := if c.st = .m then s.recall host la else s
      if own then s.removeCopy agent host la
      else
        let s := s.putCopy { c with st := .s, data := [], poison := 0 }
        match s.basinLine host la with
        | some l => s.putLine { l with owner := if l.owner = some agent then none else l.owner }
        | none => s)

/-- VICTIM_WRITEBACK_ACCEPT: the write-back of a victim-buffer line is accepted at its home, or by memory
for the basin's own victim, and the entry frees (R373). -/
def execVictimWritebackAccept (agent : Nat) (host : Bool) (addr : Nat) (s : State) :
    Host.Outcome State Fault Refusal :=
  let la := lineOf addr
  doneLive s (match s.copyOf agent host la with
    | some c => if c.victim then s.writeBack agent host la else s
    | none => s.drainLine host la)

/-- ATOMIC. -/
def execAtomic (addr attr fn size operand compare : Nat) (moored : Bool) (s : State) :
    Host.Outcome State Fault Refusal :=
  doneLive s (s.doAtomic addr attr fn size operand compare moored)

/-! ### Moored memory (R393 to R395) -/

/-- Bytes of moored memory with the poison of their 64 B lines. -/
def State.mooredRead (s : State) (o n : Nat) : PBytes :=
  (linesOf o n).flatMap fun la =>
    let q := s.basin.moored.poisoned la 64
    (partAt la (s.basin.moored.read la 64) o n).2.map fun x => (x, q)

/-- A write to moored memory. -/
def State.mooredWrite (s : State) (o : Nat) (bs : List Byte) (poison : Bool) : State :=
  { s with basin := { s.basin with moored := s.basin.moored.store o bs poison } }

/-- MOORED_ACCESS: a read of as many bytes as are given, or their write, inside the moored memory in force;
past its end there is nothing to access. -/
def execMooredAccess (off : Nat) (wr : Bool) (bytes : List Byte) (poison : Bool) (s : State) :
    Host.Outcome State Fault Refusal :=
  doneLive s (if s.mooredSize s.basin.moor < off + bytes.length then s
    else if wr then s.mooredWrite off bytes poison
    else
      let r := s.mooredRead off bytes.length
      s.emit (.mooredData (bytesOf r) (anyPoison r)))

/-- Disabled ways of a basin slice; d of R390 is the largest number in any active slice. -/
def State.disabledWays (s : State) (p : Nat) : Nat :=
  (s.basin.disabled.filter fun w => w.1 && w.2.1 == p).length
def State.maxDisabled (s : State) : Nat := s.fuses.reaches.foldl (fun m p => max m (s.disabledWays p)) 0

/-- Codes of CMX_MOOR.RESULT (R406). -/
def MOOR_OK := 0
def MOOR_BUSY := 1
def MOOR_LIMIT := 2

/-- A moor request ends: RESULT is written as GO clears. -/
def State.moorEnd (s : State) (code : Nat) : State :=
  { s with basin := { s.basin with moorReq := none, moorCleaned := false } }.setFld CMX_MOOR 9 8 code
    |>.setBit CMX_MOOR 31 false

/-- Whether a bound flight names a moored byte at or beyond a size. -/
def State.mooredInUse (s : State) (size : Nat) : Bool :=
  s.flights.any fun e => e.2.reserves && decide (size < e.2.mooredNeed)

/-- A moor request starts (R394): its checks in order, and an accepted one waits; a decrease needs no
cleaning. -/
def State.moorStart (s : State) (req : Nat) : State :=
  let m := s.basin.moor
  let lim := max m (16 - s.maxDisabled)
  if req = m then s.moorEnd MOOR_OK
  else if lim < req then s.moorEnd MOOR_LIMIT
  else if s.mooredInUse (s.mooredSize req) then s.moorEnd MOOR_BUSY
  else { s with basin := { s.basin with moorReq := some req, moorCleaned := decide (req < m) } }

/-- A write of CMX_MOOR: REQ_WAYS is ignored while GO is 1, and a GO that rises starts the request. -/
def State.moorWrite (s : State) (v : Reg) : State :=
  let was := s.bit CMX_MOOR 31
  let t := s.swWrite CMX_MOOR v
  if !was && t.bit CMX_MOOR 31 then t.moorStart (t.fld CMX_MOOR 20 16) else t

/-- MOOR_REQUEST: the write of CMX_MOOR with GO. -/
def execMoorRequest (v : Reg) (s : State) : Host.Outcome State Fault Refusal :=
  doneLive s (s.moorWrite (putBits v 31 31 1))

/-- The lines that lie in ways which an increase of the moor count takes. -/
def State.newlyMoored (s : State) (req : Nat) : List (Bool × Nat) :=
  (s.basin.lines.filter fun l =>
    let p := s.slice l.host l.addr
    !l.victim && (((s.enabledWays p).reverse).take req).contains l.way).map fun l => (l.host, l.addr)

/-- The newly moored ways are cleaned and invalidated. -/
def State.cleanMoored (s : State) (req : Nat) : State :=
  (s.newlyMoored req).foldl (fun s l => ((s.cleanLine l.1 l.2).purge l.1 l.2 none).discardLine l.1 l.2) s

/-- MOOR_CLEAN_DONE: the newly moored ways have been cleaned and invalidated and filled with zero; they
become moored at the next lock. -/
def execMoorCleanDone (s : State) : Host.Outcome State Fault Refusal :=
  doneLive s (match s.basin.moorReq with
    | some req =>
      let t := s.cleanMoored req
      { t with basin := { t.basin with moorCleaned := true } }
    | none => s)

/-! ### Way tests (R387 to R389) -/

/-- The disabled ways of a cache. -/
def State.disabledOf (s : State) (basin : Bool) (idx : Nat) : Nat :=
  (s.basin.disabled.filter fun w => w.1 == basin && w.2.1 == idx).length

/-- The message of a way that failed its test. -/
def State.wayFault (s : State) (basin : Bool) (idx way : Nat) : State :=
  s.fault { msgOf K_WAY_DISABLED (if basin then 3 else 2) idx with status := way }

/-- A way of a reach cache or a basin slice that failed its test is disabled, with a message in service; where that would
break R389's limit, the device leaves the waterway instead. -/
def State.failWay (s : State) (service basin : Bool) (idx way : Nat) : State :=
  let w := (basin, idx, way)
  if s.disabledOf basin idx + 1 ≤ 4 then
    let s : State := { s with basin := { s.basin with recovering := s.basin.recovering.filter (· ≠ w),
                                                      disabled := s.basin.disabled ++ [w] } }
    if service then (s.setBit CMX_ERR 6 true).wayFault basin idx way else s
  else ((s.wayFault basin idx way).react .deviceFault).ownFaultBit

/-- WAY_TEST_DONE: a way in recovery that passed two or more of its three passes returns to service, and
any other is disabled (`idx` is a slice, or a reach cache 0 to 15 or a lockkeeper's L1 as 32 + k). A
disabling that would break R389's limit takes the device out of the waterway, and the way stays out of
replacement; a lockkeeper whose L1 fails retires. -/
def execWayTestDone (basin : Bool) (idx way passes : Nat) (s : State) :
    Host.Outcome State Fault Refusal :=
  let w := (basin, idx, way)
  doneLive s (if !s.basin.recovering.contains w then s
    else
      let back : State := { s with basin := { s.basin with recovering := s.basin.recovering.filter (· ≠ w) } }
      if 2 ≤ passes then back
      else if !basin && decide (32 ≤ idx) then
        { back with basin := { back.basin with disabled := back.basin.disabled ++ [w] } }.report K_LK_FAILED 6
          (idx - 32) 0
      else s.failWay true basin idx way)

/-! ### The maintenance engine (R396 to R404) -/

/-- Spaces of a range (R397). -/
def SP_DPA := 0
def SP_VA := 1
def SP_HPA := 2

/-- Whether a submission's range and operation are acceptable (R396, R402). -/
def maintOk (op space addr len : Nat) : Bool :=
  decide (op ≤ 4) && decide (space ≤ 2) && decide (addr % 64 = 0) && decide (len % 64 = 0) &&
    decide (0 < len) && decide (len ≤ 2 ^ 40)

/-- An operation's effect on one line. -/
def State.maintLine (s : State) (op : Nat) (host : Bool) (la attr : Nat) : State :=
  let dropped (s : State) : State := (s.recallHost host la).discardLine host la
  match op with
  | 0 => s.cleanLine host la
  | 1 => dropped s
  | 2 => dropped (s.cleanLine host la)
  | 3 => if (s.basinLine host la).isSome then s else s.fillLine host la 1
  | _ => s.ncWriteLine host la attr (List.replicate 64 0) false none

/-- An operation on the lines of a range in one space. -/
def State.maintRange (s : State) (op : Nat) (host : Bool) (a n attr : Nat) : State :=
  (linesOf a n).foldl (fun s la => s.maintLine op host la attr) s

/-- The right that an operation needs at its access-table targets (R558): INVALIDATE and ZERO write, WARM
reads, and a clean moves only what was written under its own rights. -/
def maintNeed (op : Nat) : Nat := if op = 1 ∨ op = 4 then NEED_W else if op = 3 then NEED_R else 0

/-- How a maintenance entry ends: its status, the address that stopped it, and the range that its walk failed on. -/
structure MaintEnd where
  status : Nat := 0
  addr   : Nat := 0
  fail   : Option XFail := none
  deriving DecidableEq, Repr

/-- An operation on a range that its access-table check admits. -/
def State.maintChecked (s : State) (op : Nat) (host : Bool) (a n attr : Nat) : State × MaintEnd :=
  match if host || maintNeed op = 0 then none else s.hdmRefusal MID_MAINT (maintNeed op) a n with
  | none => (s.maintRange op host a n attr, {})
  | some (t, x) => (s.actDeny t MID_MAINT (maintNeed op) x 255, { status := ST_ACCESS_DENIED, addr := x })

/-- A VA range page by page (fuel: pages): UC pages are skipped, and the engine stops at the first page that
is unmapped or lacks a needed write right (R397). -/
def State.maintVa (s : State) (op ctx : Nat) : Nat → Nat → Nat → State × MaintEnd
  | 0, _, _ => (s, {})
  | fuel + 1, va, n =>
    if n = 0 then (s, {})
    else
      match s.lookup (s.roleUnit 18) ctx va with
      | (s, .inr e) =>
        (s, { status := 0x0004, addr := va / 4096 * 4096, fail := some (walkFail va (maintNeed op) e) })
      | (s, .inl (e, l)) =>
        let size := pageSize l
        let start := va / size * size
        let len := min n (start + size - va)
        if (op = 1 ∨ op = 4) ∧ !bitOf (entRights e) 1 then (s, { status := ST_ACCESS_DENIED, addr := start })
        else
          let r := if entAttr e = ATTR_UC then (s, {})
            else s.maintChecked op (entHost e) (entPa e + (va - start)) len (entAttr e)
          if r.2.status ≠ 0 then r else r.1.maintVa op ctx fuel (va + len) (n - len)

/-- The first page of a VA range whose frames are not all backed, as far as its pages translate (R344; fuel: pages). -/
def State.maintLost (s : State) (ctx : Nat) : Nat → Nat → Nat → Option Nat
  | 0, _, _ => none
  | fuel + 1, va, n =>
    if n = 0 then none
    else
      match (s.lookup (s.roleUnit 18) ctx va).2 with
      | .inr _ => none
      | .inl (e, l) =>
        let size := pageSize l
        let start := va / size * size
        let len := min n (start + size - va)
        if !entHost e && entAttr e != ATTR_UC && s.unbackedWrite (entPa e + (va - start)) len then some start
        else s.maintLost ctx fuel (va + len) (n - len)

/-- Where the write extent of a ZERO touches an unbacked frame: it then writes no byte (R344). -/
def State.zeroLost (s : State) (e : MaintEntry) : Option Nat :=
  if e.op ≠ 4 || !s.anyUnbacked then none
  else if e.space_ = SP_VA then s.maintLost e.ctx (e.len / 4096 + 2) e.addr e.len
  else if e.space_ = SP_DPA && s.unbackedWrite e.addr e.len then some e.addr
  else none

/-- The effect of a whole entry, and how it ends. -/
def State.maintEffect (s : State) (e : MaintEntry) : State × MaintEnd :=
  match s.zeroLost e with
  | some a => (s, { status := 0x0400, addr := a })
  | none =>
  if e.space_ = SP_VA then s.maintVa e.op e.ctx (e.len / 4096 + 2) e.addr e.len
  else if e.space_ = SP_HPA then s.maintChecked e.op true e.addr e.len 0
  else s.maintChecked e.op false e.addr e.len 0

end Sys2Proof.Machine
end

