-- ==== Sys2Proof/Machine/HostPort.lean ====
section
/-! DEFINITION. The host port's commands that no ring takes part in (12): BAR4, CXL.mem, CXL.cache snoops,
decoders, interrupts and SPDM. -/

namespace Sys2Proof.Machine

/-! ### BAR accesses (R13, R14, R446, R460 to R462) -/

/-- Whether BAR accesses are refused as unsupported: Memory Space Enable is 0, or D3hot. -/
def HostPort.barClosed (p : HostPort) : Bool := !p.memSpace || p.d3hot

/-- The hold that a BAR4 offset names, and the address in its window. -/
def State.bar4Tile (s : State) (off : Nat) : Option Nat := s.physTile (off / 2 ^ 21)

/-- A refused posted write: Completer Abort in AER, nothing else. -/
def State.refusePosted (s : State) : State := s.aer .completerAbort true

/-- A refused non-posted request, handled as Advisory Non-Fatal (R460). -/
def State.refuseRead (s : State) : State := ((s.aer .completerAbort true).advise .completerAbort).emit .barAbort

/-- A read that is refused as unsupported. -/
def State.unsupportedRead (s : State) : State :=
  ((s.aer .unsupportedRequest true).advise .unsupportedRequest).emit .barUnsupported

/-- BAR4_WRITE: a write into a hold by the tile's barge engine, checked for alignment, by the hold's access
table as master 0, and with its EP poison (R14, R461, R472). A write to the window of a logical tile with no active
physical tile is discarded (DESIGN CHOICE: log entry 76). -/
def execBar4Write (off : Nat) (bytes : List Byte) (ep : Bool) (s : State) : Host.Outcome State Fault Refusal :=
  done s (
    if s.boot.safe then s
    else if s.port.barClosed then s.aer .unsupportedRequest true
    else if off % 8 ≠ 0 ∨ bytes.length % 8 ≠ 0 then s.refusePosted
    else
      let lt := off / 2 ^ 21
      let a := off % 2 ^ 21
      let part := bytes.take (HOLD_BYTES - a)
      let s := if ep then s.aer .poisonedTlp true else s
      match s.bar4Tile off with
      | none => s
      | some t =>
        if part.isEmpty then s
        else
          let c := s.actCheck (tgtHold lt) 0 NEED_W a
          if c.2 then c.1.holdWrite t a (part.map fun b => (b, ep)) else c.1.refusePosted)

/-- The pieces in which a BAR read returns: one up to 512 B, else pieces that end on 64 B boundaries (R461;
fuel: bytes). -/
def readPieces : Nat → Nat → Nat → List (Nat × Nat)
  | 0, _, _ => []
  | fuel + 1, a, n =>
    if n ≤ 512 then (if n = 0 then [] else [(a, n)])
    else
      let k := (a + 512) / 64 * 64 - a
      (a, k) :: readPieces fuel (a + k) (n - k)

/-- The data of a BAR read in its pieces; a piece with a poisoned byte goes out with EP = 1 (R446, R461). -/
def State.sendPieces (s : State) (off : Nat) (data : PBytes) : State :=
  (readPieces data.length off data.length).foldl (fun s p =>
    let part := (data.drop (p.1 - off)).take p.2
    s.emit (.barData (bytesOf part) (anyPoison part))) s

/-- A read that returns zeros. -/
def readZeros (n : Nat) : PBytes := List.replicate n (0, false)

/-- BAR4_READ: hold bytes as the hold's access table lets them be read, zero above 1.5 MiB of a window (R13, R446). The
spec does not say what the window of a logical tile with no active physical tile does: it reads 0 and discards writes
(DESIGN CHOICE: log entry 76). -/
def execBar4Read (off len : Nat) (s : State) : Host.Outcome State Fault Refusal :=
  done s (
    if s.boot.safe then s.sendPieces off (List.replicate len (0xFF, false))
    else if s.port.barClosed then s.unsupportedRead
    else
      let lt := off / 2 ^ 21
      let a := off % 2 ^ 21
      match s.bar4Tile off with
      | none => s.sendPieces off (readZeros len)
      | some t =>
        if HOLD_BYTES ≤ a then s.sendPieces off (readZeros len)
        else
          let c := s.actCheck (tgtHold lt) 0 NEED_R a
          if !c.2 then c.1.refuseRead
          else
            let n := min len (HOLD_BYTES - a)
            let r := c.1.holdRead t a n
            r.1.sendPieces off (r.2 ++ readZeros (len - n)))

/-! ### HDM decoders (R447) -/

/-- Ways and granularities that the decoders support. -/
def decoderOk (ways gran : Nat) : Bool :=
  [1, 2, 4, 8, 16].contains ways && [256, 512, 1024, 2048, 4096, 8192, 16384].contains gran

/-- The DPA after a decoder's range. -/
def Decoder.dpaEnd (d : Decoder) : Nat := d.dpa + d.size / max 1 d.ways

/-- The next decoder in order takes the DPAs after the previous one's and its skip, or Commit Error is set and nothing
changes. -/
def State.decoderCommit (s : State) (d base size skip ways gran : Nat) (lockIt : Bool) : State :=
  let prev := match s.port.decoders.getLast? with
    | some x => x.dpaEnd
    | none => 0
  let x : Decoder := { base := base, size := size, dpa := prev + skip, skip := skip, ways := ways, gran := gran,
                       locked := lockIt }
  if d ≠ s.port.decoders.length ∨ 4 ≤ d ∨ !decoderOk ways gran ∨ s.range1 < x.dpaEnd then
    { s with port := { s.port with commitErr := insertNat d s.port.commitErr } }
  else { s with port := { s.port with decoders := s.port.decoders ++ [x],
                                      commitErr := s.port.commitErr.filter (· ≠ d) } }

/-- DECODER_COMMIT. -/
def execDecoderCommit (d base size skip ways gran : Nat) (lockIt : Bool) (s : State) :
    Host.Outcome State Fault Refusal :=
  done s (s.decoderCommit d base size skip ways gran lockIt)

/-- The DPA that a committed decoder gives an HPA: the interleave bits are taken out. -/
def Decoder.toDpa (d : Decoder) (hpa : Nat) : Nat :=
  let o := hpa - d.base
  d.dpa + o / (d.gran * d.ways) * d.gran + o % d.gran

/-- The DPA of an HPA, where a committed decoder claims it. -/
def State.hdmDecode (s : State) (hpa : Nat) : Option Nat :=
  (s.port.decoders.find? fun d => decide (d.base ≤ hpa) && decide (hpa < d.base + d.size)).map fun d =>
    d.toDpa hpa

/-! ### CXL.mem (R448 to R451) -/

/-- A request that no decoder claims, or to an unbacked frame: an uncorrectable error of the RAS Capability. -/
def State.rasError (s : State) : State :=
  ({ s with port := { s.port with rasUncorr := true } }.aer .uncorrectableInternal false)

/-- The reports of a host request to an unbacked frame (R448). -/
def State.unbackedHost (s : State) (dpa : Nat) (wr : Bool) : State :=
  let s := s.rasError
  match s.frameUse dpa with
  | .drained => s.drainedAccess dpa
  | .evacuate | .retired => if wr then s.discardedWrite dpa else s
  | _ => s

/-- MetaValue and SnpType of a host request. -/
def META_INVALID := 0
def META_ANY := 2
def META_SHARED := 3
def SNP_DATA := 1
def SNP_CUR := 2
def SNP_INV := 3

/-- A BIConflict that waits on a line is answered once the host request stands behind the home's transaction
(R449). -/
def State.ackConflict (s : State) (la : Nat) : State :=
  if s.port.conflicts.contains la then
    { s with port := { s.port with conflicts := s.port.conflicts.filter (· ≠ la) } }.emit (.biConflictAck la)
  else s

/-- A host request at its home: it waits behind the home's transaction on the line, and then a DEV frame is
flipped before it is served (R376). -/
def State.hostAtHome (s : State) (c : HeldReq) (la : Nat) (act : State → State) : State :=
  let busy := s.homeBusy none (la, none)
  let t := s.atHome c none [(la, none)] fun s =>
    let s := if s.isShr la then s else s.flip (la / 4096)
    act s
  if busy then t.ackConflict la else t

/-- Sets or clears the host's presence bit on a line; setting it needs the line in the basin. -/
def State.setBit44 (s : State) (la : Nat) (on : Bool) : State :=
  let s := if on then s.fillLine false la 1 else s
  match s.basinLine false la with
  | some l => s.putLine { l with presence := if on then insertNat 44 l.presence else l.presence.filter (· ≠ 44) }
  | none => s

/-- The effect of a SnpType on the device's copies of a line. -/
def State.applySnp (s : State) (host : Bool) (la snp : Nat) : State :=
  if snp = SNP_INV then (s.recall host la).dropCopies host la none
  else if snp = SNP_DATA then
    let s := (s.snoopOwner host la .berthSnpData).recall host la
    let t : State := { s with basin := { s.basin with
      copies := s.basin.copies.map fun c =>
        if c.host == host && c.addr == la then { c with st := .s, data := [], poison := 0 } else c } }
    match t.basinLine host la with
    | some l => t.putLine { l with owner := none }
    | none => t
  else s

/-- Answers a host read with data. -/
def State.answerMem (s : State) (d : LineData) : State := s.emit (.memData d.data (decide (d.poison ≠ 0)))

/-- MEM_RD at the home. -/
def State.doMemRd (s : State) (hpa : Nat) (metaState : Bool) (metaValue snp : Nat) : State :=
  match s.hdmDecode hpa with
  | none => s.rasError.answerMem { data := List.replicate 64 0, poison := 0xFF }
  | some dpa =>
    let la := lineOf dpa
    if s.frameUse la ≠ .normal then
      (s.unbackedHost la false).answerMem { data := List.replicate 64 0, poison := 0xFF }
    else
      let c := s.actCheck (tgtHdm la) 0 NEED_R la
      if !c.2 then c.1.answerMem { data := List.replicate 64 0, poison := 0xFF }
      else
        c.1.hostAtHome (.memRd hpa metaState metaValue snp) la fun s =>
          let s := s.applySnp false la snp
          let s := if metaState && (metaValue == META_ANY || metaValue == META_SHARED) && s.port.biEnable then
              s.setBit44 la true else s
          let r := s.ncReadLine false la
          r.1.answerMem r.2

/-- A host write applied at the home: the device's copies go; the data merges into the basin line, or goes to
the stack. -/
def State.hostWriteLine (s : State) (la : Nat) (bytes : List Byte) (poison : Bool) : State :=
  let s := (s.recall false la).dropCopies false la none
  match s.basinLine false la with
  | some _ => s.bsnWrite false la 0 bytes poison true
  | none => s.homeWrite false la bytes (if poison then 0xFF else 0)

/-- MEM_WR at the home. -/
def State.doMemWr (s : State) (hpa metaValue snp : Nat) (bytes : List Byte) (poison : Bool) : State :=
  match s.hdmDecode hpa with
  | none => s.rasError.emit .memDone
  | some dpa =>
    let la := lineOf dpa
    if s.frameUse la ≠ .normal then (s.unbackedHost la true).emit .memDone
    else
      let c := s.actCheck (tgtHdm la) 0 NEED_W la
      if !c.2 then c.1.emit .memDone
      else
        c.1.hostAtHome (.memWr hpa metaValue snp bytes poison) la fun s =>
          let s := s.applySnp false la snp
          let s := s.hostWriteLine la bytes poison
          (if metaValue = META_INVALID then s.setBit44 la false else s).emit .memDone

/-- MEM_RD: in safe state every read returns poison (R612). -/
def execMemRd (hpa : Nat) (metaState : Bool) (metaValue snp : Nat) (s : State) :
    Host.Outcome State Fault Refusal :=
  done s (if s.boot.safe then s.answerMem { data := List.replicate 64 0, poison := 0xFF }
    else s.doMemRd hpa metaState metaValue snp)

/-- MEM_WR: in safe state every write is discarded (R612). -/
def execMemWr (hpa metaValue snp : Nat) (bytes : List Byte) (poison : Bool) (s : State) :
    Host.Outcome State Fault Refusal :=
  done s (if s.boot.safe then s.emit .memDone else s.doMemWr hpa metaValue snp bytes poison)

/-- MEM_CLN_EVCT: with MetaValue Invalid the host no longer holds the line (R449). -/
def execMemClnEvct (hpa metaValue : Nat) (s : State) : Host.Outcome State Fault Refusal :=
  done s (match s.hdmDecode hpa with
    | none => s.rasError.emit .memDone
    | some dpa =>
      (if metaValue = META_INVALID then s.setBit44 (lineOf dpa) false else s).emit .memDone)

/-- BICONFLICT: for a line with an outstanding BISnp, BIConflictAck follows once the home has ordered the host's
request behind its own transaction (R449). -/
def execBiconflict (dpa : Nat) (s : State) : Host.Outcome State Fault Refusal :=
  let la := lineOf dpa
  let waits := s.basin.held.any fun c =>
    match c with
    | .memRd h .. => s.hdmDecode h |>.map lineOf |>.any (· == la)
    | .memWr h .. => s.hdmDecode h |>.map lineOf |>.any (· == la)
    | _ => false
  done s (if !(s.port.bisnp.any fun b => b.1 == la) || waits then s.emit (.biConflictAck la)
    else { s with port := { s.port with conflicts := insertNat la s.port.conflicts } })

/-! ### CXL.cache (R452, R453, R379, R380) -/

/-- The answer to a snoop: the line's data where it is modified, which the host then holds. -/
def State.answerSnp (s : State) (la : Nat) : State :=
  match s.basinLine true la with
  | some l =>
    if l.dirty then { s with host := s.host.store la l.data (decide (markMask l.marks ≠ 0)) }.emit
      (.snpRsp la (some l.data))
    else s.emit (.snpRsp la none)
  | none => s.emit (.snpRsp la none)

/-- SNP_DATA: the device's copies are recalled and the line stays shared and clean. -/
def execSnpData (hpa : Nat) (s : State) : Host.Outcome State Fault Refusal :=
  let la := lineOf hpa
  let t := (s.applySnp true la SNP_DATA).answerSnp la
  done s (match t.basinLine true la with
    | some l => t.putLine { l with dirty := false }
    | none => t)

/-- SNP_INV: the device's copies are recalled and the line goes; a watched line's WATCH goes with it, and its
ring server is notified (R380). -/
def execSnpInv (hpa : Nat) (s : State) : Host.Outcome State Fault Refusal :=
  let la := lineOf hpa
  done s (((s.applySnp true la SNP_INV).answerSnp la).discardLine true la)

/-- SNP_CUR: the current data, without a change of state. -/
def execSnpCur (hpa : Nat) (s : State) : Host.Outcome State Fault Refusal :=
  let la := lineOf hpa
  let d := s.latestLine true la
  let dirty := (s.mCopy true la).isSome || (match s.basinLine true la with
    | some l => l.dirty
    | none => false)
  done s (s.emit (.snpRsp la (if dirty then some d.data else none)))

/-- The host lines that the basin holds. -/
def State.hostLines (s : State) : List Nat := (s.basin.lines.filter fun l => l.host).map fun l => l.addr

/-- A host line written back and invalidated. -/
def State.flushHostLine (s : State) (la : Nat) : State :=
  ((s.cleanLine true la).dropCopies true la none).discardLine true la

/-- Every host line is written back and invalidated, and Cache Invalid is set (R453). -/
def State.cacheFlush (s : State) : State :=
  let t := s.hostLines.foldl State.flushHostLine s
  { t with port := { t.port with cacheInvalid := true } }

/-- CACHE_WRITEBACK_INVALIDATE. -/
def execCacheWritebackInvalidate (s : State) : Host.Outcome State Fault Refusal := done s s.cacheFlush

/-- GPF_PHASE1: every modified host line is written back. -/
def execGpfPhase1 (s : State) : Host.Outcome State Fault Refusal :=
  done s (s.hostLines.foldl (fun s la => s.cleanLine true la) s)

/-- CXL_CACHE_HOST_RESPONSE: the host's data for a D2H request completes the fill or eviction of a host line. -/
def execCxlCacheHostResponse (hpa : Nat) (data : Option (List Byte)) (poison : Bool) (s : State) :
    Host.Outcome State Fault Refusal :=
  let la := lineOf hpa
  done s (match data with
    | none => s
    | some d =>
      let s := { s with host := s.host.store la (d.take 64) poison }
      match s.basinLine true la with
      | some l =>
        if l.dirty || l.owner.isSome then s
        else s.putLine { l with data := putAt l.data 0 (d.take 64),
                                marks := if poison then (List.range 8).map fun i => (i, 3) else [] }
      | none => s)

/-! ### Tags, interrupts, viral and IDE -/

/-- TAG_QUARANTINE_EXPIRY: the tag frees, and a waiting request may take it (R459). -/
def execTagQuarantineExpiry (tag : Nat) (s : State) : Host.Outcome State Fault Refusal :=
  let t : State := { s with port := { s.port with quarantine := s.port.quarantine.filter (· ≠ tag)
                                                  stale := s.port.stale.filter (· ≠ tag) } }
  done s (t.pumpReads t.port.waitingRd.length)

/-- A vector's mask bit clears, and a pending vector sends its message (R475). -/
def State.unmask (s : State) (vec : Nat) : State :=
  let t := if s.port.msixEn then s.setBit (MSIX_TABLE + 16 * vec + 12) 0 false
    else { s with port := { s.port with msiMasked := s.port.msiMasked.filter (· ≠ vec) } }
  if t.port.pendingVec.contains vec && !t.vecMasked vec then
    { t with port := { t.port with pendingVec := t.port.pendingVec.filter (· ≠ vec) } }.sendVec vec
  else t

/-- VECTOR_UNMASK: the MSI-X mask bit lies in BAR0. -/
def execVectorUnmask (vec : Nat) (s : State) : Host.Outcome State Fault Refusal :=
  done s (if s.boot.safe && s.port.msixEn then s else s.unmask vec)


/-- IDE_CHECK_FAILED: the stream is Insecure and IDE Check Failed is raised (R474). -/
def execIdeCheckFailed (cachemem : Bool) (s : State) : Host.Outcome State Fault Refusal :=
  let t := s.aer .ideCheckFailed false
  done s { t with port := if cachemem then { t.port with ideMem := 2 } else { t.port with ideIo := 2 } }

/-! ### SPDM (R473) -/

/-- Bytes of a reply that the spec names without stating. -/
def State.spdmFree (s : State) (code n : Nat) : State × List Byte :=
  let d := s.draw
  (d.2, (List.range n).map fun i => Config.spdmByte code d.1 i)

/-- A reply with a response code; `0x7F` is ERROR. -/
def State.spdmReply (s : State) (code session : Nat) (bs : List Byte) : State := s.emit (.spdm code session bs)
def State.spdmError (s : State) : State := s.spdmReply 0x7F 0 []

/-- GET_VERSION: versions 1.2 and 1.3; a new connection begins. -/
def execGetVersion (s : State) : Host.Outcome State Fault Refusal :=
  let t : State := { s with port := { s.port with spdmVersion := true, spdmAlgo := false } }
  done s (t.spdmReply 0x04 0 [0x12, 0x13])

/-- GET_CAPABILITIES. -/
def execGetCapabilities (s : State) : Host.Outcome State Fault Refusal :=
  done s (if s.port.spdmVersion then s.spdmReply 0x61 0 [] else s.spdmError)

/-- NEGOTIATE_ALGORITHMS: bit 0 of the offer says that it holds ECDSA P-384, SHA-384, secp384r1 key exchange and
AES-256-GCM. -/
def execNegotiateAlgorithms (offered : Nat) (s : State) : Host.Outcome State Fault Refusal :=
  done s (if s.port.spdmVersion && bitOf offered 0 then
      { s with port := { s.port with spdmAlgo := true } }.spdmReply 0x63 0 [1]
    else s.spdmError)

/-- GET_DIGESTS: the SHA-384 digest of the chain in slot 0. -/
def execGetDigests (s : State) : Host.Outcome State Fault Refusal :=
  done s (if !s.port.spdmAlgo then s.spdmError
    else
      let r := s.spdmFree 0x01 48
      r.1.spdmReply 0x01 0 r.2)

/-- GET_CERTIFICATE: only slot 0 holds a chain. -/
def execGetCertificate (slot off len : Nat) (s : State) : Host.Outcome State Fault Refusal :=
  done s (if !s.port.spdmAlgo || slot ≠ 0 then s.spdmError
    else s.spdmReply 0x02 0 ((List.range len).map fun i => Config.spdmByte 0x02 0 (off + i)))

/-- CHALLENGE: a nonce and a signature under slot 0. -/
def execChallenge (slot nonce : Nat) (s : State) : Host.Outcome State Fault Refusal :=
  done s (if !s.port.spdmAlgo || slot ≠ 0 then s.spdmError
    else
      let r := s.spdmFree (0x03 + 256 * nonce) 128
      r.1.spdmReply 0x03 0 r.2)

/-- GET_MEASUREMENTS: blocks 1 to 3; block 2 is empty until firmware is ready. -/
def execGetMeasurements (index : Nat) (s : State) : Host.Outcome State Fault Refusal :=
  done s (if !s.port.spdmAlgo || index < 1 || 3 < index then s.spdmError
    else if index = 2 && !s.boot.fwReady then s.spdmReply 0x60 0 []
    else
      s.spdmReply 0x60 0 ((List.range 48).map fun i => Config.spdmByte 0x60 index i))

/-- KEY_EXCHANGE: opens one of 4 sessions. -/
def execKeyExchange (slot : Nat) (s : State) : Host.Outcome State Fault Refusal :=
  done s (match (List.range 4).find? fun i => (sfind? s.port.sessions i).isNone with
    | some i =>
      if !s.port.spdmAlgo || slot ≠ 0 then s.spdmError
      else
        let r := s.spdmFree 0x64 96
        { r.1 with port := { r.1.port with sessions := sput i 1 r.1.port.sessions } }.spdmReply 0x64 i r.2
    | none => s.spdmError)

/-- FINISH: the handshake ends, and the session is secured where the check of the request passes. -/
def execFinish (session : Nat) (ok : Bool) (s : State) : Host.Outcome State Fault Refusal :=
  done s (if sfind? s.port.sessions session ≠ some 1 then s.spdmError
    else if ok then
      { s with port := { s.port with sessions := sput session 2 s.port.sessions } }.spdmReply 0x65 session []
    else { s with port := { s.port with sessions := sdel session s.port.sessions } }.spdmError)

/-- A request inside a secured session. -/
def State.inSession (s : State) (session : Nat) (act : State → State) : State :=
  if sfind? s.port.sessions session = some 2 then act s else s.spdmError

/-- HEARTBEAT. -/
def execHeartbeat (session : Nat) (s : State) : Host.Outcome State Fault Refusal :=
  done s (s.inSession session fun s => s.spdmReply 0x68 session [])

/-- KEY_UPDATE. -/
def execKeyUpdate (session : Nat) (s : State) : Host.Outcome State Fault Refusal :=
  done s (s.inSession session fun s => s.spdmReply 0x69 session [])

/-- END_SESSION: the session's place frees. -/
def execEndSession (session : Nat) (s : State) : Host.Outcome State Fault Refusal :=
  done s (s.inSession session fun s =>
    { s with port := { s.port with sessions := sdel session s.port.sessions } }.spdmReply 0x6C session [])

end Sys2Proof.Machine
end

