-- ==== Sys2Proof/Machine/ConfigSpace.lean ====
section
/-! DEFINITION. What configuration space and the CXL component registers read as (12 R441 to R447, R456, R457, R463,
R464). The rules name the registers and their settings; the places of fields inside a register are those of the PCIe and
CXL base specifications, to which R443 and R446 point (PRESUMED: log entry 81). -/

namespace Sys2Proof.Machine

/-- A register from its fields: lowest bit and value. -/
def pack (l : List (Nat × Nat)) : Reg := BitVec.ofNat 32 (l.foldl (fun a f => a + f.2 * 2 ^ f.1) 0)

/-- A mask of `n` bits from a test. -/
def maskOfBits (n : Nat) (p : Nat → Bool) : Nat :=
  (List.range n).foldl (fun a i => a + (if p i then 2 ^ i else 0)) 0

/-- Half of a 64-bit value: 0 the lower, 1 the upper. -/
def half (v i : Nat) : Nat := v / 2 ^ (32 * i) % 2 ^ 32

/-! ### AER (R463, R464) -/

/-- A status register: the bits of the errors that are set. -/
def HostPort.aerBits (p : HostPort) (corr : Bool) : Nat :=
  maskOfBits 32 fun i => p.aer.any fun e => e.place == (corr, i)

/-- The uncorrectable errors that the device can report. -/
def AER_BITS : Nat :=
  2 ^ 4 + 2 ^ 12 + 2 ^ 13 + 2 ^ 14 + 2 ^ 15 + 2 ^ 16 + 2 ^ 17 + 2 ^ 18 + 2 ^ 20 + 2 ^ 22 + 2 ^ 27 + 2 ^ 28

/-! ### What software may write -/

/-- The writable bits of a dword that no field of the state holds on its own. -/
def cfgMask (off : Nat) : Nat :=
  (((([(0x0C, 0xFF), (0x10, 0xFC000000), (0x14, 0xFFFFFFFF), (0x18, 0xFFF00000), (0x1C, 0xFFFFFFFF), (0x20, 0xE0000000),
    (0x24, 0xFFFFFFFF), (0x3C, 0xFF), (0x54, 0xFFFFFFFC), (0x58, 0xFFFFFFFF), (0x5C, 0xFFFF), (0x78, 0x1EF), (0x80, 0xC8)] ++
    [(0x108, AER_BITS), (0x10C, AER_BITS), (0x114, 2 ^ 0 + 2 ^ 6 + 2 ^ 7 + 2 ^ 8 + 2 ^ 12 + 2 ^ 13 + 2 ^ 14 + 2 ^ 15),
     (0x118, 2 ^ 10), (0x38C, 0x4), (0x390, 0x8), (0x3A0, 0xFFFFFFFF), (0x3A4, 0xF0000000)]) : List (Nat × Nat)).find?
    fun e => e.1 == off).map Prod.snd).getD 0

/-! ### The header and the capability chain (R443, R444) -/

/-- The first dword of a capability: its ID, the next one's place, and its upper half. -/
def capHead (id next hi : Nat) : Nat := id + 2 ^ 8 * next + 2 ^ 16 * hi

/-- The first dword of an extended capability of version 1. -/
def extHead (id next : Nat) : Nat := id + 2 ^ 16 + 2 ^ 20 * next

/-- The two headers of a DVSEC: its place, length, ID and revision, and the place of the next capability. -/
def dvsecHead (off next len id : Nat) : List (Nat × Nat) :=
  [(off, extHead 0x23 next), (off + 4, 0x1E98 + 2 ^ 20 * len), (off + 8, id)]

/-- The value of a log2 field. -/
def log2Of (n : Nat) : Nat := Nat.log2 n

/-- The header. -/
def State.cfgHeader (s : State) : List (Nat × Nat) :=
  let p := s.port
  [(0x00, 0x5A4B1F2D),
   (0x04, 2 * bnat p.memSpace + 4 * bnat p.busMaster + 0x40 * bnat p.per + 0x100 * bnat p.serr + 0x100000),
   (0x08, 0x12000000 + s.fuses.stepping), (0x10, 0x4), (0x18, 0xC), (0x20, 0xC), (0x2C, Config.subsystem.toNat),
   (0x34, 0x40)]

/-- Power Management, MSI, PCI Express and MSI-X. -/
def State.cfgCaps (s : State) : List (Nat × Nat) :=
  let p := s.port
  let msi := bnat p.msiEn + 2 * 5 + 16 * log2Of p.msiCount + 0x80 + 0x100
  let msix := 2047 + 0x4000 * bnat p.funcMask + 0x8000 * bnat p.msixEn
  [(0x40, capHead 0x01 0x50 0x0003), (0x44, (if p.d3hot then 3 else 0) + 8),
   (0x50, capHead 0x05 0x70 msi), (0x60, maskOfBits 32 fun i => p.msiMasked.contains i),
   (0x64, if p.msixEn then 0 else maskOfBits 32 fun i => p.pendingVec.contains i),
   (0x70, capHead 0x10 0xB0 0x8002), (0x74, 2 + 0x20 + 0x8000 + 0x10000000),
   (0x78, 2 ^ 12 * (log2Of (p.mrrs / 128)) + 2 ^ 21 * bnat (!p.outstanding.isEmpty))] ++
  [(0x7C, 6 + 16 * 16), (0x80, if p.linkUp then 2 ^ 16 * 6 + 2 ^ 20 * 16 else 0),
   (0x94, 1 + 2 ^ 16 + 2 ^ 17), (0x98, p.ctoValue + 2 ^ 12 * bnat p.tag10), (0x9C, 2 ^ 6),
   (0xB0, capHead 0x11 0x00 msix), (0xB4, 0x20000), (0xB8, 0x28000)]

/-- The extended capabilities up to IDE. A header that AER has recorded is a free value: no command of the block carries
the header of the packet that failed (log entry 81). -/
def State.cfgExt (s : State) : List (Nat × Nat) :=
  let p := s.port
  let first := match p.aerFirst with
    | some e => e.place.2
    | none => 0
  let log (i : Nat) : Nat := match p.aerHeaders.head? with
    | some e => (Config.tlpHeader e.place.2 i).toNat
    | none => 0
  [(0x100, extHead 0x01 0x180), (0x104, p.aerBits false), (0x110, p.aerBits true), (0x118, first + 0x200),
   (0x11C, log 0), (0x120, log 1), (0x124, log 2), (0x128, log 3),
   (0x180, extHead 0x03 0x190), (0x184, Config.serial % 2 ^ 32), (0x188, Config.serial / 2 ^ 32 % 2 ^ 32),
   (0x190, extHead 0x19 0x1C0), (0x1C0, extHead 0x25 0x1D0), (0x1C4, 1), (0x1D0, extHead 0x26 0x200)] ++
  [(0x200, extHead 0x2A 0x240), (0x240, extHead 0x31 0x260), (0x260, extHead 0x27 0x2C0),
   (0x2C0, extHead 0x2F 0x300), (0x2C4, 2 + 4), (0x2C8, 4 * bnat p.tag14), (0x300, extHead 0x2E 0x320),
   (0x320, extHead 0x30 0x380), (0x324, 1)]

/-- MiB of the active basin, less disabled ways: 12 MiB in 24 ways for each slice (R445). -/
def State.basinMib (s : State) : Nat :=
  (s.fuses.reaches.map fun p => 24 - s.disabledOf true p).sum / 2

/-- The DVSECs (R444, R445). -/
def State.cfgDvsecs (s : State) : List (Nat × Nat) :=
  let p := s.port
  let caps := 1 + 2 + 4 + 2 ^ 4 + 2 ^ 6 + 2 ^ 7 + 2 ^ 8 * 2 + 2 ^ 11 + 2 ^ 14
  let size := s.range1
  dvsecHead 0x380 0x3C0 0x3C 0 ++
  [(0x388, 2 ^ 16 * caps), (0x38C, bnat p.cacheEn + 2 + 2 ^ 14 * bnat p.viralEn + 2 ^ 30 * bnat p.viralSent),
   (0x390, 2 ^ 16 * bnat p.cacheInvalid), (0x394, 2 ^ 16 * (2 + 2 ^ 8 * (s.basinMib % 256))),
   (0x398, size / 2 ^ 32 % 2 ^ 32), (0x39C, size / 2 ^ 28 % 16 * 2 ^ 28 + 2 ^ 13 * 2 + 1 + 2 * bnat p.memActive)] ++
  dvsecHead 0x3C0 0x3D0 0x10 5 ++ dvsecHead 0x3D0 0x3F0 0x20 7 ++ dvsecHead 0x3F0 0 0x14 8 ++
  [(0x3D8, 7 + 2 ^ 16 * 7), (0x3DC, 2 ^ 16 * 7), (0x3FC, 0x00100000 + 2 ^ 8), (0x400, 0)]

/-- A dword of configuration space: what the settings and the state give it, with its stored bits; 0 where the device
has no register, and so in every capability that it does not have (R442). -/
def State.cfgRead (s : State) (off : Nat) : Reg :=
  let l := (s.cfgHeader ++ s.cfgCaps ++ s.cfgExt ++ s.cfgDvsecs).filter fun e => e.1 == off
  BitVec.ofNat 32 (l.foldl (fun a e => a ||| e.2) (s.port.cfgReg off))

/-! ### Component registers (R446, R447) -/

/-- The CXL.cachemem registers: their place in BAR0. -/
def COMP := 0x101000

/-- The capabilities that the block holds, by the CXL ID of each. -/
def compCaps : List Nat := [2, 4, 5, 7, 12]

/-- The capability, and the place in it, of an offset of the CXL.cachemem registers. Where each capability lies is a free
value: the spec gives the pointers no value (log entry 81). -/
def compPlace (c : Nat) : Option (Nat × Nat) :=
  (compCaps.find? fun i => decide (Config.compPtr i ≤ c) && decide (c < Config.compPtr i + 0x100)).map fun i =>
    (i, c - Config.compPtr i)

/-- The key of a component register among the stored dwords. -/
def compKey (cap rel : Nat) : Nat := 0x10000 * cap + rel

/-- A component register by capability and place. -/
def State.compView (s : State) (cap rel : Nat) : Nat :=
  let p := s.port
  if cap = 2 then (if rel = 0 then 2 ^ 14 * bnat p.rasUncorr else 0)
  else if cap = 12 then (if rel = 4 then 2 * bnat p.biEnable else 0)
  else if cap = 5 then
    if rel = 0 then 2 + 2 ^ 8 + 2 ^ 9 + 2 ^ 12
    else if rel < 0x10 then p.cfgReg (compKey cap rel)
    else
      match p.decoders[(rel - 0x10) / 0x20]? with
      | none =>
        p.cfgReg (compKey cap rel) + (if (rel - 0x10) % 0x20 = 0x10 then
          2 ^ 11 * bnat (p.commitErr.contains ((rel - 0x10) / 0x20)) else 0)
      | some d =>
        match (rel - 0x10) % 0x20 with
        | 0x00 => d.base % 2 ^ 32
        | 0x04 => d.base / 2 ^ 32
        | 0x08 => d.size % 2 ^ 32
        | 0x0C => d.size / 2 ^ 32
        | 0x10 => log2Of (d.gran / 256) + 16 * log2Of d.ways + 2 ^ 8 * bnat d.locked + 2 ^ 9 + 2 ^ 10
        | 0x14 => d.skip % 2 ^ 32
        | 0x18 => d.skip / 2 ^ 32
        | _ => 0
  else 0

/-- A 32-bit read of the component registers' block: the capability array at its head, then the capabilities. -/
def State.compRead (s : State) (off : Nat) : Reg :=
  if off < COMP ∨ 0x110000 ≤ off then 0
  else
    let c := off - COMP
    if c = 0 then BitVec.ofNat 32 (1 + 2 ^ 16 + 2 ^ 20 + 2 ^ 24 * compCaps.length)
    else
      match (if c < 0x18 then compCaps[c / 4 - 1]? else none) with
      | some i => BitVec.ofNat 32 (i + 2 ^ 16 + 2 ^ 20 * Config.compPtr i)
      | none =>
        match compPlace c with
        | some (cap, rel) => BitVec.ofNat 32 (s.compView cap rel)
        | none => 0

end Sys2Proof.Machine
end

