-- ==== Sys2Proof/Machine/BerthMem.lean ====
section
/-! DEFINITION. A berth's own requests (R546 to R552), BAR0 accesses apart: streaming reads, writes and
atomics on HDM, moored memory and holds, doorbells, and CXL.cache. -/

namespace Sys2Proof.Machine

/-! ### Completions (R549) -/

def CPL_OK := 0
def CPL_DENIED := 1
def CPL_MALFORMED := 2
def CPL_UNBACKED := 3

/-- A completion to a berth. -/
def State.berthReply (s : State) (b tag status : Nat) (r : PBytes) : State :=
  let s := if status = CPL_MALFORMED then s.setBit (brtReg b 0x10) 2 true else s
  s.berthTx b (.berthCpl b tag status (bytesOf r) (poison64 r))

/-- The spaces of R547. -/
def SPACE_HDM := 0
def SPACE_MOORED := 1
def SPACE_HOLD := 2
def SPACE_BAR0 := 3

/-- Whether a berth streams now: an ACTIVE link admits its messages. -/
def State.berthAdmits (s : State) (b : Nat) : Bool := decide ((s.berth b).st = .active)

/-- Space and address of a message. -/
def msgSpace (m : BerthMsg) : Nat := bitsOf m.addr 51 48
def msgAddr (m : BerthMsg) : Nat := m.addr % 2 ^ 48

/-- Whether a message's fields are legal: no reserved field set, 1 to 32 words, an assigned space. -/
def msgLegal (m : BerthMsg) : Bool :=
  !m.reservedSet && decide (1 ≤ m.len) && decide (m.len ≤ 32) && decide (msgSpace m ≤ SPACE_BAR0) &&
    (msgSpace m ≠ SPACE_HOLD || decide (msgAddr m / 2 ^ 40 = 0) && decide (bitsOf (msgAddr m) 31 24 = 0)) &&
    (msgSpace m ≠ SPACE_BAR0 || decide (msgAddr m / 2 ^ 26 = 0))

/-- The data of a message with its poison, `n` words. -/
def msgData (m : BerthMsg) : PBytes :=
  (List.range (8 * m.len)).map fun i => (m.data.getD i 0, bitOf m.poison (i / 64))

/-- The hold that a message names. -/
def State.msgHold (s : State) (m : BerthMsg) : Option Nat := s.physTile (bitsOf (msgAddr m) 39 32)
def msgHoldAddr (m : BerthMsg) : Nat := msgAddr m % 2 ^ 24

/-- Whether a hold range lies in the hold. -/
def holdRange (a n : Nat) : Bool := decide (a + n ≤ HOLD_BYTES)

/-! ### WR, RD and AMO -/

/-- A write to memory or a hold, past the checks of the link. -/
def State.berthWrite (s : State) (b : Nat) (m : BerthMsg) : State :=
  let mid := MID_BERTH b
  let a := msgAddr m
  let n := 8 * m.len
  let deny (s : State) : State := s.berthReply b m.tag CPL_DENIED []
  if msgSpace m = SPACE_HDM then
    let c := s.hdmCheck mid NEED_W a n
    if !c.2 then deny c.1
    else if c.1.unbackedWrite a n then c.1.berthReply b m.tag CPL_UNBACKED []
    else
      c.1.atHome (.berthWr b m) none (touches false a n true) fun s =>
        (s.ncWrite false a 0 (msgData m) none).berthReply b m.tag CPL_OK []
  else if msgSpace m = SPACE_MOORED then
    let c := s.actCheck TGT_MOORED mid NEED_W a
    if !c.2 || s.mooredSize s.basin.moor < a + n then deny c.1
    else
      ((lineParts a (msgData m)).foldl (fun s p => s.mooredWrite p.1 p.2.1 p.2.2) c.1).berthReply b m.tag CPL_OK []
  else
    match s.msgHold m with
    | none => deny s
    | some t =>
      let h := msgHoldAddr m
      if h % 8 ≠ 0 || !holdRange h n then deny s
      else
        let c := s.actCheck (tgtHold (bitsOf a 39 32)) mid NEED_W h
        if !c.2 then deny c.1 else (c.1.holdWrite t h (msgData m)).berthReply b m.tag CPL_OK []

/-- A read of memory or a hold. -/
def State.berthRead (s : State) (b : Nat) (m : BerthMsg) : State :=
  let mid := MID_BERTH b
  let a := msgAddr m
  let n := 8 * m.len
  let deny (s : State) : State := s.berthReply b m.tag CPL_DENIED []
  if msgSpace m = SPACE_HDM then
    let c := s.hdmCheck mid NEED_R a n
    if !c.2 then deny c.1
    else
      c.1.atHome (.berthRd b m) none (touches false a n false) fun s =>
        let r := s.ncRead false a n
        r.1.berthReply b m.tag CPL_OK r.2
  else if msgSpace m = SPACE_MOORED then
    let c := s.actCheck TGT_MOORED mid NEED_R a
    if !c.2 || s.mooredSize s.basin.moor < a + n then deny c.1
    else c.1.berthReply b m.tag CPL_OK (c.1.mooredRead a n)
  else
    match s.msgHold m with
    | none => deny s
    | some t =>
      let h := msgHoldAddr m
      if !holdRange h n then deny s
      else
        let c := s.actCheck (tgtHold (bitsOf a 39 32)) mid NEED_R h
        if !c.2 then deny c.1
        else
          let r := c.1.holdRead t h n
          r.1.berthReply b m.tag CPL_OK r.2

/-- The change of a berth's atomic: FN of R171 on 8 bytes (compare-and-swap carries the compare value, then the
new one), or 8 for a grid-exact add of one element. -/
def msgChange (m : BerthMsg) : PBytes → PBytes :=
  let w (i : Nat) : Nat := leNat ((bytesOf (msgData m)).drop (8 * i) |>.take 8)
  let p := anyPoison (msgData m)
  if m.fn = 8 then
    let bits := 64 * m.len
    gridAddBytes bits (decodeGrid bits (leNat (bytesOf (msgData m)))) p
  else if m.fn = 7 then atomicBytes 7 8 (w 1) (w 0) p
  else atomicBytes m.fn 8 (w 0) 0 p

/-- Bytes that an atomic acts on: a G128 element is 16. -/
def msgAtomicBytes (m : BerthMsg) : Nat := if m.fn = 8 then 8 * m.len else 8

/-- Whether an atomic's FN and word count fit. -/
def msgAtomicOk (m : BerthMsg) : Bool :=
  if m.fn = 8 then m.len == 1 || m.len == 2 else if m.fn = 7 then m.len == 2
  else decide (m.fn < 7) && m.len == 1

/-- An atomic on HDM or moored memory. -/
def State.berthAtomic (s : State) (b : Nat) (m : BerthMsg) : State :=
  let mid := MID_BERTH b
  let a := msgAddr m
  let n := msgAtomicBytes m
  let deny (s : State) : State := s.berthReply b m.tag CPL_DENIED []
  if SPACE_MOORED < msgSpace m || a % n ≠ 0 then deny s
  else if msgSpace m = SPACE_HDM then
    let c := s.hdmCheck mid NEED_A a n
    if !c.2 then deny c.1
    else if c.1.unbackedWrite a n then c.1.berthReply b m.tag CPL_UNBACKED []
    else
      c.1.atHome (.berthAmo b m) none (touches false a n true) fun s =>
        let r := s.hdmRmw a n 0 (msgChange m)
        r.1.berthReply b m.tag CPL_OK r.2
  else
    let c := s.actCheck TGT_MOORED mid NEED_A a
    if !c.2 || s.mooredSize s.basin.moor < a + n then deny c.1
    else
      let r := c.1.mooredRmw a n (msgChange m)
      r.1.berthReply b m.tag CPL_OK r.2

/-- A request of a berth's stream that waits at a home, with whether it is marked AQ; CXL.cache requests belong to
stream 0 (R550). -/
def heldOfStream (b oid : Nat) : HeldReq → Option Bool
  | .berthWr i m | .berthRd i m | .berthAmo i m | .berthFence i m | .berthDb i m =>
    if i = b ∧ m.oid = oid then some m.aq else none
  | .berthRdCurr i _ | .berthRdShared i _ | .berthRdOwn i _ | .berthRdOwnNoData i _ =>
    if i = b ∧ oid = 0 then some false else none
  | _ => none

/-- Whether a request waits for an earlier one of its stream (R417, R418, R550): it is marked RL, or an earlier
one that still waits is marked AQ. -/
def State.streamWaits (s : State) (b oid : Nat) (release : Bool) : Bool :=
  (s.basin.held.filterMap (heldOfStream b oid)).any fun aq => aq || release

/-- A message of a berth: not admitted by a link that is not ACTIVE, malformed, refused while STREAM_EN is 0,
waiting behind its stream, or carried out. -/
def State.berthStream (s : State) (b : Nat) (m : BerthMsg) (c : HeldReq) (release legal : Bool)
    (act : State → State) : State :=
  if !s.berthAdmits b then s
  else if !legal then s.berthReply b m.tag CPL_MALFORMED []
  else if !s.bit (brtReg b 0x00) 2 then s.berthReply b m.tag CPL_DENIED []
  else if s.streamWaits b m.oid release then { s with basin := { s.basin with held := s.basin.held ++ [c] } }
  else act s

/-- WR on memory and holds. -/
def State.doBerthWr (s : State) (b : Nat) (m : BerthMsg) : State :=
  s.berthStream b m (.berthWr b m) m.rl (msgLegal m) fun s => s.berthWrite b m

/-- RD on memory and holds. -/
def State.doBerthRd (s : State) (b : Nat) (m : BerthMsg) : State :=
  s.berthStream b m (.berthRd b m) m.rl (msgLegal m) fun s => s.berthRead b m

/-- AMO. -/
def State.doBerthAmo (s : State) (b : Nat) (m : BerthMsg) : State :=
  s.berthStream b m (.berthAmo b m) m.rl (msgLegal m && (decide (m.fn ≤ 8) && msgAtomicOk m)) fun s =>
    s.berthAtomic b m

/-- FENCE: once every earlier request of its stream has completed, one completion answers it (R550). -/
def State.doBerthFence (s : State) (b : Nat) (m : BerthMsg) : State :=
  s.berthStream b m (.berthFence b m) true (!m.reservedSet) fun s => s.berthReply b m.tag CPL_OK []

/-- Whether a doorbell of a berth is accepted (R552). -/
def State.berthDbOk (s : State) (b ring : Nat) : Bool :=
  let off := brtReg b 0x08
  let c := s.fld off 9 0
  let x := s.context c
  s.bit off 31 && c ≠ 0 && (decide (x.st = .ready) || decide (x.st = .running)) && decide (ring ≤ 8) &&
    (s.ring c ring).enable

/-- DB: once every earlier request of its stream is done, the value goes, as a posted write, into the ring's doorbell
word or the completion ring's consumer word (R552). -/
def State.doBerthDb (s : State) (b : Nat) (m : BerthMsg) : State :=
  s.berthStream b m (.berthDb b m) true (!m.reservedSet && decide (m.fn ≤ 8)) fun s =>
    if s.berthDbOk b m.fn then
      (s.hostWrite (s.ring (s.fld (brtReg b 0x08) 9 0) m.fn).db (toLe 4 (bitsOf m.addr 31 0)) false).berthReply b
        m.tag CPL_OK []
    else s.berthReply b m.tag CPL_DENIED []

/-! ### CXL.cache from a berth (R551) -/

/-- A response to a berth's cache request. -/
def State.berthAnswer (s : State) (b addr : Nat) (error : Bool) (d : Option LineData) : State :=
  s.berthTx b (.berthRsp b addr error (d.map fun x => x.data) (match d with
    | some x => decide (x.poison ≠ 0)
    | none => false))

/-- A cache request: refused with an error response while CACHE_EN is 0, or by the territory's access table. -/
def State.berthCache (s : State) (b addr need : Nat) (act : State → State) : State :=
  let la := lineOf addr
  if !s.berthAdmits b then s
  else if !s.bit (brtReg b 0x00) 1 then s.berthAnswer b la true none
  else
    let c := if need = 0 then (s, true) else s.hdmCheck (MID_BERTH b) need la 64
    if !c.2 then c.1.berthAnswer b la true none else act c.1

/-- A cache request at the home of its line, behind what its berth's stream 0 waits for (R550). -/
def State.berthAtHome (s : State) (b : Nat) (c : HeldReq) (la : Nat) (wr : Bool) (act : State → State) : State :=
  if s.streamWaits b 0 false then { s with basin := { s.basin with held := s.basin.held ++ [c] } }
  else s.atHome c none (touches false la 64 wr) act

/-- Bytes that the model does not know, one fresh free value each. -/
def State.drawBytes (s : State) (n : Nat) : State × List Byte :=
  ({ s with fresh := s.fresh + n }, (List.range n).map fun i => Config.freeByte (s.fresh + i))

/-- A line that a berth owns: what the berth makes of it is not known until it writes it back. -/
def State.berthOwns (s : State) (b la : Nat) : State :=
  match s.copyOf (berthAgent b) false la with
  | some c =>
    let r := s.drawBytes 64
    r.1.putCopy { c with data := r.2 }
  | none => s

/-- RdCurr: the current data, with no change of state. -/
def State.doBerthRdCurr (s : State) (b addr : Nat) : State :=
  let la := lineOf addr
  s.berthCache b addr NEED_R fun s =>
    s.berthAtHome b (.berthRdCurr b addr) la false fun s =>
      let r := s.ncReadLine false la
      r.1.berthAnswer b la false (some r.2)

/-- RdShared: a shared read by the berth's cache. -/
def State.doBerthRdShared (s : State) (b addr : Nat) : State :=
  let la := lineOf addr
  s.berthCache b addr NEED_R fun s =>
    s.berthAtHome b (.berthRdShared b addr) la false fun s =>
      let r := s.sharedRead (berthAgent b) false la 0
      r.1.berthAnswer b la false (some r.2)

/-- RdOwn: ownership with data. -/
def State.doBerthRdOwn (s : State) (b addr : Nat) : State :=
  let la := lineOf addr
  s.berthCache b addr NEED_W fun s =>
    s.berthAtHome b (.berthRdOwn b addr) la true fun s =>
      let r := s.ownershipRead (berthAgent b) false la
      (r.1.berthOwns b la).berthAnswer b la false (some r.2)

/-- RdOwnNoData: ownership without data. -/
def State.doBerthRdOwnNoData (s : State) (b addr : Nat) : State :=
  let la := lineOf addr
  s.berthCache b addr NEED_W fun s =>
    s.berthAtHome b (.berthRdOwnNoData b addr) la true fun s =>
      ((s.ownershipRead (berthAgent b) false la).1.berthOwns b la).berthAnswer b la false none

/-- CleanEvict and CleanEvictNoData: the berth drops a clean line. -/
def State.doBerthClean (s : State) (b addr : Nat) : State :=
  let la := lineOf addr
  s.berthCache b addr 0 fun s => (s.removeCopy (berthAgent b) false la).berthAnswer b la false none

/-- DirtyEvict: the berth's data is written back at the home; from a berth that no longer owns the line it is
discarded (R373). -/
def State.doBerthDirty (s : State) (b addr : Nat) (bytes : List Byte) (poison : Bool) : State :=
  let la := lineOf addr
  s.berthCache b addr 0 fun s =>
    let s := match s.copyOf (berthAgent b) false la with
      | some c =>
        if c.st = LineSt.s then s
        else (s.putCopy { c with st := .m, data := putAt (List.replicate 64 0) 0 (bytes.take 64),
                                 poison := if poison then 0xFF else 0 }).writeBack (berthAgent b) false la
      | none => s
    s.berthAnswer b la false none

end Sys2Proof.Machine
end

