-- ==== Sys2Proof/Machine/Landings.lean ====
section
/-! DEFINITION. Landings (R200, R421): a barge or a global access that completes. -/

namespace Sys2Proof.Machine

/-- The HDM lines that a side of a barge touches. -/
def State.sideTouches (s : State) (t kind : Nat) (runs : List (Nat × Nat)) (wr : Bool) : List Touch :=
  if kind ≠ 4 then []
  else runs.flatMap fun x => (s.segs t x.1 x.2).2.flatMap fun g => touches g.host g.pa g.len wr

/-- Every HDM line that a barge touches. -/
def State.bargeTouches (s : State) (t : Nat) (b : BargeInst) (d : Desc) : List Touch :=
  s.sideTouches t d.srcKind (d.reads b.index) false ++ s.sideTouches t d.dstKind (d.writes b.index) true

/-- Whether a barge writes to host memory or a peer while no write can leave the host port: it lands only once its writes
have left (R200, R466). -/
def State.bargeShut (s : State) (t : Nat) (b : BargeInst) : Bool :=
  let d := descOf b.desc
  !s.port.ioOpen && d.dstKind == 4 && (d.writes b.index).any fun x => (s.segs t x.1 x.2).2.any fun g => g.host

/-- Whether a barge has started, its outside requests have all ended (its host reads and its berth messages), and its
writes can leave. -/
def State.bargeReady (s : State) (t : Nat) (b : BargeInst) : Bool :=
  b.started && !s.ioBusy (.barge t b.id) && b.berthTags.isEmpty && !s.bargeShut t b

/-- BARGE_LANDING: the barge's bytes are moved and it lands. One that still waits for its host reads or berth
completions does not land yet, and one to a remote hold lands at its acknowledgement (R258). -/
def State.doBargeLanding (s : State) (t id : Nat) : State :=
  let s := s.bargeStart t id
  match s.barge? t id with
  | none => s
  | some b =>
    let d := descOf b.desc
    if !s.bargeReady t b || d.dstKind = 5 then s
    else if d.dstKind = 6 then s.landBarge t id
    else
      s.atHome (.bargeLanding t id) none (s.bargeTouches t b d) fun s => (s.moveBarge t b).landBarge t id

/-- The HDM lines that a global access touches. -/
def State.accessTouches (s : State) (t : Nat) (a : Access) : List Touch :=
  match a.kind with
  | .fence => []
  | .gld _ => (s.segs t a.va a.size).2.flatMap fun g => touches g.host g.pa g.len false
  | _ => (s.segs t a.va a.size).2.flatMap fun g => touches g.host g.pa g.len true

/-- GLOBAL_ACCESS_LANDING: an access that nothing earlier holds back is performed and lands. -/
def State.doAccessLanding (s : State) (t id : Nat) : State :=
  match (s.tile t).accs.find? fun a => a.id == id with
  | none => s
  | some a =>
    if (earlier (s.tile t).accs id).any a.waitsFor || s.accessShut t a then s
    else
      s.atHome (.globalAccessLanding t id) none (s.accessTouches t a) fun s => s.landAccess t id

/-- GLOBAL_ACCESS_LANDING. -/
def execGlobalAccessLanding (t id : Nat) (s : State) : Host.Outcome State Fault Refusal :=
  doneLive s (s.doAccessLanding t id)

/-- BARGE_LANDING. -/
def execBargeLanding (t id : Nat) (s : State) : Host.Outcome State Fault Refusal :=
  doneLive s (s.doBargeLanding t id)

end Sys2Proof.Machine
end

