-- ==== Sys2Proof/Machine/Lockkeepers.lean ====
section
/-! DEFINITION. Lockkeeper accesses (11): the store buffer, loads, atomics, reservations and pins. -/

namespace Sys2Proof.Machine

/-- The presence-bit index of a lockkeeper's L1 (R369). -/
def lkAgent (k : Nat) : Nat := 16 + k

/-- A precise fault that a lockkeeper takes on an access. -/
def State.lkTrap (s : State) (k : Nat) (store : Bool) : State := s.emit (.lkFault k store)

/-- Whether an access is misaligned or of a size that no access has (R414). -/
def badAccess (addr size : Nat) : Bool := !([1, 2, 4, 8].contains size) || decide (addr % size ≠ 0)

/-! ### The store buffer (R429) -/

/-- The bytes of a store within its word: mask and data. -/
def sbPart (addr size value : Nat) : Nat × Nat :=
  ((2 ^ size - 1) * 2 ^ (addr % 8), value % 2 ^ (8 * size) * 2 ^ (8 * (addr % 8)))

/-- An entry with more bytes written. -/
def SbEntry.merge (e : SbEntry) (mask data : Nat) : SbEntry :=
  { e with mask := e.mask ||| mask,
           data := leNat ((List.range 8).map fun i =>
             if bitOf mask i then BitVec.ofNat 8 (data / 256 ^ i) else BitVec.ofNat 8 (e.data / 256 ^ i)) }

/-- The runs of bytes that an entry writes: offset and bytes (fuel: 8). -/
def sbRuns (mask data : Nat) : List (Nat × List Byte) :=
  (List.range 8).foldl (fun l i =>
    if !bitOf mask i then l
    else
      let b : Byte := BitVec.ofNat 8 (data / 256 ^ i)
      match l.getLast? with
      | some (o, bs) => if o + bs.length = i then l.dropLast ++ [(o, bs ++ [b])] else l ++ [(i, [b])]
      | none => [(i, [b])]) []

/-- Bytes of a store that a lockkeeper's L1 writes through, by the attribute of its page (R365, R366): a WB line is in the
basin, which takes the bytes and is dirty; a WT line's bytes go on to memory; under both the hart's own copy stays in
S, and under NA it goes with the rest; a UC page is written where it lies. -/
def State.throughStore (s : State) (k : Nat) (host : Bool) (attr a : Nat) (bs : List Byte) : State :=
  if s.isUc host attr then s.ucWrite host a (bs.map fun b => (b, false))
  else if attr = 0 then (s.fillLine host (lineOf a) 1).ncWriteLine host a 0 bs false (some (lkAgent k))
  else s.ncWriteLine host a attr bs false (if attr = 1 then some (lkAgent k) else none)

/-- A store-buffer entry performed at its home: refused by the target's access table it is discarded with a
message (R433). -/
def State.performStore (s : State) (k : Nat) (e : SbEntry) : State :=
  let runs := sbRuns e.mask e.data
  if e.host then runs.foldl (fun s r => s.throughStore k true e.attr (e.word + r.1) r.2) s
  else
    let c := s.hdmCheck (MID_LK k) NEED_W e.word 8
    if !c.2 then
      c.1.fault { msgOf K_LK_STORE_DENIED 6 k with addr := e.word, status := ST_ACCESS_DENIED }
    else
      runs.foldl (fun s r => s.throughStore k false e.attr (e.word + r.1) r.2) c.1

/-- STORE_BUFFER_DRAIN: the oldest entry leaves and is performed. -/
def State.doDrain (s : State) (k : Nat) : State :=
  match (s.lk k).sb with
  | [] => s
  | e :: _ =>
    if s.basin.held.contains (.storeBufferDrain k) then s else
    s.atHome (.storeBufferDrain k) (some k) (touches e.host e.word 8 true) fun s =>
      (s.modLk k fun x => { x with sb := x.sb.drop 1 }).performStore k e

/-- Drains entries until `n` have left or one has to wait at its home. -/
def State.drainSome (s : State) (k : Nat) : Nat → State
  | 0 => s
  | n + 1 =>
    let before := (s.lk k).sb.length
    let t := s.doDrain k
    if (t.lk k).sb.length < before then t.drainSome k n else t

/-- Drains the whole buffer. -/
def State.drainAll (s : State) (k : Nat) : State := s.drainSome k (s.lk k).sb.length

/-- Runs an action once the store buffer is empty; while an entry waits at its home, the command waits too. -/
def State.afterDrain (s : State) (k : Nat) (c : HeldReq) (act : State → State) : State :=
  let t := s.drainAll k
  if (t.lk k).sb.isEmpty then act t
  else { t with basin := { t.basin with held := t.basin.held ++ [c] } }

/-- LK_STORE: the store merges into a waiting entry of its word or takes a new one; with all 16 in use the
oldest leaves first (R429). It cancels the hart's own reservation on the line (R424). -/
def State.doLkStore (s : State) (k : Nat) (host : Bool) (addr attr size value : Nat) : State :=
  if badAccess addr size then s.lkTrap k true
  else
    let s := if (s.lk k).regBad then
        (s.modLk k fun x => { x with regBad := false }).report 0x62 6 k addr else s
    let w := addr / 8 * 8
    let p := sbPart addr size value
    let hit := (s.lk k).sb.any fun e => e.word == w && e.host == host && e.attr == attr
    let t := if hit then s else s.drainSome k ((s.lk k).sb.length - 15)
    if !hit && decide (16 ≤ (t.lk k).sb.length) then
      { t with basin := { t.basin with held := t.basin.held ++ [.lkStore k host addr attr size value] } }
    else
      t.modLk k fun x =>
        { x with sb := if hit then x.sb.map fun e =>
                         if e.word = w ∧ e.host = host ∧ e.attr = attr then e.merge p.1 p.2 else e
                       else x.sb ++ [{ word := w, host := host, attr := attr, mask := p.1, data := p.2 }],
                 resv := if !host && x.resv == some (lineOf addr) then none else x.resv }

/-! ### Loads -/

/-- Delivers a loaded value, or the precise fault of a poisoned one (R336). -/
def State.lkDeliver (s : State) (k : Nat) (r : PBytes) : State :=
  if anyPoison r then s.lkTrap k false else s.emit (.lkData k (leNat (bytesOf r)))

/-- A load's read, past its access-table check: through the L1 for a cached page, through the port for host
memory while CXL.cache is off. -/
def State.lkRead (s : State) (k : Nat) (host : Bool) (addr size attr : Nat) : State :=
  let s := if (s.lk k).inject = some 2 then (s.lkInjUsed k).modLk k fun x => { x with regBad := true } else s
  let la := lineOf addr
  if s.isUc host attr then
    (if host then s.ioRequest (.lockkeeper k) addr size
     else
       let r := s.ucRead false addr size
       r.1.lkDeliver k r.2)
  else
    let r := s.agentRead (lkAgent k) host la attr
    r.1.lkDeliver k (r.2.part la addr size)

/-- LK_LOAD: bytes that all lie in one store-buffer entry come from it; a load that overlaps an entry in part
waits until that entry is GO (R429). -/
def State.doLkLoad (s : State) (k : Nat) (host : Bool) (addr attr size : Nat) : State :=
  if badAccess addr size then s.lkTrap k false
  else
    let p := sbPart addr size 0
    match (s.lk k).sb.find? fun e => e.word == addr / 8 * 8 && e.host == host && e.mask &&& p.1 ≠ 0 with
    | some e =>
      if e.mask &&& p.1 = p.1 then s.emit (.lkData k (e.data / 2 ^ (8 * (addr % 8)) % 2 ^ (8 * size)))
      else s.afterDrain k (.lkLoad k host addr attr size) fun s => s.lkRead k host addr size attr
    | none =>
      let c := if host then (s, true) else s.hdmCheck (MID_LK k) NEED_R addr size
      if !c.2 then c.1.lkTrap k false
      else
        c.1.atHome (.lkLoad k host addr attr size) (some k) (touches host addr size false) fun s =>
          s.lkRead k host addr size attr

/-! ### Atomics and reservations -/

/-- The line's home holds back other requests while a hart's pin lasts; the pin ends here (R426). -/
def State.unpin (s : State) (k : Nat) : State :=
  { s with basin := { s.basin with pins := s.basin.pins.filter fun p => p.2 ≠ k } }

/-- LK_AMO: an atomic at the place of R382; it waits for the earlier buffered stores. To host memory it takes
an access fault. -/
def State.doLkAmo (s : State) (k : Nat) (host : Bool) (addr attr fn size operand compare : Nat) (aq rl : Bool) :
    State :=
  if badAccess addr size || size < 4 || host then s.lkTrap k true
  else
    s.afterDrain k (.lkAmo k host addr attr fn size operand compare aq rl) fun s =>
      let c := s.hdmCheck (MID_LK k) NEED_A addr size
      if !c.2 then c.1.lkTrap k true
      else
        c.1.atHome (.lkAmo k host addr attr fn size operand compare aq rl) (some k)
          (touches false addr size true) fun s =>
          let r := s.hdmRmw addr size attr (atomicBytes fn size operand compare false)
          let t := r.1.loseResv k false (lineOf addr)
          if anyPoison r.2 then t.lkTrap k true else t.emit (.lkData k (leNat (bytesOf r.2)))

/-- The read of an LR: the reservation is set on the line, and after a failed SC to it the line is pinned at
its home (R423, R426). -/
def State.lrRead (s : State) (k addr attr size : Nat) : State :=
  let la := lineOf addr
  let r := s.agentRead (lkAgent k) false la attr
  let b := r.2.part la addr size
  if anyPoison b then r.1.lkTrap k false
  else
    let pin := (r.1.lk k).failedSc == some la && !(r.1.basin.pins.any fun p => p.1 == la)
    let t := r.1.modLk k fun x => { x with resv := some la }
    let t := if pin then { t with basin := { t.basin with pins := t.basin.pins ++ [(la, k)] } } else t
    t.emit (.lkData k (leNat (bytesOf b)))

/-- LR: only on WB and WT pages of HDM (R423). -/
def State.doLr (s : State) (k : Nat) (host : Bool) (addr attr size : Nat) (aq rl : Bool) : State :=
  if badAccess addr size || size < 4 || host || 1 < attr then s.lkTrap k false
  else
    let go (s : State) : State :=
      let c := s.hdmCheck (MID_LK k) NEED_R addr size
      if !c.2 then c.1.lkTrap k false
      else
        c.1.atHome (.lr k host addr attr size aq rl) (some k) (touches false addr size false) fun s =>
          s.lrRead k addr attr size
    s.afterDrain k (.lr k host addr attr size aq rl) go

/-- Whether a hart's reservation holds at the home: it is set on the line and the hart's presence bit is
still set (R425). -/
def State.resvHolds (s : State) (k la : Nat) : Bool :=
  (s.lk k).resv == some la &&
    (match s.basinLine false la with
     | some l => l.presence.contains (lkAgent k)
     | none => false)

/-- SC at the home: it writes only while the reservation holds; the reservation and the pin end either way. -/
def State.scWrite (s : State) (k addr attr size value : Nat) : State :=
  let la := lineOf addr
  let ok := s.resvHolds k la
  let t := s.modLk k fun x => { x with resv := none, failedSc := if ok then none else some la }
  let t := t.unpin k
  let t := if ok then t.ncWriteLine false addr attr (toLe size value) false (some (lkAgent k)) else t
  t.emit (.scResult k (!ok))

/-- SC: elsewhere than on WB and WT pages of HDM it takes a store access fault. -/
def State.doSc (s : State) (k : Nat) (host : Bool) (addr attr size value : Nat) (aq rl : Bool) : State :=
  if badAccess addr size || size < 4 || host || 1 < attr then
    (s.modLk k fun x => { x with resv := none }).lkTrap k true
  else
    s.afterDrain k (.sc k host addr attr size value aq rl) fun s =>
      let c := s.hdmCheck (MID_LK k) NEED_W addr size
      if !c.2 then ((c.1.modLk k fun x => { x with resv := none }).unpin k).lkTrap k true
      else
        c.1.atHome (.sc k host addr attr size value aq rl) (some k) (touches false addr size true) fun s =>
          s.scWrite k addr attr size value

end Sys2Proof.Machine
end

