-- ==== Sys2Proof/Machine/HomeRun.lean ====
section
/-! DEFINITION. Requests that waited at their home run again (R370, R426, R449), and the commands of
lockkeepers and berth caches that may make others wait. -/

namespace Sys2Proof.Machine

/-! ### Lockkeeper commands that wait for the store buffer (R429 to R432) -/

/-- LK_FENCE: a full fence, complete once the store buffer is empty. -/
def State.doLkFence (s : State) (k : Nat) : State := s.afterDrain k (.lkFence k) fun s => s

/-- FENCE.I: the hart's instruction cache is invalidated once the store buffer is empty. The refill that follows
uses an armed injection on the instruction cache (R386, R625). -/
def State.doFenceI (s : State) (k : Nat) : State :=
  s.afterDrain k (.fenceI k) fun s =>
    let s := s.modLk k fun x => { x with icache := [] }
    if (s.lk k).inject = some 1 then (s.lkInjUsed k).report K_LK_PARITY 6 k 0 else s

/-- Trap entry: the reservation goes, younger stores are discarded, and the older ones become GO before the
handler starts (R424, R430). -/
def State.doTrapEntry (s : State) (k older : Nat) : State :=
  (s.modLk k fun x => { x with sb := x.sb.take older, resv := none }).afterDrain k (.trapEntry k older) fun s => s

/-- A power-down takes effect once the store buffer is empty and no access of the hart is outstanding (R432). -/
def State.doLkPowerDown (s : State) (k : Nat) : State :=
  s.afterDrain k (.lkPowerDown k) fun s =>
    if s.ioBusy (.lockkeeper k) then
      { s with basin := { s.basin with held := s.basin.held ++ [.lkPowerDown k] } }
    else s.modLk k fun x => { x with sleeping := true }

/-! ### Requests that waited -/

/-- A request goes on waiting. -/
def State.holdReq (s : State) (c : HeldReq) : State :=
  { s with basin := { s.basin with held := s.basin.held ++ [c] } }

/-- A request that waited runs again; a berth's access to BAR0 goes on at the next idle step. -/
def homeRun (s : State) : HeldReq → State
  | .sharedRead agent host addr attr => s.doSharedRead agent host addr attr
  | .ownershipRead agent host addr => s.doOwnershipRead agent host addr
  | .nonCachingRead host addr len => s.doNonCachingRead host addr len
  | .nonCachingWrite host addr attr bytes poison => s.doNonCachingWrite host addr attr bytes poison
  | .atomic addr attr fn size operand compare moored => s.doAtomic addr attr fn size operand compare moored
  | .storeBufferDrain k => s.doDrain k
  | .lkLoad k host addr attr size => s.doLkLoad k host addr attr size
  | .lkStore k host addr attr size value => s.doLkStore k host addr attr size value
  | .lkAmo k host addr attr fn size operand compare aq rl =>
    s.doLkAmo k host addr attr fn size operand compare aq rl
  | .lr k host addr attr size aq rl => s.doLr k host addr attr size aq rl
  | .sc k host addr attr size value aq rl => s.doSc k host addr attr size value aq rl
  | .lkFence k => s.doLkFence k
  | .fenceI k => s.doFenceI k
  | .trapEntry k older => s.doTrapEntry k older
  | .lkPowerDown k => s.doLkPowerDown k
  | .memRd hpa metaState metaValue snp => s.doMemRd hpa metaState metaValue snp
  | .memWr hpa metaValue snp bytes poison => s.doMemWr hpa metaValue snp bytes poison
  | .berthWr b m => if msgSpace m = SPACE_BAR0 then s.holdReq (.berthWr b m) else s.doBerthWr b m
  | .berthRd b m => if msgSpace m = SPACE_BAR0 then s.holdReq (.berthRd b m) else s.doBerthRd b m
  | .berthAmo b m => s.doBerthAmo b m
  | .berthFence b m => s.doBerthFence b m
  | .berthDb b m => s.doBerthDb b m
  | .berthRdCurr b addr => s.doBerthRdCurr b addr
  | .berthRdShared b addr => s.doBerthRdShared b addr
  | .berthRdOwn b addr => s.doBerthRdOwn b addr
  | .berthRdOwnNoData b addr => s.doBerthRdOwnNoData b addr
  | .bargeLanding t id => s.doBargeLanding t id
  | .globalAccessLanding t id => s.doAccessLanding t id

/-- Every request that waits at a home is tried again, oldest first; one that still has to wait keeps its
place. -/
def State.retryHeld (s : State) : State :=
  s.basin.held.foldl homeRun { s with basin := { s.basin with held := [] } }

/-! ### Responses of the host (R377, R449) -/

/-- The data that a back-invalidation response brings is merged at the home. -/
def State.takeHostData (s : State) (la : Nat) (d : List Byte) : State :=
  match s.basinLine false la with
  | some _ => s.bsnWrite false la 0 (putAt (List.replicate 64 0) 0 (d.take 64)) false true
  | none => s.homeWrite false la (putAt (List.replicate 64 0) 0 (d.take 64)) 0

/-- A back-invalidation response: it answers the line's outstanding snoop, whose BITag goes to the next snoop that waits
for one; its data is taken, bit 44 is cleared where the host reports that it no longer holds the line, and the requests
that waited run. -/
def State.birsp (s : State) (dpa : Nat) (data : Option (List Byte)) (gone : Bool) : State :=
  let la := lineOf dpa
  match s.port.bisnp.find? fun b => b.1 == la with
  | none => s
  | some (_, inv) =>
    let left := s.port.bisnp.filter fun b => b.1 ≠ la
    let sent := s.port.bisnp.take BITAGS
    let s : State := { s with port := { s.port with
      bisnp := left
      curOk := if inv || gone then s.port.curOk else insertNat la s.port.curOk } }
    let s := ((left.take BITAGS).filter fun b => !sent.contains b).foldl State.sendSnoop s
    let s := match data with
      | some d => s.takeHostData la d
      | none => s
    let s := if gone then s.setBit44 la false else s
    s.retryHeld.ackConflict la

/-! ### Lockkeepers -/

/-- LK_LOAD. -/
def execLkLoad (k : Nat) (page : LkPage) (addr size : Nat) (s : State) : Host.Outcome State Fault Refusal :=
  doneLive s (s.doLkLoad k page.host addr page.attr size)

/-- LK_STORE. -/
def execLkStore (k : Nat) (page : LkPage) (addr size value : Nat) (s : State) : Host.Outcome State Fault Refusal :=
  doneLive s (s.doLkStore k page.host addr page.attr size value)

/-- LK_FENCE. -/
def execLkFence (k : Nat) (s : State) : Host.Outcome State Fault Refusal := doneLive s (s.doLkFence k)

/-- FENCE_I. -/
def execFenceI (k : Nat) (s : State) : Host.Outcome State Fault Refusal := doneLive s (s.doFenceI k)

/-- LK_AMO. -/
def execLkAmo (k : Nat) (host : Bool) (addr attr fn size operand compare : Nat) (aq rl : Bool) (s : State) :
    Host.Outcome State Fault Refusal :=
  doneLive s (s.doLkAmo k host addr attr fn size operand compare aq rl)

/-- LR. -/
def execLr (k : Nat) (host : Bool) (addr attr size : Nat) (aq rl : Bool) (s : State) :
    Host.Outcome State Fault Refusal :=
  doneLive s (s.doLr k host addr attr size aq rl)

/-- RESERVATION_EXPIRY: 4,096 lockkeeper cycles have passed without an SC. -/
def execReservationExpiry (k : Nat) (s : State) : Host.Outcome State Fault Refusal :=
  doneLive s (s.modLk k fun x => { x with resv := none })

/-- TRAP_ENTRY. -/
def execTrapEntry (k older : Nat) (s : State) : Host.Outcome State Fault Refusal := doneLive s (s.doTrapEntry k older)

/-- LK_POWER_DOWN. -/
def execLkPowerDown (k : Nat) (s : State) : Host.Outcome State Fault Refusal := doneLive s (s.doLkPowerDown k)

/-- LK_WATCHDOG_EXPIRY: a TRANSIENT message of the lockkeeper (R601). -/
def execLkWatchdogExpiry (k : Nat) (s : State) : Host.Outcome State Fault Refusal :=
  doneLive s (s.fault (msgOf K_LK_WATCHDOG 6 k))

/-! ### Berths -/

/-- DRAIN of a berth is written 0: a DRAINED berth is ACTIVE again (R565). -/
def State.berthUndrain (s : State) (b : Nat) : State :=
  if !s.berthFused b then s
  else
    let t := s.setBit (brtReg b 0x00) 3 false
    if (s.berth b).st = .drained then t.berthTo b .active else t

/-- BERTH_UNDRAIN. -/
def execBerthUndrain (b : Nat) (s : State) : Host.Outcome State Fault Refusal := doneLive s (s.berthUndrain b)

/-- BERTH_AMO. -/
def execBerthAmo (b : Nat) (m : BerthMsg) (s : State) : Host.Outcome State Fault Refusal := doneLive s (s.doBerthAmo b m)

/-- BERTH_FENCE. -/
def execBerthFence (b : Nat) (m : BerthMsg) (s : State) : Host.Outcome State Fault Refusal :=
  doneLive s (s.doBerthFence b m)

/-- BERTH_DB. -/
def execBerthDb (b : Nat) (m : BerthMsg) (s : State) : Host.Outcome State Fault Refusal := doneLive s (s.doBerthDb b m)

/-- BERTH_RD_CURR. -/
def execBerthRdCurr (b addr : Nat) (s : State) : Host.Outcome State Fault Refusal := doneLive s (s.doBerthRdCurr b addr)

/-- BERTH_RD_SHARED. -/
def execBerthRdShared (b addr : Nat) (s : State) : Host.Outcome State Fault Refusal :=
  doneLive s (s.doBerthRdShared b addr)

/-- BERTH_RD_OWN. -/
def execBerthRdOwn (b addr : Nat) (s : State) : Host.Outcome State Fault Refusal := doneLive s (s.doBerthRdOwn b addr)

/-- BERTH_RD_OWN_NO_DATA. -/
def execBerthRdOwnNoData (b addr : Nat) (s : State) : Host.Outcome State Fault Refusal :=
  doneLive s (s.doBerthRdOwnNoData b addr)

/-- BERTH_CLEAN_EVICT. -/
def execBerthCleanEvict (b addr : Nat) (s : State) : Host.Outcome State Fault Refusal := doneLive s (s.doBerthClean b addr)

/-- BERTH_CLEAN_EVICT_NO_DATA. -/
def execBerthCleanEvictNoData (b addr : Nat) (s : State) : Host.Outcome State Fault Refusal :=
  doneLive s (s.doBerthClean b addr)

/-- BERTH_DIRTY_EVICT. -/
def execBerthDirtyEvict (b addr : Nat) (bytes : List Byte) (poison : Bool) (s : State) :
    Host.Outcome State Fault Refusal :=
  doneLive s (s.doBerthDirty b addr bytes poison)

end Sys2Proof.Machine
end

