-- ==== Sys2Proof/Machine/RingCore.lean ====
section
/-! DEFINITION. What every ring command shares (13): completion records, the faulting of a context, waits,
object handles, and the translation and movement of a command's bytes. -/

namespace Sys2Proof.Machine

/-! ### Status codes (R502) -/

def ST_OK := 0x0000
def ST_STATE_REJECT := 0x0001
def ST_OBJECT_STALE := 0x0002
def ST_TRANSLATION_FAULT := 0x0004
def ST_REFUSED_AT_LOAD := 0x0005
def ST_POISON := 0x0006
def ST_CONTEXT_ABORTED := 0x0007
def ST_FLIGHT_HALTED := 0x0008
def ST_DEVICE_RETIRED := 0x0009
def ST_BAD_DESCRIPTOR := 0x000A
def ST_TIMEOUT := 0x000B
def ST_OVERFLOW_DROPS := 0x000C
def ST_DOORBELL_RANGE := 0x0100
def ST_DESCRIPTOR_UNREADY := 0x0101
def ST_FENCE_ABANDONED := 0x0102
def ST_FENCE_REGRESS := 0x0103
def ST_START_MISSED := 0x0200
def ST_START_PASSED := 0x0201
def ST_MEMORY_UNBACKED := 0x0400
def ST_DEVICE_HALTED := 0x0600

/-- How a command ends: its status, detail and result (R500). -/
structure Fin where
  status : Nat := 0
  detail : Nat := 0
  result : Nat := 0
  deriving DecidableEq, Repr

/-- A command being executed: its context and ring, its header, and the offsets of bytes that R496 requires to be
0 and that are not. -/
structure Cmd where
  c   : Nat
  r   : Nat
  h   : DescHdr
  pre : List Nat := []
  deriving DecidableEq, Repr

/-! ### Completion records (R489, R495, R500) -/

/-- Ring 8 is the completion ring. -/
def CPL_RING := 8

/-- A record's 32 bytes with PHASE 0. -/
def State.recordBytes (s : State) (r seq : Nat) (f : Fin) : List Byte :=
  toLe 4 seq ++ toLe 2 f.status ++ toLe 2 (2 * r) ++ toLe 8 s.poundNow ++ toLe 4 s.offsetNow ++
  toLe 4 f.detail ++ toLe 8 f.result

/-- The record with its PHASE bit. -/
def withPhase (rec_ : List Byte) (phase : Bool) : List Byte :=
  match rec_.drop 6 with
  | b :: rest => rec_.take 6 ++ (if phase then b ||| 1 else b) :: rest
  | [] => rec_

/-- The submission ring that a record names. -/
def recordRing (rec_ : List Byte) : Nat := bitsOf (leNat ((rec_.drop 6).take 2)) 3 1

/-- The consumer word of a completion ring, as last written by the driver. -/
def State.cplConsumed (s : State) (c : Nat) : Nat :=
  leNat (bytesOf (s.latest true (s.ring c CPL_RING).db 8)) % 2 ^ 32

/-- Whether the next record has room. -/
def State.cplRoom (s : State) (c : Nat) : Bool :=
  let x := s.ring c CPL_RING
  x.enable && decide ((x.count + 2 ^ 32 - s.cplConsumed c) % 2 ^ 32 < 2 ^ x.log2n)

/-- A flag write of a ring in its location; false where the access table refuses it. -/
def State.ringWrite (s : State) (c : Nat) (x : Ring) (off : Nat) (bs : List Byte) : State × Bool :=
  if x.locDpa then
    let k := s.hdmCheck c NEED_W (x.base + off) bs.length
    if k.2 then (k.1.flagAtHome false (x.base + off) bs, true) else (k.1, false)
  else (s.flagAtHome true (x.base + off) bs, true)

/-- Writes one record into its slot and sends the ring's vector where it is wanted; false where it is refused. -/
def State.putRecord (s : State) (c : Nat) (e : List Byte × Bool) : State × Bool :=
  let x := s.ring c CPL_RING
  let slots := 2 ^ x.log2n
  let w := s.ringWrite c x (32 * (x.count % slots)) (withPhase e.1 (x.count / slots % 2 == 0))
  if !w.2 then w
  else
    let t := w.1.setRing c CPL_RING { x with count := (x.count + 1) % 2 ^ 32, prod := s.cplConsumed c }
    (if x.vecEn && e.2 then t.sendVec x.vec else t, true)

/-- A record waits for room (R489). -/
def State.holdRecord (s : State) (c : Nat) (e : List Byte × Bool) : State :=
  let x := s.ring c CPL_RING
  (s.setRing c CPL_RING { x with waiting := x.waiting ++ [e] }).setBit RNG_ERR 2 true

/-- A record is written if there is room and none waits before it, and waits otherwise; false where its write is
refused. -/
def State.tryRecord (s : State) (c : Nat) (e : List Byte × Bool) : State × Bool :=
  if (s.ring c CPL_RING).waiting.isEmpty && s.cplRoom c then s.putRecord c e else (s.holdRecord c e, true)

/-- The record of a command with its wish for the vector. -/
def State.recordOf (s : State) (r seq flags : Nat) (f : Fin) : List Byte × Bool :=
  (s.recordBytes r seq f, decide (f.status ≠ 0) || bitOf flags 1)

/-- Advances a ring past its command. -/
def State.advance (s : State) (c r : Nat) : State :=
  let x := s.ring c r
  s.setRing c r { x with count := (x.count + 1) % 2 ^ 32, tries := 0 }

/-- Whether a command's end writes a record. -/
def wantsRecord (flags : Nat) (f : Fin) : Bool := decide (f.status ≠ 0) || bitOf flags 0

/-- A command's end where a refused record is not acted on: its context has already faulted. -/
def State.endQuiet (s : State) (c r seq flags : Nat) (f : Fin) : State :=
  let s := s.advance c r
  if wantsRecord flags f then (s.tryRecord c (s.recordOf r seq flags f)).1 else s

/-! ### Watches (R380, R491, R507) -/

/-- The address of the descriptor that a ring takes next. -/
def Ring.slotAddr (x : Ring) : Nat := x.base + 64 * (x.count % 2 ^ x.log2n)

/-- Entries of the watch table in use, of rings and of FENCE_WAITs (RNG_WATCH.USED). -/
def State.watchUsed (s : State) : Nat :=
  (s.contexts.map fun e => (e.2.rings.filter fun r => r.2.watch).length).sum + s.waits.countP fun w => w.watch

/-- A line is held shared with WATCH set; its home refuses a fifth watched line of a set. -/
def State.watchLine (s : State) (host : Bool) (la : Nat) : State × Bool :=
  let t := s.fillLine host la 1
  match t.basinLine host la with
  | none => (t, false)
  | some l =>
    if l.watch then (t, true)
    else if 4 ≤ ((t.setLines (t.slice host la) (t.bsnSet host la)).filter fun x => x.watch).length then (t, false)
    else (t.putLine { l with watch := true }, true)

/-- A line's WATCH is cleared. -/
def State.unwatchLine (s : State) (host : Bool) (la : Nat) : State :=
  match s.basinLine host la with
  | some l => s.putLine { l with watch := false }
  | none => s

/-- Whether a ring server watches a line: for a doorbell, for a descriptor that is not whole yet, or for a fence. -/
def State.watches (s : State) (host : Bool) (la : Nat) : Bool :=
  (s.contexts.any fun e => e.2.rings.any fun r =>
    (host && r.2.watch && lineOf r.2.db == la) ||
    (decide (r.2.tries ≠ 0) && r.2.mode == .watched && r.2.locDpa != host && lineOf r.2.slotAddr == la)) ||
  s.waits.any fun w =>
    match w.kind with
    | .fence g _ _ => w.watch && g.host == host && lineOf g.pa == la
    | _ => false

/-- A watch of a line ends; the line keeps WATCH while another watches it. -/
def State.dropWatch (s : State) (host : Bool) (la : Nat) : State :=
  if s.watches host la then s else s.unwatchLine host la

/-- The watch of a FENCE_WAIT that has ended. -/
def State.endWatch (s : State) (w : Wait) : State :=
  match w.kind with
  | .fence g _ _ => if w.watch then s.dropWatch g.host (lineOf g.pa) else s
  | _ => s

/-- A FENCE_WAIT watches its fence's line where a watch entry is free after every enabled ring has one (R507), and the
page may be cached (R365). -/
def State.watchFence (s : State) (g : XSeg) : State × Bool :=
  if s.bit RNG_CTL 0 && !s.isUc g.host g.attr && decide (s.watchUsed < 4096) &&
      s.contexts.all fun e => e.2.rings.all fun r => decide (8 ≤ r.1) || !r.2.enable || r.2.watch
  then s.watchLine g.host (lineOf g.pa)
  else (s, false)

/-! ### Flights of a context -/

/-- The halt order of a flight (R243); one whose bind is in progress is halted as that bind completes (R654). -/
def State.haltOrder (s : State) (k : Nat) (release : Bool) : State :=
  let f := s.flight k
  let s := if f.binding.isSome then s.modFlight k fun f => { f with haltAtBind := some release } else s
  s.orderTag f.tag fun t => { t with halt := true }

/-- The slots of a context's flights that are bound or being bound. -/
def State.slotsOfCtx (s : State) (c : Nat) : List Nat :=
  (s.flights.filter fun e => e.2.ctx == c && (e.2.st.bound_ || e.2.binding.isSome)).map Prod.fst

/-! ### Waits -/

/-- Ends every wait that satisfies a test with one outcome. -/
def State.abortWaits (s : State) (p : Wait → Bool) (f : Fin) : State :=
  (s.waits.filter p).foldl (fun s w => (s.endWatch w).endQuiet w.ctx w.ring w.seq w.flags f)
    { s with waits := s.waits.filter fun w => !p w }

/-- The rings of a context stop. -/
def Context.ringsStopped (x : Context) : Context :=
  { x with rings := x.rings.map fun e =>
      (e.1, if e.1 < 8 ∧ e.2.enable then { e.2 with mode := RingMode.stopped } else e.2) }

/-- A FATAL device stops every ring, and every waiting command completes with DEVICE_HALTED (R607). -/
def State.haltRings (s : State) : State :=
  let s : State := { s with contexts := s.contexts.map fun e => (e.1, e.2.ringsStopped) }
  (s.abortWaits (fun _ => true) { status := ST_DEVICE_HALTED }).setBit FLT_RESET 30 false

/-- A context is aborted (R485): its rings stop, its waiting commands end, and its flights are halted. Of context 0
it is a FATAL halt of the device. -/
def State.abortContext (s : State) (c : Nat) : State :=
  if c = 0 then s.haltFault.haltRings
  else
    let x := s.context c
    if x.st = .ready ∨ x.st = .running ∨ x.st = .suspended then
      let s := s.setContext c { x.ringsStopped with st := .faulted }
      let s := s.abortWaits (fun w => w.ctx == c) { status := ST_CONTEXT_ABORTED }
      (s.slotsOfCtx c).foldl (fun s k => s.haltOrder k false) s
    else s

/-- The aborts that fault messages have asked for, of contexts and of the device (R607). -/
def State.drainAborts (s : State) : State :=
  let t := s.flt.ctxAborts.foldl State.abortContext { s with flt := { s.flt with ctxAborts := [] } }
  if t.flt.halted then t.haltRings else t

/-- A context faults, and the collector hears of it (R485). -/
def State.ctxFault (s : State) (c : Nat) : State :=
  if c = 0 then (if s.flt.halted then s else (s.fault (msgOf K_DEVICE_HALT 0 0)).haltRings)
  else if (s.context c).st = .ready ∨ (s.context c).st = .running ∨ (s.context c).st = .suspended then
    let s := s.fault (msgOf K_CTX_ABORT 10 c)
    let s := s.abortContext c
    { s with flt := { s.flt with ctxAborts := s.flt.ctxAborts.filter (· ≠ c) } }
  else s

/-- A record of a ring, whose refused write faults the context. -/
def State.post (s : State) (c r seq flags : Nat) (f : Fin) : State :=
  let t := s.tryRecord c (s.recordOf r seq flags f)
  if t.2 then t.1 else t.1.ctxFault c

/-- A command ends. -/
def State.endCmd (s : State) (c r seq flags : Nat) (f : Fin) : State :=
  let s := s.advance c r
  if wantsRecord flags f then s.post c r seq flags f else s

/-- The command being executed ends. -/
def State.fin (s : State) (k : Cmd) (f : Fin) : State := s.endCmd k.c k.r k.h.seq k.h.flags f

/-- The command being executed waits. -/
def State.await (s : State) (k : Cmd) (w : WaitKind) (uses : List (Nat × Nat × Nat) := []) : State :=
  { s with waits := s.waits ++
      [{ ctx := k.c, ring := k.r, seq := k.h.seq, flags := k.h.flags, kind := w, uses := uses }] }

/-- A FENCE_WAIT waits, with the watch that it could take. -/
def State.awaitFence (s : State) (k : Cmd) (ctx : Nat) (g : XSeg) (value deadline : Nat) : State :=
  let t := s.watchFence g
  let w : Wait := { ctx := k.c, ring := k.r, seq := k.h.seq, flags := k.h.flags, kind := .fence g value deadline,
                    watch := t.2, uses := [(ctx, g.va, g.len)] }
  { t.1 with waits := t.1.waits ++ [w] }

/-- A wait ends. -/
def State.finish (s : State) (w : Wait) (f : Fin) : State :=
  (({ s with waits := s.waits.filter (· ≠ w) } : State).endWatch w).endCmd w.ctx w.ring w.seq w.flags f

/-- The command of a ring that waits. -/
def State.waitOf (s : State) (c r : Nat) : Option Wait := s.waits.find? fun w => w.ctx == c && w.ring == r

/-- The waits of a kind, each ended by what a function makes of it. -/
def State.finishWaits (s : State) (f : WaitKind → Option Fin) : State :=
  s.waits.foldl (fun s w =>
    match f w.kind with
    | some x => s.finish w x
    | none => s) s

/-! ### Whether a ring executes (R486, R490, R493) -/

/-- Whether a context's rings are served. -/
def State.ctxServed (s : State) (c : Nat) : Bool :=
  decide (c < 1024) && s.bit RNG_CTL 0 && s.port.ioOpen && !s.flt.halted && !s.boot.safe &&
    (s.roleCore (c % 8)).isSome && ((s.context c).st == .ready || (s.context c).st == .running)

/-- Whether a ring may start a descriptor now: it is served and enabled, has not stopped or parked, and neither a
command nor a record of it waits. -/
def State.ringReady (s : State) (c r : Nat) : Bool :=
  let x := s.ring c r
  s.ctxServed c && decide (r < 8) && x.enable && (x.mode == .watched || x.mode == .polled) &&
    (s.waitOf c r).isNone && !((s.ring c CPL_RING).waiting.any fun e => recordRing e.1 == r)

/-- A command that arrives as the next descriptor of its ring is executed; the device executes no other (R493). -/
def State.arrive (s : State) (c r : Nat) (h : DescHdr) (act : State → Cmd → State) : State :=
  if s.ringReady c r && h.seq == (s.ring c r).count then act s { c := c, r := r, h := h } else s

/-- The lowest of some offsets. -/
def lowest : List Nat → Option Nat
  | [] => none
  | x :: xs => some (xs.foldl min x)

/-- A descriptor check: one with an offending field completes with BAD_DESCRIPTOR and its offset (R497). -/
def State.wellFormed (s : State) (k : Cmd) (bad : List (Bool × Nat)) (act : State → State) : State :=
  let flags := if k.h.flags / 4 ≠ 0 then [5] else []
  match lowest (k.pre ++ flags ++ (bad.filter Prod.fst).map Prod.snd) with
  | some d => s.fin k { status := ST_BAD_DESCRIPTOR, detail := d }
  | none => act s

/-! ### Objects (R503) -/

/-- An object that a handle names. -/
structure Obj where
  handle : Nat
  ctx    : Nat
  va     : Nat
  len    : Nat
  deriving DecidableEq, Repr

/-- Rights of an object. -/
def OBJ_R := 1
def OBJ_W := 2
def OBJ_FENCE := 4

/-- The object table. -/
def State.objBase (s : State) : Nat := (s.reg RNG_OBJ_HI).toNat * 2 ^ 32 + 4096 * s.fld RNG_OBJ_LO 31 12
def State.objDpa (s : State) : Bool := s.bit RNG_OBJ_LO 0
def State.objCount (s : State) : Nat := s.fld RNG_OBJ_COUNT 20 0

/-- An entry as read; none where the read is refused or poisoned (RNG_ERR.OBJ). -/
def State.readObj (s : State) (c i : Nat) : State × Option (List Byte) :=
  let a := s.objBase + 32 * i
  let k := if s.objDpa then s.hdmCheck c NEED_R a 32 else (s, true)
  if !k.2 then (k.1.setBit RNG_ERR 5 true, none)
  else
    let s := k.1.markRead (!s.objDpa) a 32
    let r := s.readLoc s.objDpa a 32
    if anyPoison r then (s.setBit RNG_ERR 5 true, none) else (s, some (bytesOf r))

/-- The object of a handle, checked for a command of a context: its index, generation, owner and rights. -/
def State.object (s : State) (c handle need : Nat) (own : Bool) : State × (Obj ⊕ Fin) :=
  let i := handle / 4096
  let stale : Fin := { status := ST_OBJECT_STALE, detail := handle }
  if s.objCount ≤ i then (s, .inr stale)
  else
    match s.readObj c i with
    | (s, none) => (s, .inr stale)
    | (s, some b) =>
      let id := leNat (b.take 4)
      let ctx := bitsOf id 26 17
      let rights := leNat ((b.drop 4).take 4)
      if !bitOf id 16 || decide (id % 4096 ≠ handle % 4096) || decide (handle % 4096 = 0) then (s, .inr stale)
      else if (c ≠ ctx ∧ (own ∨ c ≠ 0)) ∨ rights &&& need ≠ need then
        (s, .inr { status := ST_ACCESS_DENIED, detail := handle })
      else (s, .inl { handle := handle, ctx := ctx, va := leNat ((b.drop 8).take 8), len := leNat ((b.drop 16).take 8) })

/-- Continues with an object, or ends the command. -/
def State.withObj (s : State) (k : Cmd) (handle need : Nat) (own : Bool) (act : State → Obj → State) : State :=
  match s.object k.c handle need own with
  | (s, .inl o) => act s o
  | (s, .inr f) => s.fin k f

/-! ### Extents (R497, R498) -/

/-- What a failing range makes of a ring command. RESULT is the VA of the page: of the leaf that lacks the right or
the frame, else of the 4 KiB page that no leaf maps. -/
def failFin (handle : Nat) (write : Bool) (f : XFail) : Fin :=
  match f.act with
  | some (_, a) => { status := ST_ACCESS_DENIED, detail := handle, result := a }
  | none =>
    if f.cause = 2 ∧ write then { status := ST_MEMORY_UNBACKED, detail := handle, result := f.pa }
    else { status := ST_TRANSLATION_FAULT, detail := handle,
           result := if f.cause = 1 ∨ f.cause = 2 then f.start else f.va / 4096 * 4096 }

/-- Reports the failing ranges of a ring command's extent: translation faults go to the fault batch, refusals of
an access table to the collector. -/
def State.reportRing (s : State) (c ctx : Nat) (write : Bool) (fs : List XFail) : State :=
  fs.foldl (fun s f =>
    match f.act with
    | some (t, a) => s.actDeny t c f.need a 255
    | none => if f.cause = 2 ∧ write then s else s.recordFail ctx (2 ^ 16) 0xFF f) s

/-- Translates an extent of an object for a command of context `c`. -/
def State.ringXlate (s : State) (c : Nat) (o : Obj) (off n need : Nat) (write : Bool) : State × (List XSeg ⊕ Fin) :=
  let r := s.xlateExtent (s.ringUnit c) o.ctx c need write (o.va + off) n
  match r.2.2 with
  | [] => (r.1, .inl r.2.1)
  | f :: fs => (r.1.reportRing c o.ctx write (f :: fs), .inr (failFin o.handle write f))

/-- Continues with the pieces of an extent, or ends the command. -/
def State.withExtent (s : State) (k : Cmd) (o : Obj) (off n need : Nat) (write : Bool)
    (act : State → List XSeg → State) : State :=
  match s.ringXlate k.c o off n need write with
  | (s, .inl gs) => act s gs
  | (s, .inr f) => s.fin k f

/-- The bytes of an extent's pieces, as the command reads them, with the lines counted (R535). -/
def State.readSegs (s : State) (ctx : Nat) (gs : List XSeg) : State × PBytes :=
  gs.foldl (fun r g =>
    let x := (r.1.countSeg ctx g false).pageRead g.host g.attr g.pa g.len
    (x.1, r.2 ++ x.2)) (s, [])

/-- Writes bytes over an extent's pieces. -/
def State.writeSegs (s : State) (ctx : Nat) (gs : List XSeg) (bs : PBytes) : State :=
  (gs.foldl (fun r g =>
    ((r.1.countSeg ctx g true).pageWrite g.host g.attr g.pa (r.2.take g.len), r.2.drop g.len)) (s, bs)).1

/-- A ring's poisoned commands since its last FENCE_SIGNAL (R499). -/
def State.stickPoison (s : State) (c r : Nat) (bs : PBytes) : State :=
  if anyPoison bs then s.setRing c r { s.ring c r with poison := (s.ring c r).poison + 1 } else s

end Sys2Proof.Machine
end

