-- ==== Sys2Proof/Machine/RingCmds.lean ====
section
/-! DEFINITION. The ring commands that move data, write fences, keep the translation mirror, maintain caches and
set leases (13 R496, 14 R521 to R524, 10 R378 and R399, 16 R573). -/

namespace Sys2Proof.Machine

/-- NOP. -/
def State.doNop (s : State) (k : Cmd) : State := s.wellFormed k [] fun s => s.fin k {}

/-! ### Fences (R505 to R507) -/

def fenceMask : Nat := 2 ^ 63

/-- A word of an object's piece, as a fence is read. -/
def State.fenceWord (s : State) (g : XSeg) : Nat := leNat (bytesOf (s.latest g.host g.pa 8))

/-- A fence word read at its home, with what the read reports. -/
def State.seeFence (s : State) (g : XSeg) : State := s.markRead g.host g.pa 8

/-- A fence write is a flag write (R505). -/
def State.writeFence (s : State) (g : XSeg) (v : Nat) : State := s.flagAtHome g.host g.pa (toLe 8 v)

/-- Continues with the piece that holds a fence word of an object: aligned, inside it, and with the right. -/
def State.withFence (s : State) (k : Cmd) (o : Obj) (off need : Nat) (act : State → XSeg → State) : State :=
  if (o.va + off) % 8 ≠ 0 ∨ o.len < off + 8 then s.fin k { status := ST_BAD_DESCRIPTOR, detail := 0x10 }
  else
    s.withExtent k o off 8 need (need == NEED_W) fun s gs =>
      match gs with
      | g :: _ => act s g
      | [] => s

/-- FENCE_SIGNAL. Bit 63 of VALUE takes no part: bits [62:0] are a fence's value. -/
def State.doFenceSignal (s : State) (k : Cmd) (fence off value : Nat) : State :=
  s.wellFormed k [] fun s => s.withObj k fence (OBJ_W + OBJ_FENCE) true fun s o =>
    s.withFence k o off NEED_W fun s g =>
      let s := s.seeFence g
      let w := s.fenceWord g
      let v := value % fenceMask
      if fenceMask ≤ w ∨ v ≤ w % fenceMask then s.fin k { status := ST_FENCE_REGRESS, result := w }
      else
        let s := s.writeFence g v
        let x := s.ring k.c k.r
        if x.poison = 0 then s.fin k {}
        else (s.setRing k.c k.r { x with poison := 0 }).fin k { status := ST_POISON, detail := x.poison }

/-- How a FENCE_WAIT ends on a word that it reads, if it ends. -/
def fenceFin (w value : Nat) : Option Fin :=
  if fenceMask ≤ w then some { status := ST_FENCE_ABANDONED, result := w }
  else if value ≤ w then some { result := w }
  else none

/-- FENCE_WAIT: it holds its ring until the fence shows what it waits for. -/
def State.doFenceWait (s : State) (k : Cmd) (fence off value timeoutUs : Nat) : State :=
  s.wellFormed k [] fun s => s.withObj k fence OBJ_R false fun s o =>
    s.withFence k o off NEED_R fun s g =>
      let s := s.seeFence g
      match fenceFin (s.fenceWord g) value with
      | some f => s.fin k f
      | none => s.awaitFence k o.ctx g value (if timeoutUs = 0 then 0 else s.ww.time + 1000 * timeoutUs)

/-- A waiting FENCE_WAIT reads its fence, which re-arms its watch (R380). -/
def State.reseeFence (s : State) (w : Wait) (g : XSeg) : State :=
  let t := s.seeFence g
  if w.watch then (t.watchLine g.host (lineOf g.pa)).1 else t

/-- A waiting FENCE_WAIT reads its fence, and ends where the word lets it. -/
def State.fenceCheck (s : State) (c r : Nat) : State :=
  match s.waitOf c r with
  | some w =>
    match w.kind with
    | .fence g value _ =>
      let s := s.reseeFence w g
      match fenceFin (s.fenceWord g) value with
      | some f => s.finish w f
      | none => s
    | _ => s
  | none => s

/-- TIMEOUT_US passes: a waiting FENCE_WAIT that has one ends with the word last read. -/
def State.fenceTimeout (s : State) (c r : Nat) : State :=
  match s.waitOf c r with
  | some w =>
    match w.kind with
    | .fence g _ deadline =>
      if deadline = 0 then s else s.finish w { status := ST_TIMEOUT, result := s.fenceWord g }
    | _ => s
  | none => s

/-! ### COPY and FILL (R496, R498, R499) -/

/-- Lengths of COPY and FILL. -/
def badLength (n : Nat) : Bool := n == 0 || decide (2 ^ 40 < n)

/-- Whether an UNMAP_RANGE or INVALIDATE_XLT may complete: nothing that it removed is in use any more, by the barges of
a pound, of an overrun or by a ring command that translated it (R203, R210, R498). -/
def State.xltFree (s : State) (pound ctx va n : Nat) : Bool :=
  decide (pound ≤ s.poundNow) &&
    !(s.flights.any fun e => e.2.overrun && e.2.ctx == ctx &&
      e.2.curXlt.any fun x => decide (x.1 < va + n) && decide (va < x.1 + pageSize x.2.1)) &&
    !(s.waits.any fun w =>
      match w.kind with
      | .copy sc dc src dst _ =>
        (sc == ctx && src.any fun g => decide (g.va < va + n) && decide (va < g.va + g.len)) ||
        (dc == ctx && dst.any fun g => decide (g.va < va + n) && decide (va < g.va + g.len))
      | .fill dc dst .. => dc == ctx && dst.any fun g => decide (g.va < va + n) && decide (va < g.va + g.len)
      | _ => w.uses.any fun u => u.1 == ctx && decide (u.2.1 < va + n) && decide (va < u.2.1 + u.2.2))

/-- Table commands that wait and may now complete do so; their ranges leave the posted-fault set (R533). -/
def State.settleXlt (s : State) : State :=
  s.waits.foldl (fun s w =>
    match w.kind with
    | .xlt p ctx va n => if s.xltFree p ctx va n then (s.unpost ctx va n).finish w {} else s
    | _ => s) s

/-- The bytes of a COPY move. -/
def State.copyBytes (s : State) (c r sctx dctx : Nat) (src dst : List XSeg) : State :=
  let x := s.readSegs sctx src
  (x.1.writeSegs dctx dst x.2).stickPoison c r x.2

/-- COPY. Its uncached host source is read through the host port, and the command waits for the data, or for the homes
of its lines (R370). -/
def State.doCopy (s : State) (k : Cmd) (src dst srcOff dstOff len : Nat) : State :=
  s.wellFormed k [(badLength len, 0x20)] fun s =>
    s.withObj k src OBJ_R false fun s a => s.withObj k dst OBJ_W false fun s b =>
      let overlap := a.ctx == b.ctx && decide (a.va + srcOff < b.va + dstOff + len) &&
        decide (b.va + dstOff < a.va + srcOff + len)
      s.wellFormed k [(decide (a.len < srcOff + len), 0x10), (decide (b.len < dstOff + len), 0x18),
        (overlap, 0x18)] fun s =>
        s.withExtent k a srcOff len NEED_R false fun s gs =>
          s.withExtent k b dstOff len NEED_W true fun s hs =>
            let us := gs.filter fun g => g.host && s.isUc true g.attr
            let busy := s.busyOf (segTouches gs false ++ segTouches hs true)
            if us.isEmpty && busy.isEmpty then (s.copyBytes k.c k.r a.ctx b.ctx gs hs).fin k {}
            else us.foldl (fun s g => s.ioRequest (.ring k.c k.r) g.pa g.len)
                ((s.askAll busy).await k (.copy a.ctx b.ctx gs hs false))

/-- A COPY whose host reads have all ended moves its bytes; a read that timed out left its bytes poisoned
(R458). -/
def State.copyDone (s : State) (c r : Nat) : State :=
  if s.ioBusy (.ring c r) then s
  else
    match s.waitOf c r with
    | some w =>
      match w.kind with
      | .copy sc dc src dst late =>
        let busy := s.busyOf (segTouches src false ++ segTouches dst true)
        if !busy.isEmpty then s.askAll busy
        else ((s.copyBytes c r sc dc src dst).finish w { status := if late then ST_TIMEOUT else ST_OK }).settleXlt
      | _ => s
    | none => s

/-- The bytes of a FILL. -/
def patternBytes (pattern off n : Nat) : PBytes :=
  (List.range n).map fun i => (BitVec.ofNat 8 (pattern / 256 ^ ((off + i) % 8)), false)

/-- FILL. -/
def State.doFill (s : State) (k : Cmd) (dst dstOff len pattern : Nat) : State :=
  s.wellFormed k [(badLength len, 0x18)] fun s => s.withObj k dst OBJ_W false fun s b =>
    s.wellFormed k [(decide (b.len < dstOff + len), 0x10)] fun s =>
      s.withExtent k b dstOff len NEED_W true fun s hs =>
        let busy := s.busyOf (segTouches hs true)
        if busy.isEmpty then (s.writeSegs b.ctx hs (patternBytes pattern dstOff len)).fin k {}
        else (s.askAll busy).await k (.fill b.ctx hs pattern dstOff len)

/-- A FILL that waited at the homes of its lines writes them once nothing holds it back. -/
def State.fillDone (s : State) (c r : Nat) : State :=
  match s.waitOf c r with
  | some w =>
    match w.kind with
    | .fill dc dst pattern off len =>
      let busy := s.busyOf (segTouches dst true)
      if !busy.isEmpty then s.askAll busy
      else ((s.writeSegs dc dst (patternBytes pattern off len)).finish w {}).settleXlt
    | _ => s
  | none => s

/-! ### The translation mirror (R521 to R525) -/

/-- A command that only context 0 may issue (R487). -/
def State.onlyDriver (s : State) (k : Cmd) (act : State → State) : State :=
  if k.c = 0 then act s else s.fin k { status := ST_ACCESS_DENIED }

/-- The states of a named context that a command accepts (R486). -/
def State.named (s : State) (k : Cmd) (ctx : Nat) (faulted : Bool) (act : State → State) : State :=
  let st := (s.context ctx).st
  if st = .ready ∨ st = .running ∨ st = .suspended ∨ (faulted ∧ st = .faulted) then act s
  else s.fin k { status := ST_STATE_REJECT }

/-- A VA range of pages that is misaligned or passes the address space. -/
def badRange (page count va : Nat) : Bool :=
  decide (va % pageSize page ≠ 0) || decide (2 ^ 57 < va + count * pageSize page)

/-- What a table write that stops makes of its command: no entry changes. -/
def State.xltStop (s : State) (k : Cmd) (x : XltStop) : State :=
  let s := if x.status = ST_TRANSLATION_FAULT then s.setBit XLT_ERR 0 true
    else if x.status = ST_ACCESS_DENIED then s.actDeny (tgtHdm x.result) MID_WALKER NEED_W x.result 255
    else s
  s.fin k { status := x.status, detail := x.detail, result := x.result }

/-- Whether the host holds lines of a DPA range. -/
def State.hostHolds (s : State) (dpa n : Nat) : Bool :=
  !(s.hostHeld fun a => decide (dpa ≤ a) && decide (a < dpa + n)).isEmpty

/-- MAP_RANGE: entries, bias bits, and an end once every frame on its way to DEV has it (R378). -/
def State.doMapRange (s : State) (k : Cmd) (ctx page count va entry : Nat) : State :=
  s.wellFormed k [(decide (1024 ≤ ctx), 0x08), (decide (2 < page), 0x0A),
      (badRange page count va || !s.entryOk page count entry, 0x18)] fun s =>
    s.onlyDriver k fun s => s.named k ctx false fun s =>
      if !s.xltOn then s.fin k { status := ST_STATE_REJECT }
      else if !s.rangeClear ctx page count va then s.fin k { status := ST_STATE_REJECT }
      else
        match s.mapLeaves (s.ringUnit k.c) ctx page va entry count va with
        | .inr x => s.xltStop k x
        | .inl t =>
          let n := count * pageSize page
          if !entHost entry && !entShr entry && t.hostHolds (entPa entry) n then
            t.await k (.bias (entPa entry) n ctx va n)
          else (t.unpost ctx va n).fin k {}

/-- The first pound in which no flight uses a leaf of a range any more. -/
def State.xltUntil (s : State) (ctx va n : Nat) : Nat :=
  let hit (l : List (Nat × Nat × Nat)) : Bool :=
    l.any fun e => decide (e.1 < va + n) && decide (va < e.1 + pageSize e.2.1)
  s.flights.foldl (fun p e =>
    if e.2.ctx ≠ ctx then p
    else if hit e.2.nextXlt then max p (s.poundNow + 2)
    else if hit e.2.curXlt then max p (s.poundNow + 1)
    else p) 0

/-- The end of an UNMAP_RANGE or INVALIDATE_XLT: cached leaves go at once, and it completes once nothing uses them. -/
def State.xltEnd (s : State) (k : Cmd) (ctx va n : Nat) : State :=
  let s := s.flushTlb ctx va n
  let p := s.xltUntil ctx va n
  if s.xltFree p ctx va n then (s.unpost ctx va n).fin k {} else s.await k (.xlt p ctx va n)

/-- UNMAP_RANGE. -/
def State.doUnmapRange (s : State) (k : Cmd) (ctx page count va : Nat) : State :=
  s.wellFormed k [(decide (1024 ≤ ctx), 0x08), (decide (2 < page), 0x0A), (badRange page count va, 0x10)] fun s =>
    s.onlyDriver k fun s => s.named k ctx true fun s =>
      if !s.xltOn then s.fin k {}
      else if !s.rangeClear ctx page count va then s.fin k { status := ST_STATE_REJECT }
      else
        match s.unmapLeaves (s.ringUnit k.c) ctx page count va with
        | .inr x => s.xltStop k x
        | .inl t => t.xltEnd k ctx va (count * pageSize page)

/-- INVALIDATE_XLT of a range, or of a whole context. -/
def State.doInvalidateXlt (s : State) (k : Cmd) (ctx scope page count va : Nat) : State :=
  s.wellFormed k [(decide (1024 ≤ ctx), 0x08), (decide (1 < scope), 0x0A), (decide (2 < page), 0x0B),
      (scope == 0 && badRange page count va, 0x10)] fun s =>
    s.onlyDriver k fun s => s.named k ctx true fun s =>
      if !s.xltOn then s.fin k {}
      else if scope = 1 then s.xltEnd k ctx 0 (2 ^ 57)
      else s.xltEnd k ctx va (count * pageSize page)

/-- SET_BIAS. -/
def State.doSetBias (s : State) (k : Cmd) (bias count dpa : Nat) : State :=
  s.wellFormed k [(decide (1 < bias), 0x0A),
      (decide (dpa % 4096 ≠ 0) || decide (s.hdmSize < dpa + 4096 * count), 0x10)] fun s =>
    s.onlyDriver k fun s =>
      let s := (List.range count).foldl (fun s i => s.biasFrame (dpa / 4096 + i) (bias == 1)) s
      if bias = 0 ∧ s.hostHolds dpa (4096 * count) then s.await k (.bias dpa (4096 * count) 0 0 0) else s.fin k {}

/-- Commands that wait for frames to return to DEV: those whose lines the host no longer holds complete; lines
that the host still holds are snooped again. -/
def State.settleBias (s : State) : State :=
  s.waits.foldl (fun s w =>
    match w.kind with
    | .bias dpa size ctx va n =>
      if s.hostHolds dpa size then
        (s.hostHeld fun a => decide (dpa ≤ a) && decide (a < dpa + size)).foldl (fun s la => s.snoopHost la true) s
      else
        let s := (framesOf dpa size).foldl (fun s f => s.setShr f false) s
        (s.unpost ctx va n).finish w {}
    | _ => s) s

/-! ### Maintenance (R396 to R399) -/

/-- MAINT: its range enters the engine's queue, or the command waits in its ring while the queue is full. -/
def State.doMaint (s : State) (k : Cmd) (op space ctx addr len : Nat) : State :=
  s.wellFormed k [(decide (4 < op), 0x08), (decide (2 < space), 0x09),
      (k.c == 0 && decide (1024 ≤ ctx), 0x0A), (decide (addr % 64 ≠ 0), 0x10),
      (decide (len % 64 ≠ 0) || badLength len, 0x18)] fun s =>
    if k.c ≠ 0 ∧ space ≠ SP_VA then s.fin k { status := ST_ACCESS_DENIED }
    else
      let x := if k.c = 0 then ctx else k.c
      if s.basin.queue.length < 8 then
        let e : MaintEntry := { op := op, space_ := space, ctx := x, addr := addr, len := len, ring := some (k.c, k.r) }
        { s with basin := { s.basin with queue := s.basin.queue ++ [e] } }.await k .maint
      else s.await k (.maintFull op space x addr len)

/-- A MAINT command that waits for a place takes one. -/
def State.maintPull (s : State) : State :=
  if 8 ≤ s.basin.queue.length then s
  else
    match s.waits.find? fun w => match w.kind with | .maintFull .. => true | _ => false with
    | some w =>
      match w.kind with
      | .maintFull op space x addr len =>
        let e : MaintEntry := { op := op, space_ := space, ctx := x, addr := addr, len := len,
                                ring := some (w.ctx, w.ring) }
        { s with basin := { s.basin with queue := s.basin.queue ++ [e] },
                 waits := s.waits.map fun v => if v = w then { w with kind := .maint } else v }
      | _ => s
    | none => s

/-- What the end of an entry of a MAINT command tells its ring; a translation fault goes to the fault batch. -/
def State.maintRing (s : State) (e : MaintEntry) (c r : Nat) (x : MaintEnd) : State :=
  let s := match x.fail with
    | some f => s.recordFail e.ctx (2 ^ 16) 0xFF f
    | none => s
  match s.waitOf c r with
  | some w => if w.kind = .maint then s.finish w { status := x.status, result := x.addr } else s
  | none => s

/-- The end of an entry that CMX submitted (R403 to R405). -/
def State.maintCmx (s : State) (e : MaintEntry) (status : Nat) : State :=
  let s : State := { s with basin := { s.basin with lastStatus := status, done := (s.basin.done + 1) % 2 ^ 32 } }
  (if e.space_ = SP_VA ∧ status ≠ 0 then s.setBit CMX_ERR 2 true else s).irq 1

/-- The pieces of an entry's range in HDM, as far as they translate. -/
def State.maintSegs (s : State) (e : MaintEntry) : List XSeg :=
  if e.space_ = SP_VA then (s.xlate (s.roleUnit 18) e.ctx MID_MAINT 0 false (e.len / 4096 + 2) e.addr e.len).2.1
  else if e.space_ = SP_DPA then
    [{ va := e.addr, pa := e.addr, len := e.len, host := false, attr := 0, peer := false, ce := false }]
  else []

/-- The lines of an entry's range that their homes hold back: those that a pin, a snoop, or the host's bit 44 names
(R370). -/
def State.maintBusy (s : State) (e : MaintEntry) : List Touch :=
  let gs := (s.maintSegs e).filter fun g => !g.host
  let las := s.basin.pins.map Prod.fst ++ s.port.bisnp.map Prod.fst ++
    ((s.basin.lines.filter fun l => !l.host).map fun l => l.addr)
  let inside := las.filter fun la => gs.any fun g => decide (g.pa < la + 64) && decide (la < g.pa + g.len)
  s.busyOf (inside.eraseDups.map fun la => (la, some (e.op ≠ 0 ∧ e.op ≠ 3)))

/-- The oldest entry of the engine ends, once nothing holds its lines back at their homes. -/
def State.maintEnd (s : State) : State :=
  match s.basin.queue with
  | [] => s
  | e :: rest =>
    let busy := s.maintBusy e
    if !busy.isEmpty then s.askAll busy
    else
    let t := s.maintEffect e
    let u : State := { t.1 with basin := { t.1.basin with queue := rest } }
    (match e.ring with
      | some (c, r) => u.maintRing e c r t.2
      | none => u.maintCmx e t.2.status).maintPull

/-- A CMX submission: CMX_CMD with GO, whose operation the row names; GO reads 0 again at once (R401, R402). -/
def State.cmxSubmit (s : State) (v : Reg) : State :=
  let s := s.swWrite CMX_CMD (putBits v 31 31 0)
  let op := s.fld CMX_CMD 2 0
  let space := s.fld CMX_CMD 5 4
  let addr := (s.reg CMX_ADDR_HI).toNat * 2 ^ 32 + (s.reg CMX_ADDR_LO).toNat
  let len := (s.reg CMX_LEN_HI).toNat * 2 ^ 32 + (s.reg CMX_LEN_LO).toNat
  if !maintOk op space addr len then s.setBit CMX_ERR 1 true
  else if 8 ≤ s.basin.queue.length then s.setBit CMX_ERR 0 true
  else
    let e : MaintEntry := { op := op, space_ := space, ctx := s.fld CMX_CMD 25 16, addr := addr, len := len,
                            ring := none }
    { s with basin := { s.basin with queue := s.basin.queue ++ [e] } }

/-! ### The driver's power lease (R573) -/

/-- A grant or revocation of a lease, and its interrupt (R575). -/
def State.setLease (s : State) (towpath : Bool) (watts durUs : Nat) : State :=
  let l : Option Lease := if watts = 0 then none else some { watts := watts, start := s.ww.time, dur := 1000 * durUs }
  ({ s with power := if towpath then { s.power with tow := l } else { s.power with drv := l } } : State).irq 5

/-- Whether a lease's fields are in range. -/
def leaseOk (watts durUs : Nat) : Bool :=
  watts == 0 || (decide (100 ≤ watts) && decide (watts ≤ 2400) && decide (1 ≤ durUs))

/-- SET_POWER_LEASE. -/
def State.doSetPowerLease (s : State) (k : Cmd) (watts durUs : Nat) : State :=
  s.wellFormed k [(!leaseOk watts 1, 0x08), (decide (watts ≠ 0) && decide (durUs = 0), 0x0C)] fun s =>
    s.onlyDriver k fun s => (s.setLease false watts durUs).fin k {}

end Sys2Proof.Machine
end

