-- ==== Sys2Proof/Machine/ImageCheck.lean ====
section
/-! DEFINITION. The checks that a flight image meets at load (R212 to R228, R231, R262, R263, R295, R301, R302),
in the order of the refusal table, each with the item that it names. -/

namespace Sys2Proof.Machine

/-- A refusal of a load or bind (R230). -/
structure Refuse where
  reason  : Nat
  item    : Nat := 0
  variant : Nat := 0
  bind    : Bool := false
  deriving DecidableEq, Repr

/-- The detail word of a refusal (R230). -/
def Refuse.detail (r : Refuse) : Nat :=
  min r.item 0xFFFF * 2 ^ 16 + r.variant * 2 ^ 12 + bnat r.bind * 2 ^ 8 + r.reason

/-- A check that fails with a reason and an item. -/
def failIf (bad : Bool) (reason item : Nat) : Option Refuse :=
  if bad then some { reason := reason, item := item } else none

/-- The first of `n` items that is bad. -/
def firstBad (reason n : Nat) (bad : Nat → Bool) : Option Refuse :=
  ((List.range n).find? bad).map fun i => { reason := reason, item := i }

/-- The first check that fails. -/
def firstSome {α : Type} : List (Unit → Option α) → Option α
  | [] => none
  | f :: fs =>
    match f () with
    | some x => some x
    | none => firstSome fs

/-- Whether bytes are all zero. -/
def zeroBytes (m : Ram) (a n : Nat) : Bool := m.num a n == 0

/-- Bits of a mask. -/
def popCount (n : Nat) : Nat := ((List.range 64).filter fun i => bitOf n i).length

/-- Whether the members of a list are distinct. -/
def distinct (l : List Nat) : Bool := decide l.Nodup

/-! ### Header and directory (R212 to R215) -/

/-- Whether the header keeps R213, as far as no other reason names the field. -/
def headerOk (m : Ram) (n : Nat) : Bool :=
  m.num 0 4 == 0x544C464B && m.num 4 2 == 1 && decide (1 ≤ hdrSections m) && decide (hdrSections m ≤ 24) &&
  hdrSize m == n && n % 256 == 0 && decide (0x400 ≤ n) && decide (n ≤ 2 ^ 32) && decide (hdrFlags m < 4) &&
  decide (1 ≤ hdrTiles m) && decide (hdrTiles m ≤ 262144) && decide (1 ≤ hdrDevices m) &&
  decide (hdrDevices m ≤ 1024) && decide (1 ≤ hdrPositions m) &&
  (if hdrLoop m then decide (hdrLoopPos m < hdrPositions m) else hdrLoopPos m == 0) &&
  hdrFeatures m &&& 0x77FFF == hdrFeatures m && zeroBytes m 0x280 128

/-- Number of entries that the header asks of a section, where it does. -/
def wantCount (m : Ram) (t : Nat) : Option Nat :=
  let v := hdrVariants m
  let p := hdrPositions m
  match t with
  | 0x01 => some (hdrDevices m)
  | 0x02 => some (hdrTiles m)
  | 0x06 => some (hdrLegs m)
  | 0x09 => some (v * p * hdrTiles m)
  | 0x0A => some (v * hdrTiles m)
  | 0x0B => some (v * p * hdrDevices m)
  | _ => none

/-- Whether a used directory entry keeps R212, R214 and R215. -/
def dirOk (m : Ram) (n i : Nat) : Bool :=
  let e := dirEntry m i
  decide (1 ≤ e.typ) && decide (e.typ ≤ 0x12) && zeroBytes m (0x042 + 24 * i) 2 &&
  ((List.range i).all fun j => (dirEntry m j).typ != e.typ) &&
  e.off % 256 == 0 && decide (0x300 ≤ e.off) && decide (e.off + e.size ≤ n - 256) &&
  (if e.typ = SEC_SLOT_TABLES then e.size % 16 == 0 else e.size == e.count * entrySize e.typ) &&
  (match wantCount m e.typ with
    | some k => e.count == k
    | none => true) &&
  ((List.range i).all fun j =>
    let f := dirEntry m j
    decide (f.size = 0) || decide (e.size = 0) || decide (e.off + e.size ≤ f.off) || decide (f.off + f.size ≤ e.off))

/-- Types that every image has (R215). -/
def requiredTypes (m : Ram) : List Nat :=
  [0x01, 0x02, 0x03, 0x06, 0x09, 0x0A, 0x0B] ++ (if 1 < hdrDevices m then [0x0C] else [])

/-- Whether the bytes between sections are zero. -/
def gapsOk (m : Ram) (n : Nat) : Bool :=
  m.bytes.all fun e =>
    decide (e.1 < 0x300) || decide (n - 256 ≤ e.1) ||
      (sections m).any fun k => decide (k.off ≤ e.1) && decide (e.1 < k.off + k.size)

/-- Whether the signature block's zero bytes are zero (R228). -/
def sigZeroOk (m : Ram) (n : Nat) : Bool :=
  zeroBytes m (n - 256 + 1) 15 && zeroBytes m (n - 256 + 0x70) 144

/-- The directory entry of a section type. -/
def dirOf (m : Ram) (t : Nat) : Nat :=
  ((List.range (min (hdrSections m) 24)).find? fun i => (dirEntry m i).typ == t).getD 0

/-! ### Slot tables (R262, R263) -/

/-- An entry of a slot table. -/
structure SlotEnt where
  fwd    : Bool
  slot   : Nat
  port   : Nat
  inPort : Nat
  tile   : Nat
  run    : Nat
  stride : Nat
  rep    : Nat
  deriving DecidableEq, Repr

/-- A slot table. -/
structure SlotTab where
  variant : Nat
  dev     : Nat
  pos     : Nat
  group   : Nat
  ents    : List SlotEnt
  deriving DecidableEq, Repr

/-- The entry record at an offset; none where it breaks R262. -/
def slotEnt (m : Ram) (a : Nat) : Option SlotEnt :=
  let e : SlotEnt := { fwd := m.num (a + 1) 1 == 1, slot := m.num (a + 2) 2, port := m.num (a + 4) 1,
                       inPort := m.num (a + 5) 1, tile := m.num (a + 6) 1, run := m.num (a + 8) 2,
                       stride := m.num (a + 10) 2, rep := m.num (a + 12) 2 }
  if m.num a 1 = 2 ∧ m.num (a + 1) 1 ≤ 1 ∧ m.num (a + 7) 1 = 0 ∧ m.num (a + 14) 2 = 0 ∧ 1 ≤ e.run ∧ 1 ≤ e.rep ∧
      (if e.fwd then e.tile = 0 else e.inPort = 0) then some e else none

/-- `k` entry records from an offset. -/
def slotEnts (m : Ram) : Nat → Nat → Option (List SlotEnt)
  | _, 0 => some []
  | a, k + 1 =>
    match slotEnt m a, slotEnts m (a + 16) k with
    | some e, some es => some (e :: es)
    | _, _ => none

/-- The tables in `left` bytes from an offset, with a bound on their number; none where a record breaks R262. -/
def slotTabs (m : Ram) : Nat → Nat → Nat → Option (List SlotTab)
  | 0, _, _ => some []
  | fuel + 1, a, left =>
    if left = 0 then some []
    else
      let k := m.num (a + 8) 4
      if m.num a 1 ≠ 1 ∨ m.num (a + 12) 4 ≠ 0 ∨ left < 16 * (k + 1) then none
      else
        match slotEnts m (a + 16) k, slotTabs m fuel (a + 16 * (k + 1)) (left - 16 * (k + 1)) with
        | some es, some ts =>
          some ({ variant := m.num (a + 1) 1, dev := m.num (a + 2) 2, pos := m.num (a + 4) 2,
                  group := m.num (a + 6) 2, ents := es } :: ts)
        | _, _ => none

/-- The slot tables of an image. -/
def imageTabs (m : Ram) : Option (List SlotTab) :=
  let k := sectOf m SEC_SLOT_TABLES
  slotTabs m (k.size / 16) k.off k.size

/-- The slots that an entry reserves on its port (R262). -/
def SlotEnt.slots (e : SlotEnt) : List Nat :=
  (List.range e.rep).flatMap fun r => (List.range e.run).map fun q => e.slot + r * e.stride + q

/-- The slots of a class that no flight may reserve (R261). -/
def reservedClass (k : Nat) : Bool := k % 32 == 0 || k % 64 == 16

/-- Fused canal ports of a device with `n` active reaches (R1, R263). -/
def canalsOf (n : Nat) : Nat := if n = 12 then 36 else if n = 8 then 24 else 48

/-- Fused canal ports of a device slot. -/
def slotCanals (m : Ram) (d : Nat) : Nat := canalsOf (popCount (devMask m d))

/-- The number of slots of a plan, K_f (R263). -/
def planSlots (m : Ram) : Nat := (100 * hdrPoundLen m - 10 * hdrGateLead m) * 100 / 512

/-- Whether an entry keeps R263 on its own. -/
def entOk (m : Ram) (d : Nat) (e : SlotEnt) : Bool :=
  decide (e.port < slotCanals m d) && (!e.fwd || decide (e.inPort < slotCanals m d)) &&
  decide (e.slot + (e.rep - 1) * e.stride + (e.run - 1) < planSlots m) && (!e.fwd || decide (16 ≤ e.slot)) &&
  e.slots.all fun k => !reservedClass k

/-- The (port, slot) pairs of a table. -/
def SlotTab.cells (t : SlotTab) : List (Nat × Nat) := t.ents.flatMap fun e => e.slots.map fun k => (e.port, k)

/-- Whether a table keeps R263. -/
def tabOk (m : Ram) (t : SlotTab) : Bool :=
  decide (t.variant < 4) && decide (t.dev < hdrDevices m) && decide (t.pos < hdrPositions m) &&
  t.ents.all (entOk m t.dev) && decide t.cells.Nodup

/-- Whether the SLOT_TABLES section keeps R262 and R263. -/
def tabsOk (m : Ram) : Bool :=
  match imageTabs m with
  | none => false
  | some ts => ts.all (tabOk m) && decide (ts.map fun t => (t.variant, t.dev, t.pos, t.group)).Nodup

/-! ### The small sections (R226, R295) -/

/-- Whether two routers are adjacent (R204). -/
def adjacent (a b : Nat) : Bool :=
  decide (a < 64) && decide (b < 64) &&
    ((a % 8 == b % 8 && (a / 8 + 1 == b / 8 || b / 8 + 1 == a / 8)) ||
     (a / 8 == b / 8 && (a % 8 + 1 == b % 8 || b % 8 + 1 == a % 8)))

/-- Whether entry `i` of DETOURS, LANE_PLAN, STACK_RES or BARRIERS keeps R226, R263 and R295. -/
def smallOk (m : Ram) (t i : Nat) : Bool :=
  let n (off len : Nat) := entryNum m t i off len
  match t with
  | 0x0D => decide (n 0 2 < hdrDevices m) && decide (n 2 1 < slotCanals m (n 0 2)) && n 3 1 == 0 && n 8 8 == 0 &&
      (match imageTabs m with
        | some ts => decide (n 4 4 < ts.length)
        | none => false)
  | 0x0E => decide (n 0 2 < hdrDevices m) && adjacent (n 2 1) (n 3 1) && decide (n 4 1 ≤ 1) && n 5 3 == 0
  | 0x0F => decide (n 0 2 < hdrDevices m) && decide (n 2 1 < 32) && n 3 1 == 0 && decide (1 ≤ n 4 2) &&
      decide (n 4 2 ≤ 1640) && decide (1 ≤ n 6 2) && decide (n 6 2 ≤ 4096) && n 8 8 == 0
  | 0x12 => n 1 1 == 0 && decide (1 ≤ n 2 2) && decide (n 2 2 ≤ 2047) &&
      (List.range i).all fun j => entryNum m t j 0 1 != n 0 1
  | _ => true

/-- A section whose entries break their layout. -/
def smallBad (m : Ram) (t : Nat) : Option Refuse :=
  if (List.range (entryCount m t)).all (smallOk m t) then none else some { reason := 1, item := dirOf m t }

/-- FORMAT. -/
def checkFormat (m : Ram) (n : Nat) : Option Refuse :=
  firstSome [
    fun _ => failIf (!headerOk m n) 1 0,
    fun _ => firstBad 1 (hdrSections m) fun i => !dirOk m n i,
    fun _ => firstBad 1 24 fun i => decide (hdrSections m ≤ i) && !zeroBytes m (0x040 + 24 * i) 24,
    fun _ => failIf (!(requiredTypes m).all fun t => (sections m).any fun e => e.typ == t) 1 0,
    fun _ => failIf (!gapsOk m n) 1 0,
    fun _ => failIf (!tabsOk m) 1 (dirOf m SEC_SLOT_TABLES),
    fun _ => smallBad m SEC_DETOURS, fun _ => smallBad m SEC_LANE_PLAN, fun _ => smallBad m SEC_STACK_RES,
    fun _ => smallBad m SEC_BARRIERS,
    fun _ => failIf (!sigZeroOk m n) 1 0]

/-! ### Signature (R228) -/

/-- The flight-signing key of an index in a firmware image (R634): none above its KEYS. -/
def flightKey (fw : Ram) (i : Nat) : Option (Nat × Nat) :=
  if i < fw.num 0x16 1 then some (beNat (fw.read (0x200 + 96 * i) 48), beNat (fw.read (0x200 + 96 * i + 48) 48))
  else none

/-- Whether the signature block at the end of an image of `n` bytes verifies under a key. -/
def sigOk (key : Nat × Nat) (m : Ram) (n : Nat) : Bool :=
  ecVerify key (sha384 (sslice 0 m.bytes 0 (n - 256))) (beNat (m.read (n - 256 + 0x10) 48))
    (beNat (m.read (n - 256 + 0x40) 48))

/-- SIGNATURE: no key of that index, a signature that does not verify, or an image that holds poison. -/
def checkSignature (fw m : Ram) (n : Nat) : Option Refuse :=
  match flightKey fw (m.num (n - 256) 1) with
  | none => some { reason := 2 }
  | some k => failIf (m.poisoned 0 n || !sigOk k m n) 2 0

/-! ### Devices, tiles, holds and legs (R216 to R221) -/

/-- Whether a DEVICE_SET entry keeps R216. -/
def devOk (m : Ram) (d : Nat) : Bool :=
  let pc := popCount (devMask m d)
  let sc := entryNum m SEC_DEVICE_SET d 0x0A 2
  decide (devIndex m d < 1024) && ((List.range d).all fun e => devIndex m e != devIndex m d) &&
  (pc == 16 || pc == 12 || pc == 8) && decide (1 ≤ devTiles m d) && decide (devTiles m d ≤ 16 * pc) &&
  decide (sc ≤ 4) && ((devSpares m d).all fun x => decide (x < 1024)) &&
  ((List.range 4).all fun k => decide (k < sc) || entryNum m SEC_DEVICE_SET d (0x0C + 2 * k) 2 == 0) &&
  (devBuddy m d == 0xFFFF || decide (devBuddy m d < 1024)) && entryNum m SEC_DEVICE_SET d 0x16 10 == 0 &&
  decide (devFirst m d + devTiles m d ≤ hdrTiles m) &&
  ((List.range d).all fun e =>
    decide (devFirst m e + devTiles m e ≤ devFirst m d) || decide (devFirst m d + devTiles m d ≤ devFirst m e))

/-- Whether a TILE_TABLE entry keeps R217 but for what INSTR_MEM and HOLD name. -/
def tileOk (m : Ram) (f : Nat) : Bool :=
  let d := tileSlot m f
  decide (tileLogical m f < 256) && decide (d < hdrDevices m) && decide (devFirst m d ≤ f) &&
  decide (f < devFirst m d + devTiles m d) && decide (1 ≤ tileImemCount m f) &&
  ((List.range f).all fun g => tileSlot m g != d || tileLogical m g != tileLogical m f)

/-- TILES. -/
def checkTiles (m : Ram) : Option Refuse :=
  match (devSlots m).find? fun d => !devOk m d with
  | some d => some { reason := 6, item := devFirst m d }
  | none => firstBad 6 (hdrTiles m) fun f => !tileOk m f

/-- INSTR_MEM. -/
def checkInstr (m : Ram) : Option Refuse :=
  firstSome [
    fun _ => firstBad 7 (hdrTiles m) fun f =>
      decide (4096 < tileImemCount m f) ||
        decide (entryCount m SEC_INSTR < tileImemFirst m f + tileImemCount m f),
    fun _ => firstBad 7 (hdrLegs m) fun l =>
      (List.range (hdrTiles m)).any fun f => (tileLegs m f).contains l && decide (tileImemCount m f ≤ legPc m l)]

/-- Fields of a hold chunk (R219). -/
def chunkAddr (m : Ram) (c : Nat) : Nat := entryNum m SEC_HOLD_CHUNKS c 0 4
def chunkLen (m : Ram) (c : Nat) : Nat := entryNum m SEC_HOLD_CHUNKS c 4 4
def chunkData (m : Ram) (c : Nat) : Nat := entryNum m SEC_HOLD_CHUNKS c 8 8

/-- The chunks of a flight tile. -/
def tileChunks (m : Ram) (f : Nat) : List Nat := (List.range (tileChunkCount m f)).map (· + tileChunkFirst m f)

/-- HOLD. -/
def checkHold (m : Ram) : Option Refuse :=
  firstSome [
    fun _ => firstBad 8 (entryCount m SEC_HOLD_CHUNKS) fun c =>
      !(chunkAddr m c % 8 == 0 && chunkLen m c % 8 == 0 && decide (8 ≤ chunkLen m c) &&
        holdOk (chunkAddr m c) (chunkLen m c) && decide (chunkData m c + chunkLen m c ≤ (sectOf m SEC_HOLD_DATA).size)),
    fun _ => firstBad 8 (hdrTiles m) fun f =>
      decide (entryCount m SEC_HOLD_CHUNKS < tileChunkFirst m f + tileChunkCount m f),
    fun _ => firstBad 8 (entryCount m SEC_HOLD_CHUNKS) fun c =>
      (List.range (hdrTiles m)).any fun f =>
        (tileChunks m f).contains c && (tileChunks m f).any fun e =>
          decide (e < c) && decide (chunkAddr m e < chunkAddr m c + chunkLen m c) &&
            decide (chunkAddr m c < chunkAddr m e + chunkLen m e)]

/-- Whether a leg record keeps R220. -/
def legOk (m : Ram) (l : Nat) : Bool :=
  decide (legPc m l < 4096) && decide (legBarges m l ≤ 1024) &&
  decide (legBargeFirst m l + legBarges m l ≤ entryCount m SEC_BARGES) && decide (legWindows m l ≤ 8) &&
  entryNum m SEC_LEG_RECORDS l 9 3 == 0 &&
  decide (legWindowFirst m l + legWindows m l ≤ entryCount m SEC_WINDOWS)

/-- Whether the leg of variant `v`, position `j` and flight tile `f` keeps R220 and R221. -/
def legEntryOk (m : Ram) (v j f : Nat) : Bool :=
  match legOf m v j f with
  | none => true
  | some l => decide (l < hdrLegs m) && legOk m l

/-- The first (variant, position) at which a test of three numbers fails, with its last number. -/
def planScan (m : Ram) (n : Nat) (bad : Nat → Nat → Nat → Bool) : Option (Nat × Nat × Nat) :=
  (List.range (hdrVariants m)).findSome? fun v =>
    (List.range (hdrPositions m)).findSome? fun j =>
      ((List.range n).find? fun x => bad v j x).map fun x => (v, j, x)

/-- A refusal that names a position and its variant. -/
def atPosition (reason : Nat) (x : Nat × Nat × Nat) : Refuse := { reason := reason, item := x.2.1, variant := x.1 }

/-- LEG_TABLE. -/
def checkLegs (m : Ram) : Option Refuse :=
  firstSome [
    fun _ => (planScan m (hdrTiles m) fun v j f => !legEntryOk m v j f).map (atPosition 9),
    fun _ => failIf (!(List.range (hdrLegs m)).all (legOk m)) 9 0]

/-! ### Plan, freeboard and draught (R202, R223 to R225) -/

/-- The plan limit in nanoseconds (R225). -/
def planLimit (m : Ram) : Nat :=
  let l := 100 * hdrPoundLen m
  l - 10 * hdrGateLead m - ceilDiv (hdrFreeboard m * l) 1000

/-- POUND_LENGTH, GATE_LEAD and FREEBOARD. -/
def checkPlan (m : Ram) : Option Refuse :=
  firstSome [
    fun _ => failIf (decide (hdrPoundLen m < 10) || decide (1000 < hdrPoundLen m)) 0x0A 0,
    fun _ => failIf (decide (hdrGateLead m < 10) || decide (100 < hdrGateLead m) ||
      decide (100 * hdrPoundLen m ≤ 20 * hdrGateLead m)) 0x0B 0,
    fun _ => failIf (decide (hdrFreeboard m < 40) || decide (500 < hdrFreeboard m)) 0x0C 0,
    fun _ => (planScan m (hdrDevices m) fun v j d => decide (planLimit m < planEnd m v j d)).map (atPosition 0x0C)]

/-- Whether a planned clock is in range and keeps FIXED_CLOCK (R223). -/
def clockOk (m : Ram) (v f : Nat) : Bool :=
  let c := planClock m v f
  decide (40 ≤ c) && decide (c ≤ 132) && (hdrFixedClock m == 0 || c == hdrFixedClock m)

/-- DRAUGHT. -/
def checkDraught (m : Ram) : Option Refuse :=
  firstSome [
    fun _ => failIf (decide (hdrVariants m < 1) || decide (4 < hdrVariants m)) 0x0D 0,
    fun _ => failIf (hdrFixedClock m != 0 && (decide (hdrFixedClock m < 40) || decide (120 < hdrFixedClock m))) 0x0D 0,
    fun _ => (List.range (hdrVariants m)).findSome? fun v =>
      ((List.range (hdrTiles m)).find? fun f => !clockOk m v f).map fun f =>
        { reason := 0x0D, item := f, variant := v },
    fun _ => (planScan m (hdrDevices m) fun v j d =>
      decide (0 < v) && decide (planEnergy m (v - 1) j d < planEnergy m v j d)).map (atPosition 0x0D)]

/-! ### Barge descriptors (R178 to R197) -/

/-- Whether a kind is a hold of this or another device. -/
def holdKind (k : Nat) : Bool := k == 1 || k == 2 || k == 5

/-- Whether an endpoint's address keeps the format of its kind (R180, R185). -/
def addrOk (m : Ram) (kind a : Nat) : Bool :=
  match kind with
  | 1 => decide (a < 2 ^ 24)
  | 2 => bitsOf a 31 24 == 0 && decide (a < 2 ^ 40)
  | 3 => decide (a < 2 ^ 40)
  | 4 => decide (a < 2 ^ 57)
  | 5 => bitsOf a 31 24 == 0 && bitsOf a 47 40 == 0 && decide (a < 2 ^ 58) && (slotOfDev m (bitsOf a 57 48)).isSome
  | 6 => decide (a < 2 ^ 50)
  | _ => false

/-- An address inside its endpoint: a hold's byte address without its tile. -/
def inEndpoint (kind a : Nat) : Nat := if holdKind kind then a % 2 ^ 24 else if kind = 6 then a % 2 ^ 48 else a

/-- A descriptor with its addresses taken inside their endpoints. -/
def Desc.inner (d : Desc) : Desc := { d with src := inEndpoint d.srcKind d.src, dst := inEndpoint d.dstKind d.dst }

/-- Formats that a converting barge may name (R195). -/
def cvtCode (f : Nat) : Bool := decide (f ≤ 8) || (decide (0xA ≤ f) && decide (f ≤ 0xC))

/-- CVT, its formats and its block runs (R179, R192, R195, R196). -/
def cvtOk (d : Desc) : Bool :=
  if d.op = 3 then
    !d.cvt && ([10, 12, 13, 14].contains d.cvtFrom) && (d.cvtTo == 13 || d.cvtTo == 14) &&
      d.l0 % (fmtBits d.cvtTo / 8) == 0
  else if !d.cvt then d.cvtFrom == 0 && d.cvtTo == 0 && !d.bs16
  else
    (cvtCode d.cvtFrom || d.cvtFrom == 9) && cvtCode d.cvtTo && d.cvtFrom != d.cvtTo &&
    d.l0 * 8 % fmtBits d.cvtFrom == 0 && !(fmtBlock d.cvtFrom && fmtBlock d.cvtTo) &&
    (!fmtBlock d.cvtFrom || d.elems % blockSize d.bs16 == 0) &&
    (!fmtBlock d.cvtTo || (if d.op = 4 then d.c1 else d.elems) % blockSize d.bs16 == 0) &&
    (d.op != 4 || fmtBits d.cvtFrom == 8 * 2 ^ d.esz)

/-- The counts, region and index list of an operation (R186 to R189, R192). -/
def shapeOk (d : Desc) : Bool :=
  decide (1 ≤ d.l0) && decide (d.l0 < 2 ^ 21) && decide (1 ≤ d.c1) && decide (1 ≤ d.c2) && decide (1 ≤ d.c3) &&
  (match d.op with
    | 0 => true
    | 4 => d.l0 % 2 ^ d.esz == 0
    | _ =>
      d.c2 == 1 && d.c3 == 1 && decide (1 ≤ d.region) && decide (d.aux < 2 ^ 24) &&
        ((d.op == 3 && d.aux == 0xFFFFFF) || (d.aux % 4 == 0 && holdOk d.aux (4 * d.c1))))

/-- The destination strides that a hold's rule reads (R197), each with its count: DST_S1 of a SCATTER or SCATTER_ADD
spaces the region's N records, so N is its count (DESIGN CHOICE: log entry 79). -/
def holdStrides (d : Desc) : List (Nat × Int) :=
  match d.op with
  | 1 => [(d.c1, d.ds1)]
  | 2 | 3 => [(d.region, d.ds1)]
  | 4 => [(d.rows, d.ds1), (d.c2, d.ds2), (d.c3, d.ds3)]
  | _ => [(d.c1, d.ds1), (d.c2, d.ds2), (d.c3, d.ds3)]

/-- The rules of hold endpoints (R197). -/
def holdEndsOk (d : Desc) : Bool :=
  let e := d.inner
  (!holdKind d.srcKind || (srcExts e).all fun x => x.within holdSize) &&
  (!holdKind d.dstKind ||
    (((dstExts e).all fun x => x.within holdSize) &&
      ((dstExts e).take 1).all (fun x => x.base % 8 == 0 && x.run % 8 == 0) &&
      (holdStrides e).all fun x => decide (x.1 ≤ 1) || x.2 % 8 == 0))

/-- Whether a descriptor keeps every rule that its own bytes show. -/
def descStatic (m : Ram) (raw : List Byte) : Bool :=
  let d := descOf raw
  bitsOf d.ctl 31 30 == 0 && (!d.freight || d.lane == 0) && (d.op == 4 || d.esz == 0) && decide (d.op ≤ 4) &&
  ([1, 2, 3, 4, 6].contains d.srcKind) && decide (1 ≤ d.dstKind) && decide (d.dstKind ≤ 6) &&
  (!d.rlcEn || holdKind d.dstKind) && addrOk m d.srcKind d.src && addrOk m d.dstKind d.dst &&
  decide (1 ≤ d.deadline) && decide (d.deadline ≤ 100000) && leNat ((raw.drop 34).take 2) == 0 && shapeOk d &&
  cvtOk d && !(d.op == 3 && d.dstKind == 6) && holdEndsOk d

/-- The place that an endpoint names, for a barge that flight tile `f` issues: its kind, device and tile. -/
def endPlace (m : Ram) (f : Option Nat) (kind a : Nat) : Nat × Nat × Nat :=
  match kind, f with
  | 1, some f => (1, devIndex m (tileSlot m f), tileLogical m f)
  | 1, none => (0, 0, 0)
  | 2, some f => (1, devIndex m (tileSlot m f), bitsOf a 39 32)
  | 2, none => (2, 0, bitsOf a 39 32)
  | 5, _ => (1, bitsOf a 57 48, bitsOf a 39 32)
  | 6, _ => (6, bitsOf a 49 48, 0)
  | k, _ => (k, 0, 0)

/-- The flight tiles that may issue descriptor `i`. -/
def descUsers (m : Ram) (i : Nat) : List (Option Nat) :=
  match (List.range (hdrTiles m)).filter fun f =>
    (tileLegs m f).any fun l => decide (legBargeFirst m l ≤ i) && decide (i < legBargeFirst m l + legBarges m l) with
  | [] => [none]
  | fs => fs.map some

/-- Whether a descriptor's source and destination overlap on some tile that issues it (R187). -/
def descOverlaps (m : Ram) (i : Nat) (d : Desc) : Bool :=
  (descUsers m i).any fun f =>
    endPlace m f d.srcKind d.src == endPlace m f d.dstKind d.dst &&
      (srcExts d.inner).any fun a => (dstExts d.inner).any fun b => a.overlaps b

/-- BARGE_DESCRIPTOR and DEADLINE. -/
def checkBarges (m : Ram) : Option Refuse :=
  let n := entryCount m SEC_BARGES
  firstSome [
    fun _ => firstBad 0x0E n fun i => !descStatic m (bargeBytes m i) || descOverlaps m i (descOf (bargeBytes m i)),
    fun _ => firstBad 0x0F n fun i => decide (planLimit m < (descOf (bargeBytes m i)).deadline)]

/-! ### Windows, routed slots, snapshots and spares -/

/-- WINDOWS. -/
def checkWindows (m : Ram) : Option Refuse :=
  firstBad 0x10 (entryCount m SEC_WINDOWS) fun w =>
    !(decide ((window m w).1 < 2 ^ 57) && decide (1 ≤ (window m w).2) && decide ((window m w).2 ≤ 2 ^ 40))

/-- A routed slot (R226, R301). -/
structure Routed where
  tile  : Nat
  num   : Nat
  bytes : Nat
  cap   : Nat
  ovf   : Nat
  dev   : Nat
  deriving DecidableEq, Repr

/-- Entry `i` of ROUTED_SLOTS. -/
def routed (m : Ram) (i : Nat) : Routed :=
  let n (off len : Nat) := entryNum m SEC_ROUTED i off len
  { tile := n 1 1, num := n 0 1, bytes := n 2 2, cap := n 4 4, ovf := n 8 4, dev := n 12 2 }

/-- The area of a routed slot (R302). -/
def Routed.area (r : Routed) : Nat := roundUp (256 + r.bytes * (r.cap + 2 * r.ovf)) 256

/-- Whether a flight tile of a device slot has a logical number. -/
def slotHasTile (m : Ram) (d lt : Nat) : Bool := (slotTiles m d).any fun f => tileLogical m f == lt

/-- ROUTED_SLOTS. -/
def checkRouted (m : Ram) : Option Refuse :=
  firstBad 0x11 (entryCount m SEC_ROUTED) fun i =>
    let r := routed m i
    let before := (List.range i).map (routed m)
    !(decide (r.dev < hdrDevices m) && slotHasTile m r.dev r.tile && decide (1 ≤ r.cap) && r.bytes % 8 == 0 &&
      decide (8 ≤ r.bytes) && decide (r.bytes ≤ 4096) && entryNum m SEC_ROUTED i 14 2 == 0 &&
      before.all (fun x => !(x.dev == r.dev && x.tile == r.tile && x.num == r.num)) &&
      decide ((before.filter fun x => x.dev == r.dev && x.tile == r.tile).foldl (fun a x => a + x.area) r.area ≤ holdSize))

/-- A range of the SNAPSHOT section. -/
structure SnapRange where
  dev    : Nat
  moored : Bool
  tile   : Nat
  start  : Nat
  len    : Nat
  deriving DecidableEq, Repr

/-- Entry `i` of SNAPSHOT. -/
def snapRange (m : Ram) (i : Nat) : SnapRange :=
  let n (off len : Nat) := entryNum m SEC_SNAPSHOT i off len
  { dev := n 0 2, moored := n 2 1 == 1, tile := n 4 4, start := n 8 4, len := n 12 4 }

/-- The ranges of a device slot, in section order. -/
def slotRanges (m : Ram) (d : Nat) : List SnapRange :=
  ((List.range (entryCount m SEC_SNAPSHOT)).map (snapRange m)).filter fun r => r.dev == d

/-- Bytes of a tile record (R308). -/
def TILE_RECORD : Nat := 0x1B5800

/-- The bytes of a device slot's snapshot, the header included (R227, R308). -/
def snapSize (m : Ram) (d : Nat) : Nat :=
  (slotRanges m d).foldl (fun a r => roundUp a 256 + r.len) (0x1000 + TILE_RECORD * devTiles m d)

/-- SNAPSHOT. -/
def checkSnap (m : Ram) : Option Refuse :=
  firstSome [
    fun _ => firstBad 0x12 (entryCount m SEC_SNAPSHOT) fun i =>
      let r := snapRange m i
      !(decide (r.dev < hdrDevices m) && decide (entryNum m SEC_SNAPSHOT i 2 1 ≤ 1) &&
        entryNum m SEC_SNAPSHOT i 3 1 == 0 && r.start % 8 == 0 && r.len % 8 == 0 &&
        (if r.moored then r.tile == 0 else (slotTiles m r.dev).contains r.tile && holdOk r.start r.len)),
    fun _ => firstBad 0x12 (hdrDevices m) fun d => decide (hdrSnapBytes m < snapSize m d - 0x1000)]

/-- SPARE_MAP. -/
def checkSpares (m : Ram) : Option Refuse :=
  let set := (devSlots m).map (devIndex m)
  firstBad 0x13 (hdrDevices m) fun d =>
    (devSpares m d).any (fun x => set.contains x) || set.contains (devBuddy m d) || !distinct (devSpares m d)

/-! ### Room (R305) -/

/-- Flight store bytes that an image takes with its two snapshot areas. -/
def storeNeed (m : Ram) (n : Nat) : Nat := n + 2 * (4096 + hdrSnapBytes m)

/-- Whether a slot is in use. -/
def Flight.used (f : Flight) : Bool := decide (f.st ≠ .empty)

/-- Flight store bytes in use. -/
def State.storeUsed (s : State) : Nat :=
  (s.flights.filter fun e => e.2.used).foldl (fun a e => a + storeNeed e.2.image e.2.size) 0

/-- The lowest free flight slot. -/
def State.freeFlight (s : State) : Option Nat := (List.range 256).find? fun k => !(s.flight k).used

/-- The supported features, as the Waybill lists them (R213, R641): the spec states no list. -/
def FEATURES : Nat := 0x77FFF &&& (0x7FFFF ^^^ Config.featuresAbsent)

/-- FORMAT_SUPPORT: the first feature that is not supported. -/
def checkFeatures (m : Ram) : Option Refuse :=
  firstBad 5 32 fun i => bitOf (hdrFeatures m) i && !bitOf FEATURES i

/-- Every load check on an image of `n` bytes, in the order of R231. -/
def State.loadCheck (s : State) (m : Ram) (n : Nat) : Option Refuse :=
  firstSome [
    fun _ => checkFormat m n,
    fun _ => checkSignature s.boot.store m n,
    fun _ => failIf (decide (s.boot.flightStore < s.storeUsed + storeNeed m n)) 3 0,
    fun _ => failIf s.freeFlight.isNone 4 0,
    fun _ => checkFeatures m, fun _ => checkTiles m, fun _ => checkInstr m, fun _ => checkHold m,
    fun _ => checkLegs m, fun _ => checkPlan m, fun _ => checkDraught m, fun _ => checkBarges m,
    fun _ => checkWindows m, fun _ => checkRouted m, fun _ => checkSnap m, fun _ => checkSpares m]

end Sys2Proof.Machine
end

