-- ==== Sys2Proof/Machine/TileImage.lean ====
section
/-! DEFINITION. What bind writes into a tile (R219, R232, R233), the zeroing of a tile (R81), and the layout of a
snapshot (R308), written and read back. -/

namespace Sys2Proof.Machine

/-! ### Tables as bytes -/

/-- The nonzero bytes of an `n`-byte little-endian number at an offset. -/
def numCells (off n v : Nat) : SMap Byte :=
  ((toLe n v).zipIdx.filter fun b => b.1 ≠ 0).map fun b => (off + b.2, b.1)

/-- A table moved upward. -/
def shiftMap {α : Type} (k : Nat) (m : SMap α) : SMap α := m.map fun e => (e.1 + k, e.2)

/-- The entries of a table from `a`, `n` keys of it, moved down to 0. -/
def cutMap {α : Type} (m : SMap α) (a n : Nat) : SMap α :=
  (m.filter fun e => decide (a ≤ e.1) && decide (e.1 < a + n)).map fun e => (e.1 - a, e.2)

/-- A part of a memory, moved down to 0. -/
def Ram.cut (m : Ram) (a n : Nat) : Ram := { bytes := cutMap m.bytes a n, marks := cutMap m.marks (a / 8) (n / 8) }

/-- Memories laid side by side at rising offsets. -/
def Ram.lay (parts : List (Nat × Ram)) : Ram :=
  { bytes := parts.flatMap fun p => shiftMap p.1 p.2.bytes,
    marks := parts.flatMap fun p => shiftMap (p.1 / 8) p.2.marks }

/-- A bit string over the keys of a table that satisfy a test. -/
def maskFrom (n : Nat) (p : Nat → Bool) : Nat :=
  (List.range n).foldl (fun a i => if p i then a + 2 ^ i else a) 0

/-- A table of the bits of a number that are set. -/
def bitsMap (n v : Nat) : SMap Bool := ((List.range n).filter fun i => bitOf v i).map fun i => (i, true)

/-! ### Zeroing and images -/

/-- A tile's state as zeroing leaves it (R81); its place in the device stays. -/
def Tile.zeroed (x : Tile) : Tile :=
  { st := x.st, service := x.service, clk := x.clk, step := x.step, nextId := x.nextId, inject := x.inject }

/-- Writes a flight tile's instruction image from index 0 onward; an armed injection spoils the first bundle. -/
def Tile.writeImem (x : Tile) (m : Ram) (f : Nat) : Tile :=
  let n := tileImemCount m f
  let base := (sectOf m SEC_INSTR).off + 16 * tileImemFirst m f
  let im : SMap Quad := ((List.range n).map fun i => (i, BitVec.ofNat 128 (m.num (base + 16 * i) 16))).filter fun e => e.2 ≠ 0
  let hit := decide (x.inject = some 4) && decide (0 < n)
  { x with imem := im, imemBad := if hit then [(0, true)] else [], inject := if hit then none else x.inject }

/-- Writes a flight tile's hold chunks. -/
def Tile.writeChunks (x : Tile) (m : Ram) (f : Nat) : Tile :=
  (tileChunks m f).foldl (fun x c =>
    let src := (sectOf m SEC_HOLD_DATA).off + chunkData m c
    x.putHold (chunkAddr m c) ((m.read src (chunkLen m c)).map fun b => (b, false))) x

/-- Steps 3 and 4 of a bind on one tile (R232). -/
def Tile.writeImage (x : Tile) (m : Ram) (f : Nat) : Tile :=
  let x := (x.writeImem m f).writeChunks m f
  { x with buf0 := {}, buf1 := {} }

/-- Writes a flight tile's images into a physical tile. -/
def State.imageTile (s : State) (t : Nat) (m : Ram) (f : Nat) : State :=
  let x := s.tile t
  let y := x.writeImage m f
  (s.setTile t y).injUsed x y

/-! ### A tile record (R308) -/

/-- The bytes of a bank's entries, 16 B each. -/
def bankBytes (k : Bank) : SMap Byte := k.entries.flatMap fun e => numCells (16 * e.1) 16 e.2.1.toNat

/-- Poison of a bank's entries; one whose check bits are bad reads poisoned (R84). -/
def bankPoison (k : Bank) : Nat := maskFrom 4096 fun e => (sget (0, false) k.entries e).2 || sget false k.bad e

/-- A stationary buffer's words, poisoned ones with the reserved syndrome. -/
def bufRam (k : StatBuf) : Ram :=
  { bytes := k.bytes,
    marks := ((List.range 896).filter fun w =>
      sget false k.poison w || (List.range 8).any fun i => sget false k.bad (8 * w + i)).map fun w => (w, 3) }

/-- A buffer's tag word. -/
def tagWord : Option BufTags → Nat
  | none => 0
  | some t => 1 + 2 * bnat t.sp + 4 * bnat t.bs16 + 8 * t.fmt + 2 ^ 16 * (t.ea % (2 ^ 16 : Int)).toNat

/-- The control block. -/
def controlBytes (x : Tile) : SMap Byte :=
  (x.sregs.flatMap fun e => numCells (8 * e.1) 8 e.2.toNat) ++
  numCells 0x100 4 (maskFrom 32 x.rsPoison) ++ numCells 0x104 1 (maskFrom 8 x.rp) ++ numCells 0x105 1 (maskFrom 8 x.rpPoison) ++
  numCells 0x106 2 x.gx.toNat ++ (x.lcs.flatMap fun e => numCells (0x108 + 2 * e.1) 2 e.2) ++
  numCells 0x128 1 x.sticky ++ numCells 0x129 1 (x.bank0.width + 4 * x.bank1.width) ++
  numCells 0x12C 4 (tagWord x.buf0.tags) ++ numCells 0x130 4 (tagWord x.buf1.tags) ++
  numCells 0x400 512 (bankPoison x.bank0) ++ numCells 0x600 512 (bankPoison x.bank1) ++
  numCells 0x800 2048 (maskFrom 16384 fun i => sget false x.vpoison i || sget false x.vbad i)

/-- Hold words as a snapshot stores them: corrected, or with the reserved syndrome where poisoned. -/
def holdRam (h : Ram) : Ram := { h with marks := (h.marks.filter fun e => badMark e.2).map fun e => (e.1, 3) }

/-- A tile record. -/
def tileRecord (x : Tile) : Ram :=
  .lay [(0, holdRam x.hold), (0x180000, { bytes := bankBytes x.bank0 }), (0x190000, { bytes := bankBytes x.bank1 }),
        (0x1A0000, { bytes := x.vregs.flatMap fun e => numCells (4 * e.1) 4 e.2.toNat }),
        (0x1B0000, bufRam x.buf0), (0x1B1C00, bufRam x.buf1), (0x1B3800, { bytes := controlBytes x })]

/-- The entries of a bank record. -/
def bankEntries (b : SMap Byte) (poison : Nat) : SMap (Quad × Bool) :=
  ((List.range 4096).map fun e =>
    (e, (BitVec.ofNat 128 (leNat (sgetList 0 b (16 * e) 16)), bitOf poison e))).filter fun e => e.2 ≠ (0, false)

/-- A stationary buffer of a record. -/
def bufOf (r : Ram) (tag : Nat) : StatBuf :=
  let t : Option BufTags :=
    if bitOf tag 0 then
      some { fmt := bitsOf tag 6 3, sp := bitOf tag 1, bs16 := bitOf tag 2, ea := signedOf (tag / 2 ^ 16) 16 }
    else none
  { bytes := r.bytes, poison := (r.marks.filter fun e => badMark e.2).map fun e => (e.1, true), tags := t, expected := t }

/-- A tile that takes the state of a record; its instruction memory stays, and a restore clears the sticky flags (R147). -/
def Tile.restored (x : Tile) (r : Ram) : Tile :=
  let c := r.cut 0x1B3800 8192
  { x.zeroed with
    imem := x.imem, imemBad := x.imemBad, flight := x.flight
    hold := holdRam (r.cut 0 0x180000)
    bank0 := { entries := bankEntries (cutMap r.bytes 0x180000 0x10000) (c.num 0x400 512), width := c.num 0x129 1 % 4 }
    bank1 := { entries := bankEntries (cutMap r.bytes 0x190000 0x10000) (c.num 0x600 512), width := bitsOf (c.num 0x129 1) 3 2 }
    vregs := ((List.range 16384).map fun i => (i, BitVec.ofNat 32 (r.num (0x1A0000 + 4 * i) 4))).filter fun e => e.2 ≠ 0
    vpoison := bitsMap 16384 (c.num 0x800 2048)
    buf0 := bufOf (r.cut 0x1B0000 7168) (c.num 0x12C 4)
    buf1 := bufOf (r.cut 0x1B1C00 7168) (c.num 0x130 4)
    sregs := ((List.range 32).map fun i => (i, BitVec.ofNat 64 (c.num (8 * i) 8))).filter fun e => e.1 ≠ 0 ∧ e.2 ≠ 0
    spoison := (bitsMap 32 (c.num 0x100 4)).filter fun e => e.1 ≠ 0
    preds := (bitsMap 8 (c.num 0x104 1)).filter fun e => e.1 ≠ 0
    ppoison := (bitsMap 8 (c.num 0x105 1)).filter fun e => e.1 ≠ 0
    gx := BitVec.ofNat 16 (c.num 0x106 2)
    lcs := ((List.range 16).map fun i => (i, c.num (0x108 + 2 * i) 2)).filter fun e => e.2 ≠ 0 }

/-! ### A snapshot (R227, R308) -/

/-- Snapshot magic number. -/
def SNAP_MAGIC : Nat := 0x50534E41

/-- Fields of a snapshot's header. -/
def snapPound (r : Ram) : Nat := r.num 0x008 8
def snapBytes (r : Ram) : Nat := r.num 0x018 8
def snapPosition (r : Ram) : Nat := r.num 0x020 4

/-- CHECK of a snapshot of `n` bytes. -/
def snapCheck (r : Ram) (n : Nat) : Nat :=
  crc32 (sslice 0 r.bytes 0 0x2C ++ sslice 0 r.bytes 0x1000 (n - 0x1000))

/-- `n` bytes of a memory from `a`, with the poison of each one's word. -/
def Ram.pbytes (m : Ram) (a n : Nat) : List (Byte × Bool) :=
  (sslice 0 m.bytes a n).zipIdx.map fun b => (b.1, badMark (m.mark (a + b.2)))

/-- A snapshot with its CHECK written. -/
def snapSeal (r : Ram) (n : Nat) : Ram := r.write 0x02C (toLe 4 (snapCheck r n))

/-- The offset of each range of a device slot in its snapshot, with the range. -/
def rangePlaces (m : Ram) (d : Nat) : List (Nat × SnapRange) :=
  ((slotRanges m d).foldl (fun (a : Nat × List (Nat × SnapRange)) r =>
    let o := roundUp a.1 256
    (o + r.len, a.2 ++ [(o, r)])) (0x1000 + TILE_RECORD * devTiles m d, [])).2

/-- The header of a snapshot, CHECK apart. -/
def snapHeader (m : Ram) (d pound pos tag origin : Nat) : SMap Byte :=
  numCells 0 4 SNAP_MAGIC ++ numCells 4 2 1 ++ numCells 6 2 d ++ numCells 8 8 pound ++ numCells 0x10 8 (hdrBuild m) ++
  numCells 0x18 8 (snapSize m d) ++ numCells 0x20 4 pos ++ numCells 0x24 2 (devTiles m d) ++ numCells 0x26 1 tag ++
  numCells 0x27 1 origin ++ numCells 0x28 4 (slotRanges m d).length

/-- The physical tile of a flight tile on this device. -/
def State.tileOf (s : State) (m : Ram) (f : Nat) : Option Nat := s.physTile (tileLogical m f)

/-- A flight's tiles on this device with their flight tile numbers: those bound to its slot. -/
def State.tilesOf (s : State) (k : Nat) : List (Nat × Nat) :=
  s.tiles.filterMap fun e =>
    match e.2.flight with
    | some (j, f) => if j = k then some (e.1, f) else none
    | none => none

/-- The physical tile that holds flight tile `f` of slot `k`. -/
def State.holder (s : State) (k f : Nat) : Option Nat := ((s.tilesOf k).find? fun e => e.2 == f).map Prod.fst

/-- The snapshot of the flight in a slot, as the device's part stands now. -/
def State.snapshotOf (s : State) (k pound : Nat) : Ram :=
  let f := s.flight k
  let m := f.image
  let d := f.devSlot
  let recs := (slotTiles m d).zipIdx.map fun x =>
    (0x1000 + TILE_RECORD * x.2,
      match s.holder k x.1 with
      | some t => tileRecord (s.tile t)
      | none => ({} : Ram))
  let rngs := (rangePlaces m d).map fun x =>
    (x.1,
      if x.2.moored then holdRam (s.basin.moored.cut x.2.start x.2.len)
      else
        match s.holder k x.2.tile with
        | some t => holdRam ((s.tile t).hold.cut x.2.start x.2.len)
        | none => {})
  snapSeal (.lay ((0, { bytes := snapHeader m d pound f.pos f.tag 0 }) :: recs ++ rngs)) (snapSize m d)

/-- The first header field that a restore's checks refuse, in the order of R311, by its offset. -/
def snapRefuse (m : Ram) (d : Nat) (r : Ram) : Option Nat :=
  if r.num 0 4 ≠ SNAP_MAGIC then some 0
  else if r.num 4 2 ≠ 1 then some 4
  else if r.num 0x10 8 ≠ hdrBuild m then some 0x10
  else if r.num 6 2 ≠ d then some 6
  else if r.num 0x24 2 ≠ devTiles m d then some 0x24
  else if snapBytes r ≠ snapSize m d then some 0x18
  else if r.num 0x2C 4 ≠ snapCheck r (snapBytes r) then some 0x2C
  else none

/-- Writes a snapshot's tile records and ranges into a bound flight's tiles and moored ranges, and its position. -/
def State.restoreFrom (s : State) (k : Nat) (r : Ram) : State :=
  let f := s.flight k
  let m := f.image
  let d := f.devSlot
  let s := (slotTiles m d).zipIdx.foldl (fun s x =>
    match s.holder k x.1 with
    | some t =>
      let old := s.tile t
      let y : Tile := if old.imem.isEmpty then (old.writeImem m x.1) else old
      let z : Tile := { y.restored (r.cut (0x1000 + TILE_RECORD * x.2) TILE_RECORD) with clk := old.clk }
      (s.setTile t z).injUsed old z
    | none => s) s
  let s := (rangePlaces m d).foldl (fun s x =>
    let part := r.cut x.1 x.2.len
    let put (dst : Ram) : Ram :=
      (part.marks.foldl (fun q e => q.setMark (x.2.start + 8 * e.1) e.2)
        ((dst.write x.2.start (sslice 0 part.bytes 0 x.2.len)).markRange x.2.start x.2.len 0))
    if x.2.moored then { s with basin := { s.basin with moored := put s.basin.moored } }
    else
      match s.holder k x.2.tile with
      | some t => s.modTile t fun y => { y with hold := put y.hold }
      | none => s) s
  s.modFlight k fun f => { f with pos := snapPosition r }

end Sys2Proof.Machine
end

