-- ==== Sys2Proof/Machine/FlightCmds.lean ====
section
/-! DEFINITION. The flight commands (06, 08): load, bind, run, moor, resume, halt, snapshot and restore, with the
events that end their work. -/

namespace Sys2Proof.Machine

/-! ### Which flight a command names (R236, R654) -/

/-- Slots and tags are bytes. -/
def badByte (n : Nat) : Bool := decide (256 ≤ n)

/-- Continues with a flight of the issuing context whose state the command accepts. -/
def State.ofFlight (s : State) (k : Cmd) (slot : Nat) (legal : Flight → Bool) (act : State → State) : State :=
  let f := s.flight slot
  if f.used ∧ f.ctx ≠ k.c ∧ k.c ≠ 0 then s.fin k { status := ST_ACCESS_DENIED }
  else if !legal f then s.fin k { status := ST_STATE_REJECT }
  else act s

/-- A flight in a state, no bind in progress. -/
def Flight.at_ (f : Flight) (states : List FState) : Bool := states.contains f.st && f.binding.isNone

/-! ### Load (R229 to R231) -/

/-- A memory of the bytes that a command read, with their poison. -/
def ramOf (bs : PBytes) : Ram :=
  let ix := bs.zipIdx
  { bytes := (ix.filter fun e => e.1.1 ≠ 0).map fun e => (e.2, e.1.1),
    marks := (((ix.filter fun e => e.1.2).map fun e => e.2 / 8).eraseDups).map fun w => (w, 3) }

/-- LOAD_FLIGHT. -/
def State.doLoad (s : State) (k : Cmd) (image off len : Nat) : State :=
  s.wellFormed k [(off % 256 != 0, 0x10)] fun s => s.withObj k image OBJ_R false fun s o =>
    s.wellFormed k [(decide (o.len < off + len), 0x10)] fun s =>
      s.withExtent k o off len NEED_R false fun s gs =>
        let x := s.readSegs o.ctx gs
        let m := ramOf x.2
        if hdrSize m ≠ len then x.1.fin k { status := ST_BAD_DESCRIPTOR, detail := 0x18 }
        else
          match x.1.loadCheck m len, x.1.freeFlight with
          | some r, _ => x.1.fin k { status := ST_REFUSED_AT_LOAD, detail := r.detail }
          | none, some i => (x.1.setFlight i { st := .loaded, ctx := k.c, size := len, image := m }).fin k { result := i }
          | none, none => x.1

/-! ### Bind (R231, R232) -/

/-- The device's index as the waterway knows it. -/
def State.devIndexNow (s : State) : Nat := if s.ww.joined then s.ww.index else 0xFFFF

/-- The mask of active reaches. -/
def State.reachMask (s : State) : Nat := s.fuses.reaches.foldl (fun a p => a + 2 ^ p) 0

/-- The device slots whose SPARES list names a device. -/
def sparesFor (m : Ram) (x : Nat) : List Nat := (devSlots m).filter fun d => (devSpares m d).contains x

/-- PLACEMENT: the device slot that the device would serve, or none where it stands by. -/
def State.placement (s : State) (m : Ram) : Refuse ⊕ Option Nat :=
  match slotOfDev m s.devIndexNow, sparesFor m s.devIndexNow with
  | some d, _ =>
    if devMask m d = s.reachMask then .inr (some d) else .inl { reason := 0x14, item := d, bind := true }
  | none, [] => .inl { reason := 0x14, bind := true }
  | none, d :: ds =>
    if (d :: ds).any fun e => devMask m e == s.reachMask then .inr none
    else .inl { reason := 0x14, item := d, bind := true }

/-- A check of a bind. -/
def bindIf (bad : Bool) (reason item : Nat) : Option Refuse :=
  if bad then some { reason := reason, item := item, bind := true } else none

/-- The first of some items that is bad. -/
def bindBad (reason : Nat) (l : List Nat) (bad : Nat → Bool) : Option Refuse :=
  (l.find? bad).map fun i => { reason := reason, item := i, bind := true }

/-- Checks that a standby registration makes too: POUND_LENGTH and GATE_LEAD. -/
def State.bindTime (s : State) (m : Ram) : Option Refuse :=
  firstSome [
    fun _ => bindIf (hdrPoundLen m != s.fld TCK_PLEN 9 0) 0x0A 0,
    fun _ => bindIf (decide (hdrGateLead m < s.fld TCK_GATE 6 0)) 0x0B 0]

/-- TAG: another flight bound here, or being bound, has it. -/
def State.tagTaken (s : State) (slot tag : Nat) : Bool :=
  s.flights.any fun e => e.1 != slot && e.2.reserves && e.2.tag == tag

/-- A tile that may be bound: FREE and named by no bind in progress. -/
def State.tileFree (s : State) (lt : Nat) : Bool :=
  match s.physTile lt with
  | some t => decide ((s.tile t).st = .free) && (s.tile t).flight.isNone
  | none => false

/-- TILES_BUSY and GRADE. -/
def State.bindTiles (s : State) (m : Ram) (d : Nat) : Option Refuse :=
  firstSome [
    fun _ => bindBad 0x16 (slotTiles m d) fun f => !s.tileFree (tileLogical m f),
    fun _ => (List.range (hdrVariants m)).findSome? fun v =>
      ((slotTiles m d).find? fun f =>
        match s.tileOf m f with
        | some t => decide ((s.tile t).service < planClock m v f)
        | none => true).map fun f => { reason := 0x17, item := f, variant := v, bind := true }]

/-- The LANE_PLAN entries of a device slot: entry, link and lane, positions. -/
def laneEnts (m : Ram) (d : Nat) : List (Nat × (Nat × Nat × Nat) × Nat) :=
  (List.range (entryCount m SEC_LANE_PLAN)).filterMap fun i =>
    let n (off len : Nat) := entryNum m SEC_LANE_PLAN i off len
    if n 0 2 = d then some (i, (n 2 1, n 3 1, n 4 1), n 8 8) else none

/-- The positions that other flights reserve on a link and lane. -/
def State.laneTaken (s : State) (slot : Nat) (link : Nat × Nat × Nat) : Nat :=
  (s.flights.filter fun e => e.1 != slot && e.2.reserves).foldl (fun a e =>
    (laneEnts e.2.image e.2.devSlot).foldl (fun a x => if x.2.1 = link then a ||| x.2.2 else a) a) 0

/-- LANE_PLAN (R206). -/
def State.bindLanes (s : State) (slot : Nat) (m : Ram) (d : Nat) : Option Refuse :=
  let es := laneEnts m d
  (es.find? fun x =>
    let own := es.foldl (fun a y => if y.1 ≤ x.1 && y.2.1 == x.2.1 then a ||| y.2.2 else a) 0
    let others := s.laneTaken slot x.2.1
    decide (x.2.2 &&& others ≠ 0) || decide (56 < popCount (own ||| others))).map fun x =>
      { reason := 0x18, item := x.1, bind := true }

/-- STACK_RESERVATION (R330). -/
def State.bindStacks (s : State) (m : Ram) (d : Nat) : Option Refuse :=
  bindBad 0x19 (List.range (entryCount m SEC_STACK_RES)) fun i =>
    entryNum m SEC_STACK_RES i 0 2 == d &&
      (let port := entryNum m SEC_STACK_RES i 2 1
       let own := (List.range (i + 1)).foldl (fun r k =>
         if entryNum m SEC_STACK_RES k 0 2 == d && entryNum m SEC_STACK_RES k 2 1 == port then
           (r.1 + entryNum m SEC_STACK_RES k 4 2, r.2 + entryNum m SEC_STACK_RES k 6 2) else r) (0, 0)
       let held := s.stkReserved port
       !fitsCap (own.1 + held.1, own.2 + held.2) (s.stkCap port))

/-- The canal slots that a flight's tables reserve on a device slot. -/
def canalCells (m : Ram) (d : Nat) : List (Nat × Nat) :=
  (((imageTabs m).getD []).filter fun t => t.dev == d).flatMap SlotTab.cells

/-- CANAL_SLOTS. -/
def State.bindCanals (s : State) (slot : Nat) (m : Ram) (d : Nat) : Option Refuse :=
  let others := (s.flights.filter fun e => e.1 != slot && e.2.reserves).flatMap fun e =>
    canalCells e.2.image e.2.devSlot
  ((canalCells m d).find? fun c => others.contains c).map fun c => { reason := 0x1A, item := c.1, bind := true }

/-- MOORED (R183). -/
def State.bindMoored (s : State) (m : Ram) (d : Nat) : Option Refuse :=
  let legs := ((slotTiles m d).flatMap (tileLegs m)).eraseDups
  bindBad 0x1B (List.range (entryCount m SEC_BARGES)) fun i =>
    (legs.any fun l => decide (legBargeFirst m l ≤ i) && decide (i < legBargeFirst m l + legBarges m l)) &&
      !(descOf (bargeBytes m i)).mooredWithin (s.mooredSize s.basin.moor)

/-- The checks of a bind to a device slot, after PLACEMENT and TAG. -/
def State.bindSlot (s : State) (slot : Nat) (m : Ram) (d : Nat) : Option Refuse :=
  firstSome [
    fun _ => s.bindTiles m d, fun _ => s.bindLanes slot m d, fun _ => s.bindStacks m d,
    fun _ => s.bindCanals slot m d, fun _ => s.bindMoored m d]

/-- Zeroes a tile that a bind names, unless it is FREE and zeroed already: a write through BAR4 or by the maintenance
engine may have reached its hold since (R81, R219, R232). -/
def State.zeroForBind (s : State) (t : Nat) : State :=
  let x := s.tile t
  if x.zeroed = { x with flight := none } then s else s.setTile t x.zeroed

/-- A flight as bind starts it: its tag, device slot and slot map (R185); its position is 0 and no routed item has
been dropped. -/
def Flight.starting (f : Flight) (tag d : Nat) (fence : Option EndFence) : Flight :=
  { st := .loaded, ctx := f.ctx, size := f.size, image := f.image, tag := tag, binding := some false, devSlot := d,
    fence := fence, areas := f.areas, replicaSlot := f.replicaSlot,
    slotMap := (devSlots f.image).foldl (fun m e => sput (devIndex f.image e) (devIndex f.image e) m) [] }

/-- Bind steps 1 and 2: reservations are held by the bind in progress, its tiles are named, and they hold zeros
(R232). -/
def State.startBind (s : State) (slot tag d : Nat) (fence : Option EndFence) : State :=
  let f := s.flight slot
  let s := s.setFlight slot (f.starting tag d fence)
  (slotTiles f.image d).foldl (fun s i =>
    match s.tileOf f.image i with
    | some t => (s.zeroForBind t).modTile t fun x => { x with flight := some (slot, i) }
    | none => s) s

/-- BIND_FLIGHT. -/
def State.doBind (s : State) (k : Cmd) (slot tag fence off value : Nat) : State :=
  s.wellFormed k [(badByte slot, 0x08), (badByte tag, 0x09)] fun s =>
    s.withObj k fence (OBJ_W ||| OBJ_FENCE) false fun s o =>
      s.wellFormed k [(decide ((o.va + off) % 8 ≠ 0) || decide (o.len < off + 8), 0x10)] fun s =>
        s.ofFlight k slot (fun f => f.at_ [.loaded] && !f.standby) fun s =>
          let m := (s.flight slot).image
          let e : EndFence := { ctx := o.ctx, va := o.va + off, value := value }
          let refused (r : Refuse) : State := s.fin k { status := ST_REFUSED_AT_LOAD, detail := r.detail }
          match s.bindTime m, s.placement m with
          | some r, _ => refused r
          | none, .inl r => refused r
          | none, .inr d =>
            if s.tagTaken slot tag then refused { reason := 0x15, item := tag, bind := true }
            else
              match d with
              | none => (s.modFlight slot fun f => { f with standby := true, tag := tag, fence := some e }).fin k {}
              | some d =>
                match s.bindSlot slot m d with
                | some r => refused r
                | none => (s.startBind slot tag d (some e)).await k (.bind slot)

/-- BIND_IMAGES_WRITTEN: the instruction images and hold chunks of a bind's tiles are written (R232, R233). -/
def State.doBindImages (s : State) (slot : Nat) : State :=
  let f := s.flight slot
  if f.binding = some false then
    let s := (s.tilesOf slot).foldl (fun s e => s.imageTile e.1 f.image e.2) s
    s.modFlight slot fun f => { f with binding := some true, pos := 0 }
  else s

/-! ### Run, moor, resume, halt (R237, R243, R246, R654) -/

/-- RUN_FLIGHT. -/
def State.doRun (s : State) (k : Cmd) (slot start : Nat) : State :=
  s.wellFormed k [(badByte slot, 0x08)] fun s => s.ofFlight k slot (·.at_ [.bound]) fun s =>
    if start ≤ s.poundNow + 1 then s.fin k { status := ST_START_PASSED }
    else
      (s.modFlight slot fun f => { f with st := .armed, startPound := start, defers := 0,
                                          lockinDone := false, lockinOk := false }).await k (.run slot)

/-- MOOR_FLIGHT. -/
def State.doMoor (s : State) (k : Cmd) (slot : Nat) : State :=
  s.wellFormed k [(badByte slot, 0x08)] fun s => s.ofFlight k slot (·.at_ [.running]) fun s =>
    (s.orderTag (s.flight slot).tag fun t => { t with moor := true }).await k (.moor slot)

/-- RESUME_FLIGHT. -/
def State.doResume (s : State) (k : Cmd) (slot : Nat) : State :=
  s.wellFormed k [(badByte slot, 0x08)] fun s => s.ofFlight k slot (·.at_ [.moored, .held]) fun s =>
    (s.orderTag (s.flight slot).tag fun t => { t with resume := true }).await k (.resume slot)

/-- HALT_FLIGHT. -/
def State.doHalt (s : State) (k : Cmd) (slot release : Nat) : State :=
  s.wellFormed k [(badByte slot, 0x08), (decide (1 < release), 0x09)] fun s =>
    let f := s.flight slot
    let rel := release == 1
    s.ofFlight k slot (fun f => f.used && (decide (f.st ≠ .loaded) || f.binding.isSome || f.standby || rel)) fun s =>
      if f.st ≠ .loaded ∨ f.binding.isSome then (s.haltOrder slot rel).await k (.halt slot rel)
      else if rel then (s.setFlight slot {}).fin k {}
      else (s.modFlight slot fun f => { f with standby := false, fence := none }).fin k {}

/-- START_DEFER_LIMIT: a start deferred for 64 locks is missed (R239). -/
def State.doDeferLimit (s : State) (slot : Nat) : State :=
  let f := s.flight slot
  if f.st = .armed ∧ 64 ≤ f.defers then
    let s := s.modFlight slot fun f => { f with st := .bound, defers := 0 }
    s.finishWaits fun w => if w = .run slot then some { status := ST_START_MISSED } else none
  else s

/-- BARRIER_TIMEOUT: 64 locks of a barrier's hold make the flight FATAL (R297). -/
def State.doBarrierTimeout (s : State) (slot : Nat) : State :=
  let f := s.flight slot
  if f.st = .held ∧ 64 ≤ f.barrierHeld then
    (s.fault { msgOf K_BARRIER_TIMEOUT 11 slot with slot := slot }).drainAborts
  else s

/-- The start of a restore: the snapshot is written and the copy runs. -/
def State.startRestore (s : State) (slot : Nat) (r : Ram) (muster : Bool) : State :=
  (s.restoreFrom slot r).modFlight slot fun f => { f with restoring := some (snapPound r, muster) }

/-- A flight's restore after a fault (R315): from its last snapshot, or from the newest replica where it took none
itself; it waits for what an overrun left in flight, and a flight with no snapshot is FATAL. -/
def State.beginRestore (s : State) (slot : Nat) : State :=
  let f := s.flight slot
  let newest := (f.areas.filter fun a => a.complete && a.replica && a.bytes.num 6 2 == f.devSlot).foldl (fun b a =>
    match b with
    | none => some a
    | some x => if x.pound ≤ a.pound then some a else b) (none : Option SnapArea)
  if f.overrun then s.modFlight slot fun f => { f with needRestore := true }
  else
    let s := s.modFlight slot fun f => { f with needRestore := false }
    match lastSnap f <|> newest with
    | some a => s.startRestore slot a.bytes true
    | none => s.fatalFlight slot 0

/-! ### Snapshots (R306 to R311) -/

/-- Bytes of a snapshot area (R305). -/
def areaBytes (m : Ram) : Nat := 4096 + hdrSnapBytes m

/-- SNAPSHOT. -/
def State.doSnapshot (s : State) (k : Cmd) (slot exportH off : Nat) : State :=
  s.wellFormed k [(badByte slot, 0x08)] fun s =>
    let ok (f : Flight) : Bool := f.at_ [.bound, .running, .moored, .done]
    let go (s : State) (e : Option (Nat × Nat × Nat)) (uses : List (Nat × Nat × Nat)) : State :=
      (s.orderTag (s.flight slot).tag fun t => { t with snap := true }).await k (.snap slot e 0) uses
    if exportH = 0 then s.ofFlight k slot ok fun s => go s none []
    else
      s.withObj k exportH OBJ_W false fun s o =>
        let n := areaBytes (s.flight slot).image
        s.wellFormed k [(decide (o.len < n), 0x0C), (decide (o.len < off + n), 0x10)] fun s =>
          s.ofFlight k slot ok fun s =>
            let bytes := snapSize (s.flight slot).image (s.flight slot).devSlot
            s.withExtent k o off bytes NEED_W true fun s _ =>
              go s (some (exportH, o.ctx, o.va + off)) [(o.ctx, o.va + off, bytes)]

/-- The complete snapshot of a pound that the device's areas hold (R311). -/
def areaOf (f : Flight) (pound : Nat) : Option SnapArea := f.areas.find? fun a => a.complete && a.pound == pound

/-- The area that a new snapshot takes: a free one, or that of the older snapshot. -/
def Flight.withArea (f : Flight) (a : SnapArea) : Flight :=
  let keep := f.areas.filter fun x => x.complete
  let newest := keep.foldl (fun b x =>
    match b with
    | none => some x
    | some y => if y.pound ≤ x.pound then some x else b) none
  { f with areas := (match newest with
      | some x => if keep.length < 2 then keep else [x]
      | none => []) ++ [a] }

/-- RESTORE. -/
def State.doRestore (s : State) (k : Cmd) (slot source importH off pound : Nat) : State :=
  s.wellFormed k [(badByte slot, 0x08), (decide (1 < source), 0x09)] fun s =>
    let go (s : State) (r : Ram) (field : Nat) : State :=
      let f := s.flight slot
      match snapRefuse f.image f.devSlot r with
      | some a => s.fin k { status := ST_BAD_DESCRIPTOR, detail := field, result := a }
      | none =>
        let s := if f.overrun then s.modFlight slot fun f => { f with restoreDue := some r }
          else s.startRestore slot r false
        s.await k (.restore slot (snapPound r))
    let legal (s : State) (act : State → State) : State := s.ofFlight k slot (·.at_ [.bound, .moored, .held, .done]) act
    if source = 0 then
      legal s fun s =>
        match areaOf (s.flight slot) pound with
        | some a => go s a.bytes 0x18
        | none => s.fin k { status := ST_BAD_DESCRIPTOR, detail := 0x18, result := 2 ^ 64 - 1 }
    else
      s.withObj k importH OBJ_R false fun s o => legal s fun s =>
        let f := s.flight slot
        let n := snapSize f.image f.devSlot
        s.wellFormed k [(decide (o.len < off + n), 0x10)] fun s =>
          s.withExtent k o off n NEED_R false fun s gs =>
            let x := s.readSegs o.ctx gs
            go x.1 (ramOf x.2) 0x0C

/-- RESTORE_COPY_DONE: a restored flight is MOORED and its RESTORE completes; one restored after a fault enters its
restore muster (R311, R315). -/
def State.doRestoreDone (s : State) (slot : Nat) : State :=
  match (s.flight slot).restoring with
  | none => s
  | some (l, muster) =>
    if muster then
      let s := s.modFlight slot fun f => { f with restoring := none }
      s.musterOnce (s.flight slot).tag 257
    else
      let s := s.modFlight slot fun f =>
        { f with restoring := none, st := .moored, causes := [], late := false, lockinDone := false,
                 powerMoored := false, suspendMoored := false }
      s.finishWaits fun w =>
        match w with
        | .restore i _ => if i = slot then some { detail := l % 2 ^ 32 } else none
        | _ => none

/-- SNAPSHOT_EXPORT_DONE: the snapshot that the command made is copied into its export object, and SNAPSHOT completes
(R310). -/
def State.doExportDone (s : State) (slot : Nat) : State :=
  s.waits.foldl (fun s w =>
    match w.kind with
    | .snap i (some (h, ctx, va)) 2 made =>
      if i ≠ slot then s
      else
        match made with
        | none => s
        | some a =>
          let o : Obj := { handle := h, ctx := ctx, va := va, len := a.size }
          match s.ringXlate w.ctx o 0 a.size NEED_W true with
          | (s, .inr f) => s.finish w f
          | (s, .inl gs) =>
            let bs : PBytes := (sslice 0 a.bytes.bytes 0 a.size).zipIdx.map fun b => (b.1, badMark (a.bytes.mark b.2))
            let s := (s.writeSegs ctx gs bs).stickPoison w.ctx w.ring bs
            s.finish w { detail := a.pound % 2 ^ 32 }
    | _ => s) s

end Sys2Proof.Machine
end

