-- ==== Sys2Proof/Machine/Teardown.lean ====
section
/-! DEFINITION. Unbinding and end fences (R246, R247, R81), context states (R484) and the teardown of a context
(R509). -/

namespace Sys2Proof.Machine

/-! ### End fences and unbinding -/

/-- Writes a flight's end fence: its end value, or its present value with bit 63 set. -/
def State.endFence (s : State) (slot : Nat) (abandon : Bool) : State :=
  match (s.flight slot).fence with
  | none => s
  | some e =>
    let r := s.xlateExtent (s.ringUnit e.ctx) e.ctx e.ctx NEED_W true e.va 8
    match r.2.2, r.2.1 with
    | [], g :: _ =>
      let s := r.1.seeFence g
      let w := s.fenceWord g
      s.writeFence g (if abandon then (if fenceMask ≤ w then w else w + fenceMask) else e.value)
    | _, _ => r.1

/-- A flight that leaves its tiles: LOADED again, its snapshot areas kept. -/
def Flight.unbound (f : Flight) : Flight :=
  { st := .loaded, ctx := f.ctx, size := f.size, image := f.image, areas := f.areas.filter fun a => a.complete,
    replicaSlot := f.replicaSlot }

/-- Frees the tiles of a flight: they are zeroed before they may be bound again. The spec names no state for a tile
between its unbind and the lock at which it enters FREE: the model has it BOUND with no flight, a STOPPED one too (R80,
R81; DESIGN CHOICE: log entry 76). -/
def State.unbindTiles (s : State) (slot : Nat) : State :=
  (s.tilesOf slot).foldl (fun s e =>
    s.modTile e.1 fun x =>
      { x with flight := none, leg := none, running := false, barges := [], accs := [], stopGated := false,
               zeroing := true, st := .bound }) s

/-- A flight is unbound: its tiles, reservations and pending musters go. -/
def State.unbind (s : State) (slot : Nat) : State :=
  let tag := (s.flight slot).tag
  let s := s.unbindTiles slot
  ({ s with musters := s.musters.filter fun m => m.tag != tag } : State).modFlight slot Flight.unbound

/-- A flight, or a bind in progress, leaves its tiles, and its end fence is abandoned. -/
def State.dropFlight (s : State) (k : Nat) : State := (s.endFence k true).unbind k

/-- TILE_ZEROING_DONE: an unbound tile holds zeros; it enters FREE at the next lock (R81). -/
def State.doZeroingDone (s : State) (t : Nat) : State :=
  if (s.tile t).zeroing then s.modTile t Tile.zeroed else s

/-! ### Context states (R484) -/

/-- Whether a flight of a context is past LOADED. -/
def State.ctxBusy (s : State) (c : Nat) : Bool := s.flights.any fun e => e.2.ctx == c && e.2.st.bound_

/-- READY and RUNNING follow the context's flights. -/
def State.ctxSync (s : State) : State :=
  s.contexts.foldl (fun s e =>
    let x := s.context e.1
    if x.st = .ready ∨ x.st = .running then
      s.setContext e.1 { x with st := if s.ctxBusy e.1 then .running else .ready }
    else s) s

/-! ### Teardown (R509) -/

/-- Slots that a context loaded. -/
def State.loadedBy (s : State) (c : Nat) : List Nat :=
  (s.flights.filter fun e => e.2.ctx == c && e.2.used).map Prod.fst

/-- Waits that teardown ends at once: fences and flight commands. -/
def WaitKind.aborts : WaitKind → Bool
  | .copy .. | .fill .. | .maint | .maintFull .. | .xlt .. | .bias .. | .teardown .. => false
  | _ => true

/-- Step 1: the rings stop, and waiting commands are aborted. -/
def State.tearStop (s : State) (ctx : Nat) : State :=
  let x := s.context ctx
  let stopped := x.rings.map fun e => (e.1, if e.1 < 8 ∧ e.2.enable then { e.2 with mode := RingMode.stopped } else e.2)
  (s.setContext ctx { x with st := .teardown, rings := stopped }).abortWaits
    (fun w => w.ctx == ctx && w.kind.aborts) { status := ST_CONTEXT_ABORTED }

/-- Halt orders for a context's flights that are past LOADED, with their number. -/
def State.tearHalt (s : State) (ctx : Nat) : State × Nat :=
  let ks := s.slotsOfCtx ctx
  (ks.foldl (fun s k => s.haltOrder k true) s, ks.length)

/-- A FENCE object of a context, as pieces that its translations still reach. -/
def State.fenceSegs (s : State) (ctx va len : Nat) : State × List XSeg :=
  let r := s.xlateExtent (s.ringUnit 0) ctx ctx NEED_W true va len
  (r.1, r.2.1)

/-- Step 5 on one entry: its FENCE words are recorded and the entry is freed (R504). -/
def State.tearObject (s : State) (ctx i : Nat) : State × List XSeg :=
  match s.readObj 0 i with
  | (s, none) => (s, [])
  | (s, some b) =>
    let id := leNat (b.take 4)
    if !bitOf id 16 || bitsOf id 26 17 ≠ ctx then (s, [])
    else
      let va := leNat ((b.drop 8).take 8)
      let r := if leNat ((b.drop 4).take 4) &&& OBJ_FENCE = 0 then (s, [])
        else s.fenceSegs ctx va (leNat ((b.drop 16).take 8))
      let gen := if id % 4096 = 4095 then 1 else id % 4096 + 1
      let id := id / 2 ^ 17 * 2 ^ 17 + bitsOf id 15 12 * 4096 + gen
      (r.1.flagAtHome (!r.1.objDpa) (r.1.objBase + 32 * i) (toLe 4 id), r.2)

/-- The aligned 8-byte words of a piece. -/
def segWords (g : XSeg) : List XSeg :=
  let a := roundUp g.pa 8
  (List.range ((g.pa + g.len - a) / 8)).map fun i => { g with pa := a + 8 * i, len := 8 }

/-- Step 6: one fence word is abandoned, unless it already is. -/
def State.tearFence (s : State) (g : XSeg) : State × Nat :=
  let s := s.seeFence g
  let w := s.fenceWord g
  if fenceMask ≤ w then (s, 0) else (s.writeFence g (w + fenceMask), 1)

/-- Steps 4 to 6, and the context's end: the fences abandoned. -/
def State.tearEnd (s : State) (ctx : Nat) : State × Nat :=
  let s := (s.loadedBy ctx).foldl (fun s k => s.setFlight k {}) s
  let objs := (List.range s.objCount).foldl (fun r i =>
    let x := r.1.tearObject ctx i
    (x.1, r.2 ++ x.2)) (s, [])
  let s := objs.1.dropContextXlt ctx
  let r := (objs.2.flatMap segWords).foldl (fun r g =>
    let x := r.1.tearFence g
    (x.1, r.2 + x.2)) (s, 0)
  let lines := ((s.context ctx).rings.filter fun e => e.2.watch).map fun e => lineOf e.2.db
  (lines.foldl (fun s la => s.dropWatch true la) (r.1.setContext ctx {}), r.2)

/-- Whether nothing of a context is still at work: its flights are unbound and its commands ended. -/
def State.tearReady (s : State) (ctx : Nat) : Bool :=
  (s.slotsOfCtx ctx).isEmpty && !(s.waits.any fun w => w.ctx == ctx) && !s.ctxBusy ctx

/-- A teardown that waits goes as far as it can: at a lock its halts follow its moors. -/
def State.tearStep (s : State) (w : Wait) (atLock : Bool) : State :=
  match w.kind with
  | .teardown ctx stage _ halted =>
    let next (s : State) (k : WaitKind) : State :=
      { s with waits := s.waits.map fun v => if v = w then { w with kind := k } else v }
    if stage = 0 then
      if !atLock then s
      else
        let h := s.tearHalt ctx
        next h.1 (.teardown ctx 1 0 h.2)
    else if s.tearReady ctx then
      let e := s.tearEnd ctx
      e.1.finish w { result := e.2, detail := halted }
    else s
  | _ => s

/-- Every teardown that waits. -/
def State.settleTeardown (s : State) (atLock : Bool) : State := s.waits.foldl (fun s w => s.tearStep w atLock) s

/-- CONTEXT_TEARDOWN. -/
def State.doTeardown (s : State) (k : Cmd) (ctx : Nat) : State :=
  s.wellFormed k [(decide (1024 ≤ ctx), 0x08)] fun s => s.onlyDriver k fun s =>
    if ctx = 0 then s.fin k { status := ST_ACCESS_DENIED }
    else s.named k ctx true fun s =>
      let s := s.tearStop ctx
      let running := (s.slotsOfCtx ctx).filter fun i => decide ((s.flight i).st = .running)
      let s := running.foldl (fun s i => s.orderTag (s.flight i).tag fun t => { t with moor := true }) s
      let s := (s.loadedBy ctx).foldl (fun s i =>
        if (s.flight i).st = .loaded ∧ (s.flight i).binding.isNone then s.setFlight i {} else s) s
      if running.isEmpty then
        let h := s.tearHalt ctx
        (h.1.await k (.teardown ctx 1 0 h.2)).settleTeardown false
      else s.await k (.teardown ctx 0 0 0)

end Sys2Proof.Machine
end

