-- ==== Sys2Proof/Machine/RingServe.lean ====
section
/-! DEFINITION. The ring servers (13): watches and polling, the reading of descriptors, their execution, and the
moves of contexts and rings. -/

namespace Sys2Proof.Machine

/-! ### Watches (R380, R491) -/

/-- A polled ring takes a free entry of the watch table where its line can be watched. -/
def State.tryWatch (s : State) (c r : Nat) : State :=
  let x := s.ring c r
  if !s.port.cacheEn || !(x.watch || decide (s.watchUsed < 4096)) then s
  else
    match s.watchLine true (lineOf x.db) with
    | (s, true) => s.setRing c r { x with mode := .watched, watch := true }
    | (s, false) => s

/-- Free entries go to the polled rings in ascending (context, ring) order. -/
def State.assignWatches (s : State) : State :=
  if !s.bit RNG_CTL 0 then s
  else
    s.contexts.foldl (fun s e =>
      e.2.rings.foldl (fun s r =>
        if r.1 < 8 ∧ (s.ring e.1 r.1).mode = .polled then s.tryWatch e.1 r.1 else s) s) s

/-! ### Descriptors (R493, R495 to R497) -/

/-- The bytes that a command's body uses: first and last offset. -/
def bodyFields : Nat → Option (List (Nat × Nat))
  | 0x00 => some []
  | 0x01 => some [(0x08, 0x0B), (0x10, 0x1F)]
  | 0x02 => some [(0x08, 0x0B), (0x10, 0x1F), (0x20, 0x23)]
  | 0x03 => some [(0x08, 0x27)]
  | 0x04 => some [(0x08, 0x0B), (0x10, 0x27)]
  | 0x10 => some [(0x08, 0x0A), (0x0C, 0x1F)]
  | 0x11 => some [(0x08, 0x0A), (0x0C, 0x17)]
  | 0x12 => some [(0x08, 0x17)]
  | 0x13 => some [(0x0A, 0x0A), (0x0C, 0x17)]
  | 0x20 => some [(0x08, 0x0B), (0x10, 0x1F)]
  | 0x21 => some [(0x08, 0x09), (0x0C, 0x1F)]
  | 0x22 => some [(0x08, 0x08), (0x10, 0x17)]
  | 0x23 => some [(0x08, 0x08)]
  | 0x24 => some [(0x08, 0x08)]
  | 0x25 => some [(0x08, 0x09)]
  | 0x26 => some [(0x08, 0x08), (0x0C, 0x17)]
  | 0x27 => some [(0x08, 0x09), (0x0C, 0x1F)]
  | 0x30 => some [(0x08, 0x0B), (0x10, 0x1F)]
  | 0x31 => some [(0x08, 0x0F)]
  | 0x32 => some [(0x08, 0x09)]
  | _ => none

/-- The first body byte that must be 0 and is not. -/
def strayByte (d : List Byte) (fields : List (Nat × Nat)) : List Nat :=
  ((List.range 64).filter fun i =>
    8 ≤ i && !(fields.any fun f => decide (f.1 ≤ i) && decide (i ≤ f.2)) && d.getD i 0 != 0).take 1

/-- A little-endian field of a descriptor. -/
def descNum (d : List Byte) (off n : Nat) : Nat := leNat ((d.drop off).take n)

/-- CRC of a descriptor, over its bytes with the CRC field as 0. -/
def descCrc (d : List Byte) : Nat := crc16 (putAt d 6 [0, 0])

/-- Executes a descriptor. -/
def State.execute (s : State) (c r : Nat) (d : List Byte) : State :=
  let n := descNum d
  let op := n 4 1
  let k : Cmd := { c := c, r := r, h := { seq := n 0 4, flags := n 5 1 } }
  match bodyFields op with
  | none => s.fin k { status := ST_BAD_DESCRIPTOR, detail := 0x04 }
  | some fs =>
    let k : Cmd := { k with pre := strayByte d fs }
    match op with
    | 0x00 => s.doNop k
    | 0x01 => s.doFenceSignal k (n 0x08 4) (n 0x10 8) (n 0x18 8)
    | 0x02 => s.doFenceWait k (n 0x08 4) (n 0x10 8) (n 0x18 8) (n 0x20 4)
    | 0x03 => s.doCopy k (n 0x08 4) (n 0x0C 4) (n 0x10 8) (n 0x18 8) (n 0x20 8)
    | 0x04 => s.doFill k (n 0x08 4) (n 0x10 8) (n 0x18 8) (n 0x20 8)
    | 0x10 => s.doMapRange k (n 0x08 2) (n 0x0A 1) (n 0x0C 4) (n 0x10 8) (n 0x18 8)
    | 0x11 => s.doUnmapRange k (n 0x08 2) (n 0x0A 1) (n 0x0C 4) (n 0x10 8)
    | 0x12 => s.doInvalidateXlt k (n 0x08 2) (n 0x0A 1) (n 0x0B 1) (n 0x0C 4) (n 0x10 8)
    | 0x13 => s.doSetBias k (n 0x0A 1) (n 0x0C 4) (n 0x10 8)
    | 0x20 => s.doLoad k (n 0x08 4) (n 0x10 8) (n 0x18 8)
    | 0x21 => s.doBind k (n 0x08 1) (n 0x09 1) (n 0x0C 4) (n 0x10 8) (n 0x18 8)
    | 0x22 => s.doRun k (n 0x08 1) (n 0x10 8)
    | 0x23 => s.doMoor k (n 0x08 1)
    | 0x24 => s.doResume k (n 0x08 1)
    | 0x25 => s.doHalt k (n 0x08 1) (n 0x09 1)
    | 0x26 => s.doSnapshot k (n 0x08 1) (n 0x0C 4) (n 0x10 8)
    | 0x27 => s.doRestore k (n 0x08 1) (n 0x09 1) (n 0x0C 4) (n 0x10 8) (n 0x18 8)
    | 0x30 => s.doMaint k (n 0x08 1) (n 0x09 1) (n 0x0A 2) (n 0x10 8) (n 0x18 8)
    | 0x31 => s.doSetPowerLease k (n 0x08 4) (n 0x0C 4)
    | _ => s.doTeardown k (n 0x08 2)

/-- The descriptor that a ring takes next, as read; none where the read is refused or poisoned. An armed injection
inverts the CRC of what is read (R514). -/
def State.readSlot (s : State) (c r : Nat) : State × Option (List Byte) :=
  let x := s.ring c r
  let k := if x.locDpa then s.hdmCheck c NEED_R x.slotAddr 64 else (s, true)
  if !k.2 then (k.1, none)
  else
    let s := k.1.markRead (!x.locDpa) x.slotAddr 64
    let d := s.readLoc x.locDpa x.slotAddr 64
    if anyPoison d then (s, none)
    else if s.bit RNG_INJ 0 then
      let b := bytesOf d
      (s.setBit RNG_INJ 0 false, some (putAt b 6 (((b.drop 6).take 2).map fun x => ~~~x)))
    else (s, some (bytesOf d))

/-- A descriptor that is not whole yet: after 8 retries the ring parks (R493). -/
def State.unready (s : State) (c r : Nat) : State :=
  let x := s.ring c r
  if x.tries < 8 then
    let s := s.setRing c r { x with tries := x.tries + 1 }
    if x.mode = .watched then (s.watchLine (!x.locDpa) (lineOf x.slotAddr)).1 else s
  else
    let s := (s.setRing c r { x with mode := .parked }).setBit RNG_ERR 0 true
    s.post c r x.count 0 { status := ST_DESCRIPTOR_UNREADY, detail := 8 }

/-- Whether a descriptor is whole: its number and its CRC. -/
def descWhole (x : Ring) (d : List Byte) : Bool := descNum d 0 4 == x.count && descNum d 6 2 == descCrc d

/-- The serving loop of a ring (fuel: descriptors). -/
def State.serveLoop (s : State) (c r : Nat) : Nat → State
  | 0 => s
  | fuel + 1 =>
    if !s.ringReady c r then s
    else
      match s.readSlot c r with
      | (s, none) => s.ctxFault c
      | (s, some d) =>
        if descWhole (s.ring c r) d then (s.execute c r d).serveLoop c r fuel else s.unready c r

/-- Descriptors that a ring has before it, as far as its doorbell was last read. -/
def Ring.ahead (x : Ring) : Nat :=
  let n := (x.prod + 2 ^ 32 - x.count) % 2 ^ 32
  if n ≤ 2 ^ x.log2n then n else 0

/-- Serves a ring. -/
def State.serve (s : State) (c r : Nat) : State := s.serveLoop c r (s.ring c r).ahead

/-- Rings whose command or record no longer waits go on; one that waits for a descriptor's line does not. -/
def State.serveIdle (s : State) : State :=
  s.contexts.foldl (fun s e =>
    e.2.rings.foldl (fun s r => if r.1 < 8 ∧ (s.ring e.1 r.1).tries = 0 then s.serve e.1 r.1 else s) s) s

/-- What follows the end of commands that waited: teardowns go on, and rings go on. -/
def State.resettle (s : State) : State := (s.settleTeardown false).assignWatches.serveIdle

/-- Copies and fills that waited at a home go on, and rings behind one that ends. -/
def State.settleCopies (s : State) : State :=
  let t := s.waits.foldl (fun s w =>
    match w.kind with
    | .copy .. => s.copyDone w.ctx w.ring
    | .fill .. => s.fillDone w.ctx w.ring
    | _ => s) s
  if t.waits = s.waits then t else t.resettle

/-- A ring whose doorbell is read (R492): the read re-arms its watch, and a ring whose line the home refuses is
polled (R380). -/
def State.wake (s : State) (c r : Nat) (polled : Bool) : State :=
  let x := s.ring c r
  if !(s.ctxServed c && decide (r < 8) && x.enable) || x.mode == .stopped || x.mode == .off then s
  else
    let d := s.latest true x.db 8
    if anyPoison d then s.ctxFault c
    else
      let w := leNat (bytesOf d)
      let p := w % 2 ^ 32
      let same := p == x.prod
      let v := if x.watch && s.port.cacheEn then s.watchLine true (lineOf x.db) else (s, false)
      let s := v.1
      if x.mode = .parked ∧ same then s
      else
        let mode : RingMode := if v.2 then .watched else .polled
        let tries := if x.mode = .parked then 0 else x.tries
        let watch := x.watch && (v.2 || !s.port.cacheEn)
        let s := s.setRing c r { x with prod := p, mode := mode, tries := tries, watch := watch }
        if 2 ^ x.log2n < (p + 2 ^ 32 - x.count) % 2 ^ 32 then
          let s := (s.setRing c r { s.ring c r with mode := .stopped }).setBit RNG_ERR 1 true
          s.post c r x.count 0 { status := ST_DOORBELL_RANGE, result := w }
        else if tries = 0 ∨ !same ∨ polled then s.serve c r
        else s

/-- The watched line of an unready descriptor is written: the server retries. -/
def State.lineWritten (s : State) (c r : Nat) : State :=
  let x := s.ring c r
  if x.tries = 0 ∨ x.mode ≠ .watched then s
  else (s.unwatchLine (!x.locDpa) (lineOf x.slotAddr)).serve c r

/-- Records that wait are written while there is room (R489; fuel: records). -/
def State.flushRecords (s : State) (c : Nat) : Nat → State
  | 0 => s
  | fuel + 1 =>
    let x := s.ring c CPL_RING
    match x.waiting with
    | [] => s
    | e :: rest =>
      if !s.cplRoom c then s
      else
        match (s.setRing c CPL_RING { x with waiting := rest }).putRecord c e with
        | (s, true) => s.flushRecords c fuel
        | (s, false) => s.ctxFault c

/-- The consumer word of a context's completion ring is read again, and its rings go on. -/
def State.pollConsumer (s : State) (c : Nat) : State :=
  let x := s.ring c CPL_RING
  let s := s.setRing c CPL_RING { x with prod := s.cplConsumed c }
  (s.flushRecords c x.waiting.length).serveIdle

/-! ### Contexts and rings under RNG_SEL (R484, R511, R512) -/

/-- The context and ring that RNG_SEL selects. -/
def State.selCtx (s : State) : Nat := s.fld RNG_SEL 9 0
def State.selRing (s : State) : Nat := s.fld RNG_SEL 19 16

/-- Commands of RNG_CTX_CTL. -/
def CTX_ENABLE := 1
def CTX_SUSPEND := 2
def CTX_RESUME := 3

/-- RNG_CTX_CTL.GO of a context: a suspension is complete once the flights it moors have moored. -/
def State.ctxGo (s : State) (c : Nat) : Bool :=
  decide ((s.context c).st = .suspended) &&
    s.flights.any fun e => e.2.ctx == c && e.2.suspendMoored && decide (e.2.st = .running)

/-- A move that is not legal. -/
def State.ctxIllegal (s : State) : State := s.setBit RNG_ERR 3 true

/-- SUSPEND: rings stop being served, and moor orders are entered for the running flights. -/
def State.ctxSuspend (s : State) (c : Nat) : State :=
  let ks := (s.flights.filter fun e => e.2.ctx == c && decide (e.2.st = .running)).map Prod.fst
  ks.foldl (fun s k =>
    (s.modFlight k fun f => { f with suspendMoored := true }).orderTag (s.flight k).tag fun t => { t with moor := true })
    (s.setContext c { s.context c with st := .suspended })

/-- RESUME: rings are served again, and the flights that the suspension moored get resume orders. -/
def State.ctxResume (s : State) (c : Nat) : State :=
  let ks := (s.flights.filter fun e => e.2.ctx == c && e.2.suspendMoored && decide (e.2.st = .moored)).map Prod.fst
  let s := s.setContext c { s.context c with st := if s.ctxBusy c then .running else .ready }
  (ks.foldl (fun s k =>
    (s.modFlight k fun f => { f with suspendMoored := false }).orderTag (s.flight k).tag fun t =>
      { t with resume := true }) s).serveIdle

/-- A write of RNG_CTX_CTL with GO: CMD is performed on the selected context; it is ignored while GO is 1, and for a
reserved RING of RNG_SEL. -/
def State.ctxCmd (s : State) (cmd : Nat) : State :=
  let c := s.selCtx
  if 8 < s.selRing ∨ s.ctxGo c then s
  else
    let s := s.setFld RNG_CTX_CTL 26 24 cmd
    let st := (s.context c).st
    if cmd = CTX_ENABLE ∧ st = .empty ∧ (s.ring c CPL_RING).enable then
      s.setContext c { s.context c with st := .ready }
    else if cmd = CTX_SUSPEND ∧ c ≠ 0 ∧ (st = .ready ∨ st = .running) then s.ctxSuspend c
    else if cmd = CTX_RESUME ∧ c ≠ 0 ∧ st = .suspended then s.ctxResume c
    else s.ctxIllegal

/-- RNG_RCTL.ENABLE is set on the selected ring: its count is 0, and a submission ring takes a watch entry or is
polled. -/
def State.ringEnable (s : State) : State :=
  let c := s.selCtx
  let r := s.selRing
  let x := s.ring c r
  if 8 < r ∨ x.enable ∨ x.log2n < 4 ∨ 16 < x.log2n then s
  else if r = CPL_RING then s.setRing c r { x with enable := true, mode := .active, count := 0, prod := 0 }
  else
    let s := s.setRing c r { x with enable := true, mode := .polled, count := 0, prod := 0, tries := 0, poison := 0 }
    let s := s.assignWatches
    if (s.ring c r).mode = .polled then s.setBit RNG_ERR 4 true else s

/-- RNG_RCTL.ENABLE is cleared: the ring stops at its next descriptor boundary, and its watch entry frees. -/
def State.ringDisable (s : State) : State :=
  let c := s.selCtx
  let r := s.selRing
  let x := s.ring c r
  if 8 < r ∨ !x.enable then s
  else
    let t := s.setRing c r { x with enable := false, mode := .off, watch := false }
    (if x.watch then t.dropWatch true (lineOf x.db) else t).assignWatches

/-- Cache_Enable of the CXL DVSEC control: with 0 the watched rings are polled (R452). -/
def State.cacheEnable (s : State) (en : Bool) : State :=
  let t : State := { s with port := { s.port with cacheEn := en
                                                  cacheInvalid := s.port.cacheInvalid && !en } }
  if en then t.assignWatches
  else
    t.contexts.foldl (fun s e =>
      e.2.rings.foldl (fun s r =>
        if r.2.mode = .watched then s.setRing e.1 r.1 { r.2 with mode := .polled } else s) s) t

end Sys2Proof.Machine
end

