-- ==== Sys2Proof/Machine/HostEvents.lean ====
section
/-! DEFINITION. Completions, timeouts, bus mastering, power states and the function-level reset of the host port
(12 R455 to R470, R474). -/

namespace Sys2Proof.Machine

/-! ### Requests that may leave again (R465, R466) -/

/-- A COPY in progress stops: its outstanding reads are discarded as they come, and it is executed again later. -/
def State.stopCopies (s : State) : State :=
  let isRing (r : IoRead) : Bool := match r.user with | .ring .. => true | _ => false
  { s with
    waits := s.waits.filter fun w => match w.kind with | .copy .. => false | _ => true
    port := { s.port with
      outstanding := s.port.outstanding.map fun r => if isRing r then { r with user := .discard } else r
      waitingRd := s.port.waitingRd.filter fun r => !isRing r } }

/-- Posted writes and messages that waited go out, then requests, and rings are served again. -/
def State.ioOpened (s : State) : State :=
  if !s.port.ioOpen || s.boot.safe then s
  else
    let ws := s.port.waitingWr
    let vs := s.port.waitingVec
    let s : State := { s with port := { s.port with waitingWr := [], waitingVec := [] } }
    let s := ws.foldl (fun s w => s.hostWrite w.1 w.2.1 w.2.2) s
    let s := vs.foldl (fun s v => s.emit (.msi v)) s
    (s.pumpReads s.port.waitingRd.length).resettle

/-! ### The function-level reset (R467) -/

/-- A register block returns to its reset values. -/
def State.resetRegs (s : State) (lo hi : Nat) : State :=
  { s with regs := s.regs.filter fun e => !(decide (lo ≤ e.1) && decide (e.1 < hi)) }

/-- Whether the waits of an FLR are over: its flights have halted, and no read is outstanding. Without time lock
there is no lock to wait for. -/
def State.flrReady (s : State) : Bool :=
  s.port.flrBusy && s.port.outstanding.isEmpty &&
    (!s.ww.joined || (s.boundSlots.isEmpty && !(s.flights.any fun e => e.2.binding.isSome)))

/-- The configuration fields that an FLR returns to their reset values: AER's masks and severities are sticky, the CXL
DVSEC and the component registers are kept. -/
def HostPort.flr (p : HostPort) : HostPort :=
  { p with memSpace := false, busMaster := false, serr := false, per := false, msixEn := false, msiEn := false,
           msiCount := 1, funcMask := false, msiMasked := [], pendingVec := [], waitingVec := [], waitingWr := [],
           waitingRd := [], mrrs := 512, ctoValue := 0, tag14 := false, tag10 := false, stale := p.quarantine,
           flrBusy := false,
           cfg := p.cfg.filter fun e => decide (0x100 ≤ e.1) }

/-- The fault ring is off, with its registers at their reset values. -/
def State.flrFaultRing (s : State) : State :=
  let s := (s.resetRegs FLT_RING_LO (FLT_RING_LOST + 4)).setBit FLT_CTL 1 false
  { s with flt := { s.flt with ringCount := 0, halted := false } }

/-- Stacks in self-refresh return to service with their contents. -/
def State.stacksReturn (s : State) : State :=
  { s with stk := s.stk.map fun e => (e.1, if e.2.st = .selfRefresh then { e.2 with st := .active } else e.2) }

/-- Steps 4 and 5, with what R431 and R563 add. -/
def State.flrEnd (s : State) : State :=
  let s := (s.flights.map Prod.fst).foldl (fun s k => s.unbind k) s
  let s := (s.contexts.map Prod.fst).foldl State.dropContextXlt s
  let s : State := { s with flights := [], contexts := [], waits := [], xlt := {}, actCopy := none,
                            port := s.port.flr,
                            lks := s.lks.map fun e => (e.1, { e.2 with sb := [], resv := none, device := [] }) }
  let s := (if 8 ≤ s.boot.step then s.stacksReturn else s).flrFaultRing
  let s := (s.resetRegs 0x4000 0x5000).resetRegs 0x5000 0x6000
  ((s.resetRegs 0x6000 0x7000).resetRegs 0x8000 0x10000).resetRegs 0x20000 0x28100

/-- An FLR goes on once its waits are over. -/
def State.flrSettle (s : State) : State := if s.flrReady then s.flrEnd else s

/-- The flights that are bound, or being bound. -/
def State.slotsHeld (s : State) : List Nat :=
  (s.flights.filter fun e => e.2.st.bound_ || e.2.binding.isSome).map Prod.fst

/-- The stacks in service go into self-refresh while an FLR acts (R325, R349). Requests that it leaves at work are still
served (DESIGN CHOICE: log entry 83). -/
def State.stacksRefresh (s : State) : State :=
  { s with stk := s.stk.map fun e => (e.1, if e.2.st = .active then { e.2 with st := .selfRefresh } else e.2) }

/-- Steps 1 and 2. -/
def State.flrStart (s : State) : State :=
  let s := s.stopCopies.stacksRefresh
  let left := s.port.outstanding.map fun r => { r with user := IoUser.discard }
  let s : State := { s with port := { s.port with busMaster := false, flrBusy := true, outstanding := left,
                                                  waitingRd := [] } }
  (s.slotsHeld.foldl (fun s k => s.haltOrder k false) s).flrSettle

/-! ### Completions (R455 to R459) -/

/-- A request ends: its tag frees, waiting requests take it, and its requester goes on. -/
def State.readEnded (s : State) (r : IoRead) : State :=
  let s : State := { s with port := { s.port with outstanding := s.port.outstanding.filter fun x => x.tag ≠ r.tag } }
  let s := s.pumpReads s.port.waitingRd.length
  let s := match r.user with
    | .barge t id => s.bargeGo t id
    | .ring c k => (s.copyDone c k).resettle
    | .lockkeeper _ => s.retryHeld
    | .discard => s
  s.flrSettle

/-- The host's bytes of a request, as they stand. -/
def State.hostBytes (s : State) (a n : Nat) : PBytes :=
  (s.host.read a n).zipIdx.map fun b => (b.1, badMark (s.host.mark (a + b.2)))

/-- What a lockkeeper's load makes of its request's end. -/
def State.lkEnd (s : State) (r : IoRead) : State :=
  match r.user with
  | .lockkeeper k => s.lkDeliver k (s.hostBytes r.addr r.want)
  | _ => s

/-- A piece of data for a request, at its offset. -/
def State.takeData (s : State) (r : IoRead) (off : Nat) (bytes : List Byte) (poison : Bool) : State :=
  if r.user = .discard then s
  else { s with host := s.host.store (r.addr + off) (bytes.take (r.want - off)) poison }

/-- The flight slot of a requester. -/
def State.userSlot (s : State) : IoUser → Nat
  | .barge t _ => s.slotOf t
  | _ => 255

/-- A request that the host ends without data: its bytes are poisoned (R472). -/
def State.cplError (s : State) (r : IoRead) : State :=
  if r.user = .discard then s
  else
    (s.hostPoison (r.addr + r.got) (r.want - r.got)).fault
      { msgOf K_HOST_CPL_ERR 7 0 with addr := r.addr + r.got, slot := s.userSlot r.user }

/-- A completion for an outstanding request. -/
def State.completion (s : State) (r : IoRead) (off : Nat) (last : Bool) : CplResult → State
  | .data bytes poison =>
    let s := if poison then s.aer .poisonedTlp true else s
    let s := s.takeData r off bytes poison
    let got := max r.got (off + bytes.length)
    if last || decide (r.want ≤ got) then (s.lkEnd r).readEnded r
    else { s with port := { s.port with
      outstanding := s.port.outstanding.map fun x => if x.tag = r.tag then { x with got := got } else x } }
  | _ => ((s.cplError r).lkEnd r).readEnded r

/-- A completion that no request waits for: one of a request made before an FLR is discarded; any other is an
Unexpected Completion, and ends its tag's quarantine. -/
def State.unexpected (s : State) (tag : Nat) : State :=
  let old := s.port.stale.contains tag
  let s : State := { s with port := { s.port with
    quarantine := s.port.quarantine.filter (· ≠ tag)
    stale := s.port.stale.filter (· ≠ tag) } }
  let s := if old then s else s.aer .unexpectedCompletion true
  s.pumpReads s.port.waitingRd.length

/-- COMPLETION_RECEIVE. -/
def execCompletionReceive (tag off : Nat) (last : Bool) (r : CplResult) (s : State) :
    Host.Outcome State Fault Refusal :=
  doneLive s (match s.port.outstanding.find? fun x => x.tag == tag with
    | some q => s.completion q off last r
    | none => s.unexpected tag)

/-- What a timeout does for its requester (R458). -/
def State.timedOut (s : State) (r : IoRead) : State :=
  let poison (s : State) : State := s.hostPoison (r.addr + r.got) (r.want - r.got)
  match r.user with
  | .barge t _ =>
    (poison s).fault { msgOf K_BARGE_TIMEOUT 1 t with addr := r.addr + r.got, slot := s.slotOf t }
  | .ring c k =>
    { (poison s) with waits := (poison s).waits.map fun w =>
        match w.kind with
        | .copy a b src dst _ => if w.ctx = c ∧ w.ring = k then { w with kind := .copy a b src dst true } else w
        | _ => w }
  | .lockkeeper k => s.lkTrap k false
  | .discard => s

/-- COMPLETION_TIMEOUT. -/
def execCompletionTimeout (tag : Nat) (s : State) : Host.Outcome State Fault Refusal :=
  doneLive s (match s.port.outstanding.find? fun x => x.tag == tag with
    | some r =>
      let t := s.aer .completionTimeout false
      let t : State := { t with port := { t.port with quarantine := insertNat tag t.port.quarantine } }
      (t.timedOut r).readEnded r
    | none => s)

/-! ### Bus mastering, power states and keys (R465, R466, R470, R474) -/

/-- Bus Master Enable changes: requesters stop, or what waited goes out. -/
def State.setBusMaster (s : State) (on : Bool) : State :=
  let t : State := { s with port := { s.port with busMaster := on } }
  if on then t.ioOpened else t.stopCopies

/-- The function enters D3hot, where BAR requests are refused and requesters stop, or returns to D0 with every setting
kept; CXL.cache and CXL.mem go on. -/
def State.setD3hot (s : State) (on : Bool) : State :=
  let t : State := { s with port := { s.port with d3hot := on } }
  if on then t.stopCopies else t.ioOpened

/-- BUS_MASTER_DISABLE. -/
def execBusMasterDisable (s : State) : Host.Outcome State Fault Refusal := done s (s.setBusMaster false)

/-- BUS_MASTER_ENABLE. -/
def execBusMasterEnable (s : State) : Host.Outcome State Fault Refusal := done s (s.setBusMaster true)

/-- D3HOT_ENTRY. -/
def execD3hotEntry (s : State) : Host.Outcome State Fault Refusal := done s (s.setD3hot true)

/-- D0_RETURN. -/
def execD0Return (s : State) : Host.Outcome State Fault Refusal := done s (s.setD3hot false)

/-- IDE_KEY_PROGRAMMING: over a secured session only; the keyed stream is secure again. -/
def execIdeKeyProgramming (session : Nat) (cachemem : Bool) (s : State) : Host.Outcome State Fault Refusal :=
  done s (s.inSession session fun s =>
    if cachemem then { s with port := { s.port with ideMem := 1 } }
    else ({ s with port := { s.port with ideIo := 1 } } : State).ioOpened)

/-- An FLR; in safe state nothing is left for it to stop. -/
def State.flr (s : State) : State := if s.boot.safe then s else s.flrStart

/-- FLR. -/
def execFlr (s : State) : Host.Outcome State Fault Refusal :=
  done s s.flr

end Sys2Proof.Machine
end

