-- ==== Sys2Proof/Machine/Flits.lean ====
section
/-! DEFINITION. The canal flit on the line (07 R253 to R256, R268, R281): its header, its CRC, the payloads of gate and
TIME flits, what a receiver makes of 256 bytes, and the sending of a flit. -/

namespace Sys2Proof.Machine

/-! ### Types (R255) -/

def FLIT_IDLE := 0
def FLIT_SCHED := 1
def FLIT_FREIGHT := 2
def FLIT_LACK := 3
def FLIT_GATE := 4
def FLIT_TIME := 5
def FLIT_TRAIN := 6
def FLIT_ABSENT := 15

/-- Whether R255 assigns a type. -/
def flitTypeKnown (t : Nat) : Bool := decide (t ≤ 6) || t == 15

/-- Whether flits of a type carry a link sequence number. -/
def flitSequenced (t : Nat) : Bool := decide (1 ≤ t) && decide (t ≤ 3)

/-! ### Header and CRC (R254, R256) -/

end Sys2Proof.Machine

namespace Sys2Proof

open Sys2Proof.Machine

/-- Header bits [95:0]. -/
def Flit.head (f : Flit) : Nat :=
  f.typ % 16 + 2 ^ 4 * bnat f.ackv + 2 ^ 5 * bnat f.nak + 2 ^ 6 * bnat f.first + 2 ^ 7 * bnat f.last +
    2 ^ 8 * (f.seq % 4096) + 2 ^ 20 * (f.ack % 4096) + 2 ^ 32 * (f.dst % 1024) + 2 ^ 42 * (f.src % 1024) +
    2 ^ 52 * (f.spec % 2 ^ 44)

end Sys2Proof

namespace Sys2Proof.Machine

/-- A payload made up to 240 bytes. -/
def padTo (n : Nat) (bs : List Byte) : List Byte := (bs ++ List.replicate (n - bs.length) 0).take n

/-- The CRC of a header's first 12 bytes and a payload. -/
def flitCrc (head payload : List Byte) : Nat := crc32 (head ++ payload)

end Sys2Proof.Machine

namespace Sys2Proof

open Sys2Proof.Machine

/-- A flit's 256 bytes; an injection inverts the CRC bits (R291). -/
def Flit.bytes (f : Flit) (crcInverted : Bool) : List Byte :=
  let h := toLe 12 f.head
  let p := padTo 240 f.payload
  let c := flitCrc h p
  h ++ toLe 4 (if crcInverted then 0xFFFFFFFF - c else c) ++ p

/-- The flit that 256 bytes spell. -/
def Flit.ofBytes (bs : List Byte) : Flit :=
  let h := leNat (bs.take 12)
  { typ := bitsOf h 3 0, ackv := bitOf h 4, nak := bitOf h 5, first := bitOf h 6, last := bitOf h 7,
    seq := bitsOf h 19 8, ack := bitsOf h 31 20, dst := bitsOf h 41 32, src := bitsOf h 51 42, spec := bitsOf h 95 52,
    payload := (bs.drop 16).take 240 }

end Sys2Proof

namespace Sys2Proof.Machine

/-- Whether the CRC of received bytes holds. -/
def crcHolds (bs : List Byte) : Bool :=
  leNat ((bs.drop 12).take 4) == flitCrc (bs.take 12) ((bs.drop 16).take 240)

end Sys2Proof.Machine

namespace Sys2Proof

open Sys2Proof.Machine

/-- Each codeword corrects up to 4 symbol errors (R253). -/
def RxFlit.corrected (x : RxFlit) : Bool := decide (x.errs.1 ≤ 4) && decide (x.errs.2 ≤ 4)

end Sys2Proof

namespace Sys2Proof.Machine

/-- What a received flit is. -/
inductive Rx where
  /-- a codeword could not be corrected -/
  | uncorrectable
  /-- the CRC fails, or the type is reserved -/
  | badCrc
  | flit (f : Flit)
  deriving DecidableEq, Repr

end Sys2Proof.Machine

namespace Sys2Proof

open Sys2Proof.Machine

/-- What a receiver makes of a flit. -/
def RxFlit.read (x : RxFlit) : Rx :=
  if !x.corrected then .uncorrectable
  else if crcHolds x.bytes && flitTypeKnown (Flit.ofBytes x.bytes).typ then .flit (Flit.ofBytes x.bytes)
  else .badCrc

end Sys2Proof

namespace Sys2Proof.Machine

/-! ### The gate payloads (R268) -/

end Sys2Proof.Machine

namespace Sys2Proof

open Sys2Proof.Machine

/-- A muster item's 4 bytes. -/
def MusterItem.word (m : MusterItem) : Nat :=
  m.tag % 256 + 2 ^ 8 * (m.barrier % 512) + 2 ^ 17 * (min m.count 2047) + 2 ^ 28 * bnat (m.ovf || decide (2047 < m.count))

end Sys2Proof

namespace Sys2Proof.Machine

/-- A device map as a number. -/
def devBits (l : List Nat) : Nat := l.foldl (fun a i => a ||| 2 ^ i) 0

end Sys2Proof.Machine

namespace Sys2Proof

open Sys2Proof.Machine

/-- The payload of PART A. -/
def Gate.partA (g : Gate) : List Byte :=
  let flags := bnat g.reset + 2 * bnat g.late + 4 * bnat g.presence + 8 * bnat g.bound + 16 * bnat g.setup.isSome
  let q := g.setup.getD { dev := 0, len := 0, lead := 0 }
  let c := g.cand.getD (0, 0)
  toLe 2 flags ++ toLe 2 q.dev ++ toLe 2 q.len ++ toLe 1 q.lead ++ toLe 1 c.1 ++ toLe 2 c.2 ++
    toLe 1 g.musters.length ++ toLe 1 g.leadAllow ++ toLe 4 0 ++ toLe 128 (devBits g.faultMap) ++
    padTo 96 (g.musters.flatMap fun m => toLe 4 m.word)

/-- A tag record's 7 bits. -/
def TagRec.code (r : TagRec) : Nat :=
  bnat r.hold + 2 * bnat r.moor + 4 * bnat r.halt + 8 * bnat r.snap + 16 * bnat r.resume + 32 * (r.draught % 4)

/-- The payload of PART B: 256 records of 7 bits, packed densely. -/
def Gate.partB (g : Gate) : List Byte :=
  padTo 240 (toLe 224 (g.tags.foldl (fun a e => a + e.2.code * 2 ^ (7 * e.1)) 0))

end Sys2Proof

namespace Sys2Proof.Machine

/-- The muster items of PART A. -/
def mustersOf (p : List Byte) : List MusterItem :=
  (List.range (min 24 (leNat ((p.drop 0x0A).take 1)))).map fun i =>
    let w := leNat ((p.drop (0x90 + 4 * i)).take 4)
    { tag := bitsOf w 7 0, barrier := bitsOf w 16 8, count := bitsOf w 27 17, ovf := bitOf w 28 }

/-- The contribution that a PART A payload spells. -/
def gateOfA (p : List Byte) : Gate :=
  let n (off k : Nat) : Nat := leNat ((p.drop off).take k)
  let f := n 0 2
  let map := n 0x10 128
  { reset := bitOf f 0, late := bitOf f 1, presence := bitOf f 2, bound := bitOf f 3,
    setup := if bitOf f 4 then some { dev := n 2 2, len := n 4 2, lead := n 6 1 } else none,
    cand := if n 7 1 = 0 then none else some (n 7 1, n 8 2),
    leadAllow := n 0x0B 1,
    faultMap := (List.range 1024).filter fun i => bitOf map i,
    musters := mustersOf p }

/-- The tag records that a PART B payload spells. -/
def gateOfB (p : List Byte) : Gate :=
  let v := leNat (p.take 224)
  { tags := (List.range 256).filterMap fun t =>
      let c := v / 2 ^ (7 * t) % 128
      if c = 0 then none
      else some (t, { hold := bitOf c 0, moor := bitOf c 1, halt := bitOf c 2, snap := bitOf c 3, resume := bitOf c 4,
                      draught := bitsOf c 6 5 }) }

/-- The type-specific bits of a gate flit: ROUND, PHASE, PART and the pound (R255). -/
def gateSpec (round phase part pound : Nat) : Nat :=
  round % 32 + 2 ^ 5 * (phase % 4) + 2 ^ 7 * (part % 2) + 2 ^ 12 * (pound % 2 ^ 32)
def gateRound (f : Flit) : Nat := bitsOf f.spec 4 0
def gatePhase (f : Flit) : Nat := bitsOf f.spec 6 5
def gatePart (f : Flit) : Nat := bitsOf f.spec 7 7
def gatePound (f : Flit) : Nat := bitsOf f.spec 43 12

/-- A gate flit. -/
def gateFlit (src dst round phase part pound : Nat) (g : Gate) : Flit :=
  { typ := FLIT_GATE, src := src, dst := dst, spec := gateSpec round phase part pound,
    payload := if part = 0 then g.partA else g.partB }

/-- The received flit that the parts of a gate flit give: header bits [51:0], the type-specific bits, the CRC and the
payload (R254). -/
def gateRx (errs0 errs1 head spec crc : Nat) (payload : List Byte) : RxFlit :=
  { errs := (errs0, errs1), bytes := toLe 12 (head % 2 ^ 52 + 2 ^ 52 * spec) ++ toLe 4 crc ++ payload }

/-- The contribution that a gate flit carries. -/
def gateOf (f : Flit) : Gate := if gatePart f = 0 then gateOfA f.payload else gateOfB f.payload

/-! ### TIME flits (R281) -/

/-- A TIME flit with its three timestamps, in 2^-16 ns. -/
def timeFlit (src dst tx echoTx echoRx : Nat) : Flit :=
  { typ := FLIT_TIME, src := src, dst := dst,
    payload := [tx, echoTx, echoRx].flatMap fun t => toLe 12 (t % 2 ^ 80 * 2 ^ 16) }

/-! ### Sending -/

/-- The acknowledgement that every flit in the reverse direction carries (R275). -/
def Canal.acks (c : Canal) (f : Flit) : Flit := { f with ackv := true, nak := c.nakDue, ack := (c.expected + 4095) % 4096 }

/-- A flit goes onto the line: any flit uses up an armed FEC injection, a sequenced one an armed CRC injection
(R291). -/
def State.lineOut (s : State) (p : Nat) (f : Flit) : State :=
  let inj := cnlReg p 0x18
  let crc := flitSequenced f.typ && s.bit inj 0
  let fec := s.bit inj 1
  let s := if crc then s.setBit inj 0 false else s
  let s := if fec then s.setBit inj 1 false else s
  s.emit (.flit p (f.bytes crc) fec)

/-- An unsequenced flit leaves with the link's acknowledgement. -/
def State.sendPlain (s : State) (p : Nat) (f : Flit) : State :=
  let c := s.canal p
  (s.setCanal p { c with nakDue := false }).lineOut p (c.acks f)

/-- ABSENT flits back to back for 64 flit times (R280). -/
def State.sendAbsent (s : State) (p : Nat) : State :=
  (List.range 64).foldl (fun s _ =>
    s.sendPlain p { typ := FLIT_ABSENT, src := s.ww.index, dst := (s.canal p).peerDev }) s

end Sys2Proof.Machine
end

