-- ==== Sys2Proof/Machine/Canals.lean ====
section
/-! DEFINITION. The canals (07): routes, the flits of remote barges, queues, the slot grid, and the writing of what
arrives. -/

namespace Sys2Proof.Machine

/-! ### Devices and routes (R251, R252, R272, R273) -/

/-- The waterway's extents, dimension a first. -/
def State.extents (s : State) : List Nat :=
  let x := s.ww.shape
  [x.1, x.2.1, x.2.2.1, x.2.2.2]

/-- Coordinates of a device index, which are numbered inside the full 8 x 8 x 4 x 4 space (R3). -/
def coordsOf (i : Nat) : List Nat := [i % 8, i / 8 % 8, i / 64 % 4, i / 256 % 4]

/-- The device index of coordinates: a + 8b + 64c + 256d (R3). -/
def indexOf (c : List Nat) : Nat := c.getD 0 0 + 8 * c.getD 1 0 + 64 * c.getD 2 0 + 256 * c.getD 3 0

/-- The coordinates of a device. -/
def State.coords (_s : State) (i : Nat) : List Nat := coordsOf i

/-- The device that differs from this one only in dimension `x`, where it has value `u`. -/
def State.neighbor (s : State) (x u : Nat) : Nat := indexOf ((s.coords s.ww.index).set x u)

/-- The pair index toward that device. -/
def State.pairOf (s : State) (x u : Nat) : Nat :=
  ((s.extents.take x).map (· - 1)).sum + (if u < (s.coords s.ww.index).getD x 0 then u else u - 1)

/-- Dimensions of extent above 1, in order. -/
def State.dims (s : State) : List Nat := (List.range 4).filter fun x => 1 < s.extents.getD x 1

/-- The neighbours of a dimension, by ascending coordinate. -/
def State.neighborsIn (s : State) (x : Nat) : List Nat :=
  ((List.range (s.extents.getD x 1)).filter fun u => u ≠ (s.coords s.ww.index).getD x 0).map fun u => s.neighbor x u

/-- The ports that have an active link. -/
def State.portActive (s : State) (p : Nat) : Bool := decide ((s.canal p).st = .active)

/-- The link group toward a device, in ascending order. -/
def State.linkGroup (s : State) (dev : Nat) : List Nat :=
  (s.canals.filter fun e => decide (e.2.st = .active) && e.2.peerValid && e.2.peerDev == dev).map Prod.fst

/-- Type-specific fields of a data flit: DST_TILE, DST_WORD, LEN, POISON, TICKET, RELAY (R255). -/
def flitTile (f : Flit) : Nat := bitsOf f.spec 7 0
def flitWord (f : Flit) : Nat := bitsOf f.spec 25 8
def flitLen (f : Flit) : Nat := bitsOf f.spec 30 26
def flitPoison (f : Flit) : Nat := bitsOf f.spec 34 31
def flitTicket (f : Flit) : Nat := bitsOf f.spec 42 35
def flitRelay (f : Flit) : Bool := bitOf f.spec 43
def dataSpec (tile word len poison ticket : Nat) : Nat :=
  tile % 2 ^ 8 + 2 ^ 8 * (word % 2 ^ 18) + 2 ^ 26 * (len % 32) + 2 ^ 31 * (poison % 16) + 2 ^ 35 * (ticket % 256)

/-- The first dimension in which a destination differs from this device. -/
def State.firstDim (s : State) (dst : Nat) : Option Nat :=
  (List.range 4).find? fun x => (s.coords dst).getD x 0 ≠ (s.coords s.ww.index).getD x 0

/-- The port toward a neighbour for a flit: that of its pair which the parity names, or the lowest other of the
link group. -/
def State.portToward (s : State) (x u parity : Nat) : Option Nat :=
  let n := s.neighbor x u
  let g := s.linkGroup n
  let p := 2 * s.pairOf x u + parity
  if g.contains p then some p else g.head?

/-- The egress port of a flit, and whether it is relayed there. -/
def State.route (s : State) (f : Flit) : Option (Nat × Bool) :=
  match s.firstDim f.dst with
  | none => none
  | some x =>
    let u := (s.coords f.dst).getD x 0
    let parity := (f.src + f.dst) % 2
    match s.portToward x u parity with
    | some p => some (p, false)
    | none =>
      if f.typ ≠ FLIT_LACK ∧ flitRelay f then none
      else
        let own := (s.coords s.ww.index).getD x 0
        (((List.range (s.extents.getD x 1)).filter fun v => v ≠ own ∧ v ≠ u).findSome? fun v =>
          s.portToward x v parity).map fun p => (p, true)

/-- Whether a flit leaves on a port; and whether its next hop leaves on that port's link group. -/
def State.leavesOn (s : State) (p : Nat) (f : Flit) : Bool := (s.route f).map Prod.fst == some p
def State.leavesGroup (s : State) (p : Nat) (f : Flit) : Bool :=
  match s.route f with
  | some (q, _) => (s.canal q).peerDev == (s.canal p).peerDev
  | none => false

/-! ### Flits that wait

`transit` holds every flit that waits to be sent on, oldest first, with the port it arrived on; port 48 stands for the
device's own. -/

/-- The port of the device's own flits. -/
def OWN := 48

/-- A flit joins those that wait. -/
def State.enqueue (s : State) (p : Nat) (f : Flit) : State := { s with transit := s.transit ++ [{ port := p, flit := f }] }

/-- Flits that have had their slot go ahead of what waits (R277). -/
def State.requeueFlits (s : State) (fs : List Flit) : State :=
  { s with transit := fs.map (fun f => { port := OWN, late := true, flit := f : QFlit }) ++ s.transit }

/-- Whether two waiting flits belong to one barge (R259). -/
def sameBarge (a b : Flit) : Bool :=
  a.typ ≠ FLIT_LACK && b.typ ≠ FLIT_LACK && a.src == b.src && bitsOf a.spec 42 35 == bitsOf b.spec 42 35

/-- The waiting flits that no earlier flit of their barge holds back, oldest first. -/
def firstOfBarges : List QFlit → List QFlit → List QFlit
  | _, [] => []
  | seen, q :: qs =>
    if seen.any fun x => sameBarge x.flit q.flit then firstOfBarges seen qs else q :: firstOfBarges (seen ++ [q]) qs

/-- The oldest waiting flit of a type that passes a test and that no earlier flit of its barge holds back. -/
def State.takeQ (s : State) (typ : Nat) (ok : QFlit → Bool) : Option (State × QFlit) :=
  ((firstOfBarges [] s.transit).find? fun q => q.flit.typ == typ && ok q).map fun q =>
    ({ s with transit := s.transit.erase q }, q)

/-- The same, by the flit alone. -/
def State.takeFlit (s : State) (typ : Nat) (ok : Flit → Bool) : Option (State × Flit) :=
  (s.takeQ typ fun q => ok q.flit).map fun r => (r.1, r.2.flit)

/-! ### The flits of a remote barge (R257, R258) -/

/-- A barge's data in pieces that a flit holds, with the destination byte address of each: 29 words for the first
flit and 30 for the others, or 28 and 30 where elements are added (fuel: bytes). -/
def pieces (n : Nat) (dst : Nat → Nat) : Nat → Nat → PBytes → List (Nat × PBytes)
  | 0, _, _ => []
  | fuel + 1, off, bs =>
    if bs.isEmpty then [] else (dst off, bs.take n) :: pieces n dst fuel (off + n) (bs.drop n)

/-- The writes of a barge with the scales that its runs form in one run, as their array is packed (R196); bytes of the
array that no record writes go out as 0 (DESIGN CHOICE: log entry 79). -/
def joinScales (d : Desc) (ws : Writes) : Writes :=
  match dstExts d with
  | [_, e] =>
    let at_ := d.scaleAt d.dst
    ((ws.zipIdx.filter fun w => w.2 % 2 == 0).map Prod.fst) ++
      [(at_, (ws.zipIdx.filter fun w => w.2 % 2 == 1).foldl (fun (l : PBytes) w =>
        let o := w.1.1 - at_
        l.take o ++ w.1.2 ++ l.drop (o + w.1.2.length)) (List.replicate e.run (0, false)))]
  | _ => ws

/-- Bytes made up to whole words. -/
def wholeWords (bs : PBytes) : PBytes := bs ++ List.replicate ((8 - bs.length % 8) % 8) (0, false)

/-- The pieces of one run: its first piece is shorter where it opens the barge. -/
def runPieces (first : Bool) (short : Nat) (dst : Nat → Nat) (bs : PBytes) : List (Nat × PBytes) :=
  let bs := wholeWords bs
  if first && 8 * short < bs.length then
    (dst 0, bs.take (8 * short)) :: pieces 240 dst bs.length (8 * short) (bs.drop (8 * short))
  else if first then [(dst 0, bs)]
  else pieces 240 dst bs.length 0 bs

/-- The pieces of a list of runs. -/
def allPieces (short : Nat) (runs : List ((Nat → Nat) × PBytes)) : List (Nat × PBytes) :=
  match runs with
  | [] => []
  | r :: rs => runPieces true short r.1 r.2 ++ rs.flatMap fun r => runPieces false short r.1 r.2

/-- The runs that a remote barge sends: a SCATTER_ADD sends its source elements. -/
def State.remoteRuns (s : State) (t : Nat) (b : BargeInst) (d : Desc) : State × List ((Nat → Nat) × PBytes) :=
  if d.op = 3 then
    let sb := fmtBits d.cvtFrom / 8
    let db := fmtBits d.cvtTo / 8
    (scatterRecs d b.index).foldl (fun r q =>
      let x := r.1.epRead t b d.srcKind (q.src.getD 0) (d.l0 / max 1 db * sb)
      (x.1, r.2 ++ [(fun off => q.dst % 2 ^ 24 + off / max 1 sb * db, x.2)])) (s, [])
  else
    let r := s.bargeWrites t b d
    (r.1, (joinScales d r.2).map fun w => (fun off => w.1 % 2 ^ 24 + off, w.2))

/-- The prefix word of a barge's first flit. -/
def prefixWord (lt : Nat) (d : Desc) : Nat :=
  let grids := (d.ds2 % (2 ^ 32 : Int)).toNat
  lt + 2 ^ 8 * d.rlc + 2 ^ 12 * bnat d.rlcEn +
    (if d.op = 3 then 2 ^ 13 + 2 ^ 14 * d.cvtFrom + 2 ^ 18 * d.cvtTo + 2 ^ 32 * grids else 0)

/-- The POISON bits of a payload. -/
def payloadPoison (bs : PBytes) : Nat :=
  (List.range 4).foldl (fun m i => m + (if anyPoison ((bs.drop (64 * i)).take 64) then 2 ^ i else 0)) 0

/-- One data flit. -/
def dataFlit (typ src dst tile ticket : Nat) (first last : Bool) (head : Nat) (a : Nat) (bs : PBytes) : Flit :=
  let body := if first then (toLe 8 head).map (fun b => (b, false)) ++ bs else bs
  { typ := typ, first := first, last := last, dst := dst, src := src,
    spec := dataSpec tile (a / 8) (bs.length / 8) (payloadPoison body) ticket,
    payload := bytesOf body ++ List.replicate (240 - body.length) 0 }

/-- The flits of pieces; a barge that moves nothing sends one flit without words. -/
def dataFlits (typ src dst tile ticket head : Nat) (ps : List (Nat × PBytes)) : List Flit :=
  let ps := if ps.isEmpty then [(0, [])] else ps
  ps.zipIdx.map fun x =>
    dataFlit typ src dst tile ticket (x.2 == 0) (x.2 + 1 == ps.length) head x.1.1 x.1.2

/-- The lowest free ticket. -/
def State.freeTicket (s : State) : Option Nat := (List.range 256).find? fun i => (sfind? s.tickets i).isNone

/-- The device that a remote barge's destination names now (R185). -/
def State.remoteDev (s : State) (k : Nat) (d : Desc) : Nat :=
  let x := bitsOf d.dst 57 48
  sget x (s.flight k).slotMap x

/-! ### Arrivals (R184, R257 to R259, R309) -/

/-- Fields of a prefix word. -/
def headRlc (h : Nat) : Nat := bitsOf h 11 8
def headRlcEn (h : Nat) : Bool := bitOf h 12
def headAdd (h : Nat) : Bool := bitOf h 13
def headFrom (h : Nat) : Nat := bitsOf h 17 14
def headTo (h : Nat) : Nat := bitsOf h 21 18
def headSrcGrid (h : Nat) : Int := signedOf (bitsOf h 47 32) 16
def headDstGrid (h : Nat) : Int := signedOf (bitsOf h 63 48) 16

/-- The key of an arriving barge. -/
def remoteKey (f : Flit) : Nat := 256 * f.src + flitTicket f

/-- The words of a flit after its prefix, with their poison. -/
def flitWords (f : Flit) : PBytes :=
  let off := if f.first then 8 else 0
  ((f.payload.drop off).take (8 * flitLen f)).zipIdx.map fun b => (b.1, bitOf (flitPoison f) ((off + b.2) / 64))

/-- The first flit of a barge is checked by the hold access table of its destination tile. -/
def State.openRemote (s : State) (f : Flit) : State :=
  let head := leNat (f.payload.take 8)
  let need := if headAdd head then NEED_A else NEED_W
  let c := s.actCheck (tgtHold (flitTile f)) (MID_CANAL f.src) need (8 * flitWord f)
  let ok := c.2 && (s.physTile (flitTile f)).isSome
  { c.1 with remote := sput (remoteKey f) { tile := flitTile f, head := head, denied := !ok } c.1.remote }

/-- Elements that a flit adds into a hold (R193). -/
def State.addWords (s : State) (p a head : Nat) (bs : PBytes) : State :=
  let sb := max 1 (fmtBits (headFrom head) / 8)
  let w := fmtBits (headTo head)
  (chunks sb bs.length bs).zipIdx.foldl (fun s e =>
    let at_ := a + e.2 * (w / 8)
    if HOLD_BYTES < at_ + w / 8 then s
    else
      let r := s.holdRead p at_ (w / 8)
      r.1.holdWrite p at_ (gridAddBytes w
        (termValue (headFrom head) sb (headSrcGrid head) (headDstGrid head) (leNat (bytesOf e.1))) (anyPoison e.1) r.2)) s

/-- The words of a flit are written. -/
def State.writeRemote (s : State) (f : Flit) (x : Incoming) : State :=
  match s.physTile (flitTile f) with
  | none => s
  | some p =>
    let a := 8 * flitWord f
    if headAdd x.head then s.addWords p a x.head (flitWords f)
    else s.holdWrite p a ((flitWords f).take (HOLD_BYTES - a))

/-- A landing acknowledgement for a barge of this device: its ticket frees and it lands; a refusal makes the
flight FATAL, or reports a refused replica (R184, R259, R309). -/
def State.landTicket (s : State) (ticket : Nat) (denied : Bool) : State :=
  match sfind? s.tickets ticket with
  | none => s
  | some (t, id) =>
    let s := { s with tickets := sdel ticket s.tickets }
    if 272 ≤ t then
      (if denied then s.fault { msgOf K_REPLICA_REFUSED 11 id with slot := id } else s)
    else
      let k := s.slotOf t
      let s := s.landBarge t id
      if denied then s.fault { msgOf K_BARGE_DENIED 11 k with slot := k, status := ST_ACCESS_DENIED } else s

/-- An acknowledgement flit. -/
def lackFlit (src dst ticket : Nat) (denied : Bool) : Flit :=
  { typ := FLIT_LACK, dst := dst, src := src, spec := 1,
    payload := toLe 8 (ticket + 256 * bnat denied) ++ List.replicate 232 0 }

/-- The acknowledgement of an arrived barge. -/
def State.acknowledge (s : State) (f : Flit) (denied : Bool) : State :=
  if f.src = s.ww.index then s.landTicket (flitTicket f) denied
  else s.enqueue OWN (lackFlit s.ww.index f.src (flitTicket f) denied)

/-- Whether a flit belongs to a replica stream. -/
def isStream (f : Flit) : Bool := flitWord f == 0x3FFFF && flitTile f == 0

/-- The flight that a replica belongs to on this device: of the replica's BUILD, and a spare that fetches it, or loaded or
standing by and of the first device slot whose replica reached it. -/
def State.replicaFlight (s : State) (r : Ram) : Option Nat :=
  (s.flights.find? fun e =>
    e.2.used && hdrBuild e.2.image == r.num 0x10 8 &&
      (e.2.fetching && e.2.devSlot == r.num 6 2 ||
        decide (e.2.st = .loaded) && e.2.binding.isNone &&
          (e.2.replicaSlot.isNone || e.2.replicaSlot == some (r.num 6 2)))).map Prod.fst

/-- A flit of a replica stream. -/
def State.takeStream (s : State) (f : Flit) : State :=
  let key := remoteKey f
  let old := if f.first then [] else
    match sfind? s.remote key with
    | some x => x.words
    | none => []
  let x : Incoming := { tile := 0, head := 0, denied := false, words := old ++ flitWords f }
  if !f.last then { s with remote := sput key x s.remote }
  else
    let r := ramOf x.words
    match s.replicaFlight r with
    | some k =>
      let s := s.modFlight k fun g => { g with replicaSlot := some (r.num 6 2) }
      ({ s with remote := sput key { x with ended := true } s.remote } : State).acknowledge f false
    | none => ({ s with remote := sdel key s.remote } : State).acknowledge f true

/-- A data flit at its destination. -/
def State.deliver (s : State) (f : Flit) : State :=
  if isStream f then s.takeStream f
  else
    let s := if f.first then s.openRemote f else s
    match sfind? s.remote (remoteKey f) with
    | none => s
    | some x =>
      let s := if x.denied then s else s.writeRemote f x
      if !f.last then s
      else
        let s := { s with remote := sdel (remoteKey f) s.remote }
        let s := if headRlcEn x.head && !x.denied then
            match s.physTile x.tile with
            | some p => s.modTile p fun y => y.land (headRlc x.head)
            | none => s
          else s
        s.acknowledge f x.denied

/-- The spare waits for its replica, or it has it and is restored. The snapshot must be the flight's last where the
spare has seen in the gate which that is; a spare with none of it never musters, and the flight's restore muster times
out (R316). -/
def State.restoreSpare (s : State) (k : Nat) : State :=
  let f := s.flight k
  let mine := f.areas.filter fun a => a.complete && a.bytes.num 6 2 == f.devSlot &&
    (f.seenLast.isNone || f.seenLast == some a.pound)
  match mine.foldl (fun b a => match b with
      | none => some a
      | some x => if x.pound ≤ a.pound then some a else b) (none : Option SnapArea) with
  | some a => (s.setFlight k { f with fetching := false }).startRestore k a.bytes true
  | none => s.setFlight k { f with fetching := true }

/-- REPLICA_STREAM_END: an accepted stream whose CHECK verifies is kept, with ORIGIN 1, among the two newest. -/
def State.doReplicaEnd (s : State) (src slot : Nat) : State :=
  match s.remote.find? fun e => decide (e.1 / 256 = src) && e.2.ended with
  | none => s
  | some (key, x) =>
    let r := ramOf x.words
    let s := { s with remote := sdel key s.remote }
    let f := s.flight slot
    if s.replicaFlight r ≠ some slot then s
    else
      match snapRefuse f.image (r.num 6 2) r with
      | some _ => s
      | none =>
        let n := snapBytes r
        let q := snapSeal (r.write 0x27 (toLe 1 1)) n
        let a : SnapArea := { pound := snapPound r, replica := true, complete := true, size := n, bytes := q }
        let s := s.setFlight slot (f.withArea a)
        if f.fetching then s.restoreSpare slot else s

/-! ### A remote barge starts -/

/-- A remote barge takes a ticket, and its flits join the device's own queues. -/
def State.launch (s : State) (t : Nat) (b : BargeInst) : State :=
  let d := descOf b.desc
  match (s.tile t).flight, s.freeTicket with
  | some (k, _), some n =>
    let r := (s.indexFaults t b).remoteRuns t b d
    let dst := r.1.remoteDev k d
    let fs := dataFlits (if d.freight then FLIT_FREIGHT else FLIT_SCHED) r.1.ww.index dst (bitsOf d.dst 39 32) n
      (prefixWord ((r.1.logTile t).getD 0) d) (allPieces (if d.op = 3 then 28 else 29) r.2)
    let s := { r.1 with tickets := sput n (t, b.id) r.1.tickets }
    let s := s.modBarge t b.id fun x => { x with ticket := some n, sent := fs.length }
    if dst = s.ww.index then fs.foldl State.deliver s else fs.foldl (fun s f => s.enqueue OWN f) s
  | _, _ => s

/-- Every remote barge whose source has come in and that waits for a ticket takes one, oldest first. -/
def State.launchBarges (s : State) : State :=
  let s := (s.tiles.map Prod.fst).foldl State.startBarges s
  s.tiles.foldl (fun s e =>
    e.2.barges.foldl (fun s b =>
      if (descOf b.desc).dstKind = 5 ∧ b.ticket.isNone ∧ s.bargeReady e.1 b then s.launch e.1 b else s) s) s

/-- The stream that a snapshot of pound `l` owes the flight's buddy (R309). -/
def Flight.replicaDue (f : Flight) (l : Nat) : List (Nat × SnapArea) :=
  let buddy := devBuddy f.image f.devSlot
  if 1024 ≤ buddy then []
  else
    match f.areas.find? fun a => a.pound == l && !a.replica with
    | some a => [(buddy, a)]
    | none => []

/-- A snapshot leaves for another device: one in-order freight stream, with the poison of the snapshot's words. -/
def State.sendStream (s : State) (k n : Nat) (e : Nat × SnapArea) : State :=
  let fs := dataFlits FLIT_FREIGHT s.ww.index e.1 0 n 0
    (allPieces 29 [(fun _ => 8 * 0x3FFFF, e.2.bytes.pbytes 0 e.2.size)])
  fs.foldl (fun s g => s.enqueue OWN g) { s with tickets := sput n (272, k) s.tickets }

/-- The streams of a flight that wait leave as tickets are free (R258, R309; fuel: streams). -/
def State.sendStreamsN (s : State) (k : Nat) : Nat → State
  | 0 => s
  | fuel + 1 =>
    match (s.flight k).streams, s.freeTicket with
    | e :: es, some n =>
      let s := s.modFlight k fun f => { f with streams := es }
      (if s.ww.joined then s.sendStream k n e else s).sendStreamsN k fuel
    | _, _ => s

def State.sendStreams (s : State) (k : Nat) : State := s.sendStreamsN k (s.flight k).streams.length

/-- Remote barges take tickets, then the streams that wait. -/
def State.launchAll (s : State) : State :=
  (s.flights.filter fun e => !e.2.streams.isEmpty).foldl (fun s e => s.sendStreams e.1) s.launchBarges

/-! ### What an overrun leaves (R203) -/

/-- The remote barges of a tile are abandoned: their flits that have not left go, and their tickets free. -/
def State.dropTickets (s : State) (t : Nat) : State :=
  let ns := (s.tickets.filter fun e => e.2.1 == t).map Prod.fst
  { s with tickets := s.tickets.filter fun e => e.2.1 != t
           transit := s.transit.filter fun q =>
             !(q.port == OWN && q.flit.typ ≠ FLIT_LACK && ns.contains (flitTicket q.flit)) }

/-- OVERRUN_DRAIN_DONE: what was still in flight has landed or is abandoned; an abandoned barge writes no further
byte and lands on no counter. A restore that waited begins; a flight that was to leave its tiles does so at the next lock,
or at once where no lock comes. -/
def State.doOverrunDrain (s : State) (slot : Nat) : State :=
  if (s.flight slot).overrun then
    let s := (s.tilesOf slot).foldl (fun s e =>
      (s.dropTickets e.1).modTile e.1 fun x => { x with barges := [], accs := [] }) s
    let f := s.flight slot
    let s := (s.setFlight slot { f with overrun := false, curXlt := [], restoreDue := none }).settleXlt
    if f.leaveDue then (if s.ww.joined then s else s.dropFlight slot)
    else if f.needRestore then s.beginRestore slot
    else
      match f.restoreDue with
      | some r => s.startRestore slot r false
      | none => s
  else s

/-- OVERRUN_DRAIN_DONE (R203). -/
def execOverrunDrainDone (slot : Nat) (s : State) : Host.Outcome State Fault Refusal :=
  doneLive s (s.doOverrunDrain slot)

/-! ### Sending (R261, R264, R275) -/

/-- A sequenced flit leaves on a port with the link's next number, and stays in the replay buffer (R275). -/
def State.sendSeq (s : State) (p : Nat) (f : Flit) : State :=
  let c := s.canal p
  let f := { c.acks f with seq := c.nextSeq }
  (s.setCanal p { c with nakDue := false, nextSeq := (c.nextSeq + 1) % 4096, replay := c.replay ++ [f] }).lineOut p f

/-- A flit leaves on a port. -/
def State.sendFlit (s : State) (p : Nat) (f : Flit) : State :=
  if flitSequenced f.typ then s.sendSeq p f else s.sendPlain p f

/-- The next flit that waits to be resent leaves again, unchanged (R276). -/
def State.resendFlit (s : State) (p : Nat) : State :=
  let c := s.canal p
  match c.replay[c.resendAt]? with
  | none => s.setCanal p { c with resend := 0 }
  | some f => (s.setCanal p { c with resend := c.resend - 1, resendAt := c.resendAt + 1 }).lineOut p f

/-- An IDLE flit. -/
def State.sendIdle (s : State) (p : Nat) : State :=
  s.sendPlain p { typ := FLIT_IDLE, dst := (s.canal p).peerDev, src := s.ww.index }

/-- The first flit that some choices offer; a full replay buffer admits no new sequenced flit, and a slot with
nothing to carry carries IDLE. -/
def State.sendFirst (s : State) (p : Nat) (choices : List (State → Option (State × Flit))) : State :=
  if 256 ≤ (s.canal p).replay.length then s.sendIdle p
  else
    match choices.findSome? fun c => c s with
    | some (t, f) =>
      let relay := ((s.route f).map Prod.snd).getD false && f.typ ≠ FLIT_LACK
      t.sendFlit p (if relay then { f with spec := f.spec ||| 2 ^ 43 } else f)
    | none => s.sendIdle p

/-! ### Planned slots (R262, R264, R265) -/

/-- The owner of an entry's slots: the emitting logical tile, or the ingress peer of a FORWARD entry. -/
def State.ownerKey (s : State) (e : SlotEnt) : Nat := if e.fwd then 1024 + (s.canal e.inPort).peerDev else e.tile

/-- Whether a waiting flit belongs to an owner and leaves as its slots on a port take it. -/
def State.ownedBy (s : State) (p key : Nat) (q : QFlit) : Bool :=
  if 1024 ≤ key then q.port < OWN && (s.canal q.port).peerDev == key - 1024 && s.leavesGroup p q.flit
  else
    q.port == OWN && q.flit.src == s.ww.index && s.leavesOn p q.flit &&
      (((sfind? s.tickets (flitTicket q.flit)).map Prod.fst) == s.physTile key)

/-- The barge that a waiting flit of the device belongs to. -/
def State.bargeOf (s : State) (q : QFlit) : Nat := ((sfind? s.tickets (flitTicket q.flit)).map Prod.snd).getD 0

/-- The flit of an owned slot: of the ingress link group the oldest that waits, of a tile the next of its oldest
barge. -/
def State.takeOwned (s : State) (p : Nat) (e : SlotEnt) : Option (State × Flit) :=
  let key := s.ownerKey e
  let mine := (firstOfBarges [] s.transit).filter fun q => q.flit.typ == FLIT_SCHED && s.ownedBy p key q
  let oldest := mine.foldl (fun m q => min m (s.bargeOf q)) (((mine.head?).map s.bargeOf).getD 0)
  (s.takeQ FLIT_SCHED fun q => s.ownedBy p key q && (e.fwd || s.bargeOf q == oldest)).map fun r => (r.1, r.2.flit)

/-- An owned slot passes with no flit of its own ready: one flit of its owner is late. -/
def State.slotMissed (s : State) (p : Nat) (e : SlotEnt) : State :=
  s.modCanal p fun c => { c with missed := sset 0 (s.ownerKey e) (sget 0 c.missed (s.ownerKey e) + 1) c.missed }

/-- The owner whose planned slot a waiting flit has missed on a port. -/
def State.lateKey (s : State) (p : Nat) (q : QFlit) : Option Nat :=
  ((s.canal p).missed.find? fun m => s.ownedBy p m.1 q).map Prod.fst

/-- A late SCHEDULED flit: its planned slot has passed; in the gate window every planned slot has (R261, R266). -/
def State.takeLate (s : State) (p : Nat) : Option (State × Flit) :=
  (s.takeQ FLIT_SCHED fun q => s.leavesOn p q.flit && (q.late || s.gate.cut || (s.lateKey p q).isSome)).map fun r =>
    let t := match s.lateKey p r.2 with
      | some k =>
        if r.2.late then r.1
        else r.1.modCanal p fun c => { c with missed := sset 0 k (sget 0 c.missed k - 1) c.missed }
      | none => r.1
    (t, r.2.flit)

/-- At a lock every waiting flit's planned slot has passed. -/
def State.allLate (s : State) : State :=
  { s with transit := s.transit.map fun q => { q with late := true }
           canals := s.canals.map fun e => (e.1, { e.2 with missed := [] }) }

/-! ### The slots (R261) -/

/-- Acknowledgements first, then freight, which waits while the links limit is engaged (R572). -/
def freightOrder (p : Nat) : List (State → Option (State × Flit)) :=
  [fun s => s.takeFlit FLIT_LACK (s.leavesOn p),
   fun s => if s.power.limits.contains .links then none else s.takeFlit FLIT_FREIGHT (s.leavesOn p)]

/-- The order of a REPLAY slot after resent flits. -/
def replayOrder (p : Nat) : List (State → Option (State × Flit)) := (fun s : State => s.takeLate p) :: freightOrder p

/-- A REPLAY slot, or one that carries what its order allows. -/
def State.replaySlot (s : State) (p : Nat) : State :=
  if 0 < (s.canal p).resend then s.resendFlit p else s.sendFirst p (replayOrder p)

/-- The entry of a running flight's slot table that owns a slot of a port. -/
def State.slotOwner (s : State) (p k : Nat) : Option SlotEnt :=
  s.flights.findSome? fun e =>
    let f := e.2
    if f.st = .running ∧ f.ran then
      (((imageTabs f.image).getD []).find? fun t =>
        t.variant == f.variant && t.dev == f.devSlot && t.pos == f.pos && t.group == f.group).bind fun t =>
          t.ents.find? fun x => x.port == p && x.slots.contains k
    else none

/-- The number of slots of the grid (R260). -/
def State.gridSlots (s : State) : Nat := (s.poundLen - s.gateLead) * 100 / 512

/-- The start of slot k, in 2^-16 ns of waterway time (R260). -/
def State.slotStamp (s : State) (k : Nat) : Nat := s.ww.lockTime * 2 ^ 16 + k * 512 * 2 ^ 16 / 100

/-- The TIME flit of a LOCK slot. -/
def State.sendTime (s : State) (p k : Nat) : State :=
  let c := s.canal p
  s.sendPlain p (timeFlit s.ww.index c.peerDev (s.slotStamp k) c.echo.1 c.echo.2)

/-- An owned slot: its owner's flit, or what R261's order allows. -/
def State.ownedSlot (s : State) (p : Nat) (e : SlotEnt) : State :=
  match s.takeOwned p e with
  | some _ => s.sendFirst p [fun t => t.takeOwned p e]
  | none => (s.slotMissed p e).replaySlot p

/-- CANAL_SLOT: slot k of the grid starts on a port; in the gate window it is a free time between gate flits. Before the
device holds time lock a link carries TIME flits, and the discovery messages that no rule gives bytes to (R279). -/
def State.doSlot (s : State) (p k : Nat) : State :=
  if !s.portActive p then s
  else if !s.ww.joined then (if k % 64 = 16 then s.sendTime p k else s.sendIdle p)
  else
    let s := s.launchAll
    if s.gate.cut then s.replaySlot p
    else if s.gridSlots ≤ k then s
    else
      let s := s.clockTo (s.slotStamp k)
      if k % 64 = 16 then s.sendTime p k
      else if k % 32 = 0 then s.replaySlot p
      else
        match s.slotOwner p k with
        | some e => s.ownedSlot p e
        | none => s.sendFirst p (freightOrder p)

end Sys2Proof.Machine
end

