-- ==== Sys2Proof/Machine/CanalCmds.lean ====
section
/-! DEFINITION. The canal commands (07): flits received, replay, training and link states. -/

namespace Sys2Proof.Machine

/-! ### Errors and link states (R276 to R280) -/

/-- A bit of CNL_ERR. -/
def State.cnlErr (s : State) (p bit : Nat) : State := s.setBit (cnlReg p 0x14) bit true

/-- The device's least minimum gate lead (R42), in 10 ns units. -/
def State.ownGateMin (s : State) : Nat :=
  let avg (c : Canal) : Nat := c.flights.sum / max 1 c.flights.length
  let c := (s.canals.filter fun e => decide (e.2.st = .active)).foldl (fun m e => max m (avg e.2)) 0
  let relays := (s.dims.any fun x => (s.neighborsIn x).any fun n => (s.linkGroup n).isEmpty)
  let d := if s.dims.isEmpty then 0 else s.dims.length + bnat relays
  ceilDiv (d * (24 * 2 ^ 16 + c) + 100 * 2 ^ 16) (10 * 2 ^ 16)

/-- TCK_GATE.MIN is computed again; a lead that is now too short is reported, and the
votes that follow hold every flight (R42, R44). -/
def State.gateMin (s : State) : State :=
  let m := max s.ownGateMin s.ww.otherMin
  let old := s.fld TCK_GATE 22 16
  let s := s.setFld TCK_GATE 22 16 (min m 127)
  if s.ww.joined ∧ old ≤ s.fld TCK_GATE 6 0 ∧ s.fld TCK_GATE 6 0 < m then
    (s.setBit TCK_STAT 5 true).fault (msgOf K_LEAD_SHORT 0 0)
  else s

/-- A TRAIN flit whose bytes name one end of a failed or retiring link: the peer's port, and whether it retires. The
spec states no layout of a training message (DESIGN CHOICE: log entry 33). -/
def State.sendTrain (s : State) (q peerPort : Nat) (retire : Bool) (ack : Option Nat) : State :=
  let c := s.canal q
  let f : Flit := { typ := FLIT_TRAIN, dst := c.peerDev, src := s.ww.index,
                    payload := padTo 240 (toLe 1 peerPort ++ toLe 1 (bnat retire) ++ toLe 2 (ack.getD 0xFFFF)) }
  s.sendPlain q f

/-- A port that leaves ACTIVE sends its last acknowledgement over another port of its link group (R277). -/
def State.lastAck (s : State) (p : Nat) : State :=
  let c := s.canal p
  match (s.linkGroup c.peerDev).find? (· ≠ p) with
  | some q => s.sendTrain q c.peerPort false (some ((c.expected + 4095) % 4096))
  | none => s

/-- The unacknowledged flits of a link leave its replay buffer and wait to be sent another way (R277). -/
def State.requeue (s : State) (p : Nat) : State :=
  let fs := (s.canal p).replay
  (s.modCanal p fun c => { c with replay := [], resend := 0, resendAt := 0 }).requeueFlits fs

/-- When a link group has lost its last ACTIVE port, the flits of its links are handled under R273 (R277). -/
def State.groupLost (s : State) (dev : Nat) : State :=
  if !(s.linkGroup dev).isEmpty then s
  else
    (s.canals.filter fun e => e.2.peerValid && e.2.peerDev == dev && !e.2.replay.isEmpty).foldl
      (fun s e => s.requeue e.1) s

/-- Whether the device disciplines its time to nothing although it is not the lockmaster (R53, R282). -/
def State.loseTime (s : State) : State :=
  if s.ww.joined && s.ww.lm ≠ some s.ww.index then { s with ww := { s.ww with holdover := true } } else s

/-- A port that was ACTIVE has left that state: the flits of its link move on, a longer route counts in the gate lead,
and an upstream port no longer brings time (R42, R273, R277). -/
def State.leftActive (s : State) (p : Nat) (upstream : Bool) : State :=
  let s := (s.groupLost (s.canal p).peerDev).gateMin
  if upstream then s.loseTime else s

/-- A port changes state. An attempt that ends so clears CNL_CTL.RETRAIN (R286). -/
def State.portTo (s : State) (p : Nat) (st : PState) : State :=
  let was := s.portActive p && decide (st ≠ .active)
  let up := (s.canal p).upstream
  let s := if was then s.lastAck p else s
  let s := s.modCanal p fun c => { c with st := st, enterAt := none, upstream := c.upstream && decide (st = .active),
                                          failures := 0, resends := 0, resend := 0, resendAt := 0 }
  let s := if st = .training ∨ st = .retrain then s else s.setBit (cnlReg p 0x00) 2 false
  if was then s.leftActive p up else s

/-- A link retires: every move to RETIRED is a PERMANENT fault of the link. -/
def State.retireLink (s : State) (p : Nat) : State :=
  if (s.canal p).st = .retired then s
  else ((s.portTo p .retired).setBit (cnlReg p 0x00) 3 false).fault (msgOf K_LINK_RETIRED 5 p)

/-- An ACTIVE link goes to RETRAIN for a failure of its own. -/
def State.linkFails (s : State) (p : Nat) : State :=
  if s.portActive p then (s.portTo p .retrain).fault (msgOf K_LINK_RETRAIN 5 p) else s

/-! ### Acknowledgements and replay (R275, R276) -/

/-- Buffered flits up to an acknowledged number leave the replay buffer. -/
def State.takeAck (s : State) (p ack : Nat) : State :=
  let c := s.canal p
  match c.replay.findIdx? fun f => f.seq == ack with
  | none => s
  | some i =>
    let left := c.replay.drop (i + 1)
    s.setCanal p { c with replay := left, resends := 0, resendAt := c.resendAt - (i + 1)
                          resend := c.resend - ((i + 1) - c.resendAt) }

/-- Every buffered flit is resent; the ninth resend of the oldest retrains the link instead. -/
def State.startReplay (s : State) (p : Nat) : State :=
  let c := s.canal p
  if c.replay.isEmpty then s
  else if 8 ≤ c.resends then (s.cnlErr p 3).linkFails p
  else
    let s := s.setCanal p { c with resend := c.replay.length, resendAt := 0, resends := c.resends + 1 }
    (s.cnlErr p 2).fault (msgOf K_LINK_REPLAY 5 p)

/-- What the acknowledgement fields of a received flit do. -/
def State.ackFields (s : State) (p : Nat) (f : Flit) : State :=
  if !f.ackv then s
  else
    let s := s.takeAck p f.ack
    if f.nak then s.startReplay p else s

/-- A received flit whose codewords can be corrected, whose CRC holds and whose type R255 assigns is acted on by the
command of its type; its acknowledgement acts whatever its type (R253, R255, R256, R275). -/
def State.receive (s : State) (p : Nat) (x : RxFlit) (types : List Nat) (act : State → Flit → State) : State :=
  if s.canal p |>.st |> (fun x => x = .active || x = .training || x = .retrain) then
    match x.read with
    | .uncorrectable => s.cnlErr p 0
    | .badCrc => s.cnlErr p 1
    | .flit f => if types.contains f.typ then act (s.ackFields p f) f else s
  else s

/-- The FREIGHT flits in a port's buffer (R274). -/
def State.freightOf (s : State) (p : Nat) : Nat :=
  (s.transit.filter fun q => q.port == p && q.flit.typ == FLIT_FREIGHT).length

/-- A sequenced flit is accepted in order; the first discard of a run asks for a resend. A full freight buffer
discards FREIGHT flits without it (R274). -/
def State.sequenced (s : State) (p : Nat) (f : Flit) (act : State → State) : State :=
  let c := s.canal p
  if f.seq ≠ c.expected then
    (if c.nakSent then s else s.setCanal p { c with nakSent := true, nakDue := true })
  else if f.typ = FLIT_FREIGHT ∧ f.dst ≠ s.ww.index ∧ 256 ≤ s.freightOf p then s
  else act (s.setCanal p { c with expected := (c.expected + 1) % 4096, nakSent := false, nakDue := false })

/-- DATA_FLIT_RECEIVE. -/
def State.dataFlitIn (s : State) (p : Nat) (x : RxFlit) : State :=
  s.receive p x [FLIT_SCHED, FLIT_FREIGHT] fun s f =>
    s.sequenced p f fun s => if f.dst = s.ww.index then s.deliver f else s.enqueue p f

/-- The acknowledgements of a LACK flit. -/
def lackWords (f : Flit) : List Nat :=
  (List.range (bitsOf f.spec 4 0)).map fun i => leNat ((f.payload.drop (8 * i)).take 8)

/-- LACK_RECEIVE. -/
def State.lackIn (s : State) (p : Nat) (x : RxFlit) : State :=
  s.receive p x [FLIT_LACK] fun s f =>
    s.sequenced p f fun s =>
      if f.dst = s.ww.index then (lackWords f).foldl (fun s w => s.landTicket (w % 256) (bitOf w 8)) s
      else s.enqueue p f

/-! ### Time discipline (R281, R282) -/

/-- A timestamp of 12 bytes, in 2^-16 ns. -/
def stampAt (f : Flit) (off : Nat) : Nat := leNat ((f.payload.drop off).take 12) / 2 ^ 16

/-- A difference of timestamps, signed. -/
def stampDiff (a b : Nat) : Int := signedOf ((a + 2 ^ 80 - b % 2 ^ 80) % 2 ^ 80) 80

/-- The mean of the last exchanges' theta, peer time minus own time (R281). -/
def Canal.theta (c : Canal) : Int := -(c.offsets.sum.tdiv (max 1 c.offsets.length : Nat))

/-- A correction of time toward zero theta: at most 50 ppm of the time since the last one (R23, R282). -/
def slew (theta : Int) (dt : Nat) : Int :=
  let most : Int := (dt * 50 / 1000000 : Nat)
  max (-most) (min theta most)

/-- The device's time, disciplined to its upstream port: the receive time, less or more what the rate has been slewed
since the last correction; it never runs backwards, and what is left stays in theta. The first exchange on an upstream
port only marks where the correction starts. -/
def State.discipline (s : State) (p t4 : Nat) : State :=
  let dt := if s.ww.syncAt = 0 then 0 else t4 - s.ww.syncAt
  let s := s.clockTo ((t4 : Int) + slew (s.canal p).theta dt).toNat
  { s with ww := { s.ww with syncAt := s.stamp, holdover := decide (4 ≤ s.ww.lmAbsent) } }

/-- An exchange enters a port's averages: the echo is kept, and flight and offset count where the peer echoed a flit of
this device (R281). -/
def Canal.exchange (c : Canal) (f : Flit) (t4 : Nat) : Canal :=
  let t1 := stampAt f 0x0C
  let t2 := stampAt f 0x18
  let t3 := stampAt f 0x00
  let there := stampDiff t2 t1
  let back := stampDiff t4 t3
  let c := { c with echo := (t3, t4) }
  if t1 = 0 ∧ t2 = 0 then c
  else { c with flights := ((there + back) / 2).toNat :: c.flights.take 63
                offsets := (-((there - back) / 2)) :: c.offsets.take 63 }

/-- TIME_FLIT_RECEIVE: an exchange enters the averages; one on the upstream port disciplines the device's time. -/
def State.timeIn (s : State) (p : Nat) (x : RxFlit) (t4 : Nat) : State :=
  s.receive p x [FLIT_TIME] fun s f =>
    let s := s.modCanal p fun c => c.exchange f t4
    if s.ww.joined && (s.canal p).upstream then s.discipline p t4 else s

/-- The port that the device disciplines its time to (R282). -/
def State.upstreamPort (s : State) : Option Nat :=
  match s.ww.lm with
  | none => none
  | some m =>
    match s.firstDim m with
    | none => none
    | some x =>
      let u := (s.coords m).getD x 0
      let own := (s.coords s.ww.index).getD x 0
      match s.linkGroup (s.neighbor x u) with
      | p :: _ => some p
      | [] =>
        ((List.range (s.extents.getD x 1)).filter fun v => v ≠ own ∧ v ≠ u).findSome? fun v =>
          (s.linkGroup (s.neighbor x v)).head?

/-- The upstream port is chosen again; a change of it starts the correction of time anew, and a device that has none
and is not the lockmaster runs without time-discipline information. -/
def State.chooseUpstream (s : State) : State :=
  let up := s.upstreamPort
  let same := match up with
    | some p => (s.canal p).upstream
    | none => true
  let s : State := { s with canals := s.canals.map fun e => (e.1, { e.2 with upstream := up == some e.1 })
                            ww := { s.ww with syncAt := if same then s.ww.syncAt else 0 } }
  if up.isNone then s.loseTime else s

/-! ### Other flits -/

/-- The peer's last acknowledgement of a failed link: what comes after it is sent another way (R277). -/
def State.failedLink (s : State) (q ack : Nat) : State := if s.portActive q then s else (s.takeAck q ack).requeue q

/-- TRAIN_FLIT_RECEIVE: an order retires the port that it names (R285). -/
def State.trainIn (s : State) (p : Nat) (x : RxFlit) (retire : Option Nat) (failed : Option (Nat × Nat)) : State :=
  s.receive p x [FLIT_TRAIN] fun s _ =>
    let s := match retire with
      | some q => if q < s.fuses.variant.canals then s.retireLink q else s
      | none => s
    match failed with
    | some (q, ack) => s.failedLink q ack
    | none => s

/-- ABSENT_FLIT_RECEIVE. -/
def State.absentIn (s : State) (p : Nat) (x : RxFlit) : State :=
  s.receive p x [FLIT_ABSENT] fun s _ =>
    ((s.cnlErr p 5).portTo p .absent).fault (msgOf K_LINK_ABSENT 5 p)

/-! ### Training (R278, R279) -/

/-- A port that may train: fused, enabled, and its rail asserted. -/
def State.mayTrain (s : State) (p : Nat) : Bool :=
  decide (p < s.fuses.variant.canals) && s.bit (cnlReg p 0x00) 0 && s.pins.pgLink && !s.boot.safe

/-- Whether an attempt runs on a port. -/
def State.trains (s : State) (p : Nat) : Bool :=
  s.mayTrain p && ((s.canal p).st == .training || (s.canal p).st == .retrain) && (s.canal p).enterAt.isNone

/-- An attempt fails at a step (its code is its number). -/
def State.trainFails (s : State) (p step : Nat) : State :=
  let c := s.canal p
  let s := s.setCanal p { c with step := step - 1, fail := step }
  let s := (s.cnlErr p 4).setBit (cnlReg p 0x00) 2 false
  if step = 5 ∨ step = 6 then s.retireLink p
  else if c.st = .training then s.modCanal p fun c => { c with st := .retrain, failures := 0 }
  else if 2 ≤ c.failures then s.retireLink p
  else s.modCanal p fun c => { c with failures := c.failures + 1 }

/-- The shape, and this device's coordinates, that step 5 checks against: the waterway's, or before the device has
joined those that the exchange itself brings. -/
def State.placeAt (s : State) (r : TrainReport) : List Nat × List Nat :=
  if s.ww.joined then (s.extents, s.coords s.ww.index)
  else
    ([r.shape.1, r.shape.2.1, r.shape.2.2.1, r.shape.2.2.2],
     [r.ownCoord.1, r.ownCoord.2.1, r.ownCoord.2.2.1, r.ownCoord.2.2.2])

/-- The pair index that R251 gives to a (dimension, value) beside the coordinate `own`. -/
def pairIndex (extents : List Nat) (x u own : Nat) : Nat :=
  ((extents.take x).map (· - 1)).sum + (if u < own then u else u - 1)

/-- Whether a port is cabled as R251 says: a base port leads to its pair's neighbour, and to that neighbour's port of
the pair back. -/
def State.cabledRight (s : State) (p : Nat) (r : TrainReport) : Bool :=
  let (es, co) := s.placeAt r
  (List.range 4).all fun x =>
    let own := co.getD x 0
    (List.range (es.getD x 1)).all fun u =>
      u == own || p / 2 != pairIndex es x u own ||
        (r.peerDev == indexOf (co.set x u) && r.peerPort == 2 * pairIndex es x own u + p % 2)

/-- A link enters ACTIVE: the attempt has ended. -/
def State.linkUp (s : State) (p : Nat) : State :=
  ((s.modCanal p fun c => { c with st := .active, enterAt := none, step := 8, failures := 0 }).setBit
    (cnlReg p 0x00) 2 false).gateMin

/-- Step 5 is complete: the peer is known (R288). -/
def Canal.identified (c : Canal) (r : TrainReport) : Canal :=
  { c with peerValid := true, peerDev := r.peerDev, peerPort := r.peerPort, peerVariant := r.peerVariant }

/-- A trained attempt: step 6's 64 exchanges fill the averages, and the link starts its numbering anew. -/
def Canal.trained (c : Canal) (r : TrainReport) : Canal :=
  { c with step := 7, fail := 0, flights := List.replicate 64 (256 * r.flight), offsets := List.replicate 64 r.offset
           nextSeq := 0, expected := 0, nakSent := false, nakDue := false, resend := 0, resendAt := 0, resends := 0 }

/-- Whether a lock is one that step 8 may agree on: at least 2 pounds ahead, within its limit of 3 pounds. -/
def State.enterOk (s : State) (n : Nat) : Bool := decide (s.ww.pound + 2 ≤ n) && decide (n ≤ s.ww.pound + 3)

/-- Steps 6 to 8 of an attempt whose peer is known. -/
def State.trainOn (s : State) (p : Nat) (r : TrainReport) : State :=
  let s := s.modCanal p fun c => c.identified r
  if 50 * 256 < r.flight then s.trainFails p 6
  else
    match r.failAt with
    | some k => s.trainFails p k
    | none =>
      if s.ww.joined ∧ !s.enterOk r.enterAt then s.trainFails p 8
      else
        let s := (s.requeue p).modCanal p fun c => c.trained r
        if s.ww.joined then s.modCanal p fun c => { c with enterAt := some r.enterAt } else s.linkUp p

/-- CANAL_TRAINING: the steps of an attempt. Cabling that breaks R251 sets CNL_ERR.IDENTITY (R290). -/
def State.train (s : State) (p : Nat) (r : TrainReport) : State :=
  if !s.trains p then s
  else
    let first := r.failAt.getD 9
    if first ≤ 5 then s.trainFails p first
    else if !s.cabledRight p r then (s.cnlErr p 6).trainFails p 5
    else s.trainOn p r

/-- TRAINING_STEP_TIMEOUT: a step's limit passes; past step 5 the peer is known. -/
def State.trainTimeout (s : State) (p step : Nat) (r : TrainReport) : State :=
  if s.trains p ∧ 1 ≤ step ∧ step ≤ 8 then
    (if 6 ≤ step then s.modCanal p fun c => c.identified r else s).trainFails p step
  else s

/-! ### Commands -/

/-- CANAL_SLOT. -/
def execCanalSlot (port k : Nat) (s : State) : Host.Outcome State Fault Refusal := doneLive s (s.doSlot port k)

/-- DATA_FLIT_RECEIVE. -/
def execDataFlitReceive (port : Nat) (errs : Nat × Nat) (bytes : List Byte) (s : State) :
    Host.Outcome State Fault Refusal :=
  doneLive s (s.dataFlitIn port ⟨errs, bytes⟩)

/-- LACK_RECEIVE. -/
def execLackReceive (port : Nat) (errs : Nat × Nat) (bytes : List Byte) (s : State) :
    Host.Outcome State Fault Refusal :=
  doneLive s (s.lackIn port ⟨errs, bytes⟩)

/-- TIME_FLIT_RECEIVE. -/
def execTimeFlitReceive (port : Nat) (errs : Nat × Nat) (bytes : List Byte) (t4 : Nat) (s : State) :
    Host.Outcome State Fault Refusal :=
  doneLive s (s.timeIn port ⟨errs, bytes⟩ t4)

/-- IDLE_FLIT_RECEIVE. -/
def execIdleFlitReceive (port : Nat) (errs : Nat × Nat) (bytes : List Byte) (s : State) :
    Host.Outcome State Fault Refusal :=
  doneLive s (s.receive port ⟨errs, bytes⟩ [FLIT_IDLE] fun s _ => s)

/-- TRAIN_FLIT_RECEIVE. -/
def execTrainFlitReceive (port : Nat) (errs : Nat × Nat) (bytes : List Byte) (retire : Option Nat)
    (failedLink : Option (Nat × Nat)) (s : State) : Host.Outcome State Fault Refusal :=
  doneLive s (s.trainIn port ⟨errs, bytes⟩ retire failedLink)

/-- ABSENT_FLIT_RECEIVE. -/
def execAbsentFlitReceive (port : Nat) (errs : Nat × Nat) (bytes : List Byte) (s : State) :
    Host.Outcome State Fault Refusal :=
  doneLive s (s.absentIn port ⟨errs, bytes⟩)

/-- LINK_NAK_RECEIVE. -/
def execLinkNakReceive (port ack : Nat) (s : State) : Host.Outcome State Fault Refusal :=
  doneLive s (if s.portActive port then (s.takeAck port ack).startReplay port else s)

/-- REPLAY_TIMER_EXPIRY. -/
def execReplayTimerExpiry (port : Nat) (s : State) : Host.Outcome State Fault Refusal :=
  doneLive s (if s.portActive port then s.startReplay port else s)

/-- LINK_SILENCE_TIMEOUT. -/
def execLinkSilenceTimeout (port : Nat) (s : State) : Host.Outcome State Fault Refusal := doneLive s (s.linkFails port)

/-- LOSS_OF_CODEWORD_ALIGNMENT. -/
def execLossOfCodewordAlignment (port : Nat) (s : State) : Host.Outcome State Fault Refusal :=
  doneLive s (s.linkFails port)

/-- PEER_SIGNAL_RETURN. -/
def execPeerSignalReturn (port : Nat) (s : State) : Host.Outcome State Fault Refusal :=
  doneLive s (if (s.canal port).st = .absent then s.portTo port .training else s)

/-- CNL_CTL.RETIRE: the order goes to the peer, and the link retires at both ends (R285). -/
def State.linkRetire (s : State) (port : Nat) : State :=
  if s.fuses.variant.canals ≤ port then s
  else
    let c := s.canal port
    let s := s.setBit (cnlReg port 0x00) 3 true
    let out := if c.st = .active then some port else (s.linkGroup c.peerDev).head?
    let s := match out with
      | some q => s.sendTrain q c.peerPort true none
      | none => s
    (s.retireLink port).setBit (cnlReg port 0x00) 3 false

/-- LINK_RETIRE. -/
def execLinkRetire (port : Nat) (s : State) : Host.Outcome State Fault Refusal := doneLive s (s.linkRetire port)

/-- CNL_CTL.RETRAIN: RETRAIN from ACTIVE, TRAINING from RETIRED. -/
def State.linkRetrain (s : State) (port : Nat) : State :=
  if s.fuses.variant.canals ≤ port then s
  else
    match (s.canal port).st with
    | .active => (s.setBit (cnlReg port 0x00) 2 true).portTo port .retrain
    | .retired => (s.setBit (cnlReg port 0x00) 2 true).portTo port .training
    | _ => s

/-- LINK_RETRAIN. -/
def execLinkRetrain (port : Nat) (s : State) : Host.Outcome State Fault Refusal := doneLive s (s.linkRetrain port)

/-- A write of CNL_CTL.ENABLE: 1 lets a DISABLED port train, 0 disables it. -/
def State.portEnable (s : State) (port : Nat) (on : Bool) : State :=
  if s.fuses.variant.canals ≤ port then s
  else
    let s := s.setBit (cnlReg port 0x00) 0 on
    if !on then (if (s.canal port).st = .safe then s else s.portTo port .disabled)
    else if decide (8 ≤ s.boot.step) && s.mayTrain port && decide ((s.canal port).st = .disabled) then s.portTo port .training
    else s

/-- PORT_ENABLE. -/
def execPortEnable (port : Nat) (s : State) : Host.Outcome State Fault Refusal := doneLive s (s.portEnable port true)

/-- CNL_INJ_FEC. -/
def execCnlInjFec (port : Nat) (s : State) : Host.Outcome State Fault Refusal :=
  doneLive s (if port < s.fuses.variant.canals then s.setBit (cnlReg port 0x18) 1 true else s)

/-- CNL_INJ_CRC. -/
def execCnlInjCrc (port : Nat) (s : State) : Host.Outcome State Fault Refusal :=
  doneLive s (if port < s.fuses.variant.canals then s.setBit (cnlReg port 0x18) 0 true else s)

/-- REPLICA_STREAM_END. -/
def execReplicaStreamEnd (src slot : Nat) (s : State) : Host.Outcome State Fault Refusal :=
  doneLive s (s.doReplicaEnd src slot)

end Sys2Proof.Machine
end

