-- ==== Sys2Proof/Machine/LockIn.lean ====
section
/-! DEFINITION. Lock-in (R207 to R210, R244, R465, R554): the translation and the checks of what a flight's next
pound may touch. -/

namespace Sys2Proof.Machine

/-! ### The position that a flight would run next (R241) -/

/-- The position after `j`; the number of positions stands for the end of a flight without LOOP. -/
def Flight.after (f : Flight) (j : Nat) : Nat :=
  if j + 1 < hdrPositions f.image then j + 1
  else if hdrLoop f.image then hdrLoopPos f.image
  else hdrPositions f.image

/-- The position that the flight would run in the next pound. -/
def Flight.nextPos (f : Flight) : Nat := if f.ran then f.after f.pos else f.pos

/-- Whether a position is one of the flight's. -/
def Flight.hasPos (f : Flight) (j : Nat) : Bool := decide (j < hdrPositions f.image)

/-- Whether an ARMED flight may start at the next lock, which opens pound `n` (R238, R239). -/
def Flight.starts (f : Flight) (n : Nat) : Bool := decide (f.st = .armed) && decide (f.startPound ≤ n)

/-- Whether the device locks in the next pound for a flight: it will run, or it is frozen and would run (R207,
R244). -/
def State.locksIn (s : State) (k : Nat) : Bool :=
  let f := s.flight k
  f.hasPos f.nextPos &&
    (f.st == .running || f.st == .moored || f.st == .held || f.starts (s.poundNow + 1))

/-! ### What is checked -/

/-- The legs that a flight tile may run at a position, in whichever variant the gate chooses. -/
def legsAt (m : Ram) (j f : Nat) : List Nat :=
  (((List.range (hdrVariants m)).filterMap fun v => legOf m v j f)).eraseDups

/-- Whether the runs of a destination keep to whole aligned words (R14, R182). -/
def Ext.words (e : Ext) : Bool :=
  decide (e.base % 8 = 0) && decide (e.run % 8 = 0) && e.dims.all fun d => d.1 == 1 || d.2 % 8 == 0

/-- What lock-in of a flight has found: whether every check passed, the leaves used, and the pages that failed,
each with the reach whose tile names it. -/
structure LockAcc where
  ok     : Bool := true
  leaves : List (Nat × Nat × Nat) := []
  pages  : List (Nat × XFail) := []
  deriving DecidableEq, Repr

/-- The leaves of a range that translates (fuel: pages). -/
def State.leavesOf (s : State) (unit ctx : Nat) : Nat → Nat → Nat → List (Nat × Nat × Nat)
  | 0, _, _ => []
  | fuel + 1, va, n =>
    if n = 0 then []
    else
      match (s.lookup unit ctx va).2 with
      | .inr _ => []
      | .inl (e, l) =>
        let start := va / pageSize l * pageSize l
        let len := min n (start + pageSize l - va)
        (start, l, e) :: s.leavesOf unit ctx fuel (va + len) (n - len)

/-- Whether two failing pages are one for the report. -/
def sameFail (a b : Nat × XFail) : Bool :=
  a.1 == b.1 && a.2.start == b.2.start && a.2.page == b.2.page && a.2.cause == b.2.cause

/-- The failing range of a destination run on a PEER leaf that breaks R14: the whole leaf, lacking the write right
(R182, R528). -/
def State.peerFail (s : State) (unit ctx need : Nat) (g : XSeg) : XFail :=
  match (s.lookup unit ctx g.va).2 with
  | .inl (_, l) => { va := g.va, start := g.va / pageSize l * pageSize l, cause := 1, page := l, need := need }
  | .inr e => walkFail g.va need e

/-- One range of a flight in slot `k`, for tile `t`: `write` for a destination's, and `whole` where its extent meets R14.
Bytes that are no device VA (below 0, or from 2^57 on: R516) fail with no page to record (DESIGN CHOICE: log
entry 79). -/
def State.lockRange (s : State) (k t need : Nat) (write whole : Bool) (a : LockAcc) (at_ : Int) (n : Nat) :
    State × LockAcc :=
  if at_ < 0 ∨ (2 : Int) ^ 57 < at_ + n then (s, { a with ok := false })
  else
    let va := at_.toNat
    let ctx := s.flightCtx k
    let r := s.xlateExtent (t / 17) ctx (MID_FLIGHT k) need write va n
    let s := r.1
    let peers : List XFail := if write && !whole then
        (r.2.1.filter fun g => g.peer).map (s.peerFail (t / 17) ctx need)
      else []
    let shut := !s.port.ioOpen && r.2.1.any fun g => g.host
    let fails := (r.2.2 ++ peers).foldl (fun l f =>
      if l.any (sameFail (t / 17, f)) then l else l ++ [(t / 17, f)]) a.pages
    (s, { ok := a.ok && r.2.2.isEmpty && peers.isEmpty && !shut,
          leaves := (s.leavesOf (t / 17) ctx (n / 4096 + 2) va n).foldl
            (fun l e => if l.contains e then l else l ++ [e]) a.leaves,
          pages := fails })

/-- A checked target that has no device VA: a refusal is reported at once, with the endpoint address (R208). -/
def State.lockTarget (s : State) (k target need addr : Nat) (a : LockAcc) : State × LockAcc :=
  if s.actPass target (MID_FLIGHT k) need then (s, a)
  else (s.actDeny target (MID_FLIGHT k) need addr k, { a with ok := false })

/-- One extent of a VIRTUAL endpoint, run by run. -/
def State.lockExt (s : State) (k t need : Nat) (dst : Bool) (a : LockAcc) (e : Ext) : State × LockAcc :=
  e.runs.foldl (fun r x => r.1.lockRange k t need dst e.words r.2 x.1 x.2) (s, a)

/-- One side of a descriptor. -/
def State.lockSide (s : State) (k t : Nat) (dst : Bool) (d : Desc) (a : LockAcc) : State × LockAcc :=
  let kind := if dst then d.dstKind else d.srcKind
  let addr := if dst then d.dst else d.src
  let need := if dst then d.dstNeed else NEED_R
  match kind with
  | 1 => s.lockTarget k (tgtHold ((s.logTile t).getD 0)) need addr a
  | 2 => s.lockTarget k (tgtHold (bitsOf addr 39 32)) need addr a
  | 3 => s.lockTarget k TGT_MOORED need addr a
  | 4 => (if dst then dstExts d else srcExts d).foldl (fun r e => r.1.lockExt k t need dst r.2 e) (s, a)
  | 5 => s.lockTarget k TGT_CANAL need addr a
  | 6 => (s, if (s.berth (bitsOf addr 49 48)).st = .active then a else { a with ok := false })
  | _ => (s, a)

/-- The window that a B-slot word names, with the rights its operation needs: read for a GLD, write for a GST, all three
for a GAMO (R527). -/
def wordNeed (w : BitVec 32) : Option (Nat × Nat) :=
  let win := bitsOf w.toNat 12 10
  match bitsOf w.toNat 27 22 with
  | 0x05 => if bitOf w.toNat 0 then none else some (win, NEED_R)
  | 0x06 => if bitOf w.toNat 0 then none else some (win, NEED_W)
  | 0x07 => some (win, NEED_R + NEED_W + NEED_A)
  | _ => none

/-- The rights that each access window of a flight tile needs, by the tile's whole instruction image (R527). -/
def windowNeeds (m : Ram) (f : Nat) : List (Nat × Nat) :=
  let base := (sectOf m SEC_INSTR).off + 16 * tileImemFirst m f
  ((List.range (tileImemCount m f)).filterMap fun i =>
    wordNeed (BitVec.ofNat 32 (m.num (base + 16 * i + 12) 4))).eraseDups

/-- The rights that window `w` needs; a window that no access names needs the read right (R527). -/
def windowNeed (needs : List (Nat × Nat)) (w : Nat) : Nat :=
  let n := (needs.filter fun x => x.1 == w).foldl (fun a x => a ||| x.2) 0
  if n = 0 then NEED_R else n

/-- One leg of flight tile `f` on tile `t`: its descriptors and its access windows. -/
def State.lockLeg (s : State) (k t f l : Nat) (a : LockAcc) : State × LockAcc :=
  let m := (s.flight k).image
  let r := (legDescs m l).foldl (fun r d =>
    let x := r.1.lockSide k t false d r.2
    x.1.lockSide k t true d x.2) (s, a)
  let needs := windowNeeds m f
  (List.range (legWindows m l)).foldl (fun r w =>
    let x := window m (legWindowFirst m l + w)
    let need := windowNeed needs w
    r.1.lockRange k t need (need != NEED_R) true r.2 x.1 x.2) r

/-- The lock-in of a flight's position: every check of every leg of its tiles. -/
def State.lockAll (s : State) (k j : Nat) : State × LockAcc :=
  (s.tilesOf k).foldl (fun r e =>
    (legsAt (r.1.flight k).image j e.2).foldl (fun r l => r.1.lockLeg k e.1 e.2 l r.2) r) (s, {})

/-- The failing pages are recorded, one entry for each, and refusals of an access table sent (R208). -/
def State.reportPages (s : State) (k : Nat) (pages : List (Nat × XFail)) : State :=
  pages.foldl (fun s f => s.reportFail (s.flightCtx k) (MID_FLIGHT k) (2 ^ f.1) k f.2) s

/-- LOCK_IN: it must end before the vote instant, and its outcome enters the contribution there (R209); a flight that
is held only by failed lock-ins, and whose lock-in now succeeds, asks to resume (R466, R534). -/
def State.doLockIn (s : State) (k : Nat) : State :=
  if !s.locksIn k || s.gate.cut then s
  else
    let r := s.lockAll k (s.flight k).nextPos
    let s := r.1.reportPages k r.2.pages
    let s := s.modFlight k fun f => { f with lockinDone := true, lockinOk := r.2.ok, nextXlt := r.2.leaves }
    let f := s.flight k
    if r.2.ok ∧ f.st = .held ∧ f.causes = [.lockin] then s.orderTag f.tag fun t => { t with resume := true } else s

/-- LOCK_IN. -/
def execLockIn (slot : Nat) (s : State) : Host.Outcome State Fault Refusal := doneLive s (s.doLockIn slot)

end Sys2Proof.Machine
end

