-- ==== Sys2Proof/Machine/Gate.lean ====
section
/-! DEFINITION. The gate exchange (R26, R27, R34 to R37, R266 to R271): the vote, the contribution, its merge and its
flits. -/

namespace Sys2Proof.Machine

/-! ### The merge rules (R34, R269) -/

/-- The order of muster keys: start, restore and replay musters first, then by tag and barrier. -/
def musterKey (m : MusterItem) : Nat := (if 256 ≤ m.barrier then 0 else 2 ^ 20) + 2 ^ 10 * m.tag + m.barrier

/-- An item as the field holds it: the count saturates, and OVER says that it did. -/
def capItem (m : MusterItem) : MusterItem :=
  { m with count := min m.count 2047, ovf := m.ovf || decide (2047 < m.count) }

/-- A list in key order with one more item summed into it. -/
def sumItem (m : MusterItem) : List MusterItem → List MusterItem
  | [] => [capItem m]
  | n :: ns =>
    if musterKey m < musterKey n then capItem m :: n :: ns
    else if musterKey m = musterKey n then capItem { n with count := n.count + m.count, ovf := n.ovf || m.ovf } :: ns
    else n :: sumItem m ns

/-- The merged list: the 24 lowest keys. -/
def mergeMusters (a b : List MusterItem) : List MusterItem := (b.foldl (fun l m => sumItem m l) a).take 24

/-- One tag's records merged. -/
def mergeTag (a b : TagRec) : TagRec :=
  { hold := a.hold || b.hold, moor := a.moor || b.moor, halt := a.halt || b.halt, snap := a.snap || b.snap,
    resume := a.resume || b.resume, draught := max a.draught b.draught }

/-- A device index put into an ascending list. -/
def insertDev (n : Nat) : List Nat → List Nat
  | [] => [n]
  | x :: xs => if n < x then n :: x :: xs else if n = x then x :: xs else x :: insertDev n xs

/-- The candidate that wins: the highest priority, then the lowest device index. -/
def mergeCand : Option (Nat × Nat) → Option (Nat × Nat) → Option (Nat × Nat)
  | none, b => b
  | a, none => a
  | some a, some b => some (if a.1 < b.1 ∨ (a.1 = b.1 ∧ b.2 < a.2) then b else a)

/-- The request from the lowest device index. -/
def mergeSetup : Option SetupReq → Option SetupReq → Option SetupReq
  | none, b => b
  | a, none => a
  | some a, some b => some (if b.dev < a.dev then b else a)

/-- Two contributions merged. -/
def mergeGate (a b : Gate) : Gate :=
  { reset := a.reset || b.reset, late := a.late || b.late, presence := a.presence || b.presence,
    bound := a.bound || b.bound, setup := mergeSetup a.setup b.setup, cand := mergeCand a.cand b.cand,
    leadAllow := min a.leadAllow b.leadAllow, faultMap := b.faultMap.foldl (fun l n => insertDev n l) a.faultMap,
    musters := mergeMusters a.musters b.musters,
    tags := b.tags.foldl (fun l e => sset {} e.1 (mergeTag (sget {} l e.1) e.2) l) a.tags }

/-! ### The vote (R26) -/

/-- Whether a tile votes late. -/
def Tile.votesLate (x : Tile) : Bool :=
  x.leg.isSome && ((x.st == .bound && (x.endAt.isNone || x.running)) || !x.barges.isEmpty || !x.accs.isEmpty)

/-- The running flights that have a late tile. -/
def State.lateSlots (s : State) : List Nat :=
  s.boundSlots.filter fun k =>
    (s.flight k).st == .running && (s.flight k).ran && (s.tilesOf k).any fun e => (s.tile e.1).votesLate

/-- Whether the vote being decided is late, so far as this device knows. -/
def State.lateVote (s : State) : Bool :=
  s.gate.voted || s.gate.got.any fun g => g.round == s.gate.round && g.part == 0 && g.gate.late

/-! ### What a device enters at the cut-off -/

/-- The slot tables that a flight has for its device slot in a group. -/
def Flight.tables (f : Flight) (g : Nat) : List SlotTab :=
  ((imageTabs f.image).getD []).filter fun t => t.dev == f.devSlot && t.group == g

/-- The ports that they name. -/
def Flight.portsOf (f : Flight) (g : Nat) : List Nat := (((f.tables g).flatMap SlotTab.ents).map SlotEnt.port).eraseDups

/-- The group of the detour entry for a port: that of the table it names. -/
def Flight.detour (f : Flight) (p : Nat) : Option Nat :=
  ((List.range (entryCount f.image SEC_DETOURS)).find? fun i =>
    entryNum f.image SEC_DETOURS i 0 2 == f.devSlot && entryNum f.image SEC_DETOURS i 2 1 == p).bind fun i =>
      (((imageTabs f.image).getD [])[entryNum f.image SEC_DETOURS i 4 4]?).map SlotTab.group

/-- The group of slot tables that the port states choose (R284); none where the flight holds. A re-mapped flight
keeps its group of R317. -/
def Flight.chooseGroup (f : Flight) (active : Nat → Bool) : Option Nat :=
  let down := (f.portsOf f.remap).filter fun p => !active p
  if f.remap ≠ 0 then (if down.isEmpty then some f.remap else none)
  else
    match down with
    | [] => some 0
    | [p] => f.detour p
    | _ => none

/-- Pseudo-channels that retire at the next lock (R341). -/
def State.retiringPcs (s : State) : List (Nat × Nat) :=
  s.flt.reactions.filterMap fun r =>
    match r with
    | (false, .retirePc port pc) => some (port, pc)
    | _ => none

/-- Whether a flight's locked-in extents for the coming pound write frames of some pseudo-channels. -/
def State.writesPcs (s : State) (k : Nat) (pcs : List (Nat × Nat)) : Bool :=
  let f := s.flight k
  !pcs.isEmpty && (s.tilesOf k).any fun e =>
    (legsAt f.image f.nextPos e.2).any fun l => (legDescs f.image l).any fun d =>
      d.dstKind == 4 && (extRuns (dstExts d)).any fun r => (framesOf r.1 r.2).any fun p =>
        match f.nextXlt.find? fun x => 4096 * p / pageSize x.2.1 * pageSize x.2.1 == x.1 with
        | some x =>
          !entHost x.2.2 &&
            (match s.frame (entPa x.2.2 + (4096 * p - x.1)) with
             | some g => pcs.contains (g.port, g.pc)
             | none => false)
        | none => false

/-- Whether a flight has a reservation on a port whose capacity the bound flights' reservations exceed, retirements
that act at the next lock counted (R343). -/
def State.overCapacity (s : State) (k : Nat) : Bool :=
  (stackRes (s.flight k).image (s.flight k).devSlot).any fun r =>
    let gone := (s.retiringPcs.eraseDups.filter fun x =>
      x.1 == r.1 && s.pcState x.1 x.2 == .ok && !s.pcDrained x.1 x.2).length
    !fitsCap (s.stkReserved r.1) (capOf (s.pcsInService r.1 - gone))

/-- Whether no lock-in of the position that a frozen flight runs next can have ended: an overrun drains, or what the
flight will run is still to be written by a restore (R203, R209, R315; DEDUCED: log entry 22). -/
def Flight.unsettled (f : Flight) : Bool :=
  (f.st == .moored || f.st == .held) && (f.overrun || f.needRestore || f.restoring.isSome || f.fetching)

/-- Why this device's contribution carries a flight's hold flag. -/
def State.raises (s : State) (k : Nat) : List HoldCause :=
  let f := s.flight k
  (if (s.locksIn k && (f.unsettled || !(f.lockinDone && f.lockinOk))) || s.writesPcs k s.retiringPcs then [.lockin] else []) ++
  (if f.barrierFlag then [.barrier] else []) ++
  (if (gateTag s.gate.own f.tag).hold then [.fault] else []) ++
  (if (f.chooseGroup s.portActive).isNone then [.detour] else []) ++
  (if s.fld TCK_GATE 6 0 < s.fld TCK_GATE 22 16 then [.leadShort] else []) ++
  (if s.overCapacity k then [.stackCap] else []) ++
  (if f.lostGroup then [.group] else [])

/-- Planned substitutions of a flight's tiles: whether each copy has ended (R90). -/
def State.substsOf (s : State) (k : Nat) : List Bool :=
  (s.tilesOf k).filterMap fun e =>
    match (s.reach (e.1 / 17)).subst with
    | some (pos, ended) => if (s.reach (e.1 / 17)).tileMap[pos]? = some (some (e.1 % 17)) then some ended else none
    | none => none

/-- A bound flight's record in the contribution: the orders raised so far, and what its state adds. -/
def State.tagRecord (s : State) (k : Nat) : TagRec :=
  let f := s.flight k
  let own := gateTag s.gate.own f.tag
  let copying := match f.snapping with
    | some (_, _, ended) => !ended
    | none => false
  let substs := s.substsOf k
  { own with
    hold := own.hold || !(s.raises k).isEmpty
    moor := own.moor || copying || f.powerMoorOrder || substs.contains false
    resume := own.resume || f.resumeOrder || (f.substMoored && !substs.contains false)
    draught := max own.draught f.request }

/-- Whether a bound flight names a retired logical tile of the device (R89, R313). -/
def State.namesRetired (s : State) : Bool :=
  s.boundSlots.any fun k =>
    let f := s.flight k
    (slotTiles f.image f.devSlot).any fun i => (s.tileOf f.image i).isNone

/-- The bits that the device sets in FAULT_MAP (R271, R313). -/
def State.faultBits (s : State) : List Nat :=
  let self := s.ww.ownFault || s.ww.missFault || s.flt.halted || s.namesRetired
  let lost := if s.ww.joined then
      s.dims.flatMap fun x => (s.neighborsIn x).filter fun n => (s.linkGroup n).isEmpty
    else []
  (lost ++ if self then [s.ww.index] else []).foldl (fun l n => insertDev n l)
    (s.gate.own.faultMap.foldl (fun l n => insertDev n l) [])

/-- The device's contribution, with its own vote. -/
def State.contribution (s : State) (late : Bool) : Gate :=
  { s.gate.own with
    late := late
    presence := s.ww.lm == some s.ww.index
    bound := !s.boundSlots.isEmpty
    setup := if s.bit TCK_REQ 31 then
        some { dev := s.ww.index, len := s.fld TCK_REQ 9 0, lead := s.fld TCK_REQ 22 16 }
      else none
    cand := if s.ww.candidate then some (s.fld TCK_CTL 15 8, s.ww.index) else none
    leadAllow := s.boundSlots.foldl (fun a k => min a (hdrGateLead (s.flight k).image)) 100
    faultMap := s.faultBits
    musters := mergeMusters [] s.musters
    tags := s.boundSlots.foldl (fun l k => sset {} (s.flight k).tag (s.tagRecord k) l) s.gate.own.tags }

/-- A lock-in that has not ended is late: it records no fault batch, and sends a message (R209). -/
def State.lateLockIns (s : State) : State :=
  s.boundSlots.foldl (fun s k =>
    if s.locksIn k && !(s.flight k).lockinDone then
      s.fault { msgOf K_LOCKIN_LATE 11 k with slot := k }
    else s) s

/-- Which flights have a late tile at this vote. -/
def State.markLate (s : State) : State :=
  let ls := s.lateSlots
  s.boundSlots.foldl (fun s k => s.modFlight k fun f => { f with late := ls.contains k }) s

/-- The cut-off: vote 0 is cast, and the contribution is what it is now (R26, R27). -/
def State.cutOff (s : State) : State :=
  let s := s.lateLockIns
  let late := !s.lateSlots.isEmpty
  let sent := s.contribution late
  let s := s.boundSlots.foldl (fun s k => s.modFlight k fun f => { f with raised := s.raises k }) s.markLate
  { s with gate := { s.gate with cut := true, sent := sent, voted := late, round := 0 }
           waits := s.waits.map fun w => { w with entered := true }
           tiles := s.tiles.map fun e => (e.1, if e.2.st = .stopped then { e.2 with stopGated := true } else e.2)
           canals := s.canals.map fun e => (e.1, { e.2 with activeAtVote := decide (e.2.st = .active) }) }

/-- Whether locks come: the device holds time lock, in holdover too, until the lock at which an expired holdover takes it
out of the waterway (R49). -/
def State.locksRun (s : State) : Bool := s.ww.joined && !s.boot.safe

/-- VOTE_INSTANT: vote 0, or the vote that a late one calls for; vote 16 is the last (R30, R31). Vote k is cast a gate
lead before the lock as k slips have moved it (R26). -/
def State.doVote (s : State) : State :=
  if !s.locksRun then s
  else if !s.gate.cut then (s.clockAt (s.poundLen - s.gateLead)).cutOff
  else if s.lateVote && decide (s.gate.round < 16) then
    let late := !s.lateSlots.isEmpty
    let s : State := { s.markLate with gate := { s.gate with round := s.gate.round + 1, voted := late } }
    s.clockTo ((s.nextLock - s.gateLead) * 2 ^ 16)
  else s

/-! ### Gate flits -/

/-- What a gate flit of the round being decided carries in a phase: the contribution with everything that earlier
phases brought; after round 0 only its late bit counts. -/
def State.phaseGate (s : State) (phase : Nat) : Gate :=
  let base := if s.gate.round = 0 then s.gate.sent else { s.gate.sent with late := s.gate.voted }
  (s.gate.got.filter fun g => g.round == s.gate.round && decide (g.phase < phase)).foldl (fun a g => mergeGate a g.gate) base

/-- PART A of a contribution carries no tag records, and PART B nothing else. -/
def partOf (part : Nat) (g : Gate) : Gate := if part = 0 then { g with tags := [] } else { tags := g.tags }

/-- The instants of a round's phases, in nanoseconds apart: P of R266. -/
def State.phaseGap (s : State) : Nat := (s.gateLead - 20) / max 1 s.dims.length

/-- GATE_FLIT_SEND: the flits of a phase leave on every port of the link groups of its dimension. -/
def State.doGateSend (s : State) (round phase : Nat) : State :=
  match s.dims[phase]? with
  | none => s
  | some x =>
    if !s.ww.joined || !s.gate.cut || decide (round ≠ s.gate.round) then s
    else
      let s := s.clockTo ((s.nextLock - s.gateLead + phase * s.phaseGap) * 2 ^ 16)
      let g := s.phaseGate phase
      let parts := if round = 0 then [0, 1] else [0]
      ((s.neighborsIn x).flatMap fun n => s.linkGroup n).foldl (fun s p =>
        parts.foldl (fun s part =>
          s.sendPlain p (gateFlit s.ww.index (s.canal p).peerDev round phase part s.ww.pound (partOf part g))) s) s

/-- Whether a gate flit counts: it is of the running pound and of a neighbour in its dimension, and the first of its
round, phase and part from there. -/
def State.gateCounts (s : State) (peer : Nat) (f : Flit) : Bool :=
  let round := gateRound f
  let part := gatePart f
  (match s.dims[gatePhase f]? with
    | some x => (s.neighborsIn x).contains peer
    | none => false) &&
    s.ww.joined && gatePound f == s.ww.pound % 2 ^ 32 && decide (round ≤ 16) && (round == 0 || part == 0) &&
    !(s.gate.got.any fun x => x.round == round && x.phase == gatePhase f && x.peer == peer && x.part == part)

/-- GATE_FLIT_RECEIVE: the first flit of a phase from a neighbour counts, whichever port brought it; the second
adds nothing (R35). -/
def State.doGateReceive (s : State) (p : Nat) (x : RxFlit) : State :=
  s.receive p x [FLIT_GATE] fun s f =>
    let peer := (s.canal p).peerDev
    if s.portActive p && s.gateCounts peer f then
      { s with gate := { s.gate with got := s.gate.got ++ [{ round := gateRound f, phase := gatePhase f, peer := peer,
                                                             part := gatePart f, gate := partOf (gatePart f) (gateOf f) }] } }
    else s

/-! ### The result (R36, R37, R270) -/

/-- Whether a phase flit of a neighbour has come. -/
def State.gateHas (s : State) (round phase peer part : Nat) : Bool :=
  s.gate.got.any fun x => x.round == round && x.phase == phase && x.peer == peer && x.part == part

/-- Whether a part of the gate result is missing: a flit that the device expects has not come. -/
def State.gateMissing (s : State) : Bool :=
  s.ww.joined && s.dims.zipIdx.any fun d =>
    ((s.neighborsIn d.1).filter fun n => !s.ww.faults.contains n).any fun n =>
      !s.gateHas 0 d.2 n 1 || (List.range (s.gate.round + 1)).any fun r => !s.gateHas r d.2 n 0

/-- The gate result of the pound. -/
def State.gateResult (s : State) : Gate :=
  (s.gate.got.filter fun g => g.round == 0).foldl (fun a g => mergeGate a g.gate) s.gate.sent

/-! ### Commands -/

/-- VOTE_INSTANT. -/
def execVoteInstant (s : State) : Host.Outcome State Fault Refusal := doneLive s s.doVote

/-- GATE_FLIT_SEND. -/
def execGateFlitSend (round phase : Nat) (s : State) : Host.Outcome State Fault Refusal :=
  doneLive s (s.doGateSend round phase)

/-- GATE_FLIT_RECEIVE. -/
def execGateFlitReceive (port errs0 errs1 head spec crc : Nat) (payload : List Byte) (s : State) :
    Host.Outcome State Fault Refusal :=
  doneLive s (s.doGateReceive port (gateRx errs0 errs1 head spec crc payload))

end Sys2Proof.Machine
end

