-- ==== Sys2Proof/Machine/Power.lean ====
section
/-! DEFINITION. Power (R570 to R595): the cap, the draught decision, telemetry and conservative mode, the fast
limits and the clock ceilings. -/

namespace Sys2Proof.Machine

/-! ### The cap (R573 to R576) -/

/-- A lease's power while it is unexpired. -/
def State.leaseLive (s : State) (l : Option Lease) : Option Nat :=
  match l with
  | some x => if s.ww.time < x.start + x.dur then some x.watts else none
  | none => none

/-- PWR_FLOOR.WATTS as it acts (R592). -/
def State.powerFloor (s : State) : Nat := min 2400 (max 100 (s.fld PWR_FLOOR 11 0))

/-- The cap and its source: 0 floor, 1 driver lease, 2 towpath lease. -/
def State.capNow (s : State) : Nat × Nat :=
  match s.leaseLive s.power.drv, s.leaseLive s.power.tow with
  | some d, some t => if d ≤ t then (d, 1) else (t, 2)
  | some d, none => (d, 1)
  | none, some t => (t, 2)
  | none, none => (s.powerFloor, 0)

/-- PWR_CAP takes the cap of this lock's decision. -/
def State.setCap (s : State) : State := (s.setFld PWR_CAP 11 0 s.capNow.1).setFld PWR_CAP 17 16 s.capNow.2

/-- The cap in force. -/
def State.cap (s : State) : Nat := s.fld PWR_CAP 11 0

/-- LEASE_EXPIRY: the lease ends and IRQ_PEND bit 5 is set (R575). -/
def State.doLeaseExpiry (s : State) (towpath : Bool) : State :=
  if (if towpath then s.power.tow else s.power.drv).isNone then s
  else
    ({ s with power := if towpath then { s.power with tow := none } else { s.power with drv := none } } : State).irq 5

/-! ### Ceilings (R589) -/

/-- The ceiling of a physical reach. -/
def State.ceil (s : State) (p : Nat) : Nat := s.fld (PWR_REACH + 4 * p) 7 0

/-- BOOST_MAX as it acts (R596). -/
def State.boostMax (s : State) : Nat := min 99 (max 60 (s.fld PWR_BOOST 7 0))

/-- The new ceiling from the readings of the last pound. -/
def newCeil (boost ceil tj ts : Nat) : Nat :=
  if 100 ≤ tj ∨ 90 ≤ ts then max 40 (ceil - 4)
  else if tj < 95 ∧ ts < 85 then min (if tj < boost then 132 else 120) (ceil + 4)
  else if boost ≤ tj then min ceil 120
  else ceil

/-- One reach at a lock: its ceiling, its readings in PWR_REACH, and the interrupt of a crossing. -/
def State.reachCeil (s : State) (p tj : Nat) : State :=
  let tj := min tj 255
  let ts := max (s.stack (2 * p)).tempMax (s.stack (2 * p + 1)).tempMax
  let off := PWR_REACH + 4 * p
  let hot := decide (100 ≤ s.fld off 31 24) != decide (100 ≤ tj) || decide (90 ≤ s.fld off 23 16) != decide (90 ≤ ts)
  let s := s.setReg off (BitVec.ofNat 32 (tj * 2 ^ 24 + ts * 2 ^ 16 + bnat (decide (100 ≤ tj ∨ 90 ≤ ts)) * 2 ^ 8 +
    newCeil s.boostMax (s.ceil p) tj ts))
  if hot then s.irq 7 else s

/-- The ceilings of every active reach, and the stack readings of the pound that ends. -/
def State.ceilings (s : State) (tj : List Nat) : State :=
  let s := s.fuses.reaches.foldl (fun s p => s.reachCeil p (tj.getD p 0)) s
  { s with stk := s.stk.map fun e => (e.1, { e.2 with tempLast := e.2.tempMax, tempMax := e.2.temp }) }

/-! ### The draught decision (R578 to R581) -/

/-- Whether a flight runs in the pound after the one that runs, so far as its own state says. -/
def State.runsNext (s : State) (k : Nat) : Bool :=
  let f := s.flight k
  f.hasPos f.nextPos && (f.st == .running || f.starts (s.poundNow + 1))

/-- The order of candidates: priority descending, then tag ascending. -/
def State.candKey (s : State) (k : Nat) : Nat := 256 * (255 - hdrPriority (s.flight k).image) + (s.flight k).tag

/-- A slot put into its place among the candidates. -/
def State.insertCand (s : State) (k : Nat) : List Nat → List Nat
  | [] => [k]
  | x :: xs => if s.candKey k < s.candKey x then k :: x :: xs else x :: s.insertCand k xs

/-- The candidates in order. -/
def State.cands (s : State) : List Nat :=
  (s.boundSlots.filter fun k => s.runsNext k || (s.flight k).powerMoored).foldl (fun l k => s.insertCand k l) []

/-- Whether the planned clocks of a variant meet every ceiling. -/
def State.clocksMeet (s : State) (k v : Nat) : Bool :=
  (s.tilesOf k).all fun e => decide (planClock (s.flight k).image v e.2 ≤ s.ceil (e.1 / 17))

/-- The variants that meet every ceiling, heaviest first. -/
def State.fitting (s : State) (k : Nat) : List Nat :=
  (List.range (hdrVariants (s.flight k).image)).filter fun v => s.clocksMeet k v

/-- The energy of a variant at the position the flight would run next, in 2^-16 mJ. -/
def State.energyOf (s : State) (k v : Nat) : Nat :=
  let f := s.flight k
  planEnergy f.image v f.nextPos f.devSlot

/-- Energies are compared in units of 1/1024 nJ times the numerator of the factor: 2^-16 mJ is 15,625/1,024 nJ. -/
def State.weight (s : State) (k v : Nat) : Int := 15625 * (s.power.factor.1 * s.energyOf k v : Nat)

/-- The energy left for flights, in the same units. -/
def State.avail (s : State) : Int :=
  1024 * ((s.cap * s.poundLen * s.power.factor.2 : Nat) - (s.fld PWR_BASE 11 0 * s.poundLen * s.power.factor.1 : Nat) : Int)

/-- The slots moored to bring the reserve within what is available, from the last candidate on. -/
def shed (avail : Int) : Int → List (Nat × Int) → List Nat
  | _, [] => []
  | reserve, (k, w) :: rest => if avail < reserve then k :: shed avail (reserve - w) rest else []

/-- Whether a flight has a reservation on a stack port that stood at its throttle point in the last complete
pound. -/
def State.hotStack (s : State) (k : Nat) : Bool :=
  (stackRes (s.flight k).image (s.flight k).devSlot).any fun r => decide (90 ≤ (s.stack r.1).tempLast)

/-- The variant chosen for one candidate with `room` left for it. -/
def State.chosen (s : State) (k lo : Nat) (room : Int) : Nat :=
  let fits := s.fitting k
  let v := ((fits.filter fun v => decide (v ≤ lo)).find? fun v => decide (s.weight k v ≤ room)).getD lo
  let f := s.flight k
  let want := min (f.variant + 1) (hdrVariants f.image - 1)
  if s.hotStack k && f.ran then
    match fits.find? fun v => decide (want ≤ v) with
    | some u => max v u
    | none => v
  else v

/-- The variants of the candidates that are not moored, in order: slot and variant. -/
def State.grants (s : State) (avail : Int) : Int → Int → List (Nat × Nat) → List (Nat × Nat)
  | _, _, [] => []
  | reserve, used, (k, lo) :: rest =>
    let reserve := reserve - s.weight k lo
    let v := s.chosen k lo (avail - reserve - used)
    (k, v) :: s.grants avail reserve (used + s.weight k v) rest

/-- The decision of a lock: every bound flight's request, and the flights to moor. -/
def State.decide_ (s : State) : State :=
  let cands := s.cands
  let los := cands.filterMap fun k => ((s.fitting k).getLast?).map fun lo => (k, lo)
  let unfit := cands.filter fun k => (s.fitting k).isEmpty
  let weights := los.map fun e => (e.1, s.weight e.1 e.2)
  let total := weights.foldl (fun a e => a + e.2) 0
  let moored := unfit ++ shed s.avail total weights.reverse
  let live := los.filter fun e => !moored.contains e.1
  let reserve := live.foldl (fun a e => a + s.weight e.1 e.2) 0
  let out := s.grants s.avail reserve 0 live
  let t := s.boundSlots.foldl (fun t k => t.modFlight k fun f =>
    let m := moored.contains k
    { f with request := ((out.find? fun e => e.1 == k).map Prod.snd).getD (hdrVariants f.image - 1)
             powerMoorOrder := m, resumeOrder := f.resumeOrder && !m }) s
  let t := if moored.isEmpty then t else t.setBit PWR_STAT 3 true
  if moored.isEmpty && out.all (fun e => e.2 == 0) then t else t.irq 5

/-- What the decisions of a flight that the device has power-moored have been, at the lock that ends the last one's
pound. -/
def Flight.countDecision (f : Flight) : Flight :=
  { f with unmoored := if f.powerMoored && !f.powerMoorOrder then f.unmoored + 1 else 0 }

/-- POWER_MOOR_RESUME: unmoored in 4 consecutive decisions, the flight gets resume orders (R580). -/
def State.doPowerMoorResume (s : State) (k : Nat) : State :=
  let f := s.flight k
  if f.st = .moored ∧ f.powerMoored ∧ 4 ≤ f.countDecision.unmoored then
    s.modFlight k fun f => { f with resumeOrder := true }
  else s

/-! ### Telemetry and divergence (R582, R583) -/

/-- The estimated power of the pound that starts: base, and the energies of the flights that run it, over its
length. -/
def State.estimate (s : State) : State :=
  let run := s.boundSlots.filter fun k => (s.flight k).ran
  let e := run.foldl (fun a k => a + planEnergy (s.flight k).image (s.flight k).variant (s.flight k).pos
    (s.flight k).devSlot) 0
  { s with power := { s.power with
      estNow := (1024 * (s.fld PWR_BASE 11 0 * s.poundLen) + 15625 * e, 1024 * max 1 s.poundLen)
      ranNow := !run.isEmpty, sumC := 0, sumM := 0, sumL := 0, count := 0 } }

/-- Measured over estimated power of a pound: `sum` over `count` samples against the estimate; telemetry that is
lost counts as 5/4. -/
def powerRatio (lost : Bool) (sum count : Nat) (est : Nat × Nat) : Nat × Nat :=
  if est.1 = 0 then ((Config.ratioOfZero sum).1, (Config.ratioOfZero sum).2 + 1)
  else if lost then (5, 4)
  else (sum * est.2, count * est.1)

/-- Whether a ratio lies above 1.25 or below 0.6. -/
def ratioDiverges (r : Nat × Nat) : Bool := decide (5 * r.2 < 4 * r.1) || decide (5 * r.1 < 3 * r.2)

/-- Whether a ratio lies from 0.9 to 1.1. -/
def ratioAgrees (r : Nat × Nat) : Bool := decide (9 * r.2 ≤ 10 * r.1) && decide (10 * r.1 ≤ 11 * r.2)

/-- 1.1 x max(1, r). -/
def consFactor (r : Nat × Nat) : Nat × Nat := if r.2 ≤ r.1 then (11 * r.1, 10 * r.2) else (11, 10)

/-- The measurement of the pound that ends, `len` ns long. -/
def State.measure (s : State) (len : Nat) : State :=
  let w := s.power
  let lost := decide (2 * w.count < len / 1000)
  let sum := w.sumC + w.sumM + w.sumL
  let mean (n m : Nat) : Nat := min m (n / max 1 w.count)
  let s := if w.count = 0 then s
    else ((s.setFld PWR_MEAS0 10 0 (mean w.sumC 2047)).setFld PWR_MEAS0 26 16 (mean w.sumM 2047)).setFld PWR_MEAS1 10 0
      (mean w.sumL 2047)
  let s := s.setFld PWR_MEAS1 27 16 (min 4095 (w.estNow.1 / w.estNow.2))
  let s := if lost then (s.setBit PWR_STAT 1 true).fault (msgOf K_PWR_TELEMETRY 12 3) else s
  if !w.ranNow then s
  else
    let r := powerRatio lost sum w.count w.estNow
    let n := if w.conservative then 0 else if ratioDiverges r then w.diverge + 1 else 0
    let a := if w.conservative && ratioAgrees r then min 64 (w.agree + 1) else 0
    { s with power := { s.power with
        ratio := some r, diverge := n, agree := a, divergeMet := decide (4 ≤ n), agreeMet := decide (64 ≤ a)
        factor := if w.conservative then consFactor r else (1, 1) } }

/-- A decision made again in the pound in which conservative mode changes, while it can still enter the
contribution. -/
def State.redecide (s : State) : State := if s.gate.cut || !s.locksRun then s else s.decide_

/-- CONSERVATIVE_ENTRY: after four diverging pounds (R583). -/
def State.doConsEntry (s : State) : State :=
  if s.power.conservative || !s.power.divergeMet then s
  else
    let s : State := { s with power := { s.power with
      conservative := true, divergeMet := false, diverge := 0, agree := 0, factor := consFactor (s.power.ratio.getD (1, 1)) } }
    ((s.setBit PWR_STAT 2 true).fault (msgOf K_PWR_DIVERGE 12 3)).redecide

/-- CONSERVATIVE_EXIT: after 64 agreeing pounds (R583). -/
def State.doConsExit (s : State) : State :=
  if !s.power.conservative || !s.power.agreeMet then s
  else
    ({ s with power := { s.power with
        conservative := false, agreeMet := false, diverge := 0, agree := 0, factor := (1, 1) } } : State).redecide

/-! ### Fast limits (R571, R572) -/

/-- The classes from the lowest priority up (R591). -/
def prioOrder (n : Nat) : List PClass :=
  match n with
  | 1 => [.memory, .compute, .links]
  | 2 => [.compute, .links, .memory]
  | 3 => [.links, .compute, .memory]
  | 4 => [.memory, .links, .compute]
  | 5 => [.links, .memory, .compute]
  | _ => [.compute, .memory, .links]

/-- A sample acts on the limits: `limits` holds the engaged ones, the most recent first. -/
def Power.limit (w : Power) (cap : Nat) (fast : Bool) : Power :=
  let sum := w.samples.foldl (fun a e => a + e.1 + e.2.1 + e.2.2) 0
  let n := w.samples.length
  if !fast then w
  else if 105 * cap * n < 100 * sum then
    match (prioOrder w.prio).find? fun c => !w.limits.contains c with
    | some c => if 8 ≤ w.sinceEngage then { w with limits := c :: w.limits, sinceEngage := 0 } else w
    | none => w
  else if 100 * sum < 95 * cap * n ∧ 8 ≤ w.sinceRelease ∧ w.limits ≠ [] then
    { w with limits := w.limits.drop 1, sinceRelease := 0 }
  else w

/-- RAIL_SAMPLE: one sample of each class. -/
def State.doRailSample (s : State) (c m l : Nat) : State :=
  if s.boot.safe then s
  else
    let w := s.power
    let w : Power := { w with samples := ((c, m, l) :: w.samples).take 8, sumC := w.sumC + c, sumM := w.sumM + m,
                              sumL := w.sumL + l, count := w.count + 1, sinceEngage := min 8 (w.sinceEngage + 1),
                              sinceRelease := min 8 (w.sinceRelease + 1) }
    { s with power := w.limit s.cap (s.bit PWR_CTL 8) }

/-- Every engaged limit is released, and the rule starts afresh. -/
def State.releaseLimits (s : State) : State :=
  { s with power := { s.power with limits := [], sinceEngage := 8, sinceRelease := 8 } }

/-- A write of PWR_CTL: clearing FAST_EN releases every limit at once; PRIO waits for the next lock. -/
def State.pwrCtl (s : State) (v : Reg) : State :=
  let s := s.swWrite PWR_CTL v
  if s.bit PWR_CTL 8 then s else s.releaseLimits

/-- FAST_LIMIT_DISABLE: a write of PWR_CTL that clears FAST_EN and leaves PRIO. -/
def State.doFastLimitDisable (s : State) : State := s.pwrCtl (putBits (s.reg PWR_CTL) 8 8 0)

/-- A write of PWR_DROOP: ignored unless the depths ascend (R595). -/
def State.pwrDroop (s : State) (v : Reg) : State :=
  let l1 := bitsOf v.toNat 7 0
  let l2 := bitsOf v.toNat 15 8
  let l3 := bitsOf v.toNat 23 16
  if l1 < l2 ∧ l2 < l3 then s.swWrite PWR_DROOP v else s

/-- The settings that apply from a lock: the class order and the trip depths. -/
def State.powerSettings (s : State) : State :=
  { s with power := { s.power with prio := s.fld PWR_CTL 2 0, droop := s.fld PWR_DROOP 23 0 } }

/-! ### Commands -/

/-- RAIL_SAMPLE. -/
def execRailSample (comp mem links : Nat) (s : State) : Host.Outcome State Fault Refusal :=
  doneLive s (s.doRailSample comp mem links)

/-- FAST_LIMIT_DISABLE. -/
def execFastLimitDisable (s : State) : Host.Outcome State Fault Refusal := doneLive s s.doFastLimitDisable

/-- PWR_DROOP_WRITE. -/
def execPwrDroopWrite (v : Reg) (s : State) : Host.Outcome State Fault Refusal := doneLive s (s.pwrDroop v)

/-- LEASE_EXPIRY. -/
def execLeaseExpiry (towpath : Bool) (s : State) : Host.Outcome State Fault Refusal := doneLive s (s.doLeaseExpiry towpath)

/-- CONSERVATIVE_ENTRY. -/
def execConservativeEntry (s : State) : Host.Outcome State Fault Refusal := doneLive s s.doConsEntry

/-- CONSERVATIVE_EXIT. -/
def execConservativeExit (s : State) : Host.Outcome State Fault Refusal := doneLive s s.doConsExit

/-- POWER_MOOR_RESUME. -/
def execPowerMoorResume (slot : Nat) (s : State) : Host.Outcome State Fault Refusal := doneLive s (s.doPowerMoorResume slot)

end Sys2Proof.Machine
end

