-- ==== Sys2Proof/Machine/RingExecs.lean ====
section
/-! DEFINITION. The commands of the rings and of their service (13 R484 to R509), of flights (06, 08), and of the
maintenance engine (10). A ring command acts as the next descriptor of its ring. -/

namespace Sys2Proof.Machine

/-! ### Ring commands -/

/-- NOP (R496). -/
def execRingNop (c r : Nat) (h : DescHdr) (s : State) : Host.Outcome State Fault Refusal :=
  doneLive s (s.arrive c r h fun s k => s.doNop k)

/-- FENCE_SIGNAL (R506). -/
def execFenceSignal (c r : Nat) (h : DescHdr) (fence off value : Nat) (s : State) :
    Host.Outcome State Fault Refusal :=
  doneLive s (s.arrive c r h fun s k => s.doFenceSignal k fence off value)

/-- FENCE_WAIT (R507). -/
def execFenceWait (c r : Nat) (h : DescHdr) (fence off value timeoutUs : Nat) (s : State) :
    Host.Outcome State Fault Refusal :=
  doneLive s (s.arrive c r h fun s k => s.doFenceWait k fence off value timeoutUs)

/-- COPY (R498). -/
def execCopy (c r : Nat) (h : DescHdr) (src dst srcOff dstOff len : Nat) (s : State) :
    Host.Outcome State Fault Refusal :=
  doneLive s (s.arrive c r h fun s k => s.doCopy k src dst srcOff dstOff len)

/-- FILL (R496). -/
def execFill (c r : Nat) (h : DescHdr) (dst dstOff len pattern : Nat) (s : State) :
    Host.Outcome State Fault Refusal :=
  doneLive s (s.arrive c r h fun s k => s.doFill k dst dstOff len pattern)

/-- MAP_RANGE (R521). -/
def execMapRange (c r : Nat) (h : DescHdr) (ctx page count va entry : Nat) (s : State) :
    Host.Outcome State Fault Refusal :=
  doneLive s (s.arrive c r h fun s k => s.doMapRange k ctx page count va entry)

/-- UNMAP_RANGE (R523). -/
def execUnmapRange (c r : Nat) (h : DescHdr) (ctx page count va : Nat) (s : State) :
    Host.Outcome State Fault Refusal :=
  doneLive s (s.arrive c r h fun s k => s.doUnmapRange k ctx page count va)

/-- INVALIDATE_XLT (R524). -/
def execInvalidateXlt (c r : Nat) (h : DescHdr) (ctx scope page count va : Nat) (s : State) :
    Host.Outcome State Fault Refusal :=
  doneLive s (s.arrive c r h fun s k => s.doInvalidateXlt k ctx scope page count va)

/-- SET_BIAS (R378). -/
def execSetBias (c r : Nat) (h : DescHdr) (bias count dpa : Nat) (s : State) : Host.Outcome State Fault Refusal :=
  doneLive s (s.arrive c r h fun s k => s.doSetBias k bias count dpa)

/-- LOAD_FLIGHT (R229). -/
def execLoadFlight (c r : Nat) (h : DescHdr) (image off len : Nat) (s : State) : Host.Outcome State Fault Refusal :=
  doneLive s (s.arrive c r h fun s k => s.doLoad k image off len)

/-- BIND_FLIGHT (R232). -/
def execBindFlight (c r : Nat) (h : DescHdr) (slot tag fence fenceOff endValue : Nat) (s : State) :
    Host.Outcome State Fault Refusal :=
  doneLive s (s.arrive c r h fun s k => s.doBind k slot tag fence fenceOff endValue)

/-- RUN_FLIGHT (R237). -/
def execRunFlight (c r : Nat) (h : DescHdr) (slot startPound : Nat) (s : State) : Host.Outcome State Fault Refusal :=
  doneLive s (s.arrive c r h fun s k => s.doRun k slot startPound)

/-- MOOR_FLIGHT (R243). -/
def execMoorFlight (c r : Nat) (h : DescHdr) (slot : Nat) (s : State) : Host.Outcome State Fault Refusal :=
  doneLive s (s.arrive c r h fun s k => s.doMoor k slot)

/-- RESUME_FLIGHT (R243). -/
def execResumeFlight (c r : Nat) (h : DescHdr) (slot : Nat) (s : State) : Host.Outcome State Fault Refusal :=
  doneLive s (s.arrive c r h fun s k => s.doResume k slot)

/-- HALT_FLIGHT (R246). -/
def execHaltFlight (c r : Nat) (h : DescHdr) (slot release : Nat) (s : State) : Host.Outcome State Fault Refusal :=
  doneLive s (s.arrive c r h fun s k => s.doHalt k slot release)

/-- SNAPSHOT (R306). -/
def execSnapshot (c r : Nat) (h : DescHdr) (slot exportH exportOff : Nat) (s : State) :
    Host.Outcome State Fault Refusal :=
  doneLive s (s.arrive c r h fun s k => s.doSnapshot k slot exportH exportOff)

/-- RESTORE (R311). -/
def execRestore (c r : Nat) (h : DescHdr) (slot source importH importOff pound : Nat) (s : State) :
    Host.Outcome State Fault Refusal :=
  doneLive s (s.arrive c r h fun s k => s.doRestore k slot source importH importOff pound)

/-- MAINT (R399). -/
def execMaint (c r : Nat) (h : DescHdr) (op space ctx addr len : Nat) (s : State) :
    Host.Outcome State Fault Refusal :=
  doneLive s (s.arrive c r h fun s k => s.doMaint k op space ctx addr len)

/-- SET_POWER_LEASE (R573). -/
def execSetPowerLease (c r : Nat) (h : DescHdr) (watts durUs : Nat) (s : State) : Host.Outcome State Fault Refusal :=
  doneLive s (s.arrive c r h fun s k => s.doSetPowerLease k watts durUs)

/-- CONTEXT_TEARDOWN (R509). -/
def execContextTeardown (c r : Nat) (h : DescHdr) (ctx : Nat) (s : State) : Host.Outcome State Fault Refusal :=
  doneLive s (s.arrive c r h fun s k => s.doTeardown k ctx)

/-! ### Waits of ring commands -/

/-- FENCE_WAIT_SATISFIED: the fence word is read again, and FENCE_WAIT ends where it lets it (R507). -/
def execFenceWaitSatisfied (c r : Nat) (s : State) : Host.Outcome State Fault Refusal :=
  doneLive s (s.fenceCheck c r).resettle

/-- FENCE_WAIT_TIMEOUT: TIMEOUT_US passes first (R507). -/
def execFenceWaitTimeout (c r : Nat) (s : State) : Host.Outcome State Fault Refusal :=
  doneLive s (s.fenceTimeout c r).resettle

/-- START_DEFER_LIMIT (R239). -/
def execStartDeferLimit (slot : Nat) (s : State) : Host.Outcome State Fault Refusal :=
  doneLive s (s.doDeferLimit slot).resettle

/-- BARRIER_TIMEOUT (R297). -/
def execBarrierTimeout (slot : Nat) (s : State) : Host.Outcome State Fault Refusal :=
  doneLive s (s.doBarrierTimeout slot)

/-- TILE_ZEROING_DONE (R81). -/
def execTileZeroingDone (t : Nat) (s : State) : Host.Outcome State Fault Refusal := doneLive s (s.doZeroingDone t)

/-- BIND_IMAGES_WRITTEN (R233). -/
def execBindImagesWritten (slot : Nat) (s : State) : Host.Outcome State Fault Refusal :=
  doneLive s (s.doBindImages slot)

/-- SNAPSHOT_EXPORT_DONE (R310). -/
def execSnapshotExportDone (slot : Nat) (s : State) : Host.Outcome State Fault Refusal :=
  doneLive s (s.doExportDone slot).resettle

/-- RESTORE_COPY_DONE (R311, R315). -/
def execRestoreCopyDone (slot : Nat) (s : State) : Host.Outcome State Fault Refusal :=
  doneLive s (s.doRestoreDone slot).resettle

/-! ### Ring service -/

/-- DOORBELL_WAKE: a watched doorbell write wakes the server (R492). -/
def execDoorbellWake (c r : Nat) (s : State) : Host.Outcome State Fault Refusal := doneLive s (s.wake c r false)

/-- DOORBELL_POLL: a POLLED ring's doorbell is read (R491); the poll also retries an unready descriptor (R493). -/
def execDoorbellPoll (c r : Nat) (s : State) : Host.Outcome State Fault Refusal :=
  doneLive s (if (s.ring c r).mode = .polled ∨ (s.ring c r).mode = .parked then s.wake c r true else s)

/-- DESCRIPTOR_LINE_WRITTEN (R493). -/
def execDescriptorLineWritten (c r : Nat) (s : State) : Host.Outcome State Fault Refusal :=
  doneLive s (s.lineWritten c r)

/-- CONSUMER_WORD_POLL (R489). -/
def execConsumerWordPoll (c : Nat) (s : State) : Host.Outcome State Fault Refusal := doneLive s (s.pollConsumer c)

/-- CONTEXT_ENABLE: RNG_CTX_CTL with GO and CMD as the row names it (R511). -/
def execContextEnable (_v : Reg) (s : State) : Host.Outcome State Fault Refusal := doneLive s (s.ctxCmd CTX_ENABLE)

/-- CONTEXT_SUSPEND: RNG_CTX_CTL with GO and CMD as the row names it (R511). -/
def execContextSuspend (_v : Reg) (s : State) : Host.Outcome State Fault Refusal :=
  doneLive s (s.ctxCmd CTX_SUSPEND)

/-- CONTEXT_RESUME: RNG_CTX_CTL with GO and CMD as the row names it (R511). -/
def execContextResume (_v : Reg) (s : State) : Host.Outcome State Fault Refusal := doneLive s (s.ctxCmd CTX_RESUME)

/-- RING_ENABLE (R491, R512). -/
def execRingEnable (s : State) : Host.Outcome State Fault Refusal := doneLive s s.ringEnable

/-- RING_DISABLE (R494). -/
def execRingDisable (s : State) : Host.Outcome State Fault Refusal := doneLive s s.ringDisable

/-- RNG_INJ_CRC: the next descriptor read has its CRC inverted (R514). -/
def execRngInjCrc (s : State) : Host.Outcome State Fault Refusal := doneLive s (s.setBit RNG_INJ 0 true)

/-- CACHE_ENABLE_WRITE (R452). -/
def execCacheEnableWrite (en : Bool) (s : State) : Host.Outcome State Fault Refusal := done s (s.cacheEnable en)

/-! ### Maintenance (R396 to R409) -/

/-- CMX_CMD with GO and OP as the row names them. -/
def cmxValue (v : Reg) (op : Nat) : Reg := putBits (putBits v 2 0 op) 31 31 1

/-- CLEAN. -/
def execClean (v : Reg) (s : State) : Host.Outcome State Fault Refusal := doneLive s (s.cmxSubmit (cmxValue v 0))

/-- INVALIDATE. -/
def execInvalidate (v : Reg) (s : State) : Host.Outcome State Fault Refusal :=
  doneLive s (s.cmxSubmit (cmxValue v 1))

/-- CLEAN_INVALIDATE. -/
def execCleanInvalidate (v : Reg) (s : State) : Host.Outcome State Fault Refusal :=
  doneLive s (s.cmxSubmit (cmxValue v 2))

/-- WARM. -/
def execWarm (v : Reg) (s : State) : Host.Outcome State Fault Refusal := doneLive s (s.cmxSubmit (cmxValue v 3))

/-- ZERO. -/
def execZero (v : Reg) (s : State) : Host.Outcome State Fault Refusal := doneLive s (s.cmxSubmit (cmxValue v 4))

/-- MAINT_ENTRY_END: the oldest entry ends (R398). -/
def execMaintEntryEnd (s : State) : Host.Outcome State Fault Refusal := doneLive s s.maintEnd.resettle

/-- CMX_INJ_BSN_UE. -/
def execCmxInjBsnUe (s : State) : Host.Outcome State Fault Refusal := doneLive s (s.setBit CMX_INJ 2 true)

/-- CMX_INJ_BSN_CE. -/
def execCmxInjBsnCe (s : State) : Host.Outcome State Fault Refusal := doneLive s (s.setBit CMX_INJ 1 true)

/-- CMX_INJ_RC_PARITY. -/
def execCmxInjRcParity (s : State) : Host.Outcome State Fault Refusal := doneLive s (s.setBit CMX_INJ 0 true)

/-! ### The end of a pin (R426) -/

/-- SC: the requests that the hart's pin held back run after it (R426). -/
def execSc (k : Nat) (host : Bool) (addr attr size value : Nat) (aq rl : Bool) (s : State) :
    Host.Outcome State Fault Refusal :=
  doneLive s (s.doSc k host addr attr size value aq rl).retryHeld.settleCopies

/-- PIN_EXPIRY: 128 slice cycles have passed; the requests that waited run. -/
def execPinExpiry (k : Nat) (s : State) : Host.Outcome State Fault Refusal := doneLive s (s.unpin k).retryHeld.settleCopies

/-! ### Responses of the host (R377, R449) -/

/-- A back-invalidation response, the bias changes that waited for it, and what waited for those. -/
def State.birspDone (s : State) (dpa : Nat) (data : Option (List Byte)) (gone : Bool) : State :=
  let t := (s.birsp dpa data gone).settleBias
  (if t.waits = s.waits then t else t.retryHeld).settleCopies.resettle

/-- BIRSP_I: the host holds the line no longer. -/
def execBirspI (dpa : Nat) (data : Option (List Byte)) (s : State) : Host.Outcome State Fault Refusal :=
  doneLive s (s.birspDone dpa data true)

/-- BIRSP_S: the host holds the line shared. -/
def execBirspS (dpa : Nat) (data : Option (List Byte)) (s : State) : Host.Outcome State Fault Refusal :=
  doneLive s (s.birspDone dpa data false)

/-- BIRSP_E: the host holds the line exclusive. -/
def execBirspE (dpa : Nat) (data : Option (List Byte)) (s : State) : Host.Outcome State Fault Refusal :=
  doneLive s (s.birspDone dpa data false)

end Sys2Proof.Machine
end

