-- ==== Sys2Proof/Machine/RegView.lean ====
section
/-! DEFINITION. What a read of a BAR0 register returns: the stored value, and the fields that show the state of a
unit (R8 to R11, and the register tables of every block). -/

namespace Sys2Proof.Machine

/-! ### GLB and TCK (R15, R17, R53, R54) -/

/-- The 64-bit value of a TCK pair, by its LO offset. -/
def State.tckPair (s : State) (off : Nat) : Nat :=
  if off = 0x1008 then s.ww.time else if off = 0x1010 then s.ww.pound else if off = 0x1018 then s.ww.epoch
  else s.ww.slip

/-- Whether an offset is one of the TCK pairs. -/
def isTckPair (off : Nat) : Bool := decide (0x1008 ≤ off) && decide (off < 0x1028)

def State.glbView (s : State) (off : Nat) : Reg :=
  if off = GLB_ID then pack [(16, 0x5A4B), (12, s.fuses.variant.code), (8, s.fuses.stepping)]
  else if off = GLB_STATUS then
    pack [(8, s.boot.step), (2, bnat s.boot.wayValid), (1, bnat s.ww.joined), (0, bnat s.boot.fwReady)]
  else s.reg off

def State.tckView (s : State) (off : Nat) : Reg :=
  if off = TCK_STAT then
    s.reg off ||| pack [(16, s.ww.lm.getD 0), (8, bnat (s.ww.lm == some s.ww.index)), (7, bnat s.ww.holdover),
                        (0, bnat s.ww.joined)]
  else if isTckPair off then
    BitVec.ofNat 32 (half (s.tckPair (off / 8 * 8)) (off / 4 % 2))
  else s.reg off

/-! ### PWR (R592 to R597) -/

def leaseView (w : Option Nat) : Reg :=
  match w with
  | some n => pack [(31, 1), (0, n)]
  | none => 0

def State.pwrView (s : State) (off : Nat) : Reg :=
  if off = PWR_LEASE_DRV then leaseView (s.leaseLive s.power.drv)
  else if off = PWR_LEASE_TOW then leaseView (s.leaseLive s.power.tow)
  else if off = PWR_STAT then
    s.reg off ||| pack [(16, s.power.agree), (8, bnat s.pins.thermtripOut), (6, bnat (s.power.limits.contains .links)),
      (5, bnat (s.power.limits.contains .memory)), (4, bnat (s.power.limits.contains .compute)),
      (0, bnat s.power.conservative)]
  else s.reg off

/-! ### FLT (R621 to R627) -/

def State.fltView (s : State) (off : Nat) : Reg :=
  if off = FLT_STAT then s.reg off ||| pack [(16, s.flt.log.length), (11, bnat s.flt.halted)]
  else if off = FLT_PIN then s.reg off ||| pack [(17, bnat s.pins.faultOut)]
  else if off = FLT_LOG_CTL then pack [(0, s.flt.newest)]
  else if 0x3800 ≤ off ∧ off < 0x4000 then
    match sfind? s.flt.log ((off - 0x3800) / 32) with
    | some r => BitVec.ofNat 32 (leNat (((faultBytes r false (r.seq % 256)).drop (off % 32)).take 4))
    | none => 0
  else s.reg off

/-! ### IRQ, RNG, XLT (R477, R480, R511 to R513, R538, R539) -/

def State.irqView (s : State) (off : Nat) : Reg :=
  if off = IRQ_CTL then
    s.reg off ||| pack [(8, bnat s.port.flrBusy), (4, if s.port.tag14 then 2 else if s.port.tag10 then 1 else 0),
                        (1, if s.port.msixEn then 2 else if s.port.msiEn then 1 else 0)]
  else if off = IRQ_TAGS then pack [(16, s.port.quarantine.length), (0, s.port.outstanding.length)]
  else s.reg off

def CState.code : CState → Nat
  | .empty => 0 | .ready => 1 | .running => 2 | .suspended => 3 | .teardown => 4 | .faulted => 5

def RingMode.code : RingMode → Nat
  | .off => 0 | .watched => 1 | .polled => 2 | .parked => 3 | .stopped => 4 | .active => 5 | .held => 6

/-- A ring's MODE: a completion ring with a record that waits is HELD. -/
def Ring.modeView (x : Ring) : RingMode := if x.mode = .active ∧ !x.waiting.isEmpty then .held else x.mode

/-- The enabled submission rings that are POLLED. -/
def State.polledRings (s : State) : Nat :=
  (s.contexts.map fun e => (e.2.rings.filter fun r => decide (r.1 < 8) && decide (r.2.mode = .polled)).length).sum

def State.rngView (s : State) (off : Nat) : Reg :=
  let c := s.selCtx
  let x := s.ring c s.selRing
  if 8 < s.selRing ∧ RNG_CTX_CTL ≤ off ∧ off ≤ RNG_PROD then 0
  else if off = RNG_CTX_CTL then
    putBits (s.reg off) 31 31 (bnat (s.ctxGo c)) ||| pack [(0, (s.context c).st.code)]
  else if off = RNG_BASE_LO then pack [(0, half x.base 0 / 4096 * 4096 + bnat x.locDpa)]
  else if off = RNG_BASE_HI then pack [(0, half x.base 1)]
  else if off = RNG_SIZE then pack [(31, bnat x.vecEn), (16, x.vec), (0, x.log2n)]
  else if off = RNG_DB_LO then pack [(0, half x.db 0)]
  else if off = RNG_DB_HI then pack [(0, half x.db 1)]
  else if off = RNG_RCTL then pack [(8, x.modeView.code), (0, bnat x.enable)]
  else if off = RNG_CONS then pack [(0, x.count % 2 ^ 32)]
  else if off = RNG_PROD then pack [(0, x.prod % 2 ^ 32)]
  else if off = RNG_WATCH then pack [(16, min 0x3FFF s.polledRings), (0, s.watchUsed)]
  else s.reg off

def State.xltView (s : State) (off : Nat) : Reg :=
  if off = XLT_STAT then pack [(16, s.xlt.batch.length), (0, s.xlt.posted.length)]
  else if off = XLT_POOL_FREE then pack [(0, if s.bit XLT_CTL 0 then s.poolFree else 0)]
  else s.reg off

/-! ### CMX (R403 to R408) -/

def State.cmxView (s : State) (off : Nat) : Reg :=
  let n := s.basin.queue.length
  if off = CMX_STAT then
    pack [(16, s.basin.lastStatus), (4, n), (1, bnat (decide (8 ≤ n))), (0, bnat (decide (0 < n)))]
  else if off = CMX_DONE then pack [(0, s.basin.done % 2 ^ 32)]
  else if off = CMX_MOOR then s.reg off ||| pack [(0, s.basin.moor)]
  else if off = CMX_WAYDIS then
    let basin := s.bit CMX_WAYSEL 4
    let idx := s.fld CMX_WAYSEL 3 0
    if !s.fuses.reachActive idx then 0
    else pack [(0, maskOfBits (if basin then 24 else 16) fun w => s.basin.disabled.contains (basin, idx, w))]
  else s.reg off

/-! ### CNL, STK, BRT (R287 to R289, R351 to R357, R566, R567) -/

def PState.code : PState → Nat
  | .disabled => 0 | .training => 1 | .active => 2 | .retrain => 3 | .retired => 4 | .absent => 5 | .safe => 6

/-- Base ports of the waterway's shape (R251). -/
def State.basePorts (s : State) : Nat := 2 * (s.extents.map (· - 1)).sum

/-- The mean of some numbers, toward zero; 0 of none. -/
def meanInt (l : List Int) : Int := l.sum.tdiv (max 1 l.length : Nat)

def State.cnlView (s : State) (off : Nat) : Reg :=
  let p := (off - CNL) / 0x100
  let c := s.canal p
  let r := off % 0x100
  if r = 0x04 then
    pack [(20, c.step), (16, c.fail), (9, bnat c.upstream), (8, bnat (decide (s.basePorts ≤ p))), (0, c.st.code)]
  else if r = 0x08 then (if c.peerValid then pack [(31, 1), (16, c.peerDev), (0, c.peerPort)] else 0)
  else if r = 0x0C then pack [(0, min 0xFFFF (c.flights.sum / max 1 c.flights.length / 2 ^ 8))]
  else if r = 0x10 then BitVec.ofInt 32 (meanInt c.offsets)
  else s.reg off

def StkState.code : StkState → Nat
  | .off => 0 | .training => 1 | .active => 2 | .failed => 3 | .selfRefresh => 4 | .safe => 5

/-- Pseudo-channels of a port in a state, as a mask of half of them. -/
def State.pcMask (s : State) (port hi : Nat) (st : PcState) : Nat :=
  maskOfBits 32 fun i => decide (s.pcState port (i + 32 * hi) = st)

def State.stkView (s : State) (off : Nat) : Reg :=
  let p := (off - STK) / 0x100
  let k := s.stack p
  let r := off % 0x100
  if r = 0x04 then
    pack [(24, k.temp), (16, k.fail), (12, k.height), (10, k.density), (0, k.st.code)]
  else if r = 0x0C then pack [(0, maskOfBits 32 fun c => k.drained.contains c)]
  else if r = 0x10 then pack [(8, k.lastCh), (0, k.lastCode)]
  else if r = 0x14 then
    match sfind? k.margins k.lastCh with
    | some m => pack [(24, m.up), (16, m.down), (8, m.late), (0, m.early)]
    | none => 0
  else if r = 0x18 ∨ r = 0x1C then pack [(0, s.pcMask p ((r - 0x18) / 4) .retired)]
  else if r = 0x20 ∨ r = 0x24 then pack [(0, s.pcMask p ((r - 0x20) / 4) .evacuate)]
  else if r = 0x2C then pack [(16, (s.stkReserved p).1), (0, (s.stkReserved p).2)]
  else if r = 0x30 then pack [(16, (s.stkCap p).1), (0, (s.stkCap p).2)]
  else s.reg off

def BState.code : BState → Nat
  | .off => 0 | .training => 1 | .active => 2 | .draining => 3 | .drained => 4 | .down => 5 | .safe => 6

def State.brtView (s : State) (off : Nat) : Reg :=
  let n := (off - BRT) / 0x400
  let b := s.berth n
  let r := off % 0x400
  if r = 0x04 then
    let cached := (s.basin.lines.filter fun l => l.presence.contains (berthAgent n)).length
    let up := decide (b.st = .active ∨ b.st = .draining ∨ b.st = .drained)
    pack [(16, min 0xFFFF cached), (8, if up then b.rate else 0), (4, if up then b.modules else 0), (0, b.st.code)]
  else if r = 0x0C then pack [(16, b.vendor), (0, b.device)]
  else s.reg off

/-! ### FUS and LKP (R648 to R653) -/

def TileState.code : TileState → Nat
  | .off => 0 | .spare => 1 | .free => 2 | .bound => 3 | .stopped => 4 | .parked => 5 | .retired => 6

def LkState.code : LkState → Nat
  | .retired => 0 | .spare => 1 | .active => 2 | .loading => 3

/-- FUS_TILE of a physical tile (R651). -/
def State.fusTile (s : State) (t : Nat) : Reg :=
  let x := s.tile t
  let grade := if s.fuses.reachActive (t / 17) then sget 132 s.fuses.grades t else 0
  let lt := s.logTile t
  pack [(24, lt.getD 0), (19, bnat lt.isSome), (16, x.st.code), (8, if x.st = .off then 0 else x.service), (0, grade)]

def State.fusView (s : State) (off : Nat) : Reg :=
  if off = FUS_REACHES then pack [(0, maskOfBits 16 fun p => s.fuses.reachActive p)]
  else if off = FUS_LKP then pack [(0, maskOfBits 24 fun k => decide ((s.lk k).st ≠ .retired))]
  else if off = FUS_FW_MIN then pack [(0, s.boot.fwMin)]
  else if FUS_TILE ≤ off then s.fusTile ((off - FUS_TILE) / 4)
  else s.reg off

def State.lkpView (s : State) (off : Nat) : Reg :=
  if off = LKP_FW_VER then pack [(0, s.boot.fwVersion)]
  else if off = LKP_BOOT then
    match s.boot.failed with
    | some n => pack [(8, n), (0, n)]
    | none => 0
  else if off = LKP_UPD then pack [(31, bnat s.boot.update.isSome), (0, s.boot.updDone)]
  else if LKP_CORE ≤ off ∧ off < LKP_ROLE then
    let x := s.lk ((off - LKP_CORE) / 4)
    pack [(3, x.role.getD 0x1F), (0, x.st.code)]
  else if LKP_ROLE ≤ off then s.reg off ||| pack [(0, (s.roleCore ((off - LKP_ROLE) / 4)).getD 0)]
  else s.reg off

/-! ### Every block -/

/-- The value of an assigned register. -/
def State.view (s : State) (off : Nat) : Reg :=
  if off < 0x1000 then s.glbView off
  else if off < 0x2000 then s.tckView off
  else if off < 0x3000 then s.pwrView off
  else if off < 0x4000 then s.fltView off
  else if off < 0x5000 then s.irqView off
  else if off < 0x6000 then s.rngView off
  else if off < 0x7000 then s.xltView off
  else if off < 0x8000 then s.cmxView off
  else if off < CNL then s.reg off
  else if off < 0x14000 then s.cnlView off
  else if off < 0x16000 then s.stkView off
  else if off < 0x17000 then s.brtView off
  else if off < 0x18000 then s.fusView off
  else if off < MSIX_TABLE then s.lkpView off
  else if MSIX_PBA ≤ off then
    pack [(0, maskOfBits 32 fun i => s.port.pendingVec.contains (8 * (off - MSIX_PBA) + i))]
  else s.reg off

/-- A 32-bit read of an aligned offset: all ones in safe state, the component registers' block, and 0 where no block
assigns a register (R10, R11, R446). -/
def State.regRead (s : State) (off : Nat) : Reg :=
  if s.boot.safe then BitVec.ofNat 32 0xFFFFFFFF
  else if (regDef s.fuses off).isSome then s.view off
  else s.compRead off

/-- The HI register of a TCK pair. -/
def isTckHi (off : Nat) : Bool := isTckPair off && decide (off % 8 = 4)

/-- A 32-bit read with its effect: a LO register of TCK captures the pair, and the next read of its HI register
returns what was captured (R51). -/
def State.readReg (s : State) (off : Nat) : State × Reg :=
  if s.boot.safe then (s, s.regRead off)
  else if isTckHi off then
    match sfind? s.ww.capture (off - 4) with
    | some v => ({ s with ww := { s.ww with capture := sdel (off - 4) s.ww.capture } }, v)
    | none => (s, s.regRead off)
  else if isTckPair off then
    ({ s with ww := { s.ww with capture := sput off (BitVec.ofNat 32 (half (s.tckPair off) 1)) s.ww.capture } },
      s.regRead off)
  else (s, s.regRead off)

end Sys2Proof.Machine
end

