-- ==== Sys2Proof/Machine/Service.lean ====
section
/-! DEFINITION. Service of tiles and lockkeepers: spare substitution (R88 to R90), re-grading (R93, R646), and the
migration of roles (R638 to R640, R645). -/

namespace Sys2Proof.Machine

/-! ### The tile map -/

/-- The logical position that a physical position holds. -/
def Reach.posOf (r : Reach) (q : Nat) : Option Nat := r.tileMap.idxOf? (some q)

/-- A logical position given to a physical one, or to none (R89). -/
def Reach.put (r : Reach) (pos : Nat) (q : Option Nat) : Reach := { r with tileMap := r.tileMap.set pos q }

/-- A tile leaves its flight and its contents. -/
def Tile.cleared (x : Tile) (st : TileState) : Tile := { x.zeroed with st := st }

/-- Codes of FUS_REGRADE.RESULT and FUS_SUBST.RESULT (R649, R650). -/
def RG_OK := 0
def RG_NO_SPARE := 1
def RG_STATE := 2
def RG_RETIRED := 3
def RG_ABANDONED := 4
def SU_FAILED := 3

/-- A request of FUS_REGRADE or FUS_SUBST ends. -/
def State.fusEnd (s : State) (off code : Nat) : State := (s.setFld off 30 28 code).setBit off 31 false

/-- The request of FUS_REGRADE for a physical tile ends, if there is one. -/
def State.regradeEnd (s : State) (t code : Nat) : State :=
  if s.bit FUS_REGRADE 31 ∧ s.fld FUS_REGRADE 8 0 = t then s.fusEnd FUS_REGRADE code else s

/-- The request of FUS_SUBST for a physical reach ends, if there is one. -/
def State.substEnd (s : State) (p code : Nat) : State :=
  if s.bit FUS_SUBST 31 ∧ s.physReach (s.fld FUS_SUBST 7 0 / 16) = some p then s.fusEnd FUS_SUBST code else s

/-! ### Retirement (R88, R89) -/

/-- A re-grade under way in a reach is abandoned: the tile under test is the spare again, with its earlier grade
(R646). -/
def State.abandonRegrade (s : State) (p : Nat) : State :=
  let r := s.reach p
  let s := match r.regrade with
    | some q =>
      ((s.modTile (17 * p + q) fun x => { x with st := .spare }).setReach p { r with regrade := none }).regradeEnd
        (17 * p + q) RG_ABANDONED
    | none => s
  match r.regradeWait with
  | some q => (s.setReach p { s.reach p with regradeWait := none }).regradeEnd (17 * p + q) RG_ABANDONED
  | none => s

/-- A planned substitution of a reach ends without the spare: R88 applies instead, or takes the spare. -/
def State.abandonSubst (s : State) (p : Nat) : State :=
  let r := s.reach p
  match r.subst with
  | none => s
  | some (pos, _) =>
    let s := s.setReach p { r with subst := none, regradeAfter := false, substLate := false }
    if r.regradeAfter then
      match r.tileMap[pos]? with
      | some (some q) => s.regradeEnd (17 * p + q) RG_ABANDONED
      | _ => s
    else s.substEnd p SU_FAILED

/-- The spare at position `q` takes a failed tile's position, and its flight tile with the flight's image. -/
def State.spareTakes (s : State) (p pos q : Nat) (old : Tile) : State :=
  let s := s.setReach p ((s.reach p).put pos (some q))
  let t := 17 * p + q
  match old.flight with
  | none => s.modTile t fun x => { x with st := .free }
  | some (k, i) =>
    let f := s.flight k
    let s := s.modTile t fun x => { x with st := if f.st.bound_ then .bound else .free, flight := some (k, i) }
    if f.st.bound_ || f.binding == some true then s.imageTile t f.image i else s

/-- A failed tile retires at a lock: the reach's spare takes its position, or the logical number retires. -/
def State.retireTile (s : State) (t : Nat) : State :=
  let p := t / 17
  let old := s.tile t
  if old.st = .off ∨ old.st = .retired then s
  else
    let s := if (s.reach p).regrade = some (t % 17) then
        (s.setReach p { s.reach p with regrade := none }).regradeEnd t RG_RETIRED
      else s.abandonRegrade p
    let s := (s.abandonSubst p).setTile t (old.cleared .retired)
    match (s.reach p).posOf (t % 17) with
    | none => s
    | some pos =>
      match s.spareOf p with
      | some q => s.spareTakes p pos q old
      | none =>
        let s := s.setReach p ((s.reach p).put pos none)
        match old.flight with
        | some (k, _) =>
          if (s.flight k).binding.isSome then
            s.modFlight k fun f => { f with haltAtBind := some (f.haltAtBind.getD false) }
          else s
        | none => s

/-! ### Planned substitution (R90) -/

/-- Whether a reach has a spare that no request has taken. -/
def State.spareIdle (s : State) (p : Nat) : Option Nat :=
  let r := s.reach p
  if r.subst.isSome || r.regrade.isSome || r.regradeWait.isSome then none else s.spareOf p

/-- SPARE_SUBSTITUTION: the write of FUS_SUBST with GO. -/
def State.doSubst (s : State) (v : Reg) : State :=
  if s.bit FUS_SUBST 31 then s
  else
    let s := s.swWrite FUS_SUBST (putBits v 31 31 1)
    match s.physTile (s.fld FUS_SUBST 7 0) with
    | none => s.fusEnd FUS_SUBST RG_STATE
    | some t =>
      let p := t / 17
      if (s.tile t).st ≠ .bound ∨ (s.tile t).zeroing then s.fusEnd FUS_SUBST RG_STATE
      else if (s.spareIdle p).isNone then s.fusEnd FUS_SUBST RG_NO_SPARE
      else s.setReach p { s.reach p with subst := ((s.reach p).posOf (t % 17)).map fun x => (x, false) }

/-- SUBSTITUTION_COPY_DONE: a copy runs only while the flight does not; one that ends after the cut-off counts from
the next lock on. -/
def State.doSubstCopyDone (s : State) (p : Nat) : State :=
  let r := s.reach p
  match r.subst with
  | none => s
  | some (pos, _) =>
    let still : Bool := match r.tileMap[pos]? with
      | some (some q) =>
        match s.flightOfTile (17 * p + q) with
        | some k => decide ((s.flight k).st ≠ .running)
        | none => true
      | _ => false
    if still then s.setReach p { r with subst := some (pos, true), substLate := s.gate.cut } else s

/-- The spare of a reach takes the position whose copy ended before the vote instant of the pound that ends; a copy
that the flight's run has overtaken starts again. -/
def State.substLock (s : State) (p : Nat) : State :=
  let r := s.reach p
  match r.subst with
  | none => s
  | some (pos, ended) =>
    match r.tileMap[pos]?, s.spareOf p with
    | some (some o), some q =>
      let old := s.tile (17 * p + o)
      let runs := match old.flight with
        | some (k, _) => decide ((s.flight k).st = .running)
        | none => false
      if !ended then s
      else if r.substLate || runs then
        s.setReach p { r with subst := some (pos, !runs), substLate := false }
      else
        let new := s.tile (17 * p + q)
        let s := s.setTile (17 * p + q) { old with service := new.service, clk := new.clk, step := none, inject := new.inject }
        let s := s.setTile (17 * p + o) { old.cleared .parked with service := old.service }
        let s := s.setReach p { r.put pos (some q) with subst := none, regradeAfter := false, regrade := some o }
        if r.regradeAfter then s else s.substEnd p RG_OK
    | _, _ => s

/-! ### Re-grading (R93, R646) -/

/-- TILE_REGRADE: the write of FUS_REGRADE with GO. -/
def State.doRegrade (s : State) (v : Reg) : State :=
  if s.bit FUS_REGRADE 31 then s
  else
    let s := s.swWrite FUS_REGRADE (putBits v 31 31 1)
    let t := s.fld FUS_REGRADE 8 0
    let p := t / 17
    let x := s.tile t
    let r := s.reach p
    let refuse (c : Nat) : State := s.fusEnd FUS_REGRADE c
    if !((x.st == .spare) || (x.st == .free && x.flight.isNone) || (x.st == .bound && !x.zeroing)) then refuse RG_STATE
    else
      match s.spareIdle p with
      | none => refuse RG_NO_SPARE
      | some _ =>
        if x.st = .bound then
          s.setReach p { r with subst := (r.posOf (t % 17)).map fun n => (n, false), regradeAfter := true }
        else s.setReach p { r with regradeWait := some (t % 17) }

/-- At a lock a SPARE or FREE tile that waits to be re-graded is PARKED; the spare takes a FREE tile's position. -/
def State.regradeLock (s : State) (p : Nat) : State :=
  let r := s.reach p
  match r.regradeWait with
  | none => s
  | some q =>
    let t := 17 * p + q
    let x := s.tile t
    let r := { r with regradeWait := none }
    if x.st = .spare then (s.setTile t (x.cleared .parked)).setReach p { r with regrade := some q }
    else
      match r.posOf q, s.spareOf p with
      | some pos, some n =>
        if x.st = .free ∧ x.flight.isNone then
          ((s.modTile (17 * p + n) fun y => { y with st := .free }).setTile t (x.cleared .parked)).setReach p
            { r.put pos (some n) with regrade := some q }
        else (s.setReach p r).regradeEnd t RG_STATE
      | _, _ => (s.setReach p r).regradeEnd t RG_NO_SPARE

/-- The service grade that a path test gives: 50 MHz below the highest step passed, at most the factory grade. -/
def testGrade (factory passed : Nat) : Nat := min factory passed - 2

/-- REGRADE_DONE: the tile under test becomes SPARE with its new grade, or retires below 1.0 GHz. -/
def State.doRegradeDone (s : State) (p passed : Nat) : State :=
  let r := s.reach p
  match r.regrade with
  | none => s
  | some q =>
    let t := 17 * p + q
    let g := testGrade (sget 132 s.fuses.grades t) passed
    let s := s.setReach p { r with regrade := none }
    if g < 40 then
      ((s.modTile t fun x => { x with st := .retired }).fault (msgOf K_TILE_GRADE 1 t)).regradeEnd t RG_RETIRED
    else (s.modTile t fun x => { x with st := .spare, service := g, clk := min x.clk g }).regradeEnd t RG_OK

/-! ### Roles (R637 to R640) -/

/-- The lowest SPARE lockkeeper (R640). -/
def State.spareLk (s : State) : Option Nat := (List.range 24).find? fun k => decide ((s.lk k).st = .spare)

/-- A lockkeeper starts a role. -/
def State.startRole (s : State) (k role : Nat) : State :=
  s.modLk k fun x => { x with st := .active, role := some role, sleeping := false }

/-- A lockkeeper leaves its role: its stores drain, and its reservation is lost. -/
def State.leaveRole (s : State) (k : Nat) (st : LkState) : State :=
  (s.drainAll k).modLk k fun x => { x with st := st, role := none, resv := none, sleeping := false }

/-- A role moves from its core to the lowest SPARE one; its old core enters a state. The core it left is told. -/
def State.moveRole (s : State) (role : Nat) (st : LkState) : State × Option Nat :=
  match s.roleCore role, s.spareLk with
  | some k, some n => ((s.leaveRole k st).startRole n role, some k)
  | _, _ => (s, none)

/-- ROLE_MIGRATE: LKP_ROLE.GO. -/
def State.doRoleMigrate (s : State) (role : Nat) : State :=
  if 20 ≤ role then s
  else { s.setBit (LKP_ROLE + 4 * role) 31 true with boot := { s.boot with migrating := insertNat role s.boot.migrating } }

/-- The planned migrations of a lock (R653). -/
def State.migrateLock (s : State) : State :=
  let roles := s.boot.migrating
  roles.foldl (fun s r => (s.moveRole r .spare).1.setBit (LKP_ROLE + 4 * r) 31 false)
    { s with boot := { s.boot with migrating := [] } }

/-- A failed lockkeeper retires: its role starts on a spare from its checkpoint, and what it did since is lost; with
no spare left the device is FATAL (R606, R431). -/
def State.retireLk (s : State) (k : Nat) : State :=
  let x := s.lk k
  if x.st = .retired then s
  else
    let s := (s.basin.copies.filter fun c => c.agent == lkAgent k).foldl State.evictCopy s
    let s := s.modLk k fun x => { x with st := .retired, role := none, sb := [], resv := none, sleeping := false, device := [] }
    let s : State := if s.boot.updCore = some k then
        { s with boot := { s.boot with updCore := none, update := s.boot.update.map fun u => (u.1, 0) } }
      else s
    match x.role with
    | none => s
    | some r =>
      match s.spareLk with
      | some n => s.startRole n r
      | none => s.haltFault.drainAborts

/-! ### Live update (R645) -/

/-- Step 1 of a role: it moves to a spare, and the core it leaves loads its new code. Without a spare it waits. -/
def State.updateOut (s : State) (role : Nat) : State :=
  let m := s.moveRole role .loading
  match m.2 with
  | some k => { m.1 with boot := { m.1.boot with update := some (role, 1), updCore := some k } }
  | none => { s with boot := { s.boot with update := some (role, 0), updCore := none } }

/-- The image that starts to run is the running image, and raises the rollback index (R635, R636). -/
def State.runStaged (s : State) : State :=
  let img : Ram := (s.boot.store.cut 0x400000 s.boot.stagedSize)
  let rest : Ram := s.boot.store.cut 0x400000 0xC00000
  let n := img.num 0x00C 4
  { s with boot := { s.boot with store := .lay [(0, img), (0x400000, rest)], fwSize := s.boot.stagedSize, fwVersion := n
                                 fwMin := max s.boot.fwMin (img.num 0x006 2) } }

/-- Step 3 of a role: it moves back to the core that loaded it. After the last role the update ends. -/
def State.updateBack (s : State) (role k : Nat) : State :=
  let s := match s.roleCore role with
    | some t => (s.leaveRole t .spare).startRole k role
    | none => s.startRole k role
  let s : State := { s with boot := { s.boot with updDone := role + 1, updCore := none } }
  if role = 19 then ({ s with boot := { s.boot with update := none } } : State).runStaged else s.updateOut (role + 1)

/-- What an update does at a lock. -/
def State.updateLock (s : State) : State :=
  match s.boot.update, s.boot.updCore with
  | some (r, 0), _ => s.updateOut r
  | some (r, 2), some k => s.updateBack r k
  | _, _ => s

/-- ROLE_LOAD_DONE: the freed core has loaded its role's code. -/
def State.doRoleLoadDone (s : State) : State :=
  match s.boot.update with
  | some (r, 1) => { s with boot := { s.boot with update := some (r, 2) } }
  | _ => s

/-! ### Commands -/

/-- SUBSTITUTION_COPY_DONE. -/
def execSubstitutionCopyDone (reach : Nat) (s : State) : Host.Outcome State Fault Refusal :=
  doneLive s (s.doSubstCopyDone reach)

/-- TILE_REGRADE. -/
def execTileRegrade (v : Reg) (s : State) : Host.Outcome State Fault Refusal := doneLive s (s.doRegrade v)

/-- REGRADE_DONE. -/
def execRegradeDone (reach passed : Nat) (s : State) : Host.Outcome State Fault Refusal :=
  doneLive s (s.doRegradeDone reach passed)

/-- SPARE_SUBSTITUTION. -/
def execSpareSubstitution (v : Reg) (s : State) : Host.Outcome State Fault Refusal := doneLive s (s.doSubst v)

/-- ROLE_MIGRATE. -/
def execRoleMigrate (role : Nat) (s : State) : Host.Outcome State Fault Refusal := doneLive s (s.doRoleMigrate role)

/-- ROLE_LOAD_DONE. -/
def execRoleLoadDone (s : State) : Host.Outcome State Fault Refusal := doneLive s s.doRoleLoadDone

end Sys2Proof.Machine
end

