-- ==== Sys2Proof/Machine/Waybill.lean ====
section
/-! DEFINITION. The Waybill (R12, R641, R642): its bytes, the fields whose changes count, and its update. -/

namespace Sys2Proof.Machine

/-! ### The tables -/

/-- The ways of a cache that are disabled, as a mask. -/
def State.wayMask (s : State) (basin : Bool) (p n : Nat) : Nat :=
  maskOfBits n fun w => s.basin.disabled.contains (basin, p, w)

/-- A reach's entry. -/
def State.wayReach (s : State) (p : Nat) : List Byte :=
  match s.logReach p with
  | none => List.replicate 64 0
  | some r =>
    let m := (s.reach p).tileMap
    toLe 1 1 ++ toLe 1 r ++ toLe 1 ((s.spareOf p).getD 0xFF) ++ toLe 1 (m.filter Option.isSome).length ++
      (m.flatMap fun q => toLe 1 (q.getD 0xFF)) ++ toLe 2 (s.wayMask false p 16) ++ toLe 3 (s.wayMask true p 24) ++
      List.replicate 39 0

/-- A stack port's entry. -/
def State.wayStack (s : State) (p : Nat) : List Byte :=
  [0x04, 0x18, 0x1C, 0x20, 0x24, 0x0C, 0x30].flatMap (fun o => toLe 4 (s.regRead (stkReg p o)).toNat) ++ toLe 4 0

/-- A canal port's entry. -/
def State.wayCanal (s : State) (p : Nat) : List Byte :=
  [0x04, 0x08, 0x0C].flatMap (fun o => toLe 4 (s.regRead (cnlReg p o)).toNat) ++ toLe 4 0

/-- The states of R235 in their order. -/
def FState.code : FState → Nat
  | .empty => 0 | .loaded => 1 | .bound => 2 | .armed => 3 | .running => 4 | .moored => 5 | .held => 6 | .done => 7

/-- A flight slot's entry. -/
def State.wayFlight (s : State) (k : Nat) : List Byte :=
  let f := s.flight k
  toLe 1 f.st.code ++ toLe 1 f.tag ++ toLe 2 f.ctx ++ toLe 4 0 ++ toLe 8 (hdrBuild f.image) ++
    toLe 8 (((lastSnap f).map SnapArea.pound).getD 0) ++ toLe 4 (min 0xFFFFFFFF f.dropTotal) ++ toLe 4 0

/-- The router of an attachment; 0xFF where the variant has none. -/
def State.wayRouter (s : State) (i : Nat) : Nat :=
  let v := s.fuses.variant
  if i < 48 then (if i < v.canals then Config.routerOf i % 64 else 0xFF)
  else if i < 52 then (if i - 48 < v.berths then Config.routerOf i % 64 else 0xFF)
  else if i < 77 then Config.routerOf i % 64
  else 0

/-- The population that the trained stacks share: dies / 4 and density (R322). -/
def State.population (s : State) : Nat :=
  match s.stk.find? fun e => decide (e.2.st = .active) with
  | some e => e.2.height + 16 * e.2.density
  | none => 0

/-- The largest free extent of the flight store, whose layout no address shows: all that is free. -/
def State.storeFree (s : State) : Nat := s.boot.flightStore - s.storeUsed

/-- The head of the Waybill, up to the reach table. -/
def State.wayHead (s : State) (gen : Nat) : List Byte :=
  let store := s.hdmSize - s.boot.flightStore - s.biasBytes
  let quad (a : Nat × Nat × Nat × Nat) : List Byte := toLe 1 a.1 ++ toLe 1 a.2.1 ++ toLe 1 a.2.2.1 ++ toLe 1 a.2.2.2
  toLe 8 gen ++ toLe 4 0x4C425957 ++ toLe 2 1 ++ toLe 1 s.fuses.variant.code ++ toLe 1 s.fuses.stepping ++
    toLe 8 Config.serial ++ toLe 4 s.boot.fwVersion ++ toLe 2 Config.romRevision ++
    toLe 2 (if s.ww.joined then s.ww.index else 0xFFFF) ++ quad s.ww.shape ++ quad s.ww.coord ++
    toLe 8 s.poundNow ++ toLe 4 FEATURES ++ toLe 2 s.reachMask ++ toLe 2 s.population ++
    toLe 8 (2 * s.boot.capacity) ++ toLe 8 s.range1 ++ toLe 8 store ++ toLe 8 s.boot.flightStore ++
    toLe 8 s.storeFree ++ toLe 8 s.storeFree ++ toLe 8 (s.hdmSize - s.biasBytes) ++ toLe 8 s.biasBytes ++
    toLe 1 s.basin.moor ++ toLe 1 ((List.range 24).filter fun k => decide ((s.lk k).st = .spare)).length ++
    toLe 2 (s.ww.lm.getD 0) ++ List.replicate 132 0

/-- The Waybill's bytes, 0x0000 to 0x32FF. -/
def State.wayBytes (s : State) (gen : Nat) : List Byte :=
  s.wayHead gen ++ (List.range 16).flatMap s.wayReach ++
    (List.range 272).flatMap (fun t => toLe 4 (s.fusTile t).toNat) ++ (List.range 32).flatMap s.wayStack ++
    (List.range 48).flatMap s.wayCanal ++ (List.range 80).flatMap (fun i => toLe 1 (s.wayRouter i)) ++
    List.replicate 368 0 ++ (List.range 256).flatMap s.wayFlight ++
    (List.range 64).flatMap (fun i => toLe 1 (Config.dramMapping s.population i)) ++ List.replicate 192 0

/-! ### Updates (R642) -/

/-- What counts of a tile: whether it is retired, its grade and its logical number. -/
def State.tileCount (s : State) (t : Nat) : Nat :=
  let x := s.tile t
  bnat (decide (x.st = .retired)) + 2 * x.service + 512 * (s.logTile t).getD 256

/-- The fields whose changes count. -/
def State.counted (s : State) : List Nat :=
  (List.range 272).map s.tileCount ++
    (List.range 16).flatMap (fun p => [s.wayMask false p 16, s.wayMask true p 24]) ++
    (List.range 32).flatMap (fun p =>
      (s.stack p).st.code :: [0, 1].flatMap fun h => [s.pcMask p h .retired, s.pcMask p h .evacuate]) ++
    (List.range 48).map (fun p => (s.canal p).st.code) ++ (List.range 256).map (fun k => (s.flight k).st.code) ++
    [maskOfBits 24 fun k => decide ((s.lk k).st = .retired), bnat s.ww.joined, s.ww.lm.getD 1024, s.basin.moor,
      s.boot.fwVersion]

/-- The Waybill is written anew and its generation advances. -/
def State.publish (s : State) : State :=
  let g := s.boot.generation + 1
  ({ s with boot := { s.boot with generation := g, published := s.counted, waybill := s.wayBytes g } } : State).irq 6

/-- The Waybill follows a change of a counted field. -/
def State.waybillUpdate (s : State) : State :=
  if s.boot.wayValid && s.counted != s.boot.published then s.publish else s

/-- Step 11: the Waybill is published. -/
def State.firstPublish (s : State) : State :=
  ({ s with boot := { s.boot with wayValid := true } } : State).publish

/-- The Waybill at a lock: it follows the fields that have changed, or is published for the first time when step 10 is
complete (R12, R631). -/
def State.lockWaybill (s : State) : State :=
  if !s.ww.joined then s
  else if s.boot.wayValid then s.waybillUpdate
  else if s.boot.step = 10 ∧ s.boot.failed = none then
    let s := s.firstPublish
    { s with boot := { s.boot with step := 11 } }
  else s

/-- WAYBILL_UNJOINED_UPDATE: without time lock the Waybill follows at once (R12). -/
def State.doWaybillUnjoined (s : State) : State := if s.ww.joined || s.boot.safe then s else s.waybillUpdate

/-- WAYBILL_UNJOINED_UPDATE. -/
def execWaybillUnjoinedUpdate (s : State) : Host.Outcome State Fault Refusal := doneLive s s.doWaybillUnjoined

end Sys2Proof.Machine
end

