-- ==== Sys2Proof/Machine/FlightLock.lean ====
section
/-! DEFINITION. What a lock does to each flight (R32, R83, R238 to R247, R284, R294 to R297, R304, R306, R314 to
R318, R605): the events of R39 in their order, re-mapping, and the start of a pound. -/

namespace Sys2Proof.Machine

/-- What a lock decides from: the gate result (empty after a gate miss), whether it is missing, whether vote 16 was
late, the devices whose fault bit is newly set, those that were newly set at the lock before, and the pound that
starts. -/
structure GateEnd where
  res    : Gate := {}
  miss   : Bool := false
  slipOut : Bool := false
  newly  : List Nat := []
  classed : List Nat := []
  pound  : Nat := 0
  deriving DecidableEq, Repr

/-- The count of a muster key in the gate result. -/
def GateEnd.key (r : GateEnd) (tag bid : Nat) : Option MusterItem :=
  r.res.musters.find? fun m => m.tag == tag && m.barrier == bid

/-- The tag record of a flight in the gate result. -/
def GateEnd.tag (r : GateEnd) (f : Flight) : TagRec := gateTag r.res f.tag

/-! ### Waiting commands of a flight -/

/-- The slot of a flight command that waits. -/
def WaitKind.slot? : WaitKind → Option Nat
  | .bind k | .run k | .moor k | .resume k | .halt k _ | .snap k _ _ _ | .restore k _ => some k
  | _ => none

/-- The rank in R39 of the order that a command has raised. -/
def WaitKind.rank? : WaitKind → Option Nat
  | .halt .. => some 4
  | .moor _ => some 6
  | .snap _ _ 0 _ => some 7
  | .resume _ => some 8
  | _ => none

/-- Ends every wait that satisfies a test. -/
def State.endWaits (s : State) (p : Wait → Bool) (f : Fin) : State :=
  s.waits.foldl (fun s w => if p w then s.finish w f else s) s

/-- Orders of a flight that have entered the gate and rank below `n` complete with STATE_REJECT (R39). -/
def State.displace (s : State) (k n : Nat) : State :=
  s.endWaits (fun w => w.entered && w.kind.slot? == some k && (match w.kind.rank? with
    | some r => decide (n < r)
    | none => false)) { status := ST_STATE_REJECT }

/-- The commands of one rank of a flight complete. -/
def State.complete (s : State) (k n : Nat) (f : Fin) : State :=
  s.endWaits (fun w => w.entered && w.kind.slot? == some k && w.kind.rank? == some n) f

/-- The RUN_FLIGHT of a flight completes. -/
def State.runEnds (s : State) (k status : Nat) : State :=
  s.endWaits (fun w => w.kind == .run k) { status := status }

/-! ### Leaving the tiles (R246, R247, R318) -/

/-- A flight leaves its tiles, but not before what an overrun left in flight has landed or is abandoned (R203): the flight leaves at a
later lock, or where no lock comes when the drain ends. -/
def State.leaveTiles (s : State) (k : Nat) : State :=
  if (s.flight k).overrun then s.modFlight k fun f => { f with leaveDue := true } else s.dropFlight k

/-- Every waiting command of a flight completes with one status. -/
def State.abandonWaits (s : State) (k status : Nat) : State :=
  s.endWaits (fun w => w.kind.slot? == some k) { status := status }

/-- Whether some waiting halt of a flight releases its slot. -/
def State.releases (s : State) (k : Nat) : Bool :=
  s.waits.any fun w =>
    match w.kind with
    | .halt j r => j == k && r
    | _ => false

/-- A halt takes effect: its commands complete with OK, or with the drop total (R304); the commands that it
displaces are rejected. A flight of a context in teardown is released too. -/
def State.haltFlight (s : State) (k : Nat) : State :=
  let f := s.flight k
  let rel := s.releases k || decide ((s.context f.ctx).st = .teardown)
  let fin : Fin := if f.dropTotal = 0 then {}
    else { status := ST_OVERFLOW_DROPS, detail := min f.dropTotal 0xFFFFFFFF }
  let s := s.dropFlight k
  let s := if rel then s.setFlight k {} else s
  let s := s.endWaits (fun w => match w.kind with | .halt j _ => j == k | _ => false) fin
  let s := s.endWaits (fun w => w.kind.slot? == some k && (w.kind == .run k || w.kind.rank?.isSome))
    { status := ST_STATE_REJECT }
  s.abandonWaits k ST_FLIGHT_HALTED

/-! ### Holds -/

/-- STOPPED tiles leave that state at the lock where their flight's hold takes effect (R82). -/
def State.releaseStopped (s : State) (k : Nat) : State :=
  (s.tilesOf k).foldl (fun s e => s.modTile e.1 fun x =>
    if x.stopGated then { x with st := .bound, stop := none, leg := none, stopGated := false } else x) s

/-- What holds a flight, as this device knows it: why it raised the flag itself, a leg barrier that did not complete,
or what another device raised. -/
def GateEnd.causes (r : GateEnd) (f : Flight) : List HoldCause :=
  let leg := r.res.musters.any fun m => m.tag == f.tag && decide (m.barrier < 256)
  let own := f.raised.filter fun c => c ≠ .barrier
  let c := own ++ if leg then [.barrier] else []
  if c.isEmpty then [.fault] else c

/-- A RUNNING flight becomes HELD. A flight that is HELD already is then held by this device's own causes too. -/
def Flight.heldBy (f : Flight) (causes : List HoldCause) : Flight :=
  if f.st = .running then { f with st := .held, causes := causes, barrierHeld := 0 }
  else if f.st = .held then
    { f with causes := f.causes ++ f.raised.filter fun c => c ≠ .barrier && !f.causes.contains c }
  else f

/-- A gate miss, or a device fault flag newly set, holds the flight (R36, R314). -/
def Flight.deviceHeld (f : Flight) : Flight :=
  if f.st = .running then { f.heldBy [.device] with devHeld := true } else f

/-- The device hold of a bound flight. An ARMED one returns to BOUND unless the hold is a gate miss. -/
def State.holdByDevice (s : State) (k : Nat) (flag : Bool) : State :=
  let armed := flag && decide ((s.flight k).st = .armed)
  let s := s.modFlight k fun f => if armed then { f with st := .bound } else f.deviceHeld
  if armed then s.runEnds k ST_STATE_REJECT else s

/-- An overrun of the flight (R32): its late tiles stop where they are, and the flight does not start the pound. -/
def State.overrunFlight (s : State) (k : Nat) : State :=
  let s := (s.tilesOf k).foldl (fun s e => s.modTile e.1 fun x =>
    if x.running then { x with running := false, leg := none, sched := [], held := [], older := [], passes := [], exports := [],
                               imports := [], branch := none, stall := none }
    else x) s
  let s := s.modFlight k fun f => { f.heldBy [.fault] with overrun := true }
  s.fault { msgOf K_OVERRUN 11 k with slot := k }

/-! ### Starts (R239) -/

/-- What the start muster decides for an ARMED flight whose start is due. -/
def State.startFlight (s : State) (r : GateEnd) (k : Nat) : State :=
  let f := s.flight k
  match r.key f.tag 256 with
  | none => s.modFlight k fun f => { f with defers := f.defers + 1 }
  | some m =>
    if m.count < hdrDevices f.image then
      (s.modFlight k fun f => { f with st := .bound, defers := 0 }).runEnds k ST_START_MISSED
    else if (r.tag f).hold then
      (s.modFlight k fun f => { f with st := .held, causes := if f.raised.isEmpty then [.lockin] else f.raised,
                                       pos := 0, defers := 0 }).runEnds k ST_OK
    else (s.modFlight k fun f => { f with st := .running, pos := 0, defers := 0 }).runEnds k ST_OK

/-! ### Snapshots (R306, R310) -/

/-- A snapshot order acts: the flight moors if it runs, and its content is copied into an area. -/
def State.takeSnapshot (s : State) (k pound : Nat) : State :=
  let f := s.flight k
  let a : SnapArea := { pound := pound, replica := false, complete := false, size := snapSize f.image f.devSlot,
                        bytes := s.snapshotOf k pound }
  let ran := decide (f.st = .running)
  let s := s.setFlight k { f.withArea a with snapping := some (pound, ran, false),
                                             st := if ran then .moored else f.st }
  { s with waits := s.waits.map fun w =>
      match w.kind with
      | .snap j e 0 _ => if j = k ∧ w.entered then { w with kind := .snap j e 1 } else w
      | _ => w }

/-- The snapshot becomes the flight's last: its commands complete, or their exports run, and a flight that it moored
runs again unless an event of this lock outranks that. -/
def State.snapshotLast (s : State) (r : GateEnd) (k : Nat) : State :=
  let f := s.flight k
  match f.snapping with
  | some (l, moored, true) =>
    if r.miss || (r.tag f).moor then s
    else
      let areas := f.areas.map fun a => if a.pound = l ∧ !a.replica then { a with complete := true } else a
      let back := moored && decide (f.st = .moored)
      let late := !r.newly.isEmpty || (r.tag f).hold
      let s := s.setFlight k { f with areas := areas, snapping := none
                                      st := if back && !late then .running else f.st
                                      resumeOrder := f.resumeOrder || (back && late) }
      let s : State := { s with waits := s.waits.map fun w =>
        match w.kind with
        | .snap j (some e) 1 _ =>
          if j = k then { w with kind := .snap j (some e) 2 (areas.find? fun a => a.pound == l && !a.replica) } else w
        | _ => w }
      s.endWaits (fun w => w.kind == .snap k none 1) { detail := l % 2 ^ 32 }
  | _ => s

/-! ### Resumes and barriers -/

/-- A resume order acts on a flight that is MOORED or HELD, whatever holds it (R243, R244). A device on which the flight
cannot lock in, as while it is restored or drains an overrun, has raised the hold flag, and no resume comes here. At the
lock where a device fault flag is classified, its outcome outranks the resume (R39, R314). -/
def State.resumeFlight (s : State) (k : Nat) : State :=
  if (s.flight k).devHeld then s.displace k 2
  else
    let s := s.modFlight k fun f =>
      if f.st = .moored ∨ f.st = .held then
        { f with st := .running, causes := [], powerMoored := false, resumeOrder := false, substMoored := false,
                 suspendMoored := false, unmoored := 0 }
      else f
    s.complete k 8 {}

/-- A key's own pending musters go. -/
def State.dropMuster (s : State) (tag bid : Nat) : State :=
  { s with musters := s.musters.filter fun m => !(m.tag == tag && m.barrier == bid) }

/-- Leg barriers and the restore muster that complete (R294, R296, R315). -/
def State.barriers (s : State) (r : GateEnd) (k : Nat) : State :=
  let f := s.flight k
  let legs := r.res.musters.filter fun m => m.tag == f.tag && decide (m.barrier < 256) && !m.ovf &&
    barrierCount f.image m.barrier == some m.count
  let s := legs.foldl (fun s m => s.dropMuster f.tag m.barrier) s
  let s := if legs.isEmpty then s
    else s.modFlight k fun f =>
      let left := f.causes.filter (· ≠ .barrier)
      if f.st = .held ∧ f.causes.contains .barrier then
        { f with causes := left, st := if left.isEmpty then .running else .held }
      else f
  match r.key f.tag 257 with
  | some m =>
    if m.count < hdrDevices f.image then s
    else (s.dropMuster f.tag 257).modFlight k fun f =>
      if f.st = .held then { f with st := .running, causes := [], devHeld := false } else f
  | none => s

/-- Whether the gate result counts more musters of a barrier than its PARTICIPANTS, carries OVER for it, or counts a
barrier that the flight does not declare. -/
def State.excessOf (s : State) (r : GateEnd) (k : Nat) : Bool :=
  let f := s.flight k
  r.res.musters.any fun m => m.tag == f.tag && decide (m.barrier < 256) &&
    (m.ovf || match barrierCount f.image m.barrier with
      | some n => decide (n < m.count)
      | none => true)

/-- Such a flight is FATAL at the lock that ends the gate (R294). -/
def State.barrierExcess (s : State) (r : GateEnd) (k : Nat) : State :=
  if s.excessOf r k && (s.flight k).fatal.isNone then
    s.fault { msgOf K_BARRIER_EXCESS 11 k with slot := k }
  else s

/-! ### One flight at a lock (R39) -/

/-- A hold or a replay acts on a flight (R83, R243, R605). -/
def State.holdFlight (s : State) (r : GateEnd) (k : Nat) : State :=
  let f := s.flight k
  let s := (s.modFlight k fun f => f.heldBy (r.causes f)).releaseStopped k
  let s := if (r.key f.tag 258).isSome then (s.dropMuster f.tag 258).beginRestore k else s
  s.displace k 5

/-- A moor acts on a flight that runs (R90, R243, R580). One that no command of this device has ordered, while a
snapshot of the flight is being copied, is the snapshot's: the flight runs again when the snapshot is its last (R306). -/
def State.moorFlight (s : State) (k : Nat) : State :=
  let sub := !(s.substsOf k).isEmpty
  let asked := s.waits.any fun w => w.entered && w.kind == .moor k
  let s := s.modFlight k fun f =>
    if f.st = .running then
      { f with st := .moored, powerMoored := f.powerMoorOrder, substMoored := sub
               snapping := f.snapping.map fun x => (x.1, x.2.1 || !(asked || sub || f.powerMoorOrder), x.2.2) }
    else f
  (s.complete k 6 {}).displace k 6

/-- The orders of a gate without a halt, a reset or a fault, by their rank. -/
def State.orders (s : State) (r : GateEnd) (k : Nat) : State :=
  let t := r.tag (s.flight k)
  if t.hold || (r.key (s.flight k).tag 258).isSome then s.holdFlight r k
  else if t.moor then s.moorFlight k
  else if t.snap then (s.takeSnapshot k r.pound).displace k 7
  else if t.resume then s.resumeFlight k
  else s.barriers r k

/-- The events that act on a flight at a lock: only the highest-ranked acts, barriers apart. A start that is due is
decided first, and the orders of the same gate then act on the flight as the start leaves it. A flight without LOOP
whose last position has just run is HELD or MOORED where such an order acts at the same lock, and is DONE once it is
resumed: the spec does not say which of the two comes first (DESIGN CHOICE: log entry 80). -/
def State.lockFlight (s : State) (r : GateEnd) (k : Nat) : State :=
  let f := s.flight k
  let t := r.tag f
  if r.miss then (s.holdByDevice k false).displace k 0
  else if !r.newly.isEmpty then (s.holdByDevice k true).displace k 0
  else if r.slipOut && f.late then (s.overrunFlight k).displace k 3
  else if f.overrun && (t.halt || f.leaveDue) then
    (s.modFlight k fun f => { f with leaveDue := true }).displace k 4
  else if t.halt || f.leaveDue then s.haltFlight k
  else if f.fatal.isSome && !f.overrun && (t.hold || s.excessOf r k) then
    (s.dropFlight k).abandonWaits k ST_FLIGHT_HALTED
  else if f.starts r.pound then (s.startFlight r k).orders r k
  else s.orders r k

/-! ### Binds that complete (R232, R316, R654) -/

/-- The first lock after a bind's images are written. -/
def State.bindLock (s : State) (r : GateEnd) (k : Nat) : State :=
  let f := s.flight k
  if f.binding ≠ some true then s
  else
    let halt := f.haltAtBind.isSome || (r.tag f).halt
    let s := (s.tilesOf k).foldl (fun s e => s.modTile e.1 fun x => { x with st := .bound }) s
    if halt then
      let rel := f.haltAtBind = some true ∨ s.releases k
      let s := s.unbind k
      let s := if rel then s.setFlight k {} else s
      let s := s.endWaits (fun w => match w.kind with | .halt j _ => j == k | _ => false) {}
      s.abandonWaits k ST_FLIGHT_HALTED
    else
      match f.rebind with
      | some _ =>
        (s.setFlight k { f with binding := none, rebind := none, st := .held, causes := [.device], spared := true }).restoreSpare k
      | none => (s.setFlight k { f with binding := none, st := .bound }).endWaits (fun w => w.kind == .bind k) {}

/-! ### Present and lost devices (R314 to R318) -/

/-- The device that serves a device slot. -/
def Flight.devOf (f : Flight) (e : Nat) : Nat := sget (devIndex f.image e) f.slotMap (devIndex f.image e)

/-- The device slots that one of some devices serves. -/
def Flight.slotsServed (f : Flight) (xs : List Nat) : List Nat :=
  (devSlots f.image).filter fun e => xs.contains (f.devOf e)

/-- The spares chosen for lost slots, lower slots first: the slot map after them, the group of the lowest, and whether
each slot found one. -/
def Flight.reassign (f : Flight) (faults : List Nat) : List Nat → Flight × Option Nat × Bool
  | [] => (f, none, true)
  | d :: ds =>
    let taken := (devSlots f.image).map f.devOf
    match (devSpares f.image d).zipIdx.find? fun c => !faults.contains c.1 && !taken.contains c.1 with
    | none => (f, none, false)
    | some (x, i) =>
      let r := ({ f with slotMap := sput (devIndex f.image d) x f.slotMap } : Flight).reassign faults ds
      (r.1, some (0x8000 + 4 * d + i), r.2.2)

/-- Whether the image has tables of a group. -/
def Flight.hasGroup (f : Flight) (g : Nat) : Bool := ((imageTabs f.image).getD []).any fun t => t.group == g

/-- The peer of a port of a device: of this device's own ports the trained one, of others' the neighbour that R251 gives
to a base port of the waterway's shape. -/
def State.portPeer (s : State) (dev p : Nat) : Option Nat :=
  if dev = s.ww.index ∧ (s.canal p).peerValid then some (s.canal p).peerDev
  else
    (List.range 4).findSome? fun x =>
      let own := (coordsOf dev).getD x 0
      (List.range (s.extents.getD x 1)).findSome? fun u =>
        if u ≠ own ∧ p / 2 = pairIndex s.extents x u own then some (indexOf ((coordsOf dev).set x u)) else none

/-- The first lost device that a primary slot table of a flight, of any device of its set, names a port to (R317). -/
def State.namesPortTo (s : State) (f : Flight) (lost : List Nat) : Option Nat :=
  let peers := (((imageTabs f.image).getD []).filter fun t => t.group == 0).flatMap fun t =>
    t.ents.filterMap fun e => s.portPeer (f.devOf t.dev) e.port
  lost.find? fun x => peers.contains x

/-- What the loss of devices makes of a flight, which every device works out alike (R316, R317): its slot map and the
group of its tables after it, and whether it can run in them; none where it is not affected. -/
def State.remapOf (s : State) (f : Flight) (lost faults : List Nat) : Option (Flight × Nat × Bool) :=
  let gone := f.slotsServed lost
  if !gone.isEmpty then
    let x := f.reassign faults gone
    some (x.1, x.2.1.getD 0, f.remap == 0 && x.2.2)
  else (s.namesPortTo f lost).map fun x => (f, 0x4000 + x, f.remap == 0)

/-- A bound flight at the lock that classifies devices: its lost slots move to spares, its tables change where they
name ports to a lost device, or it is restored, or it runs again. -/
def State.classify (s : State) (r : GateEnd) (k : Nat) : State :=
  let f := s.flight k
  let lost := r.classed.filter r.res.faultMap.contains
  let quiet (s : State) : State :=
    let f := s.flight k
    if !f.devHeld || !r.newly.isEmpty then s
    else if (r.tag f).hold then s.setFlight k { f with devHeld := false, causes := r.causes f }
    else s.setFlight k { f with devHeld := false, causes := [], st := .running }
  match s.remapOf f lost r.res.faultMap with
  | some (x, g, ok) =>
    if (f.slotsServed lost).isEmpty then
      if !ok then s.fatalFlight k 0
      else if f.hasGroup g then quiet (s.setFlight k { f with remap := g })
      else s.setFlight k { f with lostGroup := true, devHeld := false, causes := [.group] }
    else if !ok || !f.hasGroup g then s.fatalFlight k 0
    else (s.setFlight k { x with remap := g }).beginRestore k
  | none => if f.devHeld && !(f.slotsServed r.classed).isEmpty then s.beginRestore k else quiet s

/-- The replicas of some device slots leave for the spares that have taken those slots over: the spec says that a spare
fetches its replica from the buddy and gives no request for it (DESIGN CHOICE: log entry 27). -/
def Flight.sendToSpares (f : Flight) (own : Nat) (gone : List Nat) : Flight :=
  let due := gone.filterMap fun d =>
    let spare := f.devOf d
    if devBuddy f.image d ≠ own ∨ spare = own then none
    else
      ((f.areas.filter fun a => a.complete && a.replica && a.bytes.num 6 2 == d).foldl (fun b a => match b with
        | none => some a
        | some x => if x.pound ≤ a.pound then some a else b) (none : Option SnapArea)).map fun a => (spare, a)
  { f with streams := f.streams ++ due }

/-- A flight that stands by: its slot map and group follow, a buddy sends its replica, and the spare that is chosen
binds with the checks of R232. -/
def State.standbyLock (s : State) (r : GateEnd) (k : Nat) : State :=
  let f := s.flight k
  let lost := r.classed.filter r.res.faultMap.contains
  match s.remapOf f lost r.res.faultMap with
  | none => s
  | some (x, g, ok) =>
    let gone := f.slotsServed lost
    let s := s.setFlight k ({ x with remap := g }.sendToSpares s.ww.index gone)
    match gone.find? fun d => x.devOf d == s.ww.index with
    | none => s
    | some d =>
      if !ok || devMask f.image d ≠ s.reachMask || (s.bindTime f.image).isSome || s.tagTaken k f.tag ||
          (s.bindSlot k f.image d).isSome || !x.hasGroup g then s
      else
        (s.startBind k f.tag d f.fence).modFlight k fun y =>
          { y with slotMap := x.slotMap, rebind := some d, remap := g, seenSnap := f.seenSnap, seenLast := f.seenLast }

/-- A flight that stands by follows in the gate which snapshot is the flight's last: the latest order whose copies have
ended on every device (R306). -/
def State.watchSnaps (s : State) (r : GateEnd) : State :=
  if r.miss then s
  else
    { s with flights := s.flights.map fun e =>
        if !e.2.standby then e
        else
          let t := r.tag e.2
          if t.snap && !t.halt && !t.hold && !t.moor then (e.1, { e.2 with seenSnap := some r.pound })
          else if t.moor then e
          else
            match e.2.seenSnap with
            | some l => (e.1, { e.2 with seenLast := some l, seenSnap := none })
            | none => e }

/-- A lost device that is still alive leaves every flight. -/
def State.leaveAll (s : State) : State :=
  s.boundSlots.foldl (fun s k => (s.leaveTiles k).abandonWaits k ST_DEVICE_RETIRED) s

/-- The classification of the devices that the lock before held the waterway for. -/
def State.classifyLock (s : State) (r : GateEnd) : State :=
  let s := s.watchSnaps r
  if r.miss || r.classed.isEmpty then s
  else if r.classed.contains s.ww.index && r.res.faultMap.contains s.ww.index then s.leaveAll
  else
    let s := s.boundSlots.foldl (fun s k => s.classify r k) s
    ((s.flights.filter fun e => e.2.standby).map Prod.fst).foldl (fun s k => s.standbyLock r k) s

/-! ### The end and the start of a pound -/

/-- The hold address of a routed slot's header (R302). -/
def routedHeader (m : Ram) (r : Routed) : Nat :=
  ((List.range (entryCount m SEC_ROUTED)).map (routed m)).foldl (fun a x =>
    if x.dev = r.dev ∧ x.tile = r.tile ∧ x.num ≤ r.num then a - x.area else a) HOLD_BYTES

/-- Drops of one routed slot in the pound that ends (R304). -/
def State.routedDrop (s : State) (k : Nat) (r : Routed) : State :=
  match s.physTile r.tile with
  | none => s
  | some t =>
    let a := routedHeader (s.flight k).image r
    let n := (s.tile t).hold.num (a + 0x0C) 4
    if n = 0 then s
    else
      (s.modFlight k fun f => { f with dropTotal := f.dropTotal + n }).fault
        { msgOf K_ROUTED_DROP 1 t with addr := a, count := n, slot := k }

/-- The routed headers of a flight that ran. -/
def State.routedDrops (s : State) (k : Nat) : State :=
  let f := s.flight k
  (((List.range (entryCount f.image SEC_ROUTED)).map (routed f.image)).filter fun r => r.dev == f.devSlot).foldl
    (fun s r => s.routedDrop k r) s

/-- A flight that ran the pound that ends: its drops are counted and its position advances, but not through an
overrun of its own (R241). -/
def State.ranPound (s : State) (slipOut : Bool) (k : Nat) : State :=
  if !(s.flight k).ran then s
  else
    (s.routedDrops k).modFlight k fun f =>
      { f with ran := false, pos := if slipOut && f.late then f.pos else f.after f.pos }

/-- A RUNNING flight with no position left is DONE, and its end fence is written (R241, R242). -/
def State.endRun (s : State) (k : Nat) : State :=
  let f := s.flight k
  if f.st = .running ∧ !f.hasPos f.pos then (s.setFlight k { f with st := .done, causes := [] }).endFence k false else s

/-- A tile as the pound starts: its leg, and the clock it changes to (R25, R223), its service grade where that is
below the planned clock (R92; DESIGN CHOICE: log entry 82). -/
def Tile.pound (x : Tile) (leg : Option Nat) (clk : Option Nat) : Tile :=
  let leg := if x.st = .bound then leg else none
  { x with leg := leg, running := false, endAt := none, branch := none, stall := none, cyc := 0,
           step := match clk with
             | some c => if min c x.service = x.clk then none else some (min c x.service)
             | none => x.step }

/-- The start of a pound for one bound flight: variant, tables, legs and clocks of one that runs, and the flags of
its lock-in and of R296. -/
def State.startPound (s : State) (r : GateEnd) (k : Nat) : State :=
  let f := s.flight k
  let runs := decide (f.st = .running)
  let v := if runs then min (r.tag f).draught (hdrVariants f.image - 1) else f.variant
  let s := (s.tilesOf k).foldl (fun s e => s.modTile e.1 fun x =>
    if runs then x.pound (legOf f.image v f.pos e.2) (some (planClock f.image v e.2)) else x.pound none none) s
  let mustered := s.musters.any fun m => m.tag == f.tag && decide (m.barrier < 256)
  let waits := f.st == .held && (f.causes == [.barrier] ||
    s.musters.any fun m => m.tag == f.tag && m.barrier == 257)
  let s := s.setFlight k { f with
    ran := runs, variant := v, late := false, lockinDone := false, lockinOk := false, raised := []
    group := (f.chooseGroup fun p => (s.canal p).activeAtVote).getD f.group
    curXlt := if runs then f.nextXlt else if f.overrun then f.curXlt else [], nextXlt := if runs then [] else f.nextXlt
    barrierFlag := runs && mustered, barrierHeld := if waits then f.barrierHeld + 1 else 0 }
  if f.starts (r.pound + 1) then s.musterOnce f.tag 256 else s

end Sys2Proof.Machine
end

