-- ==== Sys2Proof/Machine/Stacks.lean ====
section
/-! DEFINITION. The stack ports' commands (09): reads and writes at the controller, write-back, patrol
scrub, accounting windows, channel requests, pseudo-channel retirement and injections. -/

namespace Sys2Proof.Machine

/-- STACK_READ: each burst that `len` bytes at a DPA touch is checked word by word (R334); what the
frames admit decides the data (R342, R347). -/
def execStackRead (dpa len : Nat) (s : State) : Host.Outcome State Fault Refusal :=
  let r := s.ucRead false dpa len
  doneLive s (r.1.emit (.stackData (bytesOf r.2) (anyPoison r.2)))

/-- STACK_WRITE: whole words are stored, parts merge (R335, R337), and a frame out of service discards
the write (R342, R347). -/
def execStackWrite (dpa : Nat) (bytes : List Byte) (poison : Bool) (s : State) :
    Host.Outcome State Fault Refusal :=
  doneLive s (s.ucWrite false dpa (bytes.map fun b => (b, poison)))

/-- The word that waits at a port to be written back. -/
def State.waitingWriteback (s : State) (w : Nat) : Option Nat :=
  match s.frame w with
  | some f => ((s.stack f.port).writeback.find? fun e => e.1 == w).map Prod.snd
  | none => none

/-- CORRECTED_WRITEBACK: the word's write-back in freight capacity; a word written since it was read has
left the queue, and its write stands (R339). -/
def execCorrectedWriteback (dpa : Nat) (s : State) : Host.Outcome State Fault Refusal :=
  let w := 8 * (dpa / 8)
  doneLive s (match s.waitingWriteback w with
    | some m =>
      let t := s.dropWriteback w
      if s.frameUse w = .normal then { t with hdm := t.hdm.setMark w m } else t
    | none => s)

/-- The DPA of a port's burst number `i`, in ascending order of its offsets (R327). -/
def State.burstAddr (s : State) (port i : Nat) : Nat :=
  s.pcAddr port 0 + 64 * i / 2 ^ 18 * 2 ^ 19 + 64 * i % 2 ^ 18

/-- SCRUB_READ: patrol scrub reads the next burst of an ACTIVE port under R334; after the last burst it
sets SCRUB_PASS and starts again (R338). A period of 0 stops it (R350), and the memory limit pauses it (R572). -/
def execScrubRead (port : Nat) (s : State) : Host.Outcome State Fault Refusal :=
  let k := s.stack port
  doneLive s (if k.st ≠ .active ∨ s.fld (stkReg port 0x00) 15 8 = 0 ∨ s.power.limits.contains .memory then s
    else
      let la := s.burstAddr port k.scrub
      let t := match s.frameUse la with
        | .normal | .evacuate => (s.stkReadLine la).1
        | _ => s
      let last := decide (s.boot.capacity ≤ 64 * (k.scrub + 1))
      let t := t.modStack port fun k => { k with scrub := if last then 0 else k.scrub + 1 }
      if last then t.setBit (stkReg port 0x34) 7 true else t)

/-- ACCOUNTING_WINDOW: every bound flight's reserved budget at a port renews: BANDWIDTH x 256 ns bytes and
INFLIGHT transactions (R331). -/
def execAccountingWindow (port : Nat) (s : State) : Host.Outcome State Fault Refusal :=
  doneLive s (s.modStack port fun k =>
    { k with budget := s.boundSlots.foldl (fun b f =>
        let r := (s.flight f).stackResOn port
        sset (0, 0) f (r.1 * 256, r.2) b) [] })

/-- STACK_TEMP_SAMPLE: STK_STAT.TEMP takes the reading of an active stack (R588, R351). -/
def execStackTempSample (port temp : Nat) (s : State) : Host.Outcome State Fault Refusal :=
  done s (if s.fuses.stackFused port then
      s.modStack port fun k => { k with temp := min temp 255, tempMax := max k.tempMax (min temp 255) }
    else s)

/-! ### Channel requests (R345 to R348) -/

/-- Codes of STK_CH_RESULT (R353). -/
def CH_OK := 0
def CH_BUSY := 1
def CH_STATE := 2
def CH_FAILED := 3

/-- A channel request ends: its result is recorded and GO clears (R352, R353). -/
def State.chEnd (s : State) (port ch code : Nat) : State :=
  (s.modStack port fun k => { k with chReq := none, lastCh := ch, lastCode := code }).setBit
    (stkReg port 0x08) 31 false

/-- Whether a drain would leave the bound flights' reservations above capacity: R330 with two fewer
pseudo-channels (R346). -/
def State.drainBusy (s : State) (port : Nat) : Bool :=
  !fitsCap (s.stkReserved port) (capOf (s.pcsInService port - 2))

/-- Both pseudo-channels of a channel become PERMANENT (R341, R348). -/
def State.retireChannel (s : State) (port ch : Nat) : State :=
  [2 * ch, 2 * ch + 1].foldl (fun s k =>
    if s.pcState port k = .ok then
      s.report K_STK_PC_RETIRED 4 (port * 32 + ch) (s.pcAddr port k)
    else s) s

/-- A channel request starts: what OP does at once, or what waits for a lock or for the sweep. -/
def State.chStart (s : State) (port op ch : Nat) : State :=
  let k := s.stack port
  let drained := k.drained.contains ch
  if k.st ≠ .active then s.chEnd port ch CH_STATE
  else if op = 0 then
    (if drained then s.chEnd port ch CH_STATE
     else if s.drainBusy port then s.chEnd port ch CH_BUSY
     else s.modStack port fun k => { k with chReq := some (0, ch) })
  else if op = 1 then
    (if drained then s.modStack port fun k => { k with chReq := some (1, ch) }
     else s.chEnd port ch CH_STATE)
  else if op = 2 then
    (if !drained then s.chEnd port ch CH_STATE
     else if k.failedMargin.contains ch then (s.retireChannel port ch).chEnd port ch CH_FAILED
     else s.modStack port fun k => { k with chReq := some (2, ch) })
  else s.chEnd port ch CH_STATE

/-- A write of STK_CH_CTL: OP and CH are ignored while GO is 1, and a GO that rises starts the request
(R352). -/
def State.chCtl (s : State) (port : Nat) (v : Reg) : State :=
  let off := stkReg port 0x08
  let was := s.bit off 31
  let t := s.swWrite off v
  if !was && t.bit off 31 then t.chStart port (t.fld off 9 8) (t.fld off 4 0) else t

/-- The write of STK_CH_CTL with OP and GO as the command names them. -/
def chValue (v : Reg) (op : Nat) : Reg := putBits (putBits v 9 8 op) 31 31 1

/-- CHANNEL_DRAIN. -/
def execChannelDrain (port : Nat) (v : Reg) (s : State) : Host.Outcome State Fault Refusal :=
  doneLive s (s.chCtl port (chValue v 0))

/-- CHANNEL_MARGIN. -/
def execChannelMargin (port : Nat) (v : Reg) (s : State) : Host.Outcome State Fault Refusal :=
  doneLive s (s.chCtl port (chValue v 1))

/-- CHANNEL_RETURN. -/
def execChannelReturn (port : Nat) (v : Reg) (s : State) : Host.Outcome State Fault Refusal :=
  doneLive s (s.chCtl port (chValue v 2))

/-- Whether a channel's margins pass (R345). -/
def marginPasses (m : Margin) : Bool :=
  decide (8 ≤ m.early) && decide (8 ≤ m.late) && decide (4 ≤ m.down) && decide (4 ≤ m.up)

/-- CHANNEL_MARGIN_DONE: the sweep's result is recorded, a failed one sets TRAIN_FAIL, and the request
ends (R348, R358). -/
def execChannelMarginDone (port : Nat) (m : Margin) (s : State) : Host.Outcome State Fault Refusal :=
  doneLive s (match (s.stack port).chReq with
    | some (1, ch) =>
      let t := s.modStack port fun k =>
        { k with margins := sput ch m k.margins
                 failedMargin := if marginPasses m then k.failedMargin.filter (· ≠ ch)
                                 else insertNat ch k.failedMargin }
      let t := if marginPasses m then t else t.setBit (stkReg port 0x34) 8 true
      t.chEnd port ch CH_OK
    | _ => s)

/-! ### Pseudo-channels (R341, R342, R355, R356) -/

/-- A write of STK_PC_EVAC: each EVACUATE pseudo-channel whose bit is 1 becomes RETIRED. -/
def State.evacRelease (s : State) (port : Nat) (hi : Bool) (v : Reg) : State :=
  s.modStack port fun k =>
    { k with pcs := (List.range 32).foldl (fun m i =>
        let p := i + 32 * bnat hi
        if v.getLsbD i && decide (sget .ok m p = PcState.evacuate) then sset .ok p .retired m else m) k.pcs }

/-- PC_EVAC_RELEASE. -/
def execPcEvacRelease (port : Nat) (hi : Bool) (v : Reg) (s : State) : Host.Outcome State Fault Refusal :=
  doneLive s (s.evacRelease port hi v)

/-- A write of STK_PC_FORCE: a GO that rises makes the selected pseudo-channel PERMANENT; GO clears at the lock where
its retirement takes effect. -/
def State.pcForce (s : State) (port : Nat) (v : Reg) : State :=
  let off := stkReg port 0x28
  let t := s.swWrite off v
  let pc := t.fld off 5 0
  if !s.bit off 31 && t.bit off 31 then
    t.report K_STK_PC_RETIRED 4 (port * 32 + pc / 2) (t.pcAddr port pc)
  else t

/-- PC_FORCE. -/
def execPcForce (port : Nat) (v : Reg) (s : State) : Host.Outcome State Fault Refusal :=
  doneLive s (s.pcForce port (putBits v 31 31 1))

/-- STK_INJ_UE: the next whole word written at the port gets two inverted check bits (R359). -/
def execStkInjUe (port : Nat) (s : State) : Host.Outcome State Fault Refusal :=
  doneLive s (s.swWrite (stkReg port 0x38) 2)

/-- STK_INJ_CE: the next whole word written at the port gets one inverted check bit (R359). -/
def execStkInjCe (port : Nat) (s : State) : Host.Outcome State Fault Refusal :=
  doneLive s (s.swWrite (stkReg port 0x38) 1)

end Sys2Proof.Machine
end

