-- ==== Sys2Proof/Machine/Lock.lean ====
section
/-! DEFINITION. The lock (R21, R22, R30 to R44, R47, R604 to R609, R319) and what follows it in the change window and
the leg window: leg starts, clock steps, droop, and the lockmaster's absence. -/

namespace Sys2Proof.Machine

/-! ### Time -/

/-- The lock instant, with `slips` quanta of 250 ns: the pound counter advances (R21, R30). -/
def State.lockTime (s : State) (slips : Nat) : State :=
  let slip := s.ww.slip + 250 * slips
  let t := (s.ww.epoch + (s.ww.pound + 1) * s.poundLen + slip) % 2 ^ 64
  let s : State := { s with ww := { s.ww with slip := slip, pound := s.ww.pound + 1, time := t, frac := 0, lockTime := t } }
  let s := s.setFld TCK_PLEN 20 16 slips
  if slips = 0 then s else s.setBit TCK_STAT 1 true

/-- What the lock decides from. -/
def State.gateEnd (s : State) : GateEnd :=
  let miss := s.gateMissing
  let r := if miss then {} else s.gateResult
  { res := r, miss := miss, slipOut := s.lateVote && decide (16 ≤ s.gate.round)
    newly := r.faultMap.filter fun x => !s.ww.faults.contains x
    classed := s.ww.newFaults, pound := s.ww.pound + 1 }

/-- A gate miss is recorded and sets the device fault flag for one pound (R36, R313). -/
def State.missLock (s : State) (miss : Bool) : State :=
  let s : State := { s with ww := { s.ww with missFault := miss } }
  if miss then (s.setBit TCK_STAT 3 true).fault (msgOf K_GATE_MISS 0 0) else s

/-! ### Waterway reset (R319, R320) -/

/-- Whether a waterway reset keeps a waiting flit: it discards freight, and what is relayed (R319). -/
def QFlit.staysOverReset (q : QFlit) : Bool := q.flit.typ ≠ FLIT_FREIGHT && q.port == OWN

/-- The reset order takes effect. It displaces the orders of the same gate, and a start that was due: those commands
complete with STATE_REJECT (R39, R239, R243). Every other command that waits on a flight completes with FLIGHT_HALTED
(R319; DEDUCED: log entry 23). -/
def State.resetLock (s : State) (pound : Nat) : State :=
  let ks := (s.flights.filter fun e => e.2.reserves).map Prod.fst
  let s := ks.foldl (fun s k =>
    let s := s.displace k 1
    let s := if (s.flight k).starts pound then s.runEnds k ST_STATE_REJECT else s
    (s.leaveTiles k).abandonWaits k ST_FLIGHT_HALTED) s
  let s : State := { s with
    flights := s.flights.map fun e => (e.1, { e.2 with standby := false, dropTotal := 0 })
    musters := []
    tickets := []
    remote := []
    transit := s.transit.filter QFlit.staysOverReset
    ww := { s.ww with joined := false, holdover := false, discovering := true, lm := none, candidate := false,
                      lmAbsent := 0, faults := [], newFaults := [], expired := none } }
  s.setBit FLT_RESET 31 false

/-! ### Reactions of the collector (R604 to R607) -/

/-- Recovery of a way starts: it leaves replacement, and its lines are written back and invalidated (R387). -/
def State.recoverWay (s : State) (basin : Bool) (idx way : Nat) : State :=
  if s.basin.disabled.contains (basin, idx, way) || s.basin.recovering.contains (basin, idx, way) then s
  else
    let s : State := { s with basin := { s.basin with recovering := s.basin.recovering ++ [(basin, idx, way)] } }
    if basin then
      (s.basin.lines.filter fun l => s.slice l.host l.addr == idx && !l.victim && l.way == way).foldl (fun s l =>
        ((s.cleanLine l.host l.addr).purge l.host l.addr none).discardLine l.host l.addr) s
    else
      let a := if 32 ≤ idx then lkAgent (idx - 32) else idx
      (s.basin.copies.filter fun c => c.agent == a && !c.victim && c.way == way).foldl State.evictCopy s

/-- A pseudo-channel retires: it enters EVACUATE, and the request that forced it ends (R341, R356). -/
def State.retirePcLock (s : State) (port pc : Nat) : State :=
  let s := s.modStack port fun k =>
    { k with pcs := if sget .ok k.pcs pc = PcState.ok then sset .ok pc .evacuate k.pcs else k.pcs }
  if s.fld (stkReg port 0x28) 5 0 = pc then s.setBit (stkReg port 0x28) 31 false else s

/-- The flights of a FATAL device halt (R607). -/
def State.haltDevice (s : State) : State :=
  let ks := (s.flights.filter fun e => e.2.reserves).map Prod.fst
  (ks.foldl State.leaveTiles s).haltRings

/-- One reaction at its lock. -/
def State.reaction (s : State) : Reaction → State
  | .retireTile t => s.retireTile t
  | .retirePort p => if p < s.fuses.variant.canals then s.retireLink p else s
  | .retirePc port pc => s.retirePcLock port pc
  | .recoverWay basin idx way => s.recoverWay basin idx way
  | .retireLk k => s.retireLk k
  | .deviceFault => { s with ww := { s.ww with ownFault := true } }
  | .deviceHalt => s.haltDevice

/-- Whether a reaction does not wait for the gate: that of a unit which no bound flight uses (R604). -/
def State.atOnce (s : State) : Reaction → Bool
  | .retireTile t => (s.tile t).flight.isNone
  | .retireLk _ => true
  | .recoverWay .. => true
  | _ => false

/-- Whether a reaction waits for something else than a lock: a moored way is not recovered (R387). -/
def State.reactionWaits (s : State) : Reaction → Bool
  | .recoverWay true idx way => (s.mooredWays idx).contains way
  | _ => false

/-- The reactions of a lock. -/
def State.reactions (s : State) : State :=
  let rs := s.flt.reactions
  let now := rs.filter fun r => (!r.1 || s.atOnce r.2) && !s.reactionWaits r.2
  let later := (rs.filter fun r => !((!r.1 || s.atOnce r.2) && !s.reactionWaits r.2)).map fun r => (false, r.2)
  now.foldl (fun s r => s.reaction r.2) { s with flt := { s.flt with reactions := later } }

/-- Substitutions and re-grades of a lock, and the zeroed tiles that enter FREE (R81, R90, R646). -/
def State.tileLock (s : State) : State :=
  let s := s.fuses.reaches.foldl (fun s p => (s.substLock p).regradeLock p) s
  { s with tiles := s.tiles.map fun e =>
      (e.1, if e.2.st = .bound ∧ e.2.flight.isNone ∧ !e.2.zeroing then { e.2 with st := .free } else e.2) }

/-! ### Settings (R22, R43, R44) -/

/-- Whether a request meets the conditions of R43. -/
def State.setupOk (s : State) (r : Gate) (q : SetupReq) : Bool :=
  decide (10 ≤ q.len) && decide (q.len ≤ 1000) && decide (10 ≤ q.lead) && decide (q.lead ≤ 100) &&
    (q.len == s.fld TCK_PLEN 9 0 || !r.bound) && decide (q.lead ≤ r.leadAllow) &&
    decide (s.fld TCK_GATE 22 16 ≤ q.lead) && decide (q.lead < 5 * q.len)

/-- A request is adopted: a new length re-bases the lock formula (R22), and flights held only for a short lead resume
(R44). -/
def State.adopt (s : State) (q : SetupReq) : State :=
  let s := if q.len = s.fld TCK_PLEN 9 0 then s
    else
      let s := s.setFld TCK_PLEN 9 0 q.len
      { s with ww := { s.ww with
          epoch := (s.ww.lockTime + 2 ^ 64 - s.ww.pound * s.poundLen % 2 ^ 64) % 2 ^ 64, slip := 0 } }
  let s := s.setFld TCK_GATE 6 0 q.lead
  s.boundSlots.foldl (fun s k =>
    let f := s.flight k
    if f.st = .held ∧ f.causes = [.leadShort] then s.orderTag f.tag fun t => { t with resume := true } else s) s

/-- The setup request of a gate, and the end of this device's own. The spec does not say whether a request counts as
decided on a device that has a gate miss in the pound that carried it, since that device knows no gate result: GO stays,
and the request enters the next gate again (DESIGN CHOICE: log entry 73). -/
def State.setupLock (s : State) (r : GateEnd) (sent : Option SetupReq) : State :=
  let good := match r.res.setup with
    | some q => s.setupOk r.res q
    | none => false
  let own := match sent with
    | some q => q.dev == s.ww.index && !r.miss
    | none => false
  let won := good && (r.res.setup.map SetupReq.dev == some s.ww.index)
  let s := match r.res.setup with
    | some q => if good then s.adopt q else s
    | none => s
  if !own then s
  else
    let s := s.setBit TCK_REQ 31 false
    if won then s else s.setBit TCK_STAT 4 true

/-! ### Lockmaster (R45, R47) -/

/-- Presence of the lockmaster, and the election that a candidacy decides. From the fourth pound without presence until
the election the device runs in holdover (R47). -/
def State.lmLock (s : State) (r : GateEnd) : State :=
  if r.miss then s
  else
    match r.res.cand with
    | some c =>
      ({ s with ww := { s.ww with lm := some c.2, lmAbsent := 0, candidate := false, syncAt := 0
                                  holdover := s.ww.holdover && decide (c.2 ≠ s.ww.index) } } : State).chooseUpstream
    | none =>
      if r.res.presence then { s with ww := { s.ww with lmAbsent := 0 } }
      else
        let s : State := { s with ww := { s.ww with lmAbsent := s.ww.lmAbsent + 1 } }
        if 4 ≤ s.ww.lmAbsent then s.loseTime else s

/-- LOCKMASTER_ABSENCE: after four pounds without presence a device with a priority is a candidate (R47, R48). -/
def State.doLmAbsence (s : State) : State :=
  if s.ww.joined ∧ 4 ≤ s.ww.lmAbsent ∧ s.fld TCK_CTL 15 8 ≠ 0 then { s with ww := { s.ww with candidate := true } } else s

/-- HOLDOVER_EXPIRY: 1 ms has passed without time-discipline information. The flights hold at the next lock whose gate
the device can still enter, and the device leaves the waterway at that lock (R27, R49). -/
def State.doHoldoverExpiry (s : State) : State :=
  if !s.ww.joined || s.ww.expired.isSome then s
  else
    let s := s.boundSlots.foldl State.holdSlot (s.setBit TCK_STAT 6 true)
    { s with ww := { s.ww with holdover := true, expired := some (s.ww.pound + 1 + bnat s.gate.cut) } }

/-- The lock of an expired holdover: with its flights held, the device leaves the waterway and records a time loss. -/
def State.expiryLock (s : State) : State :=
  match s.ww.expired with
  | some n =>
    if s.ww.pound < n then s
    else
      ({ s with ww := { s.ww with joined := false, discovering := true, lm := none, expired := none } } : State).fault
        (msgOf K_TIME_LOSS 0 0)
  | none => s

/-! ### Units at a lock -/

/-- Canal ports whose training agreed on this lock enter ACTIVE (R279); the upstream port is chosen anew, since a link
group may have changed (R282); and the planned slots of the pound that ends have passed. -/
def State.canalLock (s : State) : State :=
  let ps := (s.canals.filter fun e => match e.2.enterAt with
    | some n => decide (n ≤ s.ww.pound)
    | none => false).map Prod.fst
  let s := (ps.foldl State.linkUp s).allLate
  if s.ww.joined then s.chooseUpstream else s

/-- Channel drains and returns take effect (R346, R348). -/
def State.channelLock (s : State) (port : Nat) : State :=
  match (s.stack port).chReq with
  | some (0, ch) =>
    if s.drainBusy port then s.chEnd port ch CH_BUSY
    else (s.modStack port fun k => { k with drained := insertNat ch k.drained }).chEnd port ch CH_OK
  | some (2, ch) => (s.modStack port fun k => { k with drained := k.drained.filter (· ≠ ch) }).chEnd port ch CH_OK
  | _ => s

/-- A moor count takes effect: every moored byte reads 0 after it (R394). -/
def State.moorLock (s : State) : State :=
  match s.basin.moorReq with
  | some m =>
    if !s.basin.moorCleaned then s
    else
      let s := if s.basin.moor < m then s.cleanMoored m else s
      ({ s with basin := { s.basin with moor := m, moored := {} } } : State).moorEnd MOOR_OK
  | none => s

/-- A change of FLT_CTL.MODE applies, and clears every counter (R609). -/
def State.modeLock (s : State) : State :=
  let m := s.bit FLT_CTL 0
  if m = s.flt.equal then s else { s with flt := { s.flt with equal := m, counters := [] } }

/-- The units that change at a lock. -/
def State.unitLock (s : State) : State :=
  let s := s.canalLock
  let s := (s.stk.map Prod.fst).foldl State.channelLock s
  (s.moorLock.modeLock.migrateLock).updateLock

/-- Orders that stand until they have acted: halts of contexts that have faulted or are torn down and of an FLR, and
the holds of FATAL flights. -/
def State.standingOrders (s : State) : State :=
  let s := s.slotsHeld.foldl (fun s k =>
    let st := (s.context (s.flight k).ctx).st
    let torn := s.waits.any fun w => match w.kind with
      | .teardown c stage .. => c == (s.flight k).ctx && decide (1 ≤ stage)
      | _ => false
    if st = .faulted ∨ torn ∨ s.port.flrBusy then s.haltOrder k torn else s) s
  s.boundSlots.foldl (fun s k => if (s.flight k).fatal.isSome then s.holdSlot k else s) s

/-! ### The lock (R21, R34, R39) -/

/-- What units, translations, contexts and rings do at every lock, a waterway reset's included. -/
def State.unitsAtLock (s : State) : State :=
  let s := s.unitLock.drainAborts
  (s.postFaults.postHot.settleXlt.ctxSync.flrSettle.settleTeardown true).standingOrders

/-- The part of a lock that flights, contexts and units see. -/
def State.lockActs (s : State) (r : GateEnd) (sent : Option SetupReq) : State :=
  let s := (s.reactions.tileLock).lmLock r
  let s := s.boundSlots.foldl (fun s k => s.snapshotLast r k) s
  let s := s.boundSlots.foldl (fun s k => s.barrierExcess r k) s
  let s := s.boundSlots.foldl (fun s k => s.lockFlight r k) s
  let s := (s.classifyLock r)
  let s := ((s.flights.filter fun e => e.2.binding.isSome).map Prod.fst).foldl (fun s k => s.bindLock r k) s
  let s := s.boundSlots.foldl State.endRun s
  let s := s.setupLock r sent
  let s : State := if r.miss then s else { s with ww := { s.ww with faults := r.res.faultMap, newFaults := r.newly } }
  let s := s.unitsAtLock
  let s : State := { s with musters := s.musters.filter fun m => m.barrier ≠ 256 }
  s.boundSlots.foldl (fun s k => s.startPound r k) s

/-- The lock at which a waterway reset acts: it outranks every other event of a flight, and units change as at every
lock. -/
def State.resetActs (s : State) (r : GateEnd) : State := ((s.reactions.tileLock).resetLock r.pound).unitsAtLock

/-- The pound's end: time, measurement, ceilings, and the flights' positions. -/
def State.endPound (s : State) (r : GateEnd) (tj : List Nat) : State :=
  let before := s.ww.lockTime
  let voted := s.gate.voted
  let s := s.lockTime s.gate.round
  let s := if r.slipOut && voted then s.setBit TCK_STAT 2 true else s
  let s := ((s.measure ((s.ww.lockTime + 2 ^ 64 - before) % 2 ^ 64)).powerSettings.ceilings tj).setCap
  let s := s.boundSlots.foldl (fun s k => s.modFlight k Flight.countDecision) s
  (s.boundSlots.foldl (fun s k => s.ranPound r.slipOut k) s).missLock r.miss

/-- The lock interrupt, at every lock whose pound counter is a multiple of DIV (R59). -/
def State.lockIrq (s : State) : State :=
  let div := s.fld TCK_LOCK_IRQ 15 0
  if div ≠ 0 ∧ s.ww.pound % div = 0 then s.irq 0 else s

/-- The pound's start: the power decision, the lock interrupt, an expired holdover, the Waybill and the rings. -/
def State.beginPound (s : State) : State :=
  let s := (s.estimate.decide_).lockIrq.expiryLock
  s.lockWaybill.resettle

/-- LOCK. A lock whose vote instant has not been commanded casts vote 0 first; while the vote is late and may still
slip, no lock comes. At the lock of a waterway reset a setup request of the same gate is neither adopted nor rejected,
and GO stays: the spec does not say (DESIGN CHOICE: log entry 73). -/
def State.doLock (s : State) (tj : List Nat) : State :=
  if !s.locksRun then s
  else
    let s := if s.gate.cut then s else s.cutOff
    if s.lateVote && decide (s.gate.round < 16) then s
    else
      let r := s.gateEnd
      let sent := s.gate.sent.setup
      let next := s.gate.next
      let s : State := s.endPound r tj
      let s : State := { s with gate := { own := next } }
      (if r.res.reset then s.resetActs r else s.lockActs r sent).beginPound

/-! ### The change window (R25, R78, R586) -/

/-- LEG_START: 64 tile cycles after the lock edge. -/
def State.doLegStart (s : State) : State :=
  { s with tiles := s.tiles.map fun e =>
      match e.2.leg, e.2.flight with
      | some l, some (k, _) =>
        if e.2.st = .bound ∧ !e.2.running ∧ e.2.endAt.isNone ∧ e.2.sched.isEmpty then
          (e.1, { e.2 with pc := legPc (s.flight k).image l, cyc := 64, running := true })
        else e
      | _, _ => e }

/-- CLOCK_STEP: a pending step takes effect in the change window, cycles 0 to 63, while no detector of the reach is
tripped (R91, R586); no tile runs above its service grade (R92; DESIGN CHOICE: log entry 82). -/
def State.doClockStep (s : State) (t : Nat) : State :=
  match (s.tile t).step with
  | some c =>
    if (s.reach (t / 17)).droop.isEmpty ∧ (s.tile t).cyc < 64 then
      s.modTile t fun x => { x with clk := min c x.service, step := none }
    else s
  | none => s

/-- CLOCK_STEP_DEFERRED: the step moves to the next lock. -/
def State.doClockDeferred (s : State) (t : Nat) : State :=
  if (s.tile t).step.isSome then (s.modTile t fun x => { x with step := none }).setBit PWR_STAT 7 true else s

/-- DROOP_TRIP: a detector of an active reach trips at a level. -/
def State.doDroopTrip (s : State) (p det level : Nat) : State :=
  if s.fuses.reachActive p ∧ det < 16 ∧ 1 ≤ level ∧ level ≤ 3 then
    s.setReach p { s.reach p with droop := sput det level (s.reach p).droop }
  else s

/-- DROOP_STRETCH_END. -/
def State.doDroopEnd (s : State) (p det : Nat) : State :=
  if (sfind? (s.reach p).droop det).isSome then s.setReach p { s.reach p with droop := sdel det (s.reach p).droop } else s

/-! ### Other periodic events -/

/-- COUNTER_DECAY: every access counter is halved; one that reaches 0 frees its entry (R535). -/
def State.doCounterDecay (s : State) : State :=
  { s with xlt := { s.xlt with counters :=
      (s.xlt.counters.map fun c => (c.1, c.2.1, c.2.2.1 / 2, c.2.2.2)).filter fun c => c.2.2.1 ≠ 0 } }

/-- SETUP_REQUEST: a write of TCK_REQ with GO; ignored while GO is 1 (R57, R58). -/
def State.setupWrite (s : State) (v : Reg) : State := if s.bit TCK_REQ 31 then s else s.swWrite TCK_REQ v

/-- SNAPSHOT_COPY_DONE: the device stops raising the moor flag, and sends its replica. -/
def State.doSnapCopyDone (s : State) (k : Nat) : State :=
  match (s.flight k).snapping with
  | some (l, m, false) =>
    (s.modFlight k fun f =>
      { f with snapping := some (l, m, true), streams := f.streams ++ f.replicaDue l }).sendStreams k
  | _ => s

/-! ### Commands -/

/-- LOCK. -/
def execLock (tj : List Nat) (s : State) : Host.Outcome State Fault Refusal := doneLive s (s.doLock tj)

/-- COUNTER_DECAY. -/
def execCounterDecay (s : State) : Host.Outcome State Fault Refusal := doneLive s s.doCounterDecay

/-- LEG_START. -/
def execLegStart (s : State) : Host.Outcome State Fault Refusal := doneLive s s.doLegStart

/-- CLOCK_STEP. -/
def execClockStep (t : Nat) (s : State) : Host.Outcome State Fault Refusal := doneLive s (s.doClockStep t)

/-- CLOCK_STEP_DEFERRED. -/
def execClockStepDeferred (t : Nat) (s : State) : Host.Outcome State Fault Refusal := doneLive s (s.doClockDeferred t)

/-- DROOP_TRIP. -/
def execDroopTrip (reach det level : Nat) (s : State) : Host.Outcome State Fault Refusal :=
  doneLive s (s.doDroopTrip reach det level)

/-- DROOP_STRETCH_END. -/
def execDroopStretchEnd (reach det : Nat) (s : State) : Host.Outcome State Fault Refusal :=
  doneLive s (s.doDroopEnd reach det)

/-- HOLDOVER_EXPIRY. -/
def execHoldoverExpiry (s : State) : Host.Outcome State Fault Refusal := doneLive s s.doHoldoverExpiry

/-- LOCKMASTER_ABSENCE. -/
def execLockmasterAbsence (s : State) : Host.Outcome State Fault Refusal := doneLive s s.doLmAbsence

/-- SETUP_REQUEST. -/
def execSetupRequest (v : Reg) (s : State) : Host.Outcome State Fault Refusal :=
  doneLive s (s.setupWrite (putBits v 31 31 1))

/-- SNAPSHOT_COPY_DONE. -/
def execSnapshotCopyDone (slot : Nat) (s : State) : Host.Outcome State Fault Refusal := doneLive s (s.doSnapCopyDone slot)

end Sys2Proof.Machine
end

