-- ==== Sys2Proof/Machine/Collector.lean ====
section
/-! DEFINITION. The fault collector's own commands and safe state (16 R590, 17 R599 to R626). -/

namespace Sys2Proof.Machine

/-! ### Safe state (R612) -/

/-- A canal port on the way into safe state: an ACTIVE one sends ABSENT flits first (R280). -/
def State.canalSafe (s : State) (p : Nat) : State :=
  let t := if (s.canal p).st = .active then s.sendAbsent p else s
  t.modCanal p fun c => { c with st := .safe, enterAt := none }

/-- A berth on the way into safe state (R554). -/
def State.berthSafe (s : State) (b : Nat) : State :=
  let st := (s.berth b).st
  let t := s.berthTo b .safe
  if st = .off ∨ st = .drained then t else t.berthLoss b

/-- Safe state: every step that hardware forces. -/
def State.enterSafe (s : State) : State :=
  if s.boot.safe then s
  else
    let s := (List.range s.fuses.variant.berths).foldl State.berthSafe s
    let s := (List.range s.fuses.variant.canals).foldl State.canalSafe s
    let s : State := if s.port.viralEn then { s with port := { s.port with viralSent := true } }.emit .viral else s
    let s := s.aer .uncorrectableInternal false
    { s with boot := { s.boot with safe := true }
             tiles := s.tiles.map fun e => (e.1, { e.2 with running := false })
             stk := s.stk.map fun e => (e.1, if e.2.st = .active ∨ e.2.st = .selfRefresh then { e.2 with st := .safe } else e.2) }

/-- A message at the collector: a GRAVE one also puts the device into safe state, and one of context scope aborts its
context. What a basin home did for the error that it reports is seen with it. -/
def State.receiveFault (s : State) (m : FaultMsg) : State :=
  let t := (s.fault m).drainAborts.homeRepair m
  if m.cls = 4 then t.enterSafe else t

/-- FAULT_MESSAGE_RECEIVE. -/
def execFaultMessageReceive (m : FaultMsg) (s : State) : Host.Outcome State Fault Refusal :=
  done s (s.receiveFault m)

/-! ### Thermal trips and rails (R6, R590) -/

/-- The Thermal instances that trip: reaches with a junction reading of 120 °C or more, and stack ports with a
reading of 105 °C or more, each once. -/
def State.tripped (s : State) (junction ports : List (Nat × Nat)) : List Nat :=
  let rs := (junction.filter fun r => s.fuses.reachActive r.1 && decide (120 ≤ r.2)).map Prod.fst
  let ps := (ports.filter fun r => s.fuses.stackFused r.1 && decide (105 ≤ r.2)).map fun r => 16 + r.1
  (rs ++ ps).foldl (fun l n => insertNat n l) []

/-- The sensors' readings, as GET_TEMPS gives them: of several sensors of a reach the hottest. -/
def State.readings (s : State) (junction ports : List (Nat × Nat)) : State :=
  let s := s.fuses.reaches.foldl (fun s p =>
    match (junction.filter fun r => r.1 == p).map Prod.snd with
    | [] => s
    | x :: xs => s.setFld (PWR_REACH + 4 * p) 31 24 (min 255 (xs.foldl max x))) s
  (ports.filter fun r => s.fuses.stackFused r.1).foldl (fun s r => s.modStack r.1 fun k => { k with temp := r.2 }) s

/-- One THERM_TRIP record for each instance that trips. -/
def State.tripRecords (s : State) (ns : List Nat) : State := ns.foldl (fun s n => s.fault (msgOf K_THERM_TRIP 13 n)) s

/-- A hardware thermal trip. -/
def State.thermalTrip (s : State) (junction ports : List (Nat × Nat)) : State :=
  let ns := s.tripped junction ports
  if ns.isEmpty then s
  else
    let s := (s.readings junction ports).tripRecords ns
    ({ s with pins := { s.pins with thermtripOut := true } } : State).enterSafe

/-- THERMAL_TRIP. -/
def execThermalTrip (junction ports : List (Nat × Nat)) (s : State) : Host.Outcome State Fault Refusal :=
  done s (s.thermalTrip junction ports)

/-- A power-good input falls: 0 compute, 1 memory, 2 links. -/
def Pins.drop (p : Pins) (rail : Nat) : Pins :=
  if rail = 0 then { p with pgCore := false }
  else if rail = 1 then { p with pgMem := false }
  else { p with pgLink := false }

/-- Whether bring-up has reached the step that needs a rail. -/
def State.railInService (s : State) (rail : Nat) : Bool :=
  decide ((if rail = 0 then 1 else if rail = 1 then 8 else 9) ≤ s.boot.step)

/-- POWER_GOOD_LOSS: in service, a GRAVE fault of the rail's class (R6). -/
def execPowerGoodLoss (rail : Nat) (s : State) : Host.Outcome State Fault Refusal :=
  done s (if 2 < rail then s
    else
      let t : State := { s with pins := s.pins.drop rail }
      if s.railInService rail && !s.boot.safe then (t.fault (msgOf K_RAIL_LOSS 12 rail)).enterSafe else t)

/-! ### FAULT_OUT, the log and the ring (R615 to R617, R624) -/

/-- FAULT_OUT_PULSE_END. -/
def execFaultOutPulseEnd (s : State) : Host.Outcome State Fault Refusal :=
  done s { s with pins := { s.pins with pulse := false } }

/-- FLT_LOG_CTL.CLEAR: the log is empty, and FLT_LOG_OVF is 0. -/
def State.logClear (s : State) : State := ({ s with flt := { s.flt with log := [] } } : State).setReg FLT_LOG_OVF 0

/-- FAULT_LOG_CLEAR. -/
def execFaultLogClear (s : State) : Host.Outcome State Fault Refusal := doneLive s s.logClear

/-- RING_EN is written 1: refused with a LOG2N outside 4 to 16; from 0 to 1 the record count starts at 0. -/
def State.faultRingOn (s : State) : State :=
  let n := s.fld FLT_RING_LO 8 4
  if s.bit FLT_CTL 1 || decide (n < 4) || decide (16 < n) then s
  else ({ s with flt := { s.flt with ringCount := 0 } } : State).setBit FLT_CTL 1 true

/-- FAULT_RING_ENABLE. -/
def execFaultRingEnable (s : State) : Host.Outcome State Fault Refusal := doneLive s s.faultRingOn

/-! ### Counters (R611, R626) -/

/-- A write of a kind's FLT_CNT, which clears the kind's counters; a reserved kind ignores it. -/
def State.cntWrite (s : State) (kind : Nat) (v : Reg) : State :=
  if (kindOf kind).isNone then s
  else
    let t := s.swWrite (FLT_CNT + 4 * kind) v
    { t with flt := { t.flt with counters := t.flt.counters.filter fun c => c.2.1 ≠ kind } }

/-- FLT_CNT_WRITE. -/
def execFltCntWrite (kind : Nat) (v : Reg) (s : State) : Host.Outcome State Fault Refusal :=
  doneLive s (s.cntWrite kind v)

/-! ### Reset and halt requests (R319, R623) -/

/-- A waterway reset order enters the device's contribution (R319). -/
def State.orderReset (s : State) : State := s.order fun g => { g with reset := true }

/-- FLT_RESET.WW_RESET is written 1. -/
def State.wwReset (s : State) : State := (s.setBit FLT_RESET 31 true).orderReset

/-- FLT_WW_RESET. -/
def execFltWwReset (s : State) : Host.Outcome State Fault Refusal := doneLive s s.wwReset

/-- FLT_RESET.DEV_HALT is written 1: a DEVICE_HALT message. -/
def State.devHalt (s : State) : State :=
  if s.bit FLT_RESET 30 then s
  else ((s.setBit FLT_RESET 30 true).fault (msgOf K_DEVICE_HALT 0 0)).drainAborts

/-- VIRAL_RECEIVE: a FATAL device halt (R454). -/
def execViralReceive (s : State) : Host.Outcome State Fault Refusal :=
  done s (s.fault (msgOf K_VIRAL_RX 7 0)).drainAborts

/-- DEV_HALT. -/
def execDevHalt (s : State) : Host.Outcome State Fault Refusal := doneLive s s.devHalt

/-! ### Injection (R619, R625) -/

/-- A write of FLT_INJ_TILE: with GO, the injection is armed, or refused where TARGET or TILE is reserved. -/
def State.injTile (s : State) (v : Reg) : State :=
  let t := s.swWrite FLT_INJ_TILE v
  let tile := t.fld FLT_INJ_TILE 8 0
  let target := t.fld FLT_INJ_TILE 18 16
  if !v.getLsbD 31 then t
  else if 6 < target ∨ 271 < tile ∨ (t.tile tile).st = .off then t.setBit FLT_INJ_TILE 31 false
  else t.modTile tile fun x => { x with inject := some target }

/-- FLT_INJ_TILE. -/
def execFltInjTile (v : Reg) (s : State) : Host.Outcome State Fault Refusal := doneLive s (s.injTile v)

/-- A write of FLT_INJ_LKP. -/
def State.injLkp (s : State) (v : Reg) : State :=
  let t := s.swWrite FLT_INJ_LKP v
  let k := t.fld FLT_INJ_LKP 4 0
  let target := t.fld FLT_INJ_LKP 9 8
  if !v.getLsbD 31 then t
  else if 2 < target ∨ 23 < k then t.setBit FLT_INJ_LKP 31 false
  else t.modLk k fun x => { x with inject := some target }

/-- FLT_INJ_LKP. -/
def execFltInjLkp (v : Reg) (s : State) : Host.Outcome State Fault Refusal := doneLive s (s.injLkp v)

/-- A write of FLT_INJ_MSG: with GO, a synthetic message goes out at once, or is refused for its class or kind. -/
def State.injMsg (s : State) (v : Reg) : State :=
  let t := s.swWrite FLT_INJ_MSG v
  if !v.getLsbD 31 then t
  else
    let t := t.setBit FLT_INJ_MSG 31 false
    let cls := t.fld FLT_INJ_MSG 26 24
    let kind := t.fld FLT_INJ_MSG 23 16
    if 3 < cls ∨ (kindOf kind).isNone then t.setBit FLT_STAT 10 true
    else
      (t.fault { unit := t.fld FLT_INJ_MSG 15 10, inst := t.fld FLT_INJ_MSG 9 0, kind := kind, cls := cls,
                 inj := true }).drainAborts

/-- FLT_INJ_MSG. -/
def execFltInjMsg (v : Reg) (s : State) : Host.Outcome State Fault Refusal := doneLive s (s.injMsg v)

end Sys2Proof.Machine
end

