-- ==== Sys2Proof/Machine/Bringup.lean ====
section
/-! DEFINITION. Resets, the bring-up steps, the firmware image and discovery (01 R45 to R50, 09 R322 to R325, R340,
R345, 12 R469, 18 R629 to R636). -/

namespace Sys2Proof.Machine

/-! ### What each reset keeps (R469, R629, R630) -/

/-- A tile after a reset that keeps the retirement map: retired, or a spare or free one by the tile map. -/
def resetTile (r : Reach) (q : Nat) (x : Tile) : Tile :=
  let st := if x.st = .retired ∨ x.st = .off then x.st
    else if (r.posOf q).isSome then .free else .spare
  { st := st, service := x.service, clk := min 120 x.service }

/-- The tiles that are listed, after such a reset. -/
def State.resetTiles (s : State) : SMap Tile :=
  (s.tiles.map fun e => (e.1, resetTile (s.reach (e.1 / 17)) (e.1 % 17) e.2)).filter fun e =>
    e.2 ≠ tileDefault s.fuses e.1

/-- The reaches that are listed: only the tile map stays. -/
def State.resetReaches (s : State) : SMap Reach :=
  (s.reaches.map fun e => (e.1, ({ tileMap := e.2.tileMap } : Reach))).filter fun e =>
    e.2 ≠ reachDefault s.fuses e.1

/-- A stack port that training results are stored for waits in self-refresh (R325). -/
def Stack.kept (k : Stack) : Stack :=
  { st := if k.st = .active then .selfRefresh else k.st, fail := k.fail, height := k.height, density := k.density,
    temp := k.temp, tempMax := k.temp, tempLast := k.temp, pcs := k.pcs, margins := k.margins,
    failedMargin := k.failedMargin }

/-- The registers after a warm reset: fields marked W keep their value (R19). -/
def State.warmRegs (s : State) : SMap Reg :=
  s.regs.foldl (fun m e =>
    match regDef s.fuses e.1 with
    | some d => sset (regReset s.fuses e.1) e.1 (warmReg d e.2) m
    | none => m) []

/-- What no reset of the block touches: the fuses, the host's memory, what has been sent out, and the counter of free
values. -/
def State.blank (s : State) : State :=
  { fuses := s.fuses, fresh := s.fresh, host := s.host, out := s.out
    boot := { fwMin := max s.boot.fwMin s.fuses.fwMin } }

/-- What a warm reset and a CXL reset both keep. -/
def State.keepUnits (s : State) : State :=
  { s.blank with
    pins := { s.pins with pulse := false }
    tiles := s.resetTiles
    reaches := s.resetReaches
    lks := (s.lks.filter fun e => e.2.st == .retired).map fun e => (e.1, ({ st := .retired } : Lockkeeper))
    stk := s.stk.map fun e => (e.1, e.2.kept)
    hdm := s.hdm
    basin := { disabled := s.basin.disabled, shr := s.basin.shr }
    boot := { s.blank.boot with fwEverReady := s.boot.fwEverReady, capacity := s.boot.capacity
                                flightStore := s.boot.flightStore } }

/-- The settings that the power side and the collector take from their registers. -/
def State.loadSettings (s : State) : State :=
  { s with power := { s.power with prio := s.fld PWR_CTL 2 0, droop := s.fld PWR_DROOP 23 0 }
           flt := { s.flt with equal := s.bit FLT_CTL 0 } }

/-- The state that a warm reset leaves, before bring-up. -/
def State.warmBase (s : State) : State :=
  let t := s.keepUnits
  ({ t with regs := s.warmRegs
            basin := { t.basin with moor := s.basin.moor }
            boot := { t.boot with store := s.boot.store, fwSize := s.boot.fwSize, fwVersion := s.boot.fwVersion } } :
    State).loadSettings

/-- The state that a CXL reset leaves: the host link stays up. -/
def State.cxlBase (s : State) (memClr : Bool) : State :=
  let t := s.keepUnits
  ({ t with regs := s.regs.filter fun e => e.1 == GLB_SCRATCH
            port := { linkUp := s.port.linkUp }
            hdm := if memClr then {} else t.hdm
            basin := { t.basin with shr := if memClr then [] else t.basin.shr } } : State).loadSettings

/-! ### Steps 2 to 5 -/

/-- A failing tile retires; the reach's spare takes the position it held, if it can (R632). -/
def State.bistTile (s : State) (t : Nat) : State :=
  let p := t / 17
  let x := s.tile t
  if x.st = .off ∨ x.st = .retired then s
  else
    let s := s.setTile t { st := .retired, service := x.service }
    match (s.reach p).posOf (t % 17) with
    | none => s
    | some pos =>
      let q := s.spareOf p
      let s := s.setReach p ((s.reach p).put pos q)
      match q with
      | some n => s.modTile (17 * p + n) fun y => { y with st := .free }
      | none => s

/-- A way that fails its test: a lockkeeper whose L1 fails retires (R388, R389). -/
def State.bistWay (s : State) (w : Bool × Nat × Nat) : State :=
  if !w.1 && decide (32 ≤ w.2.1) then
    let s : State := { s with basin := { s.basin with disabled := s.basin.disabled ++ [w] } }
    if w.2.1 - 32 < 24 then s.setLk (w.2.1 - 32) { st := .retired } else s
  else s.failWay false w.1 w.2.1 w.2.2

/-- What steps 3 and 4 retire or disable; the moor count that a warm reset keeps drops to what the enabled ways
allow (R391). -/
def State.bist (s : State) (b : BistReport) : State :=
  let s := s.setReg FUS_REPAIR (BitVec.ofNat 32 (min b.unrepairable 0xFFFF * 2 ^ 16 + min b.rows 0xFFFF))
  let s := b.tiles.foldl State.bistTile s
  let s := b.lkps.foldl (fun s k => if k < 24 then s.setLk k { st := .retired } else s) s
  let s := (b.ways.filter fun w => !s.basin.disabled.contains w).foldl State.bistWay s
  { s with basin := { s.basin with moor := min s.basin.moor (16 - s.maxDisabled) } }

/-- The lockkeepers that are not retired. -/
def State.goodLks (s : State) : List Nat := (List.range 24).filter fun k => decide ((s.lk k).st ≠ .retired)

/-- Bring-up stops at a step, which writes its number and its code, the same number. -/
def State.bootFail (s : State) (n : Nat) : State := { s with boot := { s.boot with failed := some n } }

/-- A step of bring-up is complete. -/
def State.bootStep (s : State) (n : Nat) : State := { s with boot := { s.boot with step := n } }

/-- The lowest good lockkeeper starts from mask ROM. -/
def State.romStart (s : State) : State :=
  match s.goodLks with
  | k :: _ => s.modLk k fun x => { x with st := .active }
  | [] => s

/-- Berths leave OFF where ENABLE is 1 (R545). -/
def State.berthsStart (s : State) : State :=
  (List.range s.fuses.variant.berths).foldl (fun s b =>
    if s.bit (brtReg b 0x00) 0 then s.berthTo b .training else s) s

/-- Steps 3 to 5. -/
def State.selfTest (s : State) (b : BistReport) : State :=
  let s := (s.bist b).bootStep 3
  if s.goodLks.length < 20 then s.bootFail 4
  else if !b.romOk then (s.bootStep 4).bootFail 5
  else ((s.bootStep 5).romStart).berthsStart

/-! ### Steps 6 and 7: the firmware image (R634 to R636) -/

/-- Codes of LKP_FW_CTL.RESULT (R635). -/
def FW_OK := 0
def FW_READ_ERROR := 1
def FW_TOO_LARGE := 2
def FW_FORMAT := 3
def FW_SIGNATURE := 4
def FW_ROLLBACK := 5
def FW_ROM := 6
def FW_INCOMPATIBLE := 7
def FW_NO_SPARE := 8
def FW_BUSY := 9

/-- Offset of the staging area in the firmware store (R636). -/
def FW_STAGE := 0x400000

/-- Whether every byte of a range is 0. -/
def zeroRange (m : Ram) (a n : Nat) : Bool := (m.read a n).all fun b => b == 0

/-- Whether a role's entry keeps R634: its code lies between the key table and the signature, in 192 KiB. -/
def fwRoleOk (m : Ram) (n r : Nat) : Bool :=
  let a := 0x020 + 16 * r
  let off := m.num a 4
  let size := m.num (a + 4) 4
  decide (0x500 ≤ off) && decide (off + size + 256 ≤ n) && decide (size ≤ 192 * 1024) && zeroRange m (a + 12) 4

/-- Whether an image of IMAGE_SIZE `n` keeps R634. -/
def fwFormatOk (m : Ram) (n : Nat) : Bool :=
  m.num 0x000 4 == 0x57464B4E && m.num 0x004 2 == 1 && n % 256 == 0 && decide (0x600 ≤ n) &&
    decide (1 ≤ m.num 0x016 1) && decide (m.num 0x016 1 ≤ 8) && zeroRange m 0x017 9 && zeroRange m 0x160 160 &&
    zeroRange m (0x200 + 96 * m.num 0x016 1) (96 * (8 - m.num 0x016 1)) &&
    zeroRange m (n - 256) 16 && zeroRange m (n - 144) 144 && (List.range 20).all (fwRoleOk m n)

/-- The first check that a read image of `len` bytes fails, in the table's order; `update` says for what it was
read. -/
def State.fwResult (s : State) (m : Ram) (readOk : Bool) (len : Nat) (update : Bool) : Nat :=
  let n := m.num 0x008 4
  if !readOk || m.poisoned 0 len then FW_READ_ERROR
  else if len ≠ n ∨ 4 * 2 ^ 20 < len then FW_TOO_LARGE
  else if !fwFormatOk m n then FW_FORMAT
  else if !sigOk Config.rootKey m n then FW_SIGNATURE
  else if m.num 0x006 2 < s.boot.fwMin then FW_ROLLBACK
  else if Config.romRevision < m.num 0x014 2 then FW_ROM
  else if update && decide (s.boot.fwVersion < m.num 0x010 4) then FW_INCOMPATIBLE
  else if update && (s.spareLk).isNone then FW_NO_SPARE
  else FW_OK

/-- Roles loaded onto the good cores that are left (R631: onto a good core each). -/
def loadRoles : Nat → Nat → List Nat → List (Nat × Nat)
  | 0, _, _ => []
  | n + 1, r, cores =>
    match cores[Config.rolePick r % cores.length]? with
    | some k => (k, r) :: loadRoles n (r + 1) (cores.filter (· ≠ k))
    | none => []

/-- The running image's roles start, and FW_READY is set. -/
def State.startFirmware (s : State) : State :=
  let s := s.goodLks.foldl (fun s k => s.setLk k { s.lk k with st := .spare, role := none }) s
  let s := (loadRoles 20 0 s.goodLks).foldl (fun s e => s.startRole e.1 e.2) s
  { s with boot := { s.boot with fwReady := true, fwEverReady := true } }

/-- A warm reset's step 7: the running image of the firmware store is verified again. -/
def State.reloadFirmware (s : State) : State :=
  if s.boot.fwReady || s.boot.fwSize == 0 then s
  else
    let r := s.fwResult (s.boot.store.cut 0 s.boot.fwSize) true s.boot.fwSize false
    if r = FW_OK then s.startFirmware else s.setFld LKP_FW_CTL 3 0 r

/-! ### Steps 8 to 11 -/

/-- Stacks with stored training results return to service. -/
def State.stacksBack (s : State) : State :=
  { s with stk := s.stk.map fun e => (e.1, if e.2.st = .selfRefresh then { e.2 with st := .active } else e.2)
           port := { s.port with memActive := true } }

/-- Whether a stack has been trained. -/
def State.stacksTrained (s : State) : Bool := s.stk.any fun e => e.2.st == .active || e.2.st == .selfRefresh

/-- Canal training of every fused port whose ENABLE is 1. -/
def State.canalsStart (s : State) : State :=
  (List.range s.fuses.variant.canals).foldl (fun s p =>
    if s.mayTrain p && decide ((s.canal p).st = .disabled) then s.portTo p .training else s) s

/-- Whether a port's part in step 9 is over: ACTIVE, RETIRED, past a failed DETECT, or not enabled. -/
def State.canalSettled (s : State) (p : Nat) : Bool :=
  let c := s.canal p
  match c.st with
  | .training | .retrain => c.fail == 1
  | _ => true

/-- What joining clears: holdover, absence, candidacy, and a device fault flag whose cause, the loss of time, has
passed (R313, R318). -/
def State.joins (s : State) (lm : Nat) : State :=
  { s with
    ww := { s.ww with joined := true, timed := true, discovering := false, holdover := false, lm := some lm, lmAbsent := 0
                      candidate := false, ownFault := false, expired := none, syncAt := 0, frac := 0 }
    flt := { s.flt with reactions := s.flt.reactions.filter fun r => decide (r.2 ≠ .deviceFault) }
    gate := {} }

/-- The first lock of a waterway is that of pound 0, a multiple of every divisor (R59). -/
def State.firstLockIrq (s : State) : State := if s.fld TCK_LOCK_IRQ 15 0 = 0 then s else s.irq 0

/-- The device as a waterway of one, its own lockmaster (R50). -/
def State.joinAlone (s : State) : State :=
  let first := !s.ww.timed
  let s := s.joins 0
  let s := ({ s with
    ww := { s.ww with index := 0, coord := (0, 0, 0, 0), shape := (1, 1, 1, 1), otherMin := 10, faults := [], newFaults := []
                      epoch := if first then s.ww.time else s.ww.epoch
                      lockTime := if first then s.ww.time else s.ww.lockTime
                      pound := if first then 0 else s.ww.pound } } : State).gateMin
  if first then s.firstLockIrq else s

/-- The steps that have nothing more to wait for (fuel: steps left). -/
def State.bootOn (s : State) : Nat → State
  | 0 => s
  | fuel + 1 =>
    if s.boot.failed.isSome || s.boot.safe then s
    else
      match s.boot.step with
      | 5 => if s.port.linkUp then (s.bootStep 6).reloadFirmware.bootOn fuel else s
      | 6 => if s.boot.fwReady then (s.bootStep 7).bootOn fuel else s
      | 7 => if s.pins.pgMem && s.stacksTrained then (s.stacksBack.bootStep 8).bootOn fuel else s
      | 8 =>
        if !s.pins.pgLink then s
        else
          let s := s.canalsStart
          if (List.range s.fuses.variant.canals).all s.canalSettled then (s.bootStep 9).bootOn fuel else s
      | 9 =>
        if !s.bit TCK_CTL 0 then (s.joinAlone.bootStep 10).bootOn fuel
        else { s with ww := { s.ww with discovering := true } }
      | 10 => if s.ww.joined ∧ s.ww.pound ≠ 0 then s else s.firstPublish.bootStep 11
      | _ => s

/-- Bring-up goes on. -/
def State.bringUp (s : State) : State := s.bootOn 8

/-! ### Reset commands -/

/-- COLD_RESET: all state is cleared, the fuses are loaded (step 2), and bring-up runs as far as it can. -/
def execColdReset (b : BistReport) (s : State) : Host.Outcome State Fault Refusal :=
  let t := s.blank.bootStep 1
  done s (if !b.fuseParityOk then t.bootFail 2 else ((t.bootStep 2).selfTest b).bringUp)

/-- WARM_RESET: it does not leave safe state (R613). -/
def execWarmReset (b : BistReport) (s : State) : Host.Outcome State Fault Refusal :=
  doneLive s ((s.warmBase.bootStep 2).selfTest b).bringUp

/-- CXL_RESET. -/
def execCxlReset (memClr : Bool) (b : BistReport) (s : State) : Host.Outcome State Fault Refusal :=
  doneLive s (((s.cxlBase memClr).bootStep 2).selfTest b).bringUp

/-- HOST_LINK_UP. -/
def execHostLinkUp (s : State) : Host.Outcome State Fault Refusal :=
  doneLive s ({ s with port := { s.port with linkUp := true } } : State).bringUp

/-! ### Firmware commands -/

/-- The write of LKP_FW_CTL with GO: the read of the image starts; during an update the request is refused with
BUSY. -/
def State.firmwareLoad (s : State) (v : Reg) (mode : Nat) : State :=
  if s.bit LKP_FW_CTL 31 then s
  else
    let s := s.swWrite LKP_FW_CTL (putBits (putBits v 31 31 1) 8 8 mode)
    if s.boot.update.isSome then (s.setFld LKP_FW_CTL 3 0 FW_BUSY).setBit LKP_FW_CTL 31 false
    else { s with boot := { s.boot with reading := some mode } }

/-- FIRMWARE_BOOT_LOAD. -/
def execFirmwareBootLoad (v : Reg) (s : State) : Host.Outcome State Fault Refusal := doneLive s (s.firmwareLoad v 0)

/-- FIRMWARE_UPDATE. -/
def execFirmwareUpdate (v : Reg) (s : State) : Host.Outcome State Fault Refusal := doneLive s (s.firmwareLoad v 1)

/-- The image that was read. -/
def State.fwRead (s : State) (len : Nat) : Ram :=
  s.host.cut ((s.reg LKP_FW_ADDR_HI).toNat * 2 ^ 32 + (s.reg LKP_FW_ADDR_LO).toNat) len

/-- The staging area takes the bytes that were read, as far as it reaches. -/
def State.stage (s : State) (m : Ram) (len : Nat) : State :=
  { s with boot := { s.boot with store := .lay [(0, s.boot.store.cut 0 FW_STAGE), (FW_STAGE, m.cut 0 (min len FW_STAGE)),
      (2 * FW_STAGE, s.boot.store.cut (2 * FW_STAGE) 0x800000)] } }

/-- What a verified image does: at step 7 it becomes the running image and the roles start; for an update the first
role moves at the next lock. -/
def State.fwAccepted (s : State) (mode : Nat) : State :=
  if mode = 1 then { s with boot := { s.boot with update := some (0, 0), updDone := 0, updCore := none } }
  else if s.boot.step = 6 ∧ s.boot.failed = none then s.runStaged.startFirmware.bringUp
  else s

/-- FIRMWARE_CHECK_DONE. -/
def State.firmwareChecked (s : State) (readOk : Bool) : State :=
  match s.boot.reading with
  | none => s
  | some mode =>
    let len := s.fld LKP_FW_LEN 22 0
    let m := s.fwRead len
    let r := s.fwResult m readOk len (mode == 1)
    let s := ({ s with boot := { s.boot with reading := none, stagedSize := len } } : State).stage m len
    let s := (s.setFld LKP_FW_CTL 3 0 r).setBit LKP_FW_CTL 31 false
    if r = FW_OK then s.fwAccepted mode else s

/-- FIRMWARE_CHECK_DONE. -/
def execFirmwareCheckDone (readOk : Bool) (s : State) : Host.Outcome State Fault Refusal :=
  doneLive s (s.firmwareChecked readOk)

/-! ### Stack training (R322 to R325, R340, R345) -/

/-- Codes of STK_STAT.FAIL_REASON (R351). -/
def STK_NO_STACK := 1
def STK_UNSUPPORTED := 2
def STK_MIXED := 3
def STK_TRAINING := 4
def STK_INIT := 5

/-- Capacity of a population in GiB (R322). -/
def popGib (dies density : Nat) : Nat := if density = 0 then 3 * dies else 4 * dies

/-- Whether R322 lists a population. -/
def popKnown (dies density : Nat) : Bool := [4, 8, 12, 16].contains dies && decide (density ≤ 1)

/-- The report of a port. -/
def reportOf (rs : List StackReport) (n : Nat) : Option StackReport := rs.find? fun r => r.port == n && r.present

/-- Whether population `a` comes before `b`: more ports, then the larger capacity. -/
def popBefore (count : Nat × Nat → Nat) (a b : Nat × Nat) : Bool :=
  decide (count b < count a) ||
    (count a == count b &&
      (decide (popGib b.1 b.2 < popGib a.1 a.2) ||
        (popGib a.1 a.2 == popGib b.1 b.2 && a.1 != b.1 && (decide (b.1 < a.1) == Config.tallerStacks))))

/-- Whether a port may train: fused, with ENABLE (R350). -/
def State.stackTrains (s : State) (n : Nat) : Bool := s.fuses.stackFused n && s.bit (stkReg n 0x00) 0

/-- The population that most of the ports that train report. -/
def State.majority (s : State) (rs : List StackReport) : Option (Nat × Nat) :=
  let pops := (List.range 32).filterMap fun n =>
    if s.stackTrains n then
      match reportOf rs n with
      | some r => if popKnown r.dies r.density then some (r.dies, r.density) else none
      | none => none
    else none
  let count (p : Nat × Nat) : Nat := (pops.filter (· == p)).length
  pops.foldl (fun b p =>
    match b with
    | none => some p
    | some q => if popBefore count p q then some p else some q) none

/-- Why a port fails training, or 0. -/
def trainFail (pop : Option (Nat × Nat)) : Option StackReport → Nat
  | none => STK_NO_STACK
  | some r =>
    if !popKnown r.dies r.density then STK_UNSUPPORTED
    else if pop ≠ some (r.dies, r.density) then STK_MIXED
    else if !r.trains then STK_TRAINING
    else if !r.initOk then STK_INIT
    else 0

/-- Pseudo-channels that training retires: those of unrepaired rows, and those of channels that fail their margins. -/
def retiredBy (r : StackReport) : List Nat :=
  r.pprFail ++ ((r.margins.filter fun m => !marginPasses m.2).flatMap fun m => [2 * m.1, 2 * m.1 + 1])

/-- One port after its training. -/
def State.trainPort (s : State) (pop : Option (Nat × Nat)) (rs : List StackReport) (n : Nat) : State :=
  let r := reportOf rs n
  let f := trainFail pop r
  match r with
  | some x =>
    if f = 0 then
      let s := s.setStack n { st := .active, height := x.dies / 4, density := x.density
                              temp := (s.stack n).temp, tempMax := (s.stack n).temp, tempLast := (s.stack n).temp
                              pcs := ((retiredBy x).filter (· < 64)).foldl (fun m k => sset .ok k .retired m) (s.stack n).pcs
                              margins := x.margins.foldl (fun m e => sput e.1 e.2 m) []
                              failedMargin := (x.margins.filter fun m => !marginPasses m.2).map Prod.fst }
      let s := if x.pprFail.isEmpty then s else s.setBit (stkReg n 0x34) 6 true
      if x.margins.all fun m => marginPasses m.2 then s else s.setBit (stkReg n 0x34) 8 true
    else (s.setStack n { st := .failed, fail := f, height := x.dies / 4, density := x.density
                         temp := (s.stack n).temp }).setBit (stkReg n 0x34) 8 true
  | none => (s.setStack n { st := .failed, fail := f }).setBit (stkReg n 0x34) 8 true

/-- STACK_TRAINING: every fused port whose ENABLE is 1 trains, the stacks are written with zero, and bring-up goes on, or step 8
fails. -/
def State.trainStacks (s : State) (rs : List StackReport) : State :=
  if s.boot.step ≠ 7 ∨ s.boot.failed.isSome ∨ !s.pins.pgMem then s
  else
    let pop := s.majority rs
    let s := ((List.range 32).filter s.stackTrains).foldl (fun s n => s.trainPort pop rs n) s
    match pop with
    | some p =>
      let s : State := { s with hdm := {}, boot := { s.boot with capacity := popGib p.1 p.2 * 2 ^ 30 } }
      if s.stacksTrained then s.bringUp else s.bootFail 8
    | none => s.bootFail 8

/-- STACK_TRAINING. -/
def execStackTraining (reports : List StackReport) (s : State) : Host.Outcome State Fault Refusal :=
  doneLive s (s.trainStacks reports)

/-! ### Canal training in bring-up (R631 step 9) -/

/-- CANAL_TRAINING. -/
def execCanalTraining (port : Nat) (r : TrainReport) (s : State) : Host.Outcome State Fault Refusal :=
  doneLive s (s.train port r).bringUp

/-- TRAINING_STEP_TIMEOUT: the step's limit passes, and the attempt fails with its reason. -/
def execTrainingStepTimeout (port : Nat) (step : TrainStep) (s : State) : Host.Outcome State Fault Refusal :=
  doneLive s (if s.trains port ∧ 1 ≤ step.step ∧ step.step ≤ 8 then (s.trainTimeout port step.step step.report).bringUp
    else s)

/-! ### Discovery (R45 to R50, R319, R633) -/

/-- The winner of the election: the highest priority that is not 0, then the lowest index. -/
def electedOf (own : Nat × Nat) (others : List (Nat × Nat)) : Option (Nat × Nat) :=
  (own :: others).foldl (fun b d =>
    if d.2 = 0 then b
    else
      match b with
      | none => some d
      | some x => if x.2 < d.2 ∨ (x.2 = d.2 ∧ d.1 < x.1) then some d else some x) none

/-- Four extents or coordinates, dimension a first. -/
abbrev Quad4 := Nat × Nat × Nat × Nat

/-- A function of two quadruples, dimension by dimension. -/
def quadMap (f : Nat → Nat → Nat) (a b : Quad4) : Quad4 :=
  (f a.1 b.1, f a.2.1 b.2.1, f a.2.2.1 b.2.2.1, f a.2.2.2 b.2.2.2)

/-- The largest shape of a variant, as GLB_ID codes it (R3). -/
def largestShape (variant : Nat) : Quad4 :=
  if variant = 0 then (8, 8, 4, 4) else if variant = 1 then (8, 8, 4, 1) else (4, 4, 4, 1)

/-- The variants present: this device's, those that discovery reaches, and those of its trained neighbours. -/
def State.variantsSeen (s : State) (d : DiscoveryReport) : List Nat :=
  s.fuses.variant.code :: (d.variants ++ (s.canals.filter fun e => e.2.peerValid).map fun e => e.2.peerVariant)

/-- The shape that the device joins in: what discovery reports, within the largest shape of the smallest variant present
(R4). -/
def State.joinShape (s : State) (d : DiscoveryReport) : Quad4 :=
  (s.variantsSeen d).foldl (fun q v => quadMap min q (largestShape v)) d.shape

/-- The device's coordinates: 0 where they would lie outside the shape (R3). -/
def State.joinCoord (s : State) (d : DiscoveryReport) : Quad4 :=
  quadMap (fun e x => if x < e then x else 0) (s.joinShape d) d.coord

/-- The device index of its coordinates (R3). -/
def State.joinIndex (s : State) (d : DiscoveryReport) : Nat :=
  let c := s.joinCoord d
  indexOf [c.1, c.2.1, c.2.2.1, c.2.2.2]

/-- The device joins: its place, the lockmaster, and a gate that starts afresh. -/
def State.join (s : State) (d : DiscoveryReport) (lm : Nat) : State :=
  let index := s.joinIndex d
  let coord := s.joinCoord d
  let shape := s.joinShape d
  let s := s.joins lm
  let s : State := { s with ww := { s.ww with index := index, coord := coord, shape := shape, faults := [], newFaults := []
                                              otherMin := d.otherMin } }
  (s.chooseUpstream).gateMin

/-- A device that joins a running waterway adopts its epoch, slip, pound counter and settings (R46). -/
def State.joinRunning (s : State) (d : DiscoveryReport) (epoch slip pound len lead lm : Nat) : State :=
  let t := epoch + pound * (100 * len) + slip
  let s : State := { s with ww := { s.ww with epoch := epoch, slip := slip, pound := pound, time := t, lockTime := t } }
  ((s.setFld TCK_PLEN 9 0 len).setFld TCK_GATE 6 0 lead).join d lm

/-- A first election: the winner's first lock begins pound 0 (R46); where the waterway had time lock before, the
winner keeps its time, epoch, slip and pound counter (R319). -/
def State.joinNew (s : State) (d : DiscoveryReport) (lm : Nat) : State :=
  if s.ww.timed && lm == s.joinIndex d then s.join d lm
  else
    (({ s with ww := { s.ww with epoch := d.firstLock, slip := 0, pound := 0, time := d.firstLock
                                 lockTime := d.firstLock } } : State).join d lm).firstLockIrq

/-- After the device has joined, step 10 is complete. At the lock that begins pound 0 the Waybill is published or
follows; a device that joins while a pound runs changes it at the next lock (R12). -/
def State.joined_ (s : State) : State :=
  let s := if s.boot.step = 9 then s.bootStep 10 else s
  if s.ww.pound = 0 then s.lockWaybill else s

/-- WATERWAY_DISCOVERY. While the device is joined, a report brings the gate leads that other devices now need: no gate
item carries them, and the spec names no other way (DESIGN CHOICE: log entry 75). -/
def State.discover (s : State) (d : DiscoveryReport) : State :=
  if s.boot.step < 9 then s
  else if s.ww.joined then ({ s with ww := { s.ww with otherMin := d.otherMin } } : State).gateMin
  else if !s.bit TCK_CTL 0 then s.joinAlone.joined_
  else
    match d.running with
    | some (epoch, slip, pound, len, lead, lm) => (s.joinRunning d epoch slip pound len lead lm).joined_
    | none =>
      match electedOf (s.joinIndex d, s.fld TCK_CTL 15 8) d.others with
      | some w => (s.joinNew d w.1).joined_
      | none => { s with ww := { s.ww with discovering := true } }

/-- WATERWAY_DISCOVERY. -/
def execWaterwayDiscovery (d : DiscoveryReport) (s : State) : Host.Outcome State Fault Refusal :=
  doneLive s (s.discover d)

/-- DISCOVERY_TIMEOUT: step 10 completes without time lock, and discovery goes on. -/
def execDiscoveryTimeout (s : State) : Host.Outcome State Fault Refusal :=
  doneLive s (if s.boot.step = 9 ∧ s.boot.failed = none then (s.bootStep 10).bringUp else s)

end Sys2Proof.Machine
end

