-- ==== Sys2Proof/Machine/ConfigWrite.lean ====
section
/-! DEFINITION. Writes of configuration space and of the CXL component registers (12 R441 to R447, R450, R453, R456, R457,
R463, R467, R470, R475). A write that starts what a row of the table names (bus mastering, D3hot, FLR, a cache flush, a
decoder commit) has that row's effect. -/

namespace Sys2Proof.Machine

/-- Messages that wait for a mask go out once nothing masks them (R475). -/
def State.sendUnmasked (s : State) : State :=
  (s.port.pendingVec.filter fun v => !s.vecMasked v).foldl (fun s v =>
    ({ s with port := { s.port with pendingVec := s.port.pendingVec.filter (· ≠ v) } } : State).sendVec v) s

/-- The stored bits of a dword. -/
def State.cfgStore (s : State) (off new : Nat) : State :=
  { s with port := { s.port with cfg := sset (cfgReset off) off (BitVec.ofNat 32 (new &&& cfgMask off)) s.port.cfg } }

/-- The Command register: Memory Space Enable, Bus Master Enable, Parity Error Response and SERR# Enable. -/
def State.cfgCommand (s : State) (v : Nat) : State :=
  let s : State := { s with port := { s.port with memSpace := bitOf v 1, per := bitOf v 6, serr := bitOf v 8 } }
  if bitOf v 2 = s.port.busMaster then s else s.setBusMaster (bitOf v 2)

/-- The power state. -/
def State.cfgPower (s : State) (v : Nat) : State :=
  if bitsOf v 1 0 = 3 ∧ !s.port.d3hot then s.setD3hot true
  else if bitsOf v 1 0 = 0 ∧ s.port.d3hot then s.setD3hot false
  else s

/-- MSI control: enable and number of messages. -/
def State.cfgMsi (s : State) (v : Nat) : State :=
  ({ s with port := { s.port with msiEn := bitOf v 16, msiCount := 2 ^ min 5 (bitsOf v 22 20) } } : State).sendUnmasked

/-- MSI-X control: enable and function mask. -/
def State.cfgMsix (s : State) (v : Nat) : State :=
  ({ s with port := { s.port with msixEn := bitOf v 31, funcMask := bitOf v 30 } } : State).sendUnmasked

/-- Device Control: the largest read request, and an FLR. -/
def State.cfgDevCtl (s : State) (v : Nat) : State :=
  let s : State := { s with port := { s.port with mrrs := min 4096 (128 * 2 ^ bitsOf v 14 12) } }
  if bitOf v 15 then s.flr else s

/-- Errors whose status bits software clears; the header of the first error goes with it, and the next one shows. -/
def State.cfgAerClear (s : State) (corr : Bool) (v : Nat) : State :=
  let gone (e : AerErr) : Bool := e.place.1 == corr && bitOf v e.place.2
  let hs := match s.port.aerFirst with
    | some e => if gone e then s.port.aerHeaders.drop 1 else s.port.aerHeaders
    | none => s.port.aerHeaders
  { s with port := { s.port with aer := s.port.aer.filter fun e => !gone e, aerHeaders := hs, aerFirst := hs.head? } }

/-- The CXL control register. -/
def State.cfgCxl (s : State) (v : Nat) : State :=
  let s : State := { s with port := { s.port with viralEn := bitOf v 14 } }
  if bitOf v 0 = s.port.cacheEn then s else s.cacheEnable (bitOf v 0)

/-- A dword of configuration space with its new value `v`; `wr` holds the bits that the write carries, for registers
that clear by ones. Initiate CXL Reset is the row CXL_RESET, which carries what the reset's tests find. -/
def State.cfgDword (s : State) (off v wr : Nat) : State :=
  match off with
  | 0x04 => s.cfgCommand v
  | 0x44 => s.cfgPower v
  | 0x50 => s.cfgMsi v
  | 0x60 => ({ s with port := { s.port with msiMasked := (List.range 32).filter fun i => bitOf v i } } : State).sendUnmasked
  | 0x78 => (s.cfgStore 0x78 v).cfgDevCtl v
  | 0x98 => { s with port := { s.port with ctoValue := bitsOf v 3 0, tag10 := bitOf v 12 } }
  | 0xB0 => s.cfgMsix v
  | 0x104 => s.cfgAerClear false wr
  | 0x110 => s.cfgAerClear true wr
  | 0x2C8 => { s with port := { s.port with tag14 := bitOf v 2 } }
  | 0x38C => (s.cfgStore 0x38C v).cfgCxl v
  | 0x390 => let s := s.cfgStore 0x390 v; if bitOf wr 1 then s.cacheFlush else s
  | _ => if cfgMask off = 0 then s else s.cfgStore off v

/-- A write of some bytes of a dword of configuration space: the other bytes keep their value. -/
def State.cfgWrite (s : State) (off size : Nat) (v : Word) : State :=
  let d := off / 4 * 4
  let sh := 8 * (off % 4)
  let mask := (2 ^ (8 * size) - 1) * 2 ^ sh % 2 ^ 32
  let wr := v.toNat * 2 ^ sh &&& mask
  s.cfgDword d (((s.cfgRead d).toNat &&& (2 ^ 32 - 1 - mask)) ||| wr) wr

/-! ### Component registers -/

/-- A stored component register. -/
def State.compStore (s : State) (cap rel v : Nat) : State :=
  let key := compKey cap rel
  { s with port := { s.port with cfg := sset (cfgReset key) key (BitVec.ofNat 32 v) s.port.cfg } }

/-- A commit of decoder `d` from its stored registers. -/
def State.compCommit (s : State) (d v : Nat) : State :=
  let r (o : Nat) : Nat := s.port.cfgReg (compKey 5 (0x10 + 0x20 * d + o))
  s.decoderCommit d (r 0x00 + 2 ^ 32 * r 0x04) (r 0x08 + 2 ^ 32 * r 0x0C) (r 0x14 + 2 ^ 32 * r 0x18)
    (2 ^ bitsOf v 7 4) (256 * 2 ^ bitsOf v 3 0) (bitOf v 8)

/-- A 32-bit write of the component registers' block (R446, R447, R450). The registers of a committed decoder do not
change. -/
def State.compWrite (s : State) (off : Nat) (v : Reg) : State :=
  if off < COMP + 0x18 ∨ 0x110000 ≤ off then s
  else
    match compPlace (off - COMP) with
    | some (2, 0) => if v.getLsbD 14 then { s with port := { s.port with rasUncorr := false } } else s
    | some (12, 4) => { s with port := { s.port with biEnable := v.getLsbD 1 } }
    | some (5, rel) =>
      if rel = 4 then s.compStore 5 4 (v.toNat % 4)
      else if rel < 0x10 then s
      else
        let d := (rel - 0x10) / 0x20
        if 4 ≤ d ∨ d < s.port.decoders.length then s
        else
          let o := (rel - 0x10) % 0x20
          if o = 0x10 then
            let s := s.compStore 5 rel (v.toNat % 2 ^ 9)
            if v.getLsbD 9 then s.compCommit d v.toNat else s
          else if o ≤ 0x18 then s.compStore 5 rel (if o % 8 = 0 then v.toNat / 2 ^ 28 * 2 ^ 28 else v.toNat)
          else s
    | _ => s

end Sys2Proof.Machine
end

