-- ==== Sys2Proof/Machine/Towpath.lean ====
section
/-! DEFINITION. The towpath's requests (16 R574, 18 R643) and the control of translation (14 R519, R541). -/

namespace Sys2Proof.Machine

/-! ### The towpath (R643) -/

/-- Request codes and status codes. -/
def TP_STATUS := 0x01
def TP_CLOCKS := 0x02
def TP_TEMPS := 0x03
def TP_LIMITS := 0x04
def TP_POWER := 0x05
def TP_SET_LEASE := 0x10
def TP_WW_RESET := 0x11
def TP_OK := 0
def TP_BAD_REQUEST := 1
def TP_NOT_READY := 2
def TP_SAFE := 3

/-- A reply. -/
def State.reply (s : State) (code status : Nat) (bytes : List Byte) : State := s.emit (.towpath code status bytes)

/-- A request that the hardware responder serves too. -/
def State.served (s : State) (code : Nat) (bytes : List Byte) : State :=
  s.reply code (if s.boot.safe then TP_SAFE else TP_OK) bytes

/-- A request that only role 16 serves: the hardware responder refuses it. -/
def State.role16 (s : State) (code : Nat) (act : State → State) : State :=
  if !s.boot.fwReady || s.boot.safe then s.reply code TP_NOT_READY [] else act s

/-- GET_STATUS. -/
def State.statusBytes (s : State) : List Byte :=
  toLe 4 (s.glbView GLB_ID).toNat ++ toLe 4 (s.glbView GLB_STATUS).toNat ++ toLe 1 (bnat s.boot.safe) ++
    toLe 1 (bnat s.pins.thermtripOut) ++ toLe 2 0 ++ toLe 8 s.poundNow

def execGetStatus (s : State) : Host.Outcome State Fault Refusal := done s (s.served TP_STATUS s.statusBytes)

/-- The planned clocks of a reach's BOUND tiles. -/
def State.plannedClocks (s : State) (p : Nat) : List Nat :=
  s.tiles.filterMap fun e =>
    match e.2.flight with
    | some (k, f) =>
      if e.1 / 17 = p ∧ e.2.st = .bound then some (planClock (s.flight k).image (s.flight k).variant f) else none
    | none => none

/-- A reach's entry of GET_CLOCKS: an inactive reach has none of it. -/
def State.clockBytes (s : State) (n p : Nat) : List Byte :=
  if !s.fuses.reachActive p then List.replicate 4 0
  else
    match s.plannedClocks p with
    | [] => toLe 1 (s.ceil p) ++ [Config.idleClock n (2 * p), Config.idleClock n (2 * p + 1), 0]
    | c :: cs => toLe 1 (s.ceil p) ++ toLe 1 (cs.foldl max c) ++ toLe 1 (cs.foldl min c) ++ [0]

/-- GET_CLOCKS. -/
def execGetClocks (s : State) : Host.Outcome State Fault Refusal :=
  done s (s.role16 TP_CLOCKS fun s =>
    let d := s.draw
    d.2.reply TP_CLOCKS TP_OK ((List.range 16).flatMap (s.clockBytes d.1)))

/-- GET_TEMPS: junction readings by reach, then readings by stack port. -/
def State.tempBytes (s : State) : List Byte :=
  (List.range 16).flatMap (fun p => toLe 1 (s.fld (PWR_REACH + 4 * p) 31 24)) ++
    (List.range 32).flatMap fun n => toLe 1 (min 255 (s.stack n).temp)

def execGetTemps (s : State) : Host.Outcome State Fault Refusal := done s (s.served TP_TEMPS s.tempBytes)

/-- A lease as GET_LIMITS gives it: its power, and the whole microseconds that remain. -/
def State.leaseBytes (s : State) (l : Option Lease) : List Byte :=
  match l, s.leaseLive l with
  | some x, some w => toLe 4 w ++ toLe 4 ((x.start + x.dur - s.ww.time) / 1000)
  | _, _ => List.replicate 8 0

/-- GET_LIMITS. -/
def State.limitBytes (s : State) : List Byte :=
  toLe 4 (s.reg PWR_THERM).toNat ++ toLe 2 s.powerFloor ++ toLe 2 (s.fld PWR_BASE 11 0) ++ toLe 2 s.cap ++
    s.leaseBytes s.power.drv ++ s.leaseBytes s.power.tow

def execGetLimits (s : State) : Host.Outcome State Fault Refusal :=
  done s (s.role16 TP_LIMITS fun s => s.reply TP_LIMITS TP_OK s.limitBytes)

/-- GET_POWER. -/
def State.powerBytes (s : State) : List Byte :=
  toLe 2 (s.fld PWR_MEAS0 10 0) ++ toLe 2 (s.fld PWR_MEAS0 26 16) ++ toLe 2 (s.fld PWR_MEAS1 10 0) ++
    toLe 2 (s.fld PWR_MEAS1 27 16)

def execGetPower (s : State) : Host.Outcome State Fault Refusal :=
  done s (s.role16 TP_POWER fun s => s.reply TP_POWER TP_OK s.powerBytes)

/-- SET_LEASE: the towpath lease is granted or revoked, or the request is refused and changes nothing (R574). -/
def execSetLease (watts durUs : Nat) (s : State) : Host.Outcome State Fault Refusal :=
  done s (s.role16 TP_SET_LEASE fun s =>
    if leaseOk watts durUs && (watts == 0 || decide (durUs < 2 ^ 32)) then
      (s.setLease true watts durUs).reply TP_SET_LEASE TP_OK []
    else s.reply TP_SET_LEASE TP_BAD_REQUEST [])

/-- WW_RESET: a waterway reset order (R319). -/
def execWwReset (s : State) : Host.Outcome State Fault Refusal :=
  done s (s.role16 TP_WW_RESET fun s => s.orderReset.reply TP_WW_RESET TP_OK [])

/-! ### Translation (R519, R539, R541) -/

/-- Whether the pool keeps R519. -/
def State.poolOk (s : State) : Bool :=
  decide (3 ≤ s.poolPages) && decide (s.poolBase + 4096 * s.poolPages ≤ s.range1)

/-- Whether a ring's LOG2N lies from 4 to 16. -/
def State.xrSizeOk (s : State) (r : XltRing) : Bool := decide (4 ≤ s.xrLog2n r) && decide (s.xrLog2n r ≤ 16)

/-- XLT_ENABLE: every root pointer is written invalid and every other page is free, or EN stays 0. -/
def State.xltEnable (s : State) : State :=
  if s.xltOn then s
  else if !s.poolOk then s.setBit XLT_ERR 5 true
  else if !(s.xrSizeOk frRing && s.xrSizeOk hrRing) then s
  else
    let s : State := { s with xlt := { s.xlt with alloc := [] } }
    (s.ncWrite false s.poolBase 0 (List.replicate 8192 (0, false)) none).setBit XLT_CTL 0 true

/-- XLT_ENABLE. -/
def execXltEnable (s : State) : Host.Outcome State Fault Refusal := doneLive s s.xltEnable

/-- XLT_DISABLE: every cached translation is discarded, and the posted-fault set is empty. -/
def State.xltDisable (s : State) : State :=
  ({ s with xlt := { s.xlt with tlb := [], posted := [] } } : State).setBit XLT_CTL 0 false

/-- XLT_DISABLE. -/
def execXltDisable (s : State) : Host.Outcome State Fault Refusal := doneLive s s.xltDisable

/-- XLT_INJ_TLB_PARITY: the next TLB entry filled has bad parity. -/
def execXltInjTlbParity (s : State) : Host.Outcome State Fault Refusal := doneLive s (s.setBit XLT_INJ 0 true)

end Sys2Proof.Machine
end

