-- ==== Sys2Proof/Machine/RegWrite.lean ====
section
/-! DEFINITION. A write of any BAR0 register, with the behaviour that its block gives it, and the commands that carry an
access of the host, of a berth or of a lockkeeper (00 R7, R9 to R12, 11 R428, 12 R441 to R446, R460 to R462, 13 R512, 15
R546, R565). -/

namespace Sys2Proof.Machine

/-! ### Blocks -/

/-- Writes of the FLT block (R621 to R626). -/
def State.fltWrite (s : State) (off : Nat) (v : Reg) : State :=
  if off = FLT_CTL then
    let s := s.swWrite FLT_CTL (putBits v 1 1 (bnat (s.bit FLT_CTL 1)))
    if v.getLsbD 1 then s.faultRingOn else s.setBit FLT_CTL 1 false
  else if off = FLT_RESET then
    let s := if v.getLsbD 31 then s.wwReset else s
    if v.getLsbD 30 then s.devHalt else s
  else if off = FLT_LOG_CTL then (if v.getLsbD 31 then s.logClear else s)
  else if off = FLT_INJ_TILE then s.injTile v
  else if off = FLT_INJ_LKP then s.injLkp v
  else if off = FLT_INJ_MSG then s.injMsg v
  else if FLT_CNT ≤ off ∧ off < FLT_LOG then s.cntWrite ((off - FLT_CNT) / 4) v
  else s.swWrite off v

/-- A ring setup register of the selected ring, while that ring is not enabled (R512). -/
def Ring.setup (x : Ring) (off : Nat) (v : Reg) : Ring :=
  let lo (old : Nat) (n : Nat) : Nat := old / 2 ^ 32 * 2 ^ 32 + n
  let hi (old : Nat) : Nat := v.toNat * 2 ^ 32 + old % 2 ^ 32
  if off = RNG_BASE_LO then { x with base := lo x.base (v.toNat / 4096 * 4096), locDpa := v.getLsbD 0 }
  else if off = RNG_BASE_HI then { x with base := hi x.base }
  else if off = RNG_SIZE then
    { x with vecEn := v.getLsbD 31, vec := bitsOf v.toNat 26 16, log2n := bitsOf v.toNat 4 0 }
  else if off = RNG_DB_LO then { x with db := lo x.db (v.toNat / 8 * 8) }
  else if off = RNG_DB_HI then { x with db := hi x.db }
  else x

/-- Writes of the RNG block (R510 to R514). -/
def State.rngWrite (s : State) (off : Nat) (v : Reg) : State :=
  let c := s.selCtx
  let r := s.selRing
  let x := s.ring c r
  if off = RNG_CTL then (s.swWrite off v).resettle
  else if off = RNG_CTX_CTL then
    (if 8 < r ∨ s.ctxGo c then s else if v.getLsbD 31 then s.ctxCmd (bitsOf v.toNat 26 24) else s.swWrite off v)
  else if off = RNG_RCTL then
    (if v.getLsbD 0 then s.ringEnable else s.ringDisable)
  else if RNG_BASE_LO ≤ off ∧ off ≤ RNG_DB_HI then
    (if 8 < r then s
     else if x.enable then (if x.setup off v = x then s else s.logRwq off)
     else s.setRing c r (x.setup off v))
  else s.swWrite off v

/-- Writes of the CMX block (R401 to R409). -/
def State.cmxWrite (s : State) (off : Nat) (v : Reg) : State :=
  if off = CMX_CMD then (if v.getLsbD 31 then s.cmxSubmit v else s.swWrite off v)
  else if off = CMX_MOOR then s.moorWrite v
  else s.swWrite off v

/-- Writes of a canal port's window (R286, R291). -/
def State.cnlWrite (s : State) (off : Nat) (v : Reg) : State :=
  let p := (off - CNL) / 0x100
  if off % 0x100 = 0x00 then
    let s := if v.getLsbD 0 != s.bit off 0 then s.portEnable p (v.getLsbD 0) else s
    let s := if v.getLsbD 2 then s.linkRetrain p else s
    if v.getLsbD 3 then s.linkRetire p else s
  else s.swWrite off v

/-- Writes of a stack port's window (R350 to R359). -/
def State.stkWrite (s : State) (off : Nat) (v : Reg) : State :=
  let p := (off - STK) / 0x100
  let r := off % 0x100
  if r = 0x08 then s.chCtl p v
  else if r = 0x20 ∨ r = 0x24 then s.evacRelease p (r == 0x24) v
  else if r = 0x28 then s.pcForce p v
  else s.swWrite off v

/-- Writes of a berth's window (R565 to R568). -/
def State.brtWrite (s : State) (off : Nat) (v : Reg) : State :=
  let b := (off - BRT) / 0x400
  if off % 0x400 = 0x00 then
    let en := s.bit off 0
    let dr := s.bit off 3
    let s := s.swWrite off (putBits (putBits v 0 0 (bnat en)) 3 3 (bnat dr))
    let s := if v.getLsbD 0 && !en then s.berthEnable b else if !v.getLsbD 0 && en then s.berthDisable b else s
    if v.getLsbD 3 && !dr then s.berthDrain b else if !v.getLsbD 3 && dr then s.berthUndrain b else s
  else s.swWrite off v

/-- Writes of the FUS and LKP blocks (R649, R650, R652, R653). -/
def State.lkpWrite (s : State) (off : Nat) (v : Reg) : State :=
  if off = FUS_REGRADE ∧ v.getLsbD 31 then s.doRegrade v
  else if off = FUS_SUBST ∧ v.getLsbD 31 then s.doSubst v
  else if off = LKP_FW_CTL ∧ v.getLsbD 31 then s.firmwareLoad v (bnat (v.getLsbD 8))
  else if off = LKP_FW_ADDR_LO ∨ off = LKP_FW_ADDR_HI ∨ off = LKP_FW_LEN then
    (if s.bit LKP_FW_CTL 31 then s else s.swWrite off v)
  else if LKP_ROLE ≤ off ∧ off < MSIX_TABLE then
    (if v.getLsbD 31 then s.doRoleMigrate ((off - LKP_ROLE) / 4) else s)
  else s.swWrite off v

/-- Writes of the MSI-X table: a mask bit that clears sends a pending message (R475). -/
def State.msixWrite (s : State) (off : Nat) (v : Reg) : State :=
  let was := s.bit off 0
  let t := s.swWrite off v
  if off % 16 = 12 ∧ off < MSIX_PBA ∧ was ∧ !v.getLsbD 0 ∧ s.port.msixEn then t.unmask ((off - MSIX_TABLE) / 16) else t

/-- A 32-bit write of a register at an aligned offset (R10, R19, every block's tables, and the component registers of
R446). -/
def State.regWrite (s : State) (off : Nat) (v : Reg) : State :=
  if (regDef s.fuses off).isNone then s.compWrite off v
  else if off = TCK_REQ then s.setupWrite v
  else if off = PWR_CTL then s.pwrCtl v
  else if off = PWR_DROOP then s.pwrDroop v
  else if FLT_CTL ≤ off ∧ off < IRQ_CTL then s.fltWrite off v
  else if RNG_CTL ≤ off ∧ off < XLT_CTL then s.rngWrite off v
  else if off = XLT_CTL then (if v.getLsbD 0 then s.xltEnable else s.xltDisable)
  else if CMX_CMD ≤ off ∧ off < ACT_CTL then s.cmxWrite off v
  else if off = ACT_CTL then s.actHold (v.getLsbD 0)
  else if CNL ≤ off ∧ off < STK then s.cnlWrite off v
  else if STK ≤ off ∧ off < BRT then s.stkWrite off v
  else if BRT ≤ off ∧ off < FUS_REACHES then s.brtWrite off v
  else if FUS_REACHES ≤ off ∧ off < MSIX_TABLE then s.lkpWrite off v
  else if MSIX_TABLE ≤ off then s.msixWrite off v
  else s.swWrite off v

/-! ### Accesses of one or two registers (R9) -/

/-- Whether R9 accepts a size and an alignment. -/
def regAccessOk (off size : Nat) : Bool := (size == 4 || size == 8) && off % size == 0

/-- A write of `size` bytes: the lower address takes bits [31:0]. -/
def State.regWrite64 (s : State) (off size : Nat) (v : Word) : State :=
  let s := s.regWrite off (v.setWidth 32)
  if size = 8 then s.regWrite (off + 4) ((v >>> 32).setWidth 32) else s

/-- A read of `size` bytes: two registers are read at once, and a 32-bit read has the effect of R51. -/
def State.regRead64 (s : State) (off size : Nat) : State × Nat :=
  if size = 8 then (s, (s.regRead off).toNat + (s.regRead (off + 4)).toNat * 2 ^ 32)
  else
    let r := s.readReg off
    (r.1, r.2.toNat)

/-! ### REGISTER_WRITE and TCK_LO_READ: the host's accesses (R7, R9, R12, R443, R446, R460 to R462) -/

/-- A host write of BAR0: refused while memory space is closed, or outside R9 (R460). -/
def State.barWrite (s : State) (off size : Nat) (v : Word) : State :=
  if s.port.barClosed then s.aer .unsupportedRequest true
  else if !regAccessOk off size then s.refusePosted
  else s.regWrite64 off size v

/-- A host write of BAR2: the Waybill takes no writes, and they are discarded (R12). -/
def State.bar2Write (s : State) : State := if s.port.barClosed then s.aer .unsupportedRequest true else s

/-- REGISTER_WRITE: a write of the host. In safe state a BAR write is discarded, and configuration requests are still
answered (R462). -/
def execRegisterWrite (a : HostPlace) (size : Nat) (v : Word) (s : State) : Host.Outcome State Fault Refusal :=
  match a.sp with
  | .bar0 => doneLive s (s.barWrite a.off size v)
  | .bar2 => doneLive s s.bar2Write
  | .config => done s (s.cfgWrite a.off size v)

/-- A host read of BAR0: refused outside R9 (R460); a 32-bit read of a LO register of TCK captures the pair (R51). -/
def State.bar0Read (s : State) (off size : Nat) : State :=
  if !regAccessOk off size then s.refuseRead
  else
    let r := s.regRead64 off size
    r.1.emit (.barData (toLe size r.2) false)

/-- The Waybill's bytes, 0 after its end (R12, R446). -/
def State.bar2Bytes (s : State) (off size : Nat) : PBytes :=
  let part := (s.boot.waybill.drop off).take size
  (part ++ List.replicate (size - part.length) 0).map fun b => (b, false)

/-- A read of the host from a BAR: all ones in safe state (R462), refused while memory space is closed (R460). -/
def State.barRead (s : State) (off size : Nat) (act : State → State) : State :=
  if s.boot.safe then s.sendPieces off (List.replicate size (0xFF, false))
  else if s.port.barClosed then s.unsupportedRead
  else act s

/-- A read of configuration space: bytes of one dword (R443). -/
def State.cfgRead8 (s : State) (off size : Nat) : List Byte :=
  ((toLe 4 (s.cfgRead (off / 4 * 4)).toNat).drop (off % 4)).take size

/-- TCK_LO_READ: a read of the host; BAR2 serves any length and alignment (R446). -/
def execTckLoRead (a : HostRead) (s : State) : Host.Outcome State Fault Refusal :=
  done s (match a.sp with
    | .bar0 => s.barRead a.off a.size fun s => s.bar0Read a.off a.size
    | .bar2 => s.barRead a.off a.size fun s => s.sendPieces a.off (s.bar2Bytes a.off a.size)
    | .config => s.emit (.barData (s.cfgRead8 a.off a.size) false))

/-! ### Berths (R546, R547, R557) -/

/-- The BAR0 block of an offset, in the order of R557. -/
def barBlock (off : Nat) : Nat :=
  if off < 0x9000 then off / 0x1000
  else if off < CNL then 8
  else if off < STK then 9
  else if off < BRT then 10
  else if off < FUS_REACHES then 11
  else if off < LKP_FW_ADDR_LO then 12
  else if off < MSIX_TABLE then 13
  else if off < 0x100000 then 14
  else 15

/-- A berth's access to BAR0: one 64-bit access of an aligned offset, that the block's access table passes. -/
def State.berthBar (s : State) (b : Nat) (m : BerthMsg) (need : Nat) (act : State → State) : State :=
  let off := msgAddr m
  if m.len ≠ 1 ∨ off % 8 ≠ 0 then (s.aer .completerAbort true).berthReply b m.tag CPL_DENIED []
  else
    let c := s.actCheck (tgtBar0 (barBlock off)) (MID_BERTH b) need off
    if c.2 then act c.1 else c.1.berthReply b m.tag CPL_DENIED []

/-- BERTH_WR. -/
def State.berthWr (s : State) (b : Nat) (m : BerthMsg) : State :=
  if msgSpace m = SPACE_BAR0 then
    s.berthStream b m (.berthWr b m) m.rl (msgLegal m) fun s =>
      s.berthBar b m NEED_W fun s =>
        (s.regWrite64 (msgAddr m) 8 (BitVec.ofNat 64 (leNat (bytesOf (msgData m))))).berthReply b m.tag CPL_OK []
  else s.doBerthWr b m

/-- BERTH_WR. -/
def execBerthWr (b : Nat) (m : BerthMsg) (s : State) : Host.Outcome State Fault Refusal := doneLive s (s.berthWr b m)

/-- BERTH_RD. -/
def State.berthRd (s : State) (b : Nat) (m : BerthMsg) : State :=
  if msgSpace m = SPACE_BAR0 then
    s.berthStream b m (.berthRd b m) m.rl (msgLegal m) fun s =>
      s.berthBar b m NEED_R fun s =>
        let r := s.regRead64 (msgAddr m) 8
        r.1.berthReply b m.tag CPL_OK ((toLe 8 r.2).map fun x => (x, false))
  else s.doBerthRd b m

/-- BERTH_RD. -/
def execBerthRd (b : Nat) (m : BerthMsg) (s : State) : Host.Outcome State Fault Refusal := doneLive s (s.berthRd b m)

/-! ### Device accesses of lockkeepers (R428) -/

/-- A device access as it is performed. -/
def State.lkDevice (s : State) (k : Nat) (a : DevAccess) : State :=
  if badAccess a.addr a.size || (a.space_ == 0 && !regAccessOk a.addr a.size) || decide (2 < a.space_) then
    s.lkTrap k a.wr
  else if a.space_ = 0 then
    (if a.wr then s.regWrite64 a.addr a.size a.value
     else
       let r := s.regRead64 a.addr a.size
       r.1.emit (.lkData k r.2))
  else
    let host := a.space_ == 2
    let c := if host then (s, true) else s.hdmCheck (MID_LK k) (if a.wr then NEED_W else NEED_R) a.addr a.size
    if !c.2 then c.1.lkTrap k a.wr
    else if a.wr then c.1.ucWrite host a.addr ((toLe a.size a.value.toNat).map fun b => (b, false))
    else if host then c.1.ioRequest (.lockkeeper k) a.addr a.size
    else
      let r := c.1.ucRead false a.addr a.size
      r.1.lkDeliver k r.2

/-- The device accesses that may issue: the store buffer is empty, and every earlier one has been performed (fuel:
their number). -/
def State.issueDevice (s : State) (k : Nat) : Nat → State
  | 0 => s
  | fuel + 1 =>
    match (s.lk k).device with
    | [] => s
    | a :: rest =>
      if (s.lk k).sb.isEmpty && !s.ioBusy (.lockkeeper k) then
        ((s.modLk k fun x => { x with device := rest }).lkDevice k a).issueDevice k fuel
      else s

/-- The device accesses of a lockkeeper go on. -/
def State.pumpDevice (s : State) (k : Nat) : State := s.issueDevice k (s.lk k).device.length

/-- LK_DEVICE_ACCESS: the store buffer drains, and the access issues behind the hart's earlier ones. -/
def execLkDeviceAccess (k : Nat) (a : DevAccess) (s : State) : Host.Outcome State Fault Refusal :=
  doneLive s ((s.modLk k fun x => { x with device := x.device ++ [a] }).drainAll k |>.pumpDevice k)

/-- STORE_BUFFER_DRAIN: the oldest entry leaves; a device access that waited for the buffer issues once it is
empty. -/
def execStoreBufferDrain (k : Nat) (s : State) : Host.Outcome State Fault Refusal :=
  doneLive s ((s.doDrain k).pumpDevice k)

end Sys2Proof.Machine
end

