-- ==== Sys2Proof/Machine/LegB.lean ====
section
/-! DEFINITION. The B slot (R166 to R174): barges, waits, landing counters, global accesses, fences and
musters. -/

namespace Sys2Proof.Machine

/-- B-slot NOP. -/
def execBNop (t : Nat) (g : Guard) (s : State) : Host.Outcome State Fault Refusal :=
  done s (s.issue t g fun _ x => .ok x)

/-- The image of the flight that a tile runs. -/
def State.legImage (s : State) (x : Tile) : Ram :=
  match x.flight with
  | some (k, _) => (s.flight k).image
  | none => {}

/-- The length of the running leg's barge list (R175). -/
def legListLen (m : Ram) (x : Tile) : Nat :=
  match x.leg with
  | some l => legBarges m l
  | none => 0

/-- A tile with barge entry `idx` of its leg's list in flight (R174, R176, R200); it starts in the next cycle (R166). -/
def Tile.addBarge (x : Tile) (m : Ram) (lc idx : Nat) : Tile :=
  let first := match x.leg with
    | some l => legBargeFirst m l
    | none => 0
  let b : BargeInst := { id := x.nextId, idx := idx, lc := lc, desc := bargeBytes m (first + idx) }
  { x with barges := x.barges ++ [b], nextId := x.nextId + 1 }

/-- BARGE: starts entry IDX of the leg's barge list; its landing counts on lc LC. -/
def execBarge (t : Nat) (g : Guard) (lc : BitVec 4) (idx : BitVec 12) (s : State) :
    Host.Outcome State Fault Refusal :=
  done s (s.issue t g fun en x =>
    let m := s.legImage x
    if !en then .ok x
    else if legListLen m x ≤ idx.toNat then .stop .illegal x.pc
    else if 64 ≤ x.barges.length then .stop .bargeLimit x.pc
    else .ok (x.addBarge m lc.toNat idx.toNat))

/-- Whether a wait is satisfied (R166, R167). -/
def Tile.satisfied (x : Tile) : Stall → Bool
  | .lc c n => decide (n ≤ x.lc c)
  | .cycle n => decide (n ≤ x.cyc)

/-- What a satisfied wait does as its bundle issues: WAIT_LC subtracts in the issue cycle. -/
def Tile.pass (x : Tile) : Stall → Tile
  | .lc c n => x.plan 3 0 (.wrLc c (x.lc c - n))
  | .cycle _ => x

/-- A wait in the present bundle: it stalls the bundle until it is satisfied. -/
def waitFor (w : Stall) (en : Bool) (x : Tile) : Issue :=
  if !en then .ok x
  else if x.satisfied w then .ok (x.pass w)
  else .ok { x with stall := some w }

/-- WAIT_LC. -/
def execWaitLc (t : Nat) (g : Guard) (lc : BitVec 4) (n : BitVec 16) (s : State) :
    Host.Outcome State Fault Refusal :=
  done s (s.issue t g (waitFor (.lc lc.toNat n.toNat)))

/-- WAIT_LOCK: until the pound cycle count is at least CYC (R169). -/
def execWaitLock (t : Nat) (g : Guard) (cyc : BitVec 19) (s : State) : Host.Outcome State Fault Refusal :=
  done s (s.issue t g (waitFor (.cycle cyc.toNat)))

/-- The release of a stalled bundle in the first cycle in which its wait is satisfied (R167). -/
def State.releaseStall (s : State) (t : Nat) : State :=
  let x := s.tile t
  match x.stall with
  | some w => if x.running && x.satisfied w then s.setTile t ({ x with stall := none }.pass w) else s
  | none => s

/-- BUNDLE_STALL_RELEASE. -/
def execBundleStallRelease (t : Nat) (s : State) : Host.Outcome State Fault Refusal :=
  done s (s.releaseStall t)

/-- LCSET: lc := V, latency 1. -/
def execLcset (t : Nat) (g : Guard) (lc : BitVec 4) (v : BitVec 16) (s : State) :
    Host.Outcome State Fault Refusal :=
  done s (s.issue t g fun en x => .ok (x.planIf en 3 0 (.wrLc lc.toNat v.toNat)))

/-- A global access (R170): its address formed from window W and offset RA, with its checks. -/
def Tile.access (x : Tile) (m : Ram) (w ra size : Nat) (f : Nat → Access) : Issue :=
  let n := match x.leg with
    | some l => legWindows m l
    | none => 0
  let first := match x.leg with
    | some l => legWindowFirst m l
    | none => 0
  if x.rsPoison ra then .stop .controlError x.pc
  else if n ≤ w then .stop .windowAddress x.pc
  else
    let win := window m (first + w)
    let va := (win.1 + (x.rs ra).toNat) / size * size
    if va < win.1 ∨ win.1 + win.2 < va + size then .stop .windowAddress x.pc
    else .ok { x with accs := x.accs ++ [f va], nextId := x.nextId + 1 }

/-- GLD: loads 2^SZ bytes into RD at its landing. -/
def execGld (t : Nat) (g : Guard) (rd : BitVec 5) (lc : BitVec 4) (w : BitVec 3) (ra : BitVec 5)
    (sz : BitVec 2) (aq rl : Bool) (s : State) : Host.Outcome State Fault Refusal :=
  done s (s.issue t g <| readsS [ra.toNat] fun en x =>
    if !en then .ok x
    else x.access (s.legImage x) w.toNat ra.toNat (2 ^ sz.toNat) fun va =>
      { id := x.nextId, kind := .gld rd.toNat, lc := lc.toNat, va := va, size := 2 ^ sz.toNat, aq := aq,
        rl := rl, pc := x.pc })

/-- GST: stores the low 2^SZ bytes of RB. -/
def execGst (t : Nat) (g : Guard) (rb : BitVec 5) (lc : BitVec 4) (w : BitVec 3) (ra : BitVec 5)
    (sz : BitVec 2) (aq rl : Bool) (s : State) : Host.Outcome State Fault Refusal :=
  done s (s.issue t g <| readsS [ra.toNat, rb.toNat] fun en x =>
    if !en then .ok x
    else x.access (s.legImage x) w.toNat ra.toNat (2 ^ sz.toNat) fun va =>
      { id := x.nextId, kind := .gst, lc := lc.toNat, va := va, size := 2 ^ sz.toNat,
        value := x.rs rb.toNat, poison := x.rsPoison rb.toNat, aq := aq, rl := rl, pc := x.pc })

/-- GAMO: an 8-byte atomic; compare-and-swap takes the compare value from RD and the new value from
s(RD + 1), and RD must be even (R171). -/
def execGamo (t : Nat) (g : Guard) (rd : BitVec 5) (lc : BitVec 4) (w : BitVec 3) (ra : BitVec 5)
    (fn : BitVec 4) (nf : Bool) (s : State) : Host.Outcome State Fault Refusal :=
  done s (s.issue t g <|
    readsS ([ra.toNat, rd.toNat] ++ if fn = 7 then [rd.toNat + 1] else []) fun en x =>
    let d := rd.toNat
    if 8 ≤ fn.toNat ∨ (fn.toNat = 7 ∧ d % 2 = 1) then .stop .illegal x.pc
    else if !en then .ok x
    else
      let cas := decide (fn.toNat = 7)
      x.access (s.legImage x) w.toNat ra.toNat 8 fun va =>
        { id := x.nextId, kind := .gamo d fn.toNat nf, lc := lc.toNat, va := va, size := 8,
          value := if cas then x.rs (d + 1) else x.rs d, compare := x.rs d,
          poison := x.rsPoison d || (cas && x.rsPoison (d + 1)), pc := x.pc })

/-- FENCE: orders this tile's global accesses (R172). -/
def execFence (t : Nat) (g : Guard) (lc : BitVec 4) (s : State) : Host.Outcome State Fault Refusal :=
  done s (s.issue t g fun en x =>
    if !en then .ok x
    else .ok { x with accs := x.accs ++ [{ id := x.nextId, kind := .fence, lc := lc.toNat, va := 0,
                                            size := 0, pc := x.pc }],
                      nextId := x.nextId + 1 })

/-- MUSTER: enters the device's pending musters under the flight's tag (R173, R293). -/
def execMuster (t : Nat) (g : Guard) (bid : BitVec 8) (s : State) : Host.Outcome State Fault Refusal :=
  let x := s.tile t
  let s' := s.issue t g fun _ x => .ok x
  done s (if x.issuing && !x.guardPoison g && x.enabled g then
      match x.flight with
      | some (k, _) => s'.muster (s.flight k).tag bid.toNat 1
      | none => s'
    else s')

end Sys2Proof.Machine
end

