-- ==== Sys2Proof/Machine/LegS.lean ====
section
/-! DEFINITION. The S slot (R143 to R147): control flow, scalar arithmetic, predicates, scalar loads and
stores. -/

namespace Sys2Proof.Machine

/-- A scalar result of latency `l`, poisoned with its sources. -/
def scalarResult (l rd : Nat) (v : Word) (poison : Bool) (en : Bool) (x : Tile) : Issue :=
  .ok (x.writeS en 0 l rd v poison)

/-- A taken branch; an enabled branch in a delay bundle is illegal (R136, R137). -/
def takeBranch (target : Int) (en : Bool) (x : Tile) : Issue :=
  if !en then .ok x
  else if x.branch.isSome then .stop .illegal x.pc
  else .ok { x with branch := some (target, 3) }

/-- S-slot NOP. -/
def execNop (t : Nat) (g : Guard) (s : State) : Host.Outcome State Fault Refusal :=
  done s (s.issue t g fun _ x => .ok x)

/-- END: the leg ends once its last write is done (R138). -/
def execEndLeg (t : Nat) (g : Guard) (s : State) : Host.Outcome State Fault Refusal :=
  done s (s.issue t g fun en x => .ok (if en then { x with endAt := some x.cyc } else x))

/-- BR: target PC + sext(IMM13). -/
def execBr (t : Nat) (g : Guard) (imm : BitVec 13) (s : State) : Host.Outcome State Fault Refusal :=
  done s (s.issue t g fun en x => takeBranch ((x.pc : Int) + imm.toInt) en x)

/-- BRR: target RA[11:0]; RA is a control use (R141). -/
def execBrr (t : Nat) (g : Guard) (ra : BitVec 5) (s : State) : Host.Outcome State Fault Refusal :=
  done s (s.issue t g <| readsS [ra.toNat] fun en x =>
    if en && x.rsPoison ra.toNat then .stop .controlError x.pc
    else takeBranch ((x.rs ra.toNat).toNat % 4096 : Nat) en x)

/-- ALU: RD := RA fn RB; latency 1, mul 3 (R145). -/
def execAlu (t : Nat) (g : Guard) (rd ra rb : BitVec 5) (fn : BitVec 7) (s : State) :
    Host.Outcome State Fault Refusal :=
  done s (s.issue t g <| readsS [ra.toNat, rb.toNat] fun en x =>
    match aluOp fn.toNat (x.rs ra.toNat) (x.rs rb.toNat) with
    | none => .stop .illegal x.pc
    | some v => scalarResult (if fn.toNat = 0x0C then 3 else 1) rd.toNat v
        (x.rsPoison ra.toNat || x.rsPoison rb.toNat) en x)

/-- ADDI: RD := RA + sext(IMM12). -/
def execAddi (t : Nat) (g : Guard) (rd ra : BitVec 5) (imm : BitVec 12) (s : State) :
    Host.Outcome State Fault Refusal :=
  done s (s.issue t g <| readsS [ra.toNat] fun en x =>
    scalarResult 1 rd.toNat (x.rs ra.toNat + imm.signExtend 64) (x.rsPoison ra.toNat) en x)

/-- ANDI: RD := RA and zext(IMM12). -/
def execAndi (t : Nat) (g : Guard) (rd ra : BitVec 5) (imm : BitVec 12) (s : State) :
    Host.Outcome State Fault Refusal :=
  done s (s.issue t g <| readsS [ra.toNat] fun en x =>
    scalarResult 1 rd.toNat (x.rs ra.toNat &&& imm.zeroExtend 64) (x.rsPoison ra.toNat) en x)

/-- ORI: RD := RA or zext(IMM12). -/
def execOri (t : Nat) (g : Guard) (rd ra : BitVec 5) (imm : BitVec 12) (s : State) :
    Host.Outcome State Fault Refusal :=
  done s (s.issue t g <| readsS [ra.toNat] fun en x =>
    scalarResult 1 rd.toNat (x.rs ra.toNat ||| imm.zeroExtend 64) (x.rsPoison ra.toNat) en x)

/-- XORI: RD := RA xor zext(IMM12). -/
def execXori (t : Nat) (g : Guard) (rd ra : BitVec 5) (imm : BitVec 12) (s : State) :
    Host.Outcome State Fault Refusal :=
  done s (s.issue t g <| readsS [ra.toNat] fun en x =>
    scalarResult 1 rd.toNat (x.rs ra.toNat ^^^ imm.zeroExtend 64) (x.rsPoison ra.toNat) en x)

/-- SHFI: a shift by an immediate amount. -/
def execShfi (t : Nat) (g : Guard) (rd ra : BitVec 5) (kind : BitVec 2) (amt : BitVec 6) (s : State) :
    Host.Outcome State Fault Refusal :=
  done s (s.issue t g <| readsS [ra.toNat] fun en x =>
    match shiftOp kind.toNat (x.rs ra.toNat) amt.toNat with
    | none => .stop .illegal x.pc
    | some v => scalarResult 1 rd.toNat v (x.rsPoison ra.toNat) en x)

/-- LI: RD := sext(IMM17). -/
def execLi (t : Nat) (g : Guard) (rd : BitVec 5) (imm : BitVec 17) (s : State) :
    Host.Outcome State Fault Refusal :=
  done s (s.issue t g (scalarResult 1 rd.toNat (imm.signExtend 64) false))

/-- SHIN: RD := (RD shl 17) or IMM17. -/
def execShin (t : Nat) (g : Guard) (rd : BitVec 5) (imm : BitVec 17) (s : State) :
    Host.Outcome State Fault Refusal :=
  done s (s.issue t g <| readsS [rd.toNat] fun en x =>
    scalarResult 1 rd.toNat ((x.rs rd.toNat <<< 17) ||| imm.zeroExtend 64) (x.rsPoison rd.toNat) en x)

/-- A comparison into a predicate. -/
def compareInto (pd fn : Nat) (a b : Word) (poison : Bool) (en : Bool) (x : Tile) : Issue :=
  match scalarCond fn a b with
  | none => .stop .illegal x.pc
  | some v => .ok (x.planIf en 0 0 (.wrP pd v poison))

/-- CMP: PD := RA cond RB. -/
def execCmp (t : Nat) (g : Guard) (pd fn : BitVec 3) (ra rb : BitVec 5) (s : State) :
    Host.Outcome State Fault Refusal :=
  done s (s.issue t g <| readsS [ra.toNat, rb.toNat] fun en x =>
    compareInto pd.toNat fn.toNat (x.rs ra.toNat) (x.rs rb.toNat)
      (x.rsPoison ra.toNat || x.rsPoison rb.toNat) en x)

/-- CMPI: PD := RA cond sext(IMM11). -/
def execCmpi (t : Nat) (g : Guard) (pd fn : BitVec 3) (ra : BitVec 5) (imm : BitVec 11) (s : State) :
    Host.Outcome State Fault Refusal :=
  done s (s.issue t g <| readsS [ra.toNat] fun en x =>
    compareInto pd.toNat fn.toNat (x.rs ra.toNat) (imm.signExtend 64) (x.rsPoison ra.toNat) en x)

/-- POP: PD := pa op pb. -/
def execPop (t : Nat) (g : Guard) (pd fn pa pb : BitVec 3) (s : State) :
    Host.Outcome State Fault Refusal :=
  done s (s.issue t g fun en x =>
    match predOp fn.toNat (x.rp pa.toNat) (x.rp pb.toNat) with
    | none => .stop .illegal x.pc
    | some v =>
      let r := predReads fn.toNat
      .ok (x.planIf en 0 0 (.wrP pd.toNat v
        ((r.1 && x.rpPoison pa.toNat) || (r.2 && x.rpPoison pb.toNat)))))

/-- A hold access of `n` bytes at an address formed from RA: a poisoned RA is a control use, and a byte
outside the hold stops the tile (R141, R142); a disabled access forms no address. -/
def holdAccess (en : Bool) (x : Tile) (ra a n : Nat) (k : Issue) : Issue :=
  if en && x.rsPoison ra then .stop .controlError x.pc
  else if en && !holdOk a n then .stop .holdAddress x.pc
  else k

/-- LD: read port at i + 1, RD written with latency 3. -/
def execLd (t : Nat) (g : Guard) (rd ra : BitVec 5) (imm : BitVec 12) (s : State) :
    Host.Outcome State Fault Refusal :=
  done s (s.issue t g <| readsS [ra.toNat] fun en x =>
    let a := addrOf (x.rs ra.toNat) imm.toInt 8 3
    holdAccess en x ra.toNat a 8 (x.holdAll [(.holdRead, [x.cyc + 1])] fun x =>
      .ok (x.planIf en 0 1 (.rdS rd.toNat a))))

/-- ST: write port at i + 2. -/
def execSt (t : Nat) (g : Guard) (rb ra : BitVec 5) (imm : BitVec 12) (s : State) :
    Host.Outcome State Fault Refusal :=
  done s (s.issue t g <| readsS [ra.toNat, rb.toNat] fun en x =>
    let a := addrOf (x.rs ra.toNat) imm.toInt 8 3
    let p := x.rsPoison rb.toNat
    holdAccess en x ra.toNat a 8 (x.holdAll [(.holdWrite, [x.cyc + 2])] fun x =>
      .ok (x.planIf en 0 2 (.wrHold a ((toLe 8 (x.rs rb.toNat).toNat).map fun b => (b, p))))))

/-- The eight predicates as a byte, and whether one is poisoned. -/
def Tile.predByte (x : Tile) : Nat × Bool :=
  ((List.range 8).foldl (fun n p => n + bnat (x.rp p) * 2 ^ p) 0, (List.range 8).any fun p => x.rpPoison p)

/-- The special value that SEL names, with its poison (R146); none for a reserved SEL. -/
def State.special (s : State) (t : Nat) (x : Tile) (sel : Nat) : Option (Word × Bool) :=
  if sel = 0 then some (x.gx.signExtend 64, false)
  else if sel = 1 then some (BitVec.ofNat 64 ((s.logTile t).getD 0), false)
  else if sel = 2 then
    some (match x.flight with
      | some (k, _) => BitVec.ofNat 64 (s.flight k).pos
      | none => 0, false)
  else if sel = 3 then some (BitVec.ofNat 64 x.predByte.1, x.predByte.2)
  else if 0x10 ≤ sel ∧ sel ≤ 0x1F then some (BitVec.ofNat 64 (x.lc (sel - 0x10)), false)
  else none

/-- RDS: RD := the special value. -/
def execRds (t : Nat) (g : Guard) (rd : BitVec 5) (sel : BitVec 8) (s : State) :
    Host.Outcome State Fault Refusal :=
  done s (s.issue t g fun en x =>
    match s.special t x sel.toNat with
    | none => .stop .illegal x.pc
    | some v => scalarResult 1 rd.toNat v.1 v.2 en x)

/-- FLG: RD := the sticky flags at issue; those in MASK are then cleared (R147). -/
def execFlg (t : Nat) (g : Guard) (rd : BitVec 5) (mask : BitVec 3) (s : State) :
    Host.Outcome State Fault Refusal :=
  done s (s.issue t g fun en x =>
    .ok ((x.writeS en 0 1 rd.toNat (BitVec.ofNat 64 x.sticky) false).planIf en 0 0 (.clrSticky mask.toNat)))

end Sys2Proof.Machine
end

