-- ==== Sys2Proof/Machine/LegT.lean ====
section
/-! DEFINITION. The T slot (R148 to R161): stationary loads, tensor passes, exports, imports, bank
zeroing and the grid register. -/

namespace Sys2Proof.Machine

/-- T-slot NOP. -/
def execTNop (t : Nat) (g : Guard) (s : State) : Host.Outcome State Fault Refusal :=
  done s (s.issue t g fun _ x => .ok x)

/-- The first `n` cycles from `c` onward in which the hold read port is free (`fuel` cycles tried). -/
def freeReads (held : List (Port × Nat)) : Nat → Nat → Nat → List Nat
  | 0, _, _ => []
  | f + 1, c, n =>
    if n = 0 then []
    else if held.contains (.holdRead, c) then freeReads held f (c + 1) n
    else c :: freeReads held f (c + 1) (n - 1)

/-- LDS into a buffer (R152): it takes the first read cycles that no earlier-issued operation holds, and stops where an
operation of its own bundle holds one of them (R134); it writes each row one cycle after its read, and records the tags
with its last write. -/
def ldsIssue (buf sp bs : Bool) (fmt ra : Nat) (en : Bool) (x : Tile) : Issue :=
  if 12 < fmt ∨ (fmt = 9 ∧ sp) ∨ (bs ∧ !fmtBlock fmt) then .stop .illegal x.pc
  else
    let a := addrOf (x.rs ra) 0 1 8
    let offs := ldsOffsets fmt sp bs
    holdAccess en x ra a (256 * offs.length)
      (let cycles := freeReads x.older (x.older.length + offs.length + 1) (x.cyc + 1) offs.length
       x.holdAll [(.holdRead, cycles)] fun y =>
         let w := cycles.getLastD x.cyc + 1
         let y := y.planAll en 1 ((cycles.zip offs).zipIdx.map fun p =>
           (p.1.1 - x.cyc, TileAct.ldsRow buf (a + 256 * p.2) p.1.2))
         let y := y.planIf en 1 (w - x.cyc) (.ldsTag buf fmt sp bs)
         .ok (if en then
           y.setBuf buf { y.buf buf with expected := some { fmt := fmt, sp := sp, bs16 := bs, ea := 0 } } else y))

/-- LDS. -/
def execLds (t : Nat) (g : Guard) (buf sp bs : Bool) (fmt : BitVec 4) (ra : BitVec 5) (s : State) :
    Host.Outcome State Fault Refusal :=
  done s (s.issue t g (readsS [ra.toNat] (ldsIssue buf sp bs fmt.toNat ra.toNat)))

/-- Formats that MMA may stream (R148). -/
def mmaFormat (fmt : Nat) : Bool := decide (fmt ≤ 8) || decide (10 ≤ fmt ∧ fmt ≤ 12)

/-- MMA (R153 to R157): the schedule is fixed at issue from its own fields and the buffer's expected
tags. -/
def mmaIssue (bank buf z ag bs : Bool) (fmt ra rb : Nat) (en : Bool) (x : Tile) : Issue :=
  if !mmaFormat fmt ∨ (bs ∧ !fmtBlock fmt) ∨ (!fmtMx fmt ∧ rb ≠ 0) ∨ (ag ∧ !z) then .stop .illegal x.pc
  else
    let i := x.cyc
    let ex := (x.buf buf).expected
    let b := passB fmt ex
    let f := passF b
    let sc := passS fmt ag bs ex
    let scan := !fmtMx fmt && decide (sc ≠ 0)
    let a := addrOf (x.rs ra) 0 1 8
    let ar := addrOf (x.rs rb) 0 1 8
    let early := if scan then f else sc
    if en && (x.rsPoison ra || x.rsPoison rb) then .stop .controlError x.pc
    else if en && !(holdOk a (64 * b) && (!fmtMx fmt || holdOk ar (256 * sc))) then .stop .holdAddress x.pc
    else
      let fetches := (List.range f).map fun j => i + 1 + sc + 256 * j / b
      x.holdAll [(.holdRead, (List.range early).map (· + (i + 1)) ++ fetches),
          (.array, x.span (sc + 3) (sc + 66)), (bankPort bank, x.span (sc + 15) (sc + 78))] fun x =>
        let p : Pass := { issue := i, pc := x.pc, bank := bank, buf := buf, z := z, ag := ag, bs16 := bs,
                          fmt := fmt, ra := a, rb := ar, expected := ex, b := b, s := sc, gx := x.gx }
        let acts := (List.range early).map (fun j =>
              (j + 1, if scan then TileAct.mmaScan i j else TileAct.mmaScale i j)) ++
            (List.range f).map (fun j => (1 + sc + 256 * j / b, TileAct.mmaFetch i j)) ++
            [(sc + 2, TileAct.mmaTags i)] ++
            (List.range 64).map (fun m => (sc + 3 + m, TileAct.mmaArray i)) ++
            (if z then [(sc + 14, TileAct.mmaZero i)] else []) ++
            (List.range 64).map (fun m => (sc + 15 + m, TileAct.mmaRow i m))
        .ok ((if en then { x with passes := x.passes ++ [p] } else x).planAll en 1 acts)

/-- MMA. -/
def execMma (t : Nat) (g : Guard) (bank buf z ag bs : Bool) (fmt : BitVec 4) (ra rb : BitVec 5)
    (s : State) : Host.Outcome State Fault Refusal :=
  done s (s.issue t g (readsS [ra.toNat, rb.toNat] (mmaIssue bank buf z ag bs fmt.toNat ra.toNat rb.toNat)))

/-- EXP (R159). -/
def expIssue (bank cz : Bool) (fmt : Nat) (bs : Bool) (ra rb : Nat) (en : Bool) (x : Tile) : Issue :=
  let width := (x.bank bank).width
  if fmt = 9 ∨ fmt = 15 ∨ (!fmtMx fmt ∧ (rb ≠ 0 ∨ bs)) then .stop .illegal x.pc
  else if en && fmtMx fmt && decide (widthCols width < blockSize bs) then .stop .illegal x.pc
  else
    let i := x.cyc
    let (we, w) := expCycles fmt bs width
    let a := addrOf (x.rs ra) 0 1 7
    let ar := addrOf (x.rs rb) 0 1 7
    if en && (x.rsPoison ra || x.rsPoison rb) then .stop .controlError x.pc
    else if en && !(holdOk a (128 * we) && (!fmtMx fmt || holdOk ar (128 * (w - we)))) then
      .stop .holdAddress x.pc
    else
      x.holdAll [(.holdWrite, x.span 2 (1 + w))] fun x =>
        let p : Export := { issue := i, bank := bank, cz := cz, fmt := fmt, bs16 := bs, ra := a, rb := ar,
                            width := width, gx := x.gx }
        let acts := (List.range 64).map (fun m => (1 + m * we / 64, TileAct.expRow i m)) ++
            (List.range we).map (fun j => (2 + j, TileAct.expWrite i j false)) ++
            (List.range (w - we)).map (fun j => (2 + we + j, TileAct.expWrite i j true))
        .ok ((if en then { x with exports := x.exports ++ [p] } else x).planAll en 1 acts)

/-- EXP. -/
def execExpBank (t : Nat) (g : Guard) (bank cz : Bool) (fmt : BitVec 4) (bs : Bool) (ra rb : BitVec 5)
    (s : State) : Host.Outcome State Fault Refusal :=
  done s (s.issue t g (readsS [ra.toNat, rb.toNat] (expIssue bank cz fmt.toNat bs ra.toNat rb.toNat)))

/-- IMP (R160). -/
def impIssue (bank g64 : Bool) (ra rb : Nat) (en : Bool) (x : Tile) : Issue :=
  let i := x.cyc
  let width := (x.bank bank).width
  let r := impR g64 width
  let rowBytes := widthCols width * (if g64 then 8 else 16)
  let a := addrOf (x.rs ra) 0 1 8
  holdAccess en x ra a (64 * rowBytes)
    (x.holdAll [(.holdRead, x.span 1 (64 * r)),
        (bankPort bank, (List.range 64).map fun m => i + (m + 1) * r + 1)] fun x =>
      let p : Import := { issue := i, bank := bank, g64 := g64, ra := a, width := width,
                          grid := (x.rs rb).truncate 16, gridPoison := x.rsPoison rb, gx := x.gx }
      let acts := (List.range 64).flatMap (fun m =>
            (List.range r).map fun q => (1 + m * r + q, TileAct.impRead i m q)) ++
          (List.range 64).map (fun m => ((m + 1) * r + 1, TileAct.impRow i m))
      .ok ((if en then { x with imports := x.imports ++ [p] } else x).planAll en 1 acts))

/-- IMP. -/
def execImp (t : Nat) (g : Guard) (bank g64 : Bool) (ra rb : BitVec 5) (s : State) :
    Host.Outcome State Fault Refusal :=
  done s (s.issue t g (readsS [ra.toNat, rb.toNat] (impIssue bank g64 ra.toNat rb.toNat)))

/-- ZB (R161). -/
def execZb (t : Nat) (g : Guard) (bank : Bool) (w : BitVec 2) (s : State) :
    Host.Outcome State Fault Refusal :=
  done s (s.issue t g fun en x =>
    if w.toNat = 3 then .stop .illegal x.pc
    else x.holdAll [(bankPort bank, [x.cyc + 1])] fun x => .ok (x.planIf en 1 1 (.zbWrite bank w.toNat)))

/-- GXI: gx := IMM16. -/
def execGxi (t : Nat) (g : Guard) (imm : BitVec 16) (s : State) : Host.Outcome State Fault Refusal :=
  done s (s.issue t g fun en x => .ok (x.planIf en 1 0 (.wrGx imm)))

/-- GXR: gx := RA[15:0]; RA is a control use (R141). -/
def execGxr (t : Nat) (g : Guard) (ra : BitVec 5) (s : State) : Host.Outcome State Fault Refusal :=
  done s (s.issue t g <| readsS [ra.toNat] fun en x =>
    if en && x.rsPoison ra.toNat then .stop .controlError x.pc
    else .ok (x.planIf en 1 0 (.wrGx ((x.rs ra.toNat).truncate 16))))

end Sys2Proof.Machine
end

