-- ==== Sys2Proof/Machine/VecFn.lean ====
section
/-! DEFINITION. The correctly rounded functions of the vector unit (R122). Each is computed on
integers with 320 fraction bits, far beyond what any input of these formats needs to be rounded
rightly, or exactly where the result can be a rational number. -/

namespace Sys2Proof.Machine

/-- Fraction bits of the fixed-point work. -/
def fxP : Nat := 320

/-- One in fixed point. -/
def fxOne : Int := 2 ^ fxP

/-- Sum of y^k / k! for fixed-point y, by the term and its index. -/
def fxExpSeries (y : Int) : Nat → Int → Nat → Int
  | 0, _, _ => 0
  | n + 1, t, k => t + fxExpSeries y n (t * y / fxOne / ((k : Int) + 1)) (k + 1)

/-- e^y for 0 <= y < 1. -/
def fxExp (y : Int) : Int := fxExpSeries y 90 fxOne 0

/-- Sum of t * (z2)^k / (2k+1). -/
def fxOddSeries (z2 : Int) : Nat → Int → Nat → Int
  | 0, _, _ => 0
  | n + 1, t, k => t / (2 * (k : Int) + 1) + fxOddSeries z2 n (t * z2 / fxOne) (k + 1)

/-- atanh of a fixed-point argument of at most 1/3. -/
def fxAtanh (z : Int) : Int := fxOddSeries (z * z / fxOne) 110 z 0

/-- ln 2. -/
def fxLn2 : Int := 2 * fxAtanh (fxOne / 3)

/-- arctan (1/n). -/
def fxAtanInv (n : Int) : Int := fxOddSeries (-(fxOne / (n * n))) 150 (fxOne / n) 0

/-- pi. -/
def fxPi : Int := 16 * fxAtanInv 5 - 4 * fxAtanInv 239

/-- Integer square root: bits from the top down. -/
def isqrtLoop (n : Nat) : Nat → Nat → Nat
  | 0, r => r
  | k + 1, r => let c := r + 2 ^ k; isqrtLoop n k (if c * c ≤ n then c else r)

/-- floor(sqrt n). -/
def isqrt (n : Nat) : Nat := isqrtLoop n (Nat.log2 n / 2 + 1) 0

/-- An inexact positive value floor `q`: doubled with a sticky low bit, so that it rounds rightly. -/
def sticky (q : Nat) : Nat := 2 * q + 1

/-- A positive irrational fixed-point value as a number with its sign. -/
def fxNum (neg : Bool) (v : Int) (e : Int) : Num := .fin neg (sticky v.toNat) (e - fxP - 1)

/-- 2^(m * 2^e), with the sign of the exponent, for finite exponents of magnitude below 256: exact
when the exponent is an integer. -/
def exp2Num (neg : Bool) (m : Nat) (e : Int) : Num :=
  let u : Int := (if neg then -1 else 1) * (if 0 ≤ e + fxP then (m : Int) * 2 ^ (e + fxP).toNat else 0)
  let n := u / fxOne
  let f := u % fxOne
  if f = 0 then .fin false 1 n else fxNum false (fxExp (f * fxLn2 / fxOne)) n

/-- Whether |m * 2^e| >= 2^k. -/
def magGe (m : Nat) (e : Int) (k : Int) : Bool := decide (m ≠ 0) && decide (floorLog2 m e ≥ k)

/-- exp2 of a number. -/
def fnExp2 : Num → Num
  | .nan => .nan
  | .inf neg => if neg then .fin false 0 0 else .inf false
  | .fin neg m e =>
    if m = 0 then .fin false 1 0
    else if magGe m e 8 then (if neg then .fin false 1 (-1000) else .fin false 1 1000)
    else exp2Num neg m e

/-- log2 of a number. -/
def fnLog2 : Num → Num
  | .nan => .nan
  | .inf neg => if neg then .nan else .inf false
  | .fin neg m e =>
    if m = 0 then .inf true
    else if neg then .nan
    else
      let b := Nat.log2 m
      let k : Int := b + e
      if m = 2 ^ b then Num.ofInt k 0
      else
        let z : Int := (m : Int) * 2 ^ (fxP - b)
        let l := 2 * fxAtanh ((z - fxOne) * fxOne / (z + fxOne))
        let r := k * fxOne + l * fxOne / fxLn2
        fxNum (decide (r < 0)) (if r < 0 then -r else r) 0

/-- The reciprocal. -/
def fnRecip : Num → Num
  | .nan => .nan
  | .inf neg => .fin neg 0 0
  | .fin neg m e =>
    if m = 0 then .inf neg
    else
      let n := 2 ^ (Nat.log2 m + 80)
      let q := n / m
      .fin neg (if n % m = 0 then 2 * q else sticky q) (-e - (Nat.log2 m : Int) - 81)

/-- The square root. -/
def fnSqrt : Num → Num
  | .nan => .nan
  | .inf neg => if neg then .nan else .inf false
  | .fin neg m e =>
    if m = 0 then .fin neg 0 0
    else if neg then .nan
    else
      let odd : Nat := if e % 2 = 0 then 0 else 1
      let n := m * 2 ^ (160 + odd)
      let r := isqrt n
      .fin false (if r * r = n then 2 * r else sticky r) ((e - odd - 160) / 2 - 1)

/-- The reciprocal square root. -/
def fnRsqrt : Num → Num
  | .nan => .nan
  | .inf neg => if neg then .nan else .fin false 0 0
  | .fin neg m e =>
    if m = 0 then .inf neg
    else if neg then .nan
    else
      let odd : Nat := if e % 2 = 0 then 0 else 1
      let n := 2 ^ 400 / (m * 2 ^ odd)
      let exact_ := 2 ^ 400 % (m * 2 ^ odd) = 0
      let r := isqrt n
      .fin false (if exact_ ∧ r * r = n then 2 * r else sticky r) (-((e - odd) / 2) - 201)

/-- e^(-y) as a number for y = m * 2^e below 256. -/
def fxExpNeg (m : Nat) (e : Int) : Int × Int :=
  let y : Int := if 0 ≤ e + fxP then (m : Int) * 2 ^ (e + fxP).toNat else 0
  let u := y * fxOne / fxLn2
  let n := u / fxOne
  let f := u % fxOne
  (fxExp ((fxOne - f) * fxLn2 / fxOne), -n - 1)

/-- A fixed-point value and its exponent as a fixed-point integer. -/
def fxShift (p : Int × Int) : Int := if p.2 ≥ 0 then p.1 * 2 ^ p.2.toNat else p.1 / 2 ^ (-p.2).toNat

/-- The hyperbolic tangent. -/
def fnTanh : Num → Num
  | .nan => .nan
  | .inf neg => .fin neg 1 0
  | .fin neg m e =>
    if m = 0 then .fin neg 0 0
    else if magGe m e 6 then .fin neg (2 ^ 64 - 1) (-64)
    else if !magGe m e (-20) then .fin neg (m * 2 ^ 64 - 1) (e - 64)
    else
      let x := fxShift (fxExpNeg m (e + 1))
      fxNum neg ((fxOne - x) * fxOne / (fxOne + x)) 0

/-- The logistic function 1 / (1 + e^(-x)). -/
def fnSigmoid : Num → Num
  | .nan => .nan
  | .inf neg => if neg then .fin false 0 0 else .fin false 1 0
  | .fin neg m e =>
    if m = 0 then .fin false 1 (-1)
    else if magGe m e 8 then (if neg then .fin false 1 (-1000) else .fin false (2 ^ 64 - 1) (-64))
    else if !magGe m e (-30) then .fin false (if neg then 2 ^ 64 - 1 else 2 ^ 64 + 1) (-65)
    else
      let p := fxExpNeg m e
      let x := fxShift p
      if neg then fxNum false (p.1 * fxOne / (fxOne + x)) p.2
      else fxNum false (fxOne * fxOne / (fxOne + x)) 0

/-- Sum of (-1)^n z2^n / (n! (2n+1)). -/
def fxErfSeries (z2 : Int) : Nat → Int → Nat → Int
  | 0, _, _ => 0
  | n + 1, t, k =>
    t / (2 * (k : Int) + 1) + fxErfSeries z2 n (-(t * z2 / fxOne) / ((k : Int) + 1)) (k + 1)

/-- 2 / sqrt(pi). -/
def fxTwoOverSqrtPi : Int := (isqrt ((4 * fxOne * fxOne * fxOne / fxPi).toNat) : Nat)

/-- The error function. -/
def fnErf : Num → Num
  | .nan => .nan
  | .inf neg => .fin neg 1 0
  | .fin neg m e =>
    if m = 0 then .fin neg 0 0
    else if magGe m e 3 then .fin neg (2 ^ 64 - 1) (-64)
    else
      let k := 2 * e + fxP
      let sq : Int := (m * m : Nat)
      let z2 : Int := if k ≥ 0 then sq * 2 ^ k.toNat else 0
      let g := fxErfSeries z2 330 fxOne 0 * fxTwoOverSqrtPi / fxOne
      .fin neg (sticky (m * g.toNat)) (e - fxP - 1)

end Sys2Proof.Machine
end

