-- ==== Sys2Proof/Machine/LegV.lean ====
section
/-! DEFINITION. The V slot (R162 to R165): vector arithmetic, functions, scans, grid lanes, conversion,
permutation, and vector loads and stores. -/

namespace Sys2Proof.Machine

/-- A 32-bit element with its poison. -/
abbrev PElem := BitVec 32 × Bool

/-- Issues a vector operation: the vector unit is held for `c` cycles (R135), the sources that it reads
report bad check bits (R84), and an enabled operation's elements are written with latency `l`, from element `off` of vd
upward; the rest of vd is not written. -/
def State.issueV (s : State) (t : Nat) (g : Guard) (srcs : List Nat) (c l vd : Nat)
    (f : Tile → Option (List PElem × Bool)) (ss : List Nat := []) (off : Nat := 0) : State :=
  let x := s.tile t
  let bad := x.issuing && x.enabled g && srcs.any fun v =>
    (List.range 256).any fun e => sget false x.vbad (256 * v + e)
  let s := s.issue t g <| readsS ss fun en x =>
    let x := if en then srcs.foldl (fun x v => { x with vpoison := (List.range 256).foldl (fun m e =>
      if sget false x.vbad (256 * v + e) then sset false (256 * v + e) true m else m) x.vpoison }) x else x
    match f x with
    | none => .stop .illegal x.pc
    | some r => x.holdAll [(.vector, x.span 0 (c - 1))] fun x =>
        .ok (x.planIf en 2 (l - 1) (.wrV (256 * vd + off) r.1 r.2))
  if bad then s.fault { msgOf K_TILE_UE 1 t with slot := (x.flight.map Prod.fst).getD 255 } else s

/-- An elementwise operation of two sources. -/
def elementwise (x : Tile) (va vb : Nat) (f : BitVec 32 → BitVec 32 → Option (BitVec 32)) :
    Option (List PElem × Bool) :=
  ((x.vreg va).zip (x.vreg vb)).mapM (fun p => (f p.1.1 p.2.1).map fun v => (v, p.1.2 || p.2.2))
    |>.map fun l => (l, false)

/-- The numbers of FOP and HOP: FN 0 add, 1 sub, 2 mul, 3 fma, 4 min, 5 max (R121). -/
def floatOp (fn : Nat) (a b d : Num) : Option Num :=
  match fn with
  | 0 => some (a.add b)
  | 1 => some (a.add b.neg)
  | 2 => some (a.mul b)
  | 3 => some ((a.mul b).add d)
  | 4 => some (a.minimum b)
  | 5 => some (a.maximum b)
  | _ => none

/-- One binary32 element of a float operation. -/
def fop32 (fn : Nat) (a b d : BitVec 32) : Option (BitVec 32) :=
  let n (v : BitVec 32) := decodeElem .f32 v.toNat
  (floatOp fn (n a) (n b) (n d)).map fun r => BitVec.ofNat 32 (encodeElem .f32 r).1

/-- Both bfloat16 halves of an element. -/
def hop32 (fn : Nat) (a b d : BitVec 32) : Option (BitVec 32) :=
  let n (v : BitVec 32) (h : Nat) := decodeElem .bf16 (v.toNat / 2 ^ (16 * h) % 65536)
  match floatOp fn (n a 0) (n b 0) (n d 0), floatOp fn (n a 1) (n b 1) (n d 1) with
  | some lo, some hi => some (BitVec.ofNat 32 ((encodeElem .bf16 lo).1 + 65536 * (encodeElem .bf16 hi).1))
  | _, _ => none

/-- A float operation on registers; vd is a source of fma alone. -/
def floatVec (x : Tile) (vd va vb fn : Nat) (f : Nat → BitVec 32 → BitVec 32 → BitVec 32 → Option (BitVec 32)) :
    Option (List PElem × Bool) :=
  ((x.vreg va).zip ((x.vreg vb).zip (x.vreg vd))).mapM (fun p =>
      (f fn p.1.1 p.2.1.1 p.2.2.1).map fun v => (v, p.1.2 || p.2.1.2 || (fn == 3 && p.2.2.2)))
    |>.map fun l => (l, false)

/-- V-slot NOP: it holds the vector unit for one cycle. -/
def execVNop (t : Nat) (g : Guard) (s : State) : Host.Outcome State Fault Refusal :=
  done s (s.issue t g fun _ x => x.holdAll [(.vector, [x.cyc])] fun x => .ok x)

/-- The registers that FOP and HOP read: vd only for fma. -/
def floatSrcs (vd va vb : BitVec 6) (fn : BitVec 4) : List Nat :=
  [va.toNat, vb.toNat] ++ if fn = 3 then [vd.toNat] else []

/-- FOP: binary32 (R121). -/
def execFop (t : Nat) (g : Guard) (vd va vb : BitVec 6) (fn : BitVec 4) (s : State) :
    Host.Outcome State Fault Refusal :=
  done s (s.issueV t g (floatSrcs vd va vb fn) 1 4 vd.toNat fun x =>
    floatVec x vd.toNat va.toNat vb.toNat fn.toNat fop32)

/-- HOP: bfloat16 (R121). -/
def execHop (t : Nat) (g : Guard) (vd va vb : BitVec 6) (fn : BitVec 4) (s : State) :
    Host.Outcome State Fault Refusal :=
  done s (s.issueV t g (floatSrcs vd va vb fn) 1 4 vd.toNat fun x =>
    floatVec x vd.toNat va.toNat vb.toNat fn.toNat hop32)

/-- IOP: 32-bit integers; latency 2, mul 3. -/
def execIop (t : Nat) (g : Guard) (vd va vb : BitVec 6) (fn : BitVec 4) (s : State) :
    Host.Outcome State Fault Refusal :=
  done s (s.issueV t g [va.toNat, vb.toNat] 1 (if fn.toNat = 2 then 3 else 2) vd.toNat fun x =>
    elementwise x va.toNat vb.toNat (vecIntOp fn.toNat))

/-- A truth value as FCMP and ICMP write it. -/
def maskOf (b : Bool) : BitVec 32 := if b then 0xFFFFFFFF else 0

/-- A binary32 comparison: NaN gives false, except ne gives true. -/
def floatCond (fn : Nat) (a b : Num) : Option Bool :=
  let un := decide (a = .nan) || decide (b = .nan)
  match fn with
  | 0 => some (a.eqv b)
  | 1 => some (un || !a.eqv b)
  | 2 => some (a.lt b)
  | 3 => some (!un && (a.lt b || a.eqv b))
  | _ => none

/-- FCMP. -/
def execFcmp (t : Nat) (g : Guard) (vd va vb : BitVec 6) (fn : BitVec 4) (s : State) :
    Host.Outcome State Fault Refusal :=
  done s (s.issueV t g [va.toNat, vb.toNat] 1 2 vd.toNat fun x =>
    elementwise x va.toNat vb.toNat fun a b =>
      (floatCond fn.toNat (decodeElem .f32 a.toNat) (decodeElem .f32 b.toNat)).map maskOf)

/-- ICMP. -/
def execIcmp (t : Nat) (g : Guard) (vd va vb : BitVec 6) (fn : BitVec 4) (s : State) :
    Host.Outcome State Fault Refusal :=
  done s (s.issueV t g [va.toNat, vb.toNat] 1 2 vd.toNat fun x =>
    elementwise x va.toNat vb.toNat fun a b => (vecIntCond fn.toNat a b).map maskOf)

/-- A select: vd[e] := va[e] where vd[e] is not 0, otherwise vb[e]; poisoned by vd[e] and by the element
selected. -/
def selectVec (x : Tile) (vd va vb : Nat) : List PElem :=
  ((x.vreg va).zip ((x.vreg vb).zip (x.vreg vd))).map fun p =>
    let c := p.2.2
    let v := if c.1 = 0 then p.2.1 else p.1
    (v.1, v.2 || c.2)

/-- VSEL. -/
def execVsel (t : Nat) (g : Guard) (vd va vb : BitVec 6) (fn : BitVec 4) (s : State) :
    Host.Outcome State Fault Refusal :=
  done s (s.issueV t g [va.toNat, vb.toNat, vd.toNat] 1 2 vd.toNat fun x =>
    if fn.toNat ≠ 0 then none else some (selectVec x vd.toNat va.toNat vb.toNat, false))

/-- The functions of R122 by VFN's FN: 0 to 4 exp2, log2, reciprocal, rsqrt, sqrt; 5 to 7 and 8 to 10
tanh, sigmoid, erf. -/
def vecFn (fn : Nat) (v : Num) : Num :=
  match fn with
  | 0 => fnExp2 v
  | 1 => fnLog2 v
  | 2 => fnRecip v
  | 3 => fnRsqrt v
  | 4 => fnSqrt v
  | 5 | 8 => fnTanh v
  | 6 | 9 => fnSigmoid v
  | _ => fnErf v

/-- 512 bfloat16 results packed two to an element. -/
def packHalves : List (Nat × Bool) → List PElem
  | a :: b :: l => (BitVec.ofNat 32 (a.1 + 65536 * b.1), a.2 || b.2) :: packHalves l
  | _ => []

/-- VFN: the elements it writes (R164). -/
def vfnVec (x : Tile) (va vb fn : Nat) : Option (List PElem × Bool) :=
  if fn ≤ 4 then
    if vb ≠ 0 then none
    else some ((x.vreg va).map fun e =>
      (BitVec.ofNat 32 (encodeElem .f32 (vecFn fn (decodeElem .f32 e.1.toNat))).1, e.2), false)
  else if fn ≤ 7 then
    if vb > 1 then none
    else
      some (packHalves ((x.vreg va).map fun e =>
        ((encodeElem .bf16 (vecFn fn (decodeElem .f32 e.1.toNat))).1, e.2)), false)
  else if fn ≤ 10 then
    if vb ≠ 0 then none
    else some ((x.vreg va).map fun e =>
      let h (i : Nat) := (encodeElem .bf16 (vecFn fn (decodeElem .bf16 (e.1.toNat / 2 ^ (16 * i) % 65536)))).1
      (BitVec.ofNat 32 (h 0 + 65536 * h 1), e.2), false)
  else none

/-- VFN. The field VB carries the half H in bit 4 of the slot, that is bit 0 of the field. -/
def execVfn (t : Nat) (g : Guard) (vd va vb : BitVec 6) (fn : BitVec 4) (s : State) :
    Host.Outcome State Fault Refusal :=
  let half := decide (5 ≤ fn.toNat ∧ fn.toNat ≤ 7)
  done s (s.issueV t g [va.toNat] (if half then 2 else 4) (if half then 12 else 14) vd.toNat
    (off := if half then 128 * vb.toNat else 0) fun x => vfnVec x va.toNat vb.toNat fn.toNat)

/-! ### Scans and grid lanes (R123, R124) -/

/-- Grid lane `j` of a register: its 128 bits and its poison. -/
def lanes (r : List PElem) : List (GVal × Bool) :=
  (chunks 4 64 r).map fun c =>
    (decodeGrid 128 ((c.zipIdx.map fun p => p.1.1.toNat * 2 ^ (32 * p.2)).sum), c.any Prod.snd)

/-- A grid lane as four storage elements, all poisoned when it is. -/
def laneElems (v : GVal × Bool) : List PElem :=
  (List.range 4).map fun i => (BitVec.ofNat 32 (encodeGrid 128 v.1 / 2 ^ (32 * i)), v.2)

/-- A segmented inclusive scan: the running value restarts where a flag is set, and the first element of a segment is
taken as it is, also a NaN of a binary32 minimum or maximum, whose payload it keeps (DESIGN CHOICE: log entry 77). -/
def scanList {α : Type} (f : α → α → α) : Option (α × Bool) → List ((α × Bool) × (Bool × Bool)) → List (α × Bool)
  | _, [] => []
  | acc, (v, fl) :: l =>
    let r : α × Bool :=
      match acc with
      | none => (v.1, v.2 || fl.2)
      | some a => if fl.1 then (v.1, v.2 || fl.2) else (f a.1 v.1, a.2 || v.2 || fl.2)
    r :: scanList f (some r) l

/-- A 32-bit scan operator by FN (R124); none for grid add and reserved values. -/
def scanOp (fn : Nat) : Option (BitVec 32 → BitVec 32 → BitVec 32) :=
  let num (v : BitVec 32) := decodeElem .f32 v.toNat
  let enc (v : Num) := BitVec.ofNat 32 (encodeElem .f32 v).1
  match fn with
  | 1 => some (· + ·)
  | 2 => some fun a b => if a.slt b then a else b
  | 3 => some fun a b => if a.slt b then b else a
  | 4 => some fun a b => enc ((num a).minimum (num b))
  | 5 => some fun a b => enc ((num a).maximum (num b))
  | 6 => some fun a b => enc ((num a).add (num b))
  | _ => none

/-- VSCAN: segment flags in vb, by element, or by element 4j for grid lane j (R165). A grid add folds the lanes of a
segment from its start upward, so a partial sum that leaves the finite range saturates (DESIGN CHOICE: log entry 77). -/
def scanVec (x : Tile) (va vb fn : Nat) : Option (List PElem × Bool) :=
  let flag (e : PElem) : Bool × Bool := (decide (e.1 ≠ 0), e.2)
  if fn = 0 then
    let fl := (List.range 64).map fun j => flag (x.velem vb (4 * j), x.velemPoison vb (4 * j))
    some ((scanList (fun a b => gridSum [a, b]) none ((lanes (x.vreg va)).zip fl)).flatMap laneElems, false)
  else
    (scanOp fn).map fun f => (scanList f none ((x.vreg va).zip ((x.vreg vb).map flag)), false)

/-- VSCAN. -/
def execVscan (t : Nat) (g : Guard) (vd va vb : BitVec 6) (fn : BitVec 4) (s : State) :
    Host.Outcome State Fault Refusal :=
  done s (s.issueV t g [va.toNat, vb.toNat] 2 10 vd.toNat fun x => scanVec x va.toNat vb.toNat fn.toNat)

/-- The elements that VGADD adds into lane `j`: binary32 elements j, j + 64, ..., or bfloat16 ones. -/
def laneTerms (r : List PElem) (bf : Bool) (gx : Int) (j : Nat) : List (GVal × Bool) :=
  if bf then
    (List.range 8).map fun k =>
      let i := j + 64 * k
      let e := r.getD (i / 2) (0, false)
      (roundGrid gx (decodeElem .bf16 (e.1.toNat / 2 ^ (16 * (i % 2)) % 65536)), e.2)
  else
    (List.range 4).map fun k =>
      let e := r.getD (j + 64 * k) (0, false)
      (roundGrid gx (decodeElem .f32 e.1.toNat), e.2)

/-- VGADD (R123). -/
def gaddVec (x : Tile) (vd va vb fn : Nat) : Option (List PElem × Bool) :=
  if vb ≠ 0 ∨ 1 < fn then none
  else
    some ((lanes (x.vreg vd)).zipIdx.flatMap (fun l =>
      let ts := laneTerms (x.vreg va) (fn == 1) x.gx.toInt l.2
      laneElems (gridSum (l.1.1 :: ts.map Prod.fst), l.1.2 || ts.any Prod.snd)), false)

/-- VGADD. -/
def execVgadd (t : Nat) (g : Guard) (vd va vb : BitVec 6) (fn : BitVec 4) (s : State) :
    Host.Outcome State Fault Refusal :=
  let bf := decide (fn.toNat = 1)
  done s (s.issueV t g [va.toNat, vd.toNat] (if bf then 8 else 4) (if bf then 12 else 8) vd.toNat fun x =>
    gaddVec x vd.toNat va.toNat vb.toNat fn.toNat)

/-- VGEXP: the lanes of va as binary32 into quarter Q, or as G64 into a half, of vd. -/
def gexpVec (x : Tile) (va vb fn : Nat) : Option (List PElem × Bool) :=
  if 4 ≤ vb then none
  else
    match fn with
    | 0 =>
      some ((lanes (x.vreg va)).map fun v => (BitVec.ofNat 32 (exportElem .f32 x.gx.toInt v.1).1, v.2), false)
    | 1 =>
      if 2 ≤ vb then none
      else
        some ((lanes (x.vreg va)).flatMap fun v =>
          let b := (exportElem .g64 x.gx.toInt v.1).1
          [(BitVec.ofNat 32 b, v.2), (BitVec.ofNat 32 (b / 2 ^ 32), v.2)], false)
    | _ => none

/-- VGEXP. -/
def execVgexp (t : Nat) (g : Guard) (vd va vb : BitVec 6) (fn : BitVec 4) (s : State) :
    Host.Outcome State Fault Refusal :=
  done s (s.issueV t g [va.toNat] 1 4 vd.toNat (off := (if fn = 0 then 64 else 128) * vb.toNat)
    fun x => gexpVec x va.toNat vb.toNat fn.toNat)

/-- VCVT's format codes (R165). -/
def vcvtFmt : Nat → Option Elem
  | 0 => some .f32 | 1 => some .bf16 | 2 => some .f16 | 3 => some .e4m3 | 4 => some .e5m2
  | 5 => some .int8 | _ => none

/-- A register's bytes with their poison. -/
def vecBytes (r : List PElem) : PBytes := r.flatMap fun e => (toLe 4 e.1.toNat).map fun b => (b, e.2)

/-- Bytes as `n` storage elements: an element is poisoned when any of its bytes is. -/
def bytesVec (n : Nat) (b : PBytes) : List PElem :=
  (chunks 4 n b).map fun c => (BitVec.ofNat 32 (leNat (bytesOf c)), anyPoison c)

/-- VCVT: 256 elements of source part SP into target part TP (R125, R165). The VB field is
{source [5:3], target [2:0]} and FN is {SP [3:2], TP [1:0]}. -/
def cvtVec (x : Tile) (va vb fn : Nat) : Option (List PElem × Bool) :=
  let sp := fn / 4
  let tp := fn % 4
  match vcvtFmt (vb / 8), vcvtFmt (vb % 8) with
  | some a, some b =>
    let wa := a.bits / 8
    let wb := b.bits / 8
    if vb / 8 = vb % 8 ∨ 4 / wa ≤ sp ∨ 4 / wb ≤ tp then none
    else
      let src := ((vecBytes (x.vreg va)).drop (256 * wa * sp)).take (256 * wa)
      let res := (chunks wa 256 src).map fun c =>
        (encodeElem b (decodeElem a (leNat (bytesOf c))), anyPoison c)
      some (bytesVec (64 * wb) (res.flatMap fun r => (toLe wb r.1.1).map fun y => (y, r.2)), res.any fun r => r.1.2)
  | _, _ => none

/-- Bytes of an element of a VCVT format. -/
def vcvtBytes (code : Nat) : Nat :=
  match vcvtFmt code with
  | some e => e.bits / 8
  | none => 0

/-- VCVT: target part TP is written. -/
def execVcvt (t : Nat) (g : Guard) (vd va vb : BitVec 6) (fn : BitVec 4) (s : State) :
    Host.Outcome State Fault Refusal :=
  done s (s.issueV t g [va.toNat] 1 3 vd.toNat (off := 64 * vcvtBytes (vb.toNat % 8) * (fn.toNat % 4))
    fun x => cvtVec x va.toNat vb.toNat fn.toNat)

/-- VPERM: vd[e] := va[vb[e] mod 256]. -/
def permVec (x : Tile) (va vb : Nat) : List PElem :=
  (x.vreg vb).map fun e =>
    let i := e.1.toNat % 256
    (x.velem va i, x.velemPoison va i || e.2)

/-- VPERM. -/
def execVperm (t : Nat) (g : Guard) (vd va vb : BitVec 6) (fn : BitVec 4) (s : State) :
    Host.Outcome State Fault Refusal :=
  done s (s.issueV t g [va.toNat, vb.toNat] 1 3 vd.toNat fun x =>
    if fn.toNat ≠ 0 then none else some (permVec x va.toNat vb.toNat, false))

/-- VLD: read port i + 1 to i + 4, latency 7. -/
def execVld (t : Nat) (g : Guard) (vd : BitVec 6) (ra : BitVec 5) (imm : BitVec 11) (s : State) :
    Host.Outcome State Fault Refusal :=
  done s (s.issue t g <| readsS [ra.toNat] fun en x =>
    let a := addrOf (x.rs ra.toNat) imm.toInt 256 8
    holdAccess en x ra.toNat a 1024
      (x.holdAll [(.vector, [x.cyc]), (.holdRead, x.span 1 4)] fun x =>
        .ok (x.planAll en 2 ((List.range 4).map fun p => (1 + p, TileAct.rdV vd.toNat a p)))))

/-- VST: write port i + 2 to i + 9. -/
def execVst (t : Nat) (g : Guard) (va : BitVec 6) (ra : BitVec 5) (imm : BitVec 11) (s : State) :
    Host.Outcome State Fault Refusal :=
  let x := s.tile t
  let bad := x.issuing && x.enabled g && (List.range 256).any fun e => sget false x.vbad (256 * va.toNat + e)
  let s' := s.issue t g <| readsS [ra.toNat] fun en x =>
    let a := addrOf (x.rs ra.toNat) imm.toInt 256 8
    let bs := vecBytes ((List.range 256).map fun e =>
      (x.velem va.toNat e, x.velemPoison va.toNat e || sget false x.vbad (256 * va.toNat + e)))
    holdAccess en x ra.toNat a 1024
      (x.holdAll [(.vector, [x.cyc]), (.holdWrite, x.span 2 9)] fun x =>
        .ok (x.planAll en 2 ((List.range 8).map fun p =>
          (2 + p, TileAct.wrHold (a + 128 * p) ((bs.drop (128 * p)).take 128)))))
  done s (if bad then s'.fault { msgOf K_TILE_UE 1 t with slot := (x.flight.map Prod.fst).getD 255 } else s')

/-- VBC: every element of vd := RA[31:0]. -/
def execVbc (t : Nat) (g : Guard) (vd : BitVec 6) (ra : BitVec 5) (s : State) :
    Host.Outcome State Fault Refusal :=
  done s (s.issueV t g [] 1 2 vd.toNat (ss := [ra.toNat]) fun x =>
    some (List.replicate 256 ((x.rs ra.toNat).truncate 32, x.rsPoison ra.toNat), false))

/-- VEXT: RD := zero-extended element LANE of va. -/
def execVext (t : Nat) (g : Guard) (rd : BitVec 5) (va : BitVec 6) (lane : BitVec 8) (s : State) :
    Host.Outcome State Fault Refusal :=
  let x := s.tile t
  let i := 256 * va.toNat + lane.toNat
  let bad := x.issuing && x.enabled g && sget false x.vbad i
  let s' := s.issue t g fun en x =>
    x.holdAll [(.vector, [x.cyc])] fun x =>
      .ok (x.writeS en 2 3 rd.toNat ((x.velem va.toNat lane.toNat).zeroExtend 64)
        (x.velemPoison va.toNat lane.toNat || sget false x.vbad i))
  done s (if bad then s'.fault { msgOf K_TILE_UE 1 t with slot := (x.flight.map Prod.fst).getD 255 } else s')

end Sys2Proof.Machine
end

