-- ==== Sys2Proof/Machine/Dispatch.lean ====
section
/-! DEFINITION. The dispatch: one arm per command, each one call of its meaning. -/

namespace Sys2Proof.Machine
open Sys2Proof

/-- The effect of a command on everything but the queue. -/
def exec (i : Instr) (s : State) : Host.Outcome State Fault Refusal :=
  match i with
  | .coldReset b => Sys2Proof.Machine.execColdReset b s
  | .warmReset b => Sys2Proof.Machine.execWarmReset b s
  | .cxlReset memClr b => Sys2Proof.Machine.execCxlReset memClr b s
  | .flr => Sys2Proof.Machine.execFlr s
  | .powerGoodLoss rail => Sys2Proof.Machine.execPowerGoodLoss rail s
  | .hostLinkUp => Sys2Proof.Machine.execHostLinkUp s
  | .stackTraining reports => Sys2Proof.Machine.execStackTraining reports s
  | .canalTraining port r => Sys2Proof.Machine.execCanalTraining port r s
  | .trainingStepTimeout port step => Sys2Proof.Machine.execTrainingStepTimeout port step s
  | .waterwayDiscovery d => Sys2Proof.Machine.execWaterwayDiscovery d s
  | .discoveryTimeout => Sys2Proof.Machine.execDiscoveryTimeout s
  | .waybillUnjoinedUpdate => Sys2Proof.Machine.execWaybillUnjoinedUpdate s
  | .firmwareBootLoad v => Sys2Proof.Machine.execFirmwareBootLoad v s
  | .firmwareUpdate v => Sys2Proof.Machine.execFirmwareUpdate v s
  | .firmwareCheckDone readOk => Sys2Proof.Machine.execFirmwareCheckDone readOk s
  | .roleLoadDone => Sys2Proof.Machine.execRoleLoadDone s
  | .roleMigrate role => Sys2Proof.Machine.execRoleMigrate role s
  | .lock tj => Sys2Proof.Machine.execLock tj s
  | .counterDecay => Sys2Proof.Machine.execCounterDecay s
  | .voteInstant => Sys2Proof.Machine.execVoteInstant s
  | .gateFlitSend round phase => Sys2Proof.Machine.execGateFlitSend round phase s
  | .gateFlitReceive port errs0 errs1 head spec crc payload => Sys2Proof.Machine.execGateFlitReceive port errs0 errs1 head spec crc payload s
  | .legStart => Sys2Proof.Machine.execLegStart s
  | .clockStep t => Sys2Proof.Machine.execClockStep t s
  | .clockStepDeferred t => Sys2Proof.Machine.execClockStepDeferred t s
  | .droopTrip reach det level => Sys2Proof.Machine.execDroopTrip reach det level s
  | .droopStretchEnd reach det => Sys2Proof.Machine.execDroopStretchEnd reach det s
  | .lockIn slot => Sys2Proof.Machine.execLockIn slot s
  | .holdoverExpiry => Sys2Proof.Machine.execHoldoverExpiry s
  | .lockmasterAbsence => Sys2Proof.Machine.execLockmasterAbsence s
  | .setupRequest v => Sys2Proof.Machine.execSetupRequest v s
  | .tckLoRead a => Sys2Proof.Machine.execTckLoRead a s
  | .registerWrite a size v => Sys2Proof.Machine.execRegisterWrite a size v s
  | .nop t g => Sys2Proof.Machine.execNop t g s
  | .endLeg t g => Sys2Proof.Machine.execEndLeg t g s
  | .br t g imm => Sys2Proof.Machine.execBr t g imm s
  | .brr t g ra => Sys2Proof.Machine.execBrr t g ra s
  | .alu t g rd ra rb fn => Sys2Proof.Machine.execAlu t g rd ra rb fn s
  | .addi t g rd ra imm => Sys2Proof.Machine.execAddi t g rd ra imm s
  | .andi t g rd ra imm => Sys2Proof.Machine.execAndi t g rd ra imm s
  | .ori t g rd ra imm => Sys2Proof.Machine.execOri t g rd ra imm s
  | .xori t g rd ra imm => Sys2Proof.Machine.execXori t g rd ra imm s
  | .shfi t g rd ra kind amt => Sys2Proof.Machine.execShfi t g rd ra kind amt s
  | .li t g rd imm => Sys2Proof.Machine.execLi t g rd imm s
  | .shin t g rd imm => Sys2Proof.Machine.execShin t g rd imm s
  | .cmp t g pd fn ra rb => Sys2Proof.Machine.execCmp t g pd fn ra rb s
  | .cmpi t g pd fn ra imm => Sys2Proof.Machine.execCmpi t g pd fn ra imm s
  | .pop t g pd fn pa pb => Sys2Proof.Machine.execPop t g pd fn pa pb s
  | .ld t g rd ra imm => Sys2Proof.Machine.execLd t g rd ra imm s
  | .st t g rb ra imm => Sys2Proof.Machine.execSt t g rb ra imm s
  | .rds t g rd sel => Sys2Proof.Machine.execRds t g rd sel s
  | .flg t g rd mask => Sys2Proof.Machine.execFlg t g rd mask s
  | .tNop t g => Sys2Proof.Machine.execTNop t g s
  | .lds t g buf sp bs fmt ra => Sys2Proof.Machine.execLds t g buf sp bs fmt ra s
  | .mma t g bank buf z ag bs fmt ra rb => Sys2Proof.Machine.execMma t g bank buf z ag bs fmt ra rb s
  | .expBank t g bank cz fmt bs ra rb => Sys2Proof.Machine.execExpBank t g bank cz fmt bs ra rb s
  | .imp t g bank g64 ra rb => Sys2Proof.Machine.execImp t g bank g64 ra rb s
  | .zb t g bank w => Sys2Proof.Machine.execZb t g bank w s
  | .gxi t g imm => Sys2Proof.Machine.execGxi t g imm s
  | .gxr t g ra => Sys2Proof.Machine.execGxr t g ra s
  | .vNop t g => Sys2Proof.Machine.execVNop t g s
  | .fop t g vd va vb fn => Sys2Proof.Machine.execFop t g vd va vb fn s
  | .hop t g vd va vb fn => Sys2Proof.Machine.execHop t g vd va vb fn s
  | .iop t g vd va vb fn => Sys2Proof.Machine.execIop t g vd va vb fn s
  | .fcmp t g vd va vb fn => Sys2Proof.Machine.execFcmp t g vd va vb fn s
  | .icmp t g vd va vb fn => Sys2Proof.Machine.execIcmp t g vd va vb fn s
  | .vsel t g vd va vb fn => Sys2Proof.Machine.execVsel t g vd va vb fn s
  | .vfn t g vd va vb fn => Sys2Proof.Machine.execVfn t g vd va vb fn s
  | .vscan t g vd va vb fn => Sys2Proof.Machine.execVscan t g vd va vb fn s
  | .vgadd t g vd va vb fn => Sys2Proof.Machine.execVgadd t g vd va vb fn s
  | .vgexp t g vd va vb fn => Sys2Proof.Machine.execVgexp t g vd va vb fn s
  | .vcvt t g vd va vb fn => Sys2Proof.Machine.execVcvt t g vd va vb fn s
  | .vperm t g vd va vb fn => Sys2Proof.Machine.execVperm t g vd va vb fn s
  | .vld t g vd ra imm => Sys2Proof.Machine.execVld t g vd ra imm s
  | .vst t g va ra imm => Sys2Proof.Machine.execVst t g va ra imm s
  | .vbc t g vd ra => Sys2Proof.Machine.execVbc t g vd ra s
  | .vext t g rd va lane => Sys2Proof.Machine.execVext t g rd va lane s
  | .bNop t g => Sys2Proof.Machine.execBNop t g s
  | .barge t g lc idx => Sys2Proof.Machine.execBarge t g lc idx s
  | .waitLc t g lc n => Sys2Proof.Machine.execWaitLc t g lc n s
  | .waitLock t g cyc => Sys2Proof.Machine.execWaitLock t g cyc s
  | .bundleStallRelease t => Sys2Proof.Machine.execBundleStallRelease t s
  | .lcset t g lc v => Sys2Proof.Machine.execLcset t g lc v s
  | .gld t g rd lc w ra sz aq rl => Sys2Proof.Machine.execGld t g rd lc w ra sz aq rl s
  | .gst t g rb lc w ra sz aq rl => Sys2Proof.Machine.execGst t g rb lc w ra sz aq rl s
  | .gamo t g rd lc w ra fn nf => Sys2Proof.Machine.execGamo t g rd lc w ra fn nf s
  | .fence t g lc => Sys2Proof.Machine.execFence t g lc s
  | .muster t g bid => Sys2Proof.Machine.execMuster t g bid s
  | .globalAccessLanding t id => Sys2Proof.Machine.execGlobalAccessLanding t id s
  | .bargeLanding t id => Sys2Proof.Machine.execBargeLanding t id s
  | .overrunDrainDone slot => Sys2Proof.Machine.execOverrunDrainDone slot s
  | .tileZeroingDone t => Sys2Proof.Machine.execTileZeroingDone t s
  | .substitutionCopyDone reach => Sys2Proof.Machine.execSubstitutionCopyDone reach s
  | .tileRegrade v => Sys2Proof.Machine.execTileRegrade v s
  | .regradeDone reach passed => Sys2Proof.Machine.execRegradeDone reach passed s
  | .spareSubstitution v => Sys2Proof.Machine.execSpareSubstitution v s
  | .ringNop c r h => Sys2Proof.Machine.execRingNop c r h s
  | .fenceSignal c r h fence off value => Sys2Proof.Machine.execFenceSignal c r h fence off value s
  | .fenceWait c r h fence off value timeoutUs => Sys2Proof.Machine.execFenceWait c r h fence off value timeoutUs s
  | .fenceWaitSatisfied c r => Sys2Proof.Machine.execFenceWaitSatisfied c r s
  | .fenceWaitTimeout c r => Sys2Proof.Machine.execFenceWaitTimeout c r s
  | .copy c r h src dst srcOff dstOff len => Sys2Proof.Machine.execCopy c r h src dst srcOff dstOff len s
  | .fill c r h dst dstOff len pattern => Sys2Proof.Machine.execFill c r h dst dstOff len pattern s
  | .mapRange c r h ctx page count va entry => Sys2Proof.Machine.execMapRange c r h ctx page count va entry s
  | .unmapRange c r h ctx page count va => Sys2Proof.Machine.execUnmapRange c r h ctx page count va s
  | .invalidateXlt c r h ctx scope page count va => Sys2Proof.Machine.execInvalidateXlt c r h ctx scope page count va s
  | .setBias c r h bias count dpa => Sys2Proof.Machine.execSetBias c r h bias count dpa s
  | .loadFlight c r h image off len => Sys2Proof.Machine.execLoadFlight c r h image off len s
  | .bindFlight c r h slot tag fence fenceOff endValue => Sys2Proof.Machine.execBindFlight c r h slot tag fence fenceOff endValue s
  | .runFlight c r h slot startPound => Sys2Proof.Machine.execRunFlight c r h slot startPound s
  | .startDeferLimit slot => Sys2Proof.Machine.execStartDeferLimit slot s
  | .moorFlight c r h slot => Sys2Proof.Machine.execMoorFlight c r h slot s
  | .resumeFlight c r h slot => Sys2Proof.Machine.execResumeFlight c r h slot s
  | .haltFlight c r h slot release => Sys2Proof.Machine.execHaltFlight c r h slot release s
  | .snapshot c r h slot exportH exportOff => Sys2Proof.Machine.execSnapshot c r h slot exportH exportOff s
  | .snapshotCopyDone slot => Sys2Proof.Machine.execSnapshotCopyDone slot s
  | .snapshotExportDone slot => Sys2Proof.Machine.execSnapshotExportDone slot s
  | .replicaStreamEnd src slot => Sys2Proof.Machine.execReplicaStreamEnd src slot s
  | .restore c r h slot source importH importOff pound => Sys2Proof.Machine.execRestore c r h slot source importH importOff pound s
  | .restoreCopyDone slot => Sys2Proof.Machine.execRestoreCopyDone slot s
  | .maint c r h op space ctx addr len => Sys2Proof.Machine.execMaint c r h op space ctx addr len s
  | .setPowerLease c r h watts durUs => Sys2Proof.Machine.execSetPowerLease c r h watts durUs s
  | .contextTeardown c r h ctx => Sys2Proof.Machine.execContextTeardown c r h ctx s
  | .barrierTimeout slot => Sys2Proof.Machine.execBarrierTimeout slot s
  | .doorbellWake c r => Sys2Proof.Machine.execDoorbellWake c r s
  | .doorbellPoll c r => Sys2Proof.Machine.execDoorbellPoll c r s
  | .descriptorLineWritten c r => Sys2Proof.Machine.execDescriptorLineWritten c r s
  | .consumerWordPoll c => Sys2Proof.Machine.execConsumerWordPoll c s
  | .contextEnable v => Sys2Proof.Machine.execContextEnable v s
  | .contextSuspend v => Sys2Proof.Machine.execContextSuspend v s
  | .contextResume v => Sys2Proof.Machine.execContextResume v s
  | .ringEnable => Sys2Proof.Machine.execRingEnable s
  | .ringDisable => Sys2Proof.Machine.execRingDisable s
  | .rngInjCrc => Sys2Proof.Machine.execRngInjCrc s
  | .canalSlot port k => Sys2Proof.Machine.execCanalSlot port k s
  | .dataFlitReceive port errs bytes => Sys2Proof.Machine.execDataFlitReceive port errs bytes s
  | .lackReceive port errs bytes => Sys2Proof.Machine.execLackReceive port errs bytes s
  | .timeFlitReceive port errs bytes t4 => Sys2Proof.Machine.execTimeFlitReceive port errs bytes t4 s
  | .idleFlitReceive port errs bytes => Sys2Proof.Machine.execIdleFlitReceive port errs bytes s
  | .trainFlitReceive port errs bytes retire failedLink => Sys2Proof.Machine.execTrainFlitReceive port errs bytes retire failedLink s
  | .absentFlitReceive port errs bytes => Sys2Proof.Machine.execAbsentFlitReceive port errs bytes s
  | .linkNakReceive port ack => Sys2Proof.Machine.execLinkNakReceive port ack s
  | .replayTimerExpiry port => Sys2Proof.Machine.execReplayTimerExpiry port s
  | .linkSilenceTimeout port => Sys2Proof.Machine.execLinkSilenceTimeout port s
  | .linkRetire port => Sys2Proof.Machine.execLinkRetire port s
  | .linkRetrain port => Sys2Proof.Machine.execLinkRetrain port s
  | .portEnable port => Sys2Proof.Machine.execPortEnable port s
  | .cnlInjFec port => Sys2Proof.Machine.execCnlInjFec port s
  | .cnlInjCrc port => Sys2Proof.Machine.execCnlInjCrc port s
  | .stackRead dpa len => Sys2Proof.Machine.execStackRead dpa len s
  | .stackWrite dpa bytes poison => Sys2Proof.Machine.execStackWrite dpa bytes poison s
  | .correctedWriteback dpa => Sys2Proof.Machine.execCorrectedWriteback dpa s
  | .scrubRead port => Sys2Proof.Machine.execScrubRead port s
  | .accountingWindow port => Sys2Proof.Machine.execAccountingWindow port s
  | .stackTempSample port temp => Sys2Proof.Machine.execStackTempSample port temp s
  | .channelDrain port v => Sys2Proof.Machine.execChannelDrain port v s
  | .channelMargin port v => Sys2Proof.Machine.execChannelMargin port v s
  | .channelReturn port v => Sys2Proof.Machine.execChannelReturn port v s
  | .pcEvacRelease port hi v => Sys2Proof.Machine.execPcEvacRelease port hi v s
  | .pcForce port v => Sys2Proof.Machine.execPcForce port v s
  | .stkInjUe port => Sys2Proof.Machine.execStkInjUe port s
  | .stkInjCe port => Sys2Proof.Machine.execStkInjCe port s
  | .sharedRead agent host addr attr => Sys2Proof.Machine.execSharedRead agent host addr attr s
  | .ownershipRead agent host addr => Sys2Proof.Machine.execOwnershipRead agent host addr s
  | .mLineWriteBack agent host addr => Sys2Proof.Machine.execMLineWriteBack agent host addr s
  | .nonCachingRead host addr len => Sys2Proof.Machine.execNonCachingRead host addr len s
  | .nonCachingWrite host addr attr bytes poison => Sys2Proof.Machine.execNonCachingWrite host addr attr bytes poison s
  | .forwardedRequest agent host addr own => Sys2Proof.Machine.execForwardedRequest agent host addr own s
  | .victimWritebackAccept agent host addr => Sys2Proof.Machine.execVictimWritebackAccept agent host addr s
  | .atomic addr attr fn size operand compare moored => Sys2Proof.Machine.execAtomic addr attr fn size operand compare moored s
  | .mooredAccess off wr bytes poison => Sys2Proof.Machine.execMooredAccess off wr bytes poison s
  | .wayTestDone basin idx way passes => Sys2Proof.Machine.execWayTestDone basin idx way passes s
  | .moorRequest v => Sys2Proof.Machine.execMoorRequest v s
  | .moorCleanDone => Sys2Proof.Machine.execMoorCleanDone s
  | .clean v => Sys2Proof.Machine.execClean v s
  | .invalidate v => Sys2Proof.Machine.execInvalidate v s
  | .cleanInvalidate v => Sys2Proof.Machine.execCleanInvalidate v s
  | .warm v => Sys2Proof.Machine.execWarm v s
  | .zero v => Sys2Proof.Machine.execZero v s
  | .maintEntryEnd => Sys2Proof.Machine.execMaintEntryEnd s
  | .cmxInjBsnUe => Sys2Proof.Machine.execCmxInjBsnUe s
  | .cmxInjBsnCe => Sys2Proof.Machine.execCmxInjBsnCe s
  | .cmxInjRcParity => Sys2Proof.Machine.execCmxInjRcParity s
  | .lkLoad k page addr size => Sys2Proof.Machine.execLkLoad k page addr size s
  | .lkStore k page addr size value => Sys2Proof.Machine.execLkStore k page addr size value s
  | .storeBufferDrain k => Sys2Proof.Machine.execStoreBufferDrain k s
  | .lkFence k => Sys2Proof.Machine.execLkFence k s
  | .fenceI k => Sys2Proof.Machine.execFenceI k s
  | .lkAmo k host addr attr fn size operand compare aq rl => Sys2Proof.Machine.execLkAmo k host addr attr fn size operand compare aq rl s
  | .lr k host addr attr size aq rl => Sys2Proof.Machine.execLr k host addr attr size aq rl s
  | .sc k host addr attr size value aq rl => Sys2Proof.Machine.execSc k host addr attr size value aq rl s
  | .reservationExpiry k => Sys2Proof.Machine.execReservationExpiry k s
  | .pinExpiry k => Sys2Proof.Machine.execPinExpiry k s
  | .lkDeviceAccess k a => Sys2Proof.Machine.execLkDeviceAccess k a s
  | .trapEntry k older => Sys2Proof.Machine.execTrapEntry k older s
  | .lkPowerDown k => Sys2Proof.Machine.execLkPowerDown k s
  | .bar4Write off bytes ep => Sys2Proof.Machine.execBar4Write off bytes ep s
  | .bar4Read off len => Sys2Proof.Machine.execBar4Read off len s
  | .memRd hpa metaState metaValue snp => Sys2Proof.Machine.execMemRd hpa metaState metaValue snp s
  | .memWr hpa metaValue snp bytes poison => Sys2Proof.Machine.execMemWr hpa metaValue snp bytes poison s
  | .memClnEvct hpa metaValue => Sys2Proof.Machine.execMemClnEvct hpa metaValue s
  | .birspI dpa data => Sys2Proof.Machine.execBirspI dpa data s
  | .birspS dpa data => Sys2Proof.Machine.execBirspS dpa data s
  | .birspE dpa data => Sys2Proof.Machine.execBirspE dpa data s
  | .snpData hpa => Sys2Proof.Machine.execSnpData hpa s
  | .snpInv hpa => Sys2Proof.Machine.execSnpInv hpa s
  | .snpCur hpa => Sys2Proof.Machine.execSnpCur hpa s
  | .completionReceive tag off last r => Sys2Proof.Machine.execCompletionReceive tag off last r s
  | .completionTimeout tag => Sys2Proof.Machine.execCompletionTimeout tag s
  | .tagQuarantineExpiry tag => Sys2Proof.Machine.execTagQuarantineExpiry tag s
  | .decoderCommit d base size skip ways gran lockIt => Sys2Proof.Machine.execDecoderCommit d base size skip ways gran lockIt s
  | .busMasterDisable => Sys2Proof.Machine.execBusMasterDisable s
  | .busMasterEnable => Sys2Proof.Machine.execBusMasterEnable s
  | .d3hotEntry => Sys2Proof.Machine.execD3hotEntry s
  | .d0Return => Sys2Proof.Machine.execD0Return s
  | .cacheWritebackInvalidate => Sys2Proof.Machine.execCacheWritebackInvalidate s
  | .gpfPhase1 => Sys2Proof.Machine.execGpfPhase1 s
  | .viralReceive => Sys2Proof.Machine.execViralReceive s
  | .ideCheckFailed cachemem => Sys2Proof.Machine.execIdeCheckFailed cachemem s
  | .vectorUnmask vec => Sys2Proof.Machine.execVectorUnmask vec s
  | .getVersion => Sys2Proof.Machine.execGetVersion s
  | .getCapabilities => Sys2Proof.Machine.execGetCapabilities s
  | .negotiateAlgorithms offered => Sys2Proof.Machine.execNegotiateAlgorithms offered s
  | .getDigests => Sys2Proof.Machine.execGetDigests s
  | .getCertificate slot off len => Sys2Proof.Machine.execGetCertificate slot off len s
  | .challenge slot nonce => Sys2Proof.Machine.execChallenge slot nonce s
  | .getMeasurements index => Sys2Proof.Machine.execGetMeasurements index s
  | .keyExchange slot => Sys2Proof.Machine.execKeyExchange slot s
  | .finish session ok => Sys2Proof.Machine.execFinish session ok s
  | .heartbeat session => Sys2Proof.Machine.execHeartbeat session s
  | .keyUpdate session => Sys2Proof.Machine.execKeyUpdate session s
  | .endSession session => Sys2Proof.Machine.execEndSession session s
  | .berthEnable b => Sys2Proof.Machine.execBerthEnable b s
  | .berthTrainingDone b ok modules rate vendor device => Sys2Proof.Machine.execBerthTrainingDone b ok modules rate vendor device s
  | .berthModuleFail b m => Sys2Proof.Machine.execBerthModuleFail b m s
  | .berthLinkDown b => Sys2Proof.Machine.execBerthLinkDown b s
  | .berthDrain b => Sys2Proof.Machine.execBerthDrain b s
  | .berthDrainDone b => Sys2Proof.Machine.execBerthDrainDone b s
  | .berthUndrain b => Sys2Proof.Machine.execBerthUndrain b s
  | .berthWr b m => Sys2Proof.Machine.execBerthWr b m s
  | .berthRd b m => Sys2Proof.Machine.execBerthRd b m s
  | .berthAmo b m => Sys2Proof.Machine.execBerthAmo b m s
  | .berthCpl b tag status data poison => Sys2Proof.Machine.execBerthCpl b tag status data poison s
  | .berthFence b m => Sys2Proof.Machine.execBerthFence b m s
  | .berthDb b m => Sys2Proof.Machine.execBerthDb b m s
  | .berthMessageTimeout b tag => Sys2Proof.Machine.execBerthMessageTimeout b tag s
  | .berthRdCurr b addr => Sys2Proof.Machine.execBerthRdCurr b addr s
  | .berthRdShared b addr => Sys2Proof.Machine.execBerthRdShared b addr s
  | .berthRdOwn b addr => Sys2Proof.Machine.execBerthRdOwn b addr s
  | .berthRdOwnNoData b addr => Sys2Proof.Machine.execBerthRdOwnNoData b addr s
  | .berthCleanEvict b addr => Sys2Proof.Machine.execBerthCleanEvict b addr s
  | .berthCleanEvictNoData b addr => Sys2Proof.Machine.execBerthCleanEvictNoData b addr s
  | .berthDirtyEvict b addr bytes poison => Sys2Proof.Machine.execBerthDirtyEvict b addr bytes poison s
  | .brtInjCrc b => Sys2Proof.Machine.execBrtInjCrc b s
  | .actHoldSet => Sys2Proof.Machine.execActHoldSet s
  | .actHoldClear => Sys2Proof.Machine.execActHoldClear s
  | .railSample comp mem links => Sys2Proof.Machine.execRailSample comp mem links s
  | .fastLimitDisable => Sys2Proof.Machine.execFastLimitDisable s
  | .pwrDroopWrite v => Sys2Proof.Machine.execPwrDroopWrite v s
  | .leaseExpiry towpath => Sys2Proof.Machine.execLeaseExpiry towpath s
  | .conservativeEntry => Sys2Proof.Machine.execConservativeEntry s
  | .conservativeExit => Sys2Proof.Machine.execConservativeExit s
  | .powerMoorResume slot => Sys2Proof.Machine.execPowerMoorResume slot s
  | .thermalTrip junction ports => Sys2Proof.Machine.execThermalTrip junction ports s
  | .faultMessageReceive m => Sys2Proof.Machine.execFaultMessageReceive m s
  | .faultOutPulseEnd => Sys2Proof.Machine.execFaultOutPulseEnd s
  | .faultLogClear => Sys2Proof.Machine.execFaultLogClear s
  | .faultRingEnable => Sys2Proof.Machine.execFaultRingEnable s
  | .fltCntWrite kind v => Sys2Proof.Machine.execFltCntWrite kind v s
  | .fltWwReset => Sys2Proof.Machine.execFltWwReset s
  | .devHalt => Sys2Proof.Machine.execDevHalt s
  | .fltInjTile v => Sys2Proof.Machine.execFltInjTile v s
  | .fltInjLkp v => Sys2Proof.Machine.execFltInjLkp v s
  | .fltInjMsg v => Sys2Proof.Machine.execFltInjMsg v s
  | .xltInjTlbParity => Sys2Proof.Machine.execXltInjTlbParity s
  | .xltEnable => Sys2Proof.Machine.execXltEnable s
  | .xltDisable => Sys2Proof.Machine.execXltDisable s
  | .getStatus => Sys2Proof.Machine.execGetStatus s
  | .getClocks => Sys2Proof.Machine.execGetClocks s
  | .getTemps => Sys2Proof.Machine.execGetTemps s
  | .getLimits => Sys2Proof.Machine.execGetLimits s
  | .getPower => Sys2Proof.Machine.execGetPower s
  | .setLease watts durUs => Sys2Proof.Machine.execSetLease watts durUs s
  | .wwReset => Sys2Proof.Machine.execWwReset s
  | .lossOfCodewordAlignment port => Sys2Proof.Machine.execLossOfCodewordAlignment port s
  | .peerSignalReturn port => Sys2Proof.Machine.execPeerSignalReturn port s
  | .berthDisable b => Sys2Proof.Machine.execBerthDisable b s
  | .cacheEnableWrite en => Sys2Proof.Machine.execCacheEnableWrite en s
  | .biconflict dpa => Sys2Proof.Machine.execBiconflict dpa s
  | .cxlCacheHostResponse hpa data poison => Sys2Proof.Machine.execCxlCacheHostResponse hpa data poison s
  | .ideKeyProgramming session cachemem => Sys2Proof.Machine.execIdeKeyProgramming session cachemem s
  | .lkWatchdogExpiry k => Sys2Proof.Machine.execLkWatchdogExpiry k s
  | .bindImagesWritten slot => Sys2Proof.Machine.execBindImagesWritten slot s
  | .channelMarginDone port m => Sys2Proof.Machine.execChannelMarginDone port m s

end Sys2Proof.Machine
end

