-- ==== Sys2Proof/Machine/Tick.lean ====
section
/-! DEFINITION. The tick of an idle queue: every running tile fetches and issues one bundle and ends its
present cycle (R77, R126 to R139, R167). -/

namespace Sys2Proof.Machine

/-- Bits of a slot word from `lo`, `n` of them. -/
def sl (w : BitVec 32) (lo n : Nat) : BitVec n := w.extractLsb' lo n

/-- The guard of a slot (R127). -/
def slotGuard (w : BitVec 32) : Guard := { pn := w.getLsbD 31, pr := sl w 28 3 }

/-- The opcode of a slot. -/
def slotOp (w : BitVec 32) : Nat := (sl w 22 6).toNat

/-- An instruction, given that the field marked 0 is 0. -/
def zeros {n : Nat} (z : BitVec n) (i : Instr) : Option Instr := if z = 0 then some i else none

/-- The S slot (R143, R144). -/
def slotS (t : Nat) (w : BitVec 32) : Option Instr :=
  let g := slotGuard w
  match slotOp w with
  | 0x00 => zeros (sl w 0 22) (.nop t g)
  | 0x01 => zeros (sl w 0 22) (.endLeg t g)
  | 0x02 => zeros (sl w 13 9) (.br t g (sl w 0 13))
  | 0x03 => if sl w 17 5 = 0 ∧ sl w 0 12 = 0 then some (.brr t g (sl w 12 5)) else none
  | 0x04 => some (.alu t g (sl w 17 5) (sl w 12 5) (sl w 7 5) (sl w 0 7))
  | 0x05 => some (.addi t g (sl w 17 5) (sl w 12 5) (sl w 0 12))
  | 0x06 => some (.andi t g (sl w 17 5) (sl w 12 5) (sl w 0 12))
  | 0x07 => some (.ori t g (sl w 17 5) (sl w 12 5) (sl w 0 12))
  | 0x08 => some (.xori t g (sl w 17 5) (sl w 12 5) (sl w 0 12))
  | 0x09 => zeros (sl w 6 4) (.shfi t g (sl w 17 5) (sl w 12 5) (sl w 10 2) (sl w 0 6))
  | 0x0A => some (.li t g (sl w 17 5) (sl w 0 17))
  | 0x0B => some (.shin t g (sl w 17 5) (sl w 0 17))
  | 0x0C => zeros (sl w 0 6) (.cmp t g (sl w 19 3) (sl w 16 3) (sl w 11 5) (sl w 6 5))
  | 0x0D => some (.cmpi t g (sl w 19 3) (sl w 16 3) (sl w 11 5) (sl w 0 11))
  | 0x0E => zeros (sl w 0 10) (.pop t g (sl w 19 3) (sl w 16 3) (sl w 13 3) (sl w 10 3))
  | 0x0F => some (.ld t g (sl w 17 5) (sl w 12 5) (sl w 0 12))
  | 0x10 => some (.st t g (sl w 17 5) (sl w 12 5) (sl w 0 12))
  | 0x11 => zeros (sl w 8 9) (.rds t g (sl w 17 5) (sl w 0 8))
  | 0x12 => zeros (sl w 3 14) (.flg t g (sl w 17 5) (sl w 0 3))
  | _ => none

/-- The T slot (R151). -/
def slotT (t : Nat) (w : BitVec 32) : Option Instr :=
  let g := slotGuard w
  let b (i : Nat) : Bool := w.getLsbD i
  match slotOp w with
  | 0x00 => zeros (sl w 0 22) (.tNop t g)
  | 0x01 => zeros (sl w 0 10) (.lds t g (b 21) (b 20) (b 19) (sl w 15 4) (sl w 10 5))
  | 0x02 => zeros (sl w 0 3)
      (.mma t g (b 21) (b 20) (b 19) (b 18) (b 17) (sl w 13 4) (sl w 8 5) (sl w 3 5))
  | 0x03 => zeros (sl w 0 5) (.expBank t g (b 21) (b 20) (sl w 16 4) (b 15) (sl w 10 5) (sl w 5 5))
  | 0x04 => zeros (sl w 0 10) (.imp t g (b 21) (b 20) (sl w 15 5) (sl w 10 5))
  | 0x05 => zeros (sl w 0 19) (.zb t g (b 21) (sl w 19 2))
  | 0x06 => zeros (sl w 16 6) (.gxi t g (sl w 0 16))
  | 0x07 => zeros (sl w 0 17) (.gxr t g (sl w 17 5))
  | _ => none

/-- The V slot (R163). -/
def slotV (t : Nat) (w : BitVec 32) : Option Instr :=
  let g := slotGuard w
  let vd : BitVec 6 := sl w 16 6
  let va : BitVec 6 := sl w 10 6
  let vb : BitVec 6 := sl w 4 6
  let fn : BitVec 4 := sl w 0 4
  match slotOp w with
  | 0x00 => zeros (sl w 0 22) (.vNop t g)
  | 0x01 => some (.fop t g vd va vb fn)
  | 0x02 => some (.hop t g vd va vb fn)
  | 0x03 => some (.iop t g vd va vb fn)
  | 0x04 => some (.fcmp t g vd va vb fn)
  | 0x05 => some (.icmp t g vd va vb fn)
  | 0x06 => some (.vsel t g vd va vb fn)
  | 0x07 => some (.vfn t g vd va vb fn)
  | 0x08 => some (.vscan t g vd va vb fn)
  | 0x09 => some (.vgadd t g vd va vb fn)
  | 0x0A => some (.vgexp t g vd va vb fn)
  | 0x0B => some (.vcvt t g vd va vb fn)
  | 0x0C => some (.vperm t g vd va vb fn)
  | 0x0D => some (.vld t g vd (sl w 11 5) (sl w 0 11))
  | 0x0E => some (.vst t g vd (sl w 11 5) (sl w 0 11))
  | 0x0F => zeros (sl w 0 11) (.vbc t g vd (sl w 11 5))
  | 0x10 => zeros (sl w 0 3) (.vext t g (sl w 17 5) (sl w 11 6) (sl w 3 8))
  | _ => none

/-- The B slot (R166). -/
def slotB (t : Nat) (w : BitVec 32) : Option Instr :=
  let g := slotGuard w
  match slotOp w with
  | 0x00 => zeros (sl w 0 22) (.bNop t g)
  | 0x01 => zeros (sl w 12 6) (.barge t g (sl w 18 4) (sl w 0 12))
  | 0x02 => zeros (sl w 16 2) (.waitLc t g (sl w 18 4) (sl w 0 16))
  | 0x03 => zeros (sl w 19 3) (.waitLock t g (sl w 0 19))
  | 0x04 => zeros (sl w 16 2) (.lcset t g (sl w 18 4) (sl w 0 16))
  | 0x05 => zeros (sl w 0 1)
      (.gld t g (sl w 17 5) (sl w 13 4) (sl w 10 3) (sl w 5 5) (sl w 3 2) (w.getLsbD 2) (w.getLsbD 1))
  | 0x06 => zeros (sl w 0 1)
      (.gst t g (sl w 17 5) (sl w 13 4) (sl w 10 3) (sl w 5 5) (sl w 3 2) (w.getLsbD 2) (w.getLsbD 1))
  | 0x07 => some (.gamo t g (sl w 17 5) (sl w 13 4) (sl w 10 3) (sl w 5 5) (sl w 1 4) (w.getLsbD 0))
  | 0x08 => zeros (sl w 0 18) (.fence t g (sl w 18 4))
  | 0x09 => zeros (sl w 8 14) (.muster t g (sl w 0 8))
  | _ => none

/-- The four operations of a bundle, S, T, V, B; none when a slot is an illegal encoding. -/
def bundleOps (t : Nat) (q : Quad) : Option (List Instr) := do
  let a ← slotS t (q.extractLsb' 0 32)
  let b ← slotT t (q.extractLsb' 32 32)
  let c ← slotV t (q.extractLsb' 64 32)
  let d ← slotB t (q.extractLsb' 96 32)
  return [a, b, c, d]

/-- The wait in a bundle's B slot that its tile must stall for: an enabled one with an unpoisoned
guard. -/
def Tile.mustStall (x : Tile) : Instr → Option Stall
  | .waitLc _ g c n =>
    let w : Stall := .lc c.toNat n.toNat
    if !x.guardPoison g && x.enabled g && !x.satisfied w then some w else none
  | .waitLock _ g c =>
    let w : Stall := .cycle c.toNat
    if !x.guardPoison g && x.enabled g && !x.satisfied w then some w else none
  | _ => none

/-- The state that an operation's own meaning leaves. -/
def State.run (s : State) (i : Instr) : State :=
  match exec i s with
  | .next t => t
  | _ => s

/-- The PC after a bundle has issued (R136). -/
def Tile.advance (x : Tile) : Tile :=
  if !x.running then x
  else
    match x.branch with
    | some (target, n) =>
      if n ≤ 1 then { x with pc := (target % (2 ^ 64 : Int)).toNat, branch := none }
      else { x with pc := x.pc + 1, branch := some (target, n - 1) }
    | none => { x with pc := x.pc + 1 }

/-- Issues the bundle at a tile's PC, or stalls it, or stops the tile (R137, R142, R167). -/
def State.issueBundle (s : State) (t : Nat) : State :=
  let x := s.tile t
  if 4096 ≤ x.pc then s.stopTile t .illegal x.pc
  else if sget false x.imemBad x.pc then s.stopTile t .controlError x.pc
  else
    match bundleOps t (sget 0 x.imem x.pc) with
    | none => s.stopTile t .illegal x.pc
    | some ops =>
      match ops.findSome? x.mustStall with
      | some w => s.setTile t { x with stall := some w }
      | none => (ops.foldl State.run s).modTile t Tile.advance

/-- One cycle of a tile, after which the barges that it issued start. -/
def State.tickTile (s : State) (t : Nat) : State :=
  let x := s.tile t
  if !x.running then s
  else
    let s :=
      match x.stall with
      | some w => if x.satisfied w then (s.setTile t { x with stall := none }).issueBundle t else s
      | none => if x.endAt.isNone then s.issueBundle t else s
    (s.endTileCycle t).startBarges t

/-- The tick: one cycle of every running tile, in tile order. -/
def State.tick (s : State) : State :=
  ((s.tiles.map Prod.fst).foldl State.tickTile s).seal s

end Sys2Proof.Machine
end

