-- ==== Sys2Proof/Machine/Idle.lean ====
section
/-! DEFINITION. What an idle step does: the register accesses that waited and need wait no more, and one cycle of the
tiles. -/

namespace Sys2Proof.Machine

/-- A BAR0 access of a berth that waited behind its stream runs again; every other request goes on waiting. -/
def barRun (s : State) : HeldReq → State
  | .berthWr b m => if msgSpace m = SPACE_BAR0 then s.berthWr b m else s.holdReq (.berthWr b m)
  | .berthRd b m => if msgSpace m = SPACE_BAR0 then s.berthRd b m else s.holdReq (.berthRd b m)
  | c => s.holdReq c

/-- The BAR0 accesses of berths that waited. -/
def State.pumpBars (s : State) : State :=
  s.basin.held.foldl barRun { s with basin := { s.basin with held := [] } }

/-- The device accesses of every lockkeeper. -/
def State.pumpDevices (s : State) : State := (List.range 24).foldl State.pumpDevice s

/-- An idle step (DESIGN CHOICE: the tick of the tiles' cycle is what a step does on an empty queue, log
entry 2). -/
def State.idle (s : State) : State :=
  ((if s.boot.safe then s else s.pumpBars.pumpDevices).tick).seal s

end Sys2Proof.Machine
end

