-- ==== Sys2Proof/Safety.lean ====
section
/-! DEFINITION. The vocabulary in which statements about the block are made. -/

namespace Sys2Proof.Machine

/-- The command answers a next state, and `P` holds of it. -/
def Completes (c : Instr) (s : State) (P : State → Prop) : Prop := ∃ t, exec c s = .next t ∧ P t

/-- The device is not in safe state (R612): its clocks run. -/
abbrev State.Live (s : State) : Prop := s.boot.safe = false

/-- Tile `t` issues the operations of its present bundle, and guard `g` enables one (R128, R138, R141). -/
abbrev State.Issues (s : State) (t : Nat) (g : Guard) : Prop :=
  (s.tile t).issuing = true ∧ (s.tile t).guardPoison g = false ∧ (s.tile t).enabled g = true

/-- Tile `t` issues the operations of its present bundle, and guard `g` disables one (R129). -/
abbrev State.Skips (s : State) (t : Nat) (g : Guard) : Prop :=
  (s.tile t).issuing = true ∧ (s.tile t).guardPoison g = false ∧ (s.tile t).enabled g = false

/-- None of these scalar registers has bad parity (R84). -/
abbrev Tile.ParityOk (x : Tile) (rs : List Nat) : Prop := ∀ r ∈ rs, sget false x.sbad r = false

/-- No element of this vector register has bad check bits (R84). -/
abbrev Tile.VecOk (x : Tile) (v : Nat) : Prop := ∀ e < 256, sget false x.vbad (256 * v + e) = false

/-- No earlier operation, and none of the same bundle, holds one of these cycles of a port (R134). -/
abbrev Tile.Free (x : Tile) (p : Port) (cycles : List Nat) : Prop := ∀ c ∈ cycles, (p, c) ∉ x.held

/-- The tile with cycles of a port held (R134). -/
def Tile.holding (x : Tile) (p : Port) (cycles : List Nat) : Tile :=
  { x with held := x.held ++ cycles.map fun c => (p, c) }

/-- The state a command leaves when all that it changes is tile `t`. -/
def State.withTile (s : State) (t : Nat) (y : Tile) : State := (s.setTile t y).seal s

/-- The tile after `n` more of its cycles in which nothing further issues. -/
def Tile.cycles : Nat → Tile → Tile
  | 0, x => x
  | n + 1, x => Tile.cycles n x.endCycle.tile

/-- FAULT_OUT is driven as R615 says: high in safe state; in LEVEL mode high while FLT_STAT.PEND has a bit that
FLT_PIN.MASK selects; in PULSE mode high during a pulse and as FLT_PIN.DRIVE says outside one. -/
def State.FaultOutRight (s : State) : Prop :=
  (s.boot.safe = true → s.pins.faultOut = true) ∧
  (s.boot.safe = false → s.bit FLT_PIN 0 = false →
    (s.pins.faultOut = true ↔ ∃ k < 5, s.bit FLT_STAT k = true ∧ s.bit FLT_PIN (8 + k) = true)) ∧
  (s.boot.safe = false → s.bit FLT_PIN 0 = true → s.pins.faultOut = (s.pins.pulse || s.bit FLT_PIN 16))

/-- A DPA's frame is backed and no injection waits at its stack port (R328, R359). -/
abbrev State.Backed (s : State) (dpa : Nat) : Prop :=
  ∃ f ∈ s.frame dpa, s.frameUse dpa = .normal ∧ s.bit (stkReg f.port 0x38) 0 = false ∧
    s.bit (stkReg f.port 0x38) 1 = false

/-- The 8 words of an HDM line have right check bits and no stored poison (R334). -/
abbrev State.CleanLine (s : State) (la : Nat) : Prop := ∀ w < 8, s.hdm.mark (la + 8 * w) = 0

/-- No cache of the device holds a line of HDM, and its home holds no request for it back (R370, R426). -/
abbrev State.Uncached (s : State) (la : Nat) : Prop :=
  s.basinLine false la = none ∧ (∀ c ∈ s.basin.copies, c.host = true ∨ c.addr ≠ la) ∧
    ∀ wr, s.homeBusy none (la, wr) = false

/-- No COPY or FILL of a ring waits for a home or for the host (R370, R458). -/
def State.NoCopies (s : State) : Prop :=
  ∀ w ∈ s.waits, (∀ a b c d e, w.kind ≠ .copy a b c d e) ∧ ∀ a b c d e, w.kind ≠ .fill a b c d e

/-- The home slice of a line has a way free for it, and no injection waits there (R384, R409). -/
abbrev State.RoomFor (s : State) (la : Nat) : Prop :=
  (∃ w ∈ s.bsnWays (s.slice false la), ∀ l ∈ s.setLines (s.slice false la) (s.bsnSet false la), l.way ≠ w) ∧
    s.bit CMX_INJ 1 = false ∧ s.bit CMX_INJ 2 = false

/-- Only these bytes of HDM may differ, and they are these (R371). -/
def State.HdmPut (s u : State) (a : Nat) (bs : List Byte) : Prop :=
  u.hdm.read a bs.length = bs ∧ ∀ x, x < a ∨ a + bs.length ≤ x → u.hdm.byte x = s.hdm.byte x

/-- A BAR read returns these bytes without poison, in pieces of at most 512 B; data of up to 512 B in one (R461). -/
def State.SendsBar (s u : State) (data : List Byte) : Prop :=
  ∃ ps : List (List Byte), ps.flatten = data ∧ (∀ b ∈ ps, b.length ≤ 512) ∧ (data.length ≤ 512 → ps.length ≤ 1) ∧
    u.out = s.out ++ ps.map fun b => .barData b false

/-- The fault log has a free slot (R616). -/
abbrev State.LogRoom (s : State) : Prop := (freeSlot s.flt.log).isSome = true

/-- The fault log holds a record of this kind and unit (R599, R616). -/
abbrev State.Logged (s : State) (kind unit inst : Nat) : Prop :=
  ∃ e ∈ s.flt.log, e.2.msg.kind = kind ∧ e.2.msg.unit = unit ∧ e.2.msg.inst = inst

/-- Ring `r` of context `c` takes a command with this header as its next descriptor (R490, R493). -/
abbrev State.Takes (s : State) (c r : Nat) (h : DescHdr) : Prop := s.ringReady c r = true ∧ h.seq = (s.ring c r).count

/-- The ring stands after that descriptor. -/
abbrev State.Passed (s u : State) (c r : Nat) : Prop :=
  (u.ring c r).count = ((s.ring c r).count + 1) % 2 ^ 32 ∧ (u.ring c r).tries = 0

/-- The completion ring of a context takes a record at once, in host memory and with no vector (R489). -/
abbrev State.CplOpen (s : State) (c : Nat) : Prop :=
  (s.ring c 8).waiting = [] ∧ s.cplRoom c = true ∧ (s.ring c 8).locDpa = false ∧ (s.ring c 8).vecEn = false ∧
    s.port.ioOpen = true

/-- The ring's command has ended with a record: its 32 bytes of R500 stand in the completion ring's next slot. -/
abbrev State.Posts (s u : State) (c r seq : Nat) (f : Fin) : Prop :=
  let x := s.ring c 8
  let phase := if x.count / 2 ^ x.log2n % 2 = 0 then 1 else 0
  u.host.read (x.base + 32 * (x.count % 2 ^ x.log2n)) 32 =
    toLe 4 seq ++ toLe 2 f.status ++ toLe 2 (2 * r + phase) ++ toLe 8 s.ww.pound ++
      toLe 4 (s.ww.time - s.ww.lockTime) ++ toLe 4 f.detail ++ toLe 8 f.result ∧
  (u.ring c 8).count = (x.count + 1) % 2 ^ 32 ∧ s.Passed u c r

/-- A command's wait, for a header. -/
def waitOfCmd (c r : Nat) (h : DescHdr) (k : WaitKind) : Wait :=
  { ctx := c, ring := r, seq := h.seq, flags := h.flags, kind := k }

/-- The commands that act in safe state too: cold reset and the loss of a rail, what the host's link and configuration
space do, the towpath, fault messages and trips, and tile operations, which find no tile running (R462, R612, R613). -/
def servedInSafe : Instr → Bool
  | .coldReset .. | .powerGoodLoss .. | .flr .. | .thermalTrip .. | .faultMessageReceive ..
  | .viralReceive .. | .faultOutPulseEnd .. | .stackTempSample .. | .tckLoRead .. | .bar4Write ..
  | .bar4Read .. | .memRd .. | .memWr .. | .memClnEvct .. | .snpData .. | .snpInv .. | .snpCur ..
  | .tagQuarantineExpiry .. | .decoderCommit .. | .busMasterDisable .. | .busMasterEnable ..
  | .d3hotEntry .. | .d0Return .. | .cacheWritebackInvalidate .. | .gpfPhase1 ..
  | .ideCheckFailed .. | .vectorUnmask .. | .cacheEnableWrite .. | .biconflict ..
  | .cxlCacheHostResponse .. | .ideKeyProgramming .. | .getVersion .. | .getCapabilities ..
  | .negotiateAlgorithms .. | .getDigests .. | .getCertificate .. | .challenge ..
  | .getMeasurements .. | .keyExchange .. | .finish .. | .heartbeat .. | .keyUpdate ..
  | .endSession .. | .getStatus .. | .getClocks .. | .getTemps .. | .getLimits .. | .getPower ..
  | .setLease .. | .wwReset .. | .nop .. | .endLeg .. | .br .. | .brr .. | .alu .. | .addi ..
  | .andi .. | .ori .. | .xori .. | .shfi .. | .li .. | .shin .. | .cmp .. | .cmpi .. | .pop ..
  | .ld .. | .st .. | .rds .. | .flg .. | .tNop .. | .lds .. | .mma .. | .expBank .. | .imp ..
  | .zb .. | .gxi .. | .gxr .. | .vNop .. | .fop .. | .hop .. | .iop .. | .fcmp .. | .icmp ..
  | .vsel .. | .vfn .. | .vscan .. | .vgadd .. | .vgexp .. | .vcvt .. | .vperm .. | .vld ..
  | .vst .. | .vbc .. | .vext .. | .bNop .. | .barge .. | .waitLc .. | .waitLock ..
  | .bundleStallRelease .. | .lcset .. | .gld .. | .gst .. | .gamo .. | .fence .. | .muster .. => true
  | _ => false

end Sys2Proof.Machine
end

