-- ==== Sys2Proof/Certificates/Slice0/Obligations.lean ====
section
/-! DEFINITION. The statements about the block, for the provers. -/

open Sys2Proof Sys2Proof.Machine

/-! ### The step -/

/-- A step takes the command at the front of the queue and runs it with the queue's rest (the model's own rule for a
block: log entry 1). -/
def Obligations.StepRunsTheFrontCommand : Prop :=
  ∀ (c : Instr) (q : List Instr) (s : State),
    step { s with pending := c :: q } = exec c { s with pending := q }

/-- On an empty queue a step is a tick of the tiles' cycle, and it adds no command (DESIGN CHOICE: log entry 2). -/
def Obligations.EmptyQueueTicks : Prop :=
  ∀ s : State, s.pending = [] → step s = .next s.idle ∧ s.idle.pending = [] ∧ s.idle.fuses = s.fuses

/-- No command ends in a fault or a refusal; every one leaves the queue and the fuses alone. -/
def Obligations.EveryCommandAnswersANextState : Prop :=
  ∀ (c : Instr) (s : State), ∃ t, exec c s = .next t ∧ t.pending = s.pending ∧ t.fuses = s.fuses

/-- R615: after every step FAULT_OUT stands as its rule says, whatever the state before. -/
def Obligations.FaultOutFollowsItsRule : Prop :=
  ∀ s t : State, step s = .next t → t.FaultOutRight

/-- FAULT_OUT stands as its rule says right after reset. -/
def Obligations.FaultOutRightAtReset : Prop := State.reset.FaultOutRight

/-- R462, R612: in safe state every command but those of `servedInSafe` leaves the device as it is; only FAULT_OUT is
driven (high, by R615). -/
def Obligations.SafeStateStopsTheDevice : Prop :=
  ∀ (c : Instr) (s : State), s.boot.safe = true → servedInSafe c = false → exec c s = .next (s.seal s)

/-! ### The S slot -/

/-- R145: the functions of ALU, of CMP and CMPI, and of POP, with their latencies (R144) and poison (R140); every other
FN value is reserved (R142). -/
def Obligations.ScalarFunctions : Prop :=
  (∀ (s : State) (t : Nat) (g : Guard) (rd ra rb : BitVec 5), s.Issues t g →
     (s.tile t).ParityOk [ra.toNat, rb.toNat] →
     let x := s.tile t
     let a := x.rs ra.toNat
     let b := x.rs rb.toNat
     let writes (fn : BitVec 7) (l : Nat) (v : Word) : Prop :=
       exec (.alu t g rd ra rb fn) s =
         .next (s.withTile t (x.writeS true 0 l rd.toNat v (x.rsPoison ra.toNat || x.rsPoison rb.toNat)))
     writes 0x00 1 (a + b) ∧ writes 0x01 1 (a - b) ∧ writes 0x02 1 (a &&& b) ∧ writes 0x03 1 (a ||| b) ∧
     writes 0x04 1 (a ^^^ b) ∧ writes 0x05 1 (a <<< (b.toNat % 64)) ∧ writes 0x06 1 (a >>> (b.toNat % 64)) ∧
     writes 0x07 1 (a.sshiftRight (b.toNat % 64)) ∧
     writes 0x08 1 (if a.toInt < b.toInt then a else b) ∧ writes 0x09 1 (if a.toInt < b.toInt then b else a) ∧
     writes 0x0A 1 (if a.toNat < b.toNat then a else b) ∧ writes 0x0B 1 (if a.toNat < b.toNat then b else a) ∧
     writes 0x0C 3 (BitVec.ofNat 64 (a.toNat * b.toNat))) ∧
  (∀ (s : State) (t : Nat) (g : Guard) (pd : BitVec 3), s.Issues t g →
     let x := s.tile t
     let writes (c : Instr) (v p : Bool) : Prop :=
       exec c s = .next (s.withTile t (x.plan 0 0 (.wrP pd.toNat v p)))
     (∀ ra rb : BitVec 5, x.ParityOk [ra.toNat, rb.toNat] →
       let a := x.rs ra.toNat
       let b := x.rs rb.toNat
       let w (fn : BitVec 3) (v : Bool) : Prop :=
         writes (.cmp t g pd fn ra rb) v (x.rsPoison ra.toNat || x.rsPoison rb.toNat)
       w 0 (decide (a = b)) ∧ w 1 (decide (a ≠ b)) ∧ w 2 (decide (a.toInt < b.toInt)) ∧
       w 3 (decide (b.toInt ≤ a.toInt)) ∧ w 4 (decide (a.toNat < b.toNat)) ∧ w 5 (decide (b.toNat ≤ a.toNat))) ∧
     (∀ (ra : BitVec 5) (imm : BitVec 11), x.ParityOk [ra.toNat] →
       let a := x.rs ra.toNat
       let b : Word := imm.signExtend 64
       let w (fn : BitVec 3) (v : Bool) : Prop := writes (.cmpi t g pd fn ra imm) v (x.rsPoison ra.toNat)
       w 0 (decide (a = b)) ∧ w 1 (decide (a ≠ b)) ∧ w 2 (decide (a.toInt < b.toInt)) ∧
       w 3 (decide (b.toInt ≤ a.toInt)) ∧ w 4 (decide (a.toNat < b.toNat)) ∧ w 5 (decide (b.toNat ≤ a.toNat))) ∧
     (∀ pa pb : BitVec 3,
       let a := x.rp pa.toNat
       let b := x.rp pb.toNat
       let pa' := x.rpPoison pa.toNat
       let pb' := x.rpPoison pb.toNat
       let w (fn : BitVec 3) (v p : Bool) : Prop := writes (.pop t g pd fn pa pb) v p
       w 0 (a && b) (pa' || pb') ∧ w 1 (a || b) (pa' || pb') ∧ w 2 (a ^^ b) (pa' || pb') ∧
       w 3 (a && !b) (pa' || pb') ∧ w 4 (!a) pa' ∧ w 5 true false ∧ w 6 false false)) ∧
  (∀ (s : State) (t : Nat) (g : Guard) (rd ra rb : BitVec 5) (pd pa pb : BitVec 3) (imm : BitVec 11),
     s.Issues t g → (s.tile t).ParityOk [ra.toNat, rb.toNat] →
     let stops (c : Instr) : Prop :=
       Completes c s fun u => (u.tile t).st = .stopped ∧ (u.tile t).stop = some (.illegal, (s.tile t).pc) ∧
         (u.tile t).running = false ∧ (u.tile t).sched = [] ∧ (u.tile t).sregs = (s.tile t).sregs
     (∀ fn : BitVec 7, 0x0D ≤ fn.toNat → stops (.alu t g rd ra rb fn)) ∧
     (∀ fn : BitVec 3, 6 ≤ fn.toNat → stops (.cmp t g pd fn ra rb) ∧ stops (.cmpi t g pd fn ra imm)) ∧
     stops (.pop t g pd 7 pa pb))

/-- R144: the immediate forms of the scalar unit, all of latency 1. -/
def Obligations.ScalarImmediates : Prop :=
  ∀ (s : State) (t : Nat) (g : Guard) (rd ra : BitVec 5) (imm : BitVec 12) (imm17 : BitVec 17) (amt : BitVec 6),
    s.Issues t g →
    let x := s.tile t
    let a := x.rs ra.toNat
    let writes (c : Instr) (v : Word) (p : Bool) : Prop :=
      exec c s = .next (s.withTile t (x.writeS true 0 1 rd.toNat v p))
    (x.ParityOk [ra.toNat] →
      writes (.addi t g rd ra imm) (a + imm.signExtend 64) (x.rsPoison ra.toNat) ∧
      writes (.andi t g rd ra imm) (a &&& imm.zeroExtend 64) (x.rsPoison ra.toNat) ∧
      writes (.ori t g rd ra imm) (a ||| imm.zeroExtend 64) (x.rsPoison ra.toNat) ∧
      writes (.xori t g rd ra imm) (a ^^^ imm.zeroExtend 64) (x.rsPoison ra.toNat) ∧
      writes (.shfi t g rd ra 0 amt) (a <<< amt.toNat) (x.rsPoison ra.toNat) ∧
      writes (.shfi t g rd ra 1 amt) (a >>> amt.toNat) (x.rsPoison ra.toNat) ∧
      writes (.shfi t g rd ra 2 amt) (a.sshiftRight amt.toNat) (x.rsPoison ra.toNat)) ∧
    writes (.li t g rd imm17) (imm17.signExtend 64) false ∧
    (x.ParityOk [rd.toNat] →
      writes (.shin t g rd imm17) ((x.rs rd.toNat <<< 17) ||| imm17.zeroExtend 64) (x.rsPoison rd.toNat))

/-- R146, R147: RDS returns the special value that SEL names and FLG the sticky flags, which it then clears. R131, R132: a
scalar result is in its register from the cycle after the end of cycle i + L − 1 on, the old value until then, and a write
to s0 is discarded. -/
def Obligations.SpecialReadsAndResultLatency : Prop :=
  (∀ (s : State) (t : Nat) (g : Guard) (rd : BitVec 5), s.Issues t g →
     let x := s.tile t
     let reads (sel : BitVec 8) (v : Nat) (p : Bool) : Prop :=
       exec (.rds t g rd sel) s = .next (s.withTile t (x.writeS true 0 1 rd.toNat (BitVec.ofNat 64 v) p))
     exec (.rds t g rd 0) s = .next (s.withTile t (x.writeS true 0 1 rd.toNat (x.gx.signExtend 64) false)) ∧
     (∀ lt, s.logTile t = some lt → reads 1 lt false) ∧
     (∀ k ft, x.flight = some (k, ft) → reads 2 (s.flight k).pos false) ∧
     (∃ n, reads 3 n ((List.range 8).any fun p => x.rpPoison p) ∧ n < 256 ∧
       ∀ p < 8, n.testBit p = x.rp p) ∧
     (∀ c < 16, reads (BitVec.ofNat 8 (0x10 + c)) (x.lc c) false) ∧
     (∀ mask : BitVec 3, exec (.flg t g rd mask) s =
       .next (s.withTile t ((x.writeS true 0 1 rd.toNat
         (BitVec.ofNat 64 (x.t2code.toNat + 2 * x.convert.toNat + 4 * x.lcsat.toNat)) false).plan 0 0
           (.clrSticky mask.toNat))))) ∧
  (∀ (x : Tile) (l r : Nat) (v : Word) (p : Bool), x.sched = [] → x.inject = none → 1 ≤ l → r < 32 →
     let y := x.writeS true 0 l r v p
     (∀ n < l, (Tile.cycles n y).rs r = x.rs r) ∧
     (Tile.cycles l y).rs r = (if r = 0 then 0 else v) ∧
     (Tile.cycles l y).rsPoison r = (if r = 0 then false else p) ∧
     ∀ q, q ≠ r → (Tile.cycles l y).rs q = x.rs q)

/-- R142, R144, R146, R163 to R165: reserved shift kinds and selectors of the scalar slot and reserved functions of the V
slot stop the tile, with ILLEGAL and the bundle's PC. -/
def Obligations.ReservedFunctionsStopTheTile : Prop :=
  (∀ (s : State) (t : Nat) (g : Guard) (rd ra : BitVec 5) (amt : BitVec 6), s.Issues t g →
     (s.tile t).ParityOk [ra.toNat] →
     let stops (c : Instr) : Prop :=
       Completes c s fun u => (u.tile t).st = .stopped ∧ (u.tile t).stop = some (.illegal, (s.tile t).pc) ∧
         (u.tile t).running = false ∧ (u.tile t).sched = [] ∧ (u.tile t).sregs = (s.tile t).sregs
     stops (.shfi t g rd ra 3 amt) ∧
     (∀ sel : BitVec 8, (4 ≤ sel.toNat ∧ sel.toNat < 0x10) ∨ 0x20 ≤ sel.toNat → stops (.rds t g rd sel))) ∧
  (∀ (s : State) (t : Nat) (g : Guard) (vd va vb : BitVec 6) (fn : BitVec 4), s.Issues t g →
     let stops (c : Instr) : Prop :=
       Completes c s fun u => (u.tile t).st = .stopped ∧ (u.tile t).stop = some (.illegal, (s.tile t).pc)
     (6 ≤ fn.toNat → stops (.fop t g vd va vb fn) ∧ stops (.hop t g vd va vb fn)) ∧
     (11 ≤ fn.toNat → stops (.iop t g vd va vb fn) ∧ stops (.vfn t g vd va vb fn)) ∧
     (4 ≤ fn.toNat → stops (.fcmp t g vd va vb fn) ∧ stops (.icmp t g vd va vb fn)) ∧
     (fn ≠ 0 → stops (.vsel t g vd va vb fn) ∧ stops (.vperm t g vd va vb fn)) ∧
     (7 ≤ fn.toNat → stops (.vscan t g vd va vb fn)) ∧
     (2 ≤ fn.toNat ∨ vb ≠ 0 → stops (.vgadd t g vd va vb fn)) ∧
     (2 ≤ fn.toNat ∨ 4 ≤ vb.toNat → stops (.vgexp t g vd va vb fn)) ∧
     (vb.toNat / 8 = vb.toNat % 8 ∨ 6 ≤ vb.toNat / 8 ∨ 6 ≤ vb.toNat % 8 → stops (.vcvt t g vd va vb fn)))

/-- R128, R136, R138: NOP does nothing; END ends the leg; a taken branch has two delay bundles. -/
def Obligations.ControlFlow : Prop :=
  ∀ (s : State) (t : Nat) (g : Guard), s.Issues t g →
    let x := s.tile t
    let leaves (c : Instr) (y : Tile) : Prop := exec c s = .next (s.withTile t y)
    leaves (.nop t g) x ∧ leaves (.tNop t g) x ∧ leaves (.bNop t g) x ∧
    (x.Free .vector [x.cyc] → leaves (.vNop t g) (x.holding .vector [x.cyc])) ∧
    leaves (.endLeg t g) { x with endAt := some x.cyc } ∧
    (x.branch = none →
      (∀ imm : BitVec 13, leaves (.br t g imm) { x with branch := some ((x.pc : Int) + imm.toInt, 3) }) ∧
      (∀ ra : BitVec 5, x.ParityOk [ra.toNat] → x.rsPoison ra.toNat = false →
        leaves (.brr t g ra) { x with branch := some (((x.rs ra.toNat).toNat % 4096 : Nat), 3) })) ∧
    (∀ b, x.branch = some b → ∀ imm : BitVec 13,
      Completes (.br t g imm) s fun u => (u.tile t).stop = some (.illegal, x.pc) ∧ (u.tile t).st = .stopped)

/-- R132, R140, R144: LD reads and ST writes the 8 hold bytes at (RA + sext(IMM12) × 8) with bits [2:0] cleared, through the
read port at i + 1 and the write port at i + 2; three cycles after its issue an LD has its register hold them, and after
its write cycle an ST has changed exactly its 8 bytes of the hold. -/
def Obligations.ScalarHoldAccess : Prop :=
  (∀ (s : State) (t : Nat) (g : Guard) (rd ra : BitVec 5) (imm : BitVec 12), s.Issues t g →
     let x := s.tile t
     let a := ((x.rs ra.toNat + imm.signExtend 64 * 8) &&& ~~~(7 : Word)).toNat
     x.rsPoison ra.toNat = false → a + 8 ≤ 0x180000 → x.ParityOk [ra.toNat, rd.toNat] →
     (x.Free .holdRead [x.cyc + 1] →
       exec (.ld t g rd ra imm) s =
         .next (s.withTile t ((x.holding .holdRead [x.cyc + 1]).plan 0 1 (.rdS rd.toNat a)))) ∧
     (x.Free .holdWrite [x.cyc + 2] →
       exec (.st t g rd ra imm) s =
         .next (s.withTile t ((x.holding .holdWrite [x.cyc + 2]).plan 0 2
           (.wrHold a ((toLe 8 (x.rs rd.toNat).toNat).map fun b => (b, x.rsPoison rd.toNat))))))) ∧
  ((∀ (x : Tile) (r a : Nat), x.sched = [] → x.inject = none → 0 < r → a % 8 = 0 →
     let y := Tile.cycles 3 (x.plan 0 1 (.rdS r a))
     y.rs r = BitVec.ofNat 64 (leNat ((List.range 8).map fun i => x.hold.byte (a + i))) ∧
     y.rsPoison r = badMark (x.hold.mark a) ∧ y.hold = x.hold) ∧
   (∀ (x : Tile) (a : Nat) (v : Word) (p : Bool), x.sched = [] → x.inject = none → a % 8 = 0 →
     let y := Tile.cycles 3 (x.plan 0 2 (.wrHold a ((toLe 8 v.toNat).map fun b => (b, p))))
     (∀ i < 8, y.hold.byte (a + i) = BitVec.ofNat 8 (v.toNat / 2 ^ (8 * i))) ∧ y.hold.mark a = (if p then 3 else 0) ∧
     (∀ b, b < a ∨ a + 8 ≤ b → y.hold.byte b = x.hold.byte b) ∧ y.sregs = x.sregs))

/-- R72, R84, R140: an act that writes aligned words of the hold gives each byte its value and each word its poison,
and leaves every other byte and word as it was. -/
def Obligations.HoldWriteActsOnItsBytesOnly : Prop :=
  ∀ (x : Tile) (e : Sched) (a : Nat) (bs : PBytes), e.act = .wrHold a bs → x.inject = none → a % 8 = 0 →
    bs.length % 8 = 0 →
    let y := (x.writeAct e).tile
    (∀ i < bs.length, y.hold.byte (a + i) = (bs.getD i (0, false)).1) ∧
    (∀ w, a ≤ 8 * w → 8 * w + 8 ≤ a + bs.length →
      y.hold.mark (8 * w) = (if ((bs.drop (8 * w - a)).take 8).any Prod.snd then 3 else 0)) ∧
    (∀ b, b < a ∨ a + bs.length ≤ b → y.hold.byte b = x.hold.byte b ∧ y.hold.mark b = x.hold.mark b) ∧
    y.sregs = x.sregs ∧ y.vregs = x.vregs ∧ y.bank0 = x.bank0 ∧ y.bank1 = x.bank1

/-! ### The T slot -/

/-- R161: ZB holds its bank's update port in cycle i + 1; at the end of that cycle, and not before, every entry is finite 0
with clear flags and the width is set. R151, R141: GXI and GXR write gx with latency 1; a poisoned RA of GXR stops the
tile, and width code 3 is reserved. -/
def Obligations.GridRegisterAndBankZeroing : Prop :=
  ∀ (s : State) (t : Nat) (g : Guard), s.Issues t g →
    let x := s.tile t
    (∀ imm : BitVec 16, exec (.gxi t g imm) s = .next (s.withTile t (x.plan 1 0 (.wrGx imm)))) ∧
    (∀ ra : BitVec 5, x.ParityOk [ra.toNat] →
      (x.rsPoison ra.toNat = false →
        exec (.gxr t g ra) s = .next (s.withTile t (x.plan 1 0 (.wrGx ((x.rs ra.toNat).truncate 16))))) ∧
      (x.rsPoison ra.toNat = true →
        Completes (.gxr t g ra) s fun u => (u.tile t).stop = some (.controlError, x.pc) ∧ (u.tile t).gx = x.gx)) ∧
    (∀ (bank : Bool) (w : BitVec 2),
      let port : Port := if bank then .bank1 else .bank0
      (w ≠ 3 → x.Free port [x.cyc + 1] →
        exec (.zb t g bank w) s =
          .next (s.withTile t ((x.holding port [x.cyc + 1]).plan 1 1 (.zbWrite bank w.toNat)))) ∧
      (w = 3 → Completes (.zb t g bank w) s fun u => (u.tile t).stop = some (.illegal, x.pc))) ∧
    (∀ (y : Tile) (e : Sched) (bank : Bool) (w : Nat), e.act = .zbWrite bank w →
      let z := (y.writeAct e).tile
      (z.bank bank).width = w ∧ (∀ i, sget (0, false) (z.bank bank).entries i = (0, false)) ∧
      z.bank (!bank) = y.bank (!bank)) ∧
    (∀ (y : Tile) (bank : Bool) (w : BitVec 2), y.sched = [] → y.inject = none → w ≠ 3 →
      let z (n : Nat) := Tile.cycles n (y.plan 1 1 (.zbWrite bank w.toNat))
      (z 1).bank bank = y.bank bank ∧ ((z 2).bank bank).width = w.toNat ∧
      ∀ i, sget (0, false) ((z 2).bank bank).entries i = (0, false))

/-- R152, R134: LDS takes the first read-port cycles from i + 1 on that no earlier-issued operation holds, one for each 256 B
row of its image, and records its tags one cycle after the last; where an operation of its own bundle holds one of those
cycles, the tile stops with PORT_COLLISION. -/
def Obligations.LdsTakesTheFirstFreeReadCycles : Prop :=
  ∀ (s : State) (t : Nat) (g : Guard) (buf sp bs : Bool) (fmt : BitVec 4) (ra : BitVec 5), s.Issues t g →
    let x := s.tile t
    let rows := (ldsOffsets fmt.toNat sp bs).length
    let a := (x.rs ra.toNat).toNat / 256 * 256
    fmt.toNat ≤ 12 → ¬(fmt = 9 ∧ sp = true) → (bs = true → fmtBlock fmt.toNat = true) →
    x.ParityOk [ra.toNat] → x.rsPoison ra.toNat = false → a + 256 * rows ≤ 0x180000 →
    ∃ cycles : List Nat, cycles.length = rows ∧ cycles.Pairwise (· < ·) ∧
      (∀ c ∈ cycles, x.cyc < c ∧ (Port.holdRead, c) ∉ x.older) ∧
      (∀ c, x.cyc < c → c < cycles.getLastD 0 → c ∉ cycles → (Port.holdRead, c) ∈ x.older) ∧
      (¬x.Free .holdRead cycles → Completes (.lds t g buf sp bs fmt ra) s fun u =>
        (u.tile t).stop = some (.portCollision, x.pc) ∧ (u.tile t).st = .stopped) ∧
      (x.Free .holdRead cycles → ∃ y : Tile, exec (.lds t g buf sp bs fmt ra) s = .next (s.withTile t y) ∧
      y.held = x.held ++ cycles.map (fun c => (Port.holdRead, c)) ∧
      (y.buf buf).expected = some { fmt := fmt.toNat, sp := sp, bs16 := bs, ea := 0 } ∧
      (y.buf buf).bytes = (x.buf buf).bytes ∧ y.buf (!buf) = x.buf (!buf) ∧
      (∃ e ∈ y.sched, e.act = .ldsTag buf fmt.toNat sp bs ∧ e.due = cycles.getLastD x.cyc + 1))

/-- The table of R153: bytes per row b, fetches F and scale cycles s of a streaming format against a dense and a 2:4
stationary operand, for block sizes 32 and 16; and R159's: W, and W_e of a whole bank, by export format at width 64. -/
def Obligations.ScheduleTables : Prop :=
  (let dense (f : Nat) : Option BufTags := some { fmt := f, sp := false, bs16 := false, ea := 0 }
   let sparse (f : Nat) : Option BufTags := some { fmt := f, sp := true, bs16 := false, ea := 0 }
   let row (f b sd32 sd16 bb ss32 ss16 : Nat) : Prop :=
     passB f (dense f) = b ∧ passF b = b / 4 ∧ passS f false false (dense f) = sd32 ∧
     passS f false true (dense f) = sd16 ∧ passB f (sparse f) = bb ∧ passF bb = bb / 4 ∧
     passS f false false (sparse f) = ss32 ∧ passS f false true (sparse f) = ss16
   (∀ f ∈ [0, 1, 2, 10, 11, 12], row f 64 0 0 128 0 0) ∧ (∀ f ∈ [3, 4, 5], row f 64 1 1 128 1 2) ∧
   (∀ f ∈ [6, 7], row f 48 1 1 96 1 2) ∧ row 8 64 1 2 128 2 4 ∧
   (∀ f ∈ [0, 1, 2], passB f (dense 9) = 256 ∧ passF 256 = 64 ∧ passS f false false (dense 9) = 0) ∧
   (∀ f ∈ [3, 4, 5, 6, 7, 8, 10, 11, 12], passB f (dense 9) = 256)) ∧
  ((∀ f ∈ [0, 1, 2], ∀ bs, expCycles f bs 0 = (32, 32)) ∧
   (∀ f ∈ [3, 4, 5], expCycles f false 0 = (32, 33) ∧ expCycles f true 0 = (32, 34)) ∧
   (∀ f ∈ [6, 7], expCycles f false 0 = (24, 25) ∧ expCycles f true 0 = (24, 26)) ∧
   expCycles 8 false 0 = (16, 17) ∧ expCycles 8 true 0 = (16, 18) ∧
   (∀ f ∈ [10, 11], expCycles f false 0 = (64, 64)) ∧ expCycles 12 false 0 = (128, 128) ∧
   expCycles 13 false 0 = (256, 256) ∧ expCycles 14 false 0 = (512, 512) ∧
   impR false 0 = 4 ∧ impR true 0 = 2 ∧ impR false 1 = 2 ∧ impR true 1 = 1 ∧ impR false 2 = 1 ∧ impR true 2 = 1)

/-- R153, R154: an MMA holds its streaming fetches, its 64 array cycles from i + s + 3 and its bank's update port from
i + s + 15 for row 0 to i + s + 78 for row 63, and its pass is in flight with the sources it read at issue. -/
def Obligations.MmaRunsItsSchedule : Prop :=
  ∀ (s : State) (t : Nat) (g : Guard) (bank buf z ag bs : Bool) (fmt : BitVec 4) (ra rb : BitVec 5), s.Issues t g →
    let x := s.tile t
    let i := x.cyc
    let ex := (x.buf buf).expected
    let b := passB fmt.toNat ex
    let f := 64 * b / 256
    let sc := passS fmt.toNat ag bs ex
    let port : Port := if bank then .bank1 else .bank0
    let a := (x.rs ra.toNat).toNat / 256 * 256
    let r := (x.rs rb.toNat).toNat / 256 * 256
    let early := if fmtMx fmt.toNat then sc else if sc = 0 then 0 else f
    let fetches := (List.range early).map (· + (i + 1)) ++ (List.range f).map fun j => i + 1 + sc + 256 * j / b
    let array := (List.range 64).map (· + (i + sc + 3))
    let updates := (List.range 64).map (· + (i + sc + 15))
    (fmt.toNat ≤ 8 ∨ 10 ≤ fmt.toNat ∧ fmt.toNat ≤ 12) → (bs = true → fmtBlock fmt.toNat = true) →
    (fmtMx fmt.toNat = false → rb = 0) → (ag = true → z = true) →
    x.ParityOk [ra.toNat, rb.toNat] → x.rsPoison ra.toNat = false → x.rsPoison rb.toNat = false →
    a + 64 * b ≤ 0x180000 → (fmtMx fmt.toNat = true → r + 256 * sc ≤ 0x180000) →
    x.Free .holdRead fetches → x.Free .array array → x.Free port updates →
    ∃ (p : Pass) (y : Tile), exec (.mma t g bank buf z ag bs fmt ra rb) s = .next (s.withTile t y) ∧
      y.held = x.held ++ fetches.map (fun c => (Port.holdRead, c)) ++ array.map (fun c => (Port.array, c)) ++
        updates.map (fun c => (port, c)) ∧
      y.passes = x.passes ++ [p] ∧ p.issue = i ∧ p.pc = x.pc ∧ p.bank = bank ∧ p.buf = buf ∧ p.z = z ∧ p.ag = ag ∧
      p.fmt = fmt.toNat ∧ p.ra = a ∧ p.rb = r ∧ p.b = b ∧ p.s = sc ∧ p.gx = x.gx ∧
      (∃ e ∈ y.sched, e.act = .mmaTags i ∧ e.due = i + sc + 2) ∧
      (∀ m < 64, ∃ e ∈ y.sched, e.act = .mmaRow i m ∧ e.due = i + sc + 15 + m) ∧
      (z = true → ∃ e ∈ y.sched, e.act = .mmaZero i ∧ e.due = i + sc + 14) ∧
      y.bank0 = x.bank0 ∧ y.bank1 = x.bank1 ∧ y.hold = x.hold

/-- R159: an export writes its elements in cycles i + 2 to i + 1 + W_e and its scales in the cycles after them, reading
row m of the bank in cycle i + 1 + floor(m × W_e / 64). -/
def Obligations.ExportRunsItsSchedule : Prop :=
  ∀ (s : State) (t : Nat) (g : Guard) (bank cz bs : Bool) (fmt : BitVec 4) (ra rb : BitVec 5), s.Issues t g →
    let x := s.tile t
    let i := x.cyc
    let width := (x.bank bank).width
    let we := (expCycles fmt.toNat bs width).1
    let w := (expCycles fmt.toNat bs width).2
    let a := (x.rs ra.toNat).toNat / 128 * 128
    let r := (x.rs rb.toNat).toNat / 128 * 128
    let writes := (List.range w).map (· + (i + 2))
    fmt.toNat ≠ 9 → fmt.toNat ≠ 15 → (fmtMx fmt.toNat = false → rb = 0 ∧ bs = false) →
    (fmtMx fmt.toNat = true → blockSize bs ≤ widthCols width) →
    x.ParityOk [ra.toNat, rb.toNat] → x.rsPoison ra.toNat = false → x.rsPoison rb.toNat = false →
    a + 128 * we ≤ 0x180000 → (fmtMx fmt.toNat = true → r + 128 * (w - we) ≤ 0x180000) → x.Free .holdWrite writes →
    ∃ (p : Export) (y : Tile), exec (.expBank t g bank cz fmt bs ra rb) s = .next (s.withTile t y) ∧
      y.held = x.held ++ writes.map (fun c => (Port.holdWrite, c)) ∧
      y.exports = x.exports ++ [p] ∧ p.issue = i ∧ p.bank = bank ∧ p.cz = cz ∧ p.fmt = fmt.toNat ∧ p.ra = a ∧
      p.rb = r ∧ p.width = width ∧ p.gx = x.gx ∧
      (∀ m < 64, ∃ e ∈ y.sched, e.act = .expRow i m ∧ e.due = i + 1 + m * we / 64) ∧
      (∀ j < we, ∃ e ∈ y.sched, e.act = .expWrite i j false ∧ e.due = i + 2 + j) ∧
      (∀ j < w - we, ∃ e ∈ y.sched, e.act = .expWrite i j true ∧ e.due = i + 2 + we + j) ∧
      y.bank0 = x.bank0 ∧ y.bank1 = x.bank1 ∧ y.hold = x.hold

/-- R160: an import reads row m in cycles i + 1 + m × r to i + (m + 1) × r and adds it into the bank, with the bank's
update port, at the end of cycle i + (m + 1) × r + 1. -/
def Obligations.ImportRunsItsSchedule : Prop :=
  ∀ (s : State) (t : Nat) (g : Guard) (bank g64 : Bool) (ra rb : BitVec 5), s.Issues t g →
    let x := s.tile t
    let i := x.cyc
    let width := (x.bank bank).width
    let r := impR g64 width
    let a := (x.rs ra.toNat).toNat / 256 * 256
    let reads := (List.range (64 * r)).map (· + (i + 1))
    let updates := (List.range 64).map fun m => i + (m + 1) * r + 1
    let port : Port := if bank then .bank1 else .bank0
    x.ParityOk [ra.toNat, rb.toNat] → x.rsPoison ra.toNat = false →
    a + 64 * (widthCols width * (if g64 then 8 else 16)) ≤ 0x180000 → x.Free .holdRead reads → x.Free port updates →
    ∃ (p : Import) (y : Tile), exec (.imp t g bank g64 ra rb) s = .next (s.withTile t y) ∧
      y.held = x.held ++ reads.map (fun c => (Port.holdRead, c)) ++ updates.map (fun c => (port, c)) ∧
      y.imports = x.imports ++ [p] ∧ p.issue = i ∧ p.bank = bank ∧ p.g64 = g64 ∧ p.ra = a ∧ p.width = width ∧
      p.grid = (x.rs rb.toNat).truncate 16 ∧ p.gridPoison = x.rsPoison rb.toNat ∧ p.gx = x.gx ∧
      (∀ m < 64, ∃ e ∈ y.sched, e.act = .impRow i m ∧ e.due = i + (m + 1) * r + 1) ∧
      y.bank0 = x.bank0 ∧ y.bank1 = x.bank1 ∧ y.hold = x.hold

/-! ### The V slot -/

/-- R121, R163: FOP and HOP act elementwise with latency 4: add, sub, mul, fma, min, max of binary32, or of both
bfloat16 halves of each element. -/
def Obligations.FloatVectorOperations : Prop :=
  ∀ (s : State) (t : Nat) (g : Guard) (vd va vb : BitVec 6) (fn : BitVec 4), s.Issues t g → fn.toNat < 6 →
    let x := s.tile t
    x.VecOk va.toNat → x.VecOk vb.toNat → x.VecOk vd.toNat → x.Free .vector [x.cyc] →
    let a (e : Nat) := x.velem va.toNat e
    let b (e : Nat) := x.velem vb.toNat e
    let d (e : Nat) := x.velem vd.toNat e
    let op (p q r : Machine.Num) : Machine.Num :=
      ([p.add q, p.add q.neg, p.mul q, (p.mul q).add r, p.minimum q, p.maximum q]).getD fn.toNat p
    let poison (e : Nat) : Bool := x.velemPoison va.toNat e || x.velemPoison vb.toNat e ||
      (fn == 3 && x.velemPoison vd.toNat e)
    let single (v : BitVec 32) : Machine.Num := decodeElem .f32 v.toNat
    let half (v : BitVec 32) (h : Nat) : Machine.Num := decodeElem .bf16 (v.toNat / 2 ^ (16 * h) % 65536)
    let answers (c : Instr) (f : Nat → Nat) : Prop :=
      ∃ r : List (BitVec 32 × Bool),
        exec c s = .next (s.withTile t ((x.holding .vector [x.cyc]).plan 2 3 (.wrV (256 * vd.toNat) r false))) ∧
        r.length = 256 ∧ ∀ e < 256, r[e]? = some (BitVec.ofNat 32 (f e), poison e)
    answers (.fop t g vd va vb fn) (fun e => (encodeElem .f32 (op (single (a e)) (single (b e)) (single (d e)))).1) ∧
    answers (.hop t g vd va vb fn) (fun e =>
      (encodeElem .bf16 (op (half (a e) 0) (half (b e) 0) (half (d e) 0))).1 +
      65536 * (encodeElem .bf16 (op (half (a e) 1) (half (b e) 1) (half (d e) 1))).1)

/-- R163: IOP, FCMP, ICMP, VSEL and VPERM, element by element; latencies 2, 3 for a product and a permutation. -/
def Obligations.IntegerVectorOperations : Prop :=
  ∀ (s : State) (t : Nat) (g : Guard) (vd va vb : BitVec 6) (fn : BitVec 4), s.Issues t g →
    let x := s.tile t
    x.VecOk va.toNat → x.VecOk vb.toNat → x.VecOk vd.toNat → x.Free .vector [x.cyc] →
    let a (e : Nat) := x.velem va.toNat e
    let b (e : Nat) := x.velem vb.toNat e
    let d (e : Nat) := x.velem vd.toNat e
    let both (e : Nat) : Bool := x.velemPoison va.toNat e || x.velemPoison vb.toNat e
    let mask (c : Bool) : BitVec 32 := if c then 0xFFFFFFFF else 0
    let num (v : BitVec 32) : Machine.Num := decodeElem .f32 v.toNat
    let nan (e : Nat) : Bool := decide (num (a e) = .nan) || decide (num (b e) = .nan)
    let answers (c : Instr) (l : Nat) (f : Nat → BitVec 32 × Bool) : Prop :=
      ∃ r : List (BitVec 32 × Bool),
        exec c s = .next (s.withTile t ((x.holding .vector [x.cyc]).plan 2 (l - 1) (.wrV (256 * vd.toNat) r false))) ∧
        r.length = 256 ∧ ∀ e < 256, r[e]? = some (f e)
    (fn.toNat < 11 → answers (.iop t g vd va vb fn) (if fn = 2 then 3 else 2) fun e =>
      (([a e + b e, a e - b e, a e * b e, a e &&& b e, a e ||| b e, a e ^^^ b e, a e <<< ((b e).toNat % 32),
        a e >>> ((b e).toNat % 32), (a e).sshiftRight ((b e).toNat % 32),
        if (a e).toInt < (b e).toInt then a e else b e,
        if (a e).toInt < (b e).toInt then b e else a e]).getD fn.toNat 0, both e)) ∧
    (fn.toNat < 4 → answers (.icmp t g vd va vb fn) 2 fun e =>
      (mask (([decide (a e = b e), decide (a e ≠ b e), decide ((a e).toInt < (b e).toInt),
        decide ((a e).toNat < (b e).toNat)]).getD fn.toNat false), both e)) ∧
    (fn.toNat < 4 → answers (.fcmp t g vd va vb fn) 2 fun e =>
      (mask (([(num (a e)).eqv (num (b e)), nan e || !(num (a e)).eqv (num (b e)), (num (a e)).lt (num (b e)),
        !nan e && ((num (a e)).lt (num (b e)) || (num (a e)).eqv (num (b e)))]).getD fn.toNat false), both e)) ∧
    answers (.vsel t g vd va vb 0) 2 (fun e =>
      if d e = 0 then (b e, x.velemPoison vb.toNat e || x.velemPoison vd.toNat e)
      else (a e, x.velemPoison va.toNat e || x.velemPoison vd.toNat e)) ∧
    answers (.vperm t g vd va vb 0) 3 (fun e =>
      (a ((b e).toNat % 256), x.velemPoison va.toNat ((b e).toNat % 256) || x.velemPoison vb.toNat e))

/-- R122, R164: VFN by its functions, with their occupancies and latencies: 256 binary32 results, 256 bfloat16 results
into the 128 elements of one half of vd, the other half not written, or 512 bfloat16 results. -/
def Obligations.VectorFunctions : Prop :=
  ∀ (s : State) (t : Nat) (g : Guard) (vd va vb : BitVec 6) (fn : BitVec 4), s.Issues t g →
    let x := s.tile t
    let occ (n : Nat) : List Nat := (List.range n).map (· + x.cyc)
    let p (e : Nat) := x.velemPoison va.toNat e
    let single (e : Nat) : Machine.Num := vecFn fn.toNat (decodeElem .f32 (x.velem va.toNat e).toNat)
    let half (e h : Nat) : Machine.Num :=
      vecFn fn.toNat (decodeElem .bf16 ((x.velem va.toNat e).toNat / 2 ^ (16 * h) % 65536))
    let bf (v : Machine.Num) : Nat := (encodeElem .bf16 v).1
    let answers (c : Instr) (n l off k : Nat) (q : List (BitVec 32 × Bool) → Prop) : Prop :=
      x.Free .vector (occ n) → ∃ r : List (BitVec 32 × Bool),
        exec c s =
          .next (s.withTile t ((x.holding .vector (occ n)).plan 2 (l - 1) (.wrV (256 * vd.toNat + off) r false))) ∧
        r.length = k ∧ q r
    x.VecOk va.toNat →
      (fn.toNat < 5 → answers (.vfn t g vd va 0 fn) 4 14 0 256 fun r =>
        ∀ e < 256, r[e]? = some (BitVec.ofNat 32 (encodeElem .f32 (single e)).1, p e)) ∧
      (5 ≤ fn.toNat → fn.toNat < 8 → vb.toNat < 2 → answers (.vfn t g vd va vb fn) 2 12 (128 * vb.toNat) 128 fun r =>
        ∀ k < 128, r[k]? = some
          (BitVec.ofNat 32 (bf (single (2 * k)) + 65536 * bf (single (2 * k + 1))), p (2 * k) || p (2 * k + 1))) ∧
      (8 ≤ fn.toNat → fn.toNat < 11 → answers (.vfn t g vd va 0 fn) 4 14 0 256 fun r =>
        ∀ e < 256, r[e]? = some (BitVec.ofNat 32 (bf (half e 0) + 65536 * bf (half e 1)), p e))

/-- R124, R165: VSCAN: element i of the result is the running value of elements s to i of va, where s is the last
element at or before i whose flag in vb is set; FN 0 scans the 64 grid lanes, with the flag of lane j in element 4j. -/
def Obligations.VectorScans : Prop :=
  ∀ (s : State) (t : Nat) (g : Guard) (vd va vb : BitVec 6) (fn : BitVec 4), s.Issues t g → fn.toNat < 7 →
    let x := s.tile t
    let occ : List Nat := [x.cyc, x.cyc + 1]
    let num (v : BitVec 32) : Machine.Num := decodeElem .f32 v.toNat
    let enc (v : Machine.Num) : BitVec 32 := BitVec.ofNat 32 (encodeElem .f32 v).1
    let f (a b : BitVec 32) : BitVec 32 :=
      ([a, a + b, if a.toInt < b.toInt then a else b, if a.toInt < b.toInt then b else a,
        enc ((num a).minimum (num b)), enc ((num a).maximum (num b)), enc ((num a).add (num b))]).getD fn.toNat a
    let flag (e : Nat) : Bool := decide (x.velem vb.toNat e ≠ 0)
    let pv (e : Nat) : Bool := x.velemPoison va.toNat e || x.velemPoison vb.toNat e
    x.VecOk va.toNat → x.VecOk vb.toNat → x.Free .vector occ →
    ∃ r : List (BitVec 32 × Bool),
      exec (.vscan t g vd va vb fn) s =
        .next (s.withTile t ((x.holding .vector occ).plan 2 9 (.wrV (256 * vd.toNat) r false))) ∧
      (fn ≠ 0 → r[0]? = some (x.velem va.toNat 0, pv 0) ∧
        ∀ e, e + 1 < 256 → ∀ v p, r[e]? = some (v, p) → r[e + 1]? = some
          (if flag (e + 1) then (x.velem va.toNat (e + 1), pv (e + 1))
           else (f v (x.velem va.toNat (e + 1)), p || pv (e + 1)))) ∧
      (fn = 0 → ∃ run : Nat → GVal × Bool,
        (∀ v p, (lanes (x.vreg va.toNat))[0]? = some (v, p) → run 0 = (v, p || x.velemPoison vb.toNat 0)) ∧
        (∀ j, j + 1 < 64 → ∀ v p, (lanes (x.vreg va.toNat))[j + 1]? = some (v, p) → run (j + 1) =
          if flag (4 * (j + 1)) then (v, p || x.velemPoison vb.toNat (4 * (j + 1)))
          else (gridSum [(run j).1, v], (run j).2 || p || x.velemPoison vb.toNat (4 * (j + 1)))) ∧
        ∀ j < 64, ∀ i < 4, r[4 * j + i]? =
          some (BitVec.ofNat 32 (encodeGrid 128 (run j).1 / 2 ^ (32 * i)), (run j).2))

/-- R123, R163: VGADD adds the elements of va, rounded to gx, into the 64 grid lanes of vd; VGEXP converts the lanes of
va into the 64 elements of a quarter of vd as binary32 or the 128 of a half as G64, and writes no other element of vd. -/
def Obligations.VectorGridLanes : Prop :=
  ∀ (s : State) (t : Nat) (g : Guard) (vd va vb : BitVec 6) (fn : BitVec 4), s.Issues t g → fn.toNat < 2 →
    let x := s.tile t
    let occ (n : Nat) : List Nat := (List.range n).map (· + x.cyc)
    let writes (c : Instr) (n l off : Nat) (r : List (BitVec 32 × Bool)) : Prop :=
      exec c s = .next (s.withTile t ((x.holding .vector (occ n)).plan 2 (l - 1) (.wrV (256 * vd.toNat + off) r false)))
    let n := if fn = 1 then 8 else 4
    let terms (j : Nat) : List (GVal × Bool) := laneTerms (x.vreg va.toNat) (fn == 1) x.gx.toInt j
    x.VecOk va.toNat →
    (x.VecOk vd.toNat → x.Free .vector (occ n) → ∃ r, writes (.vgadd t g vd va 0 fn) n (n + 4) 0 r ∧
      ∀ j < 64, ∀ v p, (lanes (x.vreg vd.toNat))[j]? = some (v, p) → ∀ i < 4, r[4 * j + i]? =
        some (BitVec.ofNat 32 (encodeGrid 128 (gridSum (v :: (terms j).map Prod.fst)) / 2 ^ (32 * i)),
          p || (terms j).any Prod.snd)) ∧
    (x.Free .vector (occ 1) →
      (vb.toNat < 4 → ∃ r, writes (.vgexp t g vd va vb 0) 1 4 (64 * vb.toNat) r ∧ r.length = 64 ∧
        ∀ j < 64, ∀ v p, (lanes (x.vreg va.toNat))[j]? = some (v, p) →
          r[j]? = some (BitVec.ofNat 32 (exportElem .f32 x.gx.toInt v).1, p)) ∧
      (vb.toNat < 2 → ∃ r, writes (.vgexp t g vd va vb 1) 1 4 (128 * vb.toNat) r ∧ r.length = 128 ∧
        ∀ j < 64, ∀ v p, (lanes (x.vreg va.toNat))[j]? = some (v, p) → ∀ i < 2,
          r[2 * j + i]? = some (BitVec.ofNat 32 ((exportElem .g64 x.gx.toInt v).1 / 2 ^ (32 * i)), p)))

/-- R125, R163, R165: VCVT converts the 256 elements of one part of va into one part of vd and writes no other byte of
vd; VBC broadcasts a scalar; VEXT takes one element, zero-extended. -/
def Obligations.VectorConversionsAndMoves : Prop :=
  ∀ (s : State) (t : Nat) (g : Guard) (vd va : BitVec 6) (ra : BitVec 5), s.Issues t g →
    let x := s.tile t
    let writes (c : Instr) (l off : Nat) (r : List (BitVec 32 × Bool)) (conv : Bool) : Prop :=
      exec c s = .next (s.withTile t ((x.holding .vector [x.cyc]).plan 2 (l - 1) (.wrV (256 * vd.toNat + off) r conv)))
    x.Free .vector [x.cyc] →
    (∀ (vb : BitVec 6) (fn : BitVec 4) (a b : Elem), vcvtFmt (vb.toNat / 8) = some a →
      vcvtFmt (vb.toNat % 8) = some b → a ≠ b →
      let wa := a.bits / 8
      let wb := b.bits / 8
      let sp := fn.toNat / 4
      let tp := fn.toNat % 4
      let src (k : Nat) : Nat := let n := 256 * wa * sp + wa * k
        (x.velem va.toNat (n / 4)).toNat / 2 ^ (8 * (n % 4)) % 2 ^ (8 * wa)
      sp < 4 / wa → tp < 4 / wb → x.VecOk va.toNat →
      ∃ r conv, writes (.vcvt t g vd va vb fn) 3 (64 * wb * tp) r conv ∧ r.length = 64 * wb ∧
        ∀ k < 256, ∃ v p, r[wb * k / 4]? = some (v, p) ∧ v.toNat / 2 ^ (8 * (wb * k % 4)) % 2 ^ (8 * wb) =
          (encodeElem b (decodeElem a (src k))).1 % 2 ^ (8 * wb)) ∧
    (x.ParityOk [ra.toNat] →
      writes (.vbc t g vd ra) 2 0 (List.replicate 256 ((x.rs ra.toNat).truncate 32, x.rsPoison ra.toNat)) false) ∧
    (∀ lane : BitVec 8, sget false x.vbad (256 * va.toNat + lane.toNat) = false →
      exec (.vext t g ra va lane) s = .next (s.withTile t ((x.holding .vector [x.cyc]).writeS true 2 3 ra.toNat
        ((x.velem va.toNat lane.toNat).zeroExtend 64) (x.velemPoison va.toNat lane.toNat))))

/-- R163: VLD and VST move the 1,024 hold bytes at RA + sext(IMM11) × 256 with bits [7:0] cleared: four reads in cycles
i + 1 to i + 4, eight writes in cycles i + 2 to i + 9. -/
def Obligations.VectorHoldAccess : Prop :=
  ∀ (s : State) (t : Nat) (g : Guard) (v : BitVec 6) (ra : BitVec 5) (imm : BitVec 11), s.Issues t g →
    let x := s.tile t
    let a := (x.rs ra.toNat + imm.signExtend 64 * 256).toNat / 256 * 256
    let reads := (List.range 4).map (· + (x.cyc + 1))
    let stores := (List.range 8).map (· + (x.cyc + 2))
    x.ParityOk [ra.toNat] → x.rsPoison ra.toNat = false → a + 1024 ≤ 0x180000 → x.Free .vector [x.cyc] →
    (x.Free .holdRead reads →
      exec (.vld t g v ra imm) s = .next (s.withTile t
        (((x.holding .vector [x.cyc]).holding .holdRead reads).planAll true 2
          [(1, .rdV v.toNat a 0), (2, .rdV v.toNat a 1), (3, .rdV v.toNat a 2), (4, .rdV v.toNat a 3)]))) ∧
    (x.VecOk v.toNat → x.Free .holdWrite stores →
      ∃ bs : PBytes, bs.length = 1024 ∧
        (∀ e < 256, ∀ k < 4, bs[4 * e + k]? =
          some (BitVec.ofNat 8 ((x.velem v.toNat e).toNat / 2 ^ (8 * k)), x.velemPoison v.toNat e)) ∧
        exec (.vst t g v ra imm) s = .next (s.withTile t
          (((x.holding .vector [x.cyc]).holding .holdWrite stores).planAll true 2
            ((List.range 8).map fun p => (2 + p, TileAct.wrHold (a + 128 * p) ((bs.drop (128 * p)).take 128))))))

/-- R138, R142, R167: a tile that issues nothing now (stopped, stalled, ended, or not running) is left as it is by an
operation of each slot, and so is everything else. -/
def Obligations.TileThatDoesNotIssueIsLeftAlone : Prop :=
  ∀ (s : State) (t : Nat) (g : Guard), (s.tile t).issuing = false →
    (∀ rd ra rb fn, exec (.alu t g rd ra rb fn) s = .next (s.seal s)) ∧
    (∀ rb ra imm, exec (.st t g rb ra imm) s = .next (s.seal s)) ∧
    (∀ bank buf z ag bs fmt ra rb, exec (.mma t g bank buf z ag bs fmt ra rb) s = .next (s.seal s)) ∧
    (∀ vd va vb fn, exec (.fop t g vd va vb fn) s = .next (s.seal s)) ∧
    (∀ lc v, exec (.lcset t g lc v) s = .next (s.seal s)) ∧
    (∀ bid, exec (.muster t g bid) s = .next (s.seal s))

/-- R129: a disabled operation writes nothing and starts nothing, but holds the port cycles that it would hold. -/
def Obligations.DisabledOperationsOnlyHoldPorts : Prop :=
  ∀ (s : State) (t : Nat) (g : Guard), s.Skips t g →
    let x := s.tile t
    let leaves (c : Instr) (y : Tile) : Prop := exec c s = .next (s.withTile t y)
    (∀ rd ra imm, leaves (.addi t g rd ra imm) x) ∧ (∀ imm, leaves (.br t g imm) x) ∧ leaves (.endLeg t g) x ∧
    (∀ rd ra imm, x.Free .holdRead [x.cyc + 1] → leaves (.ld t g rd ra imm) (x.holding .holdRead [x.cyc + 1])) ∧
    (∀ rb ra imm, x.Free .holdWrite [x.cyc + 2] → leaves (.st t g rb ra imm) (x.holding .holdWrite [x.cyc + 2])) ∧
    (∀ bank (w : BitVec 2), w ≠ 3 →
      let port : Port := if bank then .bank1 else .bank0
      x.Free port [x.cyc + 1] → leaves (.zb t g bank w) (x.holding port [x.cyc + 1])) ∧
    (∀ lc n, leaves (.waitLc t g lc n) x) ∧ (∀ lc v, leaves (.lcset t g lc v) x) ∧
    (∀ lc idx, leaves (.barge t g lc idx) x) ∧
    (∀ rb lc w ra sz aq rl, leaves (.gst t g rb lc w ra sz aq rl) x) ∧
    (∀ bid, leaves (.muster t g bid) x)

/-! ### The B slot -/

/-- R166 to R169, R173: waits, landing counters and musters. A stalled bundle is released in the first cycle in which its wait
is satisfied, and WAIT_LC subtracts then. -/
def Obligations.WaitsCountersAndMusters : Prop :=
  (∀ (s : State) (t : Nat) (g : Guard) (lc : BitVec 4), s.Issues t g →
     let x := s.tile t
     let leaves (c : Instr) (y : Tile) : Prop := exec c s = .next (s.withTile t y)
     (∀ n : BitVec 16,
       (n.toNat ≤ x.lc lc.toNat →
         leaves (.waitLc t g lc n) (x.plan 3 0 (.wrLc lc.toNat (x.lc lc.toNat - n.toNat)))) ∧
       (x.lc lc.toNat < n.toNat →
         leaves (.waitLc t g lc n) { x with stall := some (.lc lc.toNat n.toNat) })) ∧
     (∀ c : BitVec 19,
       (c.toNat ≤ x.cyc → leaves (.waitLock t g c) x) ∧
       (x.cyc < c.toNat → leaves (.waitLock t g c) { x with stall := some (.cycle c.toNat) })) ∧
     (∀ v : BitVec 16, leaves (.lcset t g lc v) (x.plan 3 0 (.wrLc lc.toNat v.toNat))) ∧
     (∀ (bid : BitVec 8) k ft, x.flight = some (k, ft) →
       exec (.muster t g bid) s =
         .next (({ s.setTile t x with musters := addMuster (s.flight k).tag bid.toNat 1 s.musters } : State).seal s))) ∧
  (∀ (s : State) (t : Nat), let x := s.tile t
     x.running = true →
     (∀ c n, x.stall = some (.lc c n) → n ≤ x.lc c →
       exec (.bundleStallRelease t) s =
         .next (s.withTile t (({ x with stall := none } : Tile).plan 3 0 (.wrLc c (x.lc c - n))))) ∧
     (∀ c n, x.stall = some (.lc c n) → x.lc c < n → exec (.bundleStallRelease t) s = .next (s.seal s)) ∧
     (∀ n, x.stall = some (.cycle n) → n ≤ x.cyc →
       exec (.bundleStallRelease t) s = .next (s.withTile t { x with stall := none })))

/-- R166, R170 to R172: a global access starts with its address inside its window, and a FENCE joins the accesses that it
orders. R142, R174, R175: BARGE has the entry that IDX names in its leg's list start in the next cycle; an index at or beyond the list is
ILLEGAL, and the 65th barge in flight stops the tile with BARGE_LIMIT. -/
def Obligations.AccessesAndBargesStart : Prop :=
  (∀ (s : State) (t : Nat) (g : Guard) (rd ra : BitVec 5) (lc : BitVec 4) (w : BitVec 3) (sz : BitVec 2) (aq rl nf : Bool)
     (fn : BitVec 4) (leg : Nat), s.Issues t g →
     let x := s.tile t
     let m := s.legImage x
     let base := (window m (legWindowFirst m leg + w.toNat)).1
     let len := (window m (legWindowFirst m leg + w.toNat)).2
     let va (size : Nat) : Nat := (base + (x.rs ra.toNat).toNat) / size * size
     let inside (size : Nat) : Prop := base ≤ va size ∧ va size + size ≤ base + len
     let starts (c : Instr) (a : Access) : Prop :=
       exec c s = .next (s.withTile t { x with accs := x.accs ++ [a], nextId := x.nextId + 1 })
     x.leg = some leg → w.toNat < legWindows m leg → x.rsPoison ra.toNat = false →
     x.ParityOk [ra.toNat, rd.toNat, rd.toNat + 1] →
     (inside (2 ^ sz.toNat) →
       starts (.gld t g rd lc w ra sz aq rl)
         { id := x.nextId, kind := .gld rd.toNat, lc := lc.toNat, va := va (2 ^ sz.toNat), size := 2 ^ sz.toNat,
           aq := aq, rl := rl, pc := x.pc } ∧
       starts (.gst t g rd lc w ra sz aq rl)
         { id := x.nextId, kind := .gst, lc := lc.toNat, va := va (2 ^ sz.toNat), size := 2 ^ sz.toNat,
           value := x.rs rd.toNat, poison := x.rsPoison rd.toNat, aq := aq, rl := rl, pc := x.pc }) ∧
     (inside 8 → fn.toNat < 7 →
       starts (.gamo t g rd lc w ra fn nf)
         { id := x.nextId, kind := .gamo rd.toNat fn.toNat nf, lc := lc.toNat, va := va 8, size := 8,
           value := x.rs rd.toNat, compare := x.rs rd.toNat, poison := x.rsPoison rd.toNat, pc := x.pc }) ∧
     (inside 8 → rd.toNat % 2 = 0 →
       starts (.gamo t g rd lc w ra 7 nf)
         { id := x.nextId, kind := .gamo rd.toNat 7 nf, lc := lc.toNat, va := va 8, size := 8,
           value := x.rs (rd.toNat + 1), compare := x.rs rd.toNat,
           poison := x.rsPoison rd.toNat || x.rsPoison (rd.toNat + 1), pc := x.pc }) ∧
     (¬inside (2 ^ sz.toNat) →
       Completes (.gst t g rd lc w ra sz aq rl) s fun u =>
         (u.tile t).stop = some (.windowAddress, x.pc) ∧ (u.tile t).accs = x.accs) ∧
     starts (.fence t g lc) { id := x.nextId, kind := .fence, lc := lc.toNat, va := 0, size := 0, pc := x.pc }) ∧
  (∀ (s : State) (t : Nat) (g : Guard) (lc : BitVec 4) (idx : BitVec 12) (leg : Nat), s.Issues t g →
     let x := s.tile t
     let m := s.legImage x
     x.leg = some leg →
     (idx.toNat < legBarges m leg → x.barges.length < 64 →
       exec (.barge t g lc idx) s = .next (s.withTile t { x with
         barges := x.barges ++ [{ id := x.nextId, idx := idx.toNat, lc := lc.toNat,
                                  desc := bargeBytes m (legBargeFirst m leg + idx.toNat) }]
         nextId := x.nextId + 1 })) ∧
     (legBarges m leg ≤ idx.toNat → Completes (.barge t g lc idx) s fun u =>
       (u.tile t).stop = some (.illegal, x.pc) ∧ (u.tile t).barges = x.barges) ∧
     (idx.toNat < legBarges m leg → 64 ≤ x.barges.length → Completes (.barge t g lc idx) s fun u =>
       (u.tile t).stop = some (.bargeLimit, x.pc) ∧ (u.tile t).barges = x.barges))

/-! ### Landings -/

/-- R168, R170 to R172, R200, R416 to R420: a landing takes its access or barge out of flight and adds 1 to its counter,
saturating; one that saturates, counted after what the tile's present cycle still writes to the counter, sets LCSAT; what
waits for an earlier access does not land; a store, a load and a hold copy move their bytes. -/
def Obligations.LandingsCountAndMove : Prop :=
  ∀ (s : State) (t id : Nat), s.Live → let x := s.tile t
    (∀ c, x.lc c ≤ 0xFFFF) →
    (∀ a e, x.accs.find? (fun e => e.id == id) = some a → e ∈ earlier x.accs id →
      a.rl = true ∨ e.aq = true ∨ a.kind = .fence ∨ e.kind = .fence ∨ (a.va < e.va + e.size ∧ e.va < a.va + a.size) →
      exec (.globalAccessLanding t id) s = .next (s.seal s)) ∧
    (∀ a, x.accs.find? (fun e => e.id == id) = some a → earlier x.accs id = [] →
      let landed (u : State) : Prop :=
        (u.tile t).accs = x.accs.filter (fun e => e.id ≠ id) ∧
        (∀ c, (u.tile t).lc c = if c = a.lc then min 0xFFFF (x.lc c + 1) else x.lc c) ∧
        (u.tile t).lcsat = (x.lcsat || decide (0xFFFF ≤ x.landOn a.lc)) ∧ (u.tile t).hold = x.hold ∧
        ∀ t', t' ≠ t → u.tile t' = s.tile t'
      (a.kind = .fence → Completes (.globalAccessLanding t id) s fun u =>
        landed u ∧ u.hdm = s.hdm ∧ u.host = s.host ∧ (u.tile t).sregs = x.sregs) ∧
      (∀ g : XSeg, s.segs t a.va a.size = (s, [g]) → a.size = 8 → g.len = 8 → g.host = false → g.attr = 3 →
        g.ce = false → g.pa % 8 = 0 → s.Backed g.pa → s.Backed (lineOf g.pa) → s.port.curOk = [] → s.homeBusy none (lineOf g.pa, some true) = false →
        s.homeBusy none (lineOf g.pa, some false) = false →
        (a.kind = .gst → a.poison = false → Completes (.globalAccessLanding t id) s fun u =>
          landed u ∧ (u.tile t).sregs = x.sregs ∧
          (∀ i < 8, u.hdm.byte (g.pa + i) = a.value.extractLsb' (8 * i) 8) ∧
          ∀ b, b < g.pa ∨ g.pa + 8 ≤ b → u.hdm.byte b = s.hdm.byte b) ∧
        (∀ rd, a.kind = .gld rd → 0 < rd → x.inject = none → s.CleanLine (lineOf g.pa) →
          Completes (.globalAccessLanding t id) s fun u =>
            landed u ∧ u.hdm = s.hdm ∧
            (u.tile t).rs rd = BitVec.ofNat 64 (leNat ((List.range 8).map fun i => s.hdm.byte (g.pa + i)))))) ∧
    (∀ b : BargeInst, x.barges.find? (fun b => b.id == id) = some b → let d := descOf b.desc
      d.op = 0 → d.cvt = false → d.srcKind = 1 → d.dstKind = 1 → d.c1 = 1 → d.c2 = 1 → d.c3 = 1 →
      d.src + d.l0 ≤ 0x180000 → d.dst + d.l0 ≤ 0x180000 → x.inject = none → (∀ a, x.hold.mark a = 0) →
      s.ioBusy (.barge t id) = false → b.berthTags = [] →
      Completes (.bargeLanding t id) s fun u =>
        (u.tile t).barges = x.barges.filter (fun b => b.id ≠ id) ∧
        (∀ c, (u.tile t).lc c = min 0xFFFF (x.lc c + (if c = b.lc then 1 else 0) +
          if d.rlcEn = true ∧ c = d.rlc then 1 else 0)) ∧
        (∀ i < d.l0, (u.tile t).hold.byte (d.dst + i) = x.hold.byte (d.src + i)) ∧
        (∀ a, a < d.dst ∨ d.dst + d.l0 ≤ a → (u.tile t).hold.byte a = x.hold.byte a) ∧
        (u.tile t).sregs = x.sregs ∧ u.hdm = s.hdm ∧ ∀ t', t' ≠ t → u.tile t' = s.tile t')

/-! ### Service of tiles -/

/-- R81, R89, R90, R93, R203, R646, R649, R650: what ends an overrun, zeroes a tile, and re-grades or substitutes one. -/
def Obligations.TileService : Prop :=
  ∀ s : State, s.Live →
    (∀ k, (s.flight k).overrun = true → (s.flight k).needRestore = false → (s.flight k).leaveDue = false →
      (s.flight k).restoreDue = none → (∀ w ∈ s.waits, ∀ p c va n, w.kind ≠ .xlt p c va n) →
      Completes (.overrunDrainDone k) s fun u =>
        (u.flight k).overrun = false ∧
        (∀ e ∈ s.tilesOf k, (u.tile e.1).barges = [] ∧ (u.tile e.1).accs = [] ∧ ∀ n ∈ u.tickets, n.2.1 ≠ e.1) ∧
        (∀ k', k' ≠ k → u.flight k' = s.flight k') ∧ u.hdm = s.hdm) ∧
    (∀ t, (s.tile t).zeroing = true → Completes (.tileZeroingDone t) s fun u => let y := u.tile t
      y.zeroing = false ∧ (∀ a, y.hold.byte a = 0) ∧ (∀ i, sget 0 y.imem i = 0) ∧ (∀ r, y.rs r = 0) ∧
      (∀ p < 8, 0 < p → y.rp p = false) ∧ (∀ c, y.lc c = 0) ∧ y.gx = 0 ∧ y.bank0 = {} ∧ y.bank1 = {} ∧
      y.buf0 = {} ∧ y.buf1 = {} ∧ y.st = (s.tile t).st ∧ ∀ t', t' ≠ t → u.tile t' = s.tile t') ∧
    (∀ p pos q k i, (s.reach p).subst = some (pos, false) → (s.reach p).tileMap[pos]? = some (some q) →
      (s.tile (17 * p + q)).flight = some (k, i) → (s.flight k).st ≠ .running →
      exec (.substitutionCopyDone p) s =
        .next ((s.setReach p { s.reach p with subst := some (pos, true), substLate := s.gate.cut }).seal s)) ∧
    (∀ v, s.bit FUS_REGRADE 31 = true → exec (.tileRegrade v) s = .next (s.seal s)) ∧
    (∀ v, s.bit FUS_SUBST 31 = true → exec (.spareSubstitution v) s = .next (s.seal s)) ∧
    (∀ v : Reg, s.bit FUS_REGRADE 31 = false →
      let t := v.toNat % 512
      let p := t / 17
      ((s.tile t).st = .spare → (s.spareIdle p).isSome = true → Completes (.tileRegrade v) s fun u =>
        (u.reach p).regradeWait = some (t % 17) ∧ u.bit FUS_REGRADE 31 = true ∧ u.tiles = s.tiles) ∧
      ((s.tile t).st = .bound → (s.tile t).zeroing = false → (s.spareIdle p).isSome = true →
        Completes (.tileRegrade v) s fun u =>
          (u.reach p).subst = ((s.reach p).posOf (t % 17)).map (fun n => (n, false)) ∧
          (u.reach p).regradeAfter = true ∧ u.bit FUS_REGRADE 31 = true ∧ u.tiles = s.tiles) ∧
      ((s.tile t).st = .retired → Completes (.tileRegrade v) s fun u =>
        u.bit FUS_REGRADE 31 = false ∧ u.fld FUS_REGRADE 30 28 = 2 ∧ u.tiles = s.tiles ∧ u.reaches = s.reaches)) ∧
    (∀ (v : Reg) (t : Nat), s.bit FUS_SUBST 31 = false → s.physTile (v.toNat % 256) = some t →
      ((s.tile t).st = .bound → (s.tile t).zeroing = false → (s.spareIdle (t / 17)).isSome = true →
        Completes (.spareSubstitution v) s fun u =>
          (u.reach (t / 17)).subst = ((s.reach (t / 17)).posOf (t % 17)).map (fun n => (n, false)) ∧
          u.bit FUS_SUBST 31 = true ∧ u.tiles = s.tiles) ∧
      ((s.tile t).st = .bound → (s.tile t).zeroing = false → s.spareIdle (t / 17) = none →
        Completes (.spareSubstitution v) s fun u =>
          u.bit FUS_SUBST 31 = false ∧ u.fld FUS_SUBST 30 28 = 1 ∧ u.tiles = s.tiles ∧ u.reaches = s.reaches)) ∧
    (∀ p q passed, (s.reach p).regrade = some q →
      let t := 17 * p + q
      let g := min (sget 132 s.fuses.grades t) passed - 2
      (40 ≤ g → Completes (.regradeDone p passed) s fun u =>
        (u.tile t).st = .spare ∧ (u.tile t).service = g ∧ (u.tile t).clk = min (s.tile t).clk g ∧ (u.reach p).regrade = none ∧
        ∀ t', t' ≠ t → u.tile t' = s.tile t') ∧
      (g < 40 → Completes (.regradeDone p passed) s fun u =>
        (u.tile t).st = .retired ∧ (u.reach p).regrade = none))

/-! ### Clocks, legs and counters -/

/-- R25, R78, R535, R586, R593, R594: the start of legs, pending clock steps, droop detectors and the decay of the access
counters. -/
def Obligations.ClocksAndLegs : Prop :=
  ∀ s : State, s.Live →
    (∀ t k i l, let x := s.tile t
      x.flight = some (k, i) → x.leg = some l → x.st = .bound → x.running = false → x.endAt = none → x.sched = [] →
      Completes .legStart s fun u =>
        u.tile t = { x with pc := legPc (s.flight k).image l, cyc := 64, running := true } ∧ u.hdm = s.hdm ∧
        ∀ t', (s.tile t').leg = none → u.tile t' = s.tile t') ∧
    (∀ t c, (s.tile t).step = some c → (s.reach (t / 17)).droop = [] → (s.tile t).cyc < 64 →
      exec (.clockStep t) s = .next (s.withTile t { s.tile t with clk := min c (s.tile t).service, step := none })) ∧
    (∀ t c, (s.tile t).step = some c → (s.reach (t / 17)).droop ≠ [] ∨ 64 ≤ (s.tile t).cyc →
      exec (.clockStep t) s = .next (s.seal s)) ∧
    (∀ t c, (s.tile t).step = some c → Completes (.clockStepDeferred t) s fun u =>
      u.tile t = { s.tile t with step := none } ∧ u.bit PWR_STAT 7 = true ∧ ∀ t', t' ≠ t → u.tile t' = s.tile t') ∧
    (∀ p d l, s.fuses.reachActive p = true → d < 16 → 1 ≤ l → l ≤ 3 → Completes (.droopTrip p d l) s fun u =>
      sfind? (u.reach p).droop d = some l ∧ (∀ d', d' ≠ d → sfind? (u.reach p).droop d' = sfind? (s.reach p).droop d') ∧
      u.tiles = s.tiles) ∧
    (∀ p d, Completes (.droopStretchEnd p d) s fun u =>
      sfind? (u.reach p).droop d = none ∧ (∀ d', d' ≠ d → sfind? (u.reach p).droop d' = sfind? (s.reach p).droop d') ∧
      u.tiles = s.tiles) ∧
    Completes .counterDecay s fun u =>
      (∀ c b n w, (c, b, n, w) ∈ u.xlt.counters ↔ 0 < n ∧ ∃ m, (c, b, m, w) ∈ s.xlt.counters ∧ n = m / 2) ∧
      u.xlt.tlb = s.xlt.tlb ∧ u.hdm = s.hdm ∧ u.tiles = s.tiles

/-! ### The lock and the gate -/

/-- R21, R22, R24, R30, R31: a lock whose vote is decided opens the next pound, at its epoch plus its pounds plus the
slip, 250 ns later for each late vote. The formula holds of the settings that the lock leaves; a new pound length
re-bases it, with no slip. A late vote before the 17th brings no lock. -/
def Obligations.LockOpensTheNextPound : Prop :=
  ∀ (s : State) (tj : List Nat), s.Live → s.locksRun = true → s.gate.cut = true →
    (s.lateVote = true → s.gate.round < 16 → exec (.lock tj) s = .next (s.seal s)) ∧
    (s.lateVote = false ∨ 16 ≤ s.gate.round → Completes (.lock tj) s fun u =>
      u.ww.pound = s.ww.pound + 1 ∧ u.ww.lockTime = u.ww.time ∧
      u.ww.time = (s.ww.epoch + (s.ww.pound + 1) * s.poundLen + s.ww.slip + 250 * s.gate.round) % 2 ^ 64 ∧
      u.ww.time = (u.ww.epoch + u.ww.pound * u.poundLen + u.ww.slip) % 2 ^ 64 ∧
      (u.poundLen ≠ s.poundLen → u.ww.slip = 0) ∧
      u.gate.cut = false ∧ u.gate.round = 0 ∧ u.gate.got = [])

/-- R26, R27, R30, R31, R34, R35, R266: the vote, and the gate flits of the exchange. R34, R269: the merge of contributions.
Flags are or-ed, the lead allowance and the draughts go to the strictest, the candidate of the highest priority and then
the lowest index wins, the request of the lowest index wins; merging does not depend on the order in these items. -/
def Obligations.GateExchange : Prop :=
  (∀ s : State, s.Live →
     (s.locksRun = true → s.gate.cut = false → Completes .voteInstant s fun u =>
       u.gate.cut = true ∧ u.gate.round = 0 ∧ u.gate.voted = !s.lateSlots.isEmpty ∧
       u.gate.sent.late = !s.lateSlots.isEmpty ∧ u.ww.pound = s.ww.pound) ∧
     (s.locksRun = true → s.gate.cut = true → s.lateVote = true → s.gate.round < 16 → Completes .voteInstant s fun u =>
       u.gate.cut = true ∧ u.gate.round = s.gate.round + 1 ∧ u.gate.voted = !s.lateSlots.isEmpty ∧
       u.gate.sent = s.gate.sent) ∧
     (s.locksRun = true → s.gate.cut = true → s.lateVote = false → exec .voteInstant s = .next (s.seal s)) ∧
     (∀ phase x, s.dims[phase]? = some x → s.ww.joined = true → s.gate.cut = true →
       Completes (.gateFlitSend s.gate.round phase) s fun u =>
         (∀ n ∈ s.neighborsIn x, ∀ p ∈ s.linkGroup n, let c := s.canal p
           let flit (part : Nat) := gateFlit s.ww.index c.peerDev s.gate.round phase part s.ww.pound
             (partOf part (s.phaseGate phase))
           (∃ fec, Out.flit p ((c.acks (flit 0)).bytes false) fec ∈ u.out) ∧
           (s.gate.round = 0 →
             ∃ fec, Out.flit p ((({ c with nakDue := false } : Canal).acks (flit 1)).bytes false) fec ∈ u.out)) ∧
         u.gate = s.gate ∧ s.out <+: u.out) ∧
     (∀ p e0 e1 h sp crc bs f dim, s.portActive p = true → s.ww.joined = true →
       (gateRx e0 e1 h sp crc bs).read = .flit f → f.typ = FLIT_GATE → f.ackv = false →
       s.dims[gatePhase f]? = some dim → (s.canal p).peerDev ∈ s.neighborsIn dim → gateRound f ≤ 16 →
       gatePart f = 0 ∨ (gatePart f = 1 ∧ gateRound f = 0) →
       let peer := (s.canal p).peerDev
       let known := ∃ g ∈ s.gate.got, g.round = gateRound f ∧ g.phase = gatePhase f ∧ g.peer = peer ∧ g.part = gatePart f
       (known → exec (.gateFlitReceive p e0 e1 h sp crc bs) s = .next (s.seal s)) ∧
       (gatePound f = s.ww.pound % 2 ^ 32 → ¬known →
         exec (.gateFlitReceive p e0 e1 h sp crc bs) s = .next (({ s with gate := { s.gate with
           got := s.gate.got ++ [{ round := gateRound f, phase := gatePhase f, peer := peer, part := gatePart f,
                                   gate := partOf (gatePart f) (gateOf f) }] } } : State).seal s)) ∧
       (gatePound f ≠ s.ww.pound % 2 ^ 32 → exec (.gateFlitReceive p e0 e1 h sp crc bs) s = .next (s.seal s)))) ∧
  (∀ a b : Gate, let m := mergeGate a b
     m.late = (a.late || b.late) ∧ m.presence = (a.presence || b.presence) ∧ m.bound = (a.bound || b.bound) ∧
     m.reset = (a.reset || b.reset) ∧ m.leadAllow = min a.leadAllow b.leadAllow ∧
     (∀ n, n ∈ m.faultMap ↔ n ∈ a.faultMap ∨ n ∈ b.faultMap) ∧
     ((b.tags.map Prod.fst).Nodup → ∀ t, let x := gateTag a t
       let y := gateTag b t
       gateTag m t = { hold := x.hold || y.hold, moor := x.moor || y.moor, halt := x.halt || y.halt,
                       snap := x.snap || y.snap, resume := x.resume || y.resume, draught := max x.draught y.draught }) ∧
     (∀ x y, a.cand = some x → b.cand = some y →
       m.cand = some (if y.1 < x.1 ∨ (x.1 = y.1 ∧ x.2 ≤ y.2) then x else y)) ∧
     (∀ x y, a.setup = some x → b.setup = some y → x.dev ≠ y.dev → m.setup = (mergeGate b a).setup ∧
       m.setup = some (if x.dev < y.dev then x else y)))

/-- R43, R47 to R49, R57, R58, R207 to R209: lock-in's outcome, the loss of time and of the lockmaster, and the setup
request. An expired holdover leaves the device in the waterway, with its flights' hold flags in the next gate that it can
still enter, until the lock of that gate. -/
def Obligations.TimekeepingCommands : Prop :=
  ∀ s : State, s.Live →
    (∀ k, s.locksIn k = true → s.gate.cut = false → let r := (s.lockAll k (s.flight k).nextPos).2
      Completes (.lockIn k) s fun u =>
        (u.flight k).lockinDone = true ∧ (u.flight k).lockinOk = r.ok ∧ (u.flight k).nextXlt = r.leaves) ∧
    (∀ k, s.locksIn k = false ∨ s.gate.cut = true → exec (.lockIn k) s = .next (s.seal s)) ∧
    (s.ww.joined = true → s.ww.expired = none → Completes .holdoverExpiry s fun u =>
      u.ww = { s.ww with holdover := true, expired := some (s.ww.pound + 1 + bnat s.gate.cut) } ∧
      u.bit TCK_STAT 6 = true ∧ u.flights = s.flights ∧
      ∀ k ∈ s.boundSlots, (s.gate.cut = false → (gateTag u.gate.own (s.flight k).tag).hold = true) ∧
        (s.gate.cut = true → (gateTag u.gate.next (s.flight k).tag).hold = true)) ∧
    (s.ww.joined = false ∨ s.ww.expired.isSome = true → exec .holdoverExpiry s = .next (s.seal s)) ∧
    (s.ww.joined = true → 4 ≤ s.ww.lmAbsent → s.fld TCK_CTL 15 8 ≠ 0 →
      exec .lockmasterAbsence s = .next (({ s with ww := { s.ww with candidate := true } } : State).seal s)) ∧
    (s.ww.joined = false ∨ s.ww.lmAbsent < 4 ∨ s.fld TCK_CTL 15 8 = 0 →
      exec .lockmasterAbsence s = .next (s.seal s)) ∧
    (∀ v, s.bit TCK_REQ 31 = true → exec (.setupRequest v) s = .next (s.seal s)) ∧
    (∀ v : Reg, s.bit TCK_REQ 31 = false → Completes (.setupRequest v) s fun u =>
      u.bit TCK_REQ 31 = true ∧ u.fld TCK_REQ 9 0 = v.toNat % 1024 ∧ u.fld TCK_REQ 22 16 = v.toNat / 2 ^ 16 % 128 ∧
      (∀ off, off ≠ TCK_REQ → u.reg off = s.reg off) ∧
      u.ww = s.ww ∧ u.gate = s.gate ∧ u.hdm = s.hdm ∧ u.tiles = s.tiles)

/-- R7, R9 to R12, R51, R443, R446, R460, R462: the host's reads and writes of BAR0, of BAR2 and of configuration space. A
32-bit read of the LO register of a TCK pair captures its HI register. -/
def Obligations.HostRegisterAccesses : Prop :=
  ∀ s : State,
    (∀ off size, Completes (.tckLoRead ⟨.config, off, size⟩) s fun u =>
      u.out = s.out ++ [.barData (((toLe 4 (s.cfgRead (off / 4 * 4)).toNat).drop (off % 4)).take size) false] ∧
      u.regs = s.regs ∧ u.port = s.port) ∧
    (∀ v : Word, v.getLsbD 2 = s.port.busMaster → Completes (.registerWrite ⟨.config, 4⟩ 4 v) s fun u =>
      u.port.memSpace = v.getLsbD 1 ∧ u.port.busMaster = v.getLsbD 2 ∧ u.port.per = v.getLsbD 6 ∧
      u.port.serr = v.getLsbD 8 ∧ u.regs = s.regs) ∧
    (s.boot.safe = true → ∀ off size v,
      (∀ sp, sp ≠ .config → Completes (.tckLoRead ⟨sp, off, size⟩) s fun u =>
        s.SendsBar u (List.replicate size 0xFF) ∧ u.regs = s.regs) ∧
      exec (.registerWrite ⟨.bar0, off⟩ size v) s = .next (s.seal s) ∧
      exec (.registerWrite ⟨.bar2, off⟩ size v) s = .next (s.seal s)) ∧
    (s.Live → s.port.barClosed = true → ∀ sp off size v, sp ≠ .config →
      (Completes (.tckLoRead ⟨sp, off, size⟩) s fun u =>
        u.out = s.out ++ [.barUnsupported] ∧ AerErr.unsupportedRequest ∈ u.port.aer ∧ u.regs = s.regs) ∧
      Completes (.registerWrite ⟨sp, off⟩ size v) s fun u =>
        AerErr.unsupportedRequest ∈ u.port.aer ∧ u.regs = s.regs) ∧
    (s.Live → s.port.barClosed = false → ∀ off,
      (∀ size v, ¬((size = 4 ∨ size = 8) ∧ off % size = 0) →
        (Completes (.tckLoRead ⟨.bar0, off, size⟩) s fun u =>
          u.out = s.out ++ [.barAbort] ∧ AerErr.completerAbort ∈ u.port.aer ∧ u.regs = s.regs) ∧
        Completes (.registerWrite ⟨.bar0, off⟩ size v) s fun u => AerErr.completerAbort ∈ u.port.aer ∧ u.regs = s.regs) ∧
      (off % 8 = 0 → exec (.tckLoRead ⟨.bar0, off, 8⟩) s = .next
        ((s.emit (.barData (toLe 4 (s.regRead off).toNat ++ toLe 4 (s.regRead (off + 4)).toNat) false)).seal s)) ∧
      (off % 4 = 0 → isTckPair off = false → exec (.tckLoRead ⟨.bar0, off, 4⟩) s = .next
        ((s.emit (.barData (toLe 4 (s.regRead off).toNat) false)).seal s)) ∧
      (isTckPair off = true → off % 8 = 0 → Completes (.tckLoRead ⟨.bar0, off, 4⟩) s fun u =>
        u.out = s.out ++ [.barData (toLe 4 (s.regRead off).toNat) false] ∧
        sfind? u.ww.capture off = some (s.regRead (off + 4))) ∧
      (∀ hi, isTckPair off = true → off % 8 = 0 → sfind? s.ww.capture off = some hi →
        Completes (.tckLoRead ⟨.bar0, off + 4, 4⟩) s fun u =>
          u.out = s.out ++ [.barData (toLe 4 hi.toNat) false] ∧ sfind? u.ww.capture off = none) ∧
      (∀ size, let part := (s.boot.waybill.drop off).take size
        Completes (.tckLoRead ⟨.bar2, off, size⟩) s fun u =>
          s.SendsBar u (part ++ List.replicate (size - part.length) 0) ∧ u.boot = s.boot) ∧
      (∀ size v, exec (.registerWrite ⟨.bar2, off⟩ size v) s = .next (s.seal s)) ∧
      (∀ v : Word, Completes (.registerWrite ⟨.bar0, GLB_SCRATCH⟩ 4 v) s fun u =>
        u.reg GLB_SCRATCH = v.setWidth 32 ∧ (∀ o, o ≠ GLB_SCRATCH → u.reg o = s.reg o) ∧
        u.hdm = s.hdm ∧ u.tiles = s.tiles) ∧
      (off % 8 = 0 → ∀ v : Word, exec (.registerWrite ⟨.bar0, off⟩ 8 v) s = .next
        (((s.regWrite off (v.setWidth 32)).regWrite (off + 4) ((v >>> 32).setWidth 32)).seal s)) ∧
      (off % 4 = 0 → ∀ v : Word, exec (.registerWrite ⟨.bar0, off⟩ 4 v) s =
        .next ((s.regWrite off (v.setWidth 32)).seal s)))

/-! ### Resets and bring-up -/

/-- R5, R6, R325, R391, R467, R469, R612, R613, R629 to R632: what each reset clears and keeps, the loss of a rail and the
host's link. The report of the built-in tests is that of a device whose tiles and lockkeepers are good and whose disabled
ways stay within R389's limit. -/
def Obligations.ResetsAndRails : Prop :=
  ∀ (s : State) (b : BistReport),
    (b.fuseParityOk = false → Completes (.coldReset b) s fun u =>
      u.boot.step = 1 ∧ u.boot.failed = some 2 ∧ u.boot.safe = false ∧ u.hdm = {} ∧ u.host = s.host) ∧
    (b.fuseParityOk = true → b.romOk = true → b.tiles = [] → b.lkps = [] →
      let within (l : List (Bool × Nat × Nat)) : Prop := ∀ w ∈ b.ways,
        (w.1 = true ∨ w.2.1 < 32) ∧ (l.filter fun x => x.1 == w.1 && x.2.1 == w.2.1).length ≤ 4
      let cleared (u : State) : Prop :=
        u.boot.safe = false ∧ u.boot.failed = none ∧ u.flights = [] ∧ u.contexts = [] ∧ u.waits = [] ∧ u.canals = [] ∧
        u.tickets = [] ∧ u.musters = [] ∧ u.gate = {} ∧ u.ww = {} ∧ u.basin.lines = [] ∧ u.basin.copies = [] ∧
        u.boot.fwReady = false ∧ u.boot.wayValid = false ∧ u.fld FUS_REPAIR 15 0 = min b.rows 0xFFFF ∧
        u.fld FUS_REPAIR 31 16 = min b.unrepairable 0xFFFF ∧ u.host = s.host ∧
        ∃ k < 24, (u.lk k).st = .active ∧ ∀ j < k, (u.lk j).st = .retired
      (within b.ways → 20 ≤ ((List.range 24).filter s.fuses.lkpGood.contains).length → Completes (.coldReset b) s fun u =>
        cleared u ∧ u.boot.step = 5 ∧ u.tiles = [] ∧ u.reaches = [] ∧ u.hdm = {} ∧ u.stk = [] ∧ u.port = {} ∧
        u.basin.disabled = b.ways ∧ u.boot.fwMin = max s.boot.fwMin s.fuses.fwMin ∧
        ∀ off, off ≠ FUS_REPAIR → u.reg off = regReset s.fuses off) ∧
      (s.Live → within (s.basin.disabled ++ b.ways) → 20 ≤ ((List.range 24).filter s.fuses.lkpGood.contains).length →
        (∀ e ∈ s.lks, e.2.st ≠ .retired) → (s.tiles.map Prod.fst).Nodup → (s.reaches.map Prod.fst).Nodup →
        (Completes (.warmReset b) s fun u =>
          cleared u ∧ u.boot.step = 5 ∧ u.hdm = s.hdm ∧ u.boot.store = s.boot.store ∧ u.port = {} ∧
          u.basin.moor = min s.basin.moor (16 - u.maxDisabled) ∧ (∀ p, (u.reach p).tileMap = (s.reach p).tileMap) ∧
          ∀ t, ((u.tile t).st = .retired ↔ (s.tile t).st = .retired) ∧ (u.tile t).service = (s.tile t).service) ∧
        ∀ clr, Completes (.cxlReset clr b) s fun u =>
          cleared u ∧ u.boot.step = (if s.port.linkUp then 6 else 5) ∧ u.hdm = (if clr then {} else s.hdm) ∧
          u.port = { linkUp := s.port.linkUp } ∧ u.reg GLB_SCRATCH = s.reg GLB_SCRATCH ∧
          u.basin.shr = (if clr then [] else s.basin.shr))) ∧
    (s.Live → s.ww.joined = false → s.port.outstanding = [] → Completes .flr s fun u =>
      u.contexts = [] ∧ u.waits = [] ∧ u.flights = [] ∧ u.port.flrBusy = false ∧ u.port.busMaster = false ∧
      u.port.memSpace = false ∧ u.xlt = {} ∧ u.reg GLB_SCRATCH = s.reg GLB_SCRATCH) ∧
    (s.Live → s.ww.joined = true → s.boundSlots ≠ [] → Completes .flr s fun u =>
      u.port.flrBusy = true ∧ u.port.busMaster = false ∧ (∀ r ∈ u.port.outstanding, r.user = .discard) ∧
      u.port.waitingRd = []) ∧
    (∀ rail ≤ 2, s.Live → s.railInService rail = true → Completes (.powerGoodLoss rail) s fun u =>
      u.boot.safe = true ∧ u.pins.faultOut = true ∧ u.pins.pgCore = (s.pins.pgCore && rail != 0) ∧
      u.pins.pgMem = (s.pins.pgMem && rail != 1) ∧ u.pins.pgLink = (s.pins.pgLink && rail != 2) ∧
      ∀ t, (u.tile t).running = false) ∧
    (∀ rail ≤ 2, s.railInService rail = false →
      exec (.powerGoodLoss rail) s = .next (({ s with pins := s.pins.drop rail } : State).seal s)) ∧
    (s.Live → s.boot.failed = none → s.boot.step = 5 → s.boot.fwReady = false → s.boot.fwSize = 0 →
      exec .hostLinkUp s = .next (({ s with port := { s.port with linkUp := true }
                                            boot := { s.boot with step := 6 } } : State).seal s)) ∧
    (s.Live → s.boot.step = 11 →
      exec .hostLinkUp s = .next (({ s with port := { s.port with linkUp := true } } : State).seal s))

/-- R613: a step that does not begin with COLD_RESET leaves no safe state. -/
def Obligations.OnlyColdResetLeavesSafeState : Prop :=
  ∀ s t : State, s.boot.safe = true → (∀ b, s.pending.head? ≠ some (.coldReset b)) → step s = .next t →
    t.boot.safe = true

/-- R3, R4, R12, R45, R46, R50, R278, R279, R322, R323, R325, R340, R350, R631, R633 to R636, R642, R645, R653: training, discovery,
the firmware image and roles. -/
def Obligations.BringUpCommands : Prop :=
  ∀ s : State, s.Live →
    (∀ (rs : List StackReport) (d e : Nat), s.boot.step = 7 → s.boot.failed = none → s.pins.pgMem = true →
      popKnown d e = true → (∀ r ∈ rs, r.present = true → r.dies = d ∧ r.density = e ∧ r.trains = true ∧
        r.initOk = true ∧ r.pprFail = [] ∧ r.margins = []) →
      (∃ n < 32, s.stackTrains n = true ∧ (reportOf rs n).isSome = true) →
      Completes (.stackTraining rs) s fun u =>
        u.hdm = {} ∧ u.boot.capacity = popGib d e * 2 ^ 30 ∧ 8 ≤ u.boot.step ∧
        (∀ n < 32, s.stackTrains n = false → (s.stack n).st ≠ .selfRefresh → u.stack n = s.stack n) ∧
        ∀ n < 32, s.stackTrains n = true →
          ((reportOf rs n).isSome = true → (u.stack n).st = .active ∧ (u.stack n).height = d / 4 ∧
            (u.stack n).density = e ∧ (u.stack n).fail = 0) ∧
          ((reportOf rs n).isSome = false → (u.stack n).st = .failed ∧ (u.stack n).fail = 1)) ∧
    (∀ p r, s.trains p = true → r.failAt = none → s.cabledRight p r = true → r.flight ≤ 50 * 256 →
      (s.ww.joined = false → Completes (.canalTraining p r) s fun u =>
        (u.canal p).st = .active ∧ (u.canal p).peerDev = r.peerDev ∧ (u.canal p).peerPort = r.peerPort ∧
        (u.canal p).nextSeq = 0 ∧ (u.canal p).expected = 0 ∧ (u.canal p).replay = []) ∧
      (s.ww.joined = true → s.enterOk r.enterAt = true → Completes (.canalTraining p r) s fun u =>
        (u.canal p).enterAt = some r.enterAt ∧ (u.canal p).st = (s.canal p).st ∧ (u.canal p).peerDev = r.peerDev)) ∧
    (∀ p k r, s.trains p = true → (s.canal p).st = .training → 1 ≤ k → k ≤ 8 →
      Completes (.trainingStepTimeout p ⟨k, r⟩) s fun u =>
        (u.canal p).st = (if k = 5 ∨ k = 6 then .retired else .retrain) ∧ (u.canal p).fail = k ∧
        u.bit (cnlReg p 0x14) 4 = true) ∧
    (∀ d, s.ww.joined = false → 9 ≤ s.boot.step → s.bit TCK_CTL 0 = false →
      Completes (.waterwayDiscovery d) s fun u =>
        u.ww.joined = true ∧ u.ww.index = 0 ∧ u.ww.lm = some 0 ∧ u.ww.shape = (1, 1, 1, 1)) ∧
    (∀ d e sl n len lead lm, s.ww.joined = false → 9 ≤ s.boot.step → s.bit TCK_CTL 0 = true →
      d.running = some (e, sl, n, len, lead, lm) → Completes (.waterwayDiscovery d) s fun u =>
        let c := u.ww.coord
        let e' := u.ww.shape
        u.ww.joined = true ∧ u.ww.index = c.1 + 8 * c.2.1 + 64 * c.2.2.1 + 256 * c.2.2.2 ∧
        (∀ v ∈ s.variantsSeen d, let m := largestShape v
          e'.1 ≤ m.1 ∧ e'.2.1 ≤ m.2.1 ∧ e'.2.2.1 ≤ m.2.2.1 ∧ e'.2.2.2 ≤ m.2.2.2) ∧
        c = s.joinCoord d ∧ e' = s.joinShape d ∧ u.ww.lm = some lm ∧
        u.ww.epoch = e ∧ u.ww.slip = sl ∧ u.ww.pound = n ∧ u.ww.time = e + n * (100 * len) + sl) ∧
    (s.boot.step = 9 → s.boot.failed = none → s.ww.joined = false → Completes .discoveryTimeout s fun u =>
      u.boot.step = 11 ∧ u.boot.wayValid = true ∧ u.ww = s.ww) ∧
    (s.ww.joined = false → s.boot.wayValid = true → s.counted ≠ s.boot.published →
      Completes .waybillUnjoinedUpdate s fun u =>
        u.boot.generation = s.boot.generation + 1 ∧ u.boot.published = s.counted ∧
        u.boot.waybill = s.wayBytes (s.boot.generation + 1)) ∧
    (s.ww.joined = true ∨ s.counted = s.boot.published → exec .waybillUnjoinedUpdate s = .next (s.seal s)) ∧
    (∀ v, (s.bit LKP_FW_CTL 31 = true → exec (.firmwareBootLoad v) s = .next (s.seal s) ∧
        exec (.firmwareUpdate v) s = .next (s.seal s)) ∧
      (s.bit LKP_FW_CTL 31 = false → s.boot.update = none →
        (Completes (.firmwareBootLoad v) s fun u =>
          u.boot = { s.boot with reading := some 0 } ∧ u.bit LKP_FW_CTL 31 = true ∧ u.bit LKP_FW_CTL 8 = false) ∧
        Completes (.firmwareUpdate v) s fun u =>
          u.boot = { s.boot with reading := some 1 } ∧ u.bit LKP_FW_CTL 31 = true ∧ u.bit LKP_FW_CTL 8 = true) ∧
      (s.bit LKP_FW_CTL 31 = false → s.boot.update.isSome = true → Completes (.firmwareUpdate v) s fun u =>
        u.boot = s.boot ∧ u.bit LKP_FW_CTL 31 = false ∧ u.fld LKP_FW_CTL 3 0 = 9)) ∧
    (∀ mode ok, s.boot.reading = some mode → let len := s.fld LKP_FW_LEN 22 0
      let code := s.fwResult (s.fwRead len) ok len (mode == 1)
      Completes (.firmwareCheckDone ok) s fun u =>
        u.fld LKP_FW_CTL 3 0 = code ∧ u.bit LKP_FW_CTL 31 = false ∧ (ok = false → code = 1) ∧
        (code ≠ 0 → u.boot.reading = none ∧ u.lks = s.lks ∧ u.boot.fwReady = s.boot.fwReady) ∧
        (code = 0 → mode = 1 → u.boot.update = some (0, 0) ∧ u.boot.updDone = 0) ∧
        (code = 0 → mode = 0 → s.boot.step = 6 → s.boot.failed = none → 20 ≤ s.goodLks.length →
          u.boot.fwReady = true ∧ 7 ≤ u.boot.step ∧
          ∀ r < 20, ∃ k ∈ s.goodLks, (u.lk k).st = .active ∧ (u.lk k).role = some r)) ∧
    (∀ r, s.boot.update = some (r, 1) →
      exec .roleLoadDone s = .next (({ s with boot := { s.boot with update := some (r, 2) } } : State).seal s)) ∧
    (∀ r < 20, Completes (.roleMigrate r) s fun u =>
      u.bit (LKP_ROLE + 4 * r) 31 = true ∧ r ∈ u.boot.migrating ∧ u.lks = s.lks) ∧
    (∀ k, (freeSlot s.flt.log).isSome = true → Completes (.lkWatchdogExpiry k) s fun u => u.Logged 0x61 6 k ∧ u.lks = s.lks)

/-! ### Canals -/

/-- R23, R253 to R256, R274 to R277, R281, R282, R285, R299: flits that arrive on a link. One with an uncorrectable
codeword or a CRC that fails only sets CNL_ERR; a sequenced one is accepted in order, and the first that is not asks for
a resend; its acknowledgement acts whatever its type. Time follows the upstream port by at most 50 ppm. -/
def Obligations.FlitsArrive : Prop :=
  ∀ (s : State) (p : Nat) (x : RxFlit), s.Live → (s.canal p).st = .active →
    let c := s.canal p
    let all (P : Instr → Prop) : Prop := P (.dataFlitReceive p x.errs x.bytes) ∧ P (.lackReceive p x.errs x.bytes) ∧
      P (.idleFlitReceive p x.errs x.bytes) ∧ P (.absentFlitReceive p x.errs x.bytes) ∧
      (∀ e0 e1 h sp crc bs, gateRx e0 e1 h sp crc bs = x → P (.gateFlitReceive p e0 e1 h sp crc bs)) ∧
      (∀ t4, P (.timeFlitReceive p x.errs x.bytes t4)) ∧ ∀ r l, P (.trainFlitReceive p x.errs x.bytes r l)
    (x.read = .uncorrectable → all fun i => exec i s = .next ((s.setBit (cnlReg p 0x14) 0 true).seal s)) ∧
    (x.read = .badCrc → all fun i => exec i s = .next ((s.setBit (cnlReg p 0x14) 1 true).seal s)) ∧
    (∀ f i, x.read = .flit f → f.ackv = true → c.replay.findIdx? (fun g => g.seq == f.ack) = some i → f.typ = FLIT_IDLE →
      (f.nak = false → Completes (.idleFlitReceive p x.errs x.bytes) s fun u =>
        (u.canal p).replay = c.replay.drop (i + 1) ∧ (u.canal p).resends = 0) ∧
      (f.nak = true → i + 1 < c.replay.length → Completes (.idleFlitReceive p x.errs x.bytes) s fun u =>
        (u.canal p).replay = c.replay.drop (i + 1) ∧ (u.canal p).resend = c.replay.length - (i + 1) ∧
        (u.canal p).resendAt = 0 ∧ (u.canal p).resends = 1)) ∧
    (∀ f, x.read = .flit f → f.ackv = false →
      let next (u : State) : Prop := (u.canal p).expected = (c.expected + 1) % 4096 ∧ (u.canal p).nakSent = false ∧
        (u.canal p).nakDue = false
      (f.typ = FLIT_IDLE → exec (.idleFlitReceive p x.errs x.bytes) s = .next (s.seal s)) ∧
      (f.typ = FLIT_SCHED ∨ f.typ = FLIT_FREIGHT →
        (f.seq ≠ c.expected → c.nakSent = false → exec (.dataFlitReceive p x.errs x.bytes) s =
          .next ((s.setCanal p { c with nakSent := true, nakDue := true }).seal s)) ∧
        (f.seq ≠ c.expected → c.nakSent = true → exec (.dataFlitReceive p x.errs x.bytes) s = .next (s.seal s)) ∧
        (f.seq = c.expected → f.dst ≠ s.ww.index → f.typ = FLIT_FREIGHT → 256 ≤ s.freightOf p →
          exec (.dataFlitReceive p x.errs x.bytes) s = .next (s.seal s)) ∧
        (f.seq = c.expected → f.dst ≠ s.ww.index → f.typ = FLIT_SCHED ∨ s.freightOf p < 256 →
          Completes (.dataFlitReceive p x.errs x.bytes) s fun u =>
            next u ∧ u.transit = s.transit ++ [{ port := p, flit := f }] ∧ u.tiles = s.tiles ∧ u.hdm = s.hdm) ∧
        (∀ y t, f.seq = c.expected → f.dst = s.ww.index → f.first = false → f.last = false →
          isStream f = false → sfind? s.remote (remoteKey f) = some y → y.denied = false → headAdd y.head = false →
          s.physTile (flitTile f) = some t → (s.tile t).inject = none → 8 * (flitWord f + flitLen f) ≤ 0x180000 →
          flitLen f ≤ 30 → f.payload.length = 240 → Completes (.dataFlitReceive p x.errs x.bytes) s fun u =>
            next u ∧
            (∀ i < 8 * flitLen f, some ((u.tile t).hold.byte (8 * flitWord f + i)) = f.payload[i]?) ∧
            (∀ a, a < 8 * flitWord f ∨ 8 * (flitWord f + flitLen f) ≤ a →
              (u.tile t).hold.byte a = (s.tile t).hold.byte a) ∧
            u.remote = s.remote)) ∧
      (f.typ = FLIT_LACK → f.seq = c.expected →
        (f.dst ≠ s.ww.index → Completes (.lackReceive p x.errs x.bytes) s fun u =>
          next u ∧ u.transit = s.transit ++ [{ port := p, flit := f }] ∧ u.tiles = s.tiles) ∧
        (∀ w t id b, f.dst = s.ww.index → lackWords f = [w] → bitOf w 8 = false →
          sfind? s.tickets (w % 256) = some (t, id) → t < 272 →
          (s.tile t).barges.find? (fun b => b.id == id) = some b → (descOf b.desc).dstKind = 5 →
          (∀ n, (s.tile t).lc n ≤ 0xFFFF) → Completes (.lackReceive p x.errs x.bytes) s fun u =>
            next u ∧ sfind? u.tickets (w % 256) = none ∧
            (u.tile t).barges = (s.tile t).barges.filter (fun b => b.id ≠ id) ∧
            ∀ n, (u.tile t).lc n = min 0xFFFF ((s.tile t).lc n + if n = b.lc then 1 else 0))) ∧
      (f.typ = FLIT_TIME → ∀ t4,
        (c.upstream = false ∨ s.ww.joined = false → Completes (.timeFlitReceive p x.errs x.bytes t4) s fun u =>
          (u.canal p).echo = (stampAt f 0, t4) ∧ u.ww = s.ww ∧
          (¬(stampAt f 0x0C = 0 ∧ stampAt f 0x18 = 0) →
            (u.canal p).flights =
              ((stampDiff (stampAt f 0x18) (stampAt f 0x0C) + stampDiff t4 (stampAt f 0)) / 2).toNat ::
                c.flights.take 63)) ∧
        (c.upstream = true → s.ww.joined = true → Completes (.timeFlitReceive p x.errs x.bytes t4) s fun u =>
          (u.canal p).echo = (stampAt f 0, t4) ∧ u.ww.pound = s.ww.pound ∧ u.ww.lockTime = s.ww.lockTime ∧
          u.ww.holdover = decide (4 ≤ s.ww.lmAbsent) ∧ u.ww.syncAt = u.stamp ∧ s.stamp ≤ u.stamp ∧
          ∃ d : Int, 1000000 * d.natAbs ≤ 50 * (if s.ww.syncAt = 0 then 0 else t4 - s.ww.syncAt) ∧
            u.stamp = max s.stamp (min ((t4 : Int) + d).toNat (s.nextLock * 2 ^ 16)))) ∧
      (f.typ = FLIT_TRAIN →
        exec (.trainFlitReceive p x.errs x.bytes none none) s = .next (s.seal s) ∧
        (∀ q, q < s.fuses.variant.canals → (s.canal q).st ≠ .retired →
          Completes (.trainFlitReceive p x.errs x.bytes (some q) none) s fun u =>
            (u.canal q).st = .retired ∧ u.bit (cnlReg q 0x00) 3 = false) ∧
        (∀ q ack i, (s.canal q).st ≠ .active → (s.canal q).replay.findIdx? (fun g => g.seq == ack) = some i →
          Completes (.trainFlitReceive p x.errs x.bytes none (some (q, ack))) s fun u =>
            (u.canal q).replay = [] ∧
            u.transit = ((s.canal q).replay.drop (i + 1)).map (fun g => { port := OWN, late := true, flit := g }) ++
              s.transit)) ∧
      (f.typ = FLIT_ABSENT → Completes (.absentFlitReceive p x.errs x.bytes) s fun u =>
        (u.canal p).st = .absent ∧ u.bit (cnlReg p 0x14) 5 = true))

/-- R260, R261, R264, R275 to R281, R285: what leaves in a slot, resends, and the states of a link. -/
def Obligations.LinksAndSlots : Prop :=
  ∀ (s : State) (p : Nat), s.Live →
    ((s.canal p).st = .active → s.ww.joined = true → s.launchAll = s → s.gate.cut = false → let c := s.canal p
      let one (u : State) (f : Flit) : Prop := ∃ crc fec, u.out = s.out ++ [.flit p (f.bytes crc) fec]
      let plain (u : State) (f : Flit) : Prop := ∃ fec, u.out = s.out ++ [.flit p ((c.acks f).bytes false) fec]
      (∀ k, k < s.gridSlots → k % 64 = 16 → Completes (.canalSlot p k) s fun u =>
        plain u (timeFlit s.ww.index c.peerDev (s.slotStamp k) c.echo.1 c.echo.2) ∧ u.transit = s.transit ∧
        u.canal p = { c with nakDue := false }) ∧
      (∀ k, s.gridSlots ≤ k → exec (.canalSlot p k) s = .next (s.seal s)) ∧
      (∀ k, k < s.gridSlots → k % 32 = 0 → c.resend = 0 →
        (∀ q ∈ s.transit, s.leavesOn p q.flit = true → q.flit.typ = FLIT_SCHED ∧ q.late = false ∧ c.missed = []) →
        Completes (.canalSlot p k) s fun u =>
          plain u { typ := FLIT_IDLE, dst := c.peerDev, src := s.ww.index } ∧ u.transit = s.transit ∧
          u.canal p = { c with nakDue := false }) ∧
      (∀ k f, k < s.gridSlots → k % 32 = 0 → 0 < c.resend → c.replay[c.resendAt]? = some f →
        Completes (.canalSlot p k) s fun u =>
          one u f ∧ (u.canal p).resend = c.resend - 1 ∧ (u.canal p).resendAt = c.resendAt + 1 ∧
          (u.canal p).replay = c.replay) ∧
      (∀ k q qs, k < s.gridSlots → k % 32 = 0 → c.resend = 0 → c.replay.length < 256 → s.transit = q :: qs →
        q.flit.typ = FLIT_SCHED → q.late = true → s.route q.flit = some (p, false) →
        let f : Flit := { c.acks q.flit with seq := c.nextSeq }
        Completes (.canalSlot p k) s fun u =>
          one u f ∧ (u.canal p).replay = c.replay ++ [f] ∧ (u.canal p).nextSeq = (c.nextSeq + 1) % 4096 ∧
          u.transit = qs)) ∧
    ((s.canal p).st = .active → s.ww.joined = false → ∀ k, k % 64 ≠ 16 → Completes (.canalSlot p k) s fun u =>
      (∃ fec, u.out = s.out ++ [.flit p (((s.canal p).acks
        { typ := FLIT_IDLE, dst := (s.canal p).peerDev, src := s.ww.index }).bytes false) fec]) ∧
      u.transit = s.transit) ∧
    ((s.canal p).st = .active → (s.canal p).replay ≠ [] → (s.canal p).resends < 8 →
      (Completes (.replayTimerExpiry p) s fun u =>
        (u.canal p).resend = (s.canal p).replay.length ∧ (u.canal p).resendAt = 0 ∧
        (u.canal p).resends = (s.canal p).resends + 1 ∧ (u.canal p).st = .active ∧ u.bit (cnlReg p 0x14) 2 = true) ∧
      ∀ n, (s.canal p).replay.findIdx? (fun g => g.seq == n) = none → Completes (.linkNakReceive p n) s fun u =>
        (u.canal p).resend = (s.canal p).replay.length ∧ (u.canal p).resends = (s.canal p).resends + 1) ∧
    ((s.canal p).st = .active → (s.canal p).replay ≠ [] → 8 ≤ (s.canal p).resends →
      Completes (.replayTimerExpiry p) s fun u => (u.canal p).st = .retrain ∧ u.bit (cnlReg p 0x14) 3 = true) ∧
    ((s.canal p).st = .active →
      let lost (i : Instr) : Prop := Completes i s fun u =>
        (u.canal p).st = .retrain ∧
        (u.linkGroup (s.canal p).peerDev ≠ [] → (u.canal p).replay = (s.canal p).replay) ∧
        (u.linkGroup (s.canal p).peerDev = [] → (s.canal p).peerValid = true →
          (u.canal p).replay = [] ∧ ∀ f ∈ (s.canal p).replay, { port := OWN, late := true, flit := f } ∈ u.transit)
      lost (.linkSilenceTimeout p) ∧ lost (.lossOfCodewordAlignment p)) ∧
    ((s.canal p).st ≠ .active → exec (.linkSilenceTimeout p) s = .next (s.seal s) ∧
      exec (.lossOfCodewordAlignment p) s = .next (s.seal s) ∧ exec (.replayTimerExpiry p) s = .next (s.seal s) ∧
      (∀ n, exec (.linkNakReceive p n) s = .next (s.seal s)) ∧ ∀ k, exec (.canalSlot p k) s = .next (s.seal s)) ∧
    ((s.canal p).st = .absent → Completes (.peerSignalReturn p) s fun u => (u.canal p).st = .training) ∧
    (p < s.fuses.variant.canals →
      (Completes (.linkRetire p) s fun u => (u.canal p).st = .retired ∧ u.bit (cnlReg p 0x00) 3 = false) ∧
      ((s.canal p).st = .active → Completes (.linkRetrain p) s fun u =>
        (u.canal p).st = .retrain ∧ u.bit (cnlReg p 0x00) 2 = true) ∧
      ((s.canal p).st = .retired → Completes (.linkRetrain p) s fun u => (u.canal p).st = .training) ∧
      ((s.canal p).st = .disabled → 8 ≤ s.boot.step → s.pins.pgLink = true → Completes (.portEnable p) s fun u =>
        (u.canal p).st = .training ∧ u.bit (cnlReg p 0x00) 0 = true) ∧
      (s.boot.step < 8 → exec (.portEnable p) s = .next ((s.setBit (cnlReg p 0x00) 0 true).seal s)) ∧
      exec (.cnlInjFec p) s = .next ((s.setBit (cnlReg p 0x18) 1 true).seal s) ∧
      exec (.cnlInjCrc p) s = .next ((s.setBit (cnlReg p 0x18) 0 true).seal s))

/-! ### Ring commands -/

/-- R489, R490, R493, R495 to R500, R505 to R507: NOP, fences, COPY and FILL. A command acts only as the next descriptor
of a ring that is served; its end passes the ring on, and writes a record where one is wanted. -/
def Obligations.RingDataCommands : Prop :=
  ∀ (s : State) (c r : Nat) (h : DescHdr), s.Live →
    (¬s.Takes c r h → exec (.ringNop c r h) s = .next (s.seal s) ∧
      (∀ f o v, exec (.fenceSignal c r h f o v) s = .next (s.seal s)) ∧
      ∀ d o n p, exec (.fill c r h d o n p) s = .next (s.seal s)) ∧
    (s.Takes c r h →
      (h.flags = 0 → Completes (.ringNop c r h) s fun u =>
        s.Passed u c r ∧ u.waits = s.waits ∧ u.hdm = s.hdm ∧ u.host = s.host ∧ u.out = s.out) ∧
      (h.flags = 1 → s.CplOpen c → Completes (.ringNop c r h) s fun u => s.Posts u c r h.seq {}) ∧
      (4 ≤ h.flags → s.CplOpen c → Completes (.ringNop c r h) s fun u =>
        s.Posts u c r h.seq { status := 0x000A, detail := 5 }) ∧
      (∀ fence off value o g, h.flags = 0 → s.object c fence 6 true = (s, .inl o) → (o.va + off) % 8 = 0 →
        off + 8 ≤ o.len → s.ringXlate c o off 8 NEED_W true = (s, .inl [g]) → g.host = true →
        let w := s.fenceWord g
        (w < 2 ^ 63 → w < value % 2 ^ 63 → (s.ring c r).poison = 0 →
          Completes (.fenceSignal c r h fence off value) s fun u =>
            s.Passed u c r ∧ u.host.read g.pa 8 = toLe 8 (value % 2 ^ 63) ∧
            ∀ a, a < g.pa ∨ g.pa + 8 ≤ a → u.host.byte a = s.host.byte a) ∧
        (2 ^ 63 ≤ w ∨ value % 2 ^ 63 ≤ w → s.CplOpen c → Completes (.fenceSignal c r h fence off value) s fun u =>
          s.Posts u c r h.seq { status := 0x0103, result := w })) ∧
      (∀ fence off value us o g, h.flags = 0 → s.object c fence 1 false = (s, .inl o) → (o.va + off) % 8 = 0 →
        off + 8 ≤ o.len → s.ringXlate c o off 8 NEED_R false = (s, .inl [g]) →
        let t := s.seeFence g
        let w := t.fenceWord g
        (w < 2 ^ 63 → value ≤ w → Completes (.fenceWait c r h fence off value us) s fun u =>
          t.Passed u c r ∧ u.waits = t.waits) ∧
        (w < 2 ^ 63 → w < value → let q := t.watchFence g
          let x := waitOfCmd c r h (.fence g value (if us = 0 then 0 else t.ww.time + 1000 * us))
          exec (.fenceWait c r h fence off value us) s = .next (({ q.1 with
            waits := q.1.waits ++ [{ x with watch := q.2, uses := [(o.ctx, g.va, g.len)] }] } : State).seal s)) ∧
        (2 ^ 63 ≤ w → t.CplOpen c → Completes (.fenceWait c r h fence off value us) s fun u =>
          t.Posts u c r h.seq { status := 0x0102, result := w })) ∧
      (∀ src dst so d a b g k, h.flags = 0 → s.object c src 1 false = (s, .inl a) → s.object c dst 2 false = (s, .inl b) →
        so + 64 ≤ a.len → d + 64 ≤ b.len →
        (a.ctx ≠ b.ctx ∨ b.va + d + 64 ≤ a.va + so ∨ a.va + so + 64 ≤ b.va + d) →
        s.ringXlate c a so 64 NEED_R false = (s, .inl [g]) → s.ringXlate c b d 64 NEED_W true = (s, .inl [k]) →
        g.host = false → k.host = false → g.attr = 3 → k.attr = 3 → g.ce = false → k.ce = false → g.len = 64 →
        k.len = 64 → g.pa % 64 = 0 → k.pa % 64 = 0 → s.Backed g.pa → s.Backed k.pa → s.CleanLine g.pa →
        let busy := s.busyOf (segTouches [g] false ++ segTouches [k] true)
        (busy = [] → Completes (.copy c r h src dst so d 64) s fun u =>
          s.Passed u c r ∧ (∀ i < 64, u.hdm.byte (k.pa + i) = s.hdm.byte (g.pa + i)) ∧
          ∀ x, x < k.pa ∨ k.pa + 64 ≤ x → u.hdm.byte x = s.hdm.byte x) ∧
        (busy ≠ [] → Completes (.copy c r h src dst so d 64) s fun u =>
          u.waits = s.waits ++ [waitOfCmd c r h (.copy a.ctx b.ctx [g] [k] false)] ∧ u.hdm = s.hdm)) ∧
      (∀ dst d pattern b k, h.flags = 0 → s.object c dst 2 false = (s, .inl b) → d + 64 ≤ b.len →
        s.ringXlate c b d 64 NEED_W true = (s, .inl [k]) → k.host = false → k.attr = 3 → k.ce = false → k.len = 64 →
        k.pa % 64 = 0 → s.Backed k.pa → let busy := s.busyOf (segTouches [k] true)
        (busy = [] → Completes (.fill c r h dst d 64 pattern) s fun u =>
          s.Passed u c r ∧
          (∀ i < 64, u.hdm.byte (k.pa + i) = BitVec.ofNat 8 (pattern / 256 ^ ((d + i) % 8))) ∧
          ∀ x, x < k.pa ∨ k.pa + 64 ≤ x → u.hdm.byte x = s.hdm.byte x) ∧
        (busy ≠ [] → Completes (.fill c r h dst d 64 pattern) s fun u =>
          u.waits = s.waits ++ [waitOfCmd c r h (.fill b.ctx [k] pattern d 64)] ∧ u.hdm = s.hdm))) ∧
    (∀ w g value dl, s.waitOf c r = some w → w.kind = .fence g value dl → w.flags = 0 → r < 8 →
      (let t := s.reseeFence w g
       (t.fenceWord g < 2 ^ 63 → value ≤ t.fenceWord g → (t.finish w {}).resettle = t.finish w {} →
         Completes (.fenceWaitSatisfied c r) s fun u => w ∉ u.waits ∧ t.Passed u c r) ∧
       (t.fenceWord g < 2 ^ 63 → t.fenceWord g < value → t.resettle = t →
         exec (.fenceWaitSatisfied c r) s = .next (t.seal s))) ∧
      (dl = 0 → s.resettle = s → exec (.fenceWaitTimeout c r) s = .next (s.seal s)) ∧
      (let f : Fin := { status := 0x000B, result := s.fenceWord g }
       dl ≠ 0 → s.CplOpen c → (s.finish w f).resettle = s.finish w f →
        Completes (.fenceWaitTimeout c r) s fun u => w ∉ u.waits ∧ s.Posts u c r w.seq f))

/-- R378, R399, R487, R509, R515, R518, R521 to R525, R573 to R575: the commands of the driver's ring that keep the
translation mirror, the bias, the caches, the lease and the contexts, and the enable of translation. -/
def Obligations.DriverRingCommands : Prop :=
  ∀ (s : State) (c r : Nat) (h : DescHdr), s.Live →
    (exec .xltDisable s = .next ((({ s with xlt := { s.xlt with tlb := [], posted := [] } } : State).setBit XLT_CTL 0
      false).seal s)) ∧
    (s.xltOn = false → s.poolOk = true → s.xrSizeOk frRing = true → s.xrSizeOk hrRing = true →
      Completes .xltEnable s fun u => u.bit XLT_CTL 0 = true ∧ u.xlt.alloc = []) ∧
    (s.xltOn = false → s.poolOk = false → exec .xltEnable s = .next ((s.setBit XLT_ERR 5 true).seal s)) ∧
    (exec .xltInjTlbParity s = .next ((s.setBit XLT_INJ 0 true).seal s)) ∧
    (s.Takes c r h → h.flags = 0 →
      (c ≠ 0 → s.CplOpen c →
        let denied (i : Instr) : Prop := Completes i s fun u => s.Posts u c r h.seq { status := 0x0003 }
        (∀ ctx page count va e, ctx < 1024 → page ≤ 2 → badRange page count va = false →
          (s.entryOk page count e = true → denied (.mapRange c r h ctx page count va e)) ∧
          denied (.unmapRange c r h ctx page count va) ∧ ∀ sc ≤ 1, denied (.invalidateXlt c r h ctx sc page count va)) ∧
        (∀ b n dpa, b ≤ 1 → dpa % 4096 = 0 → dpa + 4096 * n ≤ s.hdmSize → denied (.setBias c r h b n dpa)) ∧
        (∀ w us, 100 ≤ w → w ≤ 2400 → 1 ≤ us → denied (.setPowerLease c r h w us)) ∧
        (∀ ctx < 1024, denied (.contextTeardown c r h ctx)) ∧
        ∀ op addr n, op ≤ 4 → addr % 64 = 0 → n % 64 = 0 → 0 < n → n ≤ 2 ^ 40 → denied (.maint c r h op SP_DPA 0 addr n)) ∧
      (c = 0 →
        (∀ ctx page count va e t, ctx < 1024 → page ≤ 2 → badRange page count va = false →
          s.entryOk page count e = true → (s.context ctx).st = .ready ∨ (s.context ctx).st = .running → s.xltOn = true →
          s.rangeClear ctx page count va = true → s.mapLeaves (s.ringUnit 0) ctx page va e count va = .inl t →
          entHost e = true ∨ entShr e = true ∨ t.hostHolds (entPa e) (count * pageSize page) = false →
          Completes (.mapRange c r h ctx page count va e) s fun u =>
            t.Passed u c r ∧ u.hdm = t.hdm ∧ u.basin = t.basin ∧ u.xlt.tlb = t.xlt.tlb ∧
            ∀ p ∈ u.xlt.posted, p.1 = ctx → p.2.1 < va + count * pageSize page → p.2.1 + pageSize p.2.2 ≤ va) ∧
        (∀ ctx page count va, ctx < 1024 → page ≤ 2 → badRange page count va = false →
          (s.context ctx).st = .ready ∨ (s.context ctx).st = .running →
          (s.xltOn = false → Completes (.unmapRange c r h ctx page count va) s fun u =>
            s.Passed u c r ∧ u.hdm = s.hdm ∧ u.xlt = s.xlt) ∧
          (∀ t, s.xltOn = true → s.rangeClear ctx page count va = true →
            s.unmapLeaves (s.ringUnit 0) ctx page count va = .inl t → Completes (.unmapRange c r h ctx page count va) s
              fun u => u.hdm = t.hdm ∧ ∀ e ∈ u.xlt.tlb, e.ctx = ctx → e.va < va + count * pageSize page →
                e.va + pageSize e.level ≤ va) ∧
          (s.xltOn = true → s.flights = [] → s.waits = [] →
            (Completes (.invalidateXlt c r h ctx 0 page count va) s fun u =>
              s.Passed u c r ∧ u.hdm = s.hdm ∧ ∀ e ∈ u.xlt.tlb, e ∈ s.xlt.tlb ∧
                (e.ctx = ctx → e.va < va + count * pageSize page → e.va + pageSize e.level ≤ va)) ∧
            Completes (.invalidateXlt c r h ctx 1 page count va) s fun u =>
              s.Passed u c r ∧ ∀ e ∈ u.xlt.tlb, e.va < 2 ^ 57 → e.ctx ≠ ctx)) ∧
        (∀ n dpa, dpa % 4096 = 0 → dpa + 4096 * n ≤ s.hdmSize →
          (Completes (.setBias c r h 1 n dpa) s fun u =>
            s.Passed u c r ∧ (∀ f, f ∈ u.basin.shr ↔ f ∈ s.basin.shr ∨ (dpa / 4096 ≤ f ∧ f < dpa / 4096 + n)) ∧
            u.hdm = s.hdm) ∧
          (s.hostHolds dpa (4096 * n) = false → Completes (.setBias c r h 0 n dpa) s fun u =>
            s.Passed u c r ∧ (∀ f, f ∈ u.basin.shr ↔ f ∈ s.basin.shr ∧ ¬(dpa / 4096 ≤ f ∧ f < dpa / 4096 + n)) ∧
            u.hdm = s.hdm)) ∧
        (∀ op space ctx addr n, op ≤ 4 → space ≤ 2 → ctx < 1024 → addr % 64 = 0 → n % 64 = 0 → 0 < n → n ≤ 2 ^ 40 →
          (s.basin.queue.length < 8 → exec (.maint c r h op space ctx addr n) s = .next (({ s with
            basin := { s.basin with queue := s.basin.queue ++ [{ op := op, space_ := space, ctx := ctx, addr := addr,
                                                                 len := n, ring := some (c, r) }] }
            waits := s.waits ++ [waitOfCmd c r h .maint] } : State).seal s)) ∧
          (8 ≤ s.basin.queue.length → exec (.maint c r h op space ctx addr n) s = .next (({ s with
            waits := s.waits ++ [waitOfCmd c r h (.maintFull op space ctx addr n)] } : State).seal s))) ∧
        (∀ w us, 100 ≤ w → w ≤ 2400 → 1 ≤ us → Completes (.setPowerLease c r h w us) s fun u =>
          s.Passed u c r ∧ u.power = { s.power with drv := some { watts := w, start := s.ww.time, dur := 1000 * us } } ∧
          u.bit IRQ_PEND 5 = true) ∧
        (∀ us, Completes (.setPowerLease c r h 0 us) s fun u =>
          s.Passed u c r ∧ u.power = { s.power with drv := none }) ∧
        (∀ ctx, 0 < ctx → ctx < 1024 → (s.context ctx).st = .ready →
          (s.flights = [] → s.waits = [] → s.objCount = 0 → Completes (.contextTeardown c r h ctx) s fun u =>
            s.Passed u c r ∧ u.context ctx = {} ∧ (∀ e ∈ u.xlt.tlb, e.ctx ≠ ctx) ∧ u.waits = []) ∧
          (∀ k f, sfind? s.flights k = some f → f.ctx = ctx → f.st = .running →
            Completes (.contextTeardown c r h ctx) s fun u =>
              (u.context ctx).st = .teardown ∧ waitOfCmd c r h (.teardown ctx 0 0 0) ∈ u.waits))))

/-! ### Flights -/

/-- R229 to R232, R237, R239, R243, R246, R297, R654: the commands that load, bind, run, moor, resume and halt a flight,
and the events that end their work. An order enters the gate contribution of the pound, or of the next pound after the
cut-off (R27). -/
def Obligations.FlightCommands : Prop :=
  ∀ (s : State) (c r : Nat) (h : DescHdr) (k : Nat), s.Live →
    (s.Takes c r h → h.flags = 0 → k < 256 → (s.flight k).ctx = c ∨ c = 0 → let f := s.flight k
      let waits (w : WaitKind) : List Wait := s.waits ++ [waitOfCmd c r h w]
      let ordered (t : State) (w : WaitKind) : Host.Outcome State Fault Refusal :=
        .next (({ t with waits := waits w } : State).seal s)
      (f.st = .running → f.binding = none → exec (.moorFlight c r h k) s =
        ordered (s.orderTag f.tag fun t => { t with moor := true }) (.moor k)) ∧
      (f.st = .moored ∨ f.st = .held → f.binding = none → exec (.resumeFlight c r h k) s =
        ordered (s.orderTag f.tag fun t => { t with resume := true }) (.resume k)) ∧
      (∀ rel ≤ 1, f.used = true → f.st ≠ .loaded → f.binding = none → exec (.haltFlight c r h k rel) s =
        ordered (s.orderTag f.tag fun t => { t with halt := true }) (.halt k (rel == 1))) ∧
      (f.st = .loaded → f.used = true → f.binding = none → Completes (.haltFlight c r h k 1) s fun u =>
        u.flight k = {} ∧ s.Passed u c r ∧ ∀ j, j ≠ k → u.flight j = s.flight j) ∧
      (f.st = .bound → f.binding = none →
        (∀ n, s.ww.pound + 1 < n → exec (.runFlight c r h k n) s =
          ordered (s.setFlight k { f with st := .armed, startPound := n, defers := 0, lockinDone := false,
                                          lockinOk := false }) (.run k)) ∧
        (∀ n ≤ s.ww.pound + 1, s.CplOpen c → Completes (.runFlight c r h k n) s fun u =>
          s.Posts u c r h.seq { status := 0x0201 } ∧ u.flights = s.flights)) ∧
      (f.used = true → f.st ≠ .running → s.CplOpen c → Completes (.moorFlight c r h k) s fun u =>
        s.Posts u c r h.seq { status := 0x0001 } ∧ u.flights = s.flights ∧ u.gate = s.gate) ∧
      (∀ tag fence off value o, tag < 256 → s.object c fence 6 false = (s, .inl o) → (o.va + off) % 8 = 0 →
        off + 8 ≤ o.len → f.st = .loaded → f.used = true → f.binding = none → f.standby = false →
        (∀ d, s.bindTime f.image = none → s.placement f.image = .inr (some d) → s.tagTaken k tag = false →
          s.bindSlot k f.image d = none → Completes (.bindFlight c r h k tag fence off value) s fun u =>
            u.waits = waits (.bind k) ∧ (u.flight k).binding = some false ∧ (u.flight k).tag = tag ∧
            (u.flight k).devSlot = d ∧ (u.flight k).st = .loaded ∧
            (u.flight k).fence = some { ctx := o.ctx, va := o.va + off, value := value }) ∧
        (s.bindTime f.image = none → s.placement f.image = .inr none → s.tagTaken k tag = false →
          Completes (.bindFlight c r h k tag fence off value) s fun u =>
            s.Passed u c r ∧ (u.flight k).standby = true ∧ (u.flight k).tag = tag ∧ u.tiles = s.tiles) ∧
        (∀ x, s.bindTime f.image = some x → s.CplOpen c → Completes (.bindFlight c r h k tag fence off value) s fun u =>
          s.Posts u c r h.seq { status := 0x0005, detail := x.detail } ∧ u.flights = s.flights))) ∧
    (∀ img off n o gs bs, s.Takes c r h → h.flags = 0 → off % 256 = 0 → s.object c img 1 false = (s, .inl o) →
      off + n ≤ o.len → s.ringXlate c o off n NEED_R false = (s, .inl gs) → s.readSegs o.ctx gs = (s, bs) →
      hdrSize (ramOf bs) = n → s.CplOpen c → Completes (.loadFlight c r h img off n) s fun u =>
        s.Passed u c r ∧ u.tiles = s.tiles ∧
        (∀ e, s.loadCheck (ramOf bs) n = some e →
          s.Posts u c r h.seq { status := 0x0005, detail := e.detail } ∧ u.flights = s.flights) ∧
        ∀ i, s.loadCheck (ramOf bs) n = none → s.freeFlight = some i →
          u.flight i = { st := .loaded, ctx := c, size := n, image := ramOf bs } ∧
          ∀ j, j ≠ i → u.flight j = s.flight j) ∧
    ((s.flight k).binding = some false → ((s.tilesOf k).map Prod.fst).Nodup → Completes (.bindImagesWritten k) s fun u =>
      u.flight k = { s.flight k with binding := some true, pos := 0 } ∧
      (∀ e ∈ s.tilesOf k, (s.tile e.1).inject = none → let m := (s.flight k).image
        (∀ n < tileImemCount m e.2, sget 0 (u.tile e.1).imem n =
          BitVec.ofNat 128 (m.num ((sectOf m SEC_INSTR).off + 16 * (tileImemFirst m e.2 + n)) 16)) ∧
        (u.tile e.1).buf0 = {} ∧ (u.tile e.1).buf1 = {}) ∧
      ∀ t, t ∉ (s.tilesOf k).map Prod.fst → u.tile t = s.tile t) ∧
    ((s.flight k).st = .armed → 64 ≤ (s.flight k).defers → (s.doDeferLimit k).resettle = s.doDeferLimit k →
      Completes (.startDeferLimit k) s fun u =>
        (u.flight k).st = .bound ∧ (u.flight k).defers = 0 ∧ ∀ w ∈ u.waits, w.kind ≠ .run k) ∧
    ((s.flight k).st ≠ .armed ∨ (s.flight k).defers < 64 → s.resettle = s →
      exec (.startDeferLimit k) s = .next (s.seal s)) ∧
    ((s.flight k).st = .held → 64 ≤ (s.flight k).barrierHeld → Completes (.barrierTimeout k) s fun u =>
      (u.flight k).fatal.isSome = true ∧ u.tiles = s.tiles) ∧
    ((s.flight k).st ≠ .held ∨ (s.flight k).barrierHeld < 64 → exec (.barrierTimeout k) s = .next (s.seal s))

/-- R305 to R311, R315: snapshots, their export and replicas, and restores. -/
def Obligations.SnapshotCommands : Prop :=
  ∀ (s : State) (k : Nat), s.Live → let f := s.flight k
    (∀ c r h, s.Takes c r h → h.flags = 0 → k < 256 → f.ctx = c ∨ c = 0 → f.binding = none →
      (∀ off, f.st = .bound ∨ f.st = .running ∨ f.st = .moored ∨ f.st = .done → exec (.snapshot c r h k 0 off) s =
        .next (({ s.orderTag f.tag (fun t => { t with snap := true }) with
                  waits := s.waits ++ [waitOfCmd c r h (.snap k none 0)] } : State).seal s)) ∧
      (∀ off n, f.st = .bound ∨ f.st = .moored ∨ f.st = .held ∨ f.st = .done →
        (∀ a, areaOf f n = some a → snapRefuse f.image f.devSlot a.bytes = none →
          Completes (.restore c r h k 0 0 off n) s fun u =>
            (f.overrun = false → (u.flight k).restoring = some (snapPound a.bytes, false)) ∧
            (f.overrun = true → (u.flight k).restoring = f.restoring ∧ (u.flight k).restoreDue = some a.bytes) ∧
            waitOfCmd c r h (.restore k (snapPound a.bytes)) ∈ u.waits) ∧
        (areaOf f n = none → s.CplOpen c → Completes (.restore c r h k 0 0 off n) s fun u =>
          s.Posts u c r h.seq { status := 0x000A, detail := 0x18, result := 2 ^ 64 - 1 } ∧ u.flights = s.flights))) ∧
    (∀ l m, f.snapping = some (l, m, false) → f.streams = [] →
      (f.replicaDue l = [] → exec (.snapshotCopyDone k) s =
        .next ((s.setFlight k { f with snapping := some (l, m, true) }).seal s)) ∧
      (∀ e n, f.replicaDue l = [e] → s.freeTicket = some n → s.ww.joined = true → Completes (.snapshotCopyDone k) s fun u =>
        u.flight k = { f with snapping := some (l, m, true) } ∧ sfind? u.tickets n = some (272, k) ∧
        s.transit <+: u.transit ∧ s.transit ≠ u.transit ∧ u.tiles = s.tiles)) ∧
    (∀ w hd ctx va a g, s.waits = [w] → w.kind = .snap k (some (hd, ctx, va)) 2 (some a) → w.flags = 0 →
      a.bytes.wf = true →
      s.ringXlate w.ctx { handle := hd, ctx := ctx, va := va, len := a.size } 0 a.size NEED_W true = (s, .inl [g]) →
      g.host = true → g.attr = 3 → g.ce = false → g.len = a.size → s.port.ioOpen = true →
      (s.doExportDone k).resettle = s.doExportDone k → Completes (.snapshotExportDone k) s fun u =>
        (∀ i < a.size, u.host.byte (g.pa + i) = a.bytes.byte i) ∧
        (∀ b, b < g.pa ∨ g.pa + a.size ≤ b → u.host.byte b = s.host.byte b) ∧ u.waits = [] ∧
        (u.ring w.ctx w.ring).count = ((s.ring w.ctx w.ring).count + 1) % 2 ^ 32) ∧
    (∀ src key x, s.remote.find? (fun e => decide (e.1 / 256 = src) && e.2.ended) = some (key, x) →
      let q := ramOf x.words
      (s.replicaFlight q = some k → snapRefuse f.image (q.num 6 2) q = none → f.fetching = false → Completes (.replicaStreamEnd src k) s fun u =>
        sfind? u.remote key = none ∧
        ∃ a ∈ (u.flight k).areas, a.pound = snapPound q ∧ a.replica = true ∧ a.complete = true ∧ a.size = snapBytes q) ∧
      (s.replicaFlight q ≠ some k → Completes (.replicaStreamEnd src k) s fun u =>
        u.flights = s.flights ∧ sfind? u.remote key = none)) ∧
    (∀ l, f.restoring = some (l, false) → (s.doRestoreDone k).resettle = s.doRestoreDone k →
      Completes (.restoreCopyDone k) s fun u =>
        (u.flight k).st = .moored ∧ (u.flight k).restoring = none ∧ (u.flight k).causes = [] ∧
        ∀ w ∈ u.waits, ∀ n, w.kind ≠ .restore k n) ∧
    (∀ l, f.restoring = some (l, true) → (s.doRestoreDone k).resettle = s.doRestoreDone k →
      Completes (.restoreCopyDone k) s fun u =>
        (u.flight k).restoring = none ∧ (u.flight k).st = f.st ∧ ∃ m ∈ u.musters, m.tag = f.tag ∧ m.barrier = 257)

/-! ### The service of rings -/

/-- R484, R485, R489, R491 to R494, R511, R512, R514: doorbells, descriptors, consumer words, and the moves of contexts
and rings. -/
def Obligations.RingService : Prop :=
  ∀ (s : State) (c r : Nat), s.Live → let x := s.ring c r
    (∀ p, s.ctxServed c = true → r < 8 → x.enable = true → x.mode = .polled → x.watch = false → x.tries = 0 →
      anyPoison (s.latest true x.db 8) = false → leNat (bytesOf (s.latest true x.db 8)) % 2 ^ 32 = p →
      let t := s.setRing c r { x with prod := p }
      (p = x.count → exec (.doorbellWake c r) s = .next (t.seal s) ∧ exec (.doorbellPoll c r) s = .next (t.seal s)) ∧
      (∀ d, p = (x.count + 1) % 2 ^ 32 → x.count < 2 ^ 32 → t.ringReady c r = true → t.readSlot c r = (t, some d) →
        descWhole x d = true → exec (.doorbellWake c r) s = .next ((t.execute c r d).seal s) ∧
          exec (.doorbellPoll c r) s = .next ((t.execute c r d).seal s)) ∧
      (2 ^ x.log2n < (p + 2 ^ 32 - x.count) % 2 ^ 32 → s.CplOpen c → Completes (.doorbellWake c r) s fun u =>
        (u.ring c r).mode = .stopped ∧ u.bit RNG_ERR 1 = true ∧ (u.ring c 8).count = ((s.ring c 8).count + 1) % 2 ^ 32)) ∧
    (x.mode = .watched ∨ x.mode = .stopped ∨ x.mode = .off → exec (.doorbellPoll c r) s = .next (s.seal s)) ∧
    (x.mode = .stopped ∨ x.mode = .off → exec (.doorbellWake c r) s = .next (s.seal s)) ∧
    (x.tries = 0 ∨ x.mode ≠ .watched → exec (.descriptorLineWritten c r) s = .next (s.seal s)) ∧
    (∀ d, x.tries ≠ 0 → x.mode = .watched → x.ahead = 1 → let t := s.unwatchLine (!x.locDpa) (lineOf x.slotAddr)
      t.ringReady c r = true → t.readSlot c r = (t, some d) → descWhole x d = true →
      exec (.descriptorLineWritten c r) s = .next ((t.execute c r d).seal s)) ∧
    ((s.ring c 8).waiting = [] → let t := s.setRing c 8 { s.ring c 8 with prod := s.cplConsumed c }
      t.serveIdle = t → exec (.consumerWordPoll c) s = .next (t.seal s)) ∧
    (∀ e, (s.ring c 8).waiting = [e] → s.cplRoom c = true → (s.ring c 8).locDpa = false → (s.ring c 8).vecEn = false →
      s.port.ioOpen = true → let t := (s.setRing c 8 { s.ring c 8 with prod := s.cplConsumed c }).flushRecords c 1
      t.serveIdle = t → Completes (.consumerWordPoll c) s fun u =>
        (u.ring c 8).waiting = [] ∧ (u.ring c 8).count = ((s.ring c 8).count + 1) % 2 ^ 32) ∧
    (8 < s.selRing → (∀ v, exec (.contextEnable v) s = .next (s.seal s) ∧ exec (.contextSuspend v) s = .next (s.seal s) ∧
      exec (.contextResume v) s = .next (s.seal s)) ∧ exec .ringEnable s = .next (s.seal s) ∧
      exec .ringDisable s = .next (s.seal s)) ∧
    (let n := s.selCtx
     s.selRing ≤ 8 → s.ctxGo n = false → ∀ v,
      ((s.context n).st = .empty → (s.ring n 8).enable = true → Completes (.contextEnable v) s fun u =>
        u.context n = { s.context n with st := .ready } ∧ (∀ j, j ≠ n → u.context j = s.context j) ∧
        u.fld RNG_CTX_CTL 26 24 = 1) ∧
      ((s.context n).st ≠ .empty → Completes (.contextEnable v) s fun u =>
        u.contexts = s.contexts ∧ u.bit RNG_ERR 3 = true) ∧
      (0 < n → (s.context n).st = .ready ∨ (s.context n).st = .running → Completes (.contextSuspend v) s fun u =>
        (u.context n).st = .suspended ∧ ∀ k f, sfind? s.flights k = some f → f.ctx = n → f.st = .running →
          (u.flight k).suspendMoored = true ∧
          (gateTag (if s.gate.cut then u.gate.next else u.gate.own) f.tag).moor = true) ∧
      (n = 0 ∨ (s.context n).st = .empty → Completes (.contextSuspend v) s fun u =>
        u.contexts = s.contexts ∧ u.bit RNG_ERR 3 = true) ∧
      (0 < n → (s.context n).st = .suspended → s.flights = [] →
        let t := (s.setFld RNG_CTX_CTL 26 24 3).setContext n { s.context n with st := .ready }
        t.serveIdle = t → exec (.contextResume v) s = .next (t.seal s)) ∧
      (n = 0 ∨ (s.context n).st ≠ .suspended → Completes (.contextResume v) s fun u =>
        u.contexts = s.contexts ∧ u.bit RNG_ERR 3 = true)) ∧
    (let n := s.selCtx
     let q := s.selRing
     let y := s.ring n q
     (q < 8 → y.enable = false → 4 ≤ y.log2n → y.log2n ≤ 16 → s.port.cacheEn = false → exec .ringEnable s =
       .next (((s.setRing n q { y with enable := true, mode := .polled, count := 0, prod := 0, tries := 0,
                                       poison := 0 }).setBit RNG_ERR 4 true).seal s)) ∧
     (q = 8 → y.enable = false → 4 ≤ y.log2n → y.log2n ≤ 16 → exec .ringEnable s =
       .next ((s.setRing n q { y with enable := true, mode := .active, count := 0, prod := 0 }).seal s)) ∧
     (y.enable = true ∨ y.log2n < 4 ∨ 16 < y.log2n → exec .ringEnable s = .next (s.seal s)) ∧
     (q ≤ 8 → y.enable = true → Completes .ringDisable s fun u =>
       (u.ring n q).enable = false ∧ (u.ring n q).mode = .off ∧ (u.ring n q).watch = false ∧
       (u.ring n q).count = y.count)) ∧
    exec .rngInjCrc s = .next ((s.setBit RNG_INJ 0 true).seal s)

/-! ### Stacks -/

/-- R331, R334, R335, R337 to R339, R342, R345 to R348, R350 to R353, R356, R359, R588: what a stack port does with words,
scrub, budgets, channels and pseudo-channels. That a channel request at a port that is not ACTIVE ends with code STATE is
the model's choice (log entry 38). -/
def Obligations.StackCommands : Prop :=
  ∀ s : State,
    (∀ p x, s.fuses.stackFused p = true → Completes (.stackTempSample p x) s fun u =>
      (u.stack p).temp = min x 255 ∧ (u.stack p).tempMax = max (s.stack p).tempMax (min x 255) ∧
      ∀ q, q ≠ p → u.stack q = s.stack q) ∧
    (∀ p x, s.fuses.stackFused p = false → exec (.stackTempSample p x) s = .next (s.seal s)) ∧
    (s.Live →
      (∀ dpa n, 0 < n → lineOf dpa = lineOf (dpa + n - 1) → s.Backed (lineOf dpa) → s.CleanLine (lineOf dpa) →
        exec (.stackRead dpa n) s = .next ((s.emit (.stackData (s.hdm.read dpa n) false)).seal s)) ∧
      (∀ dpa m f, dpa % 8 = 0 → s.frame dpa = some f → s.Backed (lineOf dpa) → s.LogRoom → m = 1 ∨ m = 2 →
        s.hdm.mark dpa = m → (∀ w < 8, lineOf dpa + 8 * w ≠ dpa → s.hdm.mark (lineOf dpa + 8 * w) = 0) →
        Completes (.stackRead dpa 8) s fun u =>
          Out.stackData (s.hdm.read dpa 8) (m == 2) ∈ u.out ∧ u.Logged (0x3F + m) 4 (f.port * 32 + f.pc / 2) ∧
          u.bit (stkReg f.port 0x34) (m - 1) = true ∧ (dpa, if m = 1 then 0 else 3) ∈ (u.stack f.port).writeback) ∧
      (∀ dpa bs poison, dpa % 8 = 0 → bs.length = 8 → s.Backed dpa → Completes (.stackWrite dpa bs poison) s fun u =>
        s.HdmPut u dpa bs ∧ u.hdm.mark dpa = (if poison then 3 else 0) ∧
        (∀ x, x / 8 ≠ dpa / 8 → u.hdm.mark x = s.hdm.mark x) ∧ u.waitingWriteback dpa = none) ∧
      (∀ dpa b, s.Backed dpa → s.hdm.mark dpa = 0 → Completes (.stackWrite dpa [b] false) s fun u =>
        s.HdmPut u dpa [b] ∧ u.hdm.mark dpa = 0) ∧
      (∀ dpa b f, dpa % 8 = 0 → s.Backed dpa → s.frame dpa = some f → s.hdm.mark dpa = 2 → s.LogRoom → s.bit FLT_CTL 1 = false →
        Completes (.stackWrite dpa [b] false) s fun u =>
          s.HdmPut u dpa [b] ∧ u.hdm.mark dpa = 3 ∧ u.Logged 0x42 4 (f.port * 32 + f.pc / 2)) ∧
      (∀ dpa f b poison, s.frame dpa = some f → s.frameUse dpa = .evacuate ∨ s.frameUse dpa = .retired → s.LogRoom →
        s.bit FLT_CTL 1 = false → Completes (.stackWrite dpa [b] poison) s fun u =>
          u.hdm = s.hdm ∧ u.Logged 0x43 4 (f.port * 32 + f.pc / 2) ∧ u.bit (stkReg f.port 0x34) 5 = true) ∧
      (∀ dpa n, 0 < n → lineOf dpa = lineOf (dpa + n - 1) → s.frameUse (lineOf dpa) = .evacuate →
        s.CleanLine (lineOf dpa) →
        exec (.stackRead dpa n) s = .next ((s.emit (.stackData (s.hdm.read dpa n) false)).seal s)) ∧
      (∀ dpa n f, 0 < n → lineOf dpa = lineOf (dpa + n - 1) → s.frame (lineOf dpa) = some f →
        s.frameUse (lineOf dpa) = .drained → s.LogRoom → Completes (.stackRead dpa n) s fun u =>
          (∃ bs, bs.length = n ∧ Out.stackData bs true ∈ u.out) ∧
          u.Logged 0x44 4 (f.port * 32 + f.pc / 2) ∧ u.bit (stkReg f.port 0x34) 4 = true) ∧
      (∀ dpa f b poison, s.frame dpa = some f → s.frameUse dpa = .drained → s.LogRoom → s.bit FLT_CTL 1 = false →
        Completes (.stackWrite dpa [b] poison) s fun u =>
          u.hdm = s.hdm ∧ u.Logged 0x44 4 (f.port * 32 + f.pc / 2) ∧ u.bit (stkReg f.port 0x34) 4 = true) ∧
      (∀ dpa n, 0 < n → lineOf dpa = lineOf (dpa + n - 1) → s.frameUse (lineOf dpa) = .retired →
        ∃ bs, bs.length = n ∧ exec (.stackRead dpa n) s = .next ((s.emit (.stackData bs true)).seal s)) ∧
      (∀ dpa m, dpa % 8 = 0 → s.waitingWriteback dpa = some m → s.frameUse dpa = .normal →
        Completes (.correctedWriteback dpa) s fun u =>
          u.hdm.mark dpa = m ∧ u.waitingWriteback dpa = none ∧ ∀ x, u.hdm.byte x = s.hdm.byte x) ∧
      (∀ dpa, dpa % 8 = 0 → s.waitingWriteback dpa = none → exec (.correctedWriteback dpa) s = .next (s.seal s)) ∧
      (∀ p, let k := s.stack p
        (k.st = .active → s.fld (stkReg p 0x00) 15 8 ≠ 0 → s.power.limits.contains .memory = false →
          s.frameUse (s.burstAddr p k.scrub) = .normal → s.burstAddr p k.scrub % 8 = 0 →
          s.CleanLine (s.burstAddr p k.scrub) →
          Completes (.scrubRead p) s fun u =>
            (u.stack p).scrub = (if s.boot.capacity ≤ 64 * (k.scrub + 1) then 0 else k.scrub + 1) ∧
            (s.boot.capacity ≤ 64 * (k.scrub + 1) → u.bit (stkReg p 0x34) 7 = true) ∧ u.hdm = s.hdm ∧
            (u.stack p).writeback = k.writeback) ∧
        (k.st ≠ .active ∨ s.fld (stkReg p 0x00) 15 8 = 0 ∨ s.power.limits.contains .memory = true →
          exec (.scrubRead p) s = .next (s.seal s)) ∧
        (Completes (.accountingWindow p) s fun u =>
          (∀ f ∈ s.boundSlots, sget (0, 0) (u.stack p).budget f =
            (((s.flight f).stackResOn p).1 * 256, ((s.flight f).stackResOn p).2)) ∧
          ∀ f, f ∉ s.boundSlots → sget (0, 0) (u.stack p).budget f = (0, 0)) ∧
        (∀ v : Reg, s.fuses.stackFused p = true → s.bit (stkReg p 0x08) 31 = false →
          let ch := bitsOf v.toNat 4 0
          let waits (c : Instr) (op : Nat) : Prop := Completes c s fun u =>
            (u.stack p).chReq = some (op, ch) ∧ u.bit (stkReg p 0x08) 31 = true ∧ (u.stack p).drained = k.drained
          let ends (c : Instr) (code : Nat) : Prop := Completes c s fun u =>
            (u.stack p).lastCh = ch ∧ (u.stack p).lastCode = code ∧ u.bit (stkReg p 0x08) 31 = false ∧
            (u.stack p).drained = k.drained
          (k.st = .active → k.drained.contains ch = false → s.drainBusy p = false → waits (.channelDrain p v) 0) ∧
          (k.st = .active → k.drained.contains ch = false → s.drainBusy p = true → ends (.channelDrain p v) 1) ∧
          (k.st = .active → k.drained.contains ch = false → ends (.channelMargin p v) 2 ∧ ends (.channelReturn p v) 2) ∧
          (k.st = .active → k.drained.contains ch = true → ends (.channelDrain p v) 2 ∧ waits (.channelMargin p v) 1) ∧
          (k.st = .active → k.drained.contains ch = true → k.failedMargin.contains ch = false →
            waits (.channelReturn p v) 2) ∧
          (k.st = .active → k.drained.contains ch = true → k.failedMargin.contains ch = true →
            ends (.channelReturn p v) 3) ∧
          (k.st ≠ .active → ends (.channelDrain p v) 2 ∧ ends (.channelMargin p v) 2 ∧ ends (.channelReturn p v) 2)) ∧
        (∀ ch m, k.chReq = some (1, ch) → Completes (.channelMarginDone p m) s fun u =>
          sfind? (u.stack p).margins ch = some m ∧ (u.stack p).chReq = none ∧ (u.stack p).lastCode = 0 ∧
          u.bit (stkReg p 0x08) 31 = false ∧
          (ch ∈ (u.stack p).failedMargin ↔ ¬(8 ≤ m.early ∧ 8 ≤ m.late ∧ 4 ≤ m.down ∧ 4 ≤ m.up))) ∧
        (∀ hi (v : Reg), Completes (.pcEvacRelease p hi v) s fun u =>
          (∀ i < 32, let pc := i + 32 * bnat hi
            sget .ok (u.stack p).pcs pc =
              if v.getLsbD i = true ∧ sget .ok k.pcs pc = .evacuate then .retired else sget .ok k.pcs pc) ∧
          ∀ pc, pc < 32 * bnat hi ∨ 32 * bnat hi + 32 ≤ pc → sget .ok (u.stack p).pcs pc = sget .ok k.pcs pc) ∧
        (∀ v : Reg, s.fuses.stackFused p = true → s.bit (stkReg p 0x28) 31 = false → s.LogRoom →
          Completes (.pcForce p v) s fun u =>
            u.Logged 0x45 4 (p * 32 + bitsOf v.toNat 5 0 / 2) ∧ u.bit (stkReg p 0x28) 31 = true ∧ u.stk = s.stk) ∧
        (s.fuses.stackFused p = true →
          exec (.stkInjUe p) s = .next ((s.setReg (stkReg p 0x38) (s.reg (stkReg p 0x38) ||| 2)).seal s) ∧
          exec (.stkInjCe p) s = .next ((s.setReg (stkReg p 0x38) (s.reg (stkReg p 0x38) ||| 1)).seal s))))

/-! ### The basin -/

/-- R365, R366, R368, R370, R371, R373, R381, R382, R393: requests at a line's home. A request of an uncached line is
served from its stack, one of a modified line from its owner, and one that a pin or a snoop of the host holds back waits. -/
def Obligations.HomeRequests : Prop :=
  ∀ (s : State) (agent addr : Nat), s.Live → agent ≠ 44 → let la := lineOf addr
    (s.Uncached la → s.RoomFor la → s.Backed la → s.CleanLine la →
      (∀ attr, Completes (.sharedRead agent false addr attr) s fun u =>
        u.hdm = s.hdm ∧
        ∃ l c, u.basinLine false la = some l ∧ l.data = s.hdm.read la 64 ∧ l.dirty = false ∧ l.presence = [agent] ∧
          u.copyOf agent false la = some c ∧ c.st = (if agent < 16 ∨ 40 ≤ agent then .e else .s)) ∧
      Completes (.ownershipRead agent false addr) s fun u =>
        u.hdm = s.hdm ∧ (∀ k, (u.lk k).resv = some la → k + 16 = agent) ∧
        ∃ l c, u.basinLine false la = some l ∧ l.presence = [agent] ∧ l.owner = some agent ∧
          u.copyOf agent false la = some c ∧ c.st = .m ∧ c.data = s.hdm.read la 64) ∧
    (∀ c l, s.copyOf agent false la = some c → c.st = .m → s.mCopy false la = some c → s.basinLine false la = some l →
      let home (u : State) : Prop := u.hdm = s.hdm ∧
        ∃ x, u.basinLine false la = some x ∧ x.data = c.data ∧ x.dirty = true ∧ x.owner = none
      (Completes (.mLineWriteBack agent false addr) s fun u => home u ∧ u.copyOf agent false la = none) ∧
      (Completes (.forwardedRequest agent false addr true) s fun u =>
        home u ∧ u.copyOf agent false la = none ∧ u.out = s.out ++ [.homeData c.data (decide (c.poison ≠ 0))]) ∧
      (Completes (.forwardedRequest agent false addr false) s fun u =>
        home u ∧ u.copyOf agent false la = some { c with st := .s, data := [], poison := 0 } ∧
        u.out = s.out ++ [.homeData c.data (decide (c.poison ≠ 0))]) ∧
      (c.victim = true → exec (.victimWritebackAccept agent false addr) s = exec (.mLineWriteBack agent false addr) s) ∧
      (c.victim = false → exec (.victimWritebackAccept agent false addr) s = .next (s.seal s)) ∧
      (∀ n, 0 < n → lineOf (addr + n - 1) = la → c.data.length = 64 → c.poison = 0 → s.homeBusy none (la, some false) = false →
        let snoop : List Out := match l.owner with
          | some o => if 40 ≤ o then [.berthSnpCur (o - 40) la] else []
          | none => []
        Completes (.nonCachingRead false addr n) s fun u =>
          u.out = s.out ++ snoop ++ [.homeData ((c.data.drop (addr - la)).take n) false] ∧ u.basin = s.basin)) ∧
    (∀ host, s.copyOf agent host la = none →
      exec (.mLineWriteBack agent host addr) s = .next (s.seal s) ∧
      (∀ own, exec (.forwardedRequest agent host addr own) s = .next (s.seal s)) ∧
      (s.basinLine host la = none → exec (.victimWritebackAccept agent host addr) s = .next (s.seal s))) ∧
    (∀ l, s.copyOf agent false la = none → s.basinLine false la = some l → l.victim = true → l.data.length = 64 →
      l.marks = [] → s.Backed la → (∀ x ∈ s.basin.lines, x.host = false → x.addr = la → x = l) →
      Completes (.victimWritebackAccept agent false addr) s fun u =>
        u.basinLine false la = none ∧ s.HdmPut u la l.data) ∧
    (s.Uncached la →
      (∀ n, 0 < n → lineOf (addr + n - 1) = la → s.Backed la → s.CleanLine la →
        Completes (.nonCachingRead false addr n) s fun u =>
          u.out = s.out ++ [.homeData (s.hdm.read addr n) false] ∧ u.hdm = s.hdm ∧ u.basin = s.basin) ∧
      ∀ attr bs poison, addr % 8 = 0 → bs.length = 8 → s.Backed addr →
        Completes (.nonCachingWrite false addr attr bs poison) s fun u =>
          s.HdmPut u addr bs ∧ u.hdm.mark addr = (if poison then 3 else 0) ∧ u.basin.lines = s.basin.lines ∧
          (attr ≠ 3 → ∀ k, (u.lk k).resv ≠ some la)) ∧
    (∀ l bs, s.basinLine false la = some l → l.data.length = 64 → l.marks = [] → s.mCopy false la = none →
      s.homeBusy none (la, some true) = false → addr % 8 = 0 → bs.length = 8 → s.bit CMX_INJ 1 = false →
      s.bit CMX_INJ 2 = false → Completes (.nonCachingWrite false addr 0 bs false) s fun u =>
        u.hdm = s.hdm ∧ (∀ c ∈ u.basin.copies, c.host = true ∨ c.addr ≠ la) ∧
        ∃ x, u.basinLine false la = some x ∧ x.data = putAt l.data (addr - la) bs ∧ x.dirty = true) ∧
    (∀ k, (la, k) ∈ s.basin.pins → ∀ n attr, 0 < n → lineOf (addr + n - 1) = la →
      let held (i : Instr) (c : HeldReq) : Prop := Completes i s fun u =>
        u.basin.held = s.basin.held ++ [c] ∧ u.basin.lines = s.basin.lines ∧ u.hdm = s.hdm
      held (.sharedRead agent false addr attr) (.sharedRead agent false addr attr) ∧
        held (.ownershipRead agent false addr) (.ownershipRead agent false addr) ∧
        held (.nonCachingRead false addr n) (.nonCachingRead false addr n)) ∧
    (∀ fn size operand compare, 0 < size → let m := s.basin.moored
      let old : PBytes := (m.read addr size).map fun b => (b, m.poisoned addr size)
      let new := atomicChange fn size operand compare false old
      Completes (.atomic addr 0 fn size operand compare true) s fun u =>
        u.basin.moored = m.store addr (bytesOf new) (anyPoison new) ∧ u.hdm = s.hdm ∧
        u.out = s.out ++ [.atomicOld (leNat (m.read addr size)) (m.poisoned addr size)]) ∧
    (∀ fn ≤ 7, ∀ operand compare, s.Uncached la → s.Backed la → s.CleanLine la → s.Backed addr → addr % 8 = 0 →
      Completes (.atomic addr 3 fn 8 operand compare false) s fun u =>
        s.HdmPut u addr (toLe 8 (atomicNew fn 64 (leNat (s.hdm.read addr 8)) operand compare)) ∧
        u.out = s.out ++ [.atomicOld (leNat (s.hdm.read addr 8)) false]) ∧
    (∀ bs poison, addr + bs.length ≤ s.mooredSize s.basin.moor →
      (exec (.mooredAccess addr true bs poison) s = .next (({ s with basin := { s.basin with
        moored := s.basin.moored.store addr bs poison } } : State).seal s)) ∧
      (0 < bs.length → lineOf (addr + bs.length - 1) = la → exec (.mooredAccess addr false bs poison) s =
        .next ((s.emit (.mooredData (s.basin.moored.read addr bs.length) (s.basin.moored.poisoned la 64))).seal s))) ∧
    ∀ wr bs poison, s.mooredSize s.basin.moor < addr + bs.length →
      exec (.mooredAccess addr wr bs poison) s = .next (s.seal s)

/-- R386 to R390, R394, R396 to R406, R409: way tests, moor requests, the maintenance queue and its injections. -/
def Obligations.BasinMaintenance : Prop :=
  ∀ s : State, s.Live →
    (∀ basin idx way passes, let w := (basin, idx, way)
      (s.basin.recovering.contains w = false → exec (.wayTestDone basin idx way passes) s = .next (s.seal s)) ∧
      (s.basin.recovering.contains w = true → 2 ≤ passes → Completes (.wayTestDone basin idx way passes) s fun u =>
        w ∉ u.basin.recovering ∧ u.basin.disabled = s.basin.disabled) ∧
      (s.basin.recovering.contains w = true → passes < 2 → basin = true ∨ idx < 32 → s.disabledOf basin idx < 4 →
        s.LogRoom → Completes (.wayTestDone basin idx way passes) s fun u =>
          w ∈ u.basin.disabled ∧ w ∉ u.basin.recovering ∧ u.bit CMX_ERR 6 = true ∧
          u.Logged 0x57 (if basin then 3 else 2) idx)) ∧
    (∀ v : Reg, s.bit CMX_MOOR 31 = false → let req := bitsOf v.toNat 20 16
      let ends (code : Nat) : Prop := Completes (.moorRequest v) s fun u =>
        u.bit CMX_MOOR 31 = false ∧ u.fld CMX_MOOR 9 8 = code ∧ u.basin.moorReq = none ∧ u.basin.moor = s.basin.moor
      let waits (cleaned : Bool) : Prop := Completes (.moorRequest v) s fun u =>
        u.bit CMX_MOOR 31 = true ∧ u.basin.moorReq = some req ∧ u.basin.moorCleaned = cleaned ∧
        u.basin.moor = s.basin.moor
      (req = s.basin.moor → ends 0) ∧
      (req ≠ s.basin.moor → max s.basin.moor (16 - s.maxDisabled) < req → ends 2) ∧
      (req ≠ s.basin.moor → req ≤ max s.basin.moor (16 - s.maxDisabled) →
        (s.mooredInUse (s.mooredSize req) = true → ends 1) ∧
        (s.mooredInUse (s.mooredSize req) = false → waits (decide (req < s.basin.moor))))) ∧
    (s.bit CMX_MOOR 31 = true → ∀ v, Completes (.moorRequest v) s fun u =>
      u.basin = s.basin ∧ u.bit CMX_MOOR 31 = true ∧ u.fld CMX_MOOR 20 16 = s.fld CMX_MOOR 20 16) ∧
    (s.basin.moorReq = none → exec .moorCleanDone s = .next (s.seal s)) ∧
    (∀ n, s.basin.moorReq = some n → s.basin.lines = [] → Completes .moorCleanDone s fun u =>
      u.basin = { s.basin with moorCleaned := true } ∧ u.hdm = s.hdm) ∧
    (∀ v : Reg, let space := bitsOf v.toNat 5 4
      let ctx := bitsOf v.toNat 25 16
      let a := (s.reg CMX_ADDR_HI).toNat * 2 ^ 32 + (s.reg CMX_ADDR_LO).toNat
      let n := (s.reg CMX_LEN_HI).toNat * 2 ^ 32 + (s.reg CMX_LEN_LO).toNat
      let op (k : Nat) : Instr :=
        match k with
        | 0 => .clean v
        | 1 => .invalidate v
        | 2 => .cleanInvalidate v
        | 3 => .warm v
        | _ => .zero v
      ∀ k ≤ 4,
        (space ≤ 2 → a % 64 = 0 → n % 64 = 0 → 0 < n → n ≤ 2 ^ 40 →
          (s.basin.queue.length < 8 → Completes (op k) s fun u =>
            u.basin = { s.basin with queue := s.basin.queue ++
              [{ op := k, space_ := space, ctx := ctx, addr := a, len := n, ring := none }] }) ∧
          (8 ≤ s.basin.queue.length → Completes (op k) s fun u => u.basin = s.basin ∧ u.bit CMX_ERR 0 = true)) ∧
        (2 < space ∨ a % 64 ≠ 0 ∨ n % 64 ≠ 0 ∨ n = 0 ∨ 2 ^ 40 < n →
          Completes (op k) s fun u => u.basin = s.basin ∧ u.bit CMX_ERR 1 = true)) ∧
    (s.basin.queue = [] → s.resettle = s → exec .maintEntryEnd s = .next (s.seal s)) ∧
    (∀ e, s.basin.queue = [e] → e.ring = none → e.space_ = SP_DPA → e.len = 64 → e.addr % 64 = 0 → s.waits = [] →
      s.maintEnd.resettle = s.maintEnd →
      (s.maintBusy e ≠ [] → Completes .maintEntryEnd s fun u => u.basin = s.basin ∧ u.hdm = s.hdm) ∧
      (s.maintBusy e = [] → ∀ l, e.op = 0 → s.basinLine false e.addr = some l → l.dirty = true → l.victim = false → l.data.length = 64 →
        l.marks = [] → s.mCopy false e.addr = none → s.Backed e.addr → Completes .maintEntryEnd s fun u =>
          s.HdmPut u e.addr l.data ∧ u.basinLine false e.addr = some { l with dirty := false, owner := none } ∧
          u.basin.queue = [] ∧ u.basin.lastStatus = 0 ∧ u.basin.done = (s.basin.done + 1) % 2 ^ 32) ∧
      (s.maintBusy e = [] → e.op = 1 → s.hdmRefusal MID_MAINT NEED_W e.addr 64 = none →
        (∀ l, s.basinLine false e.addr = some l → 44 ∉ l.presence) → Completes .maintEntryEnd s fun u =>
          u.hdm = s.hdm ∧ u.basinLine false e.addr = none ∧ u.copyOf 0 false e.addr = none ∧ u.basin.lastStatus = 0) ∧
      (s.maintBusy e = [] → e.op = 4 → s.hdmRefusal MID_MAINT NEED_W e.addr 64 = none → s.Uncached e.addr →
        s.Backed e.addr → Completes .maintEntryEnd s fun u =>
          s.HdmPut u e.addr (List.replicate 64 0) ∧ u.basin.lastStatus = 0 ∧ u.bit IRQ_PEND 1 = true)) ∧
    exec .cmxInjBsnUe s = .next ((s.setBit CMX_INJ 2 true).seal s) ∧
    exec .cmxInjBsnCe s = .next ((s.setBit CMX_INJ 1 true).seal s) ∧
    exec .cmxInjRcParity s = .next ((s.setBit CMX_INJ 0 true).seal s)

/-! ### Lockkeepers -/

/-- R336, R366, R381, R382, R411, R414, R423 to R434: loads, stores, atomics, reservations, fences and device accesses of
a lockkeeper. The clauses on its effects take a line that no cache holds, or one in the basin. -/
def Obligations.LockkeeperAccesses : Prop :=
  ∀ (s : State) (k addr : Nat), s.Live → k < 24 → let la := lineOf addr
    let x := s.lk k
    let passes (need n : Nat) : Prop := s.hdmRefusal (MID_LK k) need addr n = none
    let plain : Prop := s.Uncached la ∧ s.RoomFor la ∧ s.Backed la ∧ s.CleanLine la
    let held (l : Line) : Prop := s.basinLine false la = some l ∧ l.victim = false ∧ l.data.length = 64 ∧ l.marks = [] ∧
      s.mCopy false la = none ∧ s.homeBusy (some k) (la, some true) = false ∧ s.bit CMX_INJ 1 = false ∧
      s.bit CMX_INJ 2 = false
    (∀ host size, badAccess addr size = true →
      (∀ attr, exec (.lkLoad k ⟨host, attr⟩ addr size) s = .next ((s.emit (.lkFault k false)).seal s) ∧
        ∀ v, exec (.lkStore k ⟨host, attr⟩ addr size v) s = .next ((s.emit (.lkFault k true)).seal s)) ∧
      (∀ attr fn o c aq rl, exec (.lkAmo k host addr attr fn size o c aq rl) s =
        .next ((s.emit (.lkFault k true)).seal s)) ∧
      (∀ attr aq rl, exec (.lr k host addr attr size aq rl) s = .next ((s.emit (.lkFault k false)).seal s))) ∧
    (∀ size, badAccess addr size = false →
      (passes NEED_R size → (∀ e ∈ x.sb, e.word ≠ addr / 8 * 8 ∨ e.host = true) → plain → ∀ attr,
        Completes (.lkLoad k ⟨false, attr⟩ addr size) s fun u =>
          u.out = s.out ++ [.lkData k (leNat (s.hdm.read addr size))] ∧ u.hdm = s.hdm ∧
          (attr ≠ 3 → ∃ c, u.copyOf (lkAgent k) false la = some c ∧ c.st = .s) ∧
          (attr = 3 → u.basin = s.basin)) ∧
      (∀ host attr e, x.sb = [e] → e.word = addr / 8 * 8 → e.host = host → (2 ^ size - 1) * 2 ^ (addr % 8) &&& e.mask =
        (2 ^ size - 1) * 2 ^ (addr % 8) → exec (.lkLoad k ⟨host, attr⟩ addr size) s =
          .next ((s.emit (.lkData k (e.data / 2 ^ (8 * (addr % 8)) % 2 ^ (8 * size)))).seal s)) ∧
      (s.hdmRefusal (MID_LK k) NEED_R addr size ≠ none → (∀ e ∈ x.sb, e.word ≠ addr / 8 * 8 ∨ e.host = true) →
        ∀ attr, Completes (.lkLoad k ⟨false, attr⟩ addr size) s fun u =>
          .lkFault k false ∈ u.out ∧ ∀ v, .lkData k v ∈ u.out → .lkData k v ∈ s.out) ∧
      (∀ host attr v, x.regBad = false → (∀ e ∈ x.sb, e.word ≠ addr / 8 * 8 ∨ e.host ≠ host ∨ e.attr ≠ attr) →
        x.sb.length ≤ 15 → Completes (.lkStore k ⟨host, attr⟩ addr size v) s fun u =>
          (u.lk k).sb = x.sb ++ [{ word := addr / 8 * 8, host := host, attr := attr, mask := (2 ^ size - 1) * 2 ^ (addr % 8),
                                   data := v % 2 ^ (8 * size) * 2 ^ (8 * (addr % 8)) }] ∧
          u.hdm = s.hdm ∧ u.host = s.host ∧ u.basin = s.basin ∧ (host = false → (u.lk k).resv ≠ some la)) ∧
      (4 ≤ size → x.sb = [] →
        (∀ fn o c aq rl, passes NEED_A size → plain → s.Backed addr →
          Completes (.lkAmo k false addr 3 fn size o c aq rl) s fun u =>
            s.HdmPut u addr (toLe size (atomicNew fn (8 * size) (leNat (s.hdm.read addr size)) o c)) ∧
            u.out = s.out ++ [.lkData k (leNat (s.hdm.read addr size))]) ∧
        (∀ attr ≤ 1, ∀ aq rl, passes NEED_R size → plain → Completes (.lr k false addr attr size aq rl) s fun u =>
          (u.lk k).resv = some la ∧ u.out = s.out ++ [.lkData k (leNat (s.hdm.read addr size))] ∧ u.hdm = s.hdm ∧
          u.basin.pins = s.basin.pins ++ (if x.failedSc = some la then [(la, k)] else [])) ∧
        (∀ attr ≤ 1, ∀ v aq rl, passes NEED_W size → s.basin.held = [] → s.NoCopies →
          s.homeBusy (some k) (la, some true) = false →
          (s.resvHolds k la = false → Completes (.sc k false addr attr size v aq rl) s fun u =>
            u.out = s.out ++ [.scResult k true] ∧ u.hdm = s.hdm ∧ (u.lk k).resv = none ∧
            (u.lk k).failedSc = some la ∧ ∀ p ∈ u.basin.pins, p.2 ≠ k) ∧
          (∀ l, s.resvHolds k la = true → held l → Completes (.sc k false addr 0 size v aq rl) s fun u =>
            .scResult k false ∈ u.out ∧ (u.lk k).resv = none ∧ (∀ p ∈ u.basin.pins, p.2 ≠ k) ∧
            (∀ c ∈ u.basin.copies, c.host = true ∨ c.addr ≠ la ∨ c.agent = lkAgent k) ∧
            ∃ y, u.basinLine false la = some y ∧ y.data = putAt l.data (addr - la) (toLe size v) ∧ y.dirty = true)))) ∧
    (x.sb = [] → x.device = [] →
      exec (.storeBufferDrain k) s = .next (s.seal s) ∧ exec (.lkFence k) s = .next (s.seal s) ∧
      (x.inject ≠ some 1 → exec (.fenceI k) s = .next ((s.setLk k { x with icache := [] }).seal s)) ∧
      (x.inject = some 1 → s.LogRoom → Completes (.fenceI k) s fun u =>
        u.Logged 0x52 6 k ∧ (u.lk k).inject = none ∧ (u.lk k).icache = []) ∧
      (s.ioBusy (.lockkeeper k) = false →
        (Completes (.lkPowerDown k) s fun u => u.lk k = { x with sleeping := true }) ∧
        (∀ v size, badAccess addr size = false → size ≤ 3 → Completes (.lkDeviceAccess k
          { space_ := 0, addr := addr, size := size, wr := false, value := v }) s fun u =>
            u.out = s.out ++ [.lkFault k false] ∧ u.regs = s.regs) ∧
        ∀ v, addr % 8 = 0 → s.Backed addr → s.hdmRefusal (MID_LK k) NEED_W addr 8 = none → Completes (.lkDeviceAccess k
          { space_ := 1, addr := addr, size := 8, wr := true, value := v }) s fun u =>
            s.HdmPut u addr (toLe 8 v.toNat) ∧ (u.lk k).device = [] ∧ u.out = s.out)) ∧
    (∀ e rest, x.sb = e :: rest → x.device = [] → e.host = false → e.word = addr → addr % 8 = 0 → e.mask = 255 →
      e.data < 2 ^ 64 → s.basin.held.contains (.storeBufferDrain k) = false → passes NEED_W 8 →
      (∀ d, (∃ l, held l ∧ l.data = d) ∨ plain ∧ s.hdm.read la 64 = d → e.attr = 0 →
        Completes (.storeBufferDrain k) s fun u =>
          (u.lk k).sb = rest ∧ (∀ c ∈ u.basin.copies, c.host = true ∨ c.addr ≠ la ∨ c.agent = lkAgent k) ∧
          ∃ y, u.basinLine false la = some y ∧ y.data = putAt d (addr - la) (toLe 8 e.data) ∧ y.dirty = true) ∧
      (∀ l, held l → e.attr = 1 → s.Backed addr → Completes (.storeBufferDrain k) s fun u =>
          (u.lk k).sb = rest ∧ s.HdmPut u addr (toLe 8 e.data) ∧
          (∀ c ∈ u.basin.copies, c.host = true ∨ c.addr ≠ la ∨ c.agent = lkAgent k) ∧
          ∃ y, u.basinLine false la = some y ∧ y.data = putAt l.data (addr - la) (toLe 8 e.data) ∧ y.dirty = l.dirty) ∧
      (plain → s.Backed addr → e.attr ≠ 0 → Completes (.storeBufferDrain k) s fun u =>
          (u.lk k).sb = rest ∧ s.HdmPut u addr (toLe 8 e.data) ∧ u.basinLine false la = none)) ∧
    (∀ e rest, x.sb = e :: rest → e.host = false → e.word = addr → addr % 8 = 0 → s.basin.held = [] →
      s.homeBusy (some k) (la, some true) = true → Completes (.lkFence k) s fun u =>
        (u.lk k).sb = x.sb ∧ u.basin.held = [.storeBufferDrain k, .lkFence k]) ∧
    (∀ n, n = 0 ∨ x.sb = [] → exec (.trapEntry k n) s =
      .next ((s.setLk k { x with sb := [], resv := none }).seal s)) ∧
    exec (.reservationExpiry k) s = .next ((s.setLk k { x with resv := none }).seal s) ∧
    (s.basin.held = [] → s.NoCopies → exec (.pinExpiry k) s = .next (({ s with basin := { s.basin with
      pins := s.basin.pins.filter fun p => p.2 ≠ k } } : State).seal s))

/-! ### The host port -/

/-- R13, R14, R446 to R449, R460 to R462, R612: BAR4 and CXL.mem. In safe state BAR writes are dropped, BAR reads return
all ones, and memory reads return poison. That the window of a logical tile with no active physical tile reads 0 and
takes no write is the model's choice (log entry 76). -/
def Obligations.HostMemoryAccesses : Prop :=
  ∀ s : State,
    (s.boot.safe = true → ∀ a,
      (∀ bs ep, exec (.bar4Write a bs ep) s = .next (s.seal s)) ∧
      (∀ n, Completes (.bar4Read a n) s fun u => s.SendsBar u (List.replicate n 0xFF) ∧ u.tiles = s.tiles) ∧
      (∀ ms mv sn, exec (.memRd a ms mv sn) s = .next ((s.emit (.memData (List.replicate 64 0) true)).seal s)) ∧
      ∀ mv sn bs p, exec (.memWr a mv sn bs p) s = .next ((s.emit .memDone).seal s)) ∧
    (s.Live → ∀ off, let a := off % 2 ^ 21
      (s.port.barClosed = true →
        (∀ n, Completes (.bar4Read off n) s fun u =>
          u.out = s.out ++ [.barUnsupported] ∧ AerErr.unsupportedRequest ∈ u.port.aer) ∧
        ∀ bs ep, Completes (.bar4Write off bs ep) s fun u =>
          u.tiles = s.tiles ∧ AerErr.unsupportedRequest ∈ u.port.aer) ∧
      (s.port.barClosed = false →
        (∀ bs, off % 8 ≠ 0 ∨ bs.length % 8 ≠ 0 → Completes (.bar4Write off bs false) s fun u =>
          u.tiles = s.tiles ∧ AerErr.completerAbort ∈ u.port.aer) ∧
        (∀ n, s.bar4Tile off = none ∨ HOLD_BYTES ≤ a → Completes (.bar4Read off n) s fun u =>
          s.SendsBar u (List.replicate n 0) ∧ u.tiles = s.tiles) ∧
        (∀ bs, s.bar4Tile off = none ∨ HOLD_BYTES ≤ a → off % 8 = 0 → bs.length % 8 = 0 →
          exec (.bar4Write off bs false) s = .next (s.seal s)) ∧
        (∀ t, s.bar4Tile off = some t →
          (∀ bs, s.actPass (tgtHold (off / 2 ^ 21)) 0 NEED_W = true → off % 8 = 0 → bs.length % 8 = 0 →
            0 < bs.length → a + bs.length ≤ HOLD_BYTES → (s.tile t).inject = none →
            Completes (.bar4Write off bs false) s fun u =>
              (u.tile t).hold.read a bs.length = bs ∧
              (∀ x, x < a ∨ a + bs.length ≤ x → (u.tile t).hold.byte x = (s.tile t).hold.byte x) ∧
              (∀ q, q ≠ t → u.tile q = s.tile q) ∧ u.port = s.port) ∧
          (∀ n, s.actPass (tgtHold (off / 2 ^ 21)) 0 NEED_R = true → a < HOLD_BYTES →
            (∀ w, w < n + 8 → (s.tile t).hold.mark (a + w) = 0) → Completes (.bar4Read off n) s fun u =>
              s.SendsBar u ((s.tile t).hold.read a (min n (HOLD_BYTES - a)) ++
                List.replicate (n - (HOLD_BYTES - a)) 0) ∧ u.tiles = s.tiles) ∧
          (∀ n, s.actPass (tgtHold (off / 2 ^ 21)) 0 NEED_R = true → n ≤ 512 → a + n ≤ HOLD_BYTES →
            (∃ i < n, (s.tile t).hold.mark (a + i) = 3) → Completes (.bar4Read off n) s fun u =>
              ∃ bs, .barData bs true ∈ u.out) ∧
          (∀ n, s.actPass (tgtHold (off / 2 ^ 21)) 0 NEED_R = false → a < HOLD_BYTES → Completes (.bar4Read off n) s fun u =>
            .barAbort ∈ u.out ∧ AerErr.completerAbort ∈ u.port.aer ∧ u.tiles = s.tiles))) ∧
      (s.hdmDecode off = none →
        (∀ ms mv sn, Completes (.memRd off ms mv sn) s fun u =>
          u.out = s.out ++ [.memData (List.replicate 64 0) true] ∧ u.port.rasUncorr = true ∧ u.hdm = s.hdm) ∧
        (∀ mv sn bs p, Completes (.memWr off mv sn bs p) s fun u =>
          u.out = s.out ++ [.memDone] ∧ u.port.rasUncorr = true ∧ u.hdm = s.hdm) ∧
        ∀ mv, Completes (.memClnEvct off mv) s fun u => u.out = s.out ++ [.memDone] ∧ u.basin = s.basin) ∧
      (∀ dpa, s.hdmDecode off = some dpa → let la := lineOf dpa
        (∀ l, s.basinLine false la = some l → Completes (.memClnEvct off META_INVALID) s fun u =>
          u.out = s.out ++ [.memDone] ∧
          u.basinLine false la = some { l with presence := l.presence.filter (· ≠ 44) }) ∧
        (s.Uncached la → s.Backed la → s.CleanLine la → (∀ l ∈ s.basin.lines, l.host = true ∨ l.addr / 4096 ≠ la / 4096) →
          (s.actPass (tgtHdm la) 0 NEED_R = true → ∀ mv sn,
            (Completes (.memRd off false mv sn) s fun u =>
              u.out = s.out ++ [.memData (s.hdm.read la 64) false] ∧ u.hdm = s.hdm ∧ la / 4096 ∈ u.basin.shr) ∧
            (mv = META_ANY ∨ mv = META_SHARED → s.port.biEnable = true → s.RoomFor la →
              Completes (.memRd off true mv sn) s fun u =>
                u.out = s.out ++ [.memData (s.hdm.read la 64) false] ∧
                ∃ l, u.basinLine false la = some l ∧ 44 ∈ l.presence)) ∧
          (s.actPass (tgtHdm la) 0 NEED_W = true → ∀ mv sn bs poison, bs.length = 64 →
            Completes (.memWr off mv sn bs poison) s fun u =>
              s.HdmPut u la bs ∧ u.hdm.mark la = (if poison then 3 else 0) ∧ u.out = s.out ++ [.memDone] ∧
              la / 4096 ∈ u.basin.shr)) ∧
        (s.actPass (tgtHdm la) 0 NEED_W = false → s.frameUse la = .normal → s.bit FLT_CTL 1 = false →
          ∀ mv sn bs p, Completes (.memWr off mv sn bs p) s fun u =>
            .memDone ∈ u.out ∧ u.hdm = s.hdm ∧ u.basin = s.basin)))

/-- R377, R379, R380, R447, R449, R452, R453, R455 to R459, R472: back-invalidation, the host's snoops, completions,
timeouts and decoders. -/
def Obligations.HostResponses : Prop :=
  ∀ (s : State) (a : Nat), let la := lineOf a
    (s.Live →
      (∀ data, (∀ b ∈ s.port.bisnp, b.1 ≠ la) → s.settleBias = s → s.resettle = s → s.NoCopies →
        exec (.birspI a data) s = .next (s.seal s) ∧ exec (.birspS a data) s = .next (s.seal s) ∧
        exec (.birspE a data) s = .next (s.seal s)) ∧
      (∀ l inv, s.port.bisnp = [(la, inv)] → s.basin.held = [] → s.port.conflicts = [] → s.basinLine false la = some l →
        (s.birspDone a none true = s.birsp a none true → Completes (.birspI a none) s fun u =>
          u.port.bisnp = [] ∧ u.basinLine false la = some { l with presence := l.presence.filter (· ≠ 44) }) ∧
        (∀ d, d.length = 64 → s.birspDone a (some d) true = s.birsp a (some d) true →
          Completes (.birspI a (some d)) s fun u =>
            u.port.bisnp = [] ∧ ∃ y, u.basinLine false la = some y ∧ y.data.take 64 = d ∧ y.dirty = true ∧
              44 ∉ y.presence) ∧
        (s.birspDone a none false = s.birsp a none false →
          (Completes (.birspS a none) s fun u => u.port.bisnp = [] ∧ u.basin = s.basin) ∧
          Completes (.birspE a none) s fun u => u.port.bisnp = [] ∧ u.basin = s.basin)) ∧
      (∀ tag r, s.port.outstanding = [r] → r.tag = tag → r.got = 0 → s.port.waitingRd = [] → s.port.flrBusy = false →
        (∀ bs k, r.user = .lockkeeper k → bs.length = r.want → 0 < r.want → s.basin.held = [] →
          (∀ i < r.want, s.host.mark (r.addr + i) = 0) →
          Completes (.completionReceive tag 0 true (.data bs false)) s fun u =>
            u.host.read r.addr r.want = bs ∧ u.port.outstanding = [] ∧ u.out = s.out ++ [.lkData k (leNat bs)] ∧
            ∀ x, x < r.addr ∨ r.addr + r.want ≤ x → u.host.byte x = s.host.byte x) ∧
        (∀ k, r.user = .lockkeeper k → s.basin.held = [] → Completes (.completionTimeout tag) s fun u =>
          u.port.outstanding = [] ∧ tag ∈ u.port.quarantine ∧ AerErr.completionTimeout ∈ u.port.aer ∧
          u.out = s.out ++ [.lkFault k false]) ∧
        (r.user = .discard → ∀ bs p, Completes (.completionReceive tag 0 true (.data bs p)) s fun u =>
          u.port.outstanding = [] ∧ u.host = s.host) ∧
        (r.user = .discard → Completes (.completionReceive tag 0 true .abort) s fun u =>
          u.port.outstanding = [] ∧ u.host = s.host ∧ u.flt = s.flt)) ∧
      (∀ tag off last c, (∀ r ∈ s.port.outstanding, r.tag ≠ tag) → s.port.waitingRd = [] →
        (s.port.stale.contains tag = false → Completes (.completionReceive tag off last c) s fun u =>
          AerErr.unexpectedCompletion ∈ u.port.aer ∧ tag ∉ u.port.quarantine ∧ u.host = s.host) ∧
        exec (.completionTimeout tag) s = .next (s.seal s))) ∧
    (∀ tag, s.port.waitingRd = [] → Completes (.tagQuarantineExpiry tag) s fun u =>
      tag ∉ u.port.quarantine ∧ (∀ t, t ≠ tag → (t ∈ u.port.quarantine ↔ t ∈ s.port.quarantine)) ∧ u.out = s.out) ∧
    (∀ base size skip ways gran lk, let d := s.port.decoders.length
      let start := (match s.port.decoders.getLast? with
        | some x => x.dpaEnd
        | none => 0) + skip
      (d < 4 → decoderOk ways gran = true → start + size / max 1 ways ≤ s.range1 →
        Completes (.decoderCommit d base size skip ways gran lk) s fun u =>
          u.port.decoders = s.port.decoders ++ [{ base := base, size := size, dpa := start, skip := skip, ways := ways,
                                                  gran := gran, locked := lk }] ∧ d ∉ u.port.commitErr) ∧
      (∀ e, e ≠ d ∨ 4 ≤ d ∨ decoderOk ways gran = false ∨ s.range1 < start + size / max 1 ways →
        Completes (.decoderCommit e base size skip ways gran lk) s fun u =>
          u.port.decoders = s.port.decoders ∧ e ∈ u.port.commitErr)) ∧
    ((∀ b ∈ s.port.bisnp, b.1 ≠ la) → exec (.biconflict a) s = .next ((s.emit (.biConflictAck la)).seal s)) ∧
    ((∃ b ∈ s.port.bisnp, b.1 = la) → s.basin.held = [] → Completes (.biconflict a) s fun u =>
      la ∈ u.port.conflicts ∧ u.out = s.out) ∧
    (s.mCopy true la = none →
      (s.basinLine true la = none →
        (Completes (.snpData a) s fun u => u.out = s.out ++ [.snpRsp la none] ∧ u.basin.lines = s.basin.lines) ∧
        exec (.snpCur a) s = .next ((s.emit (.snpRsp la none)).seal s)) ∧
      ∀ l, s.basinLine true la = some l → let rsp := if l.dirty then some l.data else none
        (Completes (.snpData a) s fun u =>
          u.out = s.out ++ [.snpRsp la rsp] ∧ ∃ y, u.basinLine true la = some y ∧ y.dirty = false ∧ y.data = l.data ∧
            y.owner = none) ∧
        (Completes (.snpInv a) s fun u =>
          u.out = s.out ++ [.snpRsp la rsp] ∧ u.basinLine true la = none ∧
          ∀ c ∈ u.basin.copies, c.host = false ∨ c.addr ≠ la) ∧
        exec (.snpCur a) s = .next ((s.emit (.snpRsp la rsp)).seal s)) ∧
    (∀ poison, exec (.cxlCacheHostResponse a none poison) s = .next (s.seal s)) ∧
    (∀ bs poison, bs.length = 64 → Completes (.cxlCacheHostResponse a (some bs) poison) s fun u =>
      u.host.read la 64 = bs ∧ (∀ x, x < la ∨ la + 64 ≤ x → u.host.byte x = s.host.byte x) ∧
      ∀ l, s.basinLine true la = some l → l.dirty = false → l.owner = none →
        ∃ y, u.basinLine true la = some y ∧ y.data.take 64 = bs)

/-- R452, R454, R465, R466, R470, R474 to R476, R612: power states, bus mastering, cache flushes, viral, link encryption
and interrupt vectors of the host port. -/
def Obligations.HostPortEvents : Prop :=
  ∀ s : State,
    (Completes .busMasterDisable s fun u =>
      u.port.busMaster = false ∧ u.port.ioOpen = false ∧ (∀ r ∈ u.port.waitingRd, ∀ c k, r.user ≠ .ring c k) ∧
      (∀ w ∈ u.waits, w ∈ s.waits) ∧ u.out = s.out) ∧
    (Completes .d3hotEntry s fun u =>
      u.port.d3hot = true ∧ u.port.barClosed = true ∧ u.port.ioOpen = false ∧ u.port.busMaster = s.port.busMaster ∧
      u.out = s.out) ∧
    (s.boot.safe = true ∨ s.port.d3hot = true →
      exec .busMasterEnable s = .next (({ s with port := { s.port with busMaster := true } } : State).seal s)) ∧
    (s.boot.safe = true ∨ s.port.busMaster = false →
      exec .d0Return s = .next (({ s with port := { s.port with d3hot := false } } : State).seal s)) ∧
    (∀ a bs p, s.Live → s.port.waitingWr = [(a, bs, p)] → s.port.waitingVec = [] → s.port.waitingRd = [] →
      let went (t : State) : State := { t with host := s.host.store a bs p, out := s.out ++ [.ioWrite a bs.length] }
      (s.port.d3hot = false → s.port.ideIo ≠ 2 →
        let t := went { s with port := { s.port with busMaster := true, waitingWr := [] } }
        t.resettle = t → exec .busMasterEnable s = .next (t.seal s)) ∧
      (s.port.busMaster = true → s.port.ideIo ≠ 2 →
        let t := went { s with port := { s.port with d3hot := false, waitingWr := [] } }
        t.resettle = t → exec .d0Return s = .next (t.seal s))) ∧
    (s.hostLines = [] →
      exec .cacheWritebackInvalidate s =
        .next (({ s with port := { s.port with cacheInvalid := true } } : State).seal s) ∧
      exec .gpfPhase1 s = .next (s.seal s)) ∧
    (∀ l, s.basin.lines = [l] → l.host = true → l.dirty = true → l.victim = false → l.data.length = 64 → l.marks = [] →
      s.basin.copies = [] → l.addr % 64 = 0 →
      let saved (u : State) : Prop := u.host.read l.addr 64 = l.data ∧
        ∀ x, x < l.addr ∨ l.addr + 64 ≤ x → u.host.byte x = s.host.byte x
      (Completes .cacheWritebackInvalidate s fun u => saved u ∧ u.basin.lines = [] ∧ u.port.cacheInvalid = true) ∧
      (Completes .gpfPhase1 s fun u => saved u ∧ u.basin.lines = [{ l with dirty := false, owner := none }])) ∧
    (s.LogRoom → s.waits = [] → s.flt.ctxAborts = [] → Completes .viralReceive s fun u =>
      u.Logged 0x71 7 0 ∧ u.flt.halted = true ∧
      s.ww.index ∈ (if s.gate.cut then u.gate.next else u.gate.own).faultMap) ∧
    (Completes (.ideCheckFailed true) s fun u => u.port.ideMem = 2 ∧ AerErr.ideCheckFailed ∈ u.port.aer) ∧
    (Completes (.ideCheckFailed false) s fun u =>
      u.port.ideIo = 2 ∧ u.port.ioOpen = false ∧ AerErr.ideCheckFailed ∈ u.port.aer) ∧
    (∀ n, s.Live → s.port.msixEn = true → s.port.pendingVec = [n] → s.port.funcMask = false → s.port.ioOpen = true →
      Completes (.vectorUnmask n) s fun u =>
        u.out = s.out ++ [.msi n] ∧ u.port.pendingVec = [] ∧ u.bit (MSIX_TABLE + 16 * n + 12) 0 = false) ∧
    (∀ n, s.port.msixEn = false → s.port.pendingVec = [] → Completes (.vectorUnmask n) s fun u =>
      n ∉ u.port.msiMasked ∧ u.out = s.out ∧ u.regs = s.regs) ∧
    (∀ en, s.contexts = [] → exec (.cacheEnableWrite en) s = .next (({ s with port := { s.port with
      cacheEn := en, cacheInvalid := s.port.cacheInvalid && !en } } : State).seal s)) ∧
    (Completes (.cacheEnableWrite false) s fun u =>
      u.port.cacheEn = false ∧ u.port.cacheInvalid = s.port.cacheInvalid)

/-- R473, R474: the SPDM responder and the keys of link encryption. What the certificates, digests, signatures and
measurements hold is a free value of the model. -/
def Obligations.SpdmRequests : Prop :=
  ∀ s : State,
    let error (c : Instr) : Prop := exec c s = .next ((s.emit (.spdm 0x7F 0 [])).seal s)
    let answers (c : Instr) (code session n : Nat) : Prop := Completes c s fun u =>
      (∃ bs, u.out = s.out ++ [.spdm code session bs] ∧ bs.length = n) ∧ u.port = s.port
    (Completes .getVersion s fun u =>
      u.out = s.out ++ [.spdm 0x04 0 [0x12, 0x13]] ∧ u.port.spdmVersion = true ∧ u.port.spdmAlgo = false) ∧
    (s.port.spdmVersion = true → answers .getCapabilities 0x61 0 0) ∧
    (s.port.spdmVersion = false → error .getCapabilities ∧ ∀ o, error (.negotiateAlgorithms o)) ∧
    (∀ o, s.port.spdmVersion = true → bitOf o 0 = true → Completes (.negotiateAlgorithms o) s fun u =>
      u.port.spdmAlgo = true ∧ u.out = s.out ++ [.spdm 0x63 0 [1]]) ∧
    (∀ o, bitOf o 0 = false → error (.negotiateAlgorithms o)) ∧
    (s.port.spdmAlgo = false →
      error .getDigests ∧ (∀ a b c, error (.getCertificate a b c)) ∧ (∀ a b, error (.challenge a b)) ∧
      (∀ i, error (.getMeasurements i)) ∧ ∀ a, error (.keyExchange a)) ∧
    (s.port.spdmAlgo = true →
      answers .getDigests 0x01 0 48 ∧
      (∀ off n, answers (.getCertificate 0 off n) 0x02 0 n) ∧ (∀ n, answers (.challenge 0 n) 0x03 0 128) ∧
      (∀ slot, slot ≠ 0 → (∀ off n, error (.getCertificate slot off n)) ∧ (∀ n, error (.challenge slot n)) ∧
        error (.keyExchange slot)) ∧
      (∀ i, 1 ≤ i → i ≤ 3 → (i = 2 → s.boot.fwReady = true) → answers (.getMeasurements i) 0x60 0 48) ∧
      (s.boot.fwReady = false → answers (.getMeasurements 2) 0x60 0 0) ∧
      (∀ i, i < 1 ∨ 3 < i → error (.getMeasurements i)) ∧
      (∀ n < 4, sfind? s.port.sessions n = none → (∀ j < n, sfind? s.port.sessions j ≠ none) →
        Completes (.keyExchange 0) s fun u =>
          sfind? u.port.sessions n = some 1 ∧ (∀ j, j ≠ n → sfind? u.port.sessions j = sfind? s.port.sessions j) ∧
          ∃ bs, u.out = s.out ++ [.spdm 0x64 n bs] ∧ bs.length = 96)) ∧
    ((∀ n < 4, sfind? s.port.sessions n ≠ none) → error (.keyExchange 0)) ∧
    ∀ n,
      (sfind? s.port.sessions n = some 1 →
        (Completes (.finish n true) s fun u =>
          sfind? u.port.sessions n = some 2 ∧ u.out = s.out ++ [.spdm 0x65 n []]) ∧
        Completes (.finish n false) s fun u =>
          sfind? u.port.sessions n = none ∧ u.out = s.out ++ [.spdm 0x7F 0 []]) ∧
      (∀ ok, sfind? s.port.sessions n ≠ some 1 → error (.finish n ok)) ∧
      (sfind? s.port.sessions n ≠ some 2 →
        error (.heartbeat n) ∧ error (.keyUpdate n) ∧ error (.endSession n) ∧ ∀ m, error (.ideKeyProgramming n m)) ∧
      (sfind? s.port.sessions n = some 2 →
        answers (.heartbeat n) 0x68 n 0 ∧ answers (.keyUpdate n) 0x69 n 0 ∧
        (Completes (.endSession n) s fun u =>
          sfind? u.port.sessions n = none ∧ u.out = s.out ++ [.spdm 0x6C n []]) ∧
        (exec (.ideKeyProgramming n true) s = .next (({ s with port := { s.port with ideMem := 1 } } : State).seal s)) ∧
        (s.port.busMaster = false → exec (.ideKeyProgramming n false) s =
          .next (({ s with port := { s.port with ideIo := 1 } } : State).seal s)))

/-! ### Berths -/

/-- R543 to R545, R549, R551, R553 to R555, R559, R565, R568: a berth as a link, and the hold of the access tables. -/
def Obligations.BerthLinks : Prop :=
  ∀ (s : State) (b : Nat), s.Live → let x := s.berth b
    let alone : Prop := x.out = [] ∧ ∀ c ∈ s.basin.copies, c.agent ≠ berthAgent b
    (b < s.fuses.variant.berths →
      (x.st = .off → Completes (.berthEnable b) s fun u =>
        (u.berth b).st = .training ∧ u.bit (brtReg b 0x00) 0 = true) ∧
      (x.st ≠ .off → exec (.berthEnable b) s = .next ((s.setBit (brtReg b 0x00) 0 true).seal s)) ∧
      (alone → x.st ≠ .safe → Completes (.berthDisable b) s fun u =>
        (u.berth b).st = .off ∧ (u.berth b).modules = 0 ∧ u.bit (brtReg b 0x00) 0 = false) ∧
      (alone → x.st = .active → Completes (.berthDrain b) s fun u =>
        (u.berth b).st = .draining ∧ u.bit (brtReg b 0x00) 3 = true ∧ u.basin = s.basin) ∧
      (∀ c, x.st = .active → s.basin.copies = [c] → c.agent = berthAgent b → c.st ≠ .m →
        s.bit (brtReg b 0x14) 0 = false → Completes (.berthDrain b) s fun u =>
          u.out = s.out ++ [.berthSnpInv b c.addr] ∧ u.basin.copies = [] ∧ (u.berth b).st = .draining) ∧
      (x.st = .drained → Completes (.berthUndrain b) s fun u =>
        (u.berth b).st = .active ∧ u.bit (brtReg b 0x00) 3 = false) ∧
      (x.st ≠ .drained → exec (.berthUndrain b) s = .next ((s.setBit (brtReg b 0x00) 3 false).seal s)) ∧
      (x.modules = 3 → x.st = .active → ∀ m < 2, Completes (.berthModuleFail b m) s fun u =>
        (u.berth b).st = .active ∧ (u.berth b).modules = 2 - m ∧ u.bit (brtReg b 0x10) 1 = true) ∧
      (∀ m < 2, x.modules = 2 ^ m → x.st = .active → alone → Completes (.berthModuleFail b m) s fun u =>
        (u.berth b).st = .down ∧ (u.berth b).modules = 0 ∧ u.bit (brtReg b 0x10) 1 = true) ∧
      exec (.brtInjCrc b) s = .next ((s.setReg (brtReg b 0x14) (s.reg (brtReg b 0x14) ||| 1)).seal s)) ∧
    (∀ m r v d, x.st = .training →
      (m % 4 ≠ 0 → exec (.berthTrainingDone b true m r v d) s = .next ((s.setBerth b
        { x with st := .active, modules := m % 4, rate := r, vendor := v, device := d }).seal s)) ∧
      exec (.berthTrainingDone b false m r v d) s = .next ((s.setBerth b { x with st := .down }).seal s)) ∧
    (x.st ≠ .training → ∀ ok m r v d, exec (.berthTrainingDone b ok m r v d) s = .next (s.seal s)) ∧
    (x.st = .active → alone → exec (.berthLinkDown b) s = .next ((s.setBerth b { x with st := .down }).seal s)) ∧
    (∀ c l, x.st = .active → x.out = [] → s.basin.copies = [c] → c.agent = berthAgent b → c.host = false → c.st = .m →
      s.basinLine false c.addr = some l → s.LogRoom → s.bit FLT_CTL 1 = false → Completes (.berthLinkDown b) s fun u =>
        (u.berth b).st = .down ∧ u.basin.copies = [] ∧ u.Logged 0x76 8 b ∧
        ∃ y, u.basinLine false c.addr = some y ∧ y.dirty = true ∧ markMask y.marks = 255) ∧
    (x.st = .draining → x.out = [] →
      exec (.berthDrainDone b) s = .next ((s.setBerth b { x with st := .drained }).seal s)) ∧
    (x.st ≠ .draining ∨ x.out ≠ [] → exec (.berthDrainDone b) s = .next (s.seal s)) ∧
    (∀ tag, (∀ o ∈ x.out, o.tag ≠ tag) →
      (∀ st bs p, exec (.berthCpl b tag st bs p) s = .next (s.seal s)) ∧
      exec (.berthMessageTimeout b tag) s = .next (s.seal s)) ∧
    (∀ o i, x.out = [o] → s.barge? o.tile o.barge = some i → (descOf i.desc).dstKind ≠ 6 →
      (∀ bs, o.read = true → bs.length = o.len → Completes (.berthCpl b o.tag 0 bs 0) s fun u =>
        (u.berth b).out = [] ∧ ∃ j, u.barge? o.tile o.barge = some j ∧ j.berthTags = i.berthTags.filter (· ≠ o.tag) ∧
          (∀ n < o.len, some (sget 0 j.berthData (o.off + n)) = bs[n]?) ∧
          ∀ n < o.len, sget false j.berthBad (o.off + n) = false) ∧
      (∀ st p, o.read = true → st ≠ 0 → Completes (.berthCpl b o.tag st [] p) s fun u =>
        ∃ j, u.barge? o.tile o.barge = some j ∧ ∀ n < o.len, sget false j.berthBad (o.off + n) = true) ∧
      (s.LogRoom → Completes (.berthMessageTimeout b o.tag) s fun u =>
        (u.berth b).out = [] ∧ u.Logged 0x75 8 b ∧ u.bit (brtReg b 0x10) 3 = true ∧
        ∃ j, u.barge? o.tile o.barge = some j ∧
          (o.read = true → ∀ n < o.len, sget false j.berthBad (o.off + n) = true))) ∧
    (Completes .actHoldSet s fun u =>
      u.bit ACT_CTL 0 = true ∧ ∀ off, ACT_RULE ≤ off → off < 0xAC48 → u.actReg off = s.actReg off) ∧
    Completes .actHoldClear s fun u =>
      u.bit ACT_CTL 0 = false ∧ u.actCopy = none ∧ ∀ off, u.actReg off = (u.reg off).toNat

/-- R546 to R552, R556 to R561: the messages and the cache requests of a berth. Bytes of a line that a berth owns are
free values of the model until it writes them back. -/
def Obligations.BerthRequests : Prop :=
  ∀ (s : State) (b : Nat) (m : BerthMsg), s.Live → let mid := MID_BERTH b
    let a := msgAddr m
    let n := 8 * m.len
    let on : Prop := (s.berth b).st = .active ∧ s.bit (brtReg b 0x00) 2 = true ∧ s.bit (brtReg b 0x14) 0 = false ∧
      s.basin.held = []
    let cpl (st : Nat) (bs : List Byte) (p : Nat) : Out := .berthCpl b m.tag st bs p
    ((s.berth b).st ≠ .active → ∀ c, c ∈ [Instr.berthWr b m, .berthRd b m, .berthAmo b m, .berthFence b m, .berthDb b m] →
      exec c s = .next (s.seal s)) ∧
    ((s.berth b).st = .active → s.bit (brtReg b 0x14) 0 = false → m.reservedSet = true →
      ∀ c, c ∈ [Instr.berthWr b m, .berthRd b m, .berthAmo b m, .berthFence b m, .berthDb b m] →
        Completes c s fun u =>
          u.out = s.out ++ [cpl 2 [] 0] ∧ u.bit (brtReg b 0x10) 2 = true ∧ u.hdm = s.hdm ∧ u.tiles = s.tiles) ∧
    ((s.berth b).st = .active → s.bit (brtReg b 0x14) 0 = false → s.bit (brtReg b 0x00) 2 = false → msgLegal m = true →
      ∀ c, c ∈ [Instr.berthWr b m, .berthRd b m, .berthFence b m] →
        exec c s = .next ((s.emit (cpl 1 [] 0)).seal s)) ∧
    (on → m.reservedSet = false →
      exec (.berthFence b m) s = .next ((s.emit (cpl 0 [] 0)).seal s) ∧
      (m.fn ≤ 8 → s.berthDbOk b m.fn = false → exec (.berthDb b m) s = .next ((s.emit (cpl 1 [] 0)).seal s)) ∧
      (m.fn ≤ 8 → s.berthDbOk b m.fn = true → s.port.ioOpen = true → let db := (s.ring (s.fld (brtReg b 0x08) 9 0) m.fn).db
        Completes (.berthDb b m) s fun u =>
          u.host.read db 4 = toLe 4 (bitsOf m.addr 31 0) ∧
          (∀ x, x < db ∨ db + 4 ≤ x → u.host.byte x = s.host.byte x) ∧
          u.out = s.out ++ [.ioWrite db 4, cpl 0 [] 0])) ∧
    (on → msgLegal m = true → msgSpace m = 0 →
      (s.hdmRefusal mid NEED_W a n = none → s.unbackedWrite a n = true →
        exec (.berthWr b m) s = .next ((s.emit (cpl 3 [] 0)).seal s)) ∧
      (s.hdmRefusal mid NEED_W a n ≠ none → Completes (.berthWr b m) s fun u => cpl 1 [] 0 ∈ u.out) ∧
      (m.len = 1 → a % 8 = 0 → m.data.length = 8 → m.poison = 0 → s.Uncached (lineOf a) → s.Backed (lineOf a) →
        s.Backed a → s.CleanLine (lineOf a) →
        (s.hdmRefusal mid NEED_W a n = none → s.unbackedWrite a n = false → Completes (.berthWr b m) s fun u =>
          s.HdmPut u a m.data ∧ u.out = s.out ++ [cpl 0 [] 0]) ∧
        (s.hdmRefusal mid NEED_R a n = none → Completes (.berthRd b m) s fun u =>
          u.out = s.out ++ [cpl 0 (s.hdm.read a 8) 0] ∧ u.hdm = s.hdm) ∧
        (m.fn ≤ 6 → s.hdmRefusal mid NEED_A a 8 = none → s.unbackedWrite a 8 = false → s.RoomFor (lineOf a) →
          Completes (.berthAmo b m) s fun u =>
            u.out = s.out ++ [cpl 0 (s.hdm.read a 8) 0] ∧
            (u.latestLine false (lineOf a)).data = putAt (s.hdm.read (lineOf a) 64) (a - lineOf a)
              (toLe 8 (atomicNew m.fn 64 (leNat (s.hdm.read a 8)) (leNat m.data) 0))))) ∧
    (on → msgLegal m = true → msgSpace m = 2 → ∀ t, s.msgHold m = some t → let h := msgHoldAddr m
      holdRange h n = true → h % 8 = 0 → (s.tile t).inject = none → m.data.length = n → m.poison = 0 →
      (s.actPass (tgtHold (bitsOf a 39 32)) mid NEED_W = true → Completes (.berthWr b m) s fun u =>
        (u.tile t).hold.read h n = m.data ∧
        (∀ x, x < h ∨ h + n ≤ x → (u.tile t).hold.byte x = (s.tile t).hold.byte x) ∧
        u.out = s.out ++ [cpl 0 [] 0]) ∧
      (s.actPass (tgtHold (bitsOf a 39 32)) mid NEED_R = true → (∀ x < n, (s.tile t).hold.mark (h + x) = 0) →
        exec (.berthRd b m) s = .next ((s.emit (cpl 0 ((s.tile t).hold.read h n) 0)).seal s))) ∧
    (∀ addr bs p, (s.berth b).st = .active → s.bit (brtReg b 0x14) 0 = false → s.streamWaits b 0 false = false →
      let la := lineOf addr
      let rsp (d : Option (List Byte)) : Out := .berthRsp b la false d false
      (s.bit (brtReg b 0x00) 1 = false → ∀ c, c ∈ [Instr.berthRdCurr b addr, .berthRdShared b addr, .berthRdOwn b addr,
          .berthRdOwnNoData b addr, .berthCleanEvict b addr, .berthCleanEvictNoData b addr, .berthDirtyEvict b addr bs p] →
        exec c s = .next ((s.emit (.berthRsp b la true none false)).seal s)) ∧
      (s.bit (brtReg b 0x00) 1 = true → b < 4 →
        (s.Uncached la → s.RoomFor la → s.Backed la → s.CleanLine la →
          (s.hdmRefusal mid NEED_R la 64 = none →
            (Completes (.berthRdCurr b addr) s fun u =>
              u.out = s.out ++ [rsp (some (s.hdm.read la 64))] ∧ u.basin = s.basin) ∧
            Completes (.berthRdShared b addr) s fun u =>
              u.out = s.out ++ [rsp (some (s.hdm.read la 64))] ∧
              ∃ c, u.copyOf (berthAgent b) false la = some c ∧ c.st = .e) ∧
          (s.hdmRefusal mid NEED_W la 64 = none →
            let owned (u : State) : Prop := ∃ c l, u.copyOf (berthAgent b) false la = some c ∧ c.st = .m ∧
              u.basinLine false la = some l ∧ l.owner = some (berthAgent b)
            (Completes (.berthRdOwn b addr) s fun u => u.out = s.out ++ [rsp (some (s.hdm.read la 64))] ∧ owned u) ∧
            Completes (.berthRdOwnNoData b addr) s fun u => u.out = s.out ++ [rsp none] ∧ owned u)) ∧
        (let gone (u : State) : Prop := u.out = s.out ++ [rsp none] ∧ u.copyOf (berthAgent b) false la = none
         (Completes (.berthCleanEvict b addr) s gone) ∧ (Completes (.berthCleanEvictNoData b addr) s gone) ∧
         ∀ c l, s.copyOf (berthAgent b) false la = some c → c.st ≠ .s → bs.length = 64 →
          s.basinLine false la = some l → (∀ y ∈ s.basin.copies, y.host = false → y.addr = la → y = c) →
          Completes (.berthDirtyEvict b addr bs p) s fun u =>
            gone u ∧ ∃ y, u.basinLine false la = some y ∧ y.data = bs ∧ y.dirty = true ∧ y.owner = none)))

/-! ### Power -/

/-- R571 to R575, R580, R583, R590, R591, R595: rail samples and the fast limits, leases, conservative mode and trips. -/
def Obligations.PowerCommands : Prop :=
  ∀ s : State,
    (s.Live →
      (∀ c m l, let w := s.power
        let samples := ((c, m, l) :: w.samples).take 8
        let sum := samples.foldl (fun a e => a + e.1 + e.2.1 + e.2.2) 0
        let n := samples.length
        (Completes (.railSample c m l) s fun u =>
          u.power.samples = samples ∧ u.power.sumC = w.sumC + c ∧ u.power.sumM = w.sumM + m ∧
          u.power.sumL = w.sumL + l ∧ u.power.count = w.count + 1) ∧
        (s.bit PWR_CTL 8 = false → Completes (.railSample c m l) s fun u => u.power.limits = w.limits) ∧
        (s.bit PWR_CTL 8 = true →
          (∀ x, 105 * s.cap * n < 100 * sum → 7 ≤ w.sinceEngage →
            (prioOrder w.prio).find? (fun c => !w.limits.contains c) = some x → Completes (.railSample c m l) s fun u =>
              u.power.limits = x :: w.limits ∧ u.power.sinceEngage = 0) ∧
          (∀ x rest, 100 * sum < 95 * s.cap * n → 7 ≤ w.sinceRelease → w.limits = x :: rest →
            Completes (.railSample c m l) s fun u => u.power.limits = rest ∧ u.power.sinceRelease = 0) ∧
          (100 * sum ≤ 105 * s.cap * n → 95 * s.cap * n ≤ 100 * sum → Completes (.railSample c m l) s fun u =>
            u.power.limits = w.limits))) ∧
      (Completes .fastLimitDisable s fun u =>
        u.power.limits = [] ∧ u.bit PWR_CTL 8 = false ∧ u.fld PWR_CTL 2 0 = s.fld PWR_CTL 2 0) ∧
      (∀ v : Reg, (bitsOf v.toNat 7 0 < bitsOf v.toNat 15 8 ∧ bitsOf v.toNat 15 8 < bitsOf v.toNat 23 16 →
          Completes (.pwrDroopWrite v) s fun u => u.fld PWR_DROOP 23 0 = bitsOf v.toNat 23 0 ∧ u.power = s.power) ∧
        (bitsOf v.toNat 15 8 ≤ bitsOf v.toNat 7 0 ∨ bitsOf v.toNat 23 16 ≤ bitsOf v.toNat 15 8 →
          exec (.pwrDroopWrite v) s = .next (s.seal s))) ∧
      (s.power.drv = none → exec (.leaseExpiry false) s = .next (s.seal s)) ∧
      (s.power.tow = none → exec (.leaseExpiry true) s = .next (s.seal s)) ∧
      (s.power.drv ≠ none → Completes (.leaseExpiry false) s fun u =>
        u.power = { s.power with drv := none } ∧ u.bit IRQ_PEND 5 = true) ∧
      (s.power.tow ≠ none → Completes (.leaseExpiry true) s fun u =>
        u.power = { s.power with tow := none } ∧ u.bit IRQ_PEND 5 = true) ∧
      (s.power.conservative = true ∨ s.power.divergeMet = false →
        exec .conservativeEntry s = .next (s.seal s)) ∧
      (s.power.conservative = false → s.power.divergeMet = true → s.LogRoom → Completes .conservativeEntry s fun u =>
        u.power.conservative = true ∧ u.power.divergeMet = false ∧ u.bit PWR_STAT 2 = true ∧ u.Logged 0x81 12 3 ∧
        u.power.factor = consFactor (s.power.ratio.getD (1, 1))) ∧
      (s.power.conservative = false ∨ s.power.agreeMet = false → exec .conservativeExit s = .next (s.seal s)) ∧
      (s.power.conservative = true → s.power.agreeMet = true → Completes .conservativeExit s fun u =>
        u.power.conservative = false ∧ u.power.agreeMet = false ∧ u.power.factor = (1, 1)) ∧
      ∀ k, let f := s.flight k
        let due := f.st = .moored ∧ f.powerMoored = true ∧ 4 ≤ f.countDecision.unmoored
        (due → exec (.powerMoorResume k) s = .next ((s.setFlight k { f with resumeOrder := true }).seal s)) ∧
        (¬due → exec (.powerMoorResume k) s = .next (s.seal s))) ∧
    (∀ js ps, s.tripped js ps = [] → exec (.thermalTrip js ps) s = .next (s.seal s)) ∧
    (∀ p x, s.fuses.reachActive p = true → 120 ≤ x → s.LogRoom → Completes (.thermalTrip [(p, x)] []) s fun u =>
      u.pins.thermtripOut = true ∧ u.pins.faultOut = true ∧ u.boot.safe = true ∧ u.Logged 0x82 13 p) ∧
    (∀ n x, s.fuses.stackFused n = true → 105 ≤ x → s.LogRoom → Completes (.thermalTrip [] [(n, x)]) s fun u =>
      u.pins.thermtripOut = true ∧ u.boot.safe = true ∧ (u.stack n).temp = x ∧ u.Logged 0x82 13 (16 + n))

/-- R319, R574, R643: the towpath's requests. The clocks of a reach with no bound tile are free values of the model. -/
def Obligations.TowpathRequests : Prop :=
  ∀ s : State,
    (∃ bs, exec .getStatus s = .next ((s.emit (.towpath 1 (if s.boot.safe then 3 else 0) bs)).seal s) ∧ bs.length = 20 ∧
      bs.take 8 = toLe 4 (s.glbView GLB_ID).toNat ++ toLe 4 (s.glbView GLB_STATUS).toNat ∧
      bs.drop 8 = toLe 1 (bnat s.boot.safe) ++ toLe 1 (bnat s.pins.thermtripOut) ++ [0, 0] ++ toLe 8 s.ww.pound) ∧
    (∃ bs, exec .getTemps s = .next ((s.emit (.towpath 3 (if s.boot.safe then 3 else 0) bs)).seal s) ∧ bs.length = 48 ∧
      (∀ p < 16, bs[p]? = some (BitVec.ofNat 8 (s.fld (PWR_REACH + 4 * p) 31 24))) ∧
      ∀ n < 32, bs[16 + n]? = some (BitVec.ofNat 8 (min 255 (s.stack n).temp))) ∧
    (let refused (c : Instr) (code : Nat) : Prop := exec c s = .next ((s.emit (.towpath code 2 [])).seal s)
     s.boot.fwReady = false ∨ s.boot.safe = true →
      refused .getClocks 2 ∧ refused .getLimits 4 ∧ refused .getPower 5 ∧ (∀ w d, refused (.setLease w d) 0x10) ∧
      refused .wwReset 0x11) ∧
    (s.boot.fwReady = true → s.Live →
      (Completes .getClocks s fun u => ∃ bs, u.out = s.out ++ [.towpath 2 0 bs] ∧ bs.length = 64 ∧
        ∀ p < 16,
          (s.fuses.reachActive p = false → (bs.drop (4 * p)).take 4 = [0, 0, 0, 0]) ∧
          (s.fuses.reachActive p = true → bs[4 * p]? = some (BitVec.ofNat 8 (s.ceil p))) ∧
          ∀ c cs, s.fuses.reachActive p = true → s.plannedClocks p = c :: cs →
            bs[4 * p + 1]? = some (BitVec.ofNat 8 (cs.foldl max c)) ∧
            bs[4 * p + 2]? = some (BitVec.ofNat 8 (cs.foldl min c))) ∧
      (s.power.drv = none → s.power.tow = none → exec .getLimits s = .next ((s.emit (.towpath 4 0
        (toLe 4 (s.reg PWR_THERM).toNat ++ toLe 2 (min 2400 (max 100 (s.fld PWR_FLOOR 11 0))) ++
          toLe 2 (s.fld PWR_BASE 11 0) ++ toLe 2 (s.fld PWR_CAP 11 0) ++ List.replicate 16 0))).seal s)) ∧
      (exec .getPower s = .next ((s.emit (.towpath 5 0 (toLe 2 (s.fld PWR_MEAS0 10 0) ++
        toLe 2 (s.fld PWR_MEAS0 26 16) ++ toLe 2 (s.fld PWR_MEAS1 10 0) ++ toLe 2 (s.fld PWR_MEAS1 27 16)))).seal s)) ∧
      (∀ w d, 100 ≤ w → w ≤ 2400 → 1 ≤ d → d < 2 ^ 32 → Completes (.setLease w d) s fun u =>
        u.power = { s.power with tow := some { watts := w, start := s.ww.time, dur := 1000 * d } } ∧
        u.bit IRQ_PEND 5 = true ∧ .towpath 0x10 0 [] ∈ u.out) ∧
      (∀ d, Completes (.setLease 0 d) s fun u =>
        u.power = { s.power with tow := none } ∧ .towpath 0x10 0 [] ∈ u.out) ∧
      (∀ w d, w ≠ 0 → w < 100 ∨ 2400 < w ∨ d = 0 ∨ 2 ^ 32 ≤ d →
        exec (.setLease w d) s = .next ((s.emit (.towpath 0x10 1 [])).seal s)) ∧
      Completes .wwReset s fun u =>
        u.out = s.out ++ [.towpath 0x11 0 []] ∧ (if s.gate.cut then u.gate.next else u.gate.own).reset = true)

/-! ### The fault collector -/

/-- R319, R599, R601, R603, R609 to R612, R615 to R619, R623 to R626: messages, the log, the counters, the pin, halts and
injections. The clauses on messages take a state with no ring command that a halt would end. -/
def Obligations.FaultCollector : Prop :=
  ∀ s : State, let calm : Prop := s.LogRoom ∧ s.waits = [] ∧ s.flt.ctxAborts = []
    (∀ m, calm → m.unit ≠ 10 →
      (m.cls ≤ 3 → s.flt.equal = true ∨ s.fld (FLT_CNT + 4 * m.kind) 7 0 = 0 →
        Completes (.faultMessageReceive m) s fun u =>
          u.bit FLT_STAT m.cls = true ∧ u.boot = s.boot ∧ (m.cls ≠ 1 → u.flt.counters = s.flt.counters) ∧
          ∃ e ∈ u.flt.log, e.2.msg = m ∧ e.2.pound = s.ww.pound ∧ e.2.off = s.ww.time - s.ww.lockTime ∧ e.2.esc = false) ∧
      (m.cls ≤ 1 → m.unit ≠ 11 → 1 ≤ m.count → s.flt.equal = false → s.fld (FLT_CNT + 4 * m.kind) 7 0 = 1 →
        Completes (.faultMessageReceive m) s fun u =>
          u.bit FLT_STAT 2 = true ∧
          (∀ c ∈ u.flt.counters, ¬(c.1 = countKey s m ∧ c.2.1 = m.kind)) ∧
          ∃ e ∈ u.flt.log, e.2.msg = { m with cls := 2 } ∧ e.2.esc = true) ∧
      (m.cls = 4 → Completes (.faultMessageReceive m) s fun u =>
        u.boot.safe = true ∧ u.pins.faultOut = true ∧ u.bit FLT_STAT 4 = true ∧ (s.Live → ∀ t, (u.tile t).running = false))) ∧
    exec .faultOutPulseEnd s = .next (({ s with pins := { s.pins with pulse := false } } : State).seal s) ∧
    (s.Live →
      (Completes .faultLogClear s fun u =>
        u.flt = { s.flt with log := [] } ∧ u.reg FLT_LOG_OVF = 0 ∧
        ∀ off, off ≠ FLT_LOG_OVF → u.reg off = s.reg off) ∧
      (let n := s.fld FLT_RING_LO 8 4
       (s.bit FLT_CTL 1 = false → 4 ≤ n → n ≤ 16 → Completes .faultRingEnable s fun u =>
         u.bit FLT_CTL 1 = true ∧ u.flt = { s.flt with ringCount := 0 }) ∧
       (s.bit FLT_CTL 1 = true ∨ n < 4 ∨ 16 < n → exec .faultRingEnable s = .next (s.seal s))) ∧
      (∀ kind (v : Reg),
        ((kindOf kind).isSome = true → Completes (.fltCntWrite kind v) s fun u =>
          u.fld (FLT_CNT + 4 * kind) 27 0 = bitsOf v.toNat 27 0 ∧
          u.flt.counters = s.flt.counters.filter (fun c => c.2.1 ≠ kind) ∧ u.flt.log = s.flt.log) ∧
        (kindOf kind = none → exec (.fltCntWrite kind v) s = .next (s.seal s))) ∧
      (Completes .fltWwReset s fun u =>
        u.bit FLT_RESET 31 = true ∧ (if s.gate.cut then u.gate.next else u.gate.own).reset = true) ∧
      (s.bit FLT_RESET 30 = true → exec .devHalt s = .next (s.seal s)) ∧
      (s.bit FLT_RESET 30 = false → calm → Completes .devHalt s fun u =>
        u.Logged 0x91 0 0 ∧ u.flt.halted = true ∧ u.bit FLT_RESET 30 = false ∧
        s.ww.index ∈ (if s.gate.cut then u.gate.next else u.gate.own).faultMap ∧
        ∀ c, ∀ r < 8, (s.ring c r).enable = true → (u.ring c r).mode = .stopped) ∧
      (∀ v : Reg, let tile := bitsOf v.toNat 8 0
        let target := bitsOf v.toNat 18 16
        (v.getLsbD 31 = false → Completes (.fltInjTile v) s fun u => u.tiles = s.tiles) ∧
        (v.getLsbD 31 = true → 6 < target ∨ 271 < tile ∨ (s.tile tile).st = .off → Completes (.fltInjTile v) s fun u =>
          u.tiles = s.tiles ∧ u.bit FLT_INJ_TILE 31 = false) ∧
        (v.getLsbD 31 = true → target ≤ 6 → tile ≤ 271 → (s.tile tile).st ≠ .off → Completes (.fltInjTile v) s fun u =>
          u.tile tile = { s.tile tile with inject := some target } ∧ u.bit FLT_INJ_TILE 31 = true ∧
          ∀ t, t ≠ tile → u.tile t = s.tile t)) ∧
      (∀ v : Reg, let k := bitsOf v.toNat 4 0
        let target := bitsOf v.toNat 9 8
        (v.getLsbD 31 = false → Completes (.fltInjLkp v) s fun u => u.lks = s.lks) ∧
        (v.getLsbD 31 = true → 2 < target ∨ 23 < k → Completes (.fltInjLkp v) s fun u =>
          u.lks = s.lks ∧ u.bit FLT_INJ_LKP 31 = false) ∧
        (v.getLsbD 31 = true → target ≤ 2 → k ≤ 23 → Completes (.fltInjLkp v) s fun u =>
          u.lk k = { s.lk k with inject := some target } ∧ u.bit FLT_INJ_LKP 31 = true ∧
          ∀ j, j ≠ k → u.lk j = s.lk j)) ∧
      ∀ v : Reg, let cls := bitsOf v.toNat 26 24
        let kind := bitsOf v.toNat 23 16
        let unit := bitsOf v.toNat 15 10
        (v.getLsbD 31 = false → Completes (.fltInjMsg v) s fun u => u.flt = s.flt) ∧
        (v.getLsbD 31 = true → 3 < cls ∨ kindOf kind = none → Completes (.fltInjMsg v) s fun u =>
          u.flt = s.flt ∧ u.bit FLT_STAT 10 = true ∧ u.bit FLT_INJ_MSG 31 = false) ∧
        (v.getLsbD 31 = true → cls ≤ 3 → (kindOf kind).isSome = true → calm → unit ≠ 10 →
          s.fld (FLT_CNT + 4 * kind) 7 0 = 0 → Completes (.fltInjMsg v) s fun u =>
            u.bit FLT_INJ_MSG 31 = false ∧ ∃ e ∈ u.flt.log, e.2.msg.kind = kind ∧ e.2.msg.cls = cls ∧
              e.2.msg.unit = unit ∧ e.2.msg.inst = bitsOf v.toNat 9 0 ∧ e.2.msg.inj = true))
end

