-- ==== Sys2Proof/Laws/Tables.lean ====
section
/-! SUPPORT. What the sparse tables and the byte memories do: a read after a write, and the canonical form that every
memory operation keeps. -/

namespace Sys2Proof.Machine

/-! ### Reads after writes -/

@[simp] theorem sget_nil {α : Type} (d : α) (k : Nat) : sget d ([] : SMap α) k = d := rfl

theorem sget_sput {α : Type} (d : α) (k : Nat) (v : α) (m : SMap α) (j : Nat) :
    sget d (sput k v m) j = if k = j then v else sget d m j := by
  induction m with
  | nil => simp [sput, sget]
  | cons e m ih =>
    obtain ⟨k', v'⟩ := e
    simp only [sput]
    split
    · simp [sget]
    · split
      · subst_vars; simp only [sget]; split <;> rfl
      · simp only [sget, ih]; split <;> split <;> simp_all

theorem sget_sdel {α : Type} (d : α) (k : Nat) (m : SMap α) (j : Nat) :
    sget d (sdel k m) j = if k = j then d else sget d m j := by
  induction m with
  | nil => simp [sdel]
  | cons e m ih =>
    obtain ⟨k', v'⟩ := e
    simp only [sdel]
    split
    · subst_vars; rw [ih]; simp only [sget]; split <;> simp_all
    · simp only [sget, ih]; split <;> split <;> simp_all

theorem sget_sset {α : Type} [DecidableEq α] (d : α) (k : Nat) (v : α) (m : SMap α) (j : Nat) :
    sget d (sset d k v m) j = if k = j then v else sget d m j := by
  unfold sset
  split
  · rename_i h; rw [sget_sdel, h]
  · rw [sget_sput]

@[simp] theorem sget_sset_self {α : Type} [DecidableEq α] (d : α) (k : Nat) (v : α) (m : SMap α) :
    sget d (sset d k v m) k = v := by simp [sget_sset]

theorem sget_sset_of_ne {α : Type} [DecidableEq α] {d : α} {k j : Nat} (h : k ≠ j) (v : α) (m : SMap α) :
    sget d (sset d k v m) j = sget d m j := by simp [sget_sset, h]

/-- The same for a table whose default depends on the key. -/
theorem sget_sset_dep {α : Type} [DecidableEq α] (D : Nat → α) (k : Nat) (v : α) (m : SMap α) (j : Nat) :
    sget (D j) (sset (D k) k v m) j = if k = j then v else sget (D j) m j := by
  unfold sset
  by_cases h : k = j
  · subst h
    rw [if_pos rfl]
    split
    · rename_i hv; rw [sget_sdel, if_pos rfl, hv]
    · rw [sget_sput, if_pos rfl]
  · rw [if_neg h]
    split
    · rw [sget_sdel, if_neg h]
    · rw [sget_sput, if_neg h]

/-- A table read with another default: a key that is written reads as written where the value is not the default. -/
theorem sfind_sput {α : Type} (k : Nat) (v : α) (m : SMap α) (j : Nat) :
    sfind? (sput k v m) j = if k = j then some v else sfind? m j := by
  induction m with
  | nil => simp [sput, sfind?]
  | cons e m ih =>
    obtain ⟨k', v'⟩ := e
    simp only [sput]
    split
    · simp [sfind?]
    · split
      · subst_vars; simp only [sfind?]; split <;> rfl
      · simp only [sfind?, ih]; split <;> split <;> simp_all

/-! ### The canonical form of a table -/

/-- Every key of a table lies above a bound. -/
def sabove {α : Type} (b : Nat) (m : SMap α) : Prop := ∀ e ∈ m, b < e.1

theorem swf_cons {α : Type} [DecidableEq α] (d : α) (k : Nat) (v : α) (m : SMap α) :
    swf d ((k, v) :: m) = true ↔ v ≠ d ∧ sabove k m ∧ swf d m = true := by
  induction m generalizing k v with
  | nil => simp [swf, sabove]
  | cons e m ih =>
    obtain ⟨k', v'⟩ := e
    have h := ih k' v'
    simp only [swf, Bool.and_eq_true, decide_eq_true_eq]
    constructor
    · rintro ⟨⟨h1, h2⟩, h3⟩
      refine ⟨h1, ?_, h3⟩
      intro e he
      rcases List.mem_cons.1 he with rfl | he
      · exact h2
      · exact Nat.lt_trans h2 ((h.1 h3).2.1 e he)
    · rintro ⟨h1, h2, h3⟩
      exact ⟨⟨h1, h2 (k', v') (List.mem_cons_self ..)⟩, h3⟩

theorem sabove_sput {α : Type} {b k : Nat} (v : α) {m : SMap α} (hb : b < k) (h : sabove b m) :
    sabove b (sput k v m) := by
  induction m with
  | nil => intro e he; simp [sput] at he; subst he; exact hb
  | cons e m ih =>
    obtain ⟨k', v'⟩ := e
    have h2 : sabove b m := fun x hx => h x (List.mem_cons_of_mem _ hx)
    have h1 : b < k' := h (k', v') (List.mem_cons_self ..)
    simp only [sput]
    split
    · intro x hx
      rcases List.mem_cons.1 hx with rfl | hx
      · exact hb
      · exact h x hx
    · split
      · intro x hx
        rcases List.mem_cons.1 hx with rfl | hx
        · exact hb
        · exact h2 x hx
      · intro x hx
        rcases List.mem_cons.1 hx with rfl | hx
        · exact h1
        · exact ih h2 x hx

theorem sabove_sdel {α : Type} {b : Nat} (k : Nat) {m : SMap α} (h : sabove b m) : sabove b (sdel k m) := by
  induction m with
  | nil => exact h
  | cons e m ih =>
    obtain ⟨k', v'⟩ := e
    have h2 : sabove b m := fun x hx => h x (List.mem_cons_of_mem _ hx)
    simp only [sdel]
    split
    · exact ih h2
    · intro x hx
      rcases List.mem_cons.1 hx with rfl | hx
      · exact h (k', v') (List.mem_cons_self ..)
      · exact ih h2 x hx

theorem swf_sput {α : Type} [DecidableEq α] {d : α} {k : Nat} {v : α} {m : SMap α} (hv : v ≠ d)
    (h : swf d m = true) : swf d (sput k v m) = true := by
  induction m with
  | nil => simp [sput, swf, hv]
  | cons e m ih =>
    obtain ⟨k', v'⟩ := e
    have h' := (swf_cons d k' v' m).1 h
    simp only [sput]
    split
    · rename_i hlt
      refine (swf_cons ..).2 ⟨hv, ?_, h⟩
      intro x hx
      rcases List.mem_cons.1 hx with rfl | hx
      · exact hlt
      · exact Nat.lt_trans hlt (h'.2.1 x hx)
    · split
      · rename_i heq; subst heq; exact (swf_cons ..).2 ⟨hv, h'.2.1, h'.2.2⟩
      · exact (swf_cons ..).2 ⟨h'.1, sabove_sput v (by omega) h'.2.1, ih h'.2.2⟩

theorem swf_sdel {α : Type} [DecidableEq α] {d : α} (k : Nat) {m : SMap α} (h : swf d m = true) :
    swf d (sdel k m) = true := by
  induction m with
  | nil => rfl
  | cons e m ih =>
    obtain ⟨k', v'⟩ := e
    have h' := (swf_cons d k' v' m).1 h
    simp only [sdel]
    split
    · exact ih h'.2.2
    · exact (swf_cons ..).2 ⟨h'.1, sabove_sdel k h'.2.1, ih h'.2.2⟩

theorem swf_sset {α : Type} [DecidableEq α] {d : α} (k : Nat) (v : α) {m : SMap α} (h : swf d m = true) :
    swf d (sset d k v m) = true := by
  unfold sset
  split
  · exact swf_sdel k h
  · rename_i hv; exact swf_sput hv h

/-! ### Byte memories -/

theorem Ram.byte_setByte (m : Ram) (a : Nat) (b : Byte) (x : Nat) :
    (m.setByte a b).byte x = if a = x then b else m.byte x := by
  simp [Ram.byte, Ram.setByte, sget_sset]

@[simp] theorem Ram.byte_setMark (m : Ram) (a k x : Nat) : (m.setMark a k).byte x = m.byte x := rfl

@[simp] theorem Ram.mark_setByte (m : Ram) (a : Nat) (b : Byte) (x : Nat) : (m.setByte a b).mark x = m.mark x := rfl

theorem Ram.mark_setMark (m : Ram) (a k x : Nat) :
    (m.setMark a k).mark x = if a / 8 = x / 8 then k else m.mark x := by
  simp [Ram.mark, Ram.setMark, sget_sset]

/-- Every byte outside the written ones reads as before, and each written one as written. -/
theorem Ram.byte_write (m : Ram) (a : Nat) (bs : List Byte) (x : Nat) :
    (m.write a bs).byte x = if a ≤ x ∧ x < a + bs.length then bs.getD (x - a) 0 else m.byte x := by
  induction bs generalizing m a with
  | nil => simp [Ram.write]
  | cons b bs ih =>
    rw [Ram.write, ih, Ram.byte_setByte]
    by_cases h : a = x
    · subst h
      have h1 : ¬ (a + 1 ≤ a ∧ a < a + 1 + bs.length) := by omega
      have h2 : a ≤ a ∧ a < a + (b :: bs).length := ⟨Nat.le_refl _, by simp⟩
      rw [if_neg h1, if_pos h2]; simp
    · rw [if_neg h]
      by_cases h1 : a + 1 ≤ x ∧ x < a + 1 + bs.length
      · have h2 : a ≤ x ∧ x < a + (b :: bs).length := ⟨by omega, by simp only [List.length_cons]; omega⟩
        rw [if_pos h1, if_pos h2]
        have h3 : x - a = (x - (a + 1)) + 1 := by omega
        rw [h3]; simp
      · have h2 : ¬ (a ≤ x ∧ x < a + (b :: bs).length) := by simp only [List.length_cons]; omega
        rw [if_neg h1, if_neg h2]

/-- The marking of a store changes no byte. -/
theorem Ram.byte_foldl_marks (f : Ram → Nat → Ram) (hf : ∀ r w x, (f r w).byte x = r.byte x) (ws : List Nat)
    (r : Ram) (x : Nat) : (ws.foldl f r).byte x = r.byte x := by
  induction ws generalizing r with
  | nil => rfl
  | cons w ws ih => rw [List.foldl_cons, ih, hf]

/-- What a store does to the bytes. -/
theorem Ram.byte_store (m : Ram) (a : Nat) (bs : List Byte) (poison : Bool) (x : Nat) :
    (m.store a bs poison).byte x = if a ≤ x ∧ x < a + bs.length then bs.getD (x - a) 0 else m.byte x := by
  rw [Ram.store, Ram.byte_foldl_marks, Ram.byte_write]
  intro r w x
  repeat' split
  all_goals rfl

theorem Ram.read_eq (m : Ram) (a n : Nat) : m.read a n = (List.range n).map fun i => m.byte (a + i) := by
  induction n generalizing a with
  | zero => rfl
  | succ n ih =>
    rw [Ram.read, ih, List.range_succ_eq_map, List.map_cons, List.map_map]
    simp only [Function.comp_def, Nat.add_zero, List.cons.injEq, true_and]
    refine List.map_congr_left fun i _ => ?_
    rw [Nat.add_assoc, Nat.add_comm 1 i]

/-- A read of the bytes just stored gives them. -/
theorem Ram.read_store (m : Ram) (a : Nat) (bs : List Byte) (poison : Bool) :
    (m.store a bs poison).read a bs.length = bs := by
  rw [Ram.read_eq]
  apply List.ext_getElem
  · simp
  · intro i h1 h2
    simp only [List.length_map, List.length_range] at h1
    simp [Ram.byte_store, h1]

/-! ### The canonical form of a memory -/

theorem Ram.wf_setByte {m : Ram} (h : m.wf = true) (a : Nat) (b : Byte) : (m.setByte a b).wf = true := by
  simp only [Ram.wf, Bool.and_eq_true] at *
  exact ⟨swf_sset a b h.1, h.2⟩

theorem Ram.wf_setMark {m : Ram} (h : m.wf = true) (a k : Nat) : (m.setMark a k).wf = true := by
  simp only [Ram.wf, Bool.and_eq_true] at *
  exact ⟨h.1, swf_sset _ k h.2⟩

theorem Ram.wf_write {m : Ram} (h : m.wf = true) (a : Nat) (bs : List Byte) : (m.write a bs).wf = true := by
  induction bs generalizing m a with
  | nil => exact h
  | cons b bs ih => exact ih (Ram.wf_setByte h a b) (a + 1)

theorem Ram.wf_foldl (f : Ram → Nat → Ram) (hf : ∀ r w, r.wf = true → (f r w).wf = true) (ws : List Nat) (r : Ram)
    (h : r.wf = true) : (ws.foldl f r).wf = true := by
  induction ws generalizing r with
  | nil => exact h
  | cons w ws ih => exact ih _ (hf r w h)

theorem Ram.wf_markRange {m : Ram} (h : m.wf = true) (a n k : Nat) : (m.markRange a n k).wf = true :=
  Ram.wf_foldl _ (fun _ _ hr => Ram.wf_setMark hr _ _) _ _ h

theorem Ram.wf_store {m : Ram} (h : m.wf = true) (a : Nat) (bs : List Byte) (poison : Bool) :
    (m.store a bs poison).wf = true := by
  rw [Ram.store]
  refine Ram.wf_foldl _ ?_ _ _ (Ram.wf_write h a bs)
  intro r w hr
  repeat' split
  all_goals exact Ram.wf_setMark hr _ _

theorem Ram.wf_empty : (({} : Ram)).wf = true := rfl

end Sys2Proof.Machine
end

