-- ==== Sys2Proof/Laws/State.lean ====
section
/-! SUPPORT. One lemma per field per update of the state, each true by rfl, and what a unit reads as after an update of
one. -/

namespace Sys2Proof.Machine

/-! ### setReach -/

@[simp] theorem State.setReach_pending (s : State) (p : Nat) (r : Reach) : (s.setReach p r).pending = s.pending := rfl
@[simp] theorem State.setReach_fresh (s : State) (p : Nat) (r : Reach) : (s.setReach p r).fresh = s.fresh := rfl
@[simp] theorem State.setReach_fuses (s : State) (p : Nat) (r : Reach) : (s.setReach p r).fuses = s.fuses := rfl
@[simp] theorem State.setReach_pins (s : State) (p : Nat) (r : Reach) : (s.setReach p r).pins = s.pins := rfl
@[simp] theorem State.setReach_boot (s : State) (p : Nat) (r : Reach) : (s.setReach p r).boot = s.boot := rfl
@[simp] theorem State.setReach_regs (s : State) (p : Nat) (r : Reach) : (s.setReach p r).regs = s.regs := rfl
@[simp] theorem State.setReach_ww (s : State) (p : Nat) (r : Reach) : (s.setReach p r).ww = s.ww := rfl
@[simp] theorem State.setReach_gate (s : State) (p : Nat) (r : Reach) : (s.setReach p r).gate = s.gate := rfl
@[simp] theorem State.setReach_musters (s : State) (p : Nat) (r : Reach) : (s.setReach p r).musters = s.musters := rfl
@[simp] theorem State.setReach_tiles (s : State) (p : Nat) (r : Reach) : (s.setReach p r).tiles = s.tiles := rfl
@[simp] theorem State.setReach_flights (s : State) (p : Nat) (r : Reach) : (s.setReach p r).flights = s.flights := rfl
@[simp] theorem State.setReach_contexts (s : State) (p : Nat) (r : Reach) : (s.setReach p r).contexts = s.contexts := rfl
@[simp] theorem State.setReach_waits (s : State) (p : Nat) (r : Reach) : (s.setReach p r).waits = s.waits := rfl
@[simp] theorem State.setReach_canals (s : State) (p : Nat) (r : Reach) : (s.setReach p r).canals = s.canals := rfl
@[simp] theorem State.setReach_tickets (s : State) (p : Nat) (r : Reach) : (s.setReach p r).tickets = s.tickets := rfl
@[simp] theorem State.setReach_remote (s : State) (p : Nat) (r : Reach) : (s.setReach p r).remote = s.remote := rfl
@[simp] theorem State.setReach_stk (s : State) (p : Nat) (r : Reach) : (s.setReach p r).stk = s.stk := rfl
@[simp] theorem State.setReach_basin (s : State) (p : Nat) (r : Reach) : (s.setReach p r).basin = s.basin := rfl
@[simp] theorem State.setReach_lks (s : State) (p : Nat) (r : Reach) : (s.setReach p r).lks = s.lks := rfl
@[simp] theorem State.setReach_port (s : State) (p : Nat) (r : Reach) : (s.setReach p r).port = s.port := rfl
@[simp] theorem State.setReach_berths (s : State) (p : Nat) (r : Reach) : (s.setReach p r).berths = s.berths := rfl
@[simp] theorem State.setReach_power (s : State) (p : Nat) (r : Reach) : (s.setReach p r).power = s.power := rfl
@[simp] theorem State.setReach_flt (s : State) (p : Nat) (r : Reach) : (s.setReach p r).flt = s.flt := rfl
@[simp] theorem State.setReach_xlt (s : State) (p : Nat) (r : Reach) : (s.setReach p r).xlt = s.xlt := rfl
@[simp] theorem State.setReach_hdm (s : State) (p : Nat) (r : Reach) : (s.setReach p r).hdm = s.hdm := rfl
@[simp] theorem State.setReach_host (s : State) (p : Nat) (r : Reach) : (s.setReach p r).host = s.host := rfl
@[simp] theorem State.setReach_actCopy (s : State) (p : Nat) (r : Reach) : (s.setReach p r).actCopy = s.actCopy := rfl
@[simp] theorem State.setReach_out (s : State) (p : Nat) (r : Reach) : (s.setReach p r).out = s.out := rfl

/-! ### setTile -/

@[simp] theorem State.setTile_pending (s : State) (t : Nat) (x : Tile) : (s.setTile t x).pending = s.pending := rfl
@[simp] theorem State.setTile_fresh (s : State) (t : Nat) (x : Tile) : (s.setTile t x).fresh = s.fresh := rfl
@[simp] theorem State.setTile_fuses (s : State) (t : Nat) (x : Tile) : (s.setTile t x).fuses = s.fuses := rfl
@[simp] theorem State.setTile_pins (s : State) (t : Nat) (x : Tile) : (s.setTile t x).pins = s.pins := rfl
@[simp] theorem State.setTile_boot (s : State) (t : Nat) (x : Tile) : (s.setTile t x).boot = s.boot := rfl
@[simp] theorem State.setTile_regs (s : State) (t : Nat) (x : Tile) : (s.setTile t x).regs = s.regs := rfl
@[simp] theorem State.setTile_ww (s : State) (t : Nat) (x : Tile) : (s.setTile t x).ww = s.ww := rfl
@[simp] theorem State.setTile_gate (s : State) (t : Nat) (x : Tile) : (s.setTile t x).gate = s.gate := rfl
@[simp] theorem State.setTile_musters (s : State) (t : Nat) (x : Tile) : (s.setTile t x).musters = s.musters := rfl
@[simp] theorem State.setTile_reaches (s : State) (t : Nat) (x : Tile) : (s.setTile t x).reaches = s.reaches := rfl
@[simp] theorem State.setTile_flights (s : State) (t : Nat) (x : Tile) : (s.setTile t x).flights = s.flights := rfl
@[simp] theorem State.setTile_contexts (s : State) (t : Nat) (x : Tile) : (s.setTile t x).contexts = s.contexts := rfl
@[simp] theorem State.setTile_waits (s : State) (t : Nat) (x : Tile) : (s.setTile t x).waits = s.waits := rfl
@[simp] theorem State.setTile_canals (s : State) (t : Nat) (x : Tile) : (s.setTile t x).canals = s.canals := rfl
@[simp] theorem State.setTile_tickets (s : State) (t : Nat) (x : Tile) : (s.setTile t x).tickets = s.tickets := rfl
@[simp] theorem State.setTile_remote (s : State) (t : Nat) (x : Tile) : (s.setTile t x).remote = s.remote := rfl
@[simp] theorem State.setTile_stk (s : State) (t : Nat) (x : Tile) : (s.setTile t x).stk = s.stk := rfl
@[simp] theorem State.setTile_basin (s : State) (t : Nat) (x : Tile) : (s.setTile t x).basin = s.basin := rfl
@[simp] theorem State.setTile_lks (s : State) (t : Nat) (x : Tile) : (s.setTile t x).lks = s.lks := rfl
@[simp] theorem State.setTile_port (s : State) (t : Nat) (x : Tile) : (s.setTile t x).port = s.port := rfl
@[simp] theorem State.setTile_berths (s : State) (t : Nat) (x : Tile) : (s.setTile t x).berths = s.berths := rfl
@[simp] theorem State.setTile_power (s : State) (t : Nat) (x : Tile) : (s.setTile t x).power = s.power := rfl
@[simp] theorem State.setTile_flt (s : State) (t : Nat) (x : Tile) : (s.setTile t x).flt = s.flt := rfl
@[simp] theorem State.setTile_xlt (s : State) (t : Nat) (x : Tile) : (s.setTile t x).xlt = s.xlt := rfl
@[simp] theorem State.setTile_hdm (s : State) (t : Nat) (x : Tile) : (s.setTile t x).hdm = s.hdm := rfl
@[simp] theorem State.setTile_host (s : State) (t : Nat) (x : Tile) : (s.setTile t x).host = s.host := rfl
@[simp] theorem State.setTile_actCopy (s : State) (t : Nat) (x : Tile) : (s.setTile t x).actCopy = s.actCopy := rfl
@[simp] theorem State.setTile_out (s : State) (t : Nat) (x : Tile) : (s.setTile t x).out = s.out := rfl

/-! ### modTile -/

@[simp] theorem State.modTile_pending (s : State) (t : Nat) (f : Tile → Tile) : (s.modTile t f).pending = s.pending := rfl
@[simp] theorem State.modTile_fresh (s : State) (t : Nat) (f : Tile → Tile) : (s.modTile t f).fresh = s.fresh := rfl
@[simp] theorem State.modTile_fuses (s : State) (t : Nat) (f : Tile → Tile) : (s.modTile t f).fuses = s.fuses := rfl
@[simp] theorem State.modTile_pins (s : State) (t : Nat) (f : Tile → Tile) : (s.modTile t f).pins = s.pins := rfl
@[simp] theorem State.modTile_boot (s : State) (t : Nat) (f : Tile → Tile) : (s.modTile t f).boot = s.boot := rfl
@[simp] theorem State.modTile_regs (s : State) (t : Nat) (f : Tile → Tile) : (s.modTile t f).regs = s.regs := rfl
@[simp] theorem State.modTile_ww (s : State) (t : Nat) (f : Tile → Tile) : (s.modTile t f).ww = s.ww := rfl
@[simp] theorem State.modTile_gate (s : State) (t : Nat) (f : Tile → Tile) : (s.modTile t f).gate = s.gate := rfl
@[simp] theorem State.modTile_musters (s : State) (t : Nat) (f : Tile → Tile) : (s.modTile t f).musters = s.musters := rfl
@[simp] theorem State.modTile_reaches (s : State) (t : Nat) (f : Tile → Tile) : (s.modTile t f).reaches = s.reaches := rfl
@[simp] theorem State.modTile_flights (s : State) (t : Nat) (f : Tile → Tile) : (s.modTile t f).flights = s.flights := rfl
@[simp] theorem State.modTile_contexts (s : State) (t : Nat) (f : Tile → Tile) : (s.modTile t f).contexts = s.contexts := rfl
@[simp] theorem State.modTile_waits (s : State) (t : Nat) (f : Tile → Tile) : (s.modTile t f).waits = s.waits := rfl
@[simp] theorem State.modTile_canals (s : State) (t : Nat) (f : Tile → Tile) : (s.modTile t f).canals = s.canals := rfl
@[simp] theorem State.modTile_tickets (s : State) (t : Nat) (f : Tile → Tile) : (s.modTile t f).tickets = s.tickets := rfl
@[simp] theorem State.modTile_remote (s : State) (t : Nat) (f : Tile → Tile) : (s.modTile t f).remote = s.remote := rfl
@[simp] theorem State.modTile_stk (s : State) (t : Nat) (f : Tile → Tile) : (s.modTile t f).stk = s.stk := rfl
@[simp] theorem State.modTile_basin (s : State) (t : Nat) (f : Tile → Tile) : (s.modTile t f).basin = s.basin := rfl
@[simp] theorem State.modTile_lks (s : State) (t : Nat) (f : Tile → Tile) : (s.modTile t f).lks = s.lks := rfl
@[simp] theorem State.modTile_port (s : State) (t : Nat) (f : Tile → Tile) : (s.modTile t f).port = s.port := rfl
@[simp] theorem State.modTile_berths (s : State) (t : Nat) (f : Tile → Tile) : (s.modTile t f).berths = s.berths := rfl
@[simp] theorem State.modTile_power (s : State) (t : Nat) (f : Tile → Tile) : (s.modTile t f).power = s.power := rfl
@[simp] theorem State.modTile_flt (s : State) (t : Nat) (f : Tile → Tile) : (s.modTile t f).flt = s.flt := rfl
@[simp] theorem State.modTile_xlt (s : State) (t : Nat) (f : Tile → Tile) : (s.modTile t f).xlt = s.xlt := rfl
@[simp] theorem State.modTile_hdm (s : State) (t : Nat) (f : Tile → Tile) : (s.modTile t f).hdm = s.hdm := rfl
@[simp] theorem State.modTile_host (s : State) (t : Nat) (f : Tile → Tile) : (s.modTile t f).host = s.host := rfl
@[simp] theorem State.modTile_actCopy (s : State) (t : Nat) (f : Tile → Tile) : (s.modTile t f).actCopy = s.actCopy := rfl
@[simp] theorem State.modTile_out (s : State) (t : Nat) (f : Tile → Tile) : (s.modTile t f).out = s.out := rfl

/-! ### setFlight -/

@[simp] theorem State.setFlight_pending (s : State) (k : Nat) (x : Flight) : (s.setFlight k x).pending = s.pending := rfl
@[simp] theorem State.setFlight_fresh (s : State) (k : Nat) (x : Flight) : (s.setFlight k x).fresh = s.fresh := rfl
@[simp] theorem State.setFlight_fuses (s : State) (k : Nat) (x : Flight) : (s.setFlight k x).fuses = s.fuses := rfl
@[simp] theorem State.setFlight_pins (s : State) (k : Nat) (x : Flight) : (s.setFlight k x).pins = s.pins := rfl
@[simp] theorem State.setFlight_boot (s : State) (k : Nat) (x : Flight) : (s.setFlight k x).boot = s.boot := rfl
@[simp] theorem State.setFlight_regs (s : State) (k : Nat) (x : Flight) : (s.setFlight k x).regs = s.regs := rfl
@[simp] theorem State.setFlight_ww (s : State) (k : Nat) (x : Flight) : (s.setFlight k x).ww = s.ww := rfl
@[simp] theorem State.setFlight_gate (s : State) (k : Nat) (x : Flight) : (s.setFlight k x).gate = s.gate := rfl
@[simp] theorem State.setFlight_musters (s : State) (k : Nat) (x : Flight) : (s.setFlight k x).musters = s.musters := rfl
@[simp] theorem State.setFlight_tiles (s : State) (k : Nat) (x : Flight) : (s.setFlight k x).tiles = s.tiles := rfl
@[simp] theorem State.setFlight_reaches (s : State) (k : Nat) (x : Flight) : (s.setFlight k x).reaches = s.reaches := rfl
@[simp] theorem State.setFlight_contexts (s : State) (k : Nat) (x : Flight) : (s.setFlight k x).contexts = s.contexts := rfl
@[simp] theorem State.setFlight_waits (s : State) (k : Nat) (x : Flight) : (s.setFlight k x).waits = s.waits := rfl
@[simp] theorem State.setFlight_canals (s : State) (k : Nat) (x : Flight) : (s.setFlight k x).canals = s.canals := rfl
@[simp] theorem State.setFlight_tickets (s : State) (k : Nat) (x : Flight) : (s.setFlight k x).tickets = s.tickets := rfl
@[simp] theorem State.setFlight_remote (s : State) (k : Nat) (x : Flight) : (s.setFlight k x).remote = s.remote := rfl
@[simp] theorem State.setFlight_stk (s : State) (k : Nat) (x : Flight) : (s.setFlight k x).stk = s.stk := rfl
@[simp] theorem State.setFlight_basin (s : State) (k : Nat) (x : Flight) : (s.setFlight k x).basin = s.basin := rfl
@[simp] theorem State.setFlight_lks (s : State) (k : Nat) (x : Flight) : (s.setFlight k x).lks = s.lks := rfl
@[simp] theorem State.setFlight_port (s : State) (k : Nat) (x : Flight) : (s.setFlight k x).port = s.port := rfl
@[simp] theorem State.setFlight_berths (s : State) (k : Nat) (x : Flight) : (s.setFlight k x).berths = s.berths := rfl
@[simp] theorem State.setFlight_power (s : State) (k : Nat) (x : Flight) : (s.setFlight k x).power = s.power := rfl
@[simp] theorem State.setFlight_flt (s : State) (k : Nat) (x : Flight) : (s.setFlight k x).flt = s.flt := rfl
@[simp] theorem State.setFlight_xlt (s : State) (k : Nat) (x : Flight) : (s.setFlight k x).xlt = s.xlt := rfl
@[simp] theorem State.setFlight_hdm (s : State) (k : Nat) (x : Flight) : (s.setFlight k x).hdm = s.hdm := rfl
@[simp] theorem State.setFlight_host (s : State) (k : Nat) (x : Flight) : (s.setFlight k x).host = s.host := rfl
@[simp] theorem State.setFlight_actCopy (s : State) (k : Nat) (x : Flight) : (s.setFlight k x).actCopy = s.actCopy := rfl
@[simp] theorem State.setFlight_out (s : State) (k : Nat) (x : Flight) : (s.setFlight k x).out = s.out := rfl

/-! ### modFlight -/

@[simp] theorem State.modFlight_pending (s : State) (k : Nat) (f : Flight → Flight) : (s.modFlight k f).pending = s.pending := rfl
@[simp] theorem State.modFlight_fresh (s : State) (k : Nat) (f : Flight → Flight) : (s.modFlight k f).fresh = s.fresh := rfl
@[simp] theorem State.modFlight_fuses (s : State) (k : Nat) (f : Flight → Flight) : (s.modFlight k f).fuses = s.fuses := rfl
@[simp] theorem State.modFlight_pins (s : State) (k : Nat) (f : Flight → Flight) : (s.modFlight k f).pins = s.pins := rfl
@[simp] theorem State.modFlight_boot (s : State) (k : Nat) (f : Flight → Flight) : (s.modFlight k f).boot = s.boot := rfl
@[simp] theorem State.modFlight_regs (s : State) (k : Nat) (f : Flight → Flight) : (s.modFlight k f).regs = s.regs := rfl
@[simp] theorem State.modFlight_ww (s : State) (k : Nat) (f : Flight → Flight) : (s.modFlight k f).ww = s.ww := rfl
@[simp] theorem State.modFlight_gate (s : State) (k : Nat) (f : Flight → Flight) : (s.modFlight k f).gate = s.gate := rfl
@[simp] theorem State.modFlight_musters (s : State) (k : Nat) (f : Flight → Flight) : (s.modFlight k f).musters = s.musters := rfl
@[simp] theorem State.modFlight_tiles (s : State) (k : Nat) (f : Flight → Flight) : (s.modFlight k f).tiles = s.tiles := rfl
@[simp] theorem State.modFlight_reaches (s : State) (k : Nat) (f : Flight → Flight) : (s.modFlight k f).reaches = s.reaches := rfl
@[simp] theorem State.modFlight_contexts (s : State) (k : Nat) (f : Flight → Flight) : (s.modFlight k f).contexts = s.contexts := rfl
@[simp] theorem State.modFlight_waits (s : State) (k : Nat) (f : Flight → Flight) : (s.modFlight k f).waits = s.waits := rfl
@[simp] theorem State.modFlight_canals (s : State) (k : Nat) (f : Flight → Flight) : (s.modFlight k f).canals = s.canals := rfl
@[simp] theorem State.modFlight_tickets (s : State) (k : Nat) (f : Flight → Flight) : (s.modFlight k f).tickets = s.tickets := rfl
@[simp] theorem State.modFlight_remote (s : State) (k : Nat) (f : Flight → Flight) : (s.modFlight k f).remote = s.remote := rfl
@[simp] theorem State.modFlight_stk (s : State) (k : Nat) (f : Flight → Flight) : (s.modFlight k f).stk = s.stk := rfl
@[simp] theorem State.modFlight_basin (s : State) (k : Nat) (f : Flight → Flight) : (s.modFlight k f).basin = s.basin := rfl
@[simp] theorem State.modFlight_lks (s : State) (k : Nat) (f : Flight → Flight) : (s.modFlight k f).lks = s.lks := rfl
@[simp] theorem State.modFlight_port (s : State) (k : Nat) (f : Flight → Flight) : (s.modFlight k f).port = s.port := rfl
@[simp] theorem State.modFlight_berths (s : State) (k : Nat) (f : Flight → Flight) : (s.modFlight k f).berths = s.berths := rfl
@[simp] theorem State.modFlight_power (s : State) (k : Nat) (f : Flight → Flight) : (s.modFlight k f).power = s.power := rfl
@[simp] theorem State.modFlight_flt (s : State) (k : Nat) (f : Flight → Flight) : (s.modFlight k f).flt = s.flt := rfl
@[simp] theorem State.modFlight_xlt (s : State) (k : Nat) (f : Flight → Flight) : (s.modFlight k f).xlt = s.xlt := rfl
@[simp] theorem State.modFlight_hdm (s : State) (k : Nat) (f : Flight → Flight) : (s.modFlight k f).hdm = s.hdm := rfl
@[simp] theorem State.modFlight_host (s : State) (k : Nat) (f : Flight → Flight) : (s.modFlight k f).host = s.host := rfl
@[simp] theorem State.modFlight_actCopy (s : State) (k : Nat) (f : Flight → Flight) : (s.modFlight k f).actCopy = s.actCopy := rfl
@[simp] theorem State.modFlight_out (s : State) (k : Nat) (f : Flight → Flight) : (s.modFlight k f).out = s.out := rfl

/-! ### setContext -/

@[simp] theorem State.setContext_pending (s : State) (c : Nat) (x : Context) : (s.setContext c x).pending = s.pending := rfl
@[simp] theorem State.setContext_fresh (s : State) (c : Nat) (x : Context) : (s.setContext c x).fresh = s.fresh := rfl
@[simp] theorem State.setContext_fuses (s : State) (c : Nat) (x : Context) : (s.setContext c x).fuses = s.fuses := rfl
@[simp] theorem State.setContext_pins (s : State) (c : Nat) (x : Context) : (s.setContext c x).pins = s.pins := rfl
@[simp] theorem State.setContext_boot (s : State) (c : Nat) (x : Context) : (s.setContext c x).boot = s.boot := rfl
@[simp] theorem State.setContext_regs (s : State) (c : Nat) (x : Context) : (s.setContext c x).regs = s.regs := rfl
@[simp] theorem State.setContext_ww (s : State) (c : Nat) (x : Context) : (s.setContext c x).ww = s.ww := rfl
@[simp] theorem State.setContext_gate (s : State) (c : Nat) (x : Context) : (s.setContext c x).gate = s.gate := rfl
@[simp] theorem State.setContext_musters (s : State) (c : Nat) (x : Context) : (s.setContext c x).musters = s.musters := rfl
@[simp] theorem State.setContext_tiles (s : State) (c : Nat) (x : Context) : (s.setContext c x).tiles = s.tiles := rfl
@[simp] theorem State.setContext_reaches (s : State) (c : Nat) (x : Context) : (s.setContext c x).reaches = s.reaches := rfl
@[simp] theorem State.setContext_flights (s : State) (c : Nat) (x : Context) : (s.setContext c x).flights = s.flights := rfl
@[simp] theorem State.setContext_waits (s : State) (c : Nat) (x : Context) : (s.setContext c x).waits = s.waits := rfl
@[simp] theorem State.setContext_canals (s : State) (c : Nat) (x : Context) : (s.setContext c x).canals = s.canals := rfl
@[simp] theorem State.setContext_tickets (s : State) (c : Nat) (x : Context) : (s.setContext c x).tickets = s.tickets := rfl
@[simp] theorem State.setContext_remote (s : State) (c : Nat) (x : Context) : (s.setContext c x).remote = s.remote := rfl
@[simp] theorem State.setContext_stk (s : State) (c : Nat) (x : Context) : (s.setContext c x).stk = s.stk := rfl
@[simp] theorem State.setContext_basin (s : State) (c : Nat) (x : Context) : (s.setContext c x).basin = s.basin := rfl
@[simp] theorem State.setContext_lks (s : State) (c : Nat) (x : Context) : (s.setContext c x).lks = s.lks := rfl
@[simp] theorem State.setContext_port (s : State) (c : Nat) (x : Context) : (s.setContext c x).port = s.port := rfl
@[simp] theorem State.setContext_berths (s : State) (c : Nat) (x : Context) : (s.setContext c x).berths = s.berths := rfl
@[simp] theorem State.setContext_power (s : State) (c : Nat) (x : Context) : (s.setContext c x).power = s.power := rfl
@[simp] theorem State.setContext_flt (s : State) (c : Nat) (x : Context) : (s.setContext c x).flt = s.flt := rfl
@[simp] theorem State.setContext_xlt (s : State) (c : Nat) (x : Context) : (s.setContext c x).xlt = s.xlt := rfl
@[simp] theorem State.setContext_hdm (s : State) (c : Nat) (x : Context) : (s.setContext c x).hdm = s.hdm := rfl
@[simp] theorem State.setContext_host (s : State) (c : Nat) (x : Context) : (s.setContext c x).host = s.host := rfl
@[simp] theorem State.setContext_actCopy (s : State) (c : Nat) (x : Context) : (s.setContext c x).actCopy = s.actCopy := rfl
@[simp] theorem State.setContext_out (s : State) (c : Nat) (x : Context) : (s.setContext c x).out = s.out := rfl

/-! ### setRing -/

@[simp] theorem State.setRing_pending (s : State) (c r : Nat) (x : Ring) : (s.setRing c r x).pending = s.pending := rfl
@[simp] theorem State.setRing_fresh (s : State) (c r : Nat) (x : Ring) : (s.setRing c r x).fresh = s.fresh := rfl
@[simp] theorem State.setRing_fuses (s : State) (c r : Nat) (x : Ring) : (s.setRing c r x).fuses = s.fuses := rfl
@[simp] theorem State.setRing_pins (s : State) (c r : Nat) (x : Ring) : (s.setRing c r x).pins = s.pins := rfl
@[simp] theorem State.setRing_boot (s : State) (c r : Nat) (x : Ring) : (s.setRing c r x).boot = s.boot := rfl
@[simp] theorem State.setRing_regs (s : State) (c r : Nat) (x : Ring) : (s.setRing c r x).regs = s.regs := rfl
@[simp] theorem State.setRing_ww (s : State) (c r : Nat) (x : Ring) : (s.setRing c r x).ww = s.ww := rfl
@[simp] theorem State.setRing_gate (s : State) (c r : Nat) (x : Ring) : (s.setRing c r x).gate = s.gate := rfl
@[simp] theorem State.setRing_musters (s : State) (c r : Nat) (x : Ring) : (s.setRing c r x).musters = s.musters := rfl
@[simp] theorem State.setRing_tiles (s : State) (c r : Nat) (x : Ring) : (s.setRing c r x).tiles = s.tiles := rfl
@[simp] theorem State.setRing_reaches (s : State) (c r : Nat) (x : Ring) : (s.setRing c r x).reaches = s.reaches := rfl
@[simp] theorem State.setRing_flights (s : State) (c r : Nat) (x : Ring) : (s.setRing c r x).flights = s.flights := rfl
@[simp] theorem State.setRing_waits (s : State) (c r : Nat) (x : Ring) : (s.setRing c r x).waits = s.waits := rfl
@[simp] theorem State.setRing_canals (s : State) (c r : Nat) (x : Ring) : (s.setRing c r x).canals = s.canals := rfl
@[simp] theorem State.setRing_tickets (s : State) (c r : Nat) (x : Ring) : (s.setRing c r x).tickets = s.tickets := rfl
@[simp] theorem State.setRing_remote (s : State) (c r : Nat) (x : Ring) : (s.setRing c r x).remote = s.remote := rfl
@[simp] theorem State.setRing_stk (s : State) (c r : Nat) (x : Ring) : (s.setRing c r x).stk = s.stk := rfl
@[simp] theorem State.setRing_basin (s : State) (c r : Nat) (x : Ring) : (s.setRing c r x).basin = s.basin := rfl
@[simp] theorem State.setRing_lks (s : State) (c r : Nat) (x : Ring) : (s.setRing c r x).lks = s.lks := rfl
@[simp] theorem State.setRing_port (s : State) (c r : Nat) (x : Ring) : (s.setRing c r x).port = s.port := rfl
@[simp] theorem State.setRing_berths (s : State) (c r : Nat) (x : Ring) : (s.setRing c r x).berths = s.berths := rfl
@[simp] theorem State.setRing_power (s : State) (c r : Nat) (x : Ring) : (s.setRing c r x).power = s.power := rfl
@[simp] theorem State.setRing_flt (s : State) (c r : Nat) (x : Ring) : (s.setRing c r x).flt = s.flt := rfl
@[simp] theorem State.setRing_xlt (s : State) (c r : Nat) (x : Ring) : (s.setRing c r x).xlt = s.xlt := rfl
@[simp] theorem State.setRing_hdm (s : State) (c r : Nat) (x : Ring) : (s.setRing c r x).hdm = s.hdm := rfl
@[simp] theorem State.setRing_host (s : State) (c r : Nat) (x : Ring) : (s.setRing c r x).host = s.host := rfl
@[simp] theorem State.setRing_actCopy (s : State) (c r : Nat) (x : Ring) : (s.setRing c r x).actCopy = s.actCopy := rfl
@[simp] theorem State.setRing_out (s : State) (c r : Nat) (x : Ring) : (s.setRing c r x).out = s.out := rfl

/-! ### setCanal -/

@[simp] theorem State.setCanal_pending (s : State) (p : Nat) (x : Canal) : (s.setCanal p x).pending = s.pending := rfl
@[simp] theorem State.setCanal_fresh (s : State) (p : Nat) (x : Canal) : (s.setCanal p x).fresh = s.fresh := rfl
@[simp] theorem State.setCanal_fuses (s : State) (p : Nat) (x : Canal) : (s.setCanal p x).fuses = s.fuses := rfl
@[simp] theorem State.setCanal_pins (s : State) (p : Nat) (x : Canal) : (s.setCanal p x).pins = s.pins := rfl
@[simp] theorem State.setCanal_boot (s : State) (p : Nat) (x : Canal) : (s.setCanal p x).boot = s.boot := rfl
@[simp] theorem State.setCanal_regs (s : State) (p : Nat) (x : Canal) : (s.setCanal p x).regs = s.regs := rfl
@[simp] theorem State.setCanal_ww (s : State) (p : Nat) (x : Canal) : (s.setCanal p x).ww = s.ww := rfl
@[simp] theorem State.setCanal_gate (s : State) (p : Nat) (x : Canal) : (s.setCanal p x).gate = s.gate := rfl
@[simp] theorem State.setCanal_musters (s : State) (p : Nat) (x : Canal) : (s.setCanal p x).musters = s.musters := rfl
@[simp] theorem State.setCanal_tiles (s : State) (p : Nat) (x : Canal) : (s.setCanal p x).tiles = s.tiles := rfl
@[simp] theorem State.setCanal_reaches (s : State) (p : Nat) (x : Canal) : (s.setCanal p x).reaches = s.reaches := rfl
@[simp] theorem State.setCanal_flights (s : State) (p : Nat) (x : Canal) : (s.setCanal p x).flights = s.flights := rfl
@[simp] theorem State.setCanal_contexts (s : State) (p : Nat) (x : Canal) : (s.setCanal p x).contexts = s.contexts := rfl
@[simp] theorem State.setCanal_waits (s : State) (p : Nat) (x : Canal) : (s.setCanal p x).waits = s.waits := rfl
@[simp] theorem State.setCanal_tickets (s : State) (p : Nat) (x : Canal) : (s.setCanal p x).tickets = s.tickets := rfl
@[simp] theorem State.setCanal_remote (s : State) (p : Nat) (x : Canal) : (s.setCanal p x).remote = s.remote := rfl
@[simp] theorem State.setCanal_stk (s : State) (p : Nat) (x : Canal) : (s.setCanal p x).stk = s.stk := rfl
@[simp] theorem State.setCanal_basin (s : State) (p : Nat) (x : Canal) : (s.setCanal p x).basin = s.basin := rfl
@[simp] theorem State.setCanal_lks (s : State) (p : Nat) (x : Canal) : (s.setCanal p x).lks = s.lks := rfl
@[simp] theorem State.setCanal_port (s : State) (p : Nat) (x : Canal) : (s.setCanal p x).port = s.port := rfl
@[simp] theorem State.setCanal_berths (s : State) (p : Nat) (x : Canal) : (s.setCanal p x).berths = s.berths := rfl
@[simp] theorem State.setCanal_power (s : State) (p : Nat) (x : Canal) : (s.setCanal p x).power = s.power := rfl
@[simp] theorem State.setCanal_flt (s : State) (p : Nat) (x : Canal) : (s.setCanal p x).flt = s.flt := rfl
@[simp] theorem State.setCanal_xlt (s : State) (p : Nat) (x : Canal) : (s.setCanal p x).xlt = s.xlt := rfl
@[simp] theorem State.setCanal_hdm (s : State) (p : Nat) (x : Canal) : (s.setCanal p x).hdm = s.hdm := rfl
@[simp] theorem State.setCanal_host (s : State) (p : Nat) (x : Canal) : (s.setCanal p x).host = s.host := rfl
@[simp] theorem State.setCanal_actCopy (s : State) (p : Nat) (x : Canal) : (s.setCanal p x).actCopy = s.actCopy := rfl
@[simp] theorem State.setCanal_out (s : State) (p : Nat) (x : Canal) : (s.setCanal p x).out = s.out := rfl

/-! ### modCanal -/

@[simp] theorem State.modCanal_pending (s : State) (p : Nat) (f : Canal → Canal) : (s.modCanal p f).pending = s.pending := rfl
@[simp] theorem State.modCanal_fresh (s : State) (p : Nat) (f : Canal → Canal) : (s.modCanal p f).fresh = s.fresh := rfl
@[simp] theorem State.modCanal_fuses (s : State) (p : Nat) (f : Canal → Canal) : (s.modCanal p f).fuses = s.fuses := rfl
@[simp] theorem State.modCanal_pins (s : State) (p : Nat) (f : Canal → Canal) : (s.modCanal p f).pins = s.pins := rfl
@[simp] theorem State.modCanal_boot (s : State) (p : Nat) (f : Canal → Canal) : (s.modCanal p f).boot = s.boot := rfl
@[simp] theorem State.modCanal_regs (s : State) (p : Nat) (f : Canal → Canal) : (s.modCanal p f).regs = s.regs := rfl
@[simp] theorem State.modCanal_ww (s : State) (p : Nat) (f : Canal → Canal) : (s.modCanal p f).ww = s.ww := rfl
@[simp] theorem State.modCanal_gate (s : State) (p : Nat) (f : Canal → Canal) : (s.modCanal p f).gate = s.gate := rfl
@[simp] theorem State.modCanal_musters (s : State) (p : Nat) (f : Canal → Canal) : (s.modCanal p f).musters = s.musters := rfl
@[simp] theorem State.modCanal_tiles (s : State) (p : Nat) (f : Canal → Canal) : (s.modCanal p f).tiles = s.tiles := rfl
@[simp] theorem State.modCanal_reaches (s : State) (p : Nat) (f : Canal → Canal) : (s.modCanal p f).reaches = s.reaches := rfl
@[simp] theorem State.modCanal_flights (s : State) (p : Nat) (f : Canal → Canal) : (s.modCanal p f).flights = s.flights := rfl
@[simp] theorem State.modCanal_contexts (s : State) (p : Nat) (f : Canal → Canal) : (s.modCanal p f).contexts = s.contexts := rfl
@[simp] theorem State.modCanal_waits (s : State) (p : Nat) (f : Canal → Canal) : (s.modCanal p f).waits = s.waits := rfl
@[simp] theorem State.modCanal_tickets (s : State) (p : Nat) (f : Canal → Canal) : (s.modCanal p f).tickets = s.tickets := rfl
@[simp] theorem State.modCanal_remote (s : State) (p : Nat) (f : Canal → Canal) : (s.modCanal p f).remote = s.remote := rfl
@[simp] theorem State.modCanal_stk (s : State) (p : Nat) (f : Canal → Canal) : (s.modCanal p f).stk = s.stk := rfl
@[simp] theorem State.modCanal_basin (s : State) (p : Nat) (f : Canal → Canal) : (s.modCanal p f).basin = s.basin := rfl
@[simp] theorem State.modCanal_lks (s : State) (p : Nat) (f : Canal → Canal) : (s.modCanal p f).lks = s.lks := rfl
@[simp] theorem State.modCanal_port (s : State) (p : Nat) (f : Canal → Canal) : (s.modCanal p f).port = s.port := rfl
@[simp] theorem State.modCanal_berths (s : State) (p : Nat) (f : Canal → Canal) : (s.modCanal p f).berths = s.berths := rfl
@[simp] theorem State.modCanal_power (s : State) (p : Nat) (f : Canal → Canal) : (s.modCanal p f).power = s.power := rfl
@[simp] theorem State.modCanal_flt (s : State) (p : Nat) (f : Canal → Canal) : (s.modCanal p f).flt = s.flt := rfl
@[simp] theorem State.modCanal_xlt (s : State) (p : Nat) (f : Canal → Canal) : (s.modCanal p f).xlt = s.xlt := rfl
@[simp] theorem State.modCanal_hdm (s : State) (p : Nat) (f : Canal → Canal) : (s.modCanal p f).hdm = s.hdm := rfl
@[simp] theorem State.modCanal_host (s : State) (p : Nat) (f : Canal → Canal) : (s.modCanal p f).host = s.host := rfl
@[simp] theorem State.modCanal_actCopy (s : State) (p : Nat) (f : Canal → Canal) : (s.modCanal p f).actCopy = s.actCopy := rfl
@[simp] theorem State.modCanal_out (s : State) (p : Nat) (f : Canal → Canal) : (s.modCanal p f).out = s.out := rfl

/-! ### setStack -/

@[simp] theorem State.setStack_pending (s : State) (p : Nat) (x : Stack) : (s.setStack p x).pending = s.pending := rfl
@[simp] theorem State.setStack_fresh (s : State) (p : Nat) (x : Stack) : (s.setStack p x).fresh = s.fresh := rfl
@[simp] theorem State.setStack_fuses (s : State) (p : Nat) (x : Stack) : (s.setStack p x).fuses = s.fuses := rfl
@[simp] theorem State.setStack_pins (s : State) (p : Nat) (x : Stack) : (s.setStack p x).pins = s.pins := rfl
@[simp] theorem State.setStack_boot (s : State) (p : Nat) (x : Stack) : (s.setStack p x).boot = s.boot := rfl
@[simp] theorem State.setStack_regs (s : State) (p : Nat) (x : Stack) : (s.setStack p x).regs = s.regs := rfl
@[simp] theorem State.setStack_ww (s : State) (p : Nat) (x : Stack) : (s.setStack p x).ww = s.ww := rfl
@[simp] theorem State.setStack_gate (s : State) (p : Nat) (x : Stack) : (s.setStack p x).gate = s.gate := rfl
@[simp] theorem State.setStack_musters (s : State) (p : Nat) (x : Stack) : (s.setStack p x).musters = s.musters := rfl
@[simp] theorem State.setStack_tiles (s : State) (p : Nat) (x : Stack) : (s.setStack p x).tiles = s.tiles := rfl
@[simp] theorem State.setStack_reaches (s : State) (p : Nat) (x : Stack) : (s.setStack p x).reaches = s.reaches := rfl
@[simp] theorem State.setStack_flights (s : State) (p : Nat) (x : Stack) : (s.setStack p x).flights = s.flights := rfl
@[simp] theorem State.setStack_contexts (s : State) (p : Nat) (x : Stack) : (s.setStack p x).contexts = s.contexts := rfl
@[simp] theorem State.setStack_waits (s : State) (p : Nat) (x : Stack) : (s.setStack p x).waits = s.waits := rfl
@[simp] theorem State.setStack_canals (s : State) (p : Nat) (x : Stack) : (s.setStack p x).canals = s.canals := rfl
@[simp] theorem State.setStack_tickets (s : State) (p : Nat) (x : Stack) : (s.setStack p x).tickets = s.tickets := rfl
@[simp] theorem State.setStack_remote (s : State) (p : Nat) (x : Stack) : (s.setStack p x).remote = s.remote := rfl
@[simp] theorem State.setStack_basin (s : State) (p : Nat) (x : Stack) : (s.setStack p x).basin = s.basin := rfl
@[simp] theorem State.setStack_lks (s : State) (p : Nat) (x : Stack) : (s.setStack p x).lks = s.lks := rfl
@[simp] theorem State.setStack_port (s : State) (p : Nat) (x : Stack) : (s.setStack p x).port = s.port := rfl
@[simp] theorem State.setStack_berths (s : State) (p : Nat) (x : Stack) : (s.setStack p x).berths = s.berths := rfl
@[simp] theorem State.setStack_power (s : State) (p : Nat) (x : Stack) : (s.setStack p x).power = s.power := rfl
@[simp] theorem State.setStack_flt (s : State) (p : Nat) (x : Stack) : (s.setStack p x).flt = s.flt := rfl
@[simp] theorem State.setStack_xlt (s : State) (p : Nat) (x : Stack) : (s.setStack p x).xlt = s.xlt := rfl
@[simp] theorem State.setStack_hdm (s : State) (p : Nat) (x : Stack) : (s.setStack p x).hdm = s.hdm := rfl
@[simp] theorem State.setStack_host (s : State) (p : Nat) (x : Stack) : (s.setStack p x).host = s.host := rfl
@[simp] theorem State.setStack_actCopy (s : State) (p : Nat) (x : Stack) : (s.setStack p x).actCopy = s.actCopy := rfl
@[simp] theorem State.setStack_out (s : State) (p : Nat) (x : Stack) : (s.setStack p x).out = s.out := rfl

/-! ### modStack -/

@[simp] theorem State.modStack_pending (s : State) (p : Nat) (f : Stack → Stack) : (s.modStack p f).pending = s.pending := rfl
@[simp] theorem State.modStack_fresh (s : State) (p : Nat) (f : Stack → Stack) : (s.modStack p f).fresh = s.fresh := rfl
@[simp] theorem State.modStack_fuses (s : State) (p : Nat) (f : Stack → Stack) : (s.modStack p f).fuses = s.fuses := rfl
@[simp] theorem State.modStack_pins (s : State) (p : Nat) (f : Stack → Stack) : (s.modStack p f).pins = s.pins := rfl
@[simp] theorem State.modStack_boot (s : State) (p : Nat) (f : Stack → Stack) : (s.modStack p f).boot = s.boot := rfl
@[simp] theorem State.modStack_regs (s : State) (p : Nat) (f : Stack → Stack) : (s.modStack p f).regs = s.regs := rfl
@[simp] theorem State.modStack_ww (s : State) (p : Nat) (f : Stack → Stack) : (s.modStack p f).ww = s.ww := rfl
@[simp] theorem State.modStack_gate (s : State) (p : Nat) (f : Stack → Stack) : (s.modStack p f).gate = s.gate := rfl
@[simp] theorem State.modStack_musters (s : State) (p : Nat) (f : Stack → Stack) : (s.modStack p f).musters = s.musters := rfl
@[simp] theorem State.modStack_tiles (s : State) (p : Nat) (f : Stack → Stack) : (s.modStack p f).tiles = s.tiles := rfl
@[simp] theorem State.modStack_reaches (s : State) (p : Nat) (f : Stack → Stack) : (s.modStack p f).reaches = s.reaches := rfl
@[simp] theorem State.modStack_flights (s : State) (p : Nat) (f : Stack → Stack) : (s.modStack p f).flights = s.flights := rfl
@[simp] theorem State.modStack_contexts (s : State) (p : Nat) (f : Stack → Stack) : (s.modStack p f).contexts = s.contexts := rfl
@[simp] theorem State.modStack_waits (s : State) (p : Nat) (f : Stack → Stack) : (s.modStack p f).waits = s.waits := rfl
@[simp] theorem State.modStack_canals (s : State) (p : Nat) (f : Stack → Stack) : (s.modStack p f).canals = s.canals := rfl
@[simp] theorem State.modStack_tickets (s : State) (p : Nat) (f : Stack → Stack) : (s.modStack p f).tickets = s.tickets := rfl
@[simp] theorem State.modStack_remote (s : State) (p : Nat) (f : Stack → Stack) : (s.modStack p f).remote = s.remote := rfl
@[simp] theorem State.modStack_basin (s : State) (p : Nat) (f : Stack → Stack) : (s.modStack p f).basin = s.basin := rfl
@[simp] theorem State.modStack_lks (s : State) (p : Nat) (f : Stack → Stack) : (s.modStack p f).lks = s.lks := rfl
@[simp] theorem State.modStack_port (s : State) (p : Nat) (f : Stack → Stack) : (s.modStack p f).port = s.port := rfl
@[simp] theorem State.modStack_berths (s : State) (p : Nat) (f : Stack → Stack) : (s.modStack p f).berths = s.berths := rfl
@[simp] theorem State.modStack_power (s : State) (p : Nat) (f : Stack → Stack) : (s.modStack p f).power = s.power := rfl
@[simp] theorem State.modStack_flt (s : State) (p : Nat) (f : Stack → Stack) : (s.modStack p f).flt = s.flt := rfl
@[simp] theorem State.modStack_xlt (s : State) (p : Nat) (f : Stack → Stack) : (s.modStack p f).xlt = s.xlt := rfl
@[simp] theorem State.modStack_hdm (s : State) (p : Nat) (f : Stack → Stack) : (s.modStack p f).hdm = s.hdm := rfl
@[simp] theorem State.modStack_host (s : State) (p : Nat) (f : Stack → Stack) : (s.modStack p f).host = s.host := rfl
@[simp] theorem State.modStack_actCopy (s : State) (p : Nat) (f : Stack → Stack) : (s.modStack p f).actCopy = s.actCopy := rfl
@[simp] theorem State.modStack_out (s : State) (p : Nat) (f : Stack → Stack) : (s.modStack p f).out = s.out := rfl

/-! ### setLk -/

@[simp] theorem State.setLk_pending (s : State) (k : Nat) (x : Lockkeeper) : (s.setLk k x).pending = s.pending := rfl
@[simp] theorem State.setLk_fresh (s : State) (k : Nat) (x : Lockkeeper) : (s.setLk k x).fresh = s.fresh := rfl
@[simp] theorem State.setLk_fuses (s : State) (k : Nat) (x : Lockkeeper) : (s.setLk k x).fuses = s.fuses := rfl
@[simp] theorem State.setLk_pins (s : State) (k : Nat) (x : Lockkeeper) : (s.setLk k x).pins = s.pins := rfl
@[simp] theorem State.setLk_boot (s : State) (k : Nat) (x : Lockkeeper) : (s.setLk k x).boot = s.boot := rfl
@[simp] theorem State.setLk_regs (s : State) (k : Nat) (x : Lockkeeper) : (s.setLk k x).regs = s.regs := rfl
@[simp] theorem State.setLk_ww (s : State) (k : Nat) (x : Lockkeeper) : (s.setLk k x).ww = s.ww := rfl
@[simp] theorem State.setLk_gate (s : State) (k : Nat) (x : Lockkeeper) : (s.setLk k x).gate = s.gate := rfl
@[simp] theorem State.setLk_musters (s : State) (k : Nat) (x : Lockkeeper) : (s.setLk k x).musters = s.musters := rfl
@[simp] theorem State.setLk_tiles (s : State) (k : Nat) (x : Lockkeeper) : (s.setLk k x).tiles = s.tiles := rfl
@[simp] theorem State.setLk_reaches (s : State) (k : Nat) (x : Lockkeeper) : (s.setLk k x).reaches = s.reaches := rfl
@[simp] theorem State.setLk_flights (s : State) (k : Nat) (x : Lockkeeper) : (s.setLk k x).flights = s.flights := rfl
@[simp] theorem State.setLk_contexts (s : State) (k : Nat) (x : Lockkeeper) : (s.setLk k x).contexts = s.contexts := rfl
@[simp] theorem State.setLk_waits (s : State) (k : Nat) (x : Lockkeeper) : (s.setLk k x).waits = s.waits := rfl
@[simp] theorem State.setLk_canals (s : State) (k : Nat) (x : Lockkeeper) : (s.setLk k x).canals = s.canals := rfl
@[simp] theorem State.setLk_tickets (s : State) (k : Nat) (x : Lockkeeper) : (s.setLk k x).tickets = s.tickets := rfl
@[simp] theorem State.setLk_remote (s : State) (k : Nat) (x : Lockkeeper) : (s.setLk k x).remote = s.remote := rfl
@[simp] theorem State.setLk_stk (s : State) (k : Nat) (x : Lockkeeper) : (s.setLk k x).stk = s.stk := rfl
@[simp] theorem State.setLk_basin (s : State) (k : Nat) (x : Lockkeeper) : (s.setLk k x).basin = s.basin := rfl
@[simp] theorem State.setLk_port (s : State) (k : Nat) (x : Lockkeeper) : (s.setLk k x).port = s.port := rfl
@[simp] theorem State.setLk_berths (s : State) (k : Nat) (x : Lockkeeper) : (s.setLk k x).berths = s.berths := rfl
@[simp] theorem State.setLk_power (s : State) (k : Nat) (x : Lockkeeper) : (s.setLk k x).power = s.power := rfl
@[simp] theorem State.setLk_flt (s : State) (k : Nat) (x : Lockkeeper) : (s.setLk k x).flt = s.flt := rfl
@[simp] theorem State.setLk_xlt (s : State) (k : Nat) (x : Lockkeeper) : (s.setLk k x).xlt = s.xlt := rfl
@[simp] theorem State.setLk_hdm (s : State) (k : Nat) (x : Lockkeeper) : (s.setLk k x).hdm = s.hdm := rfl
@[simp] theorem State.setLk_host (s : State) (k : Nat) (x : Lockkeeper) : (s.setLk k x).host = s.host := rfl
@[simp] theorem State.setLk_actCopy (s : State) (k : Nat) (x : Lockkeeper) : (s.setLk k x).actCopy = s.actCopy := rfl
@[simp] theorem State.setLk_out (s : State) (k : Nat) (x : Lockkeeper) : (s.setLk k x).out = s.out := rfl

/-! ### modLk -/

@[simp] theorem State.modLk_pending (s : State) (k : Nat) (f : Lockkeeper → Lockkeeper) : (s.modLk k f).pending = s.pending := rfl
@[simp] theorem State.modLk_fresh (s : State) (k : Nat) (f : Lockkeeper → Lockkeeper) : (s.modLk k f).fresh = s.fresh := rfl
@[simp] theorem State.modLk_fuses (s : State) (k : Nat) (f : Lockkeeper → Lockkeeper) : (s.modLk k f).fuses = s.fuses := rfl
@[simp] theorem State.modLk_pins (s : State) (k : Nat) (f : Lockkeeper → Lockkeeper) : (s.modLk k f).pins = s.pins := rfl
@[simp] theorem State.modLk_boot (s : State) (k : Nat) (f : Lockkeeper → Lockkeeper) : (s.modLk k f).boot = s.boot := rfl
@[simp] theorem State.modLk_regs (s : State) (k : Nat) (f : Lockkeeper → Lockkeeper) : (s.modLk k f).regs = s.regs := rfl
@[simp] theorem State.modLk_ww (s : State) (k : Nat) (f : Lockkeeper → Lockkeeper) : (s.modLk k f).ww = s.ww := rfl
@[simp] theorem State.modLk_gate (s : State) (k : Nat) (f : Lockkeeper → Lockkeeper) : (s.modLk k f).gate = s.gate := rfl
@[simp] theorem State.modLk_musters (s : State) (k : Nat) (f : Lockkeeper → Lockkeeper) : (s.modLk k f).musters = s.musters := rfl
@[simp] theorem State.modLk_tiles (s : State) (k : Nat) (f : Lockkeeper → Lockkeeper) : (s.modLk k f).tiles = s.tiles := rfl
@[simp] theorem State.modLk_reaches (s : State) (k : Nat) (f : Lockkeeper → Lockkeeper) : (s.modLk k f).reaches = s.reaches := rfl
@[simp] theorem State.modLk_flights (s : State) (k : Nat) (f : Lockkeeper → Lockkeeper) : (s.modLk k f).flights = s.flights := rfl
@[simp] theorem State.modLk_contexts (s : State) (k : Nat) (f : Lockkeeper → Lockkeeper) : (s.modLk k f).contexts = s.contexts := rfl
@[simp] theorem State.modLk_waits (s : State) (k : Nat) (f : Lockkeeper → Lockkeeper) : (s.modLk k f).waits = s.waits := rfl
@[simp] theorem State.modLk_canals (s : State) (k : Nat) (f : Lockkeeper → Lockkeeper) : (s.modLk k f).canals = s.canals := rfl
@[simp] theorem State.modLk_tickets (s : State) (k : Nat) (f : Lockkeeper → Lockkeeper) : (s.modLk k f).tickets = s.tickets := rfl
@[simp] theorem State.modLk_remote (s : State) (k : Nat) (f : Lockkeeper → Lockkeeper) : (s.modLk k f).remote = s.remote := rfl
@[simp] theorem State.modLk_stk (s : State) (k : Nat) (f : Lockkeeper → Lockkeeper) : (s.modLk k f).stk = s.stk := rfl
@[simp] theorem State.modLk_basin (s : State) (k : Nat) (f : Lockkeeper → Lockkeeper) : (s.modLk k f).basin = s.basin := rfl
@[simp] theorem State.modLk_port (s : State) (k : Nat) (f : Lockkeeper → Lockkeeper) : (s.modLk k f).port = s.port := rfl
@[simp] theorem State.modLk_berths (s : State) (k : Nat) (f : Lockkeeper → Lockkeeper) : (s.modLk k f).berths = s.berths := rfl
@[simp] theorem State.modLk_power (s : State) (k : Nat) (f : Lockkeeper → Lockkeeper) : (s.modLk k f).power = s.power := rfl
@[simp] theorem State.modLk_flt (s : State) (k : Nat) (f : Lockkeeper → Lockkeeper) : (s.modLk k f).flt = s.flt := rfl
@[simp] theorem State.modLk_xlt (s : State) (k : Nat) (f : Lockkeeper → Lockkeeper) : (s.modLk k f).xlt = s.xlt := rfl
@[simp] theorem State.modLk_hdm (s : State) (k : Nat) (f : Lockkeeper → Lockkeeper) : (s.modLk k f).hdm = s.hdm := rfl
@[simp] theorem State.modLk_host (s : State) (k : Nat) (f : Lockkeeper → Lockkeeper) : (s.modLk k f).host = s.host := rfl
@[simp] theorem State.modLk_actCopy (s : State) (k : Nat) (f : Lockkeeper → Lockkeeper) : (s.modLk k f).actCopy = s.actCopy := rfl
@[simp] theorem State.modLk_out (s : State) (k : Nat) (f : Lockkeeper → Lockkeeper) : (s.modLk k f).out = s.out := rfl

/-! ### setBerth -/

@[simp] theorem State.setBerth_pending (s : State) (b : Nat) (x : Berth) : (s.setBerth b x).pending = s.pending := rfl
@[simp] theorem State.setBerth_fresh (s : State) (b : Nat) (x : Berth) : (s.setBerth b x).fresh = s.fresh := rfl
@[simp] theorem State.setBerth_fuses (s : State) (b : Nat) (x : Berth) : (s.setBerth b x).fuses = s.fuses := rfl
@[simp] theorem State.setBerth_pins (s : State) (b : Nat) (x : Berth) : (s.setBerth b x).pins = s.pins := rfl
@[simp] theorem State.setBerth_boot (s : State) (b : Nat) (x : Berth) : (s.setBerth b x).boot = s.boot := rfl
@[simp] theorem State.setBerth_regs (s : State) (b : Nat) (x : Berth) : (s.setBerth b x).regs = s.regs := rfl
@[simp] theorem State.setBerth_ww (s : State) (b : Nat) (x : Berth) : (s.setBerth b x).ww = s.ww := rfl
@[simp] theorem State.setBerth_gate (s : State) (b : Nat) (x : Berth) : (s.setBerth b x).gate = s.gate := rfl
@[simp] theorem State.setBerth_musters (s : State) (b : Nat) (x : Berth) : (s.setBerth b x).musters = s.musters := rfl
@[simp] theorem State.setBerth_tiles (s : State) (b : Nat) (x : Berth) : (s.setBerth b x).tiles = s.tiles := rfl
@[simp] theorem State.setBerth_reaches (s : State) (b : Nat) (x : Berth) : (s.setBerth b x).reaches = s.reaches := rfl
@[simp] theorem State.setBerth_flights (s : State) (b : Nat) (x : Berth) : (s.setBerth b x).flights = s.flights := rfl
@[simp] theorem State.setBerth_contexts (s : State) (b : Nat) (x : Berth) : (s.setBerth b x).contexts = s.contexts := rfl
@[simp] theorem State.setBerth_waits (s : State) (b : Nat) (x : Berth) : (s.setBerth b x).waits = s.waits := rfl
@[simp] theorem State.setBerth_canals (s : State) (b : Nat) (x : Berth) : (s.setBerth b x).canals = s.canals := rfl
@[simp] theorem State.setBerth_tickets (s : State) (b : Nat) (x : Berth) : (s.setBerth b x).tickets = s.tickets := rfl
@[simp] theorem State.setBerth_remote (s : State) (b : Nat) (x : Berth) : (s.setBerth b x).remote = s.remote := rfl
@[simp] theorem State.setBerth_stk (s : State) (b : Nat) (x : Berth) : (s.setBerth b x).stk = s.stk := rfl
@[simp] theorem State.setBerth_basin (s : State) (b : Nat) (x : Berth) : (s.setBerth b x).basin = s.basin := rfl
@[simp] theorem State.setBerth_lks (s : State) (b : Nat) (x : Berth) : (s.setBerth b x).lks = s.lks := rfl
@[simp] theorem State.setBerth_port (s : State) (b : Nat) (x : Berth) : (s.setBerth b x).port = s.port := rfl
@[simp] theorem State.setBerth_power (s : State) (b : Nat) (x : Berth) : (s.setBerth b x).power = s.power := rfl
@[simp] theorem State.setBerth_flt (s : State) (b : Nat) (x : Berth) : (s.setBerth b x).flt = s.flt := rfl
@[simp] theorem State.setBerth_xlt (s : State) (b : Nat) (x : Berth) : (s.setBerth b x).xlt = s.xlt := rfl
@[simp] theorem State.setBerth_hdm (s : State) (b : Nat) (x : Berth) : (s.setBerth b x).hdm = s.hdm := rfl
@[simp] theorem State.setBerth_host (s : State) (b : Nat) (x : Berth) : (s.setBerth b x).host = s.host := rfl
@[simp] theorem State.setBerth_actCopy (s : State) (b : Nat) (x : Berth) : (s.setBerth b x).actCopy = s.actCopy := rfl
@[simp] theorem State.setBerth_out (s : State) (b : Nat) (x : Berth) : (s.setBerth b x).out = s.out := rfl

/-! ### emit -/

@[simp] theorem State.emit_pending (s : State) (o : Out) : (s.emit o).pending = s.pending := rfl
@[simp] theorem State.emit_fresh (s : State) (o : Out) : (s.emit o).fresh = s.fresh := rfl
@[simp] theorem State.emit_fuses (s : State) (o : Out) : (s.emit o).fuses = s.fuses := rfl
@[simp] theorem State.emit_pins (s : State) (o : Out) : (s.emit o).pins = s.pins := rfl
@[simp] theorem State.emit_boot (s : State) (o : Out) : (s.emit o).boot = s.boot := rfl
@[simp] theorem State.emit_regs (s : State) (o : Out) : (s.emit o).regs = s.regs := rfl
@[simp] theorem State.emit_ww (s : State) (o : Out) : (s.emit o).ww = s.ww := rfl
@[simp] theorem State.emit_gate (s : State) (o : Out) : (s.emit o).gate = s.gate := rfl
@[simp] theorem State.emit_musters (s : State) (o : Out) : (s.emit o).musters = s.musters := rfl
@[simp] theorem State.emit_tiles (s : State) (o : Out) : (s.emit o).tiles = s.tiles := rfl
@[simp] theorem State.emit_reaches (s : State) (o : Out) : (s.emit o).reaches = s.reaches := rfl
@[simp] theorem State.emit_flights (s : State) (o : Out) : (s.emit o).flights = s.flights := rfl
@[simp] theorem State.emit_contexts (s : State) (o : Out) : (s.emit o).contexts = s.contexts := rfl
@[simp] theorem State.emit_waits (s : State) (o : Out) : (s.emit o).waits = s.waits := rfl
@[simp] theorem State.emit_canals (s : State) (o : Out) : (s.emit o).canals = s.canals := rfl
@[simp] theorem State.emit_tickets (s : State) (o : Out) : (s.emit o).tickets = s.tickets := rfl
@[simp] theorem State.emit_remote (s : State) (o : Out) : (s.emit o).remote = s.remote := rfl
@[simp] theorem State.emit_stk (s : State) (o : Out) : (s.emit o).stk = s.stk := rfl
@[simp] theorem State.emit_basin (s : State) (o : Out) : (s.emit o).basin = s.basin := rfl
@[simp] theorem State.emit_lks (s : State) (o : Out) : (s.emit o).lks = s.lks := rfl
@[simp] theorem State.emit_port (s : State) (o : Out) : (s.emit o).port = s.port := rfl
@[simp] theorem State.emit_berths (s : State) (o : Out) : (s.emit o).berths = s.berths := rfl
@[simp] theorem State.emit_power (s : State) (o : Out) : (s.emit o).power = s.power := rfl
@[simp] theorem State.emit_flt (s : State) (o : Out) : (s.emit o).flt = s.flt := rfl
@[simp] theorem State.emit_xlt (s : State) (o : Out) : (s.emit o).xlt = s.xlt := rfl
@[simp] theorem State.emit_hdm (s : State) (o : Out) : (s.emit o).hdm = s.hdm := rfl
@[simp] theorem State.emit_host (s : State) (o : Out) : (s.emit o).host = s.host := rfl
@[simp] theorem State.emit_actCopy (s : State) (o : Out) : (s.emit o).actCopy = s.actCopy := rfl

/-! ### setReg -/

@[simp] theorem State.setReg_pending (s : State) (o : Nat) (v : Reg) : (s.setReg o v).pending = s.pending := rfl
@[simp] theorem State.setReg_fresh (s : State) (o : Nat) (v : Reg) : (s.setReg o v).fresh = s.fresh := rfl
@[simp] theorem State.setReg_fuses (s : State) (o : Nat) (v : Reg) : (s.setReg o v).fuses = s.fuses := rfl
@[simp] theorem State.setReg_pins (s : State) (o : Nat) (v : Reg) : (s.setReg o v).pins = s.pins := rfl
@[simp] theorem State.setReg_boot (s : State) (o : Nat) (v : Reg) : (s.setReg o v).boot = s.boot := rfl
@[simp] theorem State.setReg_ww (s : State) (o : Nat) (v : Reg) : (s.setReg o v).ww = s.ww := rfl
@[simp] theorem State.setReg_gate (s : State) (o : Nat) (v : Reg) : (s.setReg o v).gate = s.gate := rfl
@[simp] theorem State.setReg_musters (s : State) (o : Nat) (v : Reg) : (s.setReg o v).musters = s.musters := rfl
@[simp] theorem State.setReg_tiles (s : State) (o : Nat) (v : Reg) : (s.setReg o v).tiles = s.tiles := rfl
@[simp] theorem State.setReg_reaches (s : State) (o : Nat) (v : Reg) : (s.setReg o v).reaches = s.reaches := rfl
@[simp] theorem State.setReg_flights (s : State) (o : Nat) (v : Reg) : (s.setReg o v).flights = s.flights := rfl
@[simp] theorem State.setReg_contexts (s : State) (o : Nat) (v : Reg) : (s.setReg o v).contexts = s.contexts := rfl
@[simp] theorem State.setReg_waits (s : State) (o : Nat) (v : Reg) : (s.setReg o v).waits = s.waits := rfl
@[simp] theorem State.setReg_canals (s : State) (o : Nat) (v : Reg) : (s.setReg o v).canals = s.canals := rfl
@[simp] theorem State.setReg_tickets (s : State) (o : Nat) (v : Reg) : (s.setReg o v).tickets = s.tickets := rfl
@[simp] theorem State.setReg_remote (s : State) (o : Nat) (v : Reg) : (s.setReg o v).remote = s.remote := rfl
@[simp] theorem State.setReg_stk (s : State) (o : Nat) (v : Reg) : (s.setReg o v).stk = s.stk := rfl
@[simp] theorem State.setReg_basin (s : State) (o : Nat) (v : Reg) : (s.setReg o v).basin = s.basin := rfl
@[simp] theorem State.setReg_lks (s : State) (o : Nat) (v : Reg) : (s.setReg o v).lks = s.lks := rfl
@[simp] theorem State.setReg_port (s : State) (o : Nat) (v : Reg) : (s.setReg o v).port = s.port := rfl
@[simp] theorem State.setReg_berths (s : State) (o : Nat) (v : Reg) : (s.setReg o v).berths = s.berths := rfl
@[simp] theorem State.setReg_power (s : State) (o : Nat) (v : Reg) : (s.setReg o v).power = s.power := rfl
@[simp] theorem State.setReg_flt (s : State) (o : Nat) (v : Reg) : (s.setReg o v).flt = s.flt := rfl
@[simp] theorem State.setReg_xlt (s : State) (o : Nat) (v : Reg) : (s.setReg o v).xlt = s.xlt := rfl
@[simp] theorem State.setReg_hdm (s : State) (o : Nat) (v : Reg) : (s.setReg o v).hdm = s.hdm := rfl
@[simp] theorem State.setReg_host (s : State) (o : Nat) (v : Reg) : (s.setReg o v).host = s.host := rfl
@[simp] theorem State.setReg_actCopy (s : State) (o : Nat) (v : Reg) : (s.setReg o v).actCopy = s.actCopy := rfl
@[simp] theorem State.setReg_out (s : State) (o : Nat) (v : Reg) : (s.setReg o v).out = s.out := rfl

/-! ### setFld -/

@[simp] theorem State.setFld_pending (s : State) (o hi lo v : Nat) : (s.setFld o hi lo v).pending = s.pending := rfl
@[simp] theorem State.setFld_fresh (s : State) (o hi lo v : Nat) : (s.setFld o hi lo v).fresh = s.fresh := rfl
@[simp] theorem State.setFld_fuses (s : State) (o hi lo v : Nat) : (s.setFld o hi lo v).fuses = s.fuses := rfl
@[simp] theorem State.setFld_pins (s : State) (o hi lo v : Nat) : (s.setFld o hi lo v).pins = s.pins := rfl
@[simp] theorem State.setFld_boot (s : State) (o hi lo v : Nat) : (s.setFld o hi lo v).boot = s.boot := rfl
@[simp] theorem State.setFld_ww (s : State) (o hi lo v : Nat) : (s.setFld o hi lo v).ww = s.ww := rfl
@[simp] theorem State.setFld_gate (s : State) (o hi lo v : Nat) : (s.setFld o hi lo v).gate = s.gate := rfl
@[simp] theorem State.setFld_musters (s : State) (o hi lo v : Nat) : (s.setFld o hi lo v).musters = s.musters := rfl
@[simp] theorem State.setFld_tiles (s : State) (o hi lo v : Nat) : (s.setFld o hi lo v).tiles = s.tiles := rfl
@[simp] theorem State.setFld_reaches (s : State) (o hi lo v : Nat) : (s.setFld o hi lo v).reaches = s.reaches := rfl
@[simp] theorem State.setFld_flights (s : State) (o hi lo v : Nat) : (s.setFld o hi lo v).flights = s.flights := rfl
@[simp] theorem State.setFld_contexts (s : State) (o hi lo v : Nat) : (s.setFld o hi lo v).contexts = s.contexts := rfl
@[simp] theorem State.setFld_waits (s : State) (o hi lo v : Nat) : (s.setFld o hi lo v).waits = s.waits := rfl
@[simp] theorem State.setFld_canals (s : State) (o hi lo v : Nat) : (s.setFld o hi lo v).canals = s.canals := rfl
@[simp] theorem State.setFld_tickets (s : State) (o hi lo v : Nat) : (s.setFld o hi lo v).tickets = s.tickets := rfl
@[simp] theorem State.setFld_remote (s : State) (o hi lo v : Nat) : (s.setFld o hi lo v).remote = s.remote := rfl
@[simp] theorem State.setFld_stk (s : State) (o hi lo v : Nat) : (s.setFld o hi lo v).stk = s.stk := rfl
@[simp] theorem State.setFld_basin (s : State) (o hi lo v : Nat) : (s.setFld o hi lo v).basin = s.basin := rfl
@[simp] theorem State.setFld_lks (s : State) (o hi lo v : Nat) : (s.setFld o hi lo v).lks = s.lks := rfl
@[simp] theorem State.setFld_port (s : State) (o hi lo v : Nat) : (s.setFld o hi lo v).port = s.port := rfl
@[simp] theorem State.setFld_berths (s : State) (o hi lo v : Nat) : (s.setFld o hi lo v).berths = s.berths := rfl
@[simp] theorem State.setFld_power (s : State) (o hi lo v : Nat) : (s.setFld o hi lo v).power = s.power := rfl
@[simp] theorem State.setFld_flt (s : State) (o hi lo v : Nat) : (s.setFld o hi lo v).flt = s.flt := rfl
@[simp] theorem State.setFld_xlt (s : State) (o hi lo v : Nat) : (s.setFld o hi lo v).xlt = s.xlt := rfl
@[simp] theorem State.setFld_hdm (s : State) (o hi lo v : Nat) : (s.setFld o hi lo v).hdm = s.hdm := rfl
@[simp] theorem State.setFld_host (s : State) (o hi lo v : Nat) : (s.setFld o hi lo v).host = s.host := rfl
@[simp] theorem State.setFld_actCopy (s : State) (o hi lo v : Nat) : (s.setFld o hi lo v).actCopy = s.actCopy := rfl
@[simp] theorem State.setFld_out (s : State) (o hi lo v : Nat) : (s.setFld o hi lo v).out = s.out := rfl

/-! ### setBit -/

@[simp] theorem State.setBit_pending (s : State) (o i : Nat) (b : Bool) : (s.setBit o i b).pending = s.pending := rfl
@[simp] theorem State.setBit_fresh (s : State) (o i : Nat) (b : Bool) : (s.setBit o i b).fresh = s.fresh := rfl
@[simp] theorem State.setBit_fuses (s : State) (o i : Nat) (b : Bool) : (s.setBit o i b).fuses = s.fuses := rfl
@[simp] theorem State.setBit_pins (s : State) (o i : Nat) (b : Bool) : (s.setBit o i b).pins = s.pins := rfl
@[simp] theorem State.setBit_boot (s : State) (o i : Nat) (b : Bool) : (s.setBit o i b).boot = s.boot := rfl
@[simp] theorem State.setBit_ww (s : State) (o i : Nat) (b : Bool) : (s.setBit o i b).ww = s.ww := rfl
@[simp] theorem State.setBit_gate (s : State) (o i : Nat) (b : Bool) : (s.setBit o i b).gate = s.gate := rfl
@[simp] theorem State.setBit_musters (s : State) (o i : Nat) (b : Bool) : (s.setBit o i b).musters = s.musters := rfl
@[simp] theorem State.setBit_tiles (s : State) (o i : Nat) (b : Bool) : (s.setBit o i b).tiles = s.tiles := rfl
@[simp] theorem State.setBit_reaches (s : State) (o i : Nat) (b : Bool) : (s.setBit o i b).reaches = s.reaches := rfl
@[simp] theorem State.setBit_flights (s : State) (o i : Nat) (b : Bool) : (s.setBit o i b).flights = s.flights := rfl
@[simp] theorem State.setBit_contexts (s : State) (o i : Nat) (b : Bool) : (s.setBit o i b).contexts = s.contexts := rfl
@[simp] theorem State.setBit_waits (s : State) (o i : Nat) (b : Bool) : (s.setBit o i b).waits = s.waits := rfl
@[simp] theorem State.setBit_canals (s : State) (o i : Nat) (b : Bool) : (s.setBit o i b).canals = s.canals := rfl
@[simp] theorem State.setBit_tickets (s : State) (o i : Nat) (b : Bool) : (s.setBit o i b).tickets = s.tickets := rfl
@[simp] theorem State.setBit_remote (s : State) (o i : Nat) (b : Bool) : (s.setBit o i b).remote = s.remote := rfl
@[simp] theorem State.setBit_stk (s : State) (o i : Nat) (b : Bool) : (s.setBit o i b).stk = s.stk := rfl
@[simp] theorem State.setBit_basin (s : State) (o i : Nat) (b : Bool) : (s.setBit o i b).basin = s.basin := rfl
@[simp] theorem State.setBit_lks (s : State) (o i : Nat) (b : Bool) : (s.setBit o i b).lks = s.lks := rfl
@[simp] theorem State.setBit_port (s : State) (o i : Nat) (b : Bool) : (s.setBit o i b).port = s.port := rfl
@[simp] theorem State.setBit_berths (s : State) (o i : Nat) (b : Bool) : (s.setBit o i b).berths = s.berths := rfl
@[simp] theorem State.setBit_power (s : State) (o i : Nat) (b : Bool) : (s.setBit o i b).power = s.power := rfl
@[simp] theorem State.setBit_flt (s : State) (o i : Nat) (b : Bool) : (s.setBit o i b).flt = s.flt := rfl
@[simp] theorem State.setBit_xlt (s : State) (o i : Nat) (b : Bool) : (s.setBit o i b).xlt = s.xlt := rfl
@[simp] theorem State.setBit_hdm (s : State) (o i : Nat) (b : Bool) : (s.setBit o i b).hdm = s.hdm := rfl
@[simp] theorem State.setBit_host (s : State) (o i : Nat) (b : Bool) : (s.setBit o i b).host = s.host := rfl
@[simp] theorem State.setBit_actCopy (s : State) (o i : Nat) (b : Bool) : (s.setBit o i b).actCopy = s.actCopy := rfl
@[simp] theorem State.setBit_out (s : State) (o i : Nat) (b : Bool) : (s.setBit o i b).out = s.out := rfl

/-! ### muster -/

@[simp] theorem State.muster_pending (s : State) (tag bid n : Nat) : (s.muster tag bid n).pending = s.pending := rfl
@[simp] theorem State.muster_fresh (s : State) (tag bid n : Nat) : (s.muster tag bid n).fresh = s.fresh := rfl
@[simp] theorem State.muster_fuses (s : State) (tag bid n : Nat) : (s.muster tag bid n).fuses = s.fuses := rfl
@[simp] theorem State.muster_pins (s : State) (tag bid n : Nat) : (s.muster tag bid n).pins = s.pins := rfl
@[simp] theorem State.muster_boot (s : State) (tag bid n : Nat) : (s.muster tag bid n).boot = s.boot := rfl
@[simp] theorem State.muster_regs (s : State) (tag bid n : Nat) : (s.muster tag bid n).regs = s.regs := rfl
@[simp] theorem State.muster_ww (s : State) (tag bid n : Nat) : (s.muster tag bid n).ww = s.ww := rfl
@[simp] theorem State.muster_gate (s : State) (tag bid n : Nat) : (s.muster tag bid n).gate = s.gate := rfl
@[simp] theorem State.muster_tiles (s : State) (tag bid n : Nat) : (s.muster tag bid n).tiles = s.tiles := rfl
@[simp] theorem State.muster_reaches (s : State) (tag bid n : Nat) : (s.muster tag bid n).reaches = s.reaches := rfl
@[simp] theorem State.muster_flights (s : State) (tag bid n : Nat) : (s.muster tag bid n).flights = s.flights := rfl
@[simp] theorem State.muster_contexts (s : State) (tag bid n : Nat) : (s.muster tag bid n).contexts = s.contexts := rfl
@[simp] theorem State.muster_waits (s : State) (tag bid n : Nat) : (s.muster tag bid n).waits = s.waits := rfl
@[simp] theorem State.muster_canals (s : State) (tag bid n : Nat) : (s.muster tag bid n).canals = s.canals := rfl
@[simp] theorem State.muster_tickets (s : State) (tag bid n : Nat) : (s.muster tag bid n).tickets = s.tickets := rfl
@[simp] theorem State.muster_remote (s : State) (tag bid n : Nat) : (s.muster tag bid n).remote = s.remote := rfl
@[simp] theorem State.muster_stk (s : State) (tag bid n : Nat) : (s.muster tag bid n).stk = s.stk := rfl
@[simp] theorem State.muster_basin (s : State) (tag bid n : Nat) : (s.muster tag bid n).basin = s.basin := rfl
@[simp] theorem State.muster_lks (s : State) (tag bid n : Nat) : (s.muster tag bid n).lks = s.lks := rfl
@[simp] theorem State.muster_port (s : State) (tag bid n : Nat) : (s.muster tag bid n).port = s.port := rfl
@[simp] theorem State.muster_berths (s : State) (tag bid n : Nat) : (s.muster tag bid n).berths = s.berths := rfl
@[simp] theorem State.muster_power (s : State) (tag bid n : Nat) : (s.muster tag bid n).power = s.power := rfl
@[simp] theorem State.muster_flt (s : State) (tag bid n : Nat) : (s.muster tag bid n).flt = s.flt := rfl
@[simp] theorem State.muster_xlt (s : State) (tag bid n : Nat) : (s.muster tag bid n).xlt = s.xlt := rfl
@[simp] theorem State.muster_hdm (s : State) (tag bid n : Nat) : (s.muster tag bid n).hdm = s.hdm := rfl
@[simp] theorem State.muster_host (s : State) (tag bid n : Nat) : (s.muster tag bid n).host = s.host := rfl
@[simp] theorem State.muster_actCopy (s : State) (tag bid n : Nat) : (s.muster tag bid n).actCopy = s.actCopy := rfl
@[simp] theorem State.muster_out (s : State) (tag bid n : Nat) : (s.muster tag bid n).out = s.out := rfl

/-! ### putLine -/

@[simp] theorem State.putLine_pending (s : State) (l : Line) : (s.putLine l).pending = s.pending := rfl
@[simp] theorem State.putLine_fresh (s : State) (l : Line) : (s.putLine l).fresh = s.fresh := rfl
@[simp] theorem State.putLine_fuses (s : State) (l : Line) : (s.putLine l).fuses = s.fuses := rfl
@[simp] theorem State.putLine_pins (s : State) (l : Line) : (s.putLine l).pins = s.pins := rfl
@[simp] theorem State.putLine_boot (s : State) (l : Line) : (s.putLine l).boot = s.boot := rfl
@[simp] theorem State.putLine_regs (s : State) (l : Line) : (s.putLine l).regs = s.regs := rfl
@[simp] theorem State.putLine_ww (s : State) (l : Line) : (s.putLine l).ww = s.ww := rfl
@[simp] theorem State.putLine_gate (s : State) (l : Line) : (s.putLine l).gate = s.gate := rfl
@[simp] theorem State.putLine_musters (s : State) (l : Line) : (s.putLine l).musters = s.musters := rfl
@[simp] theorem State.putLine_tiles (s : State) (l : Line) : (s.putLine l).tiles = s.tiles := rfl
@[simp] theorem State.putLine_reaches (s : State) (l : Line) : (s.putLine l).reaches = s.reaches := rfl
@[simp] theorem State.putLine_flights (s : State) (l : Line) : (s.putLine l).flights = s.flights := rfl
@[simp] theorem State.putLine_contexts (s : State) (l : Line) : (s.putLine l).contexts = s.contexts := rfl
@[simp] theorem State.putLine_waits (s : State) (l : Line) : (s.putLine l).waits = s.waits := rfl
@[simp] theorem State.putLine_canals (s : State) (l : Line) : (s.putLine l).canals = s.canals := rfl
@[simp] theorem State.putLine_tickets (s : State) (l : Line) : (s.putLine l).tickets = s.tickets := rfl
@[simp] theorem State.putLine_remote (s : State) (l : Line) : (s.putLine l).remote = s.remote := rfl
@[simp] theorem State.putLine_stk (s : State) (l : Line) : (s.putLine l).stk = s.stk := rfl
@[simp] theorem State.putLine_lks (s : State) (l : Line) : (s.putLine l).lks = s.lks := rfl
@[simp] theorem State.putLine_port (s : State) (l : Line) : (s.putLine l).port = s.port := rfl
@[simp] theorem State.putLine_berths (s : State) (l : Line) : (s.putLine l).berths = s.berths := rfl
@[simp] theorem State.putLine_power (s : State) (l : Line) : (s.putLine l).power = s.power := rfl
@[simp] theorem State.putLine_flt (s : State) (l : Line) : (s.putLine l).flt = s.flt := rfl
@[simp] theorem State.putLine_xlt (s : State) (l : Line) : (s.putLine l).xlt = s.xlt := rfl
@[simp] theorem State.putLine_hdm (s : State) (l : Line) : (s.putLine l).hdm = s.hdm := rfl
@[simp] theorem State.putLine_host (s : State) (l : Line) : (s.putLine l).host = s.host := rfl
@[simp] theorem State.putLine_actCopy (s : State) (l : Line) : (s.putLine l).actCopy = s.actCopy := rfl
@[simp] theorem State.putLine_out (s : State) (l : Line) : (s.putLine l).out = s.out := rfl

/-! ### putCopy -/

@[simp] theorem State.putCopy_pending (s : State) (c : Copy) : (s.putCopy c).pending = s.pending := rfl
@[simp] theorem State.putCopy_fresh (s : State) (c : Copy) : (s.putCopy c).fresh = s.fresh := rfl
@[simp] theorem State.putCopy_fuses (s : State) (c : Copy) : (s.putCopy c).fuses = s.fuses := rfl
@[simp] theorem State.putCopy_pins (s : State) (c : Copy) : (s.putCopy c).pins = s.pins := rfl
@[simp] theorem State.putCopy_boot (s : State) (c : Copy) : (s.putCopy c).boot = s.boot := rfl
@[simp] theorem State.putCopy_regs (s : State) (c : Copy) : (s.putCopy c).regs = s.regs := rfl
@[simp] theorem State.putCopy_ww (s : State) (c : Copy) : (s.putCopy c).ww = s.ww := rfl
@[simp] theorem State.putCopy_gate (s : State) (c : Copy) : (s.putCopy c).gate = s.gate := rfl
@[simp] theorem State.putCopy_musters (s : State) (c : Copy) : (s.putCopy c).musters = s.musters := rfl
@[simp] theorem State.putCopy_tiles (s : State) (c : Copy) : (s.putCopy c).tiles = s.tiles := rfl
@[simp] theorem State.putCopy_reaches (s : State) (c : Copy) : (s.putCopy c).reaches = s.reaches := rfl
@[simp] theorem State.putCopy_flights (s : State) (c : Copy) : (s.putCopy c).flights = s.flights := rfl
@[simp] theorem State.putCopy_contexts (s : State) (c : Copy) : (s.putCopy c).contexts = s.contexts := rfl
@[simp] theorem State.putCopy_waits (s : State) (c : Copy) : (s.putCopy c).waits = s.waits := rfl
@[simp] theorem State.putCopy_canals (s : State) (c : Copy) : (s.putCopy c).canals = s.canals := rfl
@[simp] theorem State.putCopy_tickets (s : State) (c : Copy) : (s.putCopy c).tickets = s.tickets := rfl
@[simp] theorem State.putCopy_remote (s : State) (c : Copy) : (s.putCopy c).remote = s.remote := rfl
@[simp] theorem State.putCopy_stk (s : State) (c : Copy) : (s.putCopy c).stk = s.stk := rfl
@[simp] theorem State.putCopy_lks (s : State) (c : Copy) : (s.putCopy c).lks = s.lks := rfl
@[simp] theorem State.putCopy_port (s : State) (c : Copy) : (s.putCopy c).port = s.port := rfl
@[simp] theorem State.putCopy_berths (s : State) (c : Copy) : (s.putCopy c).berths = s.berths := rfl
@[simp] theorem State.putCopy_power (s : State) (c : Copy) : (s.putCopy c).power = s.power := rfl
@[simp] theorem State.putCopy_flt (s : State) (c : Copy) : (s.putCopy c).flt = s.flt := rfl
@[simp] theorem State.putCopy_xlt (s : State) (c : Copy) : (s.putCopy c).xlt = s.xlt := rfl
@[simp] theorem State.putCopy_hdm (s : State) (c : Copy) : (s.putCopy c).hdm = s.hdm := rfl
@[simp] theorem State.putCopy_host (s : State) (c : Copy) : (s.putCopy c).host = s.host := rfl
@[simp] theorem State.putCopy_actCopy (s : State) (c : Copy) : (s.putCopy c).actCopy = s.actCopy := rfl
@[simp] theorem State.putCopy_out (s : State) (c : Copy) : (s.putCopy c).out = s.out := rfl

/-! ### seal -/

@[simp] theorem State.seal_pending (t s : State) : (t.seal s).pending = s.pending := rfl
@[simp] theorem State.seal_fresh (t s : State) : (t.seal s).fresh = t.fresh := rfl
@[simp] theorem State.seal_fuses (t s : State) : (t.seal s).fuses = s.fuses := rfl
@[simp] theorem State.seal_pins (t s : State) :
    (t.seal s).pins = { t.pins with faultOut := faultLevel t } := rfl
@[simp] theorem State.seal_boot (t s : State) : (t.seal s).boot = t.boot := rfl
@[simp] theorem State.seal_regs (t s : State) : (t.seal s).regs = t.regs := rfl
@[simp] theorem State.seal_ww (t s : State) : (t.seal s).ww = t.ww := rfl
@[simp] theorem State.seal_gate (t s : State) : (t.seal s).gate = t.gate := rfl
@[simp] theorem State.seal_musters (t s : State) : (t.seal s).musters = t.musters := rfl
@[simp] theorem State.seal_tiles (t s : State) : (t.seal s).tiles = t.tiles := rfl
@[simp] theorem State.seal_reaches (t s : State) : (t.seal s).reaches = t.reaches := rfl
@[simp] theorem State.seal_flights (t s : State) : (t.seal s).flights = t.flights := rfl
@[simp] theorem State.seal_contexts (t s : State) : (t.seal s).contexts = t.contexts := rfl
@[simp] theorem State.seal_waits (t s : State) : (t.seal s).waits = t.waits := rfl
@[simp] theorem State.seal_canals (t s : State) : (t.seal s).canals = t.canals := rfl
@[simp] theorem State.seal_tickets (t s : State) : (t.seal s).tickets = t.tickets := rfl
@[simp] theorem State.seal_remote (t s : State) : (t.seal s).remote = t.remote := rfl
@[simp] theorem State.seal_stk (t s : State) : (t.seal s).stk = t.stk := rfl
@[simp] theorem State.seal_basin (t s : State) : (t.seal s).basin = t.basin := rfl
@[simp] theorem State.seal_lks (t s : State) : (t.seal s).lks = t.lks := rfl
@[simp] theorem State.seal_port (t s : State) : (t.seal s).port = t.port := rfl
@[simp] theorem State.seal_berths (t s : State) : (t.seal s).berths = t.berths := rfl
@[simp] theorem State.seal_power (t s : State) : (t.seal s).power = t.power := rfl
@[simp] theorem State.seal_flt (t s : State) : (t.seal s).flt = t.flt := rfl
@[simp] theorem State.seal_xlt (t s : State) : (t.seal s).xlt = t.xlt := rfl
@[simp] theorem State.seal_hdm (t s : State) : (t.seal s).hdm = t.hdm := rfl
@[simp] theorem State.seal_host (t s : State) : (t.seal s).host = t.host := rfl
@[simp] theorem State.seal_actCopy (t s : State) : (t.seal s).actCopy = t.actCopy := rfl
@[simp] theorem State.seal_out (t s : State) : (t.seal s).out = t.out := rfl

/-! ### What a unit reads as after an update -/

theorem State.tile_setTile (s : State) (t j : Nat) (x : Tile) :
    (s.setTile t x).tile j = if t = j then x else s.tile j := by
  exact sget_sset_dep (tileDefault s.fuses) _ _ _ _

@[simp] theorem State.tile_setTile_self (s : State) (t : Nat) (x : Tile) : (s.setTile t x).tile t = x := by
  simp [State.tile_setTile]

theorem State.reach_setReach (s : State) (p j : Nat) (r : Reach) :
    (s.setReach p r).reach j = if p = j then r else s.reach j := by
  exact sget_sset_dep (reachDefault s.fuses) _ _ _ _

@[simp] theorem State.reach_setReach_self (s : State) (p : Nat) (r : Reach) : (s.setReach p r).reach p = r := by
  simp [State.reach_setReach]

theorem State.flight_setFlight (s : State) (k j : Nat) (x : Flight) :
    (s.setFlight k x).flight j = if k = j then x else s.flight j := by
  simp [State.flight, State.setFlight, sget_sset]

@[simp] theorem State.flight_setFlight_self (s : State) (k : Nat) (x : Flight) : (s.setFlight k x).flight k = x := by
  simp [State.flight_setFlight]

theorem State.context_setContext (s : State) (c j : Nat) (x : Context) :
    (s.setContext c x).context j = if c = j then x else s.context j := by
  simp [State.context, State.setContext, sget_sset]

@[simp] theorem State.context_setContext_self (s : State) (c : Nat) (x : Context) : (s.setContext c x).context c = x := by
  simp [State.context_setContext]

theorem State.canal_setCanal (s : State) (p j : Nat) (x : Canal) :
    (s.setCanal p x).canal j = if p = j then x else s.canal j := by
  simp [State.canal, State.setCanal, sget_sset]

@[simp] theorem State.canal_setCanal_self (s : State) (p : Nat) (x : Canal) : (s.setCanal p x).canal p = x := by
  simp [State.canal_setCanal]

theorem State.stack_setStack (s : State) (p j : Nat) (x : Stack) :
    (s.setStack p x).stack j = if p = j then x else s.stack j := by
  simp [State.stack, State.setStack, sget_sset]

@[simp] theorem State.stack_setStack_self (s : State) (p : Nat) (x : Stack) : (s.setStack p x).stack p = x := by
  simp [State.stack_setStack]

theorem State.lk_setLk (s : State) (k j : Nat) (x : Lockkeeper) :
    (s.setLk k x).lk j = if k = j then x else s.lk j := by
  exact sget_sset_dep (lkDefault s.fuses) _ _ _ _

@[simp] theorem State.lk_setLk_self (s : State) (k : Nat) (x : Lockkeeper) : (s.setLk k x).lk k = x := by
  simp [State.lk_setLk]

theorem State.berth_setBerth (s : State) (b j : Nat) (x : Berth) :
    (s.setBerth b x).berth j = if b = j then x else s.berth j := by
  simp [State.berth, State.setBerth, sget_sset]

@[simp] theorem State.berth_setBerth_self (s : State) (b : Nat) (x : Berth) : (s.setBerth b x).berth b = x := by
  simp [State.berth_setBerth]

theorem State.reg_setReg (s : State) (o j : Nat) (v : Reg) :
    (s.setReg o v).reg j = if o = j then v else s.reg j := by
  exact sget_sset_dep (regReset s.fuses) _ _ _ _

@[simp] theorem State.reg_setReg_self (s : State) (o : Nat) (v : Reg) : (s.setReg o v).reg o = v := by
  simp [State.reg_setReg]

end Sys2Proof.Machine
end

