-- ==== Sys2Proof/Laws/Ops.lean ====
section
/-! SUPPORT. What the shared operations that end a command do, and the lemmas by which a statement about a command is
reduced to one about its effect. -/

namespace Sys2Proof.Machine

theorem done_eq (s t : State) : done s t = .next (t.seal s) := rfl

theorem doneLive_of_live {s : State} (h : s.Live) (t : State) : doneLive s t = .next (t.seal s) := by
  simp [doneLive, done, show s.boot.safe = false from h]

theorem doneLive_of_safe {s : State} (h : s.boot.safe = true) (t : State) : doneLive s t = .next (s.seal s) := by
  simp [doneLive, done, h]

/-- A command that acts in safe state too completes with its effect. -/
theorem completes_done {c : Instr} {s t : State} {P : State → Prop} (h : exec c s = done s t) (p : P (t.seal s)) :
    Completes c s P := ⟨_, h, p⟩

/-- A command that safe state stops completes with its effect on a live device. -/
theorem completes_live {c : Instr} {s t : State} {P : State → Prop} (hl : s.Live) (h : exec c s = doneLive s t)
    (p : P (t.seal s)) : Completes c s P := ⟨_, h.trans (doneLive_of_live hl t), p⟩

/-- Sealing twice is sealing once. -/
@[simp] theorem State.seal_seal (u t s : State) : (u.seal t).seal s = u.seal s := rfl

theorem faultLevel_seal (t s : State) : faultLevel (t.seal s) = faultLevel t ∨ t.fuses ≠ s.fuses := by
  by_cases h : t.fuses = s.fuses
  · left; simp [faultLevel, State.seal, State.bit, State.fld, State.reg, h]
  · right; exact h

end Sys2Proof.Machine
end

