-- ==== Sys2Proof/Laws/Faults.lean ====
section
/-! SUPPORT. What a fault message can change (R599 to R617): the collector, registers, gate orders, flights, musters,
what the block sends, and the memory its ring lies in; everything else it leaves alone. -/

namespace Sys2Proof.Machine

/-- What no fault message changes. -/
structure State.Kept (s t : State) : Prop where
  pending  : t.pending = s.pending
  fuses    : t.fuses = s.fuses
  boot     : t.boot = s.boot
  ww       : t.ww = s.ww
  tiles    : t.tiles = s.tiles
  reaches  : t.reaches = s.reaches
  contexts : t.contexts = s.contexts
  waits    : t.waits = s.waits
  canals   : t.canals = s.canals
  tickets  : t.tickets = s.tickets
  remote   : t.remote = s.remote
  berths   : t.berths = s.berths
  power    : t.power = s.power
  xlt      : t.xlt = s.xlt
  actCopy  : t.actCopy = s.actCopy

namespace State.Kept

theorem self (s : State) : s.Kept s := by constructor <;> rfl

theorem trans {s t u : State} (a : s.Kept t) (b : t.Kept u) : s.Kept u :=
  ⟨b.1.trans a.1, b.2.trans a.2, b.3.trans a.3, b.4.trans a.4, b.5.trans a.5, b.6.trans a.6, b.7.trans a.7,
   b.8.trans a.8, b.9.trans a.9, b.10.trans a.10, b.11.trans a.11, b.12.trans a.12, b.13.trans a.13,
   b.14.trans a.14, b.15.trans a.15⟩

/-- A loop keeps what each of its rounds keeps. -/
theorem foldl {α : Type} (f : State → α → State) (hf : ∀ (s : State) (a : α), s.Kept (f s a)) (l : List α) (s : State) :
    s.Kept (l.foldl f s) := by
  induction l generalizing s with
  | nil => exact self s
  | cons a l ih => exact (hf s a).trans (ih _)

theorem tile {s t : State} (h : s.Kept t) (k : Nat) : t.tile k = s.tile k := by
  simp [State.tile, h.tiles, h.fuses]

theorem context {s t : State} (h : s.Kept t) (c : Nat) : t.context c = s.context c := by
  simp [State.context, h.contexts]

theorem cond {s a b : State} {p : Prop} [Decidable p] (ha : s.Kept a) (hb : s.Kept b) : s.Kept (if p then a else b) := by
  split
  · exact ha
  · exact hb

end State.Kept

open State.Kept (self trans cond)

theorem setReg_kept (s : State) (o : Nat) (v : Reg) : s.Kept (s.setReg o v) := by constructor <;> rfl
theorem setBit_kept (s : State) (o i : Nat) (b : Bool) : s.Kept (s.setBit o i b) := setReg_kept ..
theorem setFlight_kept (s : State) (k : Nat) (f : Flight) : s.Kept (s.setFlight k f) := by constructor <;> rfl
theorem emit_kept (s : State) (o : Out) : s.Kept (s.emit o) := by constructor <;> rfl
theorem setLk_kept (s : State) (k : Nat) (x : Lockkeeper) : s.Kept (s.setLk k x) := by constructor <;> rfl
theorem port_kept (s : State) (p : HostPort) : s.Kept { s with port := p } := by constructor <;> rfl
theorem pins_kept (s : State) (p : Pins) : s.Kept { s with pins := p } := by constructor <;> rfl
theorem flt_kept (s : State) (c : Collector) : s.Kept { s with flt := c } := by constructor <;> rfl
theorem host_kept (s : State) (m : Ram) : s.Kept { s with host := m } := by constructor <;> rfl
theorem hdm_kept (s : State) (m : Ram) : s.Kept { s with hdm := m } := by constructor <;> rfl
theorem basin_kept (s : State) (b : Basin) : s.Kept { s with basin := b } := by constructor <;> rfl
theorem gate_kept (s : State) (g : GateState) : s.Kept { s with gate := g } := by constructor <;> rfl
theorem musters_kept (s : State) (m : List MusterItem) : s.Kept { s with musters := m } := by constructor <;> rfl

theorem bump_kept (s : State) (o : Nat) : s.Kept (s.bump o) := cond (self s) (setReg_kept ..)
theorem order_kept (s : State) (f : Gate → Gate) : s.Kept (s.order f) := cond (gate_kept ..) (gate_kept ..)
theorem holdSlot_kept (s : State) (k : Nat) : s.Kept (s.holdSlot k) := by
  unfold State.holdSlot State.holdTag State.orderTag
  exact order_kept ..
theorem ownFaultBit_kept (s : State) : s.Kept s.ownFaultBit := order_kept s _
theorem muster_kept (s : State) (a b n : Nat) : s.Kept (s.muster a b n) := musters_kept s _
theorem musterOnce_kept (s : State) (a b : Nat) : s.Kept (s.musterOnce a b) := cond (self s) (muster_kept ..)

theorem sendVec_kept (s : State) (v : Nat) : s.Kept (s.sendVec v) :=
  cond (self s) (cond (port_kept s _) (cond (port_kept s _) (emit_kept s _)))

theorem irq_kept (s : State) (n : Nat) : s.Kept (s.irq n) := by
  unfold State.irq
  exact (setBit_kept s IRQ_PEND n true).trans (cond (sendVec_kept ..) (self _))

theorem hostWrite_kept (s : State) (a : Nat) (bs : List Byte) (p : Bool) : s.Kept (s.hostWrite a bs p) :=
  cond ((host_kept s _).trans (emit_kept ..)) (port_kept s _)

theorem putLine_kept (s : State) (l : Line) : s.Kept (s.putLine l) := basin_kept s _
theorem snoopHost_kept (s : State) (la : Nat) (i : Bool) : s.Kept (s.snoopHost la i) :=
  cond (self s) (cond ((port_kept s _).trans (emit_kept ..)) (port_kept s _))

theorem recallHost_kept (s : State) (h : Bool) (la : Nat) : s.Kept (s.recallHost h la) := by
  unfold State.recallHost
  split
  · exact cond (snoopHost_kept ..) (self s)
  · exact self s

theorem recall_kept (s : State) (h : Bool) (la : Nat) : s.Kept (s.recall h la) := by
  unfold State.recall
  split
  · exact putLine_kept ..
  · exact self s

theorem cancelResv_kept (s : State) (h : Bool) (la : Nat) (k : Option Nat) : s.Kept (s.cancelResv h la k) :=
  cond (self s) (State.Kept.foldl _ (fun _ _ => setLk_kept ..) _ _)

theorem snoopBerths_kept (s : State) (h : Bool) (la : Nat) (k : Option Nat) : s.Kept (s.snoopBerths h la k) :=
  State.Kept.foldl _ (fun _ _ => emit_kept ..) _ _

theorem dropCopies_kept (s : State) (h : Bool) (la : Nat) (k : Option Nat) : s.Kept (s.dropCopies h la k) :=
  ((cancelResv_kept s h la k).trans (snoopBerths_kept ..)).trans (basin_kept _ _)

theorem mergeLine_kept (s : State) (h : Bool) (la off : Nat) (bs : List Byte) (p d : Bool) :
    s.Kept (s.mergeLine h la off bs p d) := by
  unfold State.mergeLine
  split
  · exact self s
  · exact putLine_kept ..

theorem setStack_kept (s : State) (n : Nat) (k : Stack) : s.Kept (s.setStack n k) := by constructor <;> rfl

theorem stkErr_kept (s : State) (d b : Nat) : s.Kept (s.stkErr d b) := by
  unfold State.stkErr
  split
  · exact setBit_kept ..
  · exact self s

theorem dropWriteback_kept (s : State) (d : Nat) : s.Kept (s.dropWriteback d) := by
  unfold State.dropWriteback
  split
  · exact setStack_kept ..
  · exact self s

theorem wholeMark_kept (s : State) (port : Nat) (p : Bool) : s.Kept (s.wholeMark port p).1 := by
  unfold State.wholeMark
  dsimp only
  split
  · exact (setBit_kept ..).trans (setBit_kept ..)
  · split
    · exact setBit_kept ..
    · exact self s

theorem quietStore_kept (s : State) (a : Nat) (bs : List Byte) : s.Kept (s.quietStore a bs) := by
  unfold State.quietStore
  split
  · refine State.Kept.foldl _ (fun s w => ?_) _ _
    dsimp only
    split
    · exact self s
    · exact ((dropWriteback_kept s _).trans (wholeMark_kept ..)).trans (hdm_kept _ _)
  · exact stkErr_kept ..
  · exact stkErr_kept ..
  · exact stkErr_kept ..
  · exact self s

theorem flagWrite_kept (s : State) (h : Bool) (a : Nat) (bs : List Byte) : s.Kept (s.flagWrite h a bs) := by
  refine cond (hostWrite_kept ..) (State.Kept.foldl _ (fun s la => ?_) _ _)
  have h : s.Kept (((s.recallHost false la).recall false la).dropCopies false la none) :=
    ((recallHost_kept s false la).trans (recall_kept _ false la)).trans (dropCopies_kept ..)
  dsimp only
  split
  · exact h.trans (mergeLine_kept ..)
  · exact h.trans (quietStore_kept ..)

theorem logRecord_kept (s : State) (m : FaultMsg) (e : Bool) : s.Kept (s.logRecord m e).1 := by
  unfold State.logRecord
  split
  · exact bump_kept ..
  · dsimp only
    refine trans (t := if _ then _ else _) (cond (bump_kept s FLT_LOG_OVF) (self s)) (flt_kept _ _)

theorem ringRecord_kept (s : State) (m : FaultMsg) (e : Bool) : s.Kept (s.ringRecord m e).1 := by
  unfold State.ringRecord
  split
  · exact self s
  · dsimp only
    split
    · exact bump_kept ..
    · exact (flagWrite_kept ..).trans (flt_kept _ _)

theorem fatalFlight_kept (s : State) (k st : Nat) : s.Kept (s.fatalFlight k st) :=
  cond ((setFlight_kept ..).trans (holdSlot_kept ..)) (self s)

theorem react_kept (s : State) (r : Reaction) : s.Kept (s.react r) := cond (self s) (flt_kept s _)

theorem retireBound_kept (s : State) (m : FaultMsg) : s.Kept (s.retireBound m) := by
  unfold State.retireBound
  have h := react_kept s (.retireTile m.inst)
  dsimp only
  split
  · exact h
  · exact h.trans (cond (self _) ((holdSlot_kept _ _).trans (cond (self _)
      (cond (musterOnce_kept ..) (fatalFlight_kept ..)))))

theorem retire_kept (s : State) (m : FaultMsg) : s.Kept (s.retire m) := by
  unfold State.retire
  split
  · exact (react_kept ..).trans (ownFaultBit_kept _)
  · exact retireBound_kept ..
  · exact react_kept ..
  · exact react_kept ..
  · split
    · exact react_kept ..
    · exact self s
  · exact react_kept ..
  · exact cond (react_kept ..) (react_kept ..)
  · exact cond ((react_kept ..).trans (ownFaultBit_kept _)) (self s)
  · exact self s

theorem haltFault_kept (s : State) : s.Kept s.haltFault :=
  (flt_kept s _).trans ((react_kept _ _).trans (ownFaultBit_kept _))

theorem reactFatal_kept (s : State) (m : FaultMsg) : s.Kept (s.reactFatal m) := by
  unfold State.reactFatal
  split
  · split
    · exact fatalFlight_kept ..
    · exact self s
  · split
    · exact fatalFlight_kept ..
    · exact self s
  · exact State.Kept.foldl _ (fun _ _ => fatalFlight_kept ..) _ _
  · exact flt_kept s _
  · exact haltFault_kept s

theorem replayFlight_kept (s : State) (k : Nat) : s.Kept (s.replayFlight k).1 := by
  unfold State.replayFlight
  dsimp only
  split
  · exact self s
  · split
    · exact (holdSlot_kept ..).trans (musterOnce_kept ..)
    · exact fatalFlight_kept ..

theorem reactClass_kept (s : State) (m : FaultMsg) (c : Nat) : s.Kept (s.reactClass m c).1 := by
  unfold State.reactClass
  split
  · split
    · split
      · exact replayFlight_kept ..
      · exact self s
    · exact self s
  · exact retire_kept ..
  · exact reactFatal_kept ..
  · exact self s

theorem countFault_kept (s : State) (m : FaultMsg) : s.Kept (s.countFault m).1 := by
  unfold State.countFault
  dsimp only
  split
  · exact self s
  · exact (flt_kept s _).trans (cond (setBit_kept ..) (self _))

theorem recordFault_kept (s : State) (m : FaultMsg) (e : Bool) : s.Kept (s.recordFault m e) :=
  (((logRecord_kept s m e).trans (ringRecord_kept _ m e)).trans (setBit_kept _ FLT_STAT m.cls true)).trans
    (trans (cond (irq_kept ..) (self _)) (cond (pins_kept _ _) (self _)))

theorem collect_kept (s : State) (m : FaultMsg) : s.Kept (s.collect m).1 := by
  unfold State.collect
  have h := fun n => (countFault_kept s m).trans (recordFault_kept _ n (s.countFault m).2)
  dsimp only
  split
  · exact (h _).trans (reactClass_kept ..)
  · split
    · exact ((h _).trans (reactClass_kept ..)).trans (reactClass_kept ..)
    · exact (h _).trans (reactClass_kept ..)

/-- A fault message keeps everything that `Kept` names. -/
theorem fault_kept (s : State) (m : FaultMsg) : s.Kept (s.fault m) := by
  unfold State.fault
  exact (collect_kept s m).trans (State.Kept.foldl _ (fun s m => collect_kept s m) _ _)

end Sys2Proof.Machine
end

