-- ==== Sys2Proof/Laws/Memory.lean ====
section
/-! SUPPORT. The canonical form of the state's memories: that the state after reset has it, and that the parts cut out of
a memory keep it. -/

namespace Sys2Proof.Machine

theorem sabove_filter {α : Type} {b : Nat} {m : SMap α} (p : Nat × α → Bool) (h : sabove b m) :
    sabove b (m.filter p) := fun e he => h e (List.mem_filter.1 he).1

theorem swf_filter {α : Type} [DecidableEq α] {d : α} (p : Nat × α → Bool) {m : SMap α} (h : swf d m = true) :
    swf d (m.filter p) = true := by
  induction m with
  | nil => simpa using h
  | cons e m ih =>
    obtain ⟨k, v⟩ := e
    have h' := (swf_cons d k v m).1 h
    by_cases hp : p (k, v) = true
    · rw [List.filter_cons_of_pos hp]
      exact (swf_cons ..).2 ⟨h'.1, sabove_filter p h'.2.1, ih h'.2.2⟩
    · rw [List.filter_cons_of_neg hp]
      exact ih h'.2.2

/-- Entries rewritten by a map that rises on the keys and gives no entry the default keep the canonical form. -/
theorem swf_map {α β : Type} [DecidableEq α] [DecidableEq β] {d : α} {d' : β} (f : Nat → Nat) (g : α → β) {m : SMap α}
    (hf : ∀ e ∈ m, ∀ e' ∈ m, e.1 < e'.1 → f e.1 < f e'.1) (hg : ∀ v, v ≠ d → g v ≠ d') (h : swf d m = true) :
    swf d' (m.map fun e => (f e.1, g e.2)) = true := by
  induction m with
  | nil => simp [swf]
  | cons e m ih =>
    obtain ⟨k, v⟩ := e
    have h' := (swf_cons d k v m).1 h
    refine (swf_cons ..).2 ⟨hg v h'.1, ?_, ih (fun a ha b hb => hf a (List.mem_cons_of_mem _ ha) b
      (List.mem_cons_of_mem _ hb)) h'.2.2⟩
    intro x hx
    obtain ⟨e, he, rfl⟩ := List.mem_map.1 hx
    exact hf _ (List.mem_cons_self ..) e (List.mem_cons_of_mem _ he) (h'.2.1 e he)

theorem swf_cutMap {α : Type} [DecidableEq α] {d : α} {m : SMap α} (a n : Nat) (h : swf d m = true) :
    swf d (cutMap m a n) = true := by
  refine swf_map (d := d) (fun k => k - a) id ?_ (fun _ h => h) (swf_filter _ h)
  intro e he e' he' hlt
  have h1 := (List.mem_filter.1 he).2
  have h2 := (List.mem_filter.1 he').2
  simp only [Bool.and_eq_true, decide_eq_true_eq] at h1 h2
  show e.1 - a < e'.1 - a
  omega

/-- A part cut out of a memory is in canonical form. -/
theorem Ram.wf_cut {m : Ram} (h : m.wf = true) (a n : Nat) : (m.cut a n).wf = true := by
  simp only [Ram.wf, Bool.and_eq_true] at h ⊢
  exact ⟨swf_cutMap a n h.1, swf_cutMap (a / 8) (n / 8) h.2⟩

/-- A hold as a snapshot records it is in canonical form (R308). -/
theorem Ram.wf_holdRam {m : Ram} (h : m.wf = true) : (holdRam m).wf = true := by
  simp only [Ram.wf, Bool.and_eq_true] at h ⊢
  refine ⟨h.1, ?_⟩
  exact swf_map (d := (0 : Nat)) (d' := (0 : Nat)) (fun k => k) (fun _ => 3) (fun _ _ _ _ h => h) (fun _ _ => by decide)
    (swf_filter _ h.2)

/-- Every memory of the state after reset is in canonical form. -/
theorem State.reset_memory_wf : State.reset.hdm.wf = true ∧ State.reset.host.wf = true ∧
    State.reset.basin.moored.wf = true ∧ State.reset.boot.store.wf = true ∧
    ∀ t, (State.reset.tile t).hold.wf = true := by
  refine ⟨rfl, rfl, rfl, rfl, fun t => ?_⟩
  simp only [State.tile, State.reset, sget]
  unfold tileDefault
  split <;> rfl

end Sys2Proof.Machine
end

