-- ==== Sys2Proof/Laws/Tile.lean ====
section
/-! SUPPORT. What issuing an operation does: the tile changes as the operation says, or stops; nothing else of a tile
but its record changes when it does not stop. -/

namespace Sys2Proof.Machine

theorem setTile_tile (s : State) (t : Nat) (y : Tile) (k : Nat) :
    (s.setTile t y).tile k = if k = t then y else s.tile k := by
  simp only [State.tile, State.setTile]
  rw [sget_sset_dep (fun j => tileDefault s.fuses j)]
  by_cases h : k = t
  · simp [h]
  · simp [h, Ne.symm h]

/-- The tiles after a command that changed one tile. -/
theorem withTile_tile (s : State) (t : Nat) (y : Tile) (k : Nat) :
    (s.withTile t y).tile k = if k = t then y else s.tile k := setTile_tile s t y k

/-- An issue whose operation does not stop. -/
theorem issue_ok {s : State} {t : Nat} {g : Guard} {op : Bool → Tile → Issue} {y : Tile} (h : s.Issues t g)
    (ho : op true (s.tile t) = .ok y) : s.issue t g op = s.setTile t y := by
  simp [State.issue, h.1, h.2.1, h.2.2, ho]

/-- A disabled operation of a bundle that issues. -/
theorem issue_skip {s : State} {t : Nat} {g : Guard} {op : Bool → Tile → Issue} {y : Tile} (h : s.Skips t g)
    (ho : op false (s.tile t) = .ok y) : s.issue t g op = s.setTile t y := by
  simp [State.issue, h.1, h.2.1, h.2.2, ho]

/-- An issue whose operation stops the tile. -/
theorem issue_stop {s : State} {t : Nat} {g : Guard} {op : Bool → Tile → Issue} {k : StopKind} {pc : Nat}
    (h : s.Issues t g) (ho : op true (s.tile t) = .stop k pc) : s.issue t g op = s.stopTile t k pc := by
  simp [State.issue, h.1, h.2.1, h.2.2, ho]

/-- Reading scalar registers whose parity is right changes nothing (R84). -/
theorem readsS_ok {rs : List Nat} {op : Bool → Tile → Issue} {en : Bool} {x : Tile} (h : x.ParityOk rs) :
    readsS rs op en x = op en x := by
  unfold readsS
  have : (rs.any fun r => sget false x.sbad r) = false := by
    rw [List.any_eq_false]
    intro r hr
    simp [h r hr]
  simp [this]

/-- A stop changes its own tile's record and no other tile's (R82, R142). -/
theorem stopTile_tile (s : State) (t : Nat) (k : StopKind) (pc : Nat) (j : Nat) :
    (s.stopTile t k pc).tile j = if j = t then (s.tile t).stopped k pc else s.tile j := by
  unfold State.stopTile
  dsimp only
  split
  · rw [(fault_kept _ _).tile, (holdSlot_kept _ _).tile, setTile_tile]
  · rw [(fault_kept _ _).tile, setTile_tile]

theorem stopTile_fuses (s : State) (t : Nat) (k : StopKind) (pc : Nat) : (s.stopTile t k pc).fuses = s.fuses := by
  unfold State.stopTile
  dsimp only
  split
  · rw [(fault_kept _ _).fuses, (holdSlot_kept _ _).fuses, State.setTile_fuses]
  · rw [(fault_kept _ _).fuses, State.setTile_fuses]

theorem seal_tile {t s : State} (h : t.fuses = s.fuses) (k : Nat) : (t.seal s).tile k = t.tile k := by
  simp [State.tile, h]

/-- The tiles after a command that stopped one (R82). -/
theorem stopTile_seal_tile (s : State) (t : Nat) (k : StopKind) (pc : Nat) (j : Nat) :
    ((s.stopTile t k pc).seal s).tile j = if j = t then (s.tile t).stopped k pc else s.tile j := by
  rw [seal_tile (stopTile_fuses ..), stopTile_tile]

/-- A free port is held and the operation goes on. -/
theorem holdAll_cons {x : Tile} {p : Port} {cs : List Nat} {ps : List (Port × List Nat)} {k : Tile → Issue}
    (h : x.Free p cs) : x.holdAll ((p, cs) :: ps) k = (x.holding p cs).holdAll ps k := by
  have : (cs.any fun c => x.held.contains (p, c)) = false := by
    rw [List.any_eq_false]
    intro c hc
    simpa using h c hc
  conv_lhs => unfold Tile.holdAll Tile.hold?
  rw [this]
  rfl

@[simp] theorem holdAll_nil (x : Tile) (k : Tile → Issue) : x.holdAll [] k = k x := rfl

/-- A port one of whose cycles is held stops the operation (R134). -/
theorem holdAll_collision {x : Tile} {p : Port} {cs : List Nat} {ps : List (Port × List Nat)} {k : Tile → Issue}
    (h : ∃ c ∈ cs, (p, c) ∈ x.held) : x.holdAll ((p, cs) :: ps) k = .stop .portCollision x.pc := by
  have : (cs.any fun c => x.held.contains (p, c)) = true := by
    obtain ⟨c, hc, hm⟩ := h
    exact List.any_eq_true.mpr ⟨c, hc, by simpa using hm⟩
  conv_lhs => unfold Tile.holdAll Tile.hold?
  rw [this]
  rfl

@[simp] theorem planIf_true (x : Tile) (rank d : Nat) (a : TileAct) : x.planIf true rank d a = x.plan rank d a := rfl
@[simp] theorem planIf_false (x : Tile) (rank d : Nat) (a : TileAct) : x.planIf false rank d a = x := rfl
@[simp] theorem planAll_false (x : Tile) (rank : Nat) (l : List (Nat × TileAct)) : x.planAll false rank l = x := rfl

/-! ### The end of a cycle -/

@[simp] theorem closeCycle_sched (x : Tile) : x.closeCycle.sched = x.sched := rfl
@[simp] theorem closeCycle_cyc (x : Tile) : x.closeCycle.cyc = x.cyc + 1 := rfl
@[simp] theorem closeCycle_sregs (x : Tile) : x.closeCycle.sregs = x.sregs := rfl
@[simp] theorem closeCycle_spoison (x : Tile) : x.closeCycle.spoison = x.spoison := rfl
@[simp] theorem closeCycle_preds (x : Tile) : x.closeCycle.preds = x.preds := rfl
@[simp] theorem closeCycle_lcs (x : Tile) : x.closeCycle.lcs = x.lcs := rfl
@[simp] theorem closeCycle_gx (x : Tile) : x.closeCycle.gx = x.gx := rfl
@[simp] theorem closeCycle_vregs (x : Tile) : x.closeCycle.vregs = x.vregs := rfl
@[simp] theorem closeCycle_vpoison (x : Tile) : x.closeCycle.vpoison = x.vpoison := rfl
@[simp] theorem closeCycle_hold (x : Tile) : x.closeCycle.hold = x.hold := rfl
@[simp] theorem closeCycle_inject (x : Tile) : x.closeCycle.inject = x.inject := rfl
@[simp] theorem closeCycle_bank0 (x : Tile) : x.closeCycle.bank0 = x.bank0 := rfl
@[simp] theorem closeCycle_bank1 (x : Tile) : x.closeCycle.bank1 = x.bank1 := rfl

/-- A cycle in which nothing is due. -/
theorem endCycle_waits {x : Tile} (h : ∀ e ∈ x.sched, x.cyc < e.due) : x.endCycle.tile = x.closeCycle := by
  have h1 : (x.sched.filter fun e => decide (e.due ≤ x.cyc)) = [] := by
    rw [List.filter_eq_nil_iff]
    intro e he
    have := h e he
    simp; omega
  have h2 : (x.sched.filter fun e => decide (x.cyc < e.due)) = x.sched := by
    rw [List.filter_eq_self]
    intro e he
    simpa using h e he
  unfold Tile.endCycle
  rw [h1, h2]
  rfl

/-- A cycle in which one write is due and nothing else is scheduled. -/
theorem endCycle_write {x : Tile} {e : Sched} (hs : x.sched = [e]) (hd : e.due ≤ x.cyc) (hr : e.act.reads = false)
    (hc : e.act.clears = false) : x.endCycle.tile = (({ x with sched := [] } : Tile).writeAct e).tile.closeCycle := by
  have h1 : (x.sched.filter fun e => decide (e.due ≤ x.cyc)) = [e] := by simp [hs, hd]
  have h2 : (x.sched.filter fun e => decide (x.cyc < e.due)) = [] := by simp [hs]; omega
  have h3 : e.act.phase = 0 ∨ e.act.phase = 1 ∨ e.act.phase = 2 ∨ e.act.phase = 3 := by
    unfold TileAct.phase; split <;> simp
  unfold Tile.endCycle
  rw [h1, h2]
  have : ∀ y : Tile, (y.runDue [e]).tile = (y.writeAct e).tile := by
    intro y
    rcases h3 with h | h | h | h <;> simp [Tile.runDue, runActs, hr, hc, h]
  exact congrArg Tile.closeCycle (this _)

/-- A cycle in which one read is due and nothing else is scheduled. -/
theorem endCycle_read {x : Tile} {e : Sched} (hs : x.sched = [e]) (hd : e.due ≤ x.cyc) (hr : e.act.reads = true) :
    x.endCycle.tile = (({ x with sched := [] } : Tile).readAct e).tile.closeCycle := by
  have h1 : (x.sched.filter fun e => decide (e.due ≤ x.cyc)) = [e] := by simp [hs, hd]
  have h2 : (x.sched.filter fun e => decide (x.cyc < e.due)) = [] := by simp [hs]; omega
  have hc : e.act.clears = false := by
    cases h : e.act <;> simp_all [TileAct.reads, TileAct.clears]
  unfold Tile.endCycle
  rw [h1, h2]
  have : ∀ y : Tile, (y.runDue [e]).tile = (y.readAct e).tile := by
    intro y
    simp [Tile.runDue, runActs, hr, hc]
  exact congrArg Tile.closeCycle (this _)

end Sys2Proof.Machine
end

