-- ==== Sys2Proof/WellFormed.lean ====
section
/-! DEFINITION. Well-formed commands: the ranges within which the spec gives a command's operands a meaning as an
event of the block (physical tile indices, slots, ports, lines, message lengths). The meanings are total; a command
that is not well formed is no event that the boundary of the block can carry. -/

namespace Sys2Proof

/-- A physical tile index (R62). -/
def okTile (t : Nat) : Bool := t < 272

/-- A flight slot (R229). -/
def okSlot (s : Nat) : Bool := s < 256

/-- A canal port (R250). -/
def okPort (p : Nat) : Bool := p < 48

/-- A stack port (R62). -/
def okStack (p : Nat) : Bool := p < 32

/-- A lockkeeper (R637). -/
def okLk (k : Nat) : Bool := k < 24

/-- A berth (R543). -/
def okBerth (b : Nat) : Bool := b < 4

/-- A context and a submission ring (R483, R487). -/
def okRing (c r : Nat) : Bool := c < 1024 && r < 8

/-- A descriptor header (R495): SEQ and FLAGS. -/
def okHdr (h : DescHdr) : Bool := h.seq < 2 ^ 32 && h.flags < 2 ^ 8

/-- A 64-bit field. -/
def ok64 (n : Nat) : Bool := n < 2 ^ 64

/-- A 32-bit field. -/
def ok32 (n : Nat) : Bool := n < 2 ^ 32

/-- A line address: a multiple of 64 below 2^52 (R366). -/
def okLine (a : Nat) : Bool := a % 64 = 0 && a < 2 ^ 52

/-- The size in bytes of a lockkeeper's access (R423). -/
def okSize (n : Nat) : Bool := n = 1 || n = 2 || n = 4 || n = 8

/-- A caching agent by its presence bit (R369). -/
def okAgent (a : Nat) : Bool := a < 45

/-- The data of a line, where there is any. -/
def okLineData : Option (List Byte) → Bool
  | none => true
  | some d => d.length = 64

/-- A flit (R254): its header fields and a payload of at most 240 bytes. -/
def Flit.wf (f : Flit) : Bool :=
  f.typ < 16 && f.seq < 4096 && f.ack < 4096 && f.dst < 1024 && f.src < 1024 && f.spec < 2 ^ 44 && f.payload.length ≤ 240

/-- A received flit: 256 bytes, in two codewords of 136 symbols (R253). -/
def okRx (errs : Nat × Nat) (bytes : List Byte) : Bool := errs.1 ≤ 136 && errs.2 ≤ 136 && bytes.length = 256

/-- An access of the host: a BAR0 access of any size inside 64 MiB, a BAR2 access inside 1 MiB, or an access of a dword of
configuration space (R7, R9, R443). -/
def okHost (sp : HostSpace) (off size : Nat) : Bool :=
  1 ≤ size && size ≤ 4096 &&
    match sp with
    | .bar0 => off < 2 ^ 26
    | .bar2 => off < 2 ^ 20
    | .config => off < 4096 && size ≤ 4 && off % 4 + size ≤ 4

/-- Coordinates in the full space (R3). -/
def okCoord (c : Nat × Nat × Nat × Nat) : Bool := c.1 < 8 && c.2.1 < 8 && c.2.2.1 < 4 && c.2.2.2 < 4

/-- A berth message (R548): its code, tag, length and data. -/
def BerthMsg.wf (m : BerthMsg) : Bool :=
  m.oid < 256 && m.tag < 2 ^ 16 && m.poison < 16 && 1 ≤ m.len && m.len ≤ 32 && m.fn < 256 && m.addr < 2 ^ 52 && m.data.length ≤ 256

/-- A fault message (R599). -/
def FaultMsg.wf (m : FaultMsg) : Bool :=
  ok64 m.addr && m.unit < 64 && m.inst < 1024 && m.kind < 256 && m.cls < 5 && m.slot < 256 && 1 ≤ m.count && m.count < 2 ^ 32 &&
    m.status < 2 ^ 16

/-- The rounds and phases of a gate exchange (R31, R266). -/
def okPhase (round phase : Nat) : Bool := round ≤ 16 && phase < 4

/-- The power-of-two size or multiple of 256 MiB that a decoder takes (R447). -/
def okDecoder (d ways gran : Nat) : Bool := d < 4 && ways < 16 && gran < 16

/-- Well-formed commands. -/
def Instr.wf : Instr → Bool
  | .coldReset _ => true
  | .warmReset _ => true
  | .cxlReset _ _ => true
  | .flr => true
  | .powerGoodLoss rail => rail < 3
  | .hostLinkUp => true
  | .stackTraining rs => rs.all fun r => okStack r.port
  | .canalTraining p r => okPort p && okPort r.peerPort && r.peerDev < 1024 && r.peerVariant < 3 && okCoord r.ownCoord
  | .trainingStepTimeout p x =>
    okPort p && 1 ≤ x.step && x.step ≤ 8 && okPort x.report.peerPort && x.report.peerDev < 1024 && x.report.peerVariant < 3
  | .waterwayDiscovery d => okCoord d.coord && d.variants.all (· < 3) && d.others.all fun o => o.1 < 1024
  | .discoveryTimeout => true
  | .waybillUnjoinedUpdate => true
  | .firmwareBootLoad _ => true
  | .firmwareUpdate _ => true
  | .firmwareCheckDone _ => true
  | .roleLoadDone => true
  | .roleMigrate r => r < 20
  | .lock _ => true
  | .counterDecay => true
  | .voteInstant => true
  | .gateFlitSend r p => okPhase r p
  | .gateFlitReceive p e0 e1 h sp crc bs =>
    okPort p && e0 ≤ 136 && e1 ≤ 136 && h < 2 ^ 52 && sp < 2 ^ 44 && crc < 2 ^ 32 && bs.length = 240
  | .legStart => true
  | .clockStep t => okTile t
  | .clockStepDeferred t => okTile t
  | .droopTrip r d l => r < 16 && d < 16 && 1 ≤ l && l ≤ 3
  | .droopStretchEnd r d => r < 16 && d < 16
  | .lockIn s => okSlot s
  | .holdoverExpiry => true
  | .lockmasterAbsence => true
  | .setupRequest _ => true
  | .tckLoRead a => okHost a.sp a.off a.size
  | .registerWrite a size _ => okHost a.sp a.off size
  | .nop t _ => okTile t
  | .endLeg t _ => okTile t
  | .br t _ _ => okTile t
  | .brr t _ _ => okTile t
  | .alu t _ _ _ _ _ => okTile t
  | .addi t _ _ _ _ => okTile t
  | .andi t _ _ _ _ => okTile t
  | .ori t _ _ _ _ => okTile t
  | .xori t _ _ _ _ => okTile t
  | .shfi t _ _ _ _ _ => okTile t
  | .li t _ _ _ => okTile t
  | .shin t _ _ _ => okTile t
  | .cmp t _ _ _ _ _ => okTile t
  | .cmpi t _ _ _ _ _ => okTile t
  | .pop t _ _ _ _ _ => okTile t
  | .ld t _ _ _ _ => okTile t
  | .st t _ _ _ _ => okTile t
  | .rds t _ _ _ => okTile t
  | .flg t _ _ _ => okTile t
  | .tNop t _ => okTile t
  | .lds t _ _ _ _ _ _ => okTile t
  | .mma t _ _ _ _ _ _ _ _ _ => okTile t
  | .expBank t _ _ _ _ _ _ _ => okTile t
  | .imp t _ _ _ _ _ => okTile t
  | .zb t _ _ _ => okTile t
  | .gxi t _ _ => okTile t
  | .gxr t _ _ => okTile t
  | .vNop t _ => okTile t
  | .fop t _ _ _ _ _ => okTile t
  | .hop t _ _ _ _ _ => okTile t
  | .iop t _ _ _ _ _ => okTile t
  | .fcmp t _ _ _ _ _ => okTile t
  | .icmp t _ _ _ _ _ => okTile t
  | .vsel t _ _ _ _ _ => okTile t
  | .vfn t _ _ _ _ _ => okTile t
  | .vscan t _ _ _ _ _ => okTile t
  | .vgadd t _ _ _ _ _ => okTile t
  | .vgexp t _ _ _ _ _ => okTile t
  | .vcvt t _ _ _ _ _ => okTile t
  | .vperm t _ _ _ _ _ => okTile t
  | .vld t _ _ _ _ => okTile t
  | .vst t _ _ _ _ => okTile t
  | .vbc t _ _ _ => okTile t
  | .vext t _ _ _ _ => okTile t
  | .bNop t _ => okTile t
  | .barge t _ _ _ => okTile t
  | .waitLc t _ _ _ => okTile t
  | .waitLock t _ _ => okTile t
  | .bundleStallRelease t => okTile t
  | .lcset t _ _ _ => okTile t
  | .gld t _ _ _ _ _ _ _ _ => okTile t
  | .gst t _ _ _ _ _ _ _ _ => okTile t
  | .gamo t _ _ _ _ _ _ _ => okTile t
  | .fence t _ _ => okTile t
  | .muster t _ _ => okTile t
  | .globalAccessLanding t _ => okTile t
  | .bargeLanding t _ => okTile t
  | .overrunDrainDone s => okSlot s
  | .tileZeroingDone t => okTile t
  | .substitutionCopyDone r => r < 16
  | .tileRegrade _ => true
  | .regradeDone r p => r < 16 && p < 256
  | .spareSubstitution _ => true
  | .ringNop c r h => okRing c r && okHdr h
  | .fenceSignal c r h f o v => okRing c r && okHdr h && ok32 f && ok64 o && ok64 v
  | .fenceWait c r h f o v u => okRing c r && okHdr h && ok32 f && ok64 o && ok64 v && ok32 u
  | .fenceWaitSatisfied c r => okRing c r
  | .fenceWaitTimeout c r => okRing c r
  | .copy c r h s d so dof l => okRing c r && okHdr h && ok32 s && ok32 d && ok64 so && ok64 dof && ok64 l
  | .fill c r h d o l p => okRing c r && okHdr h && ok32 d && ok64 o && ok64 l && ok64 p
  | .mapRange c r h x p n v e => okRing c r && okHdr h && x < 1024 && p < 256 && ok32 n && ok64 v && ok64 e
  | .unmapRange c r h x p n v => okRing c r && okHdr h && x < 1024 && p < 256 && ok32 n && ok64 v
  | .invalidateXlt c r h x q p n v => okRing c r && okHdr h && x < 1024 && q < 256 && p < 256 && ok32 n && ok64 v
  | .setBias c r h b n d => okRing c r && okHdr h && b < 2 ^ 16 && ok32 n && ok64 d
  | .loadFlight c r h i o l => okRing c r && okHdr h && ok32 i && ok64 o && ok64 l
  | .bindFlight c r h s t f o e => okRing c r && okHdr h && s < 2 ^ 16 && t < 2 ^ 16 && ok32 f && ok64 o && ok64 e
  | .runFlight c r h s p => okRing c r && okHdr h && s < 2 ^ 16 && ok64 p
  | .startDeferLimit s => okSlot s
  | .moorFlight c r h s => okRing c r && okHdr h && s < 2 ^ 16
  | .resumeFlight c r h s => okRing c r && okHdr h && s < 2 ^ 16
  | .haltFlight c r h s _ => okRing c r && okHdr h && s < 2 ^ 16
  | .snapshot c r h s e o => okRing c r && okHdr h && s < 2 ^ 16 && ok32 e && ok64 o
  | .snapshotCopyDone s => okSlot s
  | .snapshotExportDone s => okSlot s
  | .replicaStreamEnd d s => d < 1024 && okSlot s
  | .restore c r h s src i o p => okRing c r && okHdr h && s < 2 ^ 16 && src < 2 ^ 16 && ok32 i && ok64 o && ok64 p
  | .restoreCopyDone s => okSlot s
  | .maint c r h op sp x a l => okRing c r && okHdr h && op < 256 && sp < 256 && x < 2 ^ 16 && ok64 a && ok64 l
  | .setPowerLease c r h w u => okRing c r && okHdr h && w < 2 ^ 32 && ok64 u
  | .contextTeardown c r h x => okRing c r && okHdr h && x < 2 ^ 16
  | .barrierTimeout s => okSlot s
  | .doorbellWake c r => okRing c r
  | .doorbellPoll c r => okRing c r
  | .descriptorLineWritten c r => okRing c r
  | .consumerWordPoll c => c < 1024
  | .contextEnable _ => true
  | .contextSuspend _ => true
  | .contextResume _ => true
  | .ringEnable => true
  | .ringDisable => true
  | .rngInjCrc => true
  | .canalSlot p k => okPort p && k < 2048
  | .dataFlitReceive p e bs => okPort p && okRx e bs
  | .lackReceive p e bs => okPort p && okRx e bs
  | .timeFlitReceive p e bs t4 => okPort p && okRx e bs && t4 < 2 ^ 80
  | .idleFlitReceive p e bs => okPort p && okRx e bs
  | .trainFlitReceive p e bs q l =>
      okPort p && okRx e bs && (match q with | none => true | some a => okPort a) && (match l with | none => true | some (a, b) => okPort a && b < 4096)
  | .absentFlitReceive p e bs => okPort p && okRx e bs
  | .linkNakReceive p a => okPort p && a < 4096
  | .replayTimerExpiry p => okPort p
  | .linkSilenceTimeout p => okPort p
  | .linkRetire p => okPort p
  | .linkRetrain p => okPort p
  | .portEnable p => okPort p
  | .cnlInjFec p => okPort p
  | .cnlInjCrc p => okPort p
  | .stackRead d n => ok64 d && 1 ≤ n
  | .stackWrite d b _ => ok64 d && 1 ≤ b.length
  | .correctedWriteback d => ok64 d && d % 8 = 0
  | .scrubRead p => okStack p
  | .accountingWindow p => okStack p
  | .stackTempSample p t => okStack p && t < 256
  | .channelDrain p _ => okStack p
  | .channelMargin p _ => okStack p
  | .channelReturn p _ => okStack p
  | .pcEvacRelease p _ _ => okStack p
  | .pcForce p _ => okStack p
  | .stkInjUe p => okStack p
  | .stkInjCe p => okStack p
  | .sharedRead a _ l _ => okAgent a && okLine l
  | .ownershipRead a _ l => okAgent a && okLine l
  | .mLineWriteBack a _ l => okAgent a && okLine l
  | .nonCachingRead _ a n => ok64 a && 1 ≤ n && a % 64 + n ≤ 64
  | .nonCachingWrite _ a _ b _ => ok64 a && 1 ≤ b.length && a % 64 + b.length ≤ 64
  | .forwardedRequest a _ l _ => okAgent a && okLine l
  | .victimWritebackAccept a _ l => okAgent a && okLine l
  | .atomic a _ fn n _ _ _ => ok64 a && fn < 16 && (n = 4 || n = 8) && a % n = 0
  | .mooredAccess o _ b _ => ok64 o && 1 ≤ b.length
  | .wayTestDone _ i w p => i < 24 && w < 24 && p ≤ 3
  | .moorRequest _ => true
  | .moorCleanDone => true
  | .clean _ => true
  | .invalidate _ => true
  | .cleanInvalidate _ => true
  | .warm _ => true
  | .zero _ => true
  | .maintEntryEnd => true
  | .cmxInjBsnUe => true
  | .cmxInjBsnCe => true
  | .cmxInjRcParity => true
  | .lkLoad k g a n => okLk k && g.attr < 4 && ok64 a && okSize n && a % n = 0
  | .lkStore k g a n v => okLk k && g.attr < 4 && ok64 a && okSize n && a % n = 0 && v < 2 ^ (8 * n)
  | .storeBufferDrain k => okLk k
  | .lkFence k => okLk k
  | .fenceI k => okLk k
  | .lkAmo k _ a _ fn n _ _ _ _ => okLk k && ok64 a && fn < 16 && (n = 4 || n = 8) && a % n = 0
  | .lr k _ a _ n _ _ => okLk k && ok64 a && (n = 4 || n = 8) && a % n = 0
  | .sc k _ a _ n _ _ _ => okLk k && ok64 a && (n = 4 || n = 8) && a % n = 0
  | .reservationExpiry k => okLk k
  | .pinExpiry k => okLk k
  | .lkDeviceAccess k a => okLk k && a.space_ < 3 && ok64 a.addr && okSize a.size && a.addr % a.size = 0
  | .trapEntry k n => okLk k && n ≤ 16
  | .lkPowerDown k => okLk k
  | .bar4Write o b _ => o < 2 ^ 29 && 1 ≤ b.length
  | .bar4Read o n => o < 2 ^ 29 && 1 ≤ n
  | .memRd a _ _ _ => okLine a
  | .memWr a _ _ b _ => okLine a && b.length = 64
  | .memClnEvct a _ => okLine a
  | .birspI a d => okLine a && okLineData d
  | .birspS a d => okLine a && okLineData d
  | .birspE a d => okLine a && okLineData d
  | .snpData a => okLine a
  | .snpInv a => okLine a
  | .snpCur a => okLine a
  | .completionReceive t _ _ _ => t < 2 ^ 14
  | .completionTimeout t => t < 2 ^ 14
  | .tagQuarantineExpiry t => t < 2 ^ 14
  | .decoderCommit d _ _ _ w g _ => okDecoder d w g
  | .busMasterDisable => true
  | .busMasterEnable => true
  | .d3hotEntry => true
  | .d0Return => true
  | .cacheWritebackInvalidate => true
  | .gpfPhase1 => true
  | .viralReceive => true
  | .ideCheckFailed _ => true
  | .vectorUnmask v => v < 32
  | .getVersion => true
  | .getCapabilities => true
  | .negotiateAlgorithms _ => true
  | .getDigests => true
  | .getCertificate s _ _ => s < 8
  | .challenge s _ => s < 8
  | .getMeasurements i => i < 256
  | .keyExchange s => s < 8
  | .finish s _ => ok32 s
  | .heartbeat s => ok32 s
  | .keyUpdate s => ok32 s
  | .endSession s => ok32 s
  | .berthEnable b => okBerth b
  | .berthTrainingDone b _ m _ _ _ => okBerth b && m ≤ 4
  | .berthModuleFail b m => okBerth b && m < 4
  | .berthLinkDown b => okBerth b
  | .berthDrain b => okBerth b
  | .berthDrainDone b => okBerth b
  | .berthUndrain b => okBerth b
  | .berthWr b m => okBerth b && m.wf
  | .berthRd b m => okBerth b && m.wf
  | .berthAmo b m => okBerth b && m.wf
  | .berthCpl b t u d p => okBerth b && t < 2 ^ 16 && u < 5 && d.length ≤ 256 && p < 16
  | .berthFence b m => okBerth b && m.wf
  | .berthDb b m => okBerth b && m.wf
  | .berthMessageTimeout b t => okBerth b && t < 2 ^ 16
  | .berthRdCurr b a => okBerth b && okLine a
  | .berthRdShared b a => okBerth b && okLine a
  | .berthRdOwn b a => okBerth b && okLine a
  | .berthRdOwnNoData b a => okBerth b && okLine a
  | .berthCleanEvict b a => okBerth b && okLine a
  | .berthCleanEvictNoData b a => okBerth b && okLine a
  | .berthDirtyEvict b a d _ => okBerth b && okLine a && d.length = 64
  | .brtInjCrc b => okBerth b
  | .actHoldSet => true
  | .actHoldClear => true
  | .railSample _ _ _ => true
  | .fastLimitDisable => true
  | .pwrDroopWrite _ => true
  | .leaseExpiry _ => true
  | .conservativeEntry => true
  | .conservativeExit => true
  | .powerMoorResume s => okSlot s
  | .thermalTrip js ps => (js.all fun j => j.1 < 16) && ps.all fun p => okStack p.1
  | .faultMessageReceive m => m.wf
  | .faultOutPulseEnd => true
  | .faultLogClear => true
  | .faultRingEnable => true
  | .fltCntWrite k _ => k < 128
  | .fltWwReset => true
  | .devHalt => true
  | .fltInjTile _ => true
  | .fltInjLkp _ => true
  | .fltInjMsg _ => true
  | .xltInjTlbParity => true
  | .xltEnable => true
  | .xltDisable => true
  | .getStatus => true
  | .getClocks => true
  | .getTemps => true
  | .getLimits => true
  | .getPower => true
  | .setLease w u => w < 2 ^ 32 && ok64 u
  | .wwReset => true
  | .lossOfCodewordAlignment p => okPort p
  | .peerSignalReturn p => okPort p
  | .berthDisable b => okBerth b
  | .cacheEnableWrite _ => true
  | .biconflict d => okLine d
  | .cxlCacheHostResponse a d _ => okLine a && okLineData d
  | .ideKeyProgramming s _ => ok32 s
  | .lkWatchdogExpiry k => okLk k
  | .bindImagesWritten s => okSlot s
  | .channelMarginDone p _ => okStack p

end Sys2Proof
end

