-- ==== Sys2Proof/Tests/Slice0.lean ====
section
/-! SUPPORT. Witnesses: for every statement that has hypotheses, a concrete state and operands that meet them, with what
the command then leaves; and a smoke test of WellFormed. Expected values are read from the rules cited beside them. -/

set_option Elab.async false

namespace Sys2Proof.Tests

open Sys2Proof Sys2Proof.Machine

/-! ### Helpers -/

/-- The state a command leaves. -/
noncomputable def ran (c : Instr) (s : State) : State :=
  match exec c s with
  | .next t => t
  | _ => {}

/-- The command leaves exactly this state, with FAULT_OUT driven. -/
abbrev Leaves (c : Instr) (s t : State) : Prop := ran c s = t.seal s

/-- A device in service: the stacks of reach 0 are trained, with 24 GiB each. -/
def base : State :=
  { State.reset with
    boot := { State.reset.boot with capacity := 24 * 2 ^ 30, step := 11, fwReady := true }
    stk := [(0, { st := .active }), (1, { st := .active })] }

/-- `n` bytes that differ. -/
def dat (n k : Nat) : List Byte := (List.range n).map fun i => BitVec.ofNat 8 (k + 7 * i)

/-! ### Well-formedness -/

theorem wf_refuses_ill_formed : Instr.wf (.nop 272 ⟨false, 0⟩) = false ∧ Instr.wf (.powerGoodLoss 3) = false ∧
    Instr.wf (.roleMigrate 20) = false ∧ Instr.wf (.tckLoRead ⟨.bar0, 2 ^ 26, 4⟩) = false ∧
    Instr.wf (.tckLoRead ⟨.config, 2, 4⟩) = false ∧ Instr.wf (.registerWrite ⟨.bar2, (2 ^ 20)⟩ 8 0) = false ∧
    Instr.wf (.droopTrip 0 16 1) = false ∧ Instr.wf (.droopTrip 0 0 4) = false ∧ Instr.wf (.lockIn 256) = false ∧
    Instr.wf (.gateFlitSend 17 0) = false ∧ Instr.wf (.nop 271 ⟨false, 0⟩) = true := by decide +kernel

/-! ### The step -/

theorem witness_StepRunsTheFrontCommand :
    step { base with pending := [.hostLinkUp, .legStart] } = exec .hostLinkUp { base with pending := [.legStart] } := rfl

theorem witness_EmptyQueueTicks : State.reset.pending = [] := rfl

theorem witness_SafeStateStopsTheDevice :
    let s : State := { base with boot := { base.boot with safe := true } }
    s.boot.safe = true ∧ servedInSafe .voteInstant = false ∧ Leaves .voteInstant s s ∧ s.pins.faultOut = false ∧
      (ran .voteInstant s).pins.faultOut = true := by decide +kernel

/-! ### The S slot -/

def gOn : Guard := ⟨false, 0⟩
def gOff : Guard := ⟨true, 0⟩

/-- A running tile: s1 = 5, s2 = −3, s3 = 2^63, p1 = 1, lc3 = 7. -/
def tile0 : Tile :=
  { st := .bound, running := true, cyc := 100, pc := 7, flight := some (0, 3), leg := some 0
    sregs := [(1, 5), (2, 0xFFFFFFFFFFFFFFFD), (3, 0x8000000000000000), (4, 0x1007)], preds := [(1, true)], lcs := [(3, 7)]
    gx := 0xFFF0, t2code := true, lcsat := true }

def sT : State := base.setTile 0 tile0

theorem witness_issues : sT.Live ∧ sT.Issues 0 gOn ∧ sT.Skips 0 gOff ∧ (sT.tile 1).issuing = false := by decide +kernel

theorem witness_ScalarFunctions : sT.Issues 0 gOn ∧ (sT.tile 0).ParityOk [1, 2] ∧ (sT.tile 0).ParityOk [3, 0] := by
  decide +kernel

/-- What a command with latency `l` leaves in scalar register `r`. -/
noncomputable def after (l r : Nat) (c : Instr) : Word := (Tile.cycles l ((ran c sT).tile 0)).rs r

theorem test_alu :
    after 1 9 (.alu 0 gOn 9 1 2 0x00) = 2 ∧ after 1 9 (.alu 0 gOn 9 1 2 0x01) = 8 ∧
    after 1 9 (.alu 0 gOn 9 3 1 0x05) = 0 ∧ after 1 9 (.alu 0 gOn 9 3 1 0x06) = 0x0400000000000000 ∧
    after 1 9 (.alu 0 gOn 9 3 1 0x07) = 0xFC00000000000000 ∧ after 1 9 (.alu 0 gOn 9 1 2 0x08) = 0xFFFFFFFFFFFFFFFD ∧
    after 1 9 (.alu 0 gOn 9 1 2 0x0A) = 5 ∧ after 2 9 (.alu 0 gOn 9 1 2 0x0C) = 0 ∧
    after 3 9 (.alu 0 gOn 9 1 2 0x0C) = 0xFFFFFFFFFFFFFFF1 := by decide +kernel

theorem test_alu_reserved : ((ran (.alu 0 gOn 9 1 2 0x0D) sT).tile 0).stop = some (.illegal, 7) ∧
    ((ran (.cmp 0 gOn 2 6 1 2) sT).tile 0).st = .stopped ∧ ((ran (.pop 0 gOn 2 7 1 2) sT).tile 0).sched = [] := by
  decide +kernel

theorem test_compare : let p (c : Instr) : Bool := (Tile.cycles 1 ((ran c sT).tile 0)).rp 2
    p (.cmp 0 gOn 2 2 2 1) = true ∧ p (.cmp 0 gOn 2 4 2 1) = false ∧ p (.cmp 0 gOn 2 5 2 1) = true ∧
    p (.cmpi 0 gOn 2 0 2 0x7FD) = true ∧ p (.cmpi 0 gOn 2 3 1 5) = true ∧ p (.pop 0 gOn 2 3 0 1) = false ∧
    p (.pop 0 gOn 2 4 3 0) = true ∧ p (.pop 0 gOn 2 5 0 0) = true := by decide +kernel

theorem witness_ScalarImmediates : sT.Issues 0 gOn ∧ (sT.tile 0).ParityOk [2] ∧
    after 1 9 (.addi 0 gOn 9 2 0xFFF) = 0xFFFFFFFFFFFFFFFC ∧ after 1 9 (.andi 0 gOn 9 2 0xFFF) = 0xFFD ∧
    after 1 9 (.ori 0 gOn 9 1 0x802) = 0x807 ∧ after 1 9 (.xori 0 gOn 9 1 0xFFF) = 0xFFA ∧
    after 1 9 (.shfi 0 gOn 9 3 1 63) = 1 ∧ after 1 9 (.shfi 0 gOn 9 3 2 63) = 0xFFFFFFFFFFFFFFFF ∧
    after 1 9 (.shfi 0 gOn 9 1 0 63) = 0x8000000000000000 ∧ after 1 9 (.li 0 gOn 9 0x10000) = 0xFFFFFFFFFFFF0000 ∧
    after 1 1 (.shin 0 gOn 1 0x1FFFF) = 0xBFFFF := by decide +kernel

/-- Tile 0 in reach 0, where position 2 holds it, bound to a flight at position 6. -/
def sR : State :=
  ({ sT with flights := [(0, { st := .running, pos := 6 })] } : State).setReach 0
    { sT.reach 0 with tileMap := [some 1, some 2, some 0] }

theorem witness_SpecialReads : sR.Issues 0 gOn ∧ sR.logTile 0 = some 2 ∧ (sR.tile 0).flight = some (0, 3) ∧
    let v (sel : BitVec 8) : Word := (Tile.cycles 1 ((ran (.rds 0 gOn 9 sel) sR).tile 0)).rs 9
    v 0 = 0xFFFFFFFFFFFFFFF0 ∧ v 1 = 2 ∧ v 2 = 6 ∧ v 3 = 3 ∧ v 0x13 = 7 ∧ v 0x1F = 0 ∧
    (let y := Tile.cycles 1 ((ran (.flg 0 gOn 9 1) sR).tile 0)
     y.rs 9 = 5 ∧ y.t2code = false ∧ y.lcsat = true) := by decide +kernel

theorem witness_ResultLatency : tile0.sched = [] ∧ tile0.inject = none ∧ 1 ≤ 3 ∧ 5 < 32 ∧
    (let y := tile0.writeS true 0 3 1 9 true
     (Tile.cycles 2 y).rs 1 = 5 ∧ (Tile.cycles 3 y).rs 1 = 9 ∧ (Tile.cycles 3 y).rsPoison 1 = true) ∧
    (Tile.cycles 1 (tile0.writeS true 0 1 0 9 true)).rs 0 = 0 := by decide +kernel

theorem witness_ReservedFunctionsStopTheTile : sT.Issues 0 gOn ∧ (sT.tile 0).ParityOk [1] ∧
    (let stops (c : Instr) : Prop := ((ran c sT).tile 0).stop = some (.illegal, 7)
     stops (.shfi 0 gOn 9 1 3 0) ∧ stops (.rds 0 gOn 9 4) ∧ stops (.rds 0 gOn 9 0x20) ∧ stops (.fop 0 gOn 1 2 3 6) ∧
     stops (.hop 0 gOn 1 2 3 15) ∧ stops (.iop 0 gOn 1 2 3 11) ∧ stops (.vfn 0 gOn 1 2 0 11) ∧
     stops (.fcmp 0 gOn 1 2 3 4) ∧ stops (.icmp 0 gOn 1 2 3 4) ∧ stops (.vsel 0 gOn 1 2 3 1) ∧ stops (.vperm 0 gOn 1 2 3 1) ∧
     stops (.vscan 0 gOn 1 2 3 7) ∧ stops (.vgadd 0 gOn 1 2 1 0) ∧ stops (.vgadd 0 gOn 1 2 0 2) ∧
     stops (.vgexp 0 gOn 1 2 4 0) ∧ stops (.vcvt 0 gOn 1 2 9 0) ∧ stops (.vcvt 0 gOn 1 2 0x30 0)) := by decide +kernel

theorem witness_ControlFlow : sT.Issues 0 gOn ∧ (sT.tile 0).Free .vector [100] ∧ tile0.branch = none ∧
    tile0.ParityOk [4] ∧ tile0.rsPoison 4 = false ∧
    ((ran (.br 0 gOn 0x1FFE) sT).tile 0).branch = some (5, 3) ∧ ((ran (.brr 0 gOn 4) sT).tile 0).branch = some (7, 3) ∧
    ((ran (.endLeg 0 gOn) sT).tile 0).endAt = some 100 ∧
    (let s := sT.setTile 0 { tile0 with branch := some (5, 2) }
     s.Issues 0 gOn ∧ ((ran (.br 0 gOn 1) s).tile 0).stop = some (.illegal, 7)) := by decide +kernel

/-- The tile with 16 bytes of its hold written. -/
def tileH : Tile := { tile0 with hold := (tile0.hold.store 40 (dat 8 1) false).store 64 (dat 8 9) false }
def sH : State := base.setTile 0 tileH

theorem witness_ScalarHoldAccess : sH.Issues 0 gOn ∧ tileH.rsPoison 1 = false ∧ tileH.ParityOk [1, 9] ∧
    tileH.Free .holdRead [101] ∧ tileH.Free .holdWrite [102] ∧ tileH.sched = [] ∧ tileH.inject = none ∧
    (Tile.cycles 3 ((ran (.ld 0 gOn 9 1 5) sH).tile 0)).rs 9 = BitVec.ofNat 64 (leNat (dat 8 1)) ∧
    (let h := (Tile.cycles 3 ((ran (.st 0 gOn 2 1 5) sH).tile 0)).hold
     h.read 40 8 = [0xFD, 0xFF, 0xFF, 0xFF, 0xFF, 0xFF, 0xFF, 0xFF] ∧ h.read 64 8 = dat 8 9 ∧ h.byte 48 = 0) := by
  decide +kernel

theorem witness_HoldWriteActsOnItsBytesOnly :
    let e : Sched := { due := 100, issued := 98, rank := 0, pc := 7, act := .wrHold 40 ((dat 8 3).map fun b => (b, true)) }
    tileH.inject = none ∧ (tileH.writeAct e).tile.hold.read 40 8 = dat 8 3 ∧ (tileH.writeAct e).tile.hold.mark 40 = 3 ∧
    (tileH.writeAct e).tile.hold.read 64 8 = dat 8 9 := by decide +kernel

/-! ### The T slot -/

theorem witness_GridRegisterAndBankZeroing : sT.Issues 0 gOn ∧ tile0.ParityOk [4] ∧ tile0.rsPoison 4 = false ∧
    tile0.Free .bank1 [101] ∧ tile0.sched = [] ∧ tile0.inject = none ∧
    (Tile.cycles 1 ((ran (.gxr 0 gOn 4) sT).tile 0)).gx = 0x1007 ∧
    (Tile.cycles 1 ((ran (.zb 0 gOn true 2) sT).tile 0)).bank1.width = 0 ∧
    (Tile.cycles 2 ((ran (.zb 0 gOn true 2) sT).tile 0)).bank1.width = 2 ∧
    (let s := sT.setTile 0 { tile0 with spoison := [(4, true)] }
     s.Issues 0 gOn ∧ (s.tile 0).rsPoison 4 = true ∧ ((ran (.gxr 0 gOn 4) s).tile 0).stop = some (.controlError, 7)) ∧
    ((ran (.zb 0 gOn true 3) sT).tile 0).stop = some (.illegal, 7) := by decide +kernel

/-- A tile whose read port an earlier operation holds in cycle 103. -/
def sL : State := base.setTile 0 { tile0 with held := [(.holdRead, 103)], older := [(.holdRead, 103)] }

theorem witness_LdsTakesTheFirstFreeReadCycles : sL.Issues 0 gOn ∧ (sL.tile 0).ParityOk [4] ∧
    (sL.tile 0).rsPoison 4 = false ∧ (ldsOffsets 3 false false).length = 16 + 1 ∧ 0x1000 + 256 * 17 ≤ 0x180000 ∧
    (let y := (ran (.lds 0 gOn true false false 3 4) sL).tile 0
     y.held = (.holdRead, 103) :: (((101 :: 102 :: (List.range 15).map (· + 104)).map fun c => (Port.holdRead, c))) ∧
     y.buf1.expected = some { fmt := 3, sp := false, bs16 := false, ea := 0 }) ∧
    (let s := base.setTile 0 { tile0 with held := [(.holdRead, 101)] }
     s.Issues 0 gOn ∧ ¬(s.tile 0).Free .holdRead (List.range' 101 17) ∧
     ((ran (.lds 0 gOn true false false 3 4) s).tile 0).stop = some (.portCollision, 7)) := by decide +kernel

def tileM : Tile := { tile0 with buf0 := { tile0.buf0 with expected := some { fmt := 3, sp := false, bs16 := false, ea := 0 } } }
def sM : State := base.setTile 0 tileM

theorem witness_MmaRunsItsSchedule : sM.Issues 0 gOn ∧ tileM.ParityOk [4, 0] ∧ tileM.rsPoison 4 = false ∧
    tileM.rsPoison 0 = false ∧ passB 3 tileM.buf0.expected = 64 ∧ passS 3 false false tileM.buf0.expected = 1 ∧
    tileM.held = [] ∧
    (let y := (ran (.mma 0 gOn true false true false false 3 4 0) sM).tile 0
     y.held.length = 1 + 16 + 64 + 64 ∧ (Port.bank1, 100 + 1 + 15 + 63) ∈ y.held ∧ (Port.array, 104) ∈ y.held ∧
     (Port.bank1, 115) ∉ y.held ∧ y.passes.length = 1) := by decide +kernel

theorem witness_ExportRunsItsSchedule : sT.Issues 0 gOn ∧ tile0.ParityOk [4, 0] ∧ tile0.held = [] ∧
    expCycles 3 false 0 = (32, 33) ∧
    (let y := (ran (.expBank 0 gOn false false 3 false 4 0) sT).tile 0
     y.held = (List.range 33).map (fun n => (Port.holdWrite, n + 102)) ∧ y.exports.length = 1) := by decide +kernel

theorem witness_ImportRunsItsSchedule : sT.Issues 0 gOn ∧ tile0.ParityOk [4, 1] ∧ tile0.rsPoison 4 = false ∧ tile0.held = [] ∧
    (let y := (ran (.imp 0 gOn false true 4 1) sT).tile 0
     y.held.length = 128 + 64 ∧ (Port.bank0, 103) ∈ y.held ∧ (Port.bank0, 229) ∈ y.held ∧ (Port.holdRead, 228) ∈ y.held ∧
     y.imports.length = 1) := by decide +kernel

/-! ### The V slot -/

/-- Elements of v1: 1.5 and −2.0; of v2: 2.0 and 0.5; of v3: 3 and 5, as binary32 or as integers. -/
def tileV : Tile :=
  { tile0 with vregs := [(256, 0x3FC00000), (257, 0xC0000000), (512, 0x40000000), (513, 0x3F000000), (768, 3), (769, 5)] }
def sV : State := base.setTile 0 tileV

theorem witness_vector : sV.Issues 0 gOn ∧ tileV.VecOk 1 ∧ tileV.VecOk 2 ∧ tileV.VecOk 3 ∧
    tileV.Free .vector [100, 101, 102, 103, 104, 105, 106, 107] ∧ tileV.ParityOk [1] ∧
    sget false tileV.vbad (256 * 3 + 1) = false ∧ vcvtFmt 0 = some .f32 ∧ vcvtFmt 1 = some .bf16 ∧ vcvtFmt 5 = some .int8 := by
  decide +kernel

/-- Element `e` of v4 when a vector command's latency has passed. -/
noncomputable def velemAfter (l e : Nat) (c : Instr) : BitVec 32 := (Tile.cycles l ((ran c sV).tile 0)).velem 4 e

theorem test_fop : velemAfter 4 0 (.fop 0 gOn 4 1 2 0) = 0x40600000 ∧ velemAfter 4 1 (.fop 0 gOn 4 1 2 2) = 0xBF800000 ∧
    velemAfter 3 0 (.fop 0 gOn 4 1 2 0) = 0 := by decide +kernel
theorem test_hop : velemAfter 4 0 (.hop 0 gOn 4 1 2 0) = 0x40600000 := by decide +kernel
theorem test_iop : velemAfter 2 0 (.iop 0 gOn 4 3 1 0) = 0x3FC00003 ∧ velemAfter 3 1 (.iop 0 gOn 4 3 3 2) = 25 := by
  decide +kernel
theorem test_fcmp_icmp : velemAfter 2 0 (.fcmp 0 gOn 4 1 2 2) = 0xFFFFFFFF ∧ velemAfter 2 1 (.icmp 0 gOn 4 3 1 2) = 0 ∧
    velemAfter 2 1 (.icmp 0 gOn 4 3 1 3) = 0xFFFFFFFF := by decide +kernel
theorem test_vsel_vperm : velemAfter 2 0 (.vsel 0 gOn 4 1 2 0) = 0x40000000 ∧
    velemAfter 3 0 (.vperm 0 gOn 4 1 3 0) = 0 ∧ velemAfter 3 9 (.vperm 0 gOn 4 1 3 0) = 0x3FC00000 := by decide +kernel
theorem test_vscan : velemAfter 10 1 (.vscan 0 gOn 4 3 5 1) = 8 ∧ velemAfter 10 255 (.vscan 0 gOn 4 3 5 1) = 8 ∧
    velemAfter 10 1 (.vscan 0 gOn 4 3 3 1) = 5 := by decide +kernel
theorem test_vfn : velemAfter 14 1 (.vfn 0 gOn 4 2 0 0) ≠ 0 := by decide +kernel
theorem test_vcvt : velemAfter 3 0 (.vcvt 0 gOn 4 1 1 0) = 0xC0003FC0 ∧ velemAfter 3 128 (.vcvt 0 gOn 4 1 1 1) = 0xC0003FC0 := by
  decide +kernel
theorem test_vgrid : velemAfter 8 0 (.vgadd 0 gOn 4 1 0 0) ≠ 0 ∧ velemAfter 4 64 (.vgexp 0 gOn 4 5 1 0) = 0 := by decide +kernel
theorem test_vbc_vext : velemAfter 2 255 (.vbc 0 gOn 4 2) = 0xFFFFFFFD ∧
    (Tile.cycles 3 ((ran (.vext 0 gOn 9 3 1) sV).tile 0)).rs 9 = 5 := by decide +kernel

theorem witness_VectorHoldAccess : sV.Issues 0 gOn ∧ tileV.ParityOk [4] ∧ tileV.rsPoison 4 = false ∧
    tileV.Free .holdRead [101, 102, 103, 104] ∧ tileV.Free .holdWrite [102, 103, 104, 105, 106, 107, 108, 109] ∧
    (Tile.cycles 10 ((ran (.vst 0 gOn 3 4 1) sV).tile 0)).hold.read 0x1100 8 = [3, 0, 0, 0, 5, 0, 0, 0] ∧
    (Tile.cycles 7 ((ran (.vld 0 gOn 4 4 1) (sV.setTile 0 { tileV with hold := tileV.hold.store 0x1100 (dat 8 0) false })).tile 0)).velem
      4 1 = 0x312A231C := by decide +kernel

theorem witness_TileThatDoesNotIssueIsLeftAlone : (base.tile 9).issuing = false ∧
    Leaves (.mma 9 gOn true false true false false 3 4 0) base base := by decide +kernel

theorem witness_DisabledOperationsOnlyHoldPorts : sT.Skips 0 gOff ∧ tile0.Free .holdRead [101] ∧ tile0.Free .holdWrite [102] ∧
    tile0.Free .bank0 [101] ∧ (∀ b ∈ tile0.barges, b.id ≠ tile0.nextId) ∧
    (ran (.st 0 gOff 2 1 5) sT).tile 0 = tile0.holding .holdWrite [102] := by decide +kernel

/-! ### The B slot and landings -/

/-- Bytes from a list of (offset, size, value). -/
def img (w : List (Nat × Nat × Nat)) : Ram := w.foldl (fun m e => m.store e.1 (toLe e.2.1 e.2.2) false) {}

/-- A directory entry (R214). -/
def dirAt (i typ count off size : Nat) : List (Nat × Nat × Nat) :=
  [(0x40 + 24 * i, 2, typ), (0x44 + 24 * i, 4, count), (0x48 + 24 * i, 8, off), (0x50 + 24 * i, 8, size)]

/-- An image with one leg (PC 9, two barges, one window of 4 KiB at 0x10000) and one bundle for flight tile 0. -/
def imgB : Ram :=
  img ([(6, 2, 5), (0x14, 4, 4)] ++ dirAt 0 SEC_LEG_RECORDS 1 0x200 16 ++ dirAt 1 SEC_BARGES 2 0x300 128 ++
    dirAt 2 SEC_WINDOWS 1 0x400 16 ++ dirAt 3 SEC_TILE_TABLE 4 0x500 64 ++ dirAt 4 SEC_INSTR 1 0x600 16 ++
    [(0x200, 2, 9), (0x202, 2, 2), (0x208, 1, 1), (0x300, 4, 0x11), (0x308, 8, 40), (0x310, 8, 128), (0x318, 4, 16),
     (0x31C, 2, 1), (0x31E, 2, 1), (0x320, 2, 1), (0x400, 8, 0x10000), (0x408, 8, 0x1000), (0x538, 2, 1), (0x600, 8, 77)])

def flightB : Flight := { st := .running, ran := true, image := imgB, tag := 5, pos := 6 }
def sB : State := { sT with flights := [(0, flightB)] }

theorem witness_WaitsCountersAndMusters : sB.Issues 0 gOn ∧ (sB.tile 0).lc 3 = 7 ∧ (sB.tile 0).cyc = 100 ∧
    (Tile.cycles 1 ((ran (.waitLc 0 gOn 3 7) sB).tile 0)).lc 3 = 0 ∧
    ((ran (.waitLc 0 gOn 3 8) sB).tile 0).stall = some (.lc 3 8) ∧ Leaves (.waitLock 0 gOn 100) sB sB ∧
    ((ran (.waitLock 0 gOn 101) sB).tile 0).stall = some (.cycle 101) ∧
    (Tile.cycles 1 ((ran (.lcset 0 gOn 3 2) sB).tile 0)).lc 3 = 2 ∧
    (ran (.muster 0 gOn 9) sB).musters.length = 1 := by decide +kernel

theorem witness_StalledBundleIsReleased :
    (let s := sB.setTile 0 { tile0 with stall := some (.lc 3 7) }
     (s.tile 0).running = true ∧ (Tile.cycles 1 ((ran (.bundleStallRelease 0) s).tile 0)).lc 3 = 0 ∧
     ((ran (.bundleStallRelease 0) s).tile 0).stall = none) ∧
    (let s := sB.setTile 0 { tile0 with stall := some (.lc 3 8) }
     Leaves (.bundleStallRelease 0) s s) ∧
    (let s := sB.setTile 0 { tile0 with stall := some (.cycle 100) }
     ((ran (.bundleStallRelease 0) s).tile 0).stall = none) := by decide +kernel

theorem witness_AccessesStart : sB.Issues 0 gOn ∧ (sB.tile 0).leg = some 0 ∧ legWindows (sB.legImage tile0) 0 = 1 ∧
    window (sB.legImage tile0) 0 = (0x10000, 0x1000) ∧ tile0.rsPoison 1 = false ∧ tile0.ParityOk [1, 2, 3] ∧
    ((ran (.gld 0 gOn 2 3 0 1 3 true false) sB).tile 0).accs =
      [{ id := 0, kind := .gld 2, lc := 3, va := 0x10000, size := 8, aq := true, pc := 7 }] ∧
    ((ran (.gamo 0 gOn 2 3 0 1 7 false) sB).tile 0).accs =
      [{ id := 0, kind := .gamo 2 7 false, lc := 3, va := 0x10000, size := 8, value := 0x8000000000000000,
         compare := 0xFFFFFFFFFFFFFFFD, pc := 7 }] ∧
    ((ran (.gst 0 gOn 2 3 0 4 0 false false) sB).tile 0).stop = some (.windowAddress, 7) ∧
    ((ran (.fence 0 gOn 3) sB).tile 0).accs.length = 1 := by decide +kernel

theorem witness_BargesStart : sB.Issues 0 gOn ∧ legBarges (sB.legImage tile0) 0 = 2 ∧ legBargeFirst (sB.legImage tile0) 0 = 0 ∧
    (let d := descOf (bargeBytes imgB 0)
     d.srcKind = 1 ∧ d.dstKind = 1 ∧ d.src = 40 ∧ d.dst = 128 ∧ d.l0 = 16) ∧
    ((ran (.barge 0 gOn 3 0) sB).tile 0).barges.length = 1 ∧
    ((ran (.barge 0 gOn 3 2) sB).tile 0).stop = some (.illegal, 7) ∧
    (let bs : List BargeInst := (List.range 64).map fun i => { id := i, lc := 0, desc := [], index := [] }
     let s := sB.setTile 0 { tile0 with barges := bs, nextId := 64 }
     s.Issues 0 gOn ∧ ((ran (.barge 0 gOn 3 0) s).tile 0).stop = some (.bargeLimit, 7)) := by decide +kernel

/-- A frame of HDM, and an uncached line in it. -/
def A : Nat := 2 ^ 19 + 3 * 4096 + 128

/-- Tile 0 with accesses or barges in flight; its window's page is an uncached page of HDM. -/
def tileL : Tile :=
  { st := .bound, running := true, cyc := 100, flight := some (0, 3), leg := some 0, nextId := 9
    hold := { bytes := [(40, 1), (41, 2)] } }
def sLand (as : List Access) (bs : List BargeInst) : State :=
  { base with tiles := [(0, { tileL with accs := as, barges := bs })]
              hdm := ({} : Ram).store A (dat 8 5) false
              flights := [(0, { flightB with curXlt := [(0x10000, 0, 0x3F + (2 ^ 19 + 3 * 4096))] })] }
def accS : Access := { id := 2, kind := .gst, lc := 3, va := 0x10080, size := 8, value := 0x1122334455667788 }
def accL : Access := { id := 2, kind := .gld 4, lc := 3, va := 0x10080, size := 8 }
def segA : XSeg := { va := 0x10080, pa := A, len := 8, host := false, attr := 3, peer := false, ce := false }
def bargeL : BargeInst := { id := 4, lc := 3, desc := bargeBytes imgB 0, index := [] }

theorem witness_LandingsCountAndMove :
    (∀ c, ((sLand [accS] []).tile 0).lc c ≤ 0xFFFF) ∧ (∀ a, tileL.hold.mark a = 0) ∧
    (let s := sLand [accS] []
     s.Live ∧ earlier (s.tile 0).accs 2 = [] ∧ s.segs 0 0x10080 8 = (s, [segA]) ∧ s.Backed A ∧ s.Backed (lineOf A) ∧
     s.port.curOk = [] ∧ s.homeBusy none (lineOf A, some true) = false ∧ s.homeBusy none (lineOf A, some false) = false ∧
     (let u := ran (.globalAccessLanding 0 2) s
      u.hdm.read A 8 = [0x88, 0x77, 0x66, 0x55, 0x44, 0x33, 0x22, 0x11] ∧ (u.tile 0).accs = [] ∧ (u.tile 0).lc 3 = 1)) ∧
    (let s := sLand [accL] []
     s.segs 0 0x10080 8 = (s, [segA]) ∧ s.CleanLine (lineOf A) ∧ (s.tile 0).inject = none ∧
     ((ran (.globalAccessLanding 0 2) s).tile 0).rs 4 = BitVec.ofNat 64 (leNat (dat 8 5))) ∧
    (let s := sLand [{ accS with id := 1, aq := true }, accL] []
     Leaves (.globalAccessLanding 0 2) s s) ∧
    (let s := sLand [{ id := 2, kind := .fence, lc := 3, va := 0, size := 0 }] []
     ((ran (.globalAccessLanding 0 2) s).tile 0).lc 3 = 1) ∧
    (let s := sLand [] [bargeL]
     let d := descOf bargeL.desc
     d.op = 0 ∧ d.cvt = false ∧ d.srcKind = 1 ∧ d.dstKind = 1 ∧ d.c1 = 1 ∧ d.c2 = 1 ∧ d.c3 = 1 ∧
     d.src + d.l0 ≤ 0x180000 ∧ d.dst + d.l0 ≤ 0x180000 ∧ s.ioBusy (.barge 0 4) = false ∧
     (let y := (ran (.bargeLanding 0 4) s).tile 0
      y.barges = [] ∧ y.lc 3 = 1 ∧ y.hold.read 128 4 = [1, 2, 0, 0])) :=
  ⟨fun _ => Nat.zero_le _, fun _ => rfl, by decide +kernel, by decide +kernel, by decide +kernel, by decide +kernel,
    by decide +kernel⟩

/-! ### Service of tiles, clocks, legs -/

/-- Reach 0 with its spare (tile 16) idle, tile 0 bound at position 2, and a clock step pending on tile 1. -/
def sS : State :=
  let s := sR.setReach 0 { sR.reach 0 with tileMap := [some 1, some 2, some 0] }
  (s.setTile 16 { st := .spare }).setTile 1 { st := .bound, step := some 96 }

theorem witness_TileService : sS.Live ∧ sS.bit FUS_REGRADE 31 = false ∧ sS.bit FUS_SUBST 31 = false ∧
    (sS.tile 16).st = .spare ∧ (sS.spareIdle 0).isSome = true ∧ (sS.tile 0).st = .bound ∧ (sS.tile 0).zeroing = false ∧
    sS.physTile 2 = some 0 ∧
    ((ran (.tileRegrade 16) sS).reach 0).regradeWait = some 16 ∧
    ((ran (.tileRegrade 0) sS).reach 0).subst = some (2, false) ∧ ((ran (.spareSubstitution 2) sS).reach 0).subst = some (2, false) ∧
    (let s := sS.setTile 16 { st := .retired }
     s.spareIdle 0 = none ∧ (ran (.spareSubstitution 2) s).fld FUS_SUBST 30 28 = 1 ∧
     (ran (.tileRegrade 16) s).fld FUS_REGRADE 30 28 = 2) ∧
    (let s := sS.setReach 0 { sS.reach 0 with regrade := some 16 }
     ((ran (.regradeDone 0 42) s).tile 16).service = 40 ∧ ((ran (.regradeDone 0 41) s).tile 16).st = .retired) ∧
    (let s := sS.setTile 5 { st := .bound, zeroing := true, sregs := [(1, 5)], gx := 3 }
     (s.tile 5).zeroing = true ∧ ((ran (.tileZeroingDone 5) s).tile 5).gx = 0) ∧
    (let s := { sS with flights := [(0, { flightB with st := .moored })] }.setReach 0
        { sS.reach 0 with subst := some (2, false) }
     (s.reach 0).tileMap[2]? = some (some 0) ∧ (s.tile 0).flight = some (0, 3) ∧ (s.flight 0).st ≠ .running ∧
     ((ran (.substitutionCopyDone 0) s).reach 0).subst = some (2, true)) ∧
    (let s : State := { sS with flights := [(0, { flightB with overrun := true })] }
     (s.flight 0).needRestore = false ∧ (s.flight 0).leaveDue = false ∧ (s.flight 0).restoreDue = none ∧ s.waits = [] ∧
     ((ran (.overrunDrainDone 0) s).flight 0).overrun = false) ∧
    (let s := sS.setBit FUS_REGRADE 31 true
     Leaves (.tileRegrade 16) s s) ∧ (let s := sS.setBit FUS_SUBST 31 true
     Leaves (.spareSubstitution 2) s s) := by decide +kernel

theorem witness_ClocksAndLegs : sS.Live ∧ sS.fuses.reachActive 0 = true ∧ (sS.tile 1).step = some 96 ∧ (sS.reach 0).droop = [] ∧
    (sS.tile 1).cyc < 64 ∧ (let s := sS.setTile 1 { st := .bound, running := true, cyc := 64, step := some 96 }
     Leaves (.clockStep 1) s s) ∧
    ((ran (.clockStep 1) sS).tile 1).clk = 96 ∧ (ran (.clockStepDeferred 1) sS).bit PWR_STAT 7 = true ∧
    ((ran (.droopTrip 0 15 3) sS).reach 0).droop = [(15, 3)] ∧
    (let s := sS.setReach 0 { sS.reach 0 with droop := [(2, 1)] }
     Leaves (.clockStep 1) s s ∧ ((ran (.droopStretchEnd 0 2) s).reach 0).droop = []) ∧
    (let s : State := { sB with tiles := [(0, { tileL with running := false, hold := {} })] }
     ((ran .legStart s).tile 0).pc = 9 ∧ ((ran .legStart s).tile 0).cyc = 64) ∧
    (let s : State := { sS with xlt := { sS.xlt with counters := [(1, 2, 5, 0), (1, 3, 1, 0)] } }
     (ran .counterDecay s).xlt.counters = [(1, 2, 2, 0)]) := by decide +kernel

/-! ### The lock and the gate -/

/-- A joined single device whose vote instant has passed. -/
def sV1 : State := { base with ww := { base.ww with joined := true, lm := some 0, pound := 41, epoch := 1000, slip := 250 } }
def sC : State := { sV1 with gate := { sV1.gate with cut := true } }
def sLate (round : Nat) : State := { sC with gate := { sC.gate with voted := true, round := round } }

theorem witness_LockOpensTheNextPound : sC.Live ∧ sC.locksRun = true ∧ sC.gate.cut = true ∧ sC.lateVote = false ∧
    (sLate 15).lateVote = true ∧ (sLate 15).gate.round < 16 ∧ (sLate 16).lateVote = true := by decide +kernel

theorem test_lock : (let w := (ran (.lock []) sC).ww
     w.pound = 42 ∧ w.time = 1000 + 42 * sC.poundLen + 250) ∧ Leaves (.lock []) (sLate 15) (sLate 15) ∧
    (ran (.lock []) (sLate 16)).ww.time = 1000 + 42 * sC.poundLen + 250 + 4000 := by decide +kernel

/-- A new pound length adopted at the lock. -/
def sAdopt : State :=
  { sC with gate := { sC.gate with sent := { setup := some { dev := 0, len := 300, lead := 50 } } } }

theorem test_lock_rebase : let u := ran (.lock []) sAdopt
    u.poundLen = 30000 ∧ u.ww.slip = 0 ∧ u.ww.time = 1000 + 42 * sC.poundLen + 250 ∧
      (u.ww.epoch + 42 * 30000) % 2 ^ 64 = u.ww.time := by decide +kernel

/-- A gate flit of round 0, phase 0, PART A, from device 1. -/
def gateX (pound : Nat) : Flit := gateFlit 1 0 0 0 0 pound { presence := true }
/-- The command of a gate flit that arrives on port 3, by its parts. -/
def gateIn (f : Flit) : Instr :=
  .gateFlitReceive 3 0 4 (f.head % 2 ^ 52) f.spec (flitCrc (toLe 12 f.head) (padTo 240 f.payload)) (padTo 240 f.payload)
def gateInRx : Instr → RxFlit
  | .gateFlitReceive _ e0 e1 h sp crc bs => gateRx e0 e1 h sp crc bs
  | _ => { bytes := [] }

/-- A ring of two devices with an active link on port 3. -/
def sG : State :=
  { sC with ww := { sC.ww with shape := (2, 1, 1, 1), index := 0 }
            canals := [(3, { st := .active, peerDev := 1, peerValid := true })] }

theorem witness_GateExchange : sV1.Live ∧ sV1.locksRun = true ∧ sV1.gate.cut = false ∧ (ran .voteInstant sV1).gate.cut = true ∧
    (ran .voteInstant (sLate 15)).gate.round = 16 ∧ Leaves .voteInstant sC sC ∧ sG.dims[0]? = some 0 ∧
    sG.neighborsIn 0 = [1] ∧ sG.linkGroup 1 = [3] ∧ (ran (.gateFlitSend 0 0) sG).out.length = 2 ∧ sG.portActive 3 = true ∧
    (sG.canal 3).peerDev ∈ sG.neighborsIn 0 ∧
    (gateInRx (gateIn (gateX 41)) = { errs := (0, 4), bytes := (gateX 41).bytes false } ∧
     (gateInRx (gateIn (gateX 41))).read = .flit (gateX 41) ∧ (gateX 41).typ = FLIT_GATE ∧ gatePound (gateX 41) = sG.ww.pound ∧
     (let u := ran (gateIn (gateX 41)) sG
      u.gate.got = [{ round := 0, phase := 0, peer := 1, part := 0, gate := { presence := true } }] ∧
      Leaves (gateIn (gateX 41)) u u)) ∧
    Leaves (gateIn (gateX 42)) sG sG := by decide +kernel

theorem witness_GateMergeRules :
    let a : Gate := { cand := some (3, 9), setup := some { dev := 4, len := 300, lead := 50 } }
    let b : Gate := { cand := some (3, 2), setup := some { dev := 1, len := 200, lead := 50 }, tags := [(7, { hold := true })] }
    (b.tags.map Prod.fst).Nodup ∧ (mergeGate a b).cand = some (3, 2) ∧ (mergeGate a b).setup = b.setup ∧
      (gateTag (mergeGate a b) 7).hold = true := by decide +kernel

theorem witness_TimekeepingCommands :
    (let s : State := { sV1 with flights := [(0, { flightB with st := .moored, image := img [(0x1A, 2, 9)] })] }
     s.Live ∧ s.locksIn 0 = true ∧ s.gate.cut = false ∧ (s.lockAll 0 (s.flight 0).nextPos).2.ok = true ∧
     (s.lockAll 0 (s.flight 0).nextPos).2.pages = [] ∧ ((ran (.lockIn 0) s).flight 0).lockinOk = true ∧
     s.boundSlots = [0] ∧ s.ww.expired = none ∧ (gateTag (ran .holdoverExpiry s).gate.own 5).hold = true ∧
     (let u := ran .holdoverExpiry s
      u.ww.holdover = true ∧ u.ww.joined = true ∧ u.ww.expired = some 42 ∧ u.bit TCK_STAT 6 = true ∧
      Leaves .holdoverExpiry u u) ∧
     (gateTag (ran .holdoverExpiry { s with gate := { s.gate with cut := true } }).gate.next 5).hold = true) ∧
    Leaves (.lockIn 0) sC sC ∧ sV1.bit TCK_REQ 31 = false ∧ (ran (.setupRequest 0x0032012C) sV1).fld TCK_REQ 9 0 = 300 ∧
    (ran (.setupRequest 0x0032012C) sV1).bit TCK_REQ 31 = true ∧
    (let s := sV1.setBit TCK_REQ 31 true
     Leaves (.setupRequest 5) s s) ∧ Leaves .lockmasterAbsence sV1 sV1 ∧
    (let s := { sV1 with ww := { sV1.ww with lmAbsent := 4 } }.setReg TCK_CTL 0x0100
     (ran .lockmasterAbsence s).ww.candidate = true) := by decide +kernel

/-- The device with its memory space open and a Waybill of 3 bytes. -/
def sBar : State :=
  { sV1 with port := { sV1.port with memSpace := true }, boot := { sV1.boot with waybill := [7, 8, 9] } }

theorem witness_HostRegisterAccesses :
    (let s : State := { sV1 with boot := { sV1.boot with safe := true } }
     (ran (.tckLoRead ⟨.bar2, 1, 2⟩) s).out = [.barData [0xFF, 0xFF] false] ∧ Leaves (.registerWrite ⟨.bar0, 0⟩ 4 1) s s) ∧
    (sV1.port.barClosed = true ∧ AerErr.unsupportedRequest ∈ (ran (.registerWrite ⟨.bar0, GLB_SCRATCH⟩ 4 5) sV1).port.aer ∧
     (ran (.tckLoRead ⟨.bar2, 0, 1⟩) sV1).out = [.barUnsupported] ∧
     (ran (.tckLoRead ⟨.config, 2, 2⟩) sV1).out = [.barData (toLe 2 0x5A4B) false] ∧
     (ran (.registerWrite ⟨.config, 4⟩ 4 2) sV1).port.memSpace = true) ∧
    sBar.port.barClosed = false ∧
    (ran (.tckLoRead ⟨.bar0, 2, 4⟩) sBar).out = [.barAbort] ∧ (ran (.tckLoRead ⟨.bar0, 4, 8⟩) sBar).out = [.barAbort] ∧
    AerErr.completerAbort ∈ (ran (.registerWrite ⟨.bar0, 0⟩ 2 5) sBar).port.aer ∧
    (ran (.tckLoRead ⟨.bar2, 1, 4⟩) sBar).out = [.barData [8, 9, 0, 0] false] ∧ Leaves (.registerWrite ⟨.bar2, 0⟩ 4 1) sBar sBar ∧
    isTckPair 0x1008 = true ∧
    (let u := ran (.tckLoRead ⟨.bar0, 0x1008, 4⟩) sBar
     (sfind? u.ww.capture 0x1008).isSome = true ∧
     sfind? (ran (.tckLoRead ⟨.bar0, 0x100C, 4⟩) u).ww.capture 0x1008 = none) ∧
    isTckPair GLB_SCRATCH = false ∧ (ran (.registerWrite ⟨.bar0, GLB_SCRATCH⟩ 4 5) sBar).reg GLB_SCRATCH = 5 ∧
    GLB_SCRATCH % 8 = 0 ∧ (ran (.registerWrite ⟨.bar0, GLB_SCRATCH⟩ 8 (2 ^ 33)) sBar).reg GLB_SCRATCH = 0 := by decide +kernel

/-! ### Resets and bring-up -/

theorem witness_ResetsAndRails : State.reset.Live ∧
    20 ≤ ((List.range 24).filter State.reset.fuses.lkpGood.contains).length ∧
    ({} : BistReport).fuseParityOk = true ∧ ({} : BistReport).romOk = true ∧ (∀ e ∈ base.lks, e.2.st ≠ .retired) ∧
    (sS.tiles.map Prod.fst).Nodup ∧ (sS.reaches.map Prod.fst).Nodup ∧ (∀ e ∈ sS.lks, e.2.st ≠ .retired) ∧
    (let u := ran (.coldReset {}) sS
     u.boot.step = 5 ∧ u.tiles = [] ∧ u.hdm = {} ∧ (u.lk 0).st = .active) ∧
    (ran (.coldReset { fuseParityOk := false }) sS).boot.failed = some 2 ∧
    (let s : State := { sLand [] [] with port := { base.port with linkUp := true } }
     (ran (.warmReset {}) s).hdm = s.hdm ∧ (ran (.warmReset {}) s).port = {} ∧
     (ran (.cxlReset true {}) s).hdm = {} ∧ (ran (.cxlReset false {}) s).boot.step = 6) ∧
    base.ww.joined = false ∧ base.port.outstanding = [] ∧ (ran .flr base).port.busMaster = false ∧
    (let s : State := { sV1 with flights := [(0, { flightB with st := .moored })] }
     s.boundSlots ≠ [] ∧ (ran .flr s).port.flrBusy = true) ∧
    base.railInService 0 = true ∧ (ran (.powerGoodLoss 0) sS).boot.safe = true ∧
    ((ran (.powerGoodLoss 0) sS).tile 0).running = false ∧ State.reset.railInService 2 = false ∧
    (ran (.powerGoodLoss 2) State.reset).boot.safe = false ∧
    (let s : State := { base with boot := { State.reset.boot with step := 5 } }
     s.boot.failed = none ∧ s.boot.fwSize = 0 ∧ (ran .hostLinkUp s).boot.step = 6) := by decide +kernel

theorem witness_OnlyColdResetLeavesSafeState :
    let s : State := { base with boot := { base.boot with safe := true }, pending := [.warmReset {}] }
    s.boot.safe = true ∧ s.pending.head? = some (.warmReset {}) ∧ (ran (.warmReset {}) s).boot.safe = true ∧
      (ran (.coldReset {}) s).boot.safe = false := by decide +kernel

/-- A device at a step of bring-up. -/
def sBoot (n : Nat) : State :=
  { State.reset with boot := { State.reset.boot with step := n, fwReady := decide (7 ≤ n) }
                     lks := (List.range 24).map fun k => (k, { st := .spare }) }
def report8 : List StackReport := (List.range 31).map fun n => { port := n, dies := 8, density := 1 }
def link3 : TrainReport := { peerDev := 1, peerPort := 0, shape := (2, 1, 1, 1), flight := 50 * 256, enterAt := 43 }
def alone : DiscoveryReport :=
  { coord := (0, 0, 0, 0), shape := (1, 1, 1, 1), others := [], running := none, firstLock := 0 }
def sTrain (st : PState) (joined : Bool) : State :=
  { base with ww := { base.ww with joined := joined }, canals := [(3, { st := st })] }

theorem witness_StackTraining : (sBoot 7).Live ∧ (sBoot 7).boot.failed = none ∧ (sBoot 7).pins.pgMem = true ∧
    popKnown 8 1 = true ∧ (∀ r ∈ report8, r.present = true → r.dies = 8 ∧ r.density = 1 ∧ r.trains = true ∧ r.initOk = true ∧
      r.pprFail = [] ∧ r.margins = []) ∧
    (sBoot 7).stackTrains 0 = true ∧ (reportOf report8 0).isSome = true ∧
    (let u := ran (.stackTraining report8) (sBoot 7)
     (u.stack 0).st = .active ∧ (u.stack 0).height = 2 ∧ u.boot.capacity = 32 * 2 ^ 30 ∧ 8 ≤ u.boot.step) := by
  decide +kernel

theorem witness_CanalTraining : (sTrain .training false).trains 3 = true ∧ link3.failAt = none ∧
    (sTrain .training false).cabledRight 3 link3 = true ∧ link3.flight ≤ 50 * 256 ∧
    ((ran (.canalTraining 3 link3) (sTrain .training false)).canal 3).st = .active ∧
    (let s : State := { sTrain .retrain true with ww := { base.ww with joined := true, pound := 41, shape := (2, 1, 1, 1) } }
     s.trains 3 = true ∧ s.cabledRight 3 link3 = true ∧ s.enterOk 43 = true ∧
     ((ran (.canalTraining 3 link3) s).canal 3).enterAt = some 43) ∧
    (∀ k ∈ [1, 2, 3, 4, 5, 6, 7, 8], let c := (ran (.trainingStepTimeout 3 ⟨k, link3⟩) (sTrain .training false)).canal 3
     c.fail = k ∧ c.st = if k = 5 ∨ k = 6 then .retired else .retrain) := by decide +kernel

theorem witness_Discovery : (sBoot 9).ww.joined = false ∧ (sBoot 9).bit TCK_CTL 0 = true ∧
    (let s := (sBoot 9).setBit TCK_CTL 0 false
     s.bit TCK_CTL 0 = false ∧ (ran (.waterwayDiscovery alone) s).ww.joined = true ∧
     (ran (.waterwayDiscovery alone) s).ww.lm = some 0) ∧
    (let d : DiscoveryReport := { alone with coord := (3, 1, 0, 0), shape := (4, 2, 1, 1), variants := [2], running := some (100, 250, 7, 20, 50, 1) }
     (ran (.waterwayDiscovery d) (sBoot 9)).ww.time = 100 + 7 * 2000 + 250 ∧
     (ran (.waterwayDiscovery d) (sBoot 9)).ww.lm = some 1 ∧ (ran (.waterwayDiscovery d) (sBoot 9)).ww.index = 11) := by decide +kernel

theorem witness_DiscoveryTimeout : (sBoot 9).boot.step = 9 ∧ (sBoot 9).boot.failed = none ∧
    (sBoot 9).ww.joined = false ∧ (ran .discoveryTimeout (sBoot 9)).boot.step = 11 := by decide +kernel

theorem witness_Waybill : let s : State := { base with boot := { base.boot with wayValid := true, published := 99 :: base.counted } }
    s.ww.joined = false ∧ s.boot.wayValid = true ∧ s.counted ≠ s.boot.published ∧
      (ran .waybillUnjoinedUpdate s).boot.generation = s.boot.generation + 1 := by decide +kernel

theorem witness_Firmware : (sBoot 6).bit LKP_FW_CTL 31 = false ∧ (sBoot 6).boot.update = none ∧
    (ran (.firmwareBootLoad 0) (sBoot 6)).boot.reading = some 0 ∧ (ran (.firmwareUpdate 0) (sBoot 6)).boot.reading = some 1 ∧
    (let s : State := { sBoot 6 with boot := { (sBoot 6).boot with reading := some 0 } }
     s.boot.reading = some 0 ∧ (ran (.firmwareCheckDone false) s).fld LKP_FW_CTL 3 0 = 1 ∧
     (ran (.firmwareCheckDone true) s).boot.reading = none ∧ 20 ≤ s.goodLks.length) ∧
    (let s : State := { sBoot 6 with boot := { (sBoot 6).boot with update := some (3, 1) } }
     (ran (.firmwareUpdate 0) s).fld LKP_FW_CTL 3 0 = 9 ∧ (ran .roleLoadDone s).boot.update = some (3, 2)) ∧
    (let s := (sBoot 6).setBit LKP_FW_CTL 31 true
     Leaves (.firmwareBootLoad 0) s s) ∧
    (ran (.roleMigrate 19) base).boot.migrating = [19] ∧ (freeSlot base.flt.log).isSome = true ∧
    (ran (.lkWatchdogExpiry 5) base).Logged 0x61 6 5 := by decide +kernel

/-! ### Canals -/

/-- Device 0 of a ring of two, its port 3 active toward device 1. -/
def sP : State :=
  { sV1 with ww := { sV1.ww with shape := (2, 1, 1, 1), index := 0 }
             reaches := [(0, { tileMap := [some 0, some 1] })]
             canals := [(3, { st := .active, peerDev := 1, peerValid := true, expected := 9, nextSeq := 20 })] }
/-- What arrives when a flit's bytes arrive whole, with symbol errors that the code corrects. -/
def rx (f : Flit) : RxFlit := { errs := (4, 0), bytes := f.bytes false }
def flit0 : Flit := { typ := 1, seq := 9, dst := 1, src := 0, payload := List.replicate 240 0 }
def idle0 : Flit := { flit0 with typ := 0 }
/-- The middle of a barge from device 1 with ticket 4 to tile 1's hold at word 16: 2 words. -/
def flitD : Flit :=
  { typ := 2, seq := 9, dst := 0, src := 1, spec := 1 + 16 * 2 ^ 8 + 2 * 2 ^ 26 + 4 * 2 ^ 35,
    payload := dat 16 3 ++ List.replicate 224 0 }
def lack0 : Flit := { typ := 3, seq := 9, dst := 0, src := 1, spec := 1, payload := padTo 240 [5, 0, 0, 0, 0, 0, 0, 0] }
/-- The link with two flits of its own not yet acknowledged. -/
def sRep (n k : Nat) : State :=
  sP.setCanal 3 { sP.canal 3 with replay := [{ flit0 with seq := 18 }, { flit0 with seq := 19 }], resends := n, resend := k }

theorem witness_FlitsArrive : sP.Live ∧ (sP.canal 3).st = .active ∧
    (let x : RxFlit := { errs := (5, 0), bytes := [] }
     x.read = .uncorrectable ∧ (gateRx 5 0 0 0 0 []).read = .uncorrectable ∧
     (ran (.gateFlitReceive 3 5 0 0 0 0 []) sP).bit (cnlReg 3 0x14) 0 = true ∧ (ran (.absentFlitReceive 3 x.errs x.bytes) sP).bit (cnlReg 3 0x14) 0 = true) ∧
    (let x : RxFlit := { bytes := flit0.bytes true }
     x.read = .badCrc ∧ (ran (.dataFlitReceive 3 x.errs x.bytes) sP).bit (cnlReg 3 0x14) 1 = true) ∧
    (let s := sRep 2 0
     let f : Flit := { idle0 with ackv := true, ack := 18 }
     (rx f).read = .flit f ∧ (s.canal 3).replay.findIdx? (fun g => g.seq == f.ack) = some 0 ∧
     ((ran (.idleFlitReceive 3 (4, 0) (f.bytes false)) s).canal 3).replay = [{ flit0 with seq := 19 }] ∧
     (let g := { f with nak := true }
      (rx g).read = .flit g ∧ ((ran (.idleFlitReceive 3 (4, 0) (g.bytes false)) s).canal 3).resend = 1)) ∧
    (rx idle0).read = .flit idle0 ∧ Leaves (.idleFlitReceive 3 (4, 0) (idle0.bytes false)) sP sP := by decide +kernel

theorem witness_DataFlitsArrive : (rx flit0).read = .flit flit0 ∧ flit0.ackv = false ∧
    flit0.seq = (sP.canal 3).expected ∧ flit0.dst ≠ sP.ww.index ∧
    (let u := ran (.dataFlitReceive 3 (4, 0) (flit0.bytes false)) sP
     (u.canal 3).expected = 10 ∧ u.transit = [{ port := 3, flit := flit0 }]) ∧
    (let x := rx { flit0 with seq := 12 }
     let u := ran (.dataFlitReceive 3 x.errs x.bytes) sP
     (u.canal 3).expected = 9 ∧ (u.canal 3).nakSent = true ∧ Leaves (.dataFlitReceive 3 x.errs x.bytes) u u) ∧
    (let f : Flit := { flit0 with typ := 2 }
     let s : State := { sP with transit := List.replicate 256 { port := 3, flit := f } }
     (rx f).read = .flit f ∧ s.freightOf 3 = 256 ∧ Leaves (.dataFlitReceive 3 (4, 0) (f.bytes false)) s s) := by decide +kernel

theorem witness_BargeFlitsArrive :
    let s : State := { sP with remote := [(remoteKey flitD, { tile := 1, head := 0, denied := false })] }
    (rx flitD).read = .flit flitD ∧ flitD.seq = (s.canal 3).expected ∧ flitD.dst = s.ww.index ∧ isStream flitD = false ∧
    headAdd 0 = false ∧ s.physTile (flitTile flitD) = some 1 ∧ flitWord flitD = 16 ∧ flitLen flitD = 2 ∧
    remoteKey flitD = 260 ∧ flitD.payload.length = 240 ∧
    ((ran (.dataFlitReceive 3 (4, 0) (flitD.bytes false)) s).tile 1).hold.read 128 16 = dat 16 3 := by decide +kernel

theorem witness_LackFlitsArrive :
    (let s : State := { sP with tickets := [(5, (1, 4))]
                                tiles := [(1, { barges := [{ id := 4, lc := 3, desc := [0x51], index := [] }] })] }
     (rx lack0).read = .flit lack0 ∧ lackWords lack0 = [5] ∧ (descOf [0x51]).dstKind = 5 ∧ sfind? s.tickets 5 = some (1, 4) ∧
     (let u := ran (.lackReceive 3 (4, 0) (lack0.bytes false)) s
      u.tickets = [] ∧ (u.tile 1).barges = [] ∧ (u.tile 1).lc 3 = 1)) ∧
    (let f := { lack0 with dst := 1 }
     (rx f).read = .flit f ∧ (ran (.lackReceive 3 (4, 0) (f.bytes false)) sP).transit = [{ port := 3, flit := f }]) := by decide +kernel

/-- A TIME flit of device 1 that left at 5 ns, and echoes one that left here at 2 ns and came there at 6 ns. -/
def time0 : Flit := timeFlit 1 0 (5 * 2 ^ 16) (2 * 2 ^ 16) (6 * 2 ^ 16)
def time1 : Flit := { time0 with payload := padTo 240 time0.payload }

theorem witness_TimeFlitsArrive : (rx time1).read = .flit time1 ∧ time1.typ = FLIT_TIME ∧ (sP.canal 3).upstream = false ∧
    stampAt time1 0 = 5 * 2 ^ 16 ∧
    (let u := ran (.timeFlitReceive 3 (4, 0) (time1.bytes false) (11 * 2 ^ 16)) sP
     (u.canal 3).echo = (5 * 2 ^ 16, 11 * 2 ^ 16) ∧ (u.canal 3).flights = [5 * 2 ^ 16]) ∧
    (let s : State := { sP with ww := { sP.ww with holdover := true, syncAt := 1 } }.setCanal 3
       { sP.canal 3 with upstream := true }
     (s.canal 3).upstream = true ∧ s.ww.joined = true ∧
     (ran (.timeFlitReceive 3 (4, 0) (time1.bytes false) (11 * 2 ^ 16)) s).ww.holdover = false) := by decide +kernel

theorem witness_TrainAndAbsentFlitsArrive :
    (let f : Flit := { flit0 with typ := 6 }
     (rx f).read = .flit f ∧ Leaves (.trainFlitReceive 3 (4, 0) (f.bytes false) none none) sP sP ∧
     5 < sP.fuses.variant.canals ∧ (sP.canal 5).st ≠ .retired ∧
     ((ran (.trainFlitReceive 3 (4, 0) (f.bytes false) (some 5) none) sP).canal 5).st = .retired ∧
     (let s := sP.setCanal 5 { st := .retrain, replay := [{ flit0 with seq := 18 }, { flit0 with seq := 19 }] }
      (s.canal 5).st ≠ .active ∧ (s.canal 5).replay.findIdx? (fun g => g.seq == 18) = some 0 ∧
      (ran (.trainFlitReceive 3 (4, 0) (f.bytes false) none (some (5, 18))) s).transit =
        [{ port := OWN, late := true, flit := { flit0 with seq := 19 } }])) ∧
    (let f : Flit := { flit0 with typ := 15 }
     (rx f).read = .flit f ∧ ((ran (.absentFlitReceive 3 (4, 0) (f.bytes false)) sP).canal 3).st = .absent) := by decide +kernel

/-- The same port with a late scheduled flit of the device's own. -/
def sOwn : State := { sP with transit := [{ port := OWN, late := true, flit := flit0 }] }

theorem witness_CanalSlots : sP.launchAll = sP ∧ sP.gate.cut = false ∧ 80 < sP.gridSlots ∧
    Leaves (.canalSlot 3 (sP.gridSlots)) sP sP ∧
    (let c := { sP.canal 3 with nakDue := true }
     let s := sP.setCanal 3 c
     (ran (.canalSlot 3 80) s).out =
       [.flit 3 ((c.acks (timeFlit 0 1 (s.slotStamp 80) 0 0)).bytes false) false] ∧
     (ran (.canalSlot 3 64) s).out = [.flit 3 ((c.acks { typ := 0, dst := 1, src := 0 }).bytes false) false] ∧
     (ran (.canalSlot 3 64) s).canal 3 = sP.canal 3) ∧
    sOwn.launchAll = sOwn ∧ sOwn.route flit0 = some (3, false) ∧
    (let u := ran (.canalSlot 3 64) sOwn
     (u.canal 3).nextSeq = 21 ∧ u.transit = [] ∧
     u.out = [.flit 3 (({ (sP.canal 3).acks flit0 with seq := 20 } : Flit).bytes false) false]) ∧
    (sRep 0 2).launchAll = sRep 0 2 ∧ (sRep 0 2).transit = [] ∧ ((ran (.canalSlot 3 64) (sRep 0 2)).canal 3).resend = 1 ∧
    (let s : State := { sP with ww := { sP.ww with joined := false } }
     (ran (.canalSlot 3 64) s).out.length = 1) := by decide +kernel

theorem witness_LinkStates : ((sRep 7 0).canal 3).replay ≠ [] ∧ ((ran (.replayTimerExpiry 3) (sRep 7 0)).canal 3).resends = 8 ∧
    ((ran (.replayTimerExpiry 3) (sRep 8 0)).canal 3).st = .retrain ∧
    ((sRep 7 0).canal 3).replay.findIdx? (fun g => g.seq == 17) = none ∧
    ((ran (.linkNakReceive 3 17) (sRep 7 0)).canal 3).resend = 2 ∧
    ((ran (.linkSilenceTimeout 3) sP).canal 3).st = .retrain ∧ ((ran (.lossOfCodewordAlignment 3) sP).canal 3).st = .retrain ∧
    (let u := ran (.linkSilenceTimeout 3) (sRep 0 0)
     u.linkGroup 1 = [] ∧ (u.canal 3).replay = [] ∧ u.transit.length = 2) ∧
    (let s := (sRep 0 0).setCanal 4 { st := .active, peerDev := 1, peerValid := true }
     let u := ran (.linkSilenceTimeout 3) s
     u.linkGroup 1 = [4] ∧ (u.canal 3).replay.length = 2) ∧
    (sP.canal 4).st ≠ .active ∧ Leaves (.canalSlot 4 0) sP sP ∧ 3 < sP.fuses.variant.canals ∧
    ((ran (.peerSignalReturn 3) (sTrain .absent false)).canal 3).st = .training ∧
    ((ran (.linkRetire 3) sP).canal 3).st = .retired ∧ ((ran (.linkRetrain 3) sP).canal 3).st = .retrain ∧
    ((ran (.linkRetrain 3) (sTrain .retired false)).canal 3).st = .training ∧ (sP.canal 4).st = .disabled ∧
    8 ≤ sP.boot.step ∧ sP.pins.pgLink = true ∧ ((ran (.portEnable 4) sP).canal 4).st = .training ∧
    (sBoot 7).boot.step < 8 ∧ ((ran (.portEnable 4) (sBoot 7)).canal 4).st = .disabled ∧
    (ran (.cnlInjFec 3) sP).bit (cnlReg 3 0x18) 1 = true ∧ (ran (.cnlInjCrc 3) sP).bit (cnlReg 3 0x18) 0 = true := by
  decide +kernel

/-! ### Ring commands -/

def ring0 : Ring := { base := 0x100000, enable := true, mode := .polled, prod := 1, db := 0x310000 }
def ring8 : Ring := { base := 0x200000, enable := true, mode := .active, db := 0x300000 }
/-- An entry of the object table: context, generation 1, all rights, 4 KiB at a VA. -/
def objBytes (ctx va : Nat) : List Byte := toLe 4 (2 ^ 17 * ctx + 2 ^ 16 + 1) ++ toLe 4 7 ++ toLe 8 va ++ toLe 8 4096
def H (i : Nat) : Nat := 4096 * i + 1
/-- Contexts 0 and 1 are served, with rings 2 and 8. Context 1 has objects 0 on a host page at 0x500000, 1 and 2 on pages
of HDM, all with their leaves cached. -/
def sK : State :=
  let s : State := { base with
    contexts := [(0, { st := .ready, rings := [(2, ring0), (8, ring8)] }),
                 (1, { st := .ready, rings := [(2, ring0), (8, { ring8 with base := 0x210000 })] })]
    lks := [(3, { st := .active, role := some 1 }), (4, { st := .active, role := some 0 })]
    port := { base.port with busMaster := true, memSpace := true }
    hdm := ({} : Ram).store (2 ^ 19) (dat 64 1) false
    host := ((((({} : Ram).store 0x600000 (objBytes 1 0x40000000) false).store 0x600020 (objBytes 1 0x40001000) false).store
      0x600040 (objBytes 1 0x40002000) false).store 0x310000 [1] false).store 0x500008 [40] false
    xlt := { base.xlt with tlb := [{ unit := 19, ctx := 1, va := 0x40000000, level := 0, entry := 0x5000BF },
      { unit := 19, ctx := 1, va := 0x40001000, level := 0, entry := 2 ^ 19 + 0x3F },
      { unit := 19, ctx := 1, va := 0x40002000, level := 0, entry := 2 ^ 19 + 0x1000 + 0x3F }] } }
  ((((s.setBit RNG_CTL 0 true).setBit XLT_CTL 0 true).setReg RNG_OBJ_LO 0x600000).setReg RNG_OBJ_COUNT 3)
def hd (flags : Nat) : DescHdr := { seq := 0, flags := flags }
def fence0 : Obj := { handle := H 0, ctx := 1, va := 0x40000000, len := 4096 }
def segF : XSeg := { va := 0x40000008, pa := 0x500008, len := 8, host := true, attr := 3, peer := false, ce := false }
def segS : XSeg := { va := 0x40001000, pa := 2 ^ 19, len := 64, host := false, attr := 3, peer := false, ce := false }
def segD : XSeg := { va := 0x40002000, pa := 2 ^ 19 + 0x1000, len := 64, host := false, attr := 3, peer := false, ce := false }

theorem witness_rings : sK.Live ∧ sK.Takes 1 2 (hd 0) ∧ sK.Takes 0 2 (hd 0) ∧ sK.CplOpen 1 ∧ sK.CplOpen 0 ∧
    ¬sK.Takes 1 2 { seq := 1, flags := 0 } ∧ sK.LogRoom := by decide +kernel

theorem witness_RingDataCommands :
    sK.Passed (ran (.ringNop 1 2 (hd 0)) sK) 1 2 ∧ sK.Posts (ran (.ringNop 1 2 (hd 1)) sK) 1 2 0 {} ∧
    sK.Posts (ran (.ringNop 1 2 (hd 4)) sK) 1 2 0 { status := 0x000A, detail := 5 } ∧
    Leaves (.ringNop 1 2 { seq := 1, flags := 0 }) sK sK ∧
    sK.object 1 (H 0) 6 true = (sK, .inl fence0) ∧ sK.object 1 (H 0) 1 false = (sK, .inl fence0) ∧
    sK.ringXlate 1 fence0 8 8 NEED_W true = (sK, .inl [segF]) ∧ sK.ringXlate 1 fence0 8 8 NEED_R false = (sK, .inl [segF]) ∧
    sK.fenceWord segF = 40 ∧ (sK.ring 1 2).poison = 0 ∧
    (ran (.fenceSignal 1 2 (hd 0) (H 0) 8 41) sK).host.read 0x500008 8 = toLe 8 41 ∧
    sK.Posts (ran (.fenceSignal 1 2 (hd 0) (H 0) 8 40) sK) 1 2 0 { status := 0x0103, result := 40 } ∧
    (ran (.fenceWait 1 2 (hd 0) (H 0) 8 40 0) sK).waits = [] ∧
    (ran (.fenceWait 1 2 (hd 0) (H 0) 8 41 9) sK).waits = [{ waitOfCmd 1 2 (hd 0) (.fence segF 41 (sK.ww.time + 9000)) with uses := [(1, segF.va, segF.len)] }] := by
  decide +kernel

theorem witness_CopyAndFill :
    sK.object 1 (H 1) 1 false = (sK, .inl { handle := H 1, ctx := 1, va := 0x40001000, len := 4096 }) ∧
    sK.object 1 (H 2) 2 false = (sK, .inl { handle := H 2, ctx := 1, va := 0x40002000, len := 4096 }) ∧
    sK.ringXlate 1 { handle := H 1, ctx := 1, va := 0x40001000, len := 4096 } 0 64 NEED_R false = (sK, .inl [segS]) ∧
    sK.ringXlate 1 { handle := H 2, ctx := 1, va := 0x40002000, len := 4096 } 0 64 NEED_W true = (sK, .inl [segD]) ∧
    sK.Backed segS.pa ∧ sK.Backed segD.pa ∧ sK.CleanLine segS.pa ∧ sK.busyOf (segTouches [segS] false ++ segTouches [segD] true) = [] ∧
    sK.busyOf (segTouches [segD] true) = [] ∧
    (let u := ran (.copy 1 2 (hd 0) (H 1) (H 2) 0 0 64) sK
     u.hdm.read segD.pa 64 = dat 64 1 ∧ sK.Passed u 1 2) ∧
    (let u := ran (.fill 1 2 (hd 0) (H 2) 0 64 0x0807060504030201) sK
     u.hdm.read segD.pa 8 = [1, 2, 3, 4, 5, 6, 7, 8]) := by decide +kernel

/-- The same device, where lockkeeper 5 has pinned the destination's line. -/
def sPinned : State := { sK with basin := { sK.basin with pins := [(segD.pa, 5)] } }

theorem witness_CopyAndFillWait :
    sPinned.Takes 1 2 (hd 0) ∧
    sPinned.object 1 (H 1) 1 false = (sPinned, .inl { handle := H 1, ctx := 1, va := 0x40001000, len := 4096 }) ∧
    sPinned.object 1 (H 2) 2 false = (sPinned, .inl { handle := H 2, ctx := 1, va := 0x40002000, len := 4096 }) ∧
    sPinned.ringXlate 1 { handle := H 1, ctx := 1, va := 0x40001000, len := 4096 } 0 64 NEED_R false = (sPinned, .inl [segS]) ∧
    sPinned.ringXlate 1 { handle := H 2, ctx := 1, va := 0x40002000, len := 4096 } 0 64 NEED_W true = (sPinned, .inl [segD]) ∧
    sPinned.busyOf (segTouches [segS] false ++ segTouches [segD] true) ≠ [] ∧ sPinned.busyOf (segTouches [segD] true) ≠ [] ∧
    (ran (.copy 1 2 (hd 0) (H 1) (H 2) 0 0 64) sPinned).waits = [waitOfCmd 1 2 (hd 0) (.copy 1 1 [segS] [segD] false)] ∧
    (ran (.fill 1 2 (hd 0) (H 2) 0 64 7) sPinned).waits = [waitOfCmd 1 2 (hd 0) (.fill 1 [segD] 7 0 64)] ∧
    (let u := ran (.pinExpiry 5) (ran (.copy 1 2 (hd 0) (H 1) (H 2) 0 0 64) sPinned)
     u.hdm.read segD.pa 64 = dat 64 1 ∧ u.waits = []) := by decide +kernel

/-- A fence wait of ring 2, for `v`. -/
def waitF (v dl : Nat) : Wait := { ctx := 1, ring := 2, seq := 0, flags := 0, kind := .fence segF v dl }
def sW (v dl : Nat) : State := { sK with waits := [waitF v dl], contexts := sK.contexts.drop 1 }

theorem witness_FenceWaitEnds : (sW 40 0).waitOf 1 2 = some (waitF 40 0) ∧
    ((sW 40 0).finish (waitF 40 0) {}).resettle = (sW 40 0).finish (waitF 40 0) {} ∧
    (ran (.fenceWaitSatisfied 1 2) (sW 40 0)).waits = [] ∧ (sW 41 0).resettle = sW 41 0 ∧
    Leaves (.fenceWaitSatisfied 1 2) (sW 41 0) (sW 41 0) ∧ Leaves (.fenceWaitTimeout 1 2) (sW 41 0) (sW 41 0) ∧
    (let f : Fin := { status := 0x000B, result := 40 }
     ((sW 41 9).finish (waitF 41 9) f).resettle = (sW 41 9).finish (waitF 41 9) f ∧
     (sW 41 9).Posts (ran (.fenceWaitTimeout 1 2) (sW 41 9)) 1 2 0 f) := by decide +kernel

/-- The same device with a pool of 16 pages for tables. -/
def sX : State := (sK.setReg XLT_POOL_LO 0x10000000).setReg XLT_POOL_SIZE 16
/-- Context 1's tables reach down to the page of 0x40003000. -/
def sXt : State :=
  { sX with hdm := [(0x10000008, 0x10002201), (0x10002000, 0x10003201), (0x10003000, 0x10004201), (0x10004008, 0x10005201),
      (0x10005000, 0x10006201)].foldl (fun m e => m.store e.1 (toLe 8 e.2) false) sX.hdm }
def pte : Nat := 2 ^ 19 + 0x2000 + 0x3F

theorem witness_DriverRing_enables : sX.xltOn = true ∧ sX.poolOk = true ∧ sK.poolOk = false ∧
    (let s := (((sX.setBit XLT_CTL 0 false).setFld XLT_FR_LO 8 4 4).setFld XLT_HR_LO 8 4 4)
     s.xltOn = false ∧ s.xrSizeOk frRing = true ∧ s.poolOk = true ∧ s.xrSizeOk hrRing = true) ∧
    (let s := sK.setBit XLT_CTL 0 false
     (ran .xltEnable s).bit XLT_ERR 5 = true) ∧
    (ran .xltDisable sX).xlt.tlb = [] ∧ (ran .xltInjTlbParity sX).bit XLT_INJ 0 = true := by decide +kernel

theorem witness_DriverRing_denied : sX.Takes 1 2 (hd 0) ∧ badRange 0 1 0x40003000 = false ∧ sX.entryOk 0 1 pte = true ∧
    sX.Posts (ran (.mapRange 1 2 (hd 0) 1 0 1 0x40003000 pte) sX) 1 2 0 { status := 0x0003 } ∧
    sX.Posts (ran (.unmapRange 1 2 (hd 0) 1 0 1 0x40003000) sX) 1 2 0 { status := 0x0003 } ∧
    sX.Posts (ran (.setBias 1 2 (hd 0) 1 1 (2 ^ 19)) sX) 1 2 0 { status := 0x0003 } ∧ 2 ^ 19 + 4096 ≤ sX.hdmSize ∧
    sX.Posts (ran (.setPowerLease 1 2 (hd 0) 100 1) sX) 1 2 0 { status := 0x0003 } ∧
    sX.Posts (ran (.contextTeardown 1 2 (hd 0) 1) sX) 1 2 0 { status := 0x0003 } ∧
    sX.Posts (ran (.maint 1 2 (hd 0) 0 SP_DPA 0 64 64) sX) 1 2 0 { status := 0x0003 } := by decide +kernel

theorem witness_DriverRing_map : (sX.context 1).st = .ready ∧ sX.rangeClear 1 0 1 0x40003000 = true ∧
    sXt.Takes 0 2 (hd 0) ∧ sXt.rangeClear 1 0 1 0x40003000 = true ∧
    (match sXt.mapLeaves (sXt.ringUnit 0) 1 0 0x40003000 pte 1 0x40003000 with
     | .inl t => decide (t.hostHolds (entPa pte) (1 * pageSize 0) = false)
     | .inr _ => false) = true ∧
    (ran (.mapRange 0 2 (hd 0) 1 0 1 0x40003000 pte) sXt).hdm.read 0x10006018 8 = toLe 8 pte ∧
    (sX.unmapLeaves (sX.ringUnit 0) 1 0 1 0x40003000).isLeft = true ∧
    (ran (.unmapRange 0 2 (hd 0) 1 0 1 0x40001000) sX).xlt.tlb.length = 2 ∧
    (ran (.unmapRange 0 2 (hd 0) 1 0 1 0x40003000) (sX.setBit XLT_CTL 0 false)).hdm = sX.hdm ∧
    (ran (.invalidateXlt 0 2 (hd 0) 1 0 0 1 0x40001000) sX).xlt.tlb.length = 2 ∧
    (ran (.invalidateXlt 0 2 (hd 0) 1 1 0 1 0x40001000) sX).xlt.tlb = [] := by decide +kernel

theorem witness_DriverRing_rest : sX.Takes 0 2 (hd 0) ∧ sX.hostHolds (2 ^ 19) 8192 = false ∧
    (ran (.setBias 0 2 (hd 0) 1 2 (2 ^ 19)) sX).basin.shr = [128, 129] ∧
    (ran (.setBias 0 2 (hd 0) 0 1 (2 ^ 19)) { sX with basin := { sX.basin with shr := [128, 130] } }).basin.shr = [130] ∧
    (ran (.maint 0 2 (hd 0) 4 SP_DPA 0 64 64) sX).basin.queue.length = 1 ∧
    (ran (.setPowerLease 0 2 (hd 0) 2400 1) sX).bit IRQ_PEND 5 = true ∧ (ran (.setPowerLease 0 2 (hd 0) 0 1) sX).power.drv = none ∧
    (let s := sX.setReg RNG_OBJ_COUNT 0
     s.objCount = 0 ∧ s.flights = [] ∧ s.waits = [] ∧ (s.context 1).st = .ready ∧
     (ran (.contextTeardown 0 2 (hd 0) 1) s).context 1 = {}) ∧
    (let s : State := { sX with flights := [(0, { flightB with ctx := 1 })] }
     ((ran (.contextTeardown 0 2 (hd 0) 1) s).context 1).st = .teardown) := by decide +kernel

/-- The maintenance queue is full. -/
def sFull : State :=
  { sX with basin := { sX.basin with queue := List.replicate 8 { op := 0, space_ := SP_DPA, ctx := 0, addr := 0, len := 64, ring := none } } }

theorem witness_DriverRing_full : sFull.Takes 0 2 (hd 0) ∧ (ran (.maint 0 2 (hd 0) 4 SP_DPA 0 64 64) sFull).waits.length = 1 ∧
    (ran (.maint 0 2 (hd 0) 4 SP_DPA 0 64 64) sFull).basin.queue.length = 8 := by decide +kernel

/-! ### Flights -/

/-- A device with one flight of context 1 in slot 0. -/
def sF (f : Flight) : State := { sK with flights := [(0, { f with ctx := 1 })] }

theorem witness_FlightOrders :
    (let s := sF { st := .running, tag := 5 }
     s.Takes 1 2 (hd 0) ∧ (s.flight 0).ctx = 1 ∧ (s.flight 0).binding = none ∧
     (gateTag (ran (.moorFlight 1 2 (hd 0) 0) s).gate.own 5).moor = true ∧
     (gateTag (ran (.haltFlight 1 2 (hd 0) 0 1) s).gate.own 5).halt = true ∧
     (ran (.haltFlight 1 2 (hd 0) 0 1) s).waits = [waitOfCmd 1 2 (hd 0) (.halt 0 true)]) ∧
    (let s := sF { st := .moored, tag := 5 }
     (gateTag (ran (.resumeFlight 1 2 (hd 0) 0) s).gate.own 5).resume = true ∧
     s.Posts (ran (.moorFlight 1 2 (hd 0) 0) s) 1 2 0 { status := 0x0001 }) ∧
    (let s := sF { st := .loaded }
     (s.flight 0).used = true ∧ (ran (.haltFlight 1 2 (hd 0) 0 1) s).flight 0 = {}) ∧
    (let s := sF { st := .bound }
     ((ran (.runFlight 1 2 (hd 0) 0 2) s).flight 0).st = .armed ∧
     s.Posts (ran (.runFlight 1 2 (hd 0) 0 1) s) 1 2 0 { status := 0x0201 }) ∧
    (let s : State := { sF { st := .armed, defers := 64, tag := 5 } with contexts := [] }
     (s.doDeferLimit 0).resettle = s.doDeferLimit 0 ∧ ((ran (.startDeferLimit 0) s).flight 0).st = .bound) ∧
    (let s := sF { st := .held, barrierHeld := 64, tag := 5 }
     ((ran (.barrierTimeout 0) s).flight 0).fatal.isSome = true) ∧
    (let s : State := { sF { st := .held, barrierHeld := 63 } with contexts := [] }
     s.resettle = s ∧ Leaves (.barrierTimeout 0) s s ∧ Leaves (.startDeferLimit 0) s s) := by decide +kernel

/-- An image with no tiles that serves device slot 0 on an unjoined device; one that names it as a spare. -/
def imgF (spare : Bool) (len : Nat) : Ram :=
  img ([(6, 2, 1), (8, 8, 1024), (0x20, 2, len), (0x22, 2, 100)] ++ dirAt 0 SEC_DEVICE_SET 1 0x200 32 ++
    [(0x200, 2, if spare then 5 else 0xFFFF), (0x202, 2, 0xFFFF), (0x20A, 2, 1), (0x20C, 2, 0xFFFF)])
def lenNow : Nat := sK.fld TCK_PLEN 9 0

theorem witness_BindFlight : sK.reachMask = 0xFFFF ∧
    sK.object 1 (H 0) 6 false = (sK, .inl fence0) ∧
    (let m := imgF false lenNow
     let s := sF { st := .loaded, image := m }
     s.bindTime m = none ∧ s.placement m = .inr (some 0) ∧ s.tagTaken 0 7 = false ∧ s.bindSlot 0 m 0 = none ∧
     ((ran (.bindFlight 1 2 (hd 0) 0 7 (H 0) 8 3) s).flight 0).binding = some false ∧
     (ran (.bindFlight 1 2 (hd 0) 0 7 (H 0) 8 3) s).waits = [waitOfCmd 1 2 (hd 0) (.bind 0)]) ∧
    (let m := imgF true lenNow
     let s := sF { st := .loaded, image := m }
     s.bindTime m = none ∧ s.placement m = .inr none ∧
     ((ran (.bindFlight 1 2 (hd 0) 0 7 (H 0) 8 3) s).flight 0).standby = true) ∧
    (let m := imgF false (lenNow + 1)
     let s := sF { st := .loaded, image := m }
     s.bindTime m = some { reason := 0x0A, bind := true } ∧
     s.Posts (ran (.bindFlight 1 2 (hd 0) 0 7 (H 0) 8 3) s) 1 2 0
       { status := 0x0005, detail := ({ reason := 0x0A, bind := true } : Refuse).detail }) := by decide +kernel

/-- An image of 1,024 bytes in the object's page that names its size and nothing else. -/
def sLoad : State := { sK with host := sK.host.store 0x500108 [0, 1] false }
def segI : XSeg := { va := 0x40000100, pa := 0x500100, len := 256, host := true, attr := 3, peer := false, ce := false }

theorem witness_LoadFlight : sLoad.Takes 1 2 (hd 0) ∧ sLoad.CplOpen 1 ∧
    sLoad.object 1 (H 0) 1 false = (sLoad, .inl fence0) ∧
    sLoad.ringXlate 1 fence0 0x100 256 NEED_R false = (sLoad, .inl [segI]) ∧
    (sLoad.readSegs 1 [segI]).1 = sLoad ∧ hdrSize (ramOf (sLoad.readSegs 1 [segI]).2) = 256 ∧
    (ran (.loadFlight 1 2 (hd 0) (H 0) 0x100 256) sLoad).flights = [] := by decide +kernel

theorem witness_BindImagesWritten :
    let s : State := { sB with flights := [(0, { flightB with st := .loaded, binding := some false })] }
    (s.flight 0).binding = some false ∧ ((s.tilesOf 0).map Prod.fst).Nodup ∧ s.tilesOf 0 = [(0, 3)] ∧
      (s.tile 0).inject = none ∧ (let u := ran (.bindImagesWritten 0) s
       (u.flight 0).binding = some true ∧ sget 0 (u.tile 0).imem 0 = 77) := by decide +kernel

/-! ### Snapshots -/

/-- A snapshot of pound 40 of a flight with no tiles. -/
def snap40 : Ram := snapSeal (img [(0, 4, SNAP_MAGIC), (4, 2, 1), (8, 8, 40), (0x18, 8, 0x1000)]) 0x1000
def area40 : SnapArea := { pound := 40, replica := false, complete := true, size := 0x1000, bytes := snap40 }

theorem witness_SnapshotCommands :
    (let s := sF { st := .running, tag := 5 }
     (gateTag (ran (.snapshot 1 2 (hd 0) 0 0 0) s).gate.own 5).snap = true) ∧
    (let s := sF { st := .moored, areas := [area40] }
     s.Takes 1 2 (hd 0) ∧ areaOf (s.flight 0) 40 = some area40 ∧ snapRefuse {} 0 snap40 = none ∧
     ((ran (.restore 1 2 (hd 0) 0 0 0 0 40) s).flight 0).restoring = some (40, false) ∧
     (let s := sF { st := .moored, areas := [area40], overrun := true }
      areaOf (s.flight 0) 40 = some area40 ∧ ((ran (.restore 1 2 (hd 0) 0 0 0 0 40) s).flight 0).restoring = none ∧
      ((ran (.restore 1 2 (hd 0) 0 0 0 0 40) s).flight 0).restoreDue.isSome = true) ∧
     areaOf (s.flight 0) 41 = none ∧
     s.Posts (ran (.restore 1 2 (hd 0) 0 0 0 0 41) s) 1 2 0 { status := 0x000A, detail := 0x18, result := 2 ^ 64 - 1 }) ∧
    (let s := sF { st := .running, snapping := some (40, false, false) }
     (s.flight 0).streams = [] ∧ (s.flight 0).replicaDue 40 = [] ∧
     ((ran (.snapshotCopyDone 0) s).flight 0).snapping = some (40, false, true)) ∧
    (let a := { area40 with size := 64 }
     let s : State := { sF { st := .running, snapping := some (40, false, false), areas := [a]
                             image := img ([(6, 2, 1)] ++ dirAt 0 SEC_DEVICE_SET 1 0x200 32 ++ [(0x214, 2, 3)]) } with
       ww := { sK.ww with joined := true } }
     (s.flight 0).replicaDue 40 = [(3, a)] ∧ s.freeTicket = some 0 ∧ s.ww.joined = true ∧
     (let u := ran (.snapshotCopyDone 0) s
      sfind? u.tickets 0 = some (272, 0) ∧ u.transit.map (fun q => (q.port, q.flit.dst)) = [(OWN, 3)])) ∧
    (let s : State := { sF { st := .held, restoring := some (40, false) } with contexts := [] }
     (s.doRestoreDone 0).resettle = s.doRestoreDone 0 ∧ ((ran (.restoreCopyDone 0) s).flight 0).st = .moored) ∧
    (let s : State := { sF { st := .running, restoring := some (40, true), tag := 5 } with contexts := [] }
     (s.doRestoreDone 0).resettle = s.doRestoreDone 0 ∧
     (ran (.restoreCopyDone 0) s).musters.map MusterItem.barrier = [257]) := by decide +kernel

def areaX : SnapArea := { area40 with size := 64 }

/-- A snapshot export of 64 bytes to the host page waits. -/
def sExp : State :=
  { sF { st := .running, areas := [{ area40 with size := 64 }] } with
    contexts := sK.contexts.drop 1
    waits := [{ ctx := 1, ring := 2, seq := 0, flags := 0, kind := .snap 0 (some (H 0, 1, 0x40000000)) 2 (some areaX) }] }
def segX : XSeg := { va := 0x40000000, pa := 0x500000, len := 64, host := true, attr := 3, peer := false, ce := false }

theorem witness_SnapshotExport : areaX.bytes.wf = true ∧
    sExp.ringXlate 1 { handle := H 0, ctx := 1, va := 0x40000000, len := 64 } 0 64 NEED_W true = (sExp, .inl [segX]) ∧
    sExp.port.ioOpen = true ∧ (sExp.doExportDone 0).resettle = sExp.doExportDone 0 ∧
    (ran (.snapshotExportDone 0) sExp).host.read 0x500000 8 = snap40.read 0 8 ∧ (ran (.snapshotExportDone 0) sExp).waits = [] := by
  decide +kernel

def words40 : PBytes := (snap40.read 0 0x30).map fun b => (b, false)

/-- A replica stream from device 3 has ended. -/
def sReplica (f : Flight) : State :=
  { sF f with remote := [(3 * 256 + 9, { tile := 0, head := 0, denied := false, words := words40, ended := true })] }

theorem witness_Replica :
    (let s := sReplica { st := .loaded, size := 1 }
     let q := ramOf words40
     s.replicaFlight q = some 0 ∧ snapRefuse {} (q.num 6 2) q = none ∧ (s.flight 0).fetching = false ∧ (ran (.replicaStreamEnd 3 0) s).remote = [] ∧
     ((ran (.replicaStreamEnd 3 0) s).flight 0).areas.map SnapArea.pound = [40]) ∧
    (let s := sReplica { st := .running }
     s.replicaFlight (ramOf words40) ≠ some 0 ∧
     (ran (.replicaStreamEnd 3 0) s).flights = s.flights ∧ (ran (.replicaStreamEnd 3 0) s).remote = []) := by decide +kernel

/-! ### The service of rings -/

/-- A NOP descriptor with SEQ 0, in ring 2's first slot. -/
def nopDesc : List Byte := putAt (List.replicate 64 0) 6 (toLe 2 (descCrc (List.replicate 64 0)))
/-- Context 1 alone, its ring 2 with a doorbell word. -/
def sN (x : Ring) (db : Nat) : State :=
  { sK with contexts := [(1, { st := .ready, rings := [(2, x), (8, ring8)] })]
            host := (sK.host.store 0x310000 (toLe 8 db) false).store 0x100000 nopDesc false }
/-- The same with descriptor retries pending in a watched ring. -/
def ringT : Ring := { ring0 with mode := .watched, tries := 3 }

theorem witness_Doorbells : (sN ring0 0).ctxServed 1 = true ∧ anyPoison ((sN ring0 0).latest true 0x310000 8) = false ∧
    leNat (bytesOf ((sN ring0 1).latest true 0x310000 8)) % 2 ^ 32 = 1 ∧
    Leaves (.doorbellWake 1 2) (sN ring0 0) ((sN ring0 0).setRing 1 2 { ring0 with prod := 0 }) ∧
    (let t := (sN ring0 1).setRing 1 2 { ring0 with prod := 1 }
     t.ringReady 1 2 = true ∧ t.readSlot 1 2 = (t, some nopDesc) ∧ descWhole ring0 nopDesc = true ∧
     Leaves (.doorbellPoll 1 2) (sN ring0 1) (t.execute 1 2 nopDesc)) ∧
    (sN ring0 17).CplOpen 1 ∧ ((ran (.doorbellWake 1 2) (sN ring0 17)).ring 1 2).mode = .stopped ∧
    (ran (.doorbellWake 1 2) (sN ring0 17)).bit RNG_ERR 1 = true ∧
    Leaves (.doorbellPoll 1 2) (sN ringT 1) (sN ringT 1) ∧ Leaves (.descriptorLineWritten 1 2) (sN ring0 1) (sN ring0 1) ∧
    ringT.ahead = 1 ∧
    (let t := (sN ringT 1).unwatchLine true (lineOf ringT.slotAddr)
     t.ringReady 1 2 = true ∧ t.readSlot 1 2 = (t, some nopDesc) ∧ descWhole ringT nopDesc = true ∧
     Leaves (.descriptorLineWritten 1 2) (sN ringT 1) (t.execute 1 2 nopDesc)) := by decide +kernel

/-- A record waits for room in the completion ring. -/
def sRec : State :=
  (sN { ring0 with prod := 0 } 0).setRing 1 8 { ring8 with waiting := [(sK.recordBytes 2 5 {}, false)] }
def sIdle : State := sN { ring0 with prod := 0 } 0

theorem witness_ConsumerWord : (sIdle.ring 1 8).waiting = [] ∧
    (let t := sIdle.setRing 1 8 { ring8 with prod := sIdle.cplConsumed 1 }
     t.serveIdle = t ∧ Leaves (.consumerWordPoll 1) sIdle t) ∧
    sRec.cplRoom 1 = true ∧
    (let t := (sRec.setRing 1 8 { sRec.ring 1 8 with prod := sRec.cplConsumed 1 }).flushRecords 1 1
     t.serveIdle = t ∧ ((ran (.consumerWordPoll 1) sRec).ring 1 8).waiting = [] ∧
     ((ran (.consumerWordPoll 1) sRec).ring 1 8).count = 1) := by decide +kernel

/-- Context 1 and one of its rings selected. -/
def sSel (r : Nat) (st : CState) : State :=
  ({ sIdle with contexts := [(1, { st := st, rings := (sIdle.context 1).rings })] } : State).setReg RNG_SEL
    (BitVec.ofNat 32 (1 + 2 ^ 16 * r))

theorem witness_Contexts : (sSel 0 .empty).selCtx = 1 ∧ (sSel 0 .empty).ctxGo 1 = false ∧
    ((sSel 0 .empty).ring 1 8).enable = true ∧ ((ran (.contextEnable 1) (sSel 0 .empty)).context 1).st = .ready ∧
    (ran (.contextEnable 1) (sSel 0 .ready)).bit RNG_ERR 3 = true ∧
    (let s : State := { sSel 0 .ready with flights := [(0, { st := .running, ctx := 1, tag := 5 })] }
     s.ctxGo 1 = false ∧ ((ran (.contextSuspend 2) s).context 1).st = .suspended ∧
     (gateTag (ran (.contextSuspend 2) s).gate.own 5).moor = true) ∧
    (ran (.contextSuspend 2) (sSel 0 .empty)).bit RNG_ERR 3 = true ∧
    (let t := ((sSel 0 .suspended).setFld RNG_CTX_CTL 26 24 3).setContext 1 { (sSel 0 .suspended).context 1 with st := .ready }
     t.serveIdle = t ∧ Leaves (.contextResume 3) (sSel 0 .suspended) t) ∧
    (ran (.contextResume 3) (sSel 0 .ready)).bit RNG_ERR 3 = true := by decide +kernel

theorem witness_RingEnable : (sSel 3 .ready).selRing = 3 ∧ ((sSel 3 .ready).ring 1 3).enable = false ∧
    ((sSel 3 .ready).ring 1 3).log2n = 4 ∧ (sSel 3 .ready).port.cacheEn = false ∧
    ((ran .ringEnable (sSel 3 .ready)).ring 1 3).mode = .polled ∧ (ran .ringEnable (sSel 3 .ready)).bit RNG_ERR 4 = true ∧
    (let s := (sSel 8 .ready).setRing 1 8 { ring8 with enable := false, log2n := 16 }
     ((ran .ringEnable s).ring 1 8).mode = .active) ∧
    Leaves .ringEnable (sSel 2 .ready) (sSel 2 .ready) ∧ ((ran .ringDisable (sSel 2 .ready)).ring 1 2).mode = .off ∧
    (let s := sSel 9 .ready
     s.selRing = 9 ∧ Leaves (.contextEnable 1) s s ∧ Leaves .ringEnable s s ∧ Leaves .ringDisable s s) ∧
    (ran .rngInjCrc sIdle).bit RNG_INJ 0 = true := by decide +kernel

/-! ### Stacks -/

def la0 : Nat := lineOf A
/-- HDM with one line written; every cache is empty. -/
def sQ : State := { base with hdm := ({} : Ram).store la0 (dat 64 3) false }
/-- The line of `la0` in the basin meets `p`. -/
abbrev LineHas (u : State) (p : Line → Bool) : Prop := (u.basinLine false la0).any p = true
/-- The bytes that a write may change, and those around them. -/
abbrev Put (s u : State) (a : Nat) (bs : List Byte) : Prop :=
  u.hdm.read a bs.length = bs ∧ u.hdm.read (a - 64) 64 = s.hdm.read (a - 64) 64 ∧
    u.hdm.read (a + bs.length) 64 = s.hdm.read (a + bs.length) 64

theorem witness_uncached_line : sQ.Live ∧ sQ.Uncached la0 ∧ sQ.RoomFor la0 ∧ sQ.Backed la0 ∧ sQ.Backed A ∧
    sQ.CleanLine la0 ∧ sQ.LogRoom ∧ sQ.bit FLT_CTL 1 = false ∧ A % 8 = 0 ∧ lineOf A = lineOf (A + 8 - 1) := by decide +kernel

/-- The port and pseudo-channel of `A`'s frame. -/
def pA : Nat := ((sQ.frame A).map Frame.port).getD 0
def pcA : Nat := ((sQ.frame A).map Frame.pc).getD 0
def sMark (m : Nat) : State := { sQ with hdm := sQ.hdm.setMark A m }
def sPc (st : PcState) : State := sQ.modStack pA fun k => { k with pcs := sset .ok pcA st k.pcs }

theorem witness_StackCommands : (sQ.frame A).isSome = true ∧
    ((ran (.stackTempSample 3 300) sQ).stack 3).temp = 255 ∧
    Leaves (.stackRead (A + 3) 5) sQ (sQ.emit (.stackData (sQ.hdm.read (A + 3) 5) false)) ∧
    (∀ m ∈ [1, 2], let u := ran (.stackRead A 8) (sMark m)
      (sMark m).hdm.mark A = m ∧ Out.stackData (sQ.hdm.read A 8) (m == 2) ∈ u.out ∧ u.Logged (0x3F + m) 4 (pA * 32 + pcA / 2) ∧
      u.bit (stkReg pA 0x34) (m - 1) = true) ∧
    Put sQ (ran (.stackWrite A (dat 8 99) true) sQ) A (dat 8 99) ∧ (ran (.stackWrite A (dat 8 99) true) sQ).hdm.mark A = 3 ∧
    Put sQ (ran (.stackWrite A [9] false) sQ) A [9] ∧
    (ran (.stackWrite A [9] false) (sMark 2)).hdm.mark A = 3 ∧ (ran (.stackWrite A [9] false) (sMark 2)).Logged 0x42 4 (pA * 32 + pcA / 2) ∧
    (∀ st ∈ [PcState.evacuate, PcState.retired], let u := ran (.stackWrite A [9] false) (sPc st)
      (sPc st).frameUse A ≠ .normal ∧ u.hdm = (sPc st).hdm ∧ u.Logged 0x43 4 (pA * 32 + pcA / 2)) ∧
    (sPc .evacuate).frameUse la0 = .evacuate ∧ (sPc .evacuate).CleanLine la0 ∧
    Leaves (.stackRead (A + 3) 5) (sPc .evacuate) ((sPc .evacuate).emit (.stackData (sQ.hdm.read (A + 3) 5) false)) ∧
    (let s := sQ.modStack pA fun k => { k with drained := [pcA / 2] }
     s.frameUse A = .drained ∧ s.frameUse la0 = .drained ∧
     (let u := ran (.stackRead A 5) s
      Out.stackData (List.replicate 5 0) true ∈ u.out ∧ u.Logged 0x44 4 (pA * 32 + pcA / 2) ∧
      u.bit (stkReg pA 0x34) 4 = true) ∧
     (let u := ran (.stackWrite A [9] false) s
      u.hdm = s.hdm ∧ u.Logged 0x44 4 (pA * 32 + pcA / 2) ∧ u.bit (stkReg pA 0x34) 4 = true)) ∧
    (sPc .retired).frameUse la0 = .retired ∧
    Leaves (.stackRead A 5) (sPc .retired) ((sPc .retired).emit (.stackData (List.replicate 5 0) true)) := by decide +kernel

theorem witness_CorrectedWriteback : Leaves (.correctedWriteback A) sQ sQ ∧ sQ.waitingWriteback A = none ∧
    (let s := ran (.stackRead A 8) (sMark 2)
     s.waitingWriteback A = some 3 ∧ s.frameUse A = .normal ∧ (ran (.correctedWriteback A) s).hdm.mark A = 3) := by decide +kernel

/-- A port in service, with channel 7 in service or drained. -/
def sAct : State := sQ.modStack pA fun k => { k with st := .active, scrub := 5 }
def sOff : State := sQ.modStack pA fun k => { k with st := .selfRefresh }
def sDrn : State := sAct.modStack pA fun k => { k with drained := [7] }
def vCh : Reg := 0x80000307
abbrev ChEnds (c : Instr) (s : State) (code : Nat) : Prop := let u := ran c s
  (u.stack pA).lastCh = 7 ∧ (u.stack pA).lastCode = code ∧ (u.stack pA).drained = (s.stack pA).drained
abbrev ChWaits (c : Instr) (s : State) (op : Nat) : Prop := ((ran c s).stack pA).chReq = some (op, 7)

theorem witness_StackPorts : (sAct.stack pA).st = .active ∧ sAct.fld (stkReg pA 0x00) 15 8 ≠ 0 ∧
    sAct.frameUse (sAct.burstAddr pA 5) = .normal ∧ sAct.burstAddr pA 5 % 8 = 0 ∧ sAct.CleanLine (sAct.burstAddr pA 5) ∧
    ((ran (.scrubRead pA) sAct).stack pA).scrub = 6 ∧
    (let s := sAct.modStack pA fun k => { k with scrub := sAct.boot.capacity / 64 - 1 }
     s.frameUse (s.burstAddr pA (sAct.boot.capacity / 64 - 1)) = .normal ∧ ((ran (.scrubRead pA) s).stack pA).scrub = 0 ∧
     (ran (.scrubRead pA) s).bit (stkReg pA 0x34) 7 = true) ∧
    Leaves (.scrubRead pA) sOff sOff ∧ (sOff.stack pA).st ≠ .active ∧ sOff.bit (stkReg pA 0x08) 31 = false ∧ sAct.fuses.stackFused pA = true ∧ sAct.bit (stkReg pA 0x08) 31 = false ∧
    sAct.drainBusy pA = false ∧ ChWaits (.channelDrain pA vCh) sAct 0 ∧ ChEnds (.channelMargin pA vCh) sAct 2 ∧
    ChEnds (.channelReturn pA vCh) sAct 2 ∧ ChEnds (.channelDrain pA vCh) sDrn 2 ∧ ChWaits (.channelMargin pA vCh) sDrn 1 ∧
    ChWaits (.channelReturn pA vCh) sDrn 2 ∧ ChEnds (.channelDrain pA vCh) sOff 2 ∧
    ChEnds (.channelReturn pA vCh) (sDrn.modStack pA fun k => { k with failedMargin := [7] }) 3 ∧
    (let s := sDrn.modStack pA fun k => { k with chReq := some (1, 7) }
     ((ran (.channelMarginDone pA { early := 8, late := 8, down := 4, up := 4 }) s).stack pA).failedMargin = [] ∧
     ((ran (.channelMarginDone pA { early := 8, late := 7, down := 4, up := 4 }) s).stack pA).failedMargin = [7]) ∧
    (let s := sQ.modStack pA fun k => { k with pcs := [(1, .evacuate), (33, .evacuate), (34, .retired)] }
     ((ran (.pcEvacRelease pA true 2) s).stack pA).pcs = [(1, .evacuate), (33, .retired), (34, .retired)]) ∧
    (ran (.pcForce pA 0x2A) sQ).Logged 0x45 4 (pA * 32 + 0x2A / 2) ∧ (ran (.stkInjUe pA) sQ).bit (stkReg pA 0x38) 1 = true ∧
    (ran (.stkInjCe pA) sQ).bit (stkReg pA 0x38) 0 = true ∧
    (let s : State := { sAct with flights := [(0, { st := .running })] }
     s.boundSlots = [0] ∧ ((ran (.accountingWindow pA) s).stack pA).chReq = none) := by decide +kernel

/-- The bound flights' reservations leave no room for a drain: one flight reserves the port whole. -/
def sBusy : State :=
  { sAct with flights := [(0, { st := .running, image := img ([(6, 2, 1)] ++ dirAt 0 SEC_STACK_RES 1 0x200 16 ++
      [(0x202, 1, pA), (0x204, 2, 0xFFFF)]) })] }

theorem witness_DrainBusy : sBusy.drainBusy pA = true ∧ (sBusy.stack pA).st = .active ∧ ChEnds (.channelDrain pA vCh) sBusy 1 := by
  decide +kernel

/-! ### The basin -/

/-- Agent `ag` owns the line and has changed it. -/
noncomputable def cM (ag : Nat) : Copy :=
  match (ran (.ownershipRead ag false A) sQ).copyOf ag false la0 with
  | some c => { c with data := dat 64 77 }
  | none => { agent := ag, host := false, addr := la0, st := .m }
noncomputable def sOwned (ag : Nat) : State := { (ran (.ownershipRead ag false A) sQ).putCopy (cM ag) with out := [] }

theorem witness_HomeRequests : (∀ ag ∈ [0, 20, 41], ag ≠ 44 ∧
      (let u := ran (.sharedRead ag false A 0) sQ
       LineHas u (fun l => l.data == sQ.hdm.read la0 64 && !l.dirty && l.presence == [ag]) ∧ u.hdm = sQ.hdm ∧
       (u.copyOf ag false la0).map Copy.st = some (if ag < 16 ∨ 40 ≤ ag then LineSt.e else LineSt.s)) ∧
      (let u := ran (.ownershipRead ag false A) sQ
       LineHas u (fun l => l.owner == some ag && l.presence == [ag]) ∧ (u.copyOf ag false la0).map Copy.st = some .m)) := by
  decide +kernel

theorem witness_OwnedLine : (∀ ag ∈ [0, 20, 41], let s := sOwned ag
    s.copyOf ag false la0 = some (cM ag) ∧ (cM ag).st = .m ∧ (cM ag).victim = false ∧ (cM ag).poison = 0 ∧
    (cM ag).data.length = 64 ∧ s.mCopy false la0 = some (cM ag) ∧ (s.basinLine false la0).isSome = true ∧
    s.homeBusy none (la0, some false) = false ∧
    (let v := ran (.mLineWriteBack ag false A) s
     LineHas v (fun l => l.data == dat 64 77 && l.dirty && l.owner == none) ∧ v.copyOf ag false la0 = none) ∧
    (let v := ran (.forwardedRequest ag false A true) s
     v.out = [Out.homeData (dat 64 77) false] ∧ v.copyOf ag false la0 = none) ∧
    (let v := ran (.forwardedRequest ag false A false) s
     v.copyOf ag false la0 = some { cM ag with st := .s, data := [], poison := 0 }) ∧
    Leaves (.victimWritebackAccept ag false A) s s ∧
    (ran (.nonCachingRead false (A + 1) 5) s).out = (if 40 ≤ ag then [Out.berthSnpCur (ag - 40) la0] else []) ++
      [Out.homeData (((dat 64 77).drop (A + 1 - la0)).take 5) false]) := by
  decide +kernel

/-- The line shared by agent 0; the line a victim of the basin; the line pinned. -/
noncomputable def sShared : State := { ran (.sharedRead 0 false A 0) sQ with out := [] }
def sVict : State :=
  { sQ with basin := { sQ.basin with lines := [{ host := false, addr := la0, data := dat 64 88, dirty := true, victim := true }] } }
def sPin : State := { sQ with basin := { sQ.basin with pins := [(la0, 3)] } }

theorem witness_HomeRequests_rest : sQ.copyOf 7 false la0 = none ∧ Leaves (.mLineWriteBack 7 false A) sQ sQ ∧
    sVict.copyOf 5 false la0 = none ∧ Put sVict (ran (.victimWritebackAccept 5 false A) sVict) la0 (dat 64 88) ∧
    (ran (.nonCachingRead false (A + 1) 5) sQ).out = [Out.homeData (sQ.hdm.read (A + 1) 5) false] ∧
    (∀ at_ ∈ [0, 1, 2, 3], Put sQ (ran (.nonCachingWrite false A at_ (dat 8 55) true) sQ) A (dat 8 55)) ∧
    sShared.mCopy false la0 = none ∧ sShared.homeBusy none (la0, some true) = false ∧
    LineHas sShared (fun l => l.data.length == 64 && l.marks == []) ∧ sShared.bit CMX_INJ 1 = false ∧
    (let u := ran (.nonCachingWrite false A 0 (dat 8 55) false) sShared
     u.basin.copies = [] ∧ u.hdm = sShared.hdm ∧ LineHas u fun l => l.data == putAt (sQ.hdm.read la0 64) (A - la0) (dat 8 55)) ∧
    (la0, 3) ∈ sPin.basin.pins ∧ (ran (.sharedRead 2 false A 1) sPin).basin.held = [HeldReq.sharedRead 2 false A 1] ∧
    (∀ fn ∈ [0, 1, 5, 6, 7], let u := ran (.atomic A 3 fn 8 12345 4 false) sQ
      Put sQ u A (toLe 8 (atomicNew fn 64 (leNat (sQ.hdm.read A 8)) 12345 4)) ∧
      u.out = [Out.atomicOld (leNat (sQ.hdm.read A 8)) false]) := by decide +kernel

/-- Mooring of one way, with bytes in it. -/
def sMoor : State := { sQ with basin := { sQ.basin with moored := ({} : Ram).store 64 (dat 64 2) false, moor := 1 } }

theorem witness_MooredAccess : 72 + 8 ≤ sMoor.mooredSize 1 ∧
    Leaves (.mooredAccess 72 true (dat 8 1) true) sMoor
      { sMoor with basin := { sMoor.basin with moored := sMoor.basin.moored.store 72 (dat 8 1) true } } ∧
    Leaves (.mooredAccess 72 false (dat 8 1) true) sMoor (sMoor.emit (.mooredData (sMoor.basin.moored.read 72 8) false)) ∧
    sMoor.mooredSize 1 < 2 ^ 40 ∧ Leaves (.mooredAccess (2 ^ 40) false (dat 8 1) true) sMoor sMoor ∧
    (ran (.atomic 72 0 0 8 5 0 true) sMoor).basin.moored.read 72 8 = toLe 8 (leNat (sMoor.basin.moored.read 72 8) + 5) := by
  decide +kernel

def way3 : Bool × Nat × Nat := (true, 3, 5)
def sRecov : State := { sQ with basin := { sQ.basin with recovering := [way3] } }
def sMoor4 : State := { sQ with basin := { sQ.basin with moor := 4 } }
/-- A running flight whose barge reads moored memory up to its fourth way. -/
def sMoorUsed : State :=
  let m := img ([(6, 2, 4), (0x14, 4, 1), (0x1A, 2, 1), (0x1E, 1, 1)] ++ dirAt 0 SEC_DEVICE_SET 1 0x200 32 ++
    dirAt 1 SEC_LEG_TABLE 1 0x240 4 ++ dirAt 2 SEC_LEG_RECORDS 1 0x280 16 ++ dirAt 3 SEC_BARGES 1 0x300 64 ++
    [(0x208, 2, 1), (0x282, 2, 1), (0x300, 4, 0x13), (0x308, 8, 2 ^ 25 - 64), (0x318, 4, 64), (0x31C, 2, 1), (0x31E, 2, 1),
     (0x320, 2, 1)])
  { sMoor4 with flights := [(0, { st := .running, image := m })] }
def vMoor (n : Nat) : Reg := BitVec.ofNat 32 (n * 2 ^ 16)

theorem witness_BasinMaintenance : Leaves (.wayTestDone true 3 5 1) sQ sQ ∧
    (ran (.wayTestDone true 3 5 2) sRecov).basin.recovering = [] ∧ sRecov.disabledOf true 3 < 4 ∧
    (ran (.wayTestDone true 3 5 1) sRecov).basin.disabled = [way3] ∧ (ran (.wayTestDone true 3 5 1) sRecov).Logged 0x57 3 3 ∧
    sMoor4.bit CMX_MOOR 31 = false ∧ (ran (.moorRequest (vMoor 4)) sMoor4).fld CMX_MOOR 9 8 = 0 ∧
    sMoor4.maxDisabled = 0 ∧ (ran (.moorRequest (vMoor 17)) sMoor4).fld CMX_MOOR 9 8 = 2 ∧
    sMoor4.mooredInUse (sMoor4.mooredSize 16) = false ∧ sMoor4.mooredInUse (sMoor4.mooredSize 2) = false ∧
    (ran (.moorRequest (vMoor 16)) sMoor4).basin.moorReq = some 16 ∧ (ran (.moorRequest (vMoor 2)) sMoor4).basin.moorCleaned = true ∧
    Leaves .moorCleanDone sMoor4 sMoor4 ∧
    (let s := ran (.moorRequest (vMoor 16)) sMoor4
     s.basin.moorReq = some 16 ∧ s.basin.lines = [] ∧ (ran .moorCleanDone s).basin.moorCleaned = true ∧
     s.bit CMX_MOOR 31 = true ∧ (ran (.moorRequest (vMoor 2)) s).basin = s.basin) ∧
    sMoorUsed.mooredInUse (sMoorUsed.mooredSize 2) = true ∧ (ran (.moorRequest (vMoor 2)) sMoorUsed).fld CMX_MOOR 9 8 = 1 := by
  decide +kernel

/-- Registers that name the line, and the queue with one entry for it. -/
def sCmx : State := (sQ.setReg CMX_ADDR_LO (BitVec.ofNat 32 la0)).setReg CMX_LEN_LO 64
def vCmx : Reg := 0x00050012
def entryCmx (op : Nat) : MaintEntry := { op := op, space_ := 0, ctx := 0, addr := la0, len := 64, ring := none }
def lineD : Line := { host := false, addr := la0, data := dat 64 88, dirty := true }
def sEntry (op : Nat) (ls : List Line) : State := { sQ with basin := { sQ.basin with queue := [entryCmx op], lines := ls } }

theorem witness_MaintenanceQueue : bitsOf vCmx.toNat 5 4 = 1 ∧
    (∀ e ∈ [(0, Instr.clean vCmx), (1, .invalidate vCmx), (2, .cleanInvalidate vCmx), (3, .warm vCmx), (4, .zero vCmx)],
      (ran e.2 sCmx).basin.queue = [{ op := e.1, space_ := 1, ctx := 5, addr := la0, len := 64, ring := none }] ∧
      (ran e.2 (sCmx.setReg CMX_LEN_LO 63)).bit CMX_ERR 1 = true) ∧
    (let s : State := { sCmx with basin := { sCmx.basin with queue := List.replicate 8 (entryCmx 0) } }
     (ran (.clean vCmx) s).bit CMX_ERR 0 = true) ∧
    sQ.resettle = sQ ∧ Leaves .maintEntryEnd sQ sQ ∧
    (let s : State := { sEntry 0 [] with basin := { (sEntry 0 []).basin with pins := [(la0, 3)] } }
     s.maintBusy (entryCmx 0) ≠ [] ∧ s.maintEnd.resettle = s.maintEnd ∧
     (ran .maintEntryEnd s).basin.queue = [entryCmx 0]) ∧
    (let s := sEntry 0 [lineD]
     s.maintBusy (entryCmx 0) = [] ∧ s.maintEnd.resettle = s.maintEnd ∧ Put s (ran .maintEntryEnd s) la0 (dat 64 88) ∧
     (ran .maintEntryEnd s).basin.lines = [{ lineD with dirty := false }]) ∧
    (let s := sEntry 1 [lineD]
     s.maintBusy (entryCmx 1) = [] ∧ s.maintEnd.resettle = s.maintEnd ∧ s.hdmRefusal MID_MAINT NEED_W la0 64 = none ∧ (ran .maintEntryEnd s).basin.lines = [] ∧
     (ran .maintEntryEnd s).hdm = s.hdm) ∧
    (let s := sEntry 4 []
     s.maintEnd.resettle = s.maintEnd ∧ s.hdmRefusal MID_MAINT NEED_W la0 64 = none ∧ s.maintBusy (entryCmx 4) = [] ∧ s.Uncached la0 ∧
     Put s (ran .maintEntryEnd s) la0 (List.replicate 64 0)) ∧
    (ran .cmxInjBsnUe sQ).bit CMX_INJ 2 = true ∧ (ran .cmxInjBsnCe sQ).bit CMX_INJ 1 = true ∧
    (ran .cmxInjRcParity sQ).bit CMX_INJ 0 = true := by decide +kernel

/-! ### Lockkeepers -/

def sbE : SbEntry := { word := A, host := false, attr := 0, mask := 255, data := 0x1122334455667788 }
def sSb : State := sQ.modLk 5 fun x => { x with sb := [sbE] }
/-- An access table that refuses every master the first HDM target. -/
def sDeny : State := sQ.setReg ACT_TGT 0
def sFail : State := sQ.modLk 5 fun x => { x with failedSc := some la0 }
noncomputable def sLr : State := { ran (.lr 5 false A 0 8 true false) sFail with out := [] }

theorem witness_LockkeeperAccesses : badAccess (A + 1) 2 = true ∧ badAccess A 8 = false ∧
    Leaves (.lkLoad 5 ⟨false, 0⟩ (A + 1) 2) sQ (sQ.emit (.lkFault 5 false)) ∧
    Leaves (.lkStore 5 ⟨false, 0⟩ (A + 1) 2 9) sQ (sQ.emit (.lkFault 5 true)) ∧
    sQ.hdmRefusal (MID_LK 5) NEED_R A 8 = none ∧ sQ.hdmRefusal (MID_LK 5) NEED_W A 8 = none ∧
    sQ.hdmRefusal (MID_LK 5) NEED_A A 8 = none ∧ sQ.Uncached la0 ∧ sQ.RoomFor la0 ∧ sQ.CleanLine la0 ∧ (sQ.lk 5).sb = [] ∧ (sQ.lk 5).device = [] ∧ (sQ.lk 5).regBad = false ∧
    (∀ n ∈ [1, 2, 4, 8], (ran (.lkLoad 5 ⟨false, 0⟩ A n) sQ).out = [Out.lkData 5 (leNat (sQ.hdm.read A n))]) ∧
    (ran (.lkLoad 5 ⟨false, 3⟩ A 8) sQ).basin = sQ.basin ∧
    Leaves (.lkLoad 5 ⟨false, 0⟩ (A + 4) 2) sSb (sSb.emit (.lkData 5 0x3344)) ∧
    sDeny.hdmRefusal (MID_LK 5) NEED_R A 8 ≠ none ∧ (ran (.lkLoad 5 ⟨false, 0⟩ A 8) sDeny).out = [Out.lkFault 5 false] ∧
    ((ran (.lkStore 5 ⟨false, 1⟩ (A + 4) 2 0xABCDEF) sQ).lk 5).sb =
      [{ word := A, host := false, attr := 1, mask := 0x30, data := 0xCDEF * 2 ^ 32 }] ∧
    (∀ fn ∈ [0, 1, 5, 7], let u := ran (.lkAmo 5 false A 3 fn 4 77 3 true false) sQ
      Put sQ u A (toLe 4 (atomicNew fn 32 (leNat (sQ.hdm.read A 4)) 77 3)) ∧ u.out = [Out.lkData 5 (leNat (sQ.hdm.read A 4))]) := by
  decide +kernel

theorem witness_Reservations : ((ran (.lr 5 false A 1 8 true false) sQ).lk 5).resv = some la0 ∧
    (ran (.lr 5 false A 1 8 true false) sQ).basin.pins = [] ∧ sLr.basin.pins = [(la0, 5)] ∧
    sQ.resvHolds 5 la0 = false ∧ sQ.basin.held = [] ∧ sLr.waits = [] ∧ sQ.homeBusy (some 5) (la0, some true) = false ∧
    (ran (.sc 5 false A 0 8 9 true false) sQ).out = [Out.scResult 5 true] ∧
    ((ran (.sc 5 false A 0 8 9 true false) sQ).lk 5).failedSc = some la0 ∧
    sLr.resvHolds 5 la0 = true ∧ LineHas sLr (fun l => !l.victim && l.data.length == 64 && l.marks == []) ∧
    sLr.mCopy false la0 = none ∧ sLr.homeBusy (some 5) (la0, some true) = false ∧ sLr.bit CMX_INJ 1 = false ∧
    (let u := ran (.sc 5 false A 0 8 9 true false) sLr
     Out.scResult 5 false ∈ u.out ∧ u.basin.pins = [] ∧
     LineHas u fun l => l.data == putAt (sQ.hdm.read la0 64) (A - la0) (toLe 8 9)) ∧
    Leaves (.reservationExpiry 5) sLr (sLr.setLk 5 { sLr.lk 5 with resv := none }) ∧
    Leaves (.pinExpiry 5) sLr { sLr with basin := { sLr.basin with pins := [] } } := by decide +kernel

noncomputable def sSbLine : State := (ran (.sharedRead 3 false A 0) sQ).modLk 5 fun x => { x with sb := [sbE] }
/-- The same entry under another leaf attribute (R365). -/
def withAttr (a : Nat) (s : State) : State := s.modLk 5 fun x => { x with sb := [{ sbE with attr := a }] }
def sIc : State := sQ.modLk 5 fun x => { x with icache := [la0] }
def sSbPin : State := { sSb with basin := { sSb.basin with pins := [(la0, 7)] } }

theorem witness_StoreBuffer : Leaves (.storeBufferDrain 5) sQ sQ ∧ Leaves (.lkFence 5) sQ sQ ∧ (sQ.lk 5).inject ≠ some 1 ∧
    Leaves (.fenceI 5) sIc (sIc.setLk 5 { sIc.lk 5 with icache := [] }) ∧
    (ran (.fenceI 5) (sIc.modLk 5 fun x => { x with inject := some 1 })).Logged 0x52 6 5 ∧
    sSbLine.basin.held.contains (.storeBufferDrain 5) = false ∧ sSbLine.mCopy false la0 = none ∧
    sSbLine.homeBusy (some 5) (la0, some true) = false ∧
    (let u := ran (.storeBufferDrain 5) sSbLine
     (u.lk 5).sb = [] ∧ LineHas u fun l => l.data == putAt (sQ.hdm.read la0 64) (A - la0) (toLe 8 0x1122334455667788) && l.dirty) ∧
    (let u := ran (.storeBufferDrain 5) sSb
     (u.lk 5).sb = [] ∧ LineHas u fun l => l.data == putAt (sQ.hdm.read la0 64) (A - la0) (toLe 8 0x1122334455667788) && l.dirty) ∧
    (let u := ran (.storeBufferDrain 5) (withAttr 1 sSbLine)
     (u.lk 5).sb = [] ∧ Put sQ u A (toLe 8 0x1122334455667788) ∧
     LineHas u fun l => l.data == putAt (sQ.hdm.read la0 64) (A - la0) (toLe 8 0x1122334455667788) && !l.dirty) ∧
    (∀ a ∈ [1, 2, 3], let u := ran (.storeBufferDrain 5) (withAttr a sQ)
     (u.lk 5).sb = [] ∧ Put sQ u A (toLe 8 0x1122334455667788) ∧ u.basinLine false la0 = none) ∧
    sSbPin.basin.held = [] ∧ sSbPin.homeBusy (some 5) (la0, some true) = true ∧
    (ran (.lkFence 5) sSbPin).basin.held = [.storeBufferDrain 5, .lkFence 5] ∧
    Leaves (.trapEntry 5 0) sSb (sSb.setLk 5 { sSb.lk 5 with sb := [], resv := none }) := by decide +kernel

theorem witness_DeviceAccess : sQ.ioBusy (.lockkeeper 5) = false ∧ (ran (.lkPowerDown 5) sQ).lk 5 = { sQ.lk 5 with sleeping := true } ∧
    (ran (.lkDeviceAccess 5 { space_ := 0, addr := A, size := 2, wr := false, value := 0 }) sQ).out = [Out.lkFault 5 false] ∧
    Put sQ (ran (.lkDeviceAccess 5 { space_ := 1, addr := A, size := 8, wr := true, value := 0x55AA }) sQ) A (toLe 8 0x55AA) := by
  decide +kernel

/-! ### The host's memory accesses -/

def sH1 : State := { sQ with port := { sQ.port with memSpace := true, busMaster := true } }
def sSafe : State := { sH1 with boot := { sH1.boot with safe := true } }
def bar5 : Nat := 5 * 2 ^ 21
def sHold : State := sH1.modTile 5 fun x => { x with hold := x.hold.store 64 (dat 64 9) false }

def sEnd : State := sH1.modTile 5 fun x => { x with hold := x.hold.store 1572860 [1, 2, 3, 4] false }
def sPoisoned : State := sH1.modTile 5 fun x => { x with hold := x.hold.store 64 (dat 64 9) true }

theorem witness_Bar4 : sSafe.boot.safe = true ∧ Leaves (.bar4Read 8 3) sSafe (sSafe.emit (.barData [0xFF, 0xFF, 0xFF] false)) ∧
    Leaves (.memRd 8 true 0 0) sSafe (sSafe.emit (.memData (List.replicate 64 0) true)) ∧ sQ.port.barClosed = true ∧
    (ran (.bar4Read 8 8) sQ).out = [Out.barUnsupported] ∧ sH1.port.barClosed = false ∧ sH1.bar4Tile (bar5 + 64) = some 5 ∧
    sH1.actPass (tgtHold 5) 0 NEED_W = true ∧ sH1.actPass (tgtHold 5) 0 NEED_R = true ∧
    ((ran (.bar4Write (bar5 + 64) (dat 24 9) false) sH1).tile 5).hold.read 64 24 = dat 24 9 ∧
    AerErr.completerAbort ∈ (ran (.bar4Write (bar5 + 60) (dat 24 9) false) sH1).port.aer ∧
    Leaves (.bar4Read (bar5 + 67) 13) sHold (sHold.emit (.barData ((sHold.tile 5).hold.read 67 13) false)) ∧
    AerErr.unsupportedRequest ∈ (ran (.bar4Write 8 (dat 8 1) false) sQ).port.aer ∧
    HOLD_BYTES = 1572864 ∧ Leaves (.bar4Read (bar5 + 1572864) 6) sHold (sHold.emit (.barData [0, 0, 0, 0, 0, 0] false)) ∧
    Leaves (.bar4Write (bar5 + 1572864) (dat 8 1) false) sHold sHold ∧
    Leaves (.bar4Read (bar5 + 1572860) 6) sEnd (sEnd.emit (.barData ([1, 2, 3, 4] ++ [0, 0]) false)) ∧
    (ran (.bar4Read (bar5 + 64) 8) sPoisoned).out = [Out.barData ((sHold.tile 5).hold.read 64 8) true] ∧
    sHold.bar4Tile (271 * 2 ^ 21) = none ∧ Leaves (.bar4Read (271 * 2 ^ 21) 2) sHold (sHold.emit (.barData [0, 0] false)) ∧
    Leaves (.bar4Write (271 * 2 ^ 21) (dat 8 1) false) sHold sHold ∧
    (let s := sHold.setReg (ACT_TGT + 4 * (2048 + 5)) 0
     s.actPass (tgtHold 5) 0 NEED_R = false ∧ Out.barAbort ∈ (ran (.bar4Read (bar5 + 67) 13) s).out) := by decide +kernel

def dec0 : Decoder := { base := 2 ^ 40, size := 2 ^ 32, dpa := 0, skip := 0, ways := 1, gran := 256, locked := false }
def sDec : State := { sH1 with port := { sH1.port with biEnable := true, decoders := [dec0] } }
noncomputable def sBi : State := { ran (.memRd (2 ^ 40 + A) true 2 0) sDec with out := [] }

theorem witness_CxlMem : sH1.hdmDecode 100 = none ∧ (ran (.memRd 100 true 2 0) sH1).out = [Out.memData (List.replicate 64 0) true] ∧
    (ran (.memWr 100 2 0 [] true) sH1).out = [Out.memDone] ∧ sDec.hdmDecode (2 ^ 40 + A) = some A ∧
    (∀ l ∈ sDec.basin.lines, l.host = true ∨ l.addr / 4096 ≠ la0 / 4096) ∧ sDec.RoomFor la0 ∧ sDec.Uncached la0 ∧
    sDec.actPass (tgtHdm la0) 0 NEED_R = true ∧ sDec.actPass (tgtHdm la0) 0 NEED_W = true ∧
    (ran (.memRd (2 ^ 40 + A) false 3 1) sDec).out = [Out.memData (sQ.hdm.read la0 64) false] ∧
    LineHas sBi (fun l => l.presence == [44]) ∧
    (let u := ran (.memWr (2 ^ 40 + A) 0 0 (dat 64 44) true) sDec
     Put sDec u la0 (dat 64 44) ∧ u.hdm.mark la0 = 3 ∧ la0 / 4096 ∈ u.basin.shr) ∧
    LineHas (ran (.memClnEvct (2 ^ 40 + A) META_INVALID) sBi) (fun l => l.presence == []) ∧
    (let s := sDec.setReg ACT_TGT 0
     s.actPass (tgtHdm la0) 0 NEED_W = false ∧ s.frameUse la0 = .normal ∧
     (ran (.memWr (2 ^ 40 + A) 0 0 (dat 64 44) false) s).hdm = s.hdm) := by decide +kernel

/-! ### The host's responses -/

noncomputable def sSnp : State := { sBi with port := { sBi.port with bisnp := [(la0, true)] } }
def rd8 (user : IoUser) : IoRead := { tag := 3, addr := 8192, want := 8, got := 0, user := user }
def sRd (user : IoUser) : State := { sH1 with port := { sH1.port with outstanding := [rd8 user] } }
def sHost (d : Bool) : State :=
  { sH1 with basin := { sH1.basin with lines := [{ host := true, addr := la0, data := dat 64 9, dirty := d }] } }

theorem witness_BackInvalidation : sQ.settleBias = sQ ∧ sQ.resettle = sQ ∧ sQ.waits = [] ∧ Leaves (.birspI A none) sQ sQ ∧ Leaves (.birspE A none) sQ sQ ∧
    sSnp.port.bisnp = [(la0, true)] ∧ sSnp.basin.held = [] ∧ sSnp.port.conflicts = [] ∧
    sSnp.birspDone A none true = sSnp.birsp A none true ∧
    sSnp.birspDone A none false = sSnp.birsp A none false ∧
    sSnp.birspDone A (some (dat 64 7)) true = sSnp.birsp A (some (dat 64 7)) true ∧
    LineHas (ran (.birspI A (some (dat 64 7))) sSnp) (fun l => l.data == dat 64 7 && l.dirty && l.presence == []) ∧
    LineHas (ran (.birspI A none) sSnp) (fun l => l.presence == []) ∧ (ran (.birspS A none) sSnp).basin = sSnp.basin ∧
    Leaves (.biconflict A) sH1 (sH1.emit (.biConflictAck la0)) ∧ la0 ∈ (ran (.biconflict A) sSnp).port.conflicts := by decide +kernel

theorem witness_Completions : (sRd (.lockkeeper 5)).port.waitingRd = [] ∧ (sRd (.lockkeeper 5)).port.flrBusy = false ∧
    (∀ i < 8, (sRd (.lockkeeper 5)).host.mark (8192 + i) = 0) ∧
    (let u := ran (.completionReceive 3 0 true (.data (dat 8 1) false)) (sRd (.lockkeeper 5))
     u.host.read 8192 8 = dat 8 1 ∧ u.port.outstanding = [] ∧ u.out = [Out.lkData 5 (leNat (dat 8 1))]) ∧
    (let u := ran (.completionTimeout 3) (sRd (.lockkeeper 5))
     u.port.quarantine = [3] ∧ u.out = [Out.lkFault 5 false] ∧ (ran (.tagQuarantineExpiry 3) u).port.quarantine = []) ∧
    (ran (.completionReceive 3 0 true (.data (dat 8 1) true)) (sRd .discard)).host = (sRd .discard).host ∧
    (ran (.completionReceive 3 0 true .abort) (sRd .discard)).flt = (sRd .discard).flt ∧
    (sRd .discard).port.stale.contains 9 = false ∧
    AerErr.unexpectedCompletion ∈ (ran (.completionReceive 9 0 true .abort) (sRd .discard)).port.aer ∧
    Leaves (.completionTimeout 9) (sRd .discard) (sRd .discard) := by decide +kernel

theorem witness_Decoders : decoderOk 2 512 = true ∧ decoderOk 3 512 = false ∧ 2 ^ 32 + 2 ^ 31 ≤ sDec.range1 ∧
    (ran (.decoderCommit 1 (2 ^ 42) (2 ^ 32) 0 2 512 true) sDec).port.decoders.length = 2 ∧
    (ran (.decoderCommit 2 (2 ^ 42) (2 ^ 32) 0 2 512 true) sDec).port.commitErr = [2] ∧
    (ran (.decoderCommit 1 (2 ^ 42) (2 ^ 32) 0 3 512 true) sDec).port.decoders = [dec0] := by decide +kernel

theorem witness_HostSnoops : sH1.mCopy true la0 = none ∧ sH1.basinLine true la0 = none ∧
    (ran (.snpData A) sH1).out = [Out.snpRsp la0 none] ∧ (sHost true).mCopy true la0 = none ∧
    (∀ d ∈ [true, false], let r := if d then some (dat 64 9) else none
      (ran (.snpData A) (sHost d)).out = [Out.snpRsp la0 r] ∧ (ran (.snpInv A) (sHost d)).basin.lines = [] ∧
      Leaves (.snpCur A) (sHost d) ((sHost d).emit (.snpRsp la0 r))) ∧
    Leaves (.cxlCacheHostResponse A none true) sH1 sH1 ∧
    (ran (.cxlCacheHostResponse A (some (dat 64 5)) false) (sHost false)).host.read la0 64 = dat 64 5 := by decide +kernel

/-! ### Events of the host port -/

def sD3 : State := { sH1 with port := { sH1.port with d3hot := true, busMaster := false } }
def sWr (bm d3 : Bool) : State :=
  { sH1 with port := { sH1.port with busMaster := bm, d3hot := d3, waitingWr := [(512, dat 8 1, true)] } }
def sVec : State := { sH1 with port := { sH1.port with msixEn := true, pendingVec := [7] } }

theorem witness_HostPortEvents : (ran .busMasterDisable sH1).port.ioOpen = false ∧ (ran .d3hotEntry sH1).port.d3hot = true ∧
    (ran .d3hotEntry sH1).port.barClosed = true ∧
    Leaves .busMasterEnable sD3 { sD3 with port := { sD3.port with busMaster := true } } ∧
    Leaves .d0Return sD3 { sD3 with port := { sD3.port with d3hot := false } } ∧
    (let t : State := { sWr true false with
       port := { (sWr true false).port with waitingWr := [] }, host := sH1.host.store 512 (dat 8 1) true, out := [.ioWrite 512 8] }
     t.resettle = t ∧ Leaves .busMasterEnable (sWr false false) t ∧ Leaves .d0Return (sWr true true) t) ∧
    sH1.hostLines = [] ∧ Leaves .cacheWritebackInvalidate sH1 { sH1 with port := { sH1.port with cacheInvalid := true } } ∧
    Leaves .gpfPhase1 sH1 sH1 ∧
    (let u := ran .cacheWritebackInvalidate (sHost true)
     u.host.read la0 64 = dat 64 9 ∧ u.basin.lines = []) ∧
    (ran .gpfPhase1 (sHost true)).basin.lines = [{ host := true, addr := la0, data := dat 64 9 }] ∧
    sH1.LogRoom ∧ sH1.waits = [] ∧ sH1.flt.ctxAborts = [] ∧ (ran .viralReceive sH1).Logged 0x71 7 0 ∧
    sH1.ww.index ∈ (ran .viralReceive sH1).gate.own.faultMap ∧ (ran (.ideCheckFailed true) sH1).port.ideMem = 2 ∧
    (ran (.ideCheckFailed false) sH1).port.ioOpen = false ∧ (ran (.vectorUnmask 7) sVec).out = [Out.msi 7] ∧
    (ran (.vectorUnmask 7) { sH1 with port := { sH1.port with msiMasked := [7, 8] } }).port.msiMasked = [8] ∧
    sH1.contexts = [] ∧ (ran (.cacheEnableWrite true) sH1).port.cacheEn = true ∧
    (ran (.cacheEnableWrite false) sH1).port.cacheEn = false := by decide +kernel

/-! ### The SPDM responder -/

def sSpdm : State :=
  { sH1 with port := { sH1.port with spdmVersion := true, spdmAlgo := true, sessions := [(0, 1), (1, 2)] } }
abbrev SpdmErr (c : Instr) (s : State) : Prop := Leaves c s (s.emit (.spdm 0x7F 0 []))
/-- Code, session and length of the one response. -/
noncomputable def answer (c : Instr) (s : State) : Option (Nat × Nat × Nat) :=
  match (ran c s).out with
  | [.spdm code n bs] => some (code, n, bs.length)
  | _ => none

theorem witness_SpdmRequests : (ran .getVersion sH1).out = [Out.spdm 4 0 [0x12, 0x13]] ∧ SpdmErr .getCapabilities sH1 ∧
    SpdmErr .getDigests sH1 ∧ SpdmErr (.negotiateAlgorithms 1) sH1 ∧ SpdmErr (.negotiateAlgorithms 2) sSpdm ∧
    (let s : State := { sH1 with port := { sH1.port with spdmVersion := true } }
     (ran (.negotiateAlgorithms 3) s).port.spdmAlgo = true) ∧
    answer .getDigests sSpdm = some (1, 0, 48) ∧ answer (.getCertificate 0 5 9) sSpdm = some (2, 0, 9) ∧
    answer (.challenge 0 5) sSpdm = some (3, 0, 128) ∧ answer (.getMeasurements 3) sSpdm = some (0x60, 0, 48) ∧
    SpdmErr (.getMeasurements 0) sSpdm ∧ SpdmErr (.getMeasurements 4) sSpdm ∧ SpdmErr (.challenge 1 5) sSpdm ∧
    answer (.keyExchange 0) sSpdm = some (0x64, 2, 96) ∧ sfind? (ran (.keyExchange 0) sSpdm).port.sessions 2 = some 1 ∧
    (let s : State := { sSpdm with port := { sSpdm.port with sessions := [(0, 1), (1, 1), (2, 2), (3, 1)] } }
     (∀ n < 4, sfind? s.port.sessions n ≠ none) ∧ SpdmErr (.keyExchange 0) s) ∧
    sfind? (ran (.finish 0 true) sSpdm).port.sessions 0 = some 2 ∧ sfind? (ran (.finish 0 false) sSpdm).port.sessions 0 = none ∧
    SpdmErr (.finish 1 true) sSpdm ∧ SpdmErr (.heartbeat 0) sSpdm ∧ answer (.heartbeat 1) sSpdm = some (0x68, 1, 0) ∧
    answer (.keyUpdate 1) sSpdm = some (0x69, 1, 0) ∧ sfind? (ran (.endSession 1) sSpdm).port.sessions 1 = none ∧
    (ran (.ideKeyProgramming 1 true) sSpdm).port.ideMem = 1 ∧
    (let s : State := { sSpdm with port := { sSpdm.port with busMaster := false } }
     (ran (.ideKeyProgramming 1 false) s).port.ideIo = 1) := by decide +kernel

theorem witness_SpdmFirmware : sSpdm.boot.fwReady = true ∧ answer (.getMeasurements 2) sSpdm = some (0x60, 0, 48) ∧
    answer (.getMeasurements 2) { sSpdm with boot := { sSpdm.boot with fwReady := false } } = some (0x60, 0, 0) := by
  decide +kernel

/-! ### Berths -/

def sBth (st : BState) (m : Nat) : State := sH1.setBerth 1 { st := st, modules := m }
def copyB (st : LineSt) : Copy := { agent := 41, host := false, addr := la0, st := st, data := if st = .m then dat 64 1 else [] }
def sCopy : State := { sBth .active 3 with basin := { sH1.basin with copies := [copyB .e] } }
def sMod : State :=
  { sBth .active 3 with
    basin := { sH1.basin with copies := [copyB .m], lines := [{ host := false, addr := la0, data := dat 64 2, owner := some 41 }] } }

theorem witness_BerthLinks : 1 < sH1.fuses.variant.berths ∧ (sH1.berth 1).st = .off ∧
    ((ran (.berthEnable 1) sH1).berth 1).st = .training ∧ ((ran (.berthDisable 1) (sBth .active 3)).berth 1).st = .off ∧
    ((ran (.berthDrain 1) (sBth .active 3)).berth 1).st = .draining ∧ berthAgent 1 = 41 ∧ sCopy.bit (brtReg 1 0x14) 0 = false ∧
    (ran (.berthDrain 1) sCopy).out = [Out.berthSnpInv 1 la0] ∧ ((ran (.berthUndrain 1) (sBth .drained 3)).berth 1).st = .active ∧
    (∀ m ∈ [0, 1], ((ran (.berthModuleFail 1 m) (sBth .active 3)).berth 1).modules = 2 - m ∧
      ((ran (.berthModuleFail 1 m) (sBth .active (2 ^ m))).berth 1).st = .down) ∧
    (ran (.brtInjCrc 1) sH1).bit (brtReg 1 0x14) 0 = true ∧
    ((ran (.berthTrainingDone 1 true 7 1 2 3) (sBth .training 0)).berth 1).modules = 3 ∧
    ((ran (.berthTrainingDone 1 false 7 1 2 3) (sBth .training 0)).berth 1).st = .down ∧
    Leaves (.berthTrainingDone 1 true 7 1 2 3) (sBth .active 3) (sBth .active 3) ∧
    ((ran (.berthLinkDown 1) (sBth .active 3)).berth 1).st = .down ∧
    sMod.LogRoom ∧ sMod.bit FLT_CTL 1 = false ∧ (ran (.berthLinkDown 1) sMod).Logged 0x76 8 1 ∧
    LineHas (ran (.berthLinkDown 1) sMod) (fun l => markMask l.marks == 255 && l.dirty) ∧
    ((ran (.berthDrainDone 1) (sBth .draining 3)).berth 1).st = .drained ∧
    Leaves (.berthDrainDone 1) (sBth .active 3) (sBth .active 3) ∧ (ran .actHoldSet sH1).bit ACT_CTL 0 = true ∧
    (ran .actHoldClear (ran .actHoldSet sH1)).actCopy = none := by decide +kernel

/-- A barge of tile 6 waits for 16 bytes from berth 1. -/
def sWait : State :=
  (sH1.setBerth 1 { st := .active, modules := 3, out := [{ tag := 4, tile := 6, barge := 9, off := 100, len := 16, read := true }] }).modTile
    6 fun x => { x with barges := [{ id := 9, lc := 2, desc := List.replicate 64 0, index := [], berthTags := [4] }] }

theorem witness_BerthMessagesOut : (descOf (List.replicate 64 0)).dstKind ≠ 6 ∧ (sWait.barge? 6 9).isSome = true ∧
    Leaves (.berthCpl 1 5 0 [] 0) sWait sWait ∧ Leaves (.berthMessageTimeout 1 5) sWait sWait ∧
    ((ran (.berthCpl 1 4 0 (dat 16 5) 0) sWait).barge? 6 9).map (fun j => (j.berthTags, sget 0 j.berthData 101)) = some ([], 12) ∧
    ((ran (.berthCpl 1 4 1 [] 0) sWait).barge? 6 9).map (fun j => sget false j.berthBad 115) = some true ∧
    sWait.LogRoom ∧ (ran (.berthMessageTimeout 1 4) sWait).Logged 0x75 8 1 := by decide +kernel

def sOn : State := sBth .active 3
/-- A message to a space and address. -/
def msgTo (sp a len fn : Nat) : BerthMsg :=
  { oid := 0, aq := false, rl := false, poison := 0, tag := 77, len := len, fn := fn, addr := sp * 2 ^ 48 + a, data := dat (8 * len) 66 }
def msg0 : BerthMsg := msgTo 0 A 1 0
def msgH : BerthMsg := msgTo 2 (5 * 2 ^ 32 + 640) 9 0
def cpl0 (st : Nat) (bs : List Byte) : Out := .berthCpl 1 77 st bs 0
def sDb : State :=
  ((sOn.setReg (brtReg 1 8) 0x80000003).setContext 3 { st := .ready }).setRing 3 2 { enable := true, db := 0x9000 }
def sGone : State := sOn.modStack pA fun k => { k with pcs := [(pcA, .retired)] }

theorem witness_BerthMessages : (sOn.berth 1).st = .active ∧ sOn.bit (brtReg 1 0x00) 2 = true ∧ sOn.bit (brtReg 1 0x14) 0 = false ∧
    sOn.basin.held = [] ∧ Leaves (.berthWr 1 msg0) sH1 sH1 ∧ msgLegal msg0 = true ∧ msgSpace msg0 = 0 ∧
    (ran (.berthRd 1 { msg0 with reservedSet := true }) sOn).out = [cpl0 2 []] ∧
    (let s := sOn.setBit (brtReg 1 0x00) 2 false
     Leaves (.berthWr 1 msg0) s (s.emit (cpl0 1 []))) ∧
    Leaves (.berthFence 1 msg0) sOn (sOn.emit (cpl0 0 [])) ∧ sOn.berthDbOk 1 0 = false ∧
    Leaves (.berthDb 1 msg0) sOn (sOn.emit (cpl0 1 [])) ∧ sDb.berthDbOk 1 2 = true ∧ sDb.port.ioOpen = true ∧
    (ran (.berthDb 1 { msg0 with fn := 2, addr := 0x123456789 }) sDb).host.read 0x9000 4 = toLe 4 0x23456789 ∧
    sOn.hdmRefusal (MID_BERTH 1) NEED_W A 8 = none ∧ sOn.hdmRefusal (MID_BERTH 1) NEED_R A 8 = none ∧
    sOn.hdmRefusal (MID_BERTH 1) NEED_A A 8 = none ∧ sOn.unbackedWrite A 8 = false ∧
    Put sOn (ran (.berthWr 1 msg0) sOn) A (dat 8 66) ∧ (ran (.berthRd 1 msg0) sOn).out = [cpl0 0 (sQ.hdm.read A 8)] ∧
    (∀ fn ∈ [0, 6], (ran (.berthAmo 1 { msg0 with fn := fn }) sOn).out = [cpl0 0 (sQ.hdm.read A 8)]) ∧
    sGone.unbackedWrite A 8 = true ∧ Leaves (.berthWr 1 msg0) sGone (sGone.emit (cpl0 3 [])) ∧
    (let s := sOn.setReg ACT_TGT 0
     s.hdmRefusal (MID_BERTH 1) NEED_W A 8 ≠ none ∧ cpl0 1 [] ∈ (ran (.berthWr 1 msg0) s).out) ∧
    msgLegal msgH = true ∧ msgSpace msgH = 2 ∧ sOn.msgHold msgH = some 5 ∧ msgHoldAddr msgH = 640 ∧ holdRange 640 72 = true ∧
    sOn.actPass (tgtHold 5) (MID_BERTH 1) NEED_W = true ∧ sOn.actPass (tgtHold 5) (MID_BERTH 1) NEED_R = true ∧
    (sOn.tile 5).inject = none ∧ ((ran (.berthWr 1 msgH) sOn).tile 5).hold.read 640 72 = dat 72 66 ∧
    Leaves (.berthRd 1 msgH) sOn (sOn.emit (cpl0 0 (List.replicate 72 0))) := by decide +kernel

noncomputable def sBOwn : State := { ran (.berthRdOwn 1 A) sOn with out := [] }

theorem witness_BerthCacheRequests : sOn.bit (brtReg 1 0x00) 1 = true ∧ sOn.Uncached la0 ∧ sOn.RoomFor la0 ∧
    sOn.hdmRefusal (MID_BERTH 1) NEED_R la0 64 = none ∧ sOn.hdmRefusal (MID_BERTH 1) NEED_W la0 64 = none ∧
    (let s := sOn.setBit (brtReg 1 0x00) 1 false
     Leaves (.berthRdOwn 1 A) s (s.emit (.berthRsp 1 la0 true none false))) ∧
    (ran (.berthRdCurr 1 A) sOn).out = [Out.berthRsp 1 la0 false (some (sQ.hdm.read la0 64)) false] ∧
    ((ran (.berthRdShared 1 A) sOn).copyOf 41 false la0).map Copy.st = some .e ∧
    (∀ c ∈ [Instr.berthRdOwn 1 A, .berthRdOwnNoData 1 A], ((ran c sOn).copyOf 41 false la0).map Copy.st = some .m) ∧
    (∀ c ∈ [Instr.berthCleanEvict 1 A, .berthCleanEvictNoData 1 A], (ran c sBOwn).copyOf 41 false la0 = none) ∧
    (sBOwn.copyOf 41 false la0).map Copy.st = some .m ∧ sBOwn.basin.copies.length = 1 ∧
    LineHas (ran (.berthDirtyEvict 1 A (dat 64 12) false) sBOwn) (fun l => l.data == dat 64 12 && l.dirty && l.owner == none) := by
  decide +kernel

/-! ### Power and the towpath -/

/-- Fast limits enabled; the mean of the samples is then beyond, within or below the cap by the sample added. -/
def sPwr (ls : List PClass) : State :=
  { base with power := { base.power with limits := ls, sinceEngage := 7, sinceRelease := 7 } }.setBit PWR_CTL 8 true

theorem witness_RailSample : (sPwr []).Live ∧ (sPwr []).bit PWR_CTL 8 = true ∧ (base.setBit PWR_CTL 8 false).bit PWR_CTL 8 = false ∧
    0 < base.cap ∧ 105 * base.cap < 100 * (2 * base.cap) ∧ (prioOrder base.power.prio).isEmpty = false ∧
    (ran (.railSample (2 * base.cap) 0 0) (sPwr [])).power.limits = (prioOrder base.power.prio).take 1 ∧
    (ran (.railSample 0 0 0) (sPwr [.memory])).power.limits = [] ∧
    (ran (.railSample base.cap 0 0) (sPwr [.memory])).power.limits = [.memory] ∧
    (ran (.railSample (2 * base.cap) 5 6) (base.setBit PWR_CTL 8 false)).power.limits = [] ∧
    (ran (.railSample 4 5 6) base).power.samples = [(4, 5, 6)] ∧ (ran .fastLimitDisable (sPwr [.memory])).power.limits = [] := by
  decide +kernel

def lease0 : Lease := { watts := 300, start := 0, dur := 5000 }

theorem witness_PowerCommands : (ran (.pwrDroopWrite 0x001E140A) base).fld PWR_DROOP 23 0 = 0x1E140A ∧
    Leaves (.pwrDroopWrite 0x001E0A0A) base base ∧ base.power.drv = none ∧ Leaves (.leaseExpiry false) base base ∧
    (let s : State := { base with power := { base.power with drv := some lease0, tow := some lease0 } }
     s.power.tow ≠ none ∧ (ran (.leaseExpiry false) s).power.drv = none ∧ (ran (.leaseExpiry true) s).power.tow = none ∧
     (ran (.leaseExpiry true) s).bit IRQ_PEND 5 = true) ∧
    Leaves .conservativeEntry base base ∧ Leaves .conservativeExit base base ∧
    (let s : State := { base with power := { base.power with divergeMet := true, ratio := some (5, 4) } }
     s.LogRoom ∧ (ran .conservativeEntry s).power.conservative = true ∧ (ran .conservativeEntry s).Logged 0x81 12 3) ∧
    (let s : State := { base with power := { base.power with conservative := true, agreeMet := true } }
     (ran .conservativeExit s).power.factor = (1, 1)) ∧
    (let s : State := { base with flights := [(0, { st := .moored, powerMoored := true, unmoored := 4 })] }
     4 ≤ (s.flight 0).countDecision.unmoored ∧ ((ran (.powerMoorResume 0) s).flight 0).resumeOrder = true) ∧
    Leaves (.powerMoorResume 0) base base := by decide +kernel

theorem witness_ThermalTrip : base.tripped [(0, 119)] [(0, 104)] = [] ∧ Leaves (.thermalTrip [(0, 119)] [(0, 104)]) base base ∧
    base.fuses.reachActive 15 = true ∧ base.fuses.stackFused 31 = true ∧ base.LogRoom ∧
    (ran (.thermalTrip [(15, 120)] []) base).boot.safe = true ∧ (ran (.thermalTrip [(15, 120)] []) base).Logged 0x82 13 15 ∧
    (ran (.thermalTrip [] [(31, 105)]) base).pins.thermtripOut = true ∧
    (ran (.thermalTrip [] [(31, 105)]) base).Logged 0x82 13 47 := by decide +kernel

theorem witness_TowpathRequests : base.boot.fwReady = true ∧ base.Live ∧ State.reset.boot.fwReady = false ∧
    Leaves .getClocks State.reset (State.reset.emit (.towpath 2 2 [])) ∧
    Leaves (.setLease 300 5) State.reset (State.reset.emit (.towpath 0x10 2 [])) ∧
    (ran (.setLease 100 1) base).power.tow = some { watts := 100, start := 0, dur := 1000 } ∧
    (ran (.setLease 0 1) base).power.tow = none ∧ Leaves (.setLease 99 1) base (base.emit (.towpath 0x10 1 [])) ∧
    Leaves (.setLease 300 (2 ^ 32)) base (base.emit (.towpath 0x10 1 [])) ∧ (ran .wwReset base).gate.own.reset = true ∧
    base.power.drv = none ∧ base.power.tow = none ∧ base.fuses.reachActive 0 = true := by decide +kernel

/-- Reach 0's tile 0 runs a flight with a planned clock of 96 in the variant that it runs. -/
def sClk : State :=
  { sS with flights := [(0, { flightB with image := img ([(6, 2, 1), (0x14, 4, 4)] ++ dirAt 0 SEC_CLOCKS 4 0x200 8 ++ [(0x206, 2, 96)]) })] }

theorem witness_GetClocks : sClk.plannedClocks 0 = [96] ∧
    (match (ran .getClocks sClk).out with
     | [.towpath 2 0 bs] => bs[1]? == some 96 && bs[2]? == some 96 && bs.length == 64
     | _ => false) = true := by decide +kernel

/-! ### The fault collector -/

def msgT (cls : Nat) : FaultMsg := { addr := 0, unit := 1, inst := 9, kind := 0x10, cls := cls, slot := 255, inj := false, count := 1, status := 0 }

theorem witness_FaultCollector : base.LogRoom ∧ base.waits = [] ∧ base.flt.ctxAborts = [] ∧ (msgT 1).unit ≠ 10 ∧
    base.fld (FLT_CNT + 4 * 0x10) 7 0 ≠ 1 ∧
    (let s := base.setFld (FLT_CNT + 4 * 0x10) 7 0 0
     s.fld (FLT_CNT + 4 * 0x10) 7 0 = 0 ∧ ∀ c ∈ [0, 1, 2, 3], (ran (.faultMessageReceive (msgT c)) s).bit FLT_STAT c = true ∧
       (ran (.faultMessageReceive (msgT c)) s).flt.log.length = 1) ∧
    (let s := base.setFld (FLT_CNT + 4 * 0x10) 7 0 1
     s.flt.equal = false ∧ (msgT 1).unit ≠ 11 ∧ (ran (.faultMessageReceive (msgT 1)) s).bit FLT_STAT 2 = true) ∧
    (ran (.faultMessageReceive (msgT 4)) base).boot.safe = true ∧
    Leaves .faultOutPulseEnd base { base with pins := { base.pins with pulse := false } } ∧
    (let s := ran (.faultMessageReceive (msgT 1)) base
     (ran .faultLogClear s).flt.log = []) ∧
    (let s := base.setFld FLT_RING_LO 8 4 4
     s.bit FLT_CTL 1 = false ∧ (ran .faultRingEnable s).bit FLT_CTL 1 = true) ∧
    (kindOf 0x10).isSome = true ∧ kindOf 0xFF = none ∧ Leaves (.fltCntWrite 0xFF 5) base base ∧
    (ran (.fltCntWrite 0x10 0x0123) base).fld (FLT_CNT + 4 * 0x10) 27 0 = 0x123 ∧
    (ran .fltWwReset base).gate.own.reset = true ∧ base.bit FLT_RESET 30 = false ∧ (ran .devHalt base).Logged 0x91 0 0 ∧
    base.ww.index ∈ (ran .devHalt base).gate.own.faultMap := by decide +kernel

theorem witness_Injections : (base.tile 9).st ≠ .off ∧ ((ran (.fltInjTile 0x80060009) base).tile 9).inject = some 6 ∧
    (ran (.fltInjTile 0x80070009) base).tiles = base.tiles ∧ (ran (.fltInjTile 0x00060009) base).tiles = base.tiles ∧
    ((ran (.fltInjLkp 0x80000217) base).lk 23).inject = some 2 ∧ (ran (.fltInjLkp 0x80000218) base).lks = base.lks ∧
    (ran (.fltInjMsg 0x84100409) (base.setFld (FLT_CNT + 4 * 0x10) 7 0 0)).bit FLT_STAT 10 = true ∧
    (let u := ran (.fltInjMsg 0x83100409) (base.setFld (FLT_CNT + 4 * 0x10) 7 0 0)
     u.flt.log.map (fun e => (e.2.msg.kind, e.2.msg.cls, e.2.msg.unit, e.2.msg.inst, e.2.msg.inj)) = [(0x10, 3, 1, 9, true)]) := by
  decide +kernel

end Sys2Proof.Tests
end

section
/-! The frame of the lock (R21, R22, R30): what the time formula reads, a lemma for each function that a lock calls and
that leaves it alone, and the functions that change it: the end of a pound and the adoption of a pound length. -/

namespace Sys2Proof.Machine

/-- What the formula of the lock time reads and what the vote of a pound stands at (R21, R22, R30). -/
structure LockView where
  time     : Nat
  lockTime : Nat
  pound    : Nat
  epoch    : Nat
  slip     : Nat
  /-- TCK_PLEN.LEN, in units of 100 ns (R55) -/
  len      : Nat
  cut      : Bool
  round    : Nat
  got      : List GateIn

/-- The lock view of a state. -/
def State.lockView (s : State) : LockView :=
  { time := s.ww.time, lockTime := s.ww.lockTime, pound := s.ww.pound, epoch := s.ww.epoch, slip := s.ww.slip
    len := s.fld TCK_PLEN 9 0, cut := s.gate.cut, round := s.gate.round, got := s.gate.got }

section
variable (s : State)

/-- Units that the view does not read. -/
theorem lockView_mk (pending fresh pins boot musters tiles reaches flights contexts waits canals transit tickets
    remote stk basin lks port berths power flt xlt hdm host actCopy rwqLog out) :
    State.lockView ⟨pending, fresh, s.fuses, pins, boot, s.regs, s.ww, s.gate, musters, tiles, reaches, flights,
      contexts, waits, canals, transit, tickets, remote, stk, basin, lks, port, berths, power, flt, xlt, hdm, host,
      actCopy, rwqLog, out⟩ = s.lockView := rfl

/-- Fields of the waterway that the view does not read. -/
theorem lockView_ww (pending fresh pins boot musters tiles reaches flights contexts waits canals transit tickets
    remote stk basin lks port berths power flt xlt hdm host actCopy rwqLog out frac syncAt index coord shape joined lm
    lmAbsent candidate holdover expired capture faults newFaults ownFault missFault otherMin discovering timed) :
    State.lockView ⟨pending, fresh, s.fuses, pins, boot, s.regs,
      ⟨s.ww.time, frac, syncAt, s.ww.pound, s.ww.epoch, s.ww.slip, s.ww.lockTime, index, coord, shape, joined, lm,
        lmAbsent, candidate, holdover, expired, capture, faults, newFaults, ownFault, missFault, otherMin, discovering,
        timed⟩,
      s.gate, musters, tiles, reaches, flights, contexts, waits, canals, transit, tickets, remote, stk, basin, lks,
      port, berths, power, flt, xlt, hdm, host, actCopy, rwqLog, out⟩ = s.lockView := rfl

theorem lockView_ite (p : Prop) [Decidable p] (a b : State) :
    (if p then a else b).lockView = if p then a.lockView else b.lockView := apply_ite ..

theorem foldl_lockView {α : Type} {f : State → α → State} (hf : ∀ t a, (f t a).lockView = t.lockView) (l : List α) :
    (l.foldl f s).lockView = s.lockView := by
  induction l generalizing s with
  | nil => rfl
  | cons a l ih => exact (ih _).trans (hf s a)

theorem foldl_fst_lockView {α β : Type} {f : State × β → α → State × β}
    (hf : ∀ r a, (f r a).1.lockView = r.1.lockView) (l : List α) (r : State × β) :
    (l.foldl f r).1.lockView = r.1.lockView := by
  induction l generalizing r with
  | nil => rfl
  | cons a l ih => exact (ih _).trans (hf r a)

theorem setReg_lockView {o : Nat} (h : o ≠ TCK_PLEN) (s : State) (v : Reg) : (s.setReg o v).lockView = s.lockView := by
  have hr : (s.setReg o v).reg TCK_PLEN = s.reg TCK_PLEN := by simp [State.reg_setReg, h]
  simp only [State.lockView, State.fld, hr]; rfl

theorem setFld_lockView {o : Nat} (h : o ≠ TCK_PLEN) (s : State) (hi lo v : Nat) :
    (s.setFld o hi lo v).lockView = s.lockView :=
  setReg_lockView h s _

theorem setBit_lockView {o : Nat} (h : o ≠ TCK_PLEN) (s : State) (i : Nat) (b : Bool) :
    (s.setBit o i b).lockView = s.lockView :=
  setReg_lockView h s _

theorem bump_lockView {o : Nat} (h : o ≠ TCK_PLEN) (s : State) : (s.bump o).lockView = s.lockView := by
  simp only [State.bump, lockView_ite, setReg_lockView h, ite_self]

theorem order_lockView (f : Gate → Gate) : (s.order f).lockView = s.lockView := by
  simp only [State.order, lockView_ite]
  exact ite_self _

theorem lockView_fst_ite {β : Type} (p : Prop) [Decidable p] (a b : State × β) :
    (if p then a else b).1.lockView = if p then a.1.lockView else b.1.lockView := by split <;> rfl

/-- Both branches of a conditional keep the view. -/
theorem lockView_cond {p : Prop} [Decidable p] {a b : State} {v : LockView} (ha : a.lockView = v)
    (hb : b.lockView = v) : (if p then a else b).lockView = v := by
  split
  · exact ha
  · exact hb

theorem sget_filter {α : Type} {d : α} {k : Nat} (p : Nat → Bool) (hp : p k = true) (m : SMap α) :
    sget d (m.filter fun e => p e.1) k = sget d m k := by
  induction m with
  | nil => rfl
  | cons e m ih =>
    obtain ⟨j, v⟩ := e
    by_cases hj : p j = true
    · simp [hj, sget, ih]
    · have hjk : j ≠ k := fun h => hj (h ▸ hp)
      simp [hj, sget, hjk, ih]

theorem resetRegs_lockView {lo hi : Nat} (h : TCK_PLEN < lo ∨ hi ≤ TCK_PLEN) (s : State) :
    (s.resetRegs lo hi).lockView = s.lockView := by
  have hr : (s.resetRegs lo hi).reg TCK_PLEN = s.reg TCK_PLEN :=
    sget_filter (fun o => !(decide (lo ≤ o) && decide (o < hi))) (by simp; omega) _
  simp only [State.lockView, State.fld, hr]; rfl

theorem setReg_pwrReach_lockView (s : State) (p : Nat) (v : Reg) :
    (s.setReg (PWR_REACH + 4 * p) v).lockView = s.lockView :=
  setReg_lockView (by unfold PWR_REACH TCK_PLEN; omega) ..

theorem setBit_stkReg_lockView (s : State) (p off i : Nat) (b : Bool) :
    (s.setBit (stkReg p off) i b).lockView = s.lockView :=
  setBit_lockView (by unfold stkReg STK TCK_PLEN; omega) ..

theorem setBit_cnlReg_lockView (s : State) (p off i : Nat) (b : Bool) :
    (s.setBit (cnlReg p off) i b).lockView = s.lockView :=
  setBit_lockView (by unfold cnlReg CNL TCK_PLEN; omega) ..

theorem setBit_lkpRole_lockView (s : State) (r i : Nat) (b : Bool) :
    (s.setBit (LKP_ROLE + 4 * r) i b).lockView = s.lockView :=
  setBit_lockView (by unfold LKP_ROLE TCK_PLEN; omega) ..

/-! #### Parts of the state, tags and interrupts -/

theorem setReach_lockView (p : Nat) (r : Reach) : (s.setReach p r).lockView = s.lockView := by
  simp only [State.setReach, lockView_mk]

theorem setTile_lockView (t : Nat) (x : Tile) : (s.setTile t x).lockView = s.lockView := by
  simp only [State.setTile, lockView_mk]

theorem modTile_lockView (t : Nat) (f : Tile → Tile) : (s.modTile t f).lockView = s.lockView := by
  simp only [State.modTile, setTile_lockView]

theorem setFlight_lockView (k : Nat) (x : Flight) : (s.setFlight k x).lockView = s.lockView := by
  simp only [State.setFlight, lockView_mk]

theorem modFlight_lockView (k : Nat) (f : Flight → Flight) : (s.modFlight k f).lockView = s.lockView := by
  simp only [State.modFlight, setFlight_lockView]

theorem setContext_lockView (c : Nat) (x : Context) : (s.setContext c x).lockView = s.lockView := by
  simp only [State.setContext, lockView_mk]

theorem setCanal_lockView (p : Nat) (x : Canal) : (s.setCanal p x).lockView = s.lockView := by
  simp only [State.setCanal, lockView_mk]

theorem modCanal_lockView (p : Nat) (f : Canal → Canal) : (s.modCanal p f).lockView = s.lockView := by
  simp only [State.modCanal, setCanal_lockView]

theorem setStack_lockView (p : Nat) (x : Stack) : (s.setStack p x).lockView = s.lockView := by
  simp only [State.setStack, lockView_mk]

theorem modStack_lockView (p : Nat) (f : Stack → Stack) : (s.modStack p f).lockView = s.lockView := by
  simp only [State.modStack, setStack_lockView]

theorem setLk_lockView (k : Nat) (x : Lockkeeper) : (s.setLk k x).lockView = s.lockView := by
  simp only [State.setLk, lockView_mk]

theorem modLk_lockView (k : Nat) (f : Lockkeeper → Lockkeeper) : (s.modLk k f).lockView = s.lockView := by
  simp only [State.modLk, setLk_lockView]

theorem setRing_lockView (c r : Nat) (x : Ring) : (s.setRing c r x).lockView = s.lockView := by
  simp only [State.setRing, setContext_lockView]

theorem emit_lockView (o : Out) : (s.emit o).lockView = s.lockView := by
  simp only [State.emit, lockView_mk]

theorem orderTag_lockView (t : Nat) (f : TagRec → TagRec) : (s.orderTag t f).lockView = s.lockView := by
  simp only [State.orderTag, order_lockView]

theorem holdTag_lockView (t : Nat) : (s.holdTag t).lockView = s.lockView := by
  simp only [State.holdTag, orderTag_lockView]

theorem holdSlot_lockView (k : Nat) : (s.holdSlot k).lockView = s.lockView := by
  simp only [State.holdSlot, holdTag_lockView]

theorem ownFaultBit_lockView : s.ownFaultBit.lockView = s.lockView := by
  simp only [State.ownFaultBit, order_lockView]

theorem muster_lockView (tag bid n : Nat) : (s.muster tag bid n).lockView = s.lockView := by
  simp only [State.muster, lockView_mk]

theorem musterOnce_lockView (tag bid : Nat) : (s.musterOnce tag bid).lockView = s.lockView := by
  simp only [State.musterOnce, muster_lockView, lockView_ite, ite_self]

theorem sendVec_lockView (v : Nat) : (s.sendVec v).lockView = s.lockView := by
  simp only [State.sendVec, emit_lockView, lockView_mk, lockView_ite, ite_self]

theorem irq_lockView (n : Nat) : (s.irq n).lockView = s.lockView := by
  simp only [State.irq, setBit_lockView (o := IRQ_PEND) (by decide), sendVec_lockView, lockView_ite, ite_self]

/-! #### Lines, copies and snoops (R365 to R409) -/

theorem cancelResv_lockView (host : Bool) (la : Nat) (keep : Option Nat) :
    (s.cancelResv host la keep).lockView = s.lockView := by
  simp only [State.cancelResv, setLk_lockView, foldl_lockView, implies_true, lockView_ite, ite_self]

theorem snoopBerths_lockView (host : Bool) (la : Nat) (keep : Option Nat) :
    (s.snoopBerths host la keep).lockView = s.lockView := by
  simp only [State.snoopBerths, emit_lockView, foldl_lockView, implies_true]

theorem dropCopies_lockView (host : Bool) (la : Nat) (keep : Option Nat) :
    (s.dropCopies host la keep).lockView = s.lockView := by
  simp only [State.dropCopies, cancelResv_lockView, snoopBerths_lockView, lockView_mk]

theorem putLine_lockView (l : Line) : (s.putLine l).lockView = s.lockView := by
  simp only [State.putLine, lockView_mk]

theorem putCopy_lockView (c : Copy) : (s.putCopy c).lockView = s.lockView := by
  simp only [State.putCopy, lockView_mk]

theorem hostWrite_lockView (a : Nat) (bs : List Byte) (poison : Bool) :
    (s.hostWrite a bs poison).lockView = s.lockView := by
  simp only [State.hostWrite, emit_lockView, lockView_mk, lockView_ite, ite_self]

theorem mergeLine_lockView (host : Bool) (la off : Nat) (bs : List Byte) (poison dirty : Bool) :
    (s.mergeLine host la off bs poison dirty).lockView = s.lockView := by
  unfold State.mergeLine
  split <;> simp only [putLine_lockView]

theorem recall_lockView (host : Bool) (la : Nat) : (s.recall host la).lockView = s.lockView := by
  unfold State.recall
  split <;> simp only [putLine_lockView]

theorem sendSnoop_lockView (b : Nat × Bool) : (s.sendSnoop b).lockView = s.lockView := by
  simp only [State.sendSnoop, emit_lockView]

theorem snoopHost_lockView (la : Nat) (inv : Bool) : (s.snoopHost la inv).lockView = s.lockView := by
  simp only [State.snoopHost, sendSnoop_lockView, lockView_mk, lockView_ite, ite_self]

theorem recallHost_lockView (host : Bool) (la : Nat) : (s.recallHost host la).lockView = s.lockView := by
  unfold State.recallHost
  split <;> simp only [snoopHost_lockView, lockView_ite, ite_self]

theorem stkErr_lockView (dpa bit : Nat) : (s.stkErr dpa bit).lockView = s.lockView := by
  unfold State.stkErr
  split <;> simp only [setBit_stkReg_lockView]

theorem dropWriteback_lockView (dpa : Nat) : (s.dropWriteback dpa).lockView = s.lockView := by
  unfold State.dropWriteback
  split <;> simp only [modStack_lockView]

theorem wholeMark_lockView (port : Nat) (poison : Bool) : (s.wholeMark port poison).1.lockView = s.lockView := by
  simp only [State.wholeMark, setBit_stkReg_lockView, lockView_fst_ite, ite_self]

theorem quietStore_lockView (a : Nat) (bs : List Byte) : (s.quietStore a bs).lockView = s.lockView := by
  unfold State.quietStore
  split
  · refine foldl_lockView s (fun t w => ?_) _
    dsimp only
    split <;> simp only [lockView_mk, wholeMark_lockView, dropWriteback_lockView]
  all_goals simp only [stkErr_lockView]

theorem flagWrite_lockView (host : Bool) (a : Nat) (bs : List Byte) :
    (s.flagWrite host a bs).lockView = s.lockView := by
  refine lockView_cond (hostWrite_lockView ..) (foldl_lockView s (fun t la => ?_) _)
  dsimp only
  split <;> simp only [mergeLine_lockView, quietStore_lockView, dropCopies_lockView, recall_lockView,
    recallHost_lockView]

theorem flagWriteLoc_lockView (dpa : Bool) (a : Nat) (bs : List Byte) :
    (s.flagWriteLoc dpa a bs).lockView = s.lockView := by
  simp only [State.flagWriteLoc, flagWrite_lockView]

/-! #### Fault messages (R599 to R617) -/

theorem fatalFlight_lockView (k status : Nat) : (s.fatalFlight k status).lockView = s.lockView := by
  simp only [State.fatalFlight, modFlight_lockView, holdSlot_lockView, lockView_ite, ite_self]

theorem logRecord_lockView (m : FaultMsg) (esc : Bool) : (s.logRecord m esc).1.lockView = s.lockView := by
  unfold State.logRecord
  split <;> simp only [bump_lockView (o := FLT_LOG_OVF) (by decide), lockView_mk, lockView_ite, ite_self]

theorem ringRecord_lockView (m : FaultMsg) (esc : Bool) : (s.ringRecord m esc).1.lockView = s.lockView := by
  simp only [State.ringRecord, bump_lockView (o := FLT_RING_LOST) (by decide), flagWriteLoc_lockView, lockView_mk,
    lockView_fst_ite, ite_self]

theorem react_lockView (r : Reaction) : (s.react r).lockView = s.lockView := by
  simp only [State.react, lockView_mk, lockView_ite, ite_self]

theorem retireBound_lockView (m : FaultMsg) : (s.retireBound m).lockView = s.lockView := by
  unfold State.retireBound
  dsimp only
  split <;> simp only [react_lockView, holdSlot_lockView, musterOnce_lockView, fatalFlight_lockView, lockView_ite,
    ite_self]

theorem retire_lockView (m : FaultMsg) : (s.retire m).lockView = s.lockView := by
  unfold State.retire
  split
  case h_5 => split <;> simp only [react_lockView]
  all_goals simp only [react_lockView, ownFaultBit_lockView, retireBound_lockView, lockView_ite, ite_self]

theorem haltFault_lockView : s.haltFault.lockView = s.lockView := by
  simp only [State.haltFault, react_lockView, ownFaultBit_lockView, lockView_mk]

theorem reactFatal_lockView (m : FaultMsg) : (s.reactFatal m).lockView = s.lockView := by
  unfold State.reactFatal
  split
  · split <;> simp only [fatalFlight_lockView]
  · split <;> simp only [fatalFlight_lockView]
  · exact foldl_lockView s (fun _ _ => fatalFlight_lockView ..) _
  · rfl
  · exact haltFault_lockView s

theorem replayFlight_lockView (k : Nat) : (s.replayFlight k).1.lockView = s.lockView := by
  simp only [State.replayFlight, fatalFlight_lockView, holdSlot_lockView, musterOnce_lockView, lockView_fst_ite,
    ite_self]

theorem reactClass_lockView (m : FaultMsg) (cls : Nat) : (s.reactClass m cls).1.lockView = s.lockView := by
  unfold State.reactClass
  split
  · split
    · split <;> simp only [replayFlight_lockView]
    · rfl
  all_goals simp only [retire_lockView, reactFatal_lockView]

theorem countFault_lockView (m : FaultMsg) : (s.countFault m).1.lockView = s.lockView := by
  simp only [State.countFault, setBit_lockView (o := FLT_STAT) (by decide), lockView_mk, lockView_ite, lockView_fst_ite,
    ite_self]

theorem recordFault_lockView (m : FaultMsg) (esc : Bool) : (s.recordFault m esc).lockView = s.lockView := by
  simp only [State.recordFault, setBit_lockView (o := FLT_STAT) (by decide), irq_lockView, ringRecord_lockView,
    logRecord_lockView, lockView_mk, lockView_ite, ite_self]

theorem collect_lockView (m : FaultMsg) : (s.collect m).1.lockView = s.lockView := by
  simp only [State.collect, reactClass_lockView, recordFault_lockView, countFault_lockView, lockView_fst_ite, ite_self]

theorem fault_lockView (m : FaultMsg) : (s.fault m).lockView = s.lockView := by
  simp only [State.fault, collect_lockView, foldl_lockView, implies_true]

theorem report_lockView (kind unit inst addr : Nat) : (s.report kind unit inst addr).lockView = s.lockView := by
  simp only [State.report, fault_lockView]

theorem injUsed_lockView (before after : Tile) : (s.injUsed before after).lockView = s.lockView := by
  simp only [State.injUsed, setBit_lockView (o := FLT_INJ_TILE) (by decide), lockView_ite, ite_self]

/-! #### Stack words, the home and the basin (R331 to R393) -/

theorem stkFault_lockView (kind dpa : Nat) : (s.stkFault kind dpa).lockView = s.lockView := by
  unfold State.stkFault
  split <;> simp only [report_lockView]

theorem queueWriteback_lockView (dpa mark : Nat) : (s.queueWriteback dpa mark).lockView = s.lockView := by
  unfold State.queueWriteback
  split <;> simp only [modStack_lockView]

theorem checkWord_lockView (w : Nat) : (s.checkWord w).lockView = s.lockView := by
  unfold State.checkWord
  split <;> simp only [stkFault_lockView, stkErr_lockView, queueWriteback_lockView]

theorem drainedAccess_lockView (dpa : Nat) : (s.drainedAccess dpa).lockView = s.lockView := by
  simp only [State.drainedAccess, stkFault_lockView, stkErr_lockView]

theorem discardedWrite_lockView (dpa : Nat) : (s.discardedWrite dpa).lockView = s.lockView := by
  simp only [State.discardedWrite, stkFault_lockView, stkErr_lockView]

theorem stkReadLine_lockView (la : Nat) : (s.stkReadLine la).1.lockView = s.lockView := by
  unfold State.stkReadLine
  split <;> simp only [drainedAccess_lockView, checkWord_lockView, foldl_lockView, implies_true]

theorem stkWord_lockView (port a : Nat) (part : List Byte) (poison : Bool) :
    (s.stkWord port a part poison).lockView = s.lockView := by
  simp only [State.stkWord, stkFault_lockView, wholeMark_lockView, stkErr_lockView, dropWriteback_lockView, lockView_mk,
    lockView_ite, ite_self]

theorem stkWriteLine_lockView (a : Nat) (bs : List Byte) (mask : Nat) :
    (s.stkWriteLine a bs mask).lockView = s.lockView := by
  unfold State.stkWriteLine
  split <;> simp only [discardedWrite_lockView, drainedAccess_lockView, stkWord_lockView, foldl_lockView, implies_true]

theorem d2h_lockView (req la : Nat) : (s.d2h req la).lockView = s.lockView := by
  simp only [State.d2h, emit_lockView]

theorem homeRead_lockView (host : Bool) (la : Nat) : (s.homeRead host la).1.lockView = s.lockView := by
  simp only [State.homeRead, stkReadLine_lockView, d2h_lockView, lockView_fst_ite, ite_self]

theorem homeWrite_lockView (host : Bool) (a : Nat) (bs : List Byte) (mask : Nat) :
    (s.homeWrite host a bs mask).lockView = s.lockView := by
  simp only [State.homeWrite, stkWriteLine_lockView, d2h_lockView, lockView_mk, lockView_ite, ite_self]

theorem cacheFault_lockView (kind unit inst way addr : Nat) :
    (s.cacheFault kind unit inst way addr).lockView = s.lockView := by
  simp only [State.cacheFault, fault_lockView]

theorem bsnInject_lockView (host : Bool) (la word : Nat) : (s.bsnInject host la word).lockView = s.lockView := by
  unfold State.bsnInject
  refine lockView_cond ?_ rfl
  split <;> simp only [setBit_lockView (o := CMX_INJ) (by decide), putLine_lockView]

theorem basinCheck_lockView (host : Bool) (la : Nat) : (s.basinCheck host la).lockView = s.lockView := by
  unfold State.basinCheck
  split
  · rfl
  · refine lockView_cond (lockView_cond ?_ rfl) ?_
    · simp only [cacheFault_lockView, putLine_lockView]
    · dsimp only
      split <;> simp only [setBit_lockView (o := CMX_ERR) (by decide), cacheFault_lockView, putLine_lockView,
        homeRead_lockView, lockView_ite, ite_self]

theorem ageSet_lockView (p set n : Nat) : (s.ageSet p set n).lockView = s.lockView := by
  simp only [State.ageSet, lockView_mk]

theorem drainLine_lockView (host : Bool) (la : Nat) : (s.drainLine host la).lockView = s.lockView := by
  unfold State.drainLine
  split <;> simp only [homeWrite_lockView, lockView_mk, lockView_ite, ite_self]

theorem victimRoom_lockView (p : Nat) : (s.victimRoom p).lockView = s.lockView := by
  unfold State.victimRoom
  dsimp only
  split <;> simp only [drainLine_lockView, lockView_ite, ite_self]

theorem evictLine_lockView (host : Bool) (la : Nat) : (s.evictLine host la).lockView = s.lockView := by
  unfold State.evictLine
  dsimp only
  split <;> simp only [victimRoom_lockView, putLine_lockView, recallHost_lockView, recall_lockView, dropCopies_lockView,
    lockView_mk, lockView_ite, ite_self]

theorem placeLine_lockView (host : Bool) (la : Nat) : (s.placeLine host la).1.lockView = s.lockView := by
  unfold State.placeLine
  dsimp only
  split
  · rfl
  · refine lockView_cond ?_ ?_
    · split <;> simp only [evictLine_lockView, ageSet_lockView, lockView_ite, ite_self]
    · simp only [ageSet_lockView, lockView_ite, ite_self]

theorem fillLine_lockView (host : Bool) (la age : Nat) : (s.fillLine host la age).lockView = s.lockView := by
  unfold State.fillLine
  split
  · refine lockView_cond (putLine_lockView ..) ?_
    dsimp only
    split
    · next h => simp only [lockView_mk]; exact (congrArg (State.lockView ∘ Prod.fst) h).symm.trans (placeLine_lockView
      ..)
    · rfl
  · split
    · next h => exact (congrArg (State.lockView ∘ Prod.fst) h).symm.trans (placeLine_lockView ..)
    · next h =>
      simp only [bsnInject_lockView, lockView_mk, homeRead_lockView]
      exact (congrArg (State.lockView ∘ Prod.fst) h).symm.trans (placeLine_lockView ..)

theorem loseResv_lockView (k : Nat) (host : Bool) (la : Nat) : (s.loseResv k host la).lockView = s.lockView := by
  simp only [State.loseResv, modLk_lockView, lockView_ite, ite_self]

theorem removeCopy_lockView (agent : Nat) (host : Bool) (la : Nat) :
    (s.removeCopy agent host la).lockView = s.lockView := by
  simp only [State.removeCopy, loseResv_lockView, lockView_mk, lockView_ite, ite_self]

theorem writeBack_lockView (agent : Nat) (host : Bool) (la : Nat) :
    (s.writeBack agent host la).lockView = s.lockView := by
  unfold State.writeBack
  split <;> simp only [recall_lockView, removeCopy_lockView, lockView_mk, lockView_ite, ite_self]

theorem copyRoom_lockView (agent : Nat) : (s.copyRoom agent).lockView = s.lockView := by
  unfold State.copyRoom
  dsimp only
  split <;> simp only [writeBack_lockView, lockView_ite, ite_self]

theorem evictCopy_lockView (c : Copy) : (s.evictCopy c).lockView = s.lockView := by
  simp only [State.evictCopy, copyRoom_lockView, putCopy_lockView, loseResv_lockView, lockView_mk, lockView_ite,
    ite_self]

theorem snoopOwner_lockView (host : Bool) (la : Nat) (o : Nat → Nat → Out) :
    (s.snoopOwner host la o).lockView = s.lockView := by
  unfold State.snoopOwner
  split <;> simp only [emit_lockView, lockView_ite, ite_self]

theorem ncReadLine_lockView (host : Bool) (la : Nat) : (s.ncReadLine host la).1.lockView = s.lockView := by
  unfold State.ncReadLine
  dsimp only
  split
  · exact snoopOwner_lockView ..
  · split <;> simp only [basinCheck_lockView, fillLine_lockView, homeRead_lockView, snoopOwner_lockView]

theorem ncRead_lockView (host : Bool) (a n : Nat) : (s.ncRead host a n).1.lockView = s.lockView := by
  refine foldl_fst_lockView (fun r la => ?_) _ _
  exact ncReadLine_lockView r.1 host la

theorem bsnWrite_lockView (host : Bool) (la off : Nat) (bs : List Byte) (poison dirty : Bool) :
    (s.bsnWrite host la off bs poison dirty).lockView = s.lockView := by
  simp only [State.bsnWrite, mergeLine_lockView, bsnInject_lockView]

theorem purge_lockView (host : Bool) (la : Nat) (keep : Option Nat) : (s.purge host la keep).lockView = s.lockView := by
  unfold State.purge
  dsimp only
  split <;> simp only [putLine_lockView, dropCopies_lockView, recall_lockView, recallHost_lockView]

theorem ncWriteLine_lockView (host : Bool) (a attr : Nat) (bs : List Byte) (poison : Bool) (keep : Option Nat) :
    (s.ncWriteLine host a attr bs poison keep).lockView = s.lockView := by
  unfold State.ncWriteLine
  dsimp only
  split <;> simp only [hostWrite_lockView, homeWrite_lockView, bsnWrite_lockView, putLine_lockView, purge_lockView,
    lockView_ite, ite_self]

theorem ncWrite_lockView (host : Bool) (a attr : Nat) (bs : PBytes) (keep : Option Nat) :
    (s.ncWrite host a attr bs keep).lockView = s.lockView := by
  simp only [State.ncWrite, ncWriteLine_lockView, foldl_lockView, implies_true]

theorem flagStore_lockView (host : Bool) (a : Nat) (bs : List Byte) :
    (s.flagStore host a bs).lockView = s.lockView := by
  simp only [State.flagStore, ncWrite_lockView, hostWrite_lockView, lockView_ite, ite_self]

theorem markRead_lockView (host : Bool) (a n : Nat) : (s.markRead host a n).lockView = s.lockView := by
  simp only [State.markRead, ncRead_lockView, lockView_ite, ite_self]

theorem ucWrite_lockView (host : Bool) (a : Nat) (bs : PBytes) : (s.ucWrite host a bs).lockView = s.lockView := by
  simp only [State.ucWrite, stkWriteLine_lockView, hostWrite_lockView, foldl_lockView, implies_true, lockView_ite,
    ite_self]

theorem ucRead_lockView (host : Bool) (a n : Nat) : (s.ucRead host a n).1.lockView = s.lockView := by
  refine foldl_fst_lockView (fun r la => ?_) _ _
  simp only [lockView_fst_ite, stkReadLine_lockView, ite_self]

theorem pageRead_lockView (host : Bool) (attr a n : Nat) : (s.pageRead host attr a n).1.lockView = s.lockView := by
  simp only [State.pageRead, ncRead_lockView, ucRead_lockView, lockView_fst_ite, ite_self]

theorem pageWrite_lockView (host : Bool) (attr a : Nat) (bs : PBytes) :
    (s.pageWrite host attr a bs).lockView = s.lockView := by
  simp only [State.pageWrite, ncWrite_lockView, ucWrite_lockView, lockView_ite, ite_self]

theorem setShr_lockView (frame : Nat) (shr : Bool) : (s.setShr frame shr).lockView = s.lockView := by
  simp only [State.setShr, lockView_mk]

theorem cleanLine_lockView (host : Bool) (la : Nat) : (s.cleanLine host la).lockView = s.lockView := by
  unfold State.cleanLine
  dsimp only
  cases s.mCopy host la <;> dsimp only <;> split <;> simp only [lockView_mk, putLine_lockView, homeWrite_lockView,
    basinCheck_lockView, putCopy_lockView, recall_lockView, lockView_ite, ite_self]

theorem discardLine_lockView (host : Bool) (la : Nat) : (s.discardLine host la).lockView = s.lockView := by
  simp only [State.discardLine, cancelResv_lockView, lockView_mk]

/-! #### Access checks and the table walk (R571 to R583) -/

theorem actDeny_lockView (target master need addr slot : Nat) :
    (s.actDeny target master need addr slot).lockView = s.lockView := by
  simp only [State.actDeny, setReg_lockView (o := ACT_LOG0) (by decide), setReg_lockView (o := ACT_LOG1) (by decide),
    fault_lockView]

theorem actCheck_lockView (target master need addr : Nat) :
    (s.actCheck target master need addr).1.lockView = s.lockView := by
  simp only [State.actCheck, actDeny_lockView, lockView_fst_ite, ite_self]

theorem hdmCheck_lockView (master need dpa n : Nat) : (s.hdmCheck master need dpa n).1.lockView = s.lockView := by
  unfold State.hdmCheck
  split <;> simp only [actDeny_lockView]

theorem readEntry_lockView (unit dpa : Nat) : (s.readEntry unit dpa).1.lockView = s.lockView := by
  simp only [State.readEntry, setBit_lockView (o := XLT_ERR) (by decide), report_lockView, ncRead_lockView,
    lockView_fst_ite, ite_self]

theorem walkFrom_lockView (unit va tbl level : Nat) : (s.walkFrom unit va tbl level).1.lockView = s.lockView := by
  induction level generalizing s tbl with
  | zero => rfl
  | succ level ih =>
    simp only [State.walkFrom, lockView_fst_ite, ih, readEntry_lockView, actCheck_lockView, ite_self]

/-- The walk's three calls are named, so that the kernel compares names and does not run them. -/
theorem walk_lockView (unit ctx va : Nat) : (s.walk unit ctx va).1.lockView = s.lockView := by
  obtain ⟨r, hr⟩ : ∃ r, r = s.walk unit ctx va := ⟨_, rfl⟩
  obtain ⟨walkFrom, hw⟩ : ∃ f, f = @State.walkFrom := ⟨_, rfl⟩
  obtain ⟨c, hc⟩ : ∃ c, c = s.actCheck (tgtHdm (s.rootAddr ctx)) MID_WALKER NEED_R (s.rootAddr ctx) := ⟨_, rfl⟩
  obtain ⟨e, he⟩ : ∃ e, e = c.1.readEntry unit (s.rootAddr ctx) := ⟨_, rfl⟩
  have hcv : c.1.lockView = s.lockView := by rw [hc, actCheck_lockView]
  have hev : e.1.lockView = s.lockView := by rw [he, readEntry_lockView, hcv]
  rw [← hr]
  unfold State.walk at hr
  rw [← hw] at hr
  dsimp only at hr
  rw [← hc, ← he] at hr
  split at hr
  · rw [hr, hcv]
  · split at hr
    · rw [hr, hev]
    · rw [hr, hw, walkFrom_lockView, hev]

theorem tlbFill_lockView (unit ctx va level entry : Nat) :
    (s.tlbFill unit ctx va level entry).lockView = s.lockView := by
  simp only [State.tlbFill, setBit_lockView (o := XLT_INJ) (by decide), lockView_mk, lockView_ite, ite_self]

/-- The walk is named, as in `walk_lockView`. -/
theorem lookup_lockView (unit ctx va : Nat) : (s.lookup unit ctx va).1.lockView = s.lockView := by
  obtain ⟨r, hr⟩ : ∃ r, r = s.lookup unit ctx va := ⟨_, rfl⟩
  obtain ⟨walk, hw⟩ : ∃ f, f = @State.walk := ⟨_, rfl⟩
  have hwalk (t : State) (u c v : Nat) : (walk t u c v).1.lockView = t.lockView := by rw [hw, walk_lockView]
  rw [← hr]
  unfold State.lookup at hr
  rw [← hw] at hr
  split at hr
  · rw [hr]
  · generalize s.xlt.tlb.find? (fun t => t.serves unit ctx va) = hit at hr
    cases hit with
    | none =>
      dsimp only at hr
      split at hr
      · next h => rw [hr, tlbFill_lockView, ← hwalk s unit ctx va, h]
      · rw [hr, hwalk]
    | some e =>
      dsimp only at hr
      split at hr
      · split at hr
        · next h =>
          have h := (congrArg (fun r => r.1.lockView) h).symm
          simp only [hwalk, report_lockView, setBit_lockView (o := XLT_ERR) (by decide), lockView_mk] at h
          rw [hr, tlbFill_lockView, h]
        · simp only [hr, hwalk, report_lockView, setBit_lockView (o := XLT_ERR) (by decide), lockView_mk]
      · rw [hr]

theorem xlate_lockView (unit ctx master need : Nat) (write : Bool) (fuel va n : Nat) :
    (s.xlate unit ctx master need write fuel va n).1.lockView = s.lockView := by
  induction fuel generalizing s va n with
  | zero => rfl
  | succ fuel ih =>
    unfold State.xlate
    split
    · rfl
    · have hl := lookup_lockView s unit ctx va
      split
      · next h => rw [h] at hl; exact (ih ..).trans hl
      · next h =>
        rw [h] at hl
        dsimp only
        split <;> exact (ih ..).trans hl

theorem xlateExtent_lockView (unit ctx master need : Nat) (write : Bool) (va n : Nat) :
    (s.xlateExtent unit ctx master need write va n).1.lockView = s.lockView := xlate_lockView ..

theorem posted_lockView (r : XltRec) : (s.posted r).lockView = s.lockView := by
  simp only [State.posted, lockView_mk, lockView_ite, ite_self]

theorem writeFr_lockView {r : XltRec} {t : State} (h : s.writeFr r = some t) : t.lockView = s.lockView := by
  unfold State.writeFr at h
  dsimp only at h
  split at h
  · cases h
  · cases h; exact flagStore_lockView ..

theorem postFaults_lockView : s.postFaults.lockView = s.lockView := by
  unfold State.postFaults
  obtain ⟨writeFr, hw⟩ : ∃ f, f = @State.writeFr := ⟨_, rfl⟩
  rw [← hw]
  simp only [lockView_ite, irq_lockView, lockView_mk, ite_self]
  rw [foldl_lockView _ (fun t r => ?_)]
  · split
    · rfl
    · split
      · next h => subst hw; rw [lockView_mk, writeFr_lockView _ h]
      · rfl
  · refine lockView_cond (setBit_lockView (by decide) ..) ?_
    split
    · next h => subst hw; rw [posted_lockView, writeFr_lockView _ h]
    · exact setBit_lockView (by decide) ..

theorem recordFail_lockView (ctx engines slot : Nat) (f : XFail) :
    (s.recordFail ctx engines slot f).lockView = s.lockView := by
  simp only [State.recordFail, postFaults_lockView, lockView_mk, lockView_ite, ite_self]

theorem unpost_lockView (ctx va n : Nat) : (s.unpost ctx va n).lockView = s.lockView := by
  simp only [State.unpost, lockView_mk]

theorem flushTlb_lockView (ctx va n : Nat) : (s.flushTlb ctx va n).lockView = s.lockView := by
  simp only [State.flushTlb, lockView_mk]

theorem countBlock_lockView (ctx block n : Nat) (wr : Bool) : (s.countBlock ctx block n wr).lockView = s.lockView := by
  simp only [State.countBlock, lockView_mk]

theorem countSeg_lockView (ctx : Nat) (g : XSeg) (wr : Bool) : (s.countSeg ctx g wr).lockView = s.lockView := by
  simp only [State.countSeg, countBlock_lockView, foldl_lockView, implies_true, lockView_ite, ite_self]

theorem postHot_lockView : s.postHot.lockView = s.lockView := by
  simp only [State.postHot, setBit_lockView (o := XLT_ERR) (by decide), irq_lockView, flagStore_lockView,
    foldl_lockView, implies_true, lockView_mk, lockView_ite, ite_self]

/-! #### Page tables -/

theorem writeEntry_lockView {a e : Nat} {t : State} (h : s.writeEntry a e = .inl t) : t.lockView = s.lockView := by
  unfold State.writeEntry at h
  split at h
  · cases h; exact ncWrite_lockView ..
  · cases h

theorem returnPage_lockView (dpa : Nat) : (s.returnPage dpa).lockView = s.lockView := by
  simp only [State.returnPage, lockView_mk]

theorem takePage_lockView {va p : Nat} {t : State} (h : s.takePage va = .inl (t, p)) : t.lockView = s.lockView := by
  unfold State.takePage at h
  dsimp only at h
  split at h
  · cases h
  · split at h
    · cases h
    · obtain ⟨rfl, -⟩ := Prod.mk.inj (Sum.inl.inj h)
      rw [lockView_mk, ncWrite_lockView]

theorem mapAt_lockView {unit va leaf target tbl level : Nat} {t : State}
    (h : s.mapAt unit va leaf target tbl level = .inl t) : t.lockView = s.lockView := by
  induction level generalizing s tbl with
  | zero => cases h
  | succ level ih =>
    have hr := readEntry_lockView s unit (tbl + 8 * vaIndex va level)
    unfold State.mapAt at h
    dsimp only at h
    generalize s.readEntry unit (tbl + 8 * vaIndex va level) = r at h hr
    split at h
    · split at h
      · split at h
        · split at h
          · next hw => cases h; rw [writeEntry_lockView _ hw, returnPage_lockView, hr]
          · cases h
        · cases h
      · split at h
        · next hw => cases h; rw [writeEntry_lockView _ hw, hr]
        · cases h
    · split at h
      · rw [ih _ h, hr]
      · split at h
        · cases h
        · split at h
          · cases h
          · next hp =>
            split at h
            · cases h
            · next hq =>
              split at hq
              · next hw => cases hq; rw [ih _ h, writeEntry_lockView _ hw, takePage_lockView _ hp, hr]
              · cases hq

theorem rootTable_lockView {unit ctx va p : Nat} {t : State} (h : s.rootTable unit ctx va = .inl (t, p)) :
    t.lockView = s.lockView := by
  have hr := readEntry_lockView s unit (s.rootAddr ctx)
  obtain ⟨takePage, ht⟩ : ∃ f, f = @State.takePage := ⟨_, rfl⟩
  obtain ⟨writeEntry, hw⟩ : ∃ f, f = @State.writeEntry := ⟨_, rfl⟩
  unfold State.rootTable at h
  rw [← ht, ← hw] at h
  generalize s.readEntry unit (s.rootAddr ctx) = r at h hr
  dsimp only at h
  split at h
  · cases h; exact hr
  · split at h
    · cases h
    · next hp =>
      split at h
      · next hx => subst ht hw; cases h; rw [writeEntry_lockView _ hx, takePage_lockView _ hp, hr]
      · cases h

theorem biasFrame_lockView (f : Nat) (shr : Bool) : (s.biasFrame f shr).lockView = s.lockView := by
  unfold State.biasFrame
  refine lockView_cond (setShr_lockView ..) ?_
  split
  · exact setShr_lockView ..
  · exact foldl_lockView s (fun _ _ => snoopHost_lockView ..) _

/-- Induction along a structural recursion over `Nat`, from its functional. -/
theorem brecOn_induction {motive : Nat → Type} {F : (n : Nat) → Nat.below (motive := motive) n → motive n}
    {P : (n : Nat) → motive n → Prop}
    (step : ∀ n (B : Nat.below (motive := motive) n), (∀ k (h : n = k + 1), P k (h ▸ B).1) → P n (F n B)) (n : Nat) :
    P n (Nat.brecOn n F) := by
  induction n with
  | zero => exact step 0 _ fun k h => nomatch h
  | succ n ih => exact step (n + 1) _ fun k h => by cases h; exact ih

/-- The recursion as its functional at a depth that is a variable: the equations of the function would set the kernel to
run `mapAt` on the depth that they write out. -/
theorem mapLeaves_eq_brecOn (s : State) (unit ctx page first entry n va : Nat) :
    s.mapLeaves unit ctx page first entry n va = Nat.brecOn (motive := fun _ => State → Nat → Nat → State ⊕ XltStop) n
      (State.mapLeaves._f unit ctx page first) s entry va := by
  delta State.mapLeaves; rfl

theorem mapLeaves_lockView {unit ctx page first entry n va : Nat} {t : State}
    (h : s.mapLeaves unit ctx page first entry n va = .inl t) : t.lockView = s.lockView := by
  rw [mapLeaves_eq_brecOn] at h
  refine brecOn_induction (motive := fun _ => State → Nat → Nat → State ⊕ XltStop)
    (F := State.mapLeaves._f unit ctx page first)
    (P := fun _ f => ∀ s entry va t, f s entry va = .inl t → t.lockView = s.lockView)
    (fun n below ih s entry va t h => ?_) n s entry va t h
  replace h : State.mapLeaves._f unit ctx page first n below s entry va = .inl t := h
  delta State.mapLeaves._f at h
  obtain ⟨mapAt, hm⟩ : ∃ f, f = @State.mapAt := ⟨_, rfl⟩
  obtain ⟨rootTable, hr⟩ : ∃ f, f = @State.rootTable := ⟨_, rfl⟩
  rw [← hm, ← hr] at h
  cases n with
  | zero => cases h; rfl
  | succ n =>
    dsimp only at h
    split at h
    · cases h
    · next hroot =>
      split at h
      · cases h
      · next hmap =>
        subst hm hr
        rw [ih n rfl _ _ _ _ h]
        simp only [foldl_lockView, biasFrame_lockView, implies_true, lockView_ite, ite_self]
        rw [mapAt_lockView _ hmap, rootTable_lockView _ hroot]

theorem unmapAt_lockView {unit va target tbl level : Nat} {t : State} {b : Bool}
    (h : s.unmapAt unit va target tbl level = .inl (t, b)) : t.lockView = s.lockView := by
  induction level generalizing s tbl t b with
  | zero => cases h
  | succ level ih =>
    have hr := readEntry_lockView s unit (tbl + 8 * vaIndex va level)
    unfold State.unmapAt at h
    dsimp only at h
    generalize s.readEntry unit (tbl + 8 * vaIndex va level) = r at h hr
    split at h
    · cases h; exact hr
    · split at h
      · split at h
        · split at h
          · cases h; exact hr
          · cases h
        · split at h
          · next hw => cases h; rw [markRead_lockView, writeEntry_lockView _ hw, hr]
          · cases h
      · split at h
        · cases h
        · split at h
          · cases h
          · next hu => cases h; rw [ih _ hu, hr]
          · next hu =>
            split at h
            · next hw => cases h; rw [markRead_lockView, writeEntry_lockView _ hw, returnPage_lockView, ih _ hu, hr]
            · cases h

/-- As `mapLeaves_eq_brecOn`. -/
theorem unmapLeaves_eq_brecOn (s : State) (unit ctx page n va : Nat) :
    s.unmapLeaves unit ctx page n va = Nat.brecOn (motive := fun _ => State → Nat → State ⊕ XltStop) n
      (State.unmapLeaves._f unit ctx page) s va := by
  delta State.unmapLeaves; rfl

theorem unmapLeaves_lockView {unit ctx page n va : Nat} {t : State}
    (h : s.unmapLeaves unit ctx page n va = .inl t) : t.lockView = s.lockView := by
  rw [unmapLeaves_eq_brecOn] at h
  refine brecOn_induction (motive := fun _ => State → Nat → State ⊕ XltStop)
    (F := State.unmapLeaves._f unit ctx page)
    (P := fun _ f => ∀ s va t, f s va = .inl t → t.lockView = s.lockView)
    (fun n below ih s va t h => ?_) n s va t h
  replace h : State.unmapLeaves._f unit ctx page n below s va = .inl t := h
  delta State.unmapLeaves._f at h
  obtain ⟨readEntry, hr⟩ : ∃ f, f = @State.readEntry := ⟨_, rfl⟩
  obtain ⟨unmapAt, hu⟩ : ∃ f, f = @State.unmapAt := ⟨_, rfl⟩
  obtain ⟨writeEntry, hw⟩ : ∃ f, f = @State.writeEntry := ⟨_, rfl⟩
  rw [← hr, ← hu, ← hw] at h
  cases n with
  | zero => cases h; rfl
  | succ n =>
    have hs : (readEntry s unit (s.rootAddr ctx)).1.lockView = s.lockView := by rw [hr, readEntry_lockView]
    dsimp only at h
    split at h
    · rw [ih n rfl _ _ _ h, hs]
    · split at h
      · cases h
      · next hv =>
        subst hu hw
        have hv := (unmapAt_lockView _ hv).trans hs
        rw [ih n rfl _ _ _ h]
        refine lockView_cond ?_ hv
        split
        · next hx => rw [returnPage_lockView, writeEntry_lockView _ hx, hv]
        · exact hv

theorem dropContextXlt_lockView (ctx : Nat) : (s.dropContextXlt ctx).lockView = s.lockView := by
  simp only [State.dropContextXlt, ncWrite_lockView, markRead_lockView, returnPage_lockView, foldl_lockView,
    implies_true, lockView_mk, lockView_ite, ite_self]

/-! #### What waits at the home, host reads and store buffers -/

theorem askHost_lockView (t : Touch) : (s.askHost t).lockView = s.lockView := by
  unfold State.askHost
  split <;> simp only [snoopHost_lockView, lockView_ite, ite_self]

theorem atHome_lockView {act : State → State} (hact : ∀ t, (act t).lockView = t.lockView) (c : HeldReq)
    (lk : Option Nat) (ts : List Touch) : (s.atHome c lk ts act).lockView = s.lockView := by
  simp only [State.atHome, hact, lockView_mk, foldl_lockView, askHost_lockView, implies_true, lockView_ite, ite_self]

theorem askAll_lockView (ts : List Touch) : (s.askAll ts).lockView = s.lockView := by
  simp only [State.askAll, askHost_lockView, foldl_lockView, implies_true]

theorem doNonCachingWrite_lockView (host : Bool) (addr attr : Nat) (bytes : List Byte) (poison : Bool) :
    (s.doNonCachingWrite host addr attr bytes poison).lockView = s.lockView := by
  simp only [State.doNonCachingWrite, pageWrite_lockView, atHome_lockView, implies_true]

theorem flagAtHome_lockView (host : Bool) (a : Nat) (bs : List Byte) :
    (s.flagAtHome host a bs).lockView = s.lockView := by
  simp only [State.flagAtHome, doNonCachingWrite_lockView, flagStore_lockView, lockView_ite, ite_self]

theorem sendRead_lockView (r : IoRead) (tag : Nat) : (s.sendRead r tag).lockView = s.lockView := by
  simp only [State.sendRead, emit_lockView, lockView_mk]

theorem pumpReads_lockView (fuel : Nat) : (s.pumpReads fuel).lockView = s.lockView := by
  induction fuel generalizing s with
  | zero => rfl
  | succ fuel ih =>
    unfold State.pumpReads
    split
    · refine lockView_cond ?_ rfl
      rw [ih, sendRead_lockView, lockView_mk]
    · rfl

theorem ioRequest_lockView (user : IoUser) (a n : Nat) : (s.ioRequest user a n).lockView = s.lockView := by
  simp only [State.ioRequest, pumpReads_lockView, lockView_mk]

theorem moorEnd_lockView (code : Nat) : (s.moorEnd code).lockView = s.lockView := by
  simp only [State.moorEnd, setBit_lockView (o := CMX_MOOR) (by decide), setFld_lockView (o := CMX_MOOR) (by decide),
    lockView_mk]

theorem cleanMoored_lockView (req : Nat) : (s.cleanMoored req).lockView = s.lockView := by
  simp only [State.cleanMoored, cleanLine_lockView, purge_lockView, discardLine_lockView, foldl_lockView, implies_true]

theorem throughStore_lockView (k : Nat) (host : Bool) (attr a : Nat) (bs : List Byte) :
    (s.throughStore k host attr a bs).lockView = s.lockView := by
  simp only [State.throughStore, fillLine_lockView, ncWriteLine_lockView, ucWrite_lockView, lockView_ite, ite_self]

theorem performStore_lockView (k : Nat) (e : SbEntry) : (s.performStore k e).lockView = s.lockView := by
  simp only [State.performStore, fault_lockView, hdmCheck_lockView, throughStore_lockView, foldl_lockView, implies_true,
    lockView_ite, ite_self]

theorem doDrain_lockView (k : Nat) : (s.doDrain k).lockView = s.lockView := by
  unfold State.doDrain
  split <;> simp only [modLk_lockView, performStore_lockView, atHome_lockView, implies_true, lockView_ite, ite_self]

theorem drainSome_lockView (k n : Nat) : (s.drainSome k n).lockView = s.lockView := by
  induction n generalizing s with
  | zero => rfl
  | succ n ih => simp only [State.drainSome, ih, doDrain_lockView, lockView_ite, ite_self]

theorem drainAll_lockView (k : Nat) : (s.drainAll k).lockView = s.lockView := drainSome_lockView ..

/-! #### Rings and what their commands wait for -/

theorem ringWrite_lockView (c : Nat) (x : Ring) (off : Nat) (bs : List Byte) :
    (s.ringWrite c x off bs).1.lockView = s.lockView := by
  simp only [State.ringWrite, flagAtHome_lockView, hdmCheck_lockView, lockView_fst_ite, ite_self]

theorem putRecord_lockView (c : Nat) (e : List Byte × Bool) : (s.putRecord c e).1.lockView = s.lockView := by
  simp only [State.putRecord, sendVec_lockView, setRing_lockView, ringWrite_lockView, lockView_ite, lockView_fst_ite,
    ite_self]

theorem holdRecord_lockView (c : Nat) (e : List Byte × Bool) : (s.holdRecord c e).lockView = s.lockView := by
  simp only [State.holdRecord, setBit_lockView (o := RNG_ERR) (by decide), setRing_lockView]

theorem tryRecord_lockView (c : Nat) (e : List Byte × Bool) : (s.tryRecord c e).1.lockView = s.lockView := by
  simp only [State.tryRecord, holdRecord_lockView, putRecord_lockView, lockView_fst_ite, ite_self]

theorem advance_lockView (c r : Nat) : (s.advance c r).lockView = s.lockView := by
  simp only [State.advance, setRing_lockView]

theorem endQuiet_lockView (c r seq flags : Nat) (f : Fin) : (s.endQuiet c r seq flags f).lockView = s.lockView := by
  simp only [State.endQuiet, tryRecord_lockView, advance_lockView, lockView_ite, ite_self]

theorem watchLine_lockView (host : Bool) (la : Nat) : (s.watchLine host la).1.lockView = s.lockView := by
  unfold State.watchLine
  dsimp only
  split <;> simp only [fillLine_lockView, putLine_lockView, lockView_fst_ite, ite_self]

theorem unwatchLine_lockView (host : Bool) (la : Nat) : (s.unwatchLine host la).lockView = s.lockView := by
  unfold State.unwatchLine
  split <;> simp only [putLine_lockView]

theorem dropWatch_lockView (host : Bool) (la : Nat) : (s.dropWatch host la).lockView = s.lockView := by
  simp only [State.dropWatch, unwatchLine_lockView, lockView_ite, ite_self]

theorem endWatch_lockView (w : Wait) : (s.endWatch w).lockView = s.lockView := by
  unfold State.endWatch
  split <;> simp only [dropWatch_lockView, lockView_ite, ite_self]

theorem watchFence_lockView (g : XSeg) : (s.watchFence g).1.lockView = s.lockView := by
  simp only [State.watchFence, watchLine_lockView, lockView_fst_ite, ite_self]

theorem haltOrder_lockView (k : Nat) (release : Bool) : (s.haltOrder k release).lockView = s.lockView := by
  simp only [State.haltOrder, orderTag_lockView, modFlight_lockView, lockView_ite, ite_self]

theorem abortWaits_lockView (p : Wait → Bool) (f : Fin) : (s.abortWaits p f).lockView = s.lockView := by
  simp only [State.abortWaits, endWatch_lockView, endQuiet_lockView, foldl_lockView, implies_true, lockView_mk]

theorem haltRings_lockView : s.haltRings.lockView = s.lockView := by
  simp only [State.haltRings, setBit_lockView (o := FLT_RESET) (by decide), abortWaits_lockView, lockView_mk]

theorem abortContext_lockView (c : Nat) : (s.abortContext c).lockView = s.lockView := by
  simp only [State.abortContext, haltOrder_lockView, abortWaits_lockView, setContext_lockView, haltFault_lockView,
    haltRings_lockView, foldl_lockView, implies_true, lockView_ite, ite_self]

theorem drainAborts_lockView : s.drainAborts.lockView = s.lockView := by
  simp only [State.drainAborts, haltRings_lockView, abortContext_lockView, foldl_lockView, implies_true, lockView_mk,
    lockView_ite, ite_self]

theorem ctxFault_lockView (c : Nat) : (s.ctxFault c).lockView = s.lockView := by
  simp only [State.ctxFault, abortContext_lockView, fault_lockView, haltRings_lockView, lockView_mk, lockView_ite,
    ite_self]

theorem post_lockView (c r seq flags : Nat) (f : Fin) : (s.post c r seq flags f).lockView = s.lockView := by
  simp only [State.post, ctxFault_lockView, tryRecord_lockView, lockView_ite, ite_self]

theorem endCmd_lockView (c r seq flags : Nat) (f : Fin) : (s.endCmd c r seq flags f).lockView = s.lockView := by
  simp only [State.endCmd, post_lockView, advance_lockView, lockView_ite, ite_self]

theorem fin_lockView (k : Cmd) (f : Fin) : (s.fin k f).lockView = s.lockView := by
  simp only [State.fin, endCmd_lockView]

theorem await_lockView (k : Cmd) (w : WaitKind) (uses : List (Nat × Nat × Nat) := []) :
    (s.await k w uses).lockView = s.lockView := by
  simp only [State.await, lockView_mk]

theorem awaitFence_lockView (k : Cmd) (ctx : Nat) (g : XSeg) (value deadline : Nat) :
    (s.awaitFence k ctx g value deadline).lockView = s.lockView := by
  simp only [State.awaitFence, watchFence_lockView, lockView_mk]

theorem finish_lockView (w : Wait) (f : Fin) : (s.finish w f).lockView = s.lockView := by
  simp only [State.finish, endWatch_lockView, endCmd_lockView, lockView_mk]

/-! #### Ring commands (R484 to R514): the checks, then each command -/

theorem wellFormed_lockView {act : State → State} (hact : ∀ t, (act t).lockView = t.lockView) (k : Cmd)
    (bad : List (Bool × Nat)) : (s.wellFormed k bad act).lockView = s.lockView := by
  unfold State.wellFormed
  dsimp only
  split <;> simp only [fin_lockView, hact]

theorem readObj_lockView (c i : Nat) : (s.readObj c i).1.lockView = s.lockView := by
  simp only [State.readObj, setBit_lockView (o := RNG_ERR) (by decide), markRead_lockView, hdmCheck_lockView,
    lockView_fst_ite, ite_self]

theorem object_lockView (c handle need : Nat) (own : Bool) : (s.object c handle need own).1.lockView = s.lockView := by
  have h := readObj_lockView s c (handle / 4096)
  unfold State.object
  dsimp only
  split
  · rfl
  · split
    · next e => rwa [e] at h
    · next e => rw [e] at h; simp only [lockView_fst_ite, ite_self, h]

theorem withObj_lockView {act : State → Obj → State} (hact : ∀ t o, (act t o).lockView = t.lockView) (k : Cmd)
    (handle need : Nat) (own : Bool) : (s.withObj k handle need own act).lockView = s.lockView := by
  have h := object_lockView s k.c handle need own
  unfold State.withObj
  split
  · next e => rw [e] at h; rw [hact, h]
  · next e => rw [e] at h; rw [fin_lockView, h]

theorem reportRing_lockView (c ctx : Nat) (write : Bool) (fs : List XFail) :
    (s.reportRing c ctx write fs).lockView = s.lockView := by
  refine foldl_lockView s (fun t f => ?_) _
  split <;> simp only [actDeny_lockView, recordFail_lockView, lockView_ite, ite_self]

theorem ringXlate_lockView (c : Nat) (o : Obj) (off n need : Nat) (write : Bool) :
    (s.ringXlate c o off n need write).1.lockView = s.lockView := by
  unfold State.ringXlate
  dsimp only
  split <;> simp only [reportRing_lockView, xlateExtent_lockView]

theorem withExtent_lockView {act : State → List XSeg → State} (hact : ∀ t gs, (act t gs).lockView = t.lockView)
    (k : Cmd) (o : Obj) (off n need : Nat) (write : Bool) :
    (s.withExtent k o off n need write act).lockView = s.lockView := by
  have h := ringXlate_lockView s k.c o off n need write
  unfold State.withExtent
  split
  · next e => rw [e] at h; rw [hact, h]
  · next e => rw [e] at h; rw [fin_lockView, h]

theorem readSegs_lockView (ctx : Nat) (gs : List XSeg) : (s.readSegs ctx gs).1.lockView = s.lockView := by
  refine foldl_fst_lockView (fun r g => ?_) _ _
  simp only [pageRead_lockView, countSeg_lockView]

theorem writeSegs_lockView (ctx : Nat) (gs : List XSeg) (bs : PBytes) :
    (s.writeSegs ctx gs bs).lockView = s.lockView := by
  refine foldl_fst_lockView (fun r g => ?_) _ (s, bs)
  simp only [pageWrite_lockView, countSeg_lockView]

theorem stickPoison_lockView (c r : Nat) (bs : PBytes) : (s.stickPoison c r bs).lockView = s.lockView := by
  simp only [State.stickPoison, setRing_lockView, lockView_ite, ite_self]

theorem doNop_lockView (k : Cmd) : (s.doNop k).lockView = s.lockView :=
  wellFormed_lockView s (fun t => fin_lockView t ..) ..

theorem seeFence_lockView (g : XSeg) : (s.seeFence g).lockView = s.lockView := by
  simp only [State.seeFence, markRead_lockView]

theorem writeFence_lockView (g : XSeg) (v : Nat) : (s.writeFence g v).lockView = s.lockView := by
  simp only [State.writeFence, flagAtHome_lockView]

theorem withFence_lockView {act : State → XSeg → State} (hact : ∀ t g, (act t g).lockView = t.lockView)
    (k : Cmd) (o : Obj) (off need : Nat) : (s.withFence k o off need act).lockView = s.lockView := by
  unfold State.withFence
  refine lockView_cond (fin_lockView ..) (withExtent_lockView s (fun t gs => ?_) ..)
  split <;> simp only [hact]

theorem doFenceSignal_lockView (k : Cmd) (fence off value : Nat) :
    (s.doFenceSignal k fence off value).lockView = s.lockView := by
  refine wellFormed_lockView s (fun t => withObj_lockView t (fun t o => withFence_lockView t (fun t g => ?_) ..) ..) ..
  simp only [fin_lockView, setRing_lockView, writeFence_lockView, seeFence_lockView, lockView_ite, ite_self]

theorem doFenceWait_lockView (k : Cmd) (fence off value timeoutUs : Nat) :
    (s.doFenceWait k fence off value timeoutUs).lockView = s.lockView := by
  refine wellFormed_lockView s (fun t => withObj_lockView t (fun t o => withFence_lockView t (fun t g => ?_) ..) ..) ..
  dsimp only
  split <;> simp only [fin_lockView, awaitFence_lockView, seeFence_lockView]

theorem settleXlt_lockView : s.settleXlt.lockView = s.lockView := by
  refine foldl_lockView s (fun t w => ?_) _
  split <;> simp only [finish_lockView, unpost_lockView, lockView_ite, ite_self]

theorem copyBytes_lockView (c r sctx dctx : Nat) (src dst : List XSeg) :
    (s.copyBytes c r sctx dctx src dst).lockView = s.lockView := by
  simp only [State.copyBytes, writeSegs_lockView, stickPoison_lockView, readSegs_lockView]

theorem doCopy_lockView (k : Cmd) (src dst srcOff dstOff len : Nat) :
    (s.doCopy k src dst srcOff dstOff len).lockView = s.lockView := by
  refine wellFormed_lockView s (fun t => withObj_lockView t (fun t a => withObj_lockView t (fun t b =>
    wellFormed_lockView t (fun t => withExtent_lockView t (fun t gs => withExtent_lockView t (fun t hs => ?_) ..) ..)
      ..) ..) ..) ..
  simp only [fin_lockView, copyBytes_lockView, await_lockView, askAll_lockView, foldl_lockView, ioRequest_lockView,
    implies_true, lockView_ite, ite_self]

theorem doFill_lockView (k : Cmd) (dst dstOff len pattern : Nat) :
    (s.doFill k dst dstOff len pattern).lockView = s.lockView := by
  refine wellFormed_lockView s (fun t => withObj_lockView t (fun t b => wellFormed_lockView t (fun t =>
    withExtent_lockView t (fun t hs => ?_) ..) ..) ..) ..
  simp only [fin_lockView, writeSegs_lockView, await_lockView, askAll_lockView, lockView_ite, ite_self]

theorem onlyDriver_lockView {act : State → State} (hact : ∀ t, (act t).lockView = t.lockView) (k : Cmd) :
    (s.onlyDriver k act).lockView = s.lockView := lockView_cond (hact s) (fin_lockView ..)

theorem named_lockView {act : State → State} (hact : ∀ t, (act t).lockView = t.lockView) (k : Cmd) (ctx : Nat)
    (faulted : Bool) : (s.named k ctx faulted act).lockView = s.lockView := lockView_cond (hact s) (fin_lockView ..)

theorem xltStop_lockView (k : Cmd) (x : XltStop) : (s.xltStop k x).lockView = s.lockView := by
  simp only [State.xltStop, setBit_lockView (o := XLT_ERR) (by decide), fin_lockView, actDeny_lockView, lockView_ite,
    ite_self]

theorem doMapRange_lockView (k : Cmd) (ctx page count va entry : Nat) :
    (s.doMapRange k ctx page count va entry).lockView = s.lockView := by
  refine wellFormed_lockView s (fun t => onlyDriver_lockView t (fun t => named_lockView t (fun t => ?_) ..) ..) ..
  refine lockView_cond (fin_lockView ..) (lockView_cond (fin_lockView ..) ?_)
  split
  · exact xltStop_lockView ..
  · next h =>
    simp only [await_lockView, fin_lockView, unpost_lockView, lockView_ite, ite_self]
    exact mapLeaves_lockView t h

theorem xltEnd_lockView (k : Cmd) (ctx va n : Nat) : (s.xltEnd k ctx va n).lockView = s.lockView := by
  simp only [State.xltEnd, await_lockView, unpost_lockView, fin_lockView, flushTlb_lockView, lockView_ite, ite_self]

theorem doUnmapRange_lockView (k : Cmd) (ctx page count va : Nat) :
    (s.doUnmapRange k ctx page count va).lockView = s.lockView := by
  refine wellFormed_lockView s (fun t => onlyDriver_lockView t (fun t => named_lockView t (fun t => ?_) ..) ..) ..
  refine lockView_cond (fin_lockView ..) (lockView_cond (fin_lockView ..) ?_)
  split
  · exact xltStop_lockView ..
  · next h => rw [xltEnd_lockView]; exact unmapLeaves_lockView t h

theorem doInvalidateXlt_lockView (k : Cmd) (ctx scope page count va : Nat) :
    (s.doInvalidateXlt k ctx scope page count va).lockView = s.lockView := by
  refine wellFormed_lockView s (fun t => onlyDriver_lockView t (fun t => named_lockView t (fun t => ?_) ..) ..) ..
  simp only [fin_lockView, xltEnd_lockView, lockView_ite, ite_self]

theorem doSetBias_lockView (k : Cmd) (bias count dpa : Nat) : (s.doSetBias k bias count dpa).lockView = s.lockView := by
  refine wellFormed_lockView s (fun t => onlyDriver_lockView t (fun t => ?_) ..) ..
  simp only [fin_lockView, await_lockView, biasFrame_lockView, foldl_lockView, implies_true, lockView_ite, ite_self]

theorem doMaint_lockView (k : Cmd) (op space ctx addr len : Nat) :
    (s.doMaint k op space ctx addr len).lockView = s.lockView := by
  simp only [State.doMaint, await_lockView, fin_lockView, wellFormed_lockView, implies_true, lockView_mk, lockView_ite,
    ite_self]

theorem setLease_lockView (towpath : Bool) (watts durUs : Nat) :
    (s.setLease towpath watts durUs).lockView = s.lockView := by
  simp only [State.setLease, irq_lockView, lockView_mk]

theorem doSetPowerLease_lockView (k : Cmd) (watts durUs : Nat) :
    (s.doSetPowerLease k watts durUs).lockView = s.lockView := by
  simp only [State.doSetPowerLease, setLease_lockView, fin_lockView, onlyDriver_lockView, wellFormed_lockView,
    implies_true]

theorem imageTile_lockView (t : Nat) (m : Ram) (f : Nat) : (s.imageTile t m f).lockView = s.lockView := by
  simp only [State.imageTile, setTile_lockView, injUsed_lockView]

theorem restoreFrom_lockView (k : Nat) (r : Ram) : (s.restoreFrom k r).lockView = s.lockView := by
  unfold State.restoreFrom
  dsimp only
  rw [modFlight_lockView, foldl_lockView _ (fun t x => ?_), foldl_lockView _ (fun t x => ?_)]
  · split <;> simp only [injUsed_lockView, setTile_lockView]
  · refine lockView_cond (lockView_mk ..) ?_
    split <;> simp only [modTile_lockView]

theorem ofFlight_lockView {act : State → State} (hact : ∀ t, (act t).lockView = t.lockView) (k : Cmd) (slot : Nat)
    (legal : Flight → Bool) : (s.ofFlight k slot legal act).lockView = s.lockView := by
  simp only [State.ofFlight, hact, fin_lockView, lockView_ite, ite_self]

theorem doLoad_lockView (k : Cmd) (image off len : Nat) : (s.doLoad k image off len).lockView = s.lockView := by
  refine wellFormed_lockView s (fun t => withObj_lockView t (fun t o => wellFormed_lockView t (fun t =>
    withExtent_lockView t (fun t gs => lockView_cond ?_ ?_) ..) ..) ..) ..
  · rw [fin_lockView, readSegs_lockView]
  · split <;> simp only [fin_lockView, setFlight_lockView, readSegs_lockView]

theorem zeroForBind_lockView (t : Nat) : (s.zeroForBind t).lockView = s.lockView := by
  simp only [State.zeroForBind, setTile_lockView, lockView_ite, ite_self]

theorem startBind_lockView (slot tag d : Nat) (fence : Option EndFence) :
    (s.startBind slot tag d fence).lockView = s.lockView := by
  unfold State.startBind
  dsimp only
  rw [foldl_lockView _ (fun t i => ?_), setFlight_lockView]
  split <;> simp only [modTile_lockView, zeroForBind_lockView]

theorem doBind_lockView (k : Cmd) (slot tag fence off value : Nat) :
    (s.doBind k slot tag fence off value).lockView = s.lockView := by
  refine wellFormed_lockView s (fun t => withObj_lockView t (fun t o => wellFormed_lockView t (fun t =>
    ofFlight_lockView t (fun t => ?_) ..) ..) ..) ..
  dsimp only
  split
  · exact fin_lockView ..
  · exact fin_lockView ..
  · refine lockView_cond (fin_lockView ..) ?_
    split
    · simp only [fin_lockView, modFlight_lockView]
    · split <;> simp only [fin_lockView, await_lockView, startBind_lockView]

theorem doRun_lockView (k : Cmd) (slot start : Nat) : (s.doRun k slot start).lockView = s.lockView := by
  simp only [State.doRun, modFlight_lockView, await_lockView, fin_lockView, ofFlight_lockView, wellFormed_lockView,
    implies_true, lockView_ite, ite_self]

theorem doMoor_lockView (k : Cmd) (slot : Nat) : (s.doMoor k slot).lockView = s.lockView := by
  simp only [State.doMoor, orderTag_lockView, await_lockView, ofFlight_lockView, wellFormed_lockView, implies_true]

theorem doResume_lockView (k : Cmd) (slot : Nat) : (s.doResume k slot).lockView = s.lockView := by
  simp only [State.doResume, orderTag_lockView, await_lockView, ofFlight_lockView, wellFormed_lockView, implies_true]

theorem doHalt_lockView (k : Cmd) (slot release : Nat) : (s.doHalt k slot release).lockView = s.lockView := by
  simp only [State.doHalt, modFlight_lockView, setFlight_lockView, fin_lockView, haltOrder_lockView, await_lockView,
    ofFlight_lockView, wellFormed_lockView, implies_true, lockView_ite, ite_self]

theorem startRestore_lockView (slot : Nat) (r : Ram) (muster : Bool) :
    (s.startRestore slot r muster).lockView = s.lockView := by
  simp only [State.startRestore, restoreFrom_lockView, modFlight_lockView]

theorem beginRestore_lockView (slot : Nat) : (s.beginRestore slot).lockView = s.lockView := by
  unfold State.beginRestore
  refine lockView_cond (modFlight_lockView ..) ?_
  dsimp only
  split <;> simp only [startRestore_lockView, fatalFlight_lockView, modFlight_lockView]

theorem doSnapshot_lockView (k : Cmd) (slot exportH off : Nat) :
    (s.doSnapshot k slot exportH off).lockView = s.lockView := by
  refine wellFormed_lockView s (fun t => lockView_cond (ofFlight_lockView t (fun t => ?_) ..)
    (withObj_lockView t (fun t o => wellFormed_lockView t (fun t => ofFlight_lockView t (fun t =>
      withExtent_lockView t (fun t _ => ?_) ..) ..) ..) ..)) ..
  all_goals simp only [await_lockView, orderTag_lockView]

theorem doRestore_lockView (k : Cmd) (slot source importH off pound : Nat) :
    (s.doRestore k slot source importH off pound).lockView = s.lockView := by
  refine wellFormed_lockView s (fun t => lockView_cond (ofFlight_lockView t (fun t => ?_) ..)
    (withObj_lockView t (fun t o => ofFlight_lockView t (fun t => wellFormed_lockView t (fun t =>
      withExtent_lockView t (fun t _ => ?_) ..) ..) ..) ..)) ..
  · split
    · dsimp only
      split <;> simp only [fin_lockView, await_lockView, modFlight_lockView, startRestore_lockView, lockView_ite,
        ite_self]
    · exact fin_lockView ..
  · dsimp only
    split <;> simp only [fin_lockView, await_lockView, modFlight_lockView, startRestore_lockView, readSegs_lockView,
      lockView_ite, ite_self]

theorem endFence_lockView (slot : Nat) (abandon : Bool) : (s.endFence slot abandon).lockView = s.lockView := by
  unfold State.endFence
  split
  · rfl
  · dsimp only
    split <;> simp only [writeFence_lockView, seeFence_lockView, xlateExtent_lockView]

theorem unbindTiles_lockView (slot : Nat) : (s.unbindTiles slot).lockView = s.lockView := by
  simp only [State.unbindTiles, modTile_lockView, foldl_lockView, implies_true]

theorem unbind_lockView (slot : Nat) : (s.unbind slot).lockView = s.lockView := by
  simp only [State.unbind, modFlight_lockView, unbindTiles_lockView, lockView_mk]

theorem dropFlight_lockView (k : Nat) : (s.dropFlight k).lockView = s.lockView := by
  simp only [State.dropFlight, endFence_lockView, unbind_lockView]

/-! #### Teardown of a context and the service of the rings -/

theorem ctxSync_lockView : s.ctxSync.lockView = s.lockView := by
  simp only [State.ctxSync, setContext_lockView, foldl_lockView, implies_true, lockView_ite, ite_self]

theorem tearStop_lockView (ctx : Nat) : (s.tearStop ctx).lockView = s.lockView := by
  simp only [State.tearStop, setContext_lockView, abortWaits_lockView]

theorem tearHalt_lockView (ctx : Nat) : (s.tearHalt ctx).1.lockView = s.lockView := by
  simp only [State.tearHalt, haltOrder_lockView, foldl_lockView, implies_true]

theorem fenceSegs_lockView (ctx va len : Nat) : (s.fenceSegs ctx va len).1.lockView = s.lockView := by
  simp only [State.fenceSegs, xlateExtent_lockView]

theorem tearObject_lockView (ctx i : Nat) : (s.tearObject ctx i).1.lockView = s.lockView := by
  have h := readObj_lockView s 0 i
  unfold State.tearObject
  split
  · next e => rw [e] at h; exact h
  · next e =>
    rw [e] at h
    simp only [lockView_fst_ite, flagAtHome_lockView, fenceSegs_lockView, h, ite_self]

theorem tearFence_lockView (g : XSeg) : (s.tearFence g).1.lockView = s.lockView := by
  simp only [State.tearFence, writeFence_lockView, seeFence_lockView, lockView_fst_ite, ite_self]

theorem tearEnd_lockView (ctx : Nat) : (s.tearEnd ctx).1.lockView = s.lockView := by
  simp only [State.tearEnd, foldl_lockView, foldl_fst_lockView, dropWatch_lockView, setContext_lockView,
    tearFence_lockView,
    dropContextXlt_lockView, tearObject_lockView, setFlight_lockView, implies_true]

theorem tearStep_lockView (w : Wait) (atLock : Bool) : (s.tearStep w atLock).lockView = s.lockView := by
  unfold State.tearStep
  split <;> simp only [finish_lockView, tearEnd_lockView, tearHalt_lockView, lockView_mk, lockView_ite, ite_self]

theorem settleTeardown_lockView (atLock : Bool) : (s.settleTeardown atLock).lockView = s.lockView := by
  simp only [State.settleTeardown, tearStep_lockView, foldl_lockView, implies_true]

theorem doTeardown_lockView (k : Cmd) (ctx : Nat) : (s.doTeardown k ctx).lockView = s.lockView := by
  refine wellFormed_lockView s (fun t => onlyDriver_lockView t (fun t => lockView_cond (fin_lockView ..)
    (named_lockView t (fun t => ?_) ..)) ..) ..
  simp only [settleTeardown_lockView, await_lockView, tearHalt_lockView, foldl_lockView, setFlight_lockView,
    orderTag_lockView, tearStop_lockView, implies_true, lockView_ite, ite_self]

theorem tryWatch_lockView (c r : Nat) : (s.tryWatch c r).lockView = s.lockView := by
  have h := watchLine_lockView s true (lineOf (s.ring c r).db)
  unfold State.tryWatch
  refine lockView_cond rfl ?_
  split
  · next e => rw [e] at h; rw [setRing_lockView, h]
  · next e => rw [e] at h; exact h

theorem assignWatches_lockView : s.assignWatches.lockView = s.lockView := by
  simp only [State.assignWatches, tryWatch_lockView, foldl_lockView, implies_true, lockView_ite, ite_self]

theorem execute_lockView (c r : Nat) (d : List Byte) : (s.execute c r d).lockView = s.lockView := by
  unfold State.execute
  dsimp only
  split
  · exact fin_lockView ..
  · split <;> simp only [doNop_lockView, doFenceSignal_lockView, doFenceWait_lockView, doCopy_lockView, doFill_lockView,
      doMapRange_lockView, doUnmapRange_lockView, doInvalidateXlt_lockView, doSetBias_lockView, doLoad_lockView,
      doBind_lockView, doRun_lockView, doMoor_lockView, doResume_lockView, doHalt_lockView, doSnapshot_lockView,
      doRestore_lockView, doMaint_lockView, doSetPowerLease_lockView, doTeardown_lockView]

theorem readSlot_lockView (c r : Nat) : (s.readSlot c r).1.lockView = s.lockView := by
  simp only [State.readSlot, setBit_lockView (o := RNG_INJ) (by decide), markRead_lockView, hdmCheck_lockView,
    lockView_fst_ite, ite_self]

theorem unready_lockView (c r : Nat) : (s.unready c r).lockView = s.lockView := by
  simp only [State.unready, setBit_lockView (o := RNG_ERR) (by decide), post_lockView, watchLine_lockView,
    setRing_lockView, lockView_ite, ite_self]

theorem serveLoop_lockView (c r fuel : Nat) : (s.serveLoop c r fuel).lockView = s.lockView := by
  induction fuel generalizing s with
  | zero => rfl
  | succ fuel ih =>
    have h := readSlot_lockView s c r
    unfold State.serveLoop
    refine lockView_cond rfl ?_
    split
    · next e => rw [e] at h; rw [ctxFault_lockView, h]
    · next e =>
      rw [e] at h
      refine lockView_cond ?_ ?_
      · rw [ih, execute_lockView, h]
      · rw [unready_lockView, h]

theorem serve_lockView (c r : Nat) : (s.serve c r).lockView = s.lockView := serveLoop_lockView ..

theorem serveIdle_lockView : s.serveIdle.lockView = s.lockView := by
  simp only [State.serveIdle, serve_lockView, foldl_lockView, implies_true, lockView_ite, ite_self]

theorem resettle_lockView : s.resettle.lockView = s.lockView := by
  simp only [State.resettle, settleTeardown_lockView, assignWatches_lockView, serveIdle_lockView]

/-! #### Function level reset, canals and the lockmaster's time -/

theorem flrFaultRing_lockView : s.flrFaultRing.lockView = s.lockView := by
  simp only [State.flrFaultRing, lockView_mk, setBit_lockView (o := FLT_CTL) (by decide),
    resetRegs_lockView (lo := FLT_RING_LO) (.inl (by decide))]

theorem stacksReturn_lockView : s.stacksReturn.lockView = s.lockView := by
  simp only [State.stacksReturn, lockView_mk]

theorem flrEnd_lockView : s.flrEnd.lockView = s.lockView := by
  simp only [State.flrEnd, resetRegs_lockView (lo := 0x4000) (.inl (by decide)),
    resetRegs_lockView (lo := 0x5000) (.inl (by decide)), resetRegs_lockView (lo := 0x6000) (.inl (by decide)),
    resetRegs_lockView (lo := 0x8000) (.inl (by decide)), resetRegs_lockView (lo := 0x20000) (.inl (by decide)),
    flrFaultRing_lockView, stacksReturn_lockView, dropContextXlt_lockView, unbind_lockView, foldl_lockView,
    implies_true, lockView_mk, lockView_ite, ite_self]

theorem flrSettle_lockView : s.flrSettle.lockView = s.lockView := by
  simp only [State.flrSettle, flrEnd_lockView, lockView_ite, ite_self]

theorem lineOut_lockView (p : Nat) (f : Flit) : (s.lineOut p f).lockView = s.lockView := by
  simp only [State.lineOut, setBit_cnlReg_lockView, emit_lockView, lockView_ite, ite_self]

theorem sendPlain_lockView (p : Nat) (f : Flit) : (s.sendPlain p f).lockView = s.lockView := by
  simp only [State.sendPlain, setCanal_lockView, lineOut_lockView]

theorem requeueFlits_lockView (fs : List Flit) : (s.requeueFlits fs).lockView = s.lockView := by
  simp only [State.requeueFlits, lockView_mk]

theorem restoreSpare_lockView (k : Nat) : (s.restoreSpare k).lockView = s.lockView := by
  unfold State.restoreSpare
  dsimp only
  split <;> simp only [setFlight_lockView, startRestore_lockView]

theorem allLate_lockView : s.allLate.lockView = s.lockView := by
  simp only [State.allLate, lockView_mk]

theorem gateMin_lockView : s.gateMin.lockView = s.lockView := by
  simp only [State.gateMin, setBit_lockView (o := TCK_STAT) (by decide), setFld_lockView (o := TCK_GATE) (by decide),
    fault_lockView, lockView_ite, ite_self]

theorem sendTrain_lockView (q peerPort : Nat) (retire : Bool) (ack : Option Nat) :
    (s.sendTrain q peerPort retire ack).lockView = s.lockView := by
  simp only [State.sendTrain, sendPlain_lockView]

theorem lastAck_lockView (p : Nat) : (s.lastAck p).lockView = s.lockView := by
  unfold State.lastAck
  dsimp only
  split <;> simp only [sendTrain_lockView]

theorem requeue_lockView (p : Nat) : (s.requeue p).lockView = s.lockView := by
  simp only [State.requeue, modCanal_lockView, requeueFlits_lockView]

theorem groupLost_lockView (dev : Nat) : (s.groupLost dev).lockView = s.lockView := by
  simp only [State.groupLost, requeue_lockView, foldl_lockView, implies_true, lockView_ite, ite_self]

theorem loseTime_lockView : s.loseTime.lockView = s.lockView := lockView_cond rfl rfl

theorem leftActive_lockView (p : Nat) (upstream : Bool) : (s.leftActive p upstream).lockView = s.lockView := by
  simp only [State.leftActive, loseTime_lockView, groupLost_lockView, gateMin_lockView, lockView_ite, ite_self]

theorem portTo_lockView (p : Nat) (st : PState) : (s.portTo p st).lockView = s.lockView := by
  simp only [State.portTo, setBit_cnlReg_lockView, leftActive_lockView, modCanal_lockView, lastAck_lockView,
    lockView_ite, ite_self]

theorem retireLink_lockView (p : Nat) : (s.retireLink p).lockView = s.lockView := by
  simp only [State.retireLink, setBit_cnlReg_lockView, portTo_lockView, fault_lockView, lockView_ite, ite_self]

theorem chooseUpstream_lockView : s.chooseUpstream.lockView = s.lockView := by
  simp only [State.chooseUpstream, loseTime_lockView, lockView_ww, lockView_ite, ite_self]

theorem linkUp_lockView (p : Nat) : (s.linkUp p).lockView = s.lockView := by
  simp only [State.linkUp, gateMin_lockView, setBit_cnlReg_lockView, modCanal_lockView]

/-! #### Power (R586 to R593) -/

theorem setCap_lockView : s.setCap.lockView = s.lockView := by
  simp only [State.setCap, setFld_lockView (o := PWR_CAP) (by decide)]

theorem reachCeil_lockView (p tj : Nat) : (s.reachCeil p tj).lockView = s.lockView := by
  simp only [State.reachCeil, irq_lockView, setReg_pwrReach_lockView, lockView_ite, ite_self]

theorem ceilings_lockView (tj : List Nat) : (s.ceilings tj).lockView = s.lockView := by
  simp only [State.ceilings, reachCeil_lockView, foldl_lockView, implies_true, lockView_mk]

theorem decide_lockView : s.decide_.lockView = s.lockView := by
  simp only [State.decide_, setBit_lockView (o := PWR_STAT) (by decide), irq_lockView, modFlight_lockView,
    foldl_lockView, implies_true, lockView_ite, ite_self]

theorem estimate_lockView : s.estimate.lockView = s.lockView := by
  simp only [State.estimate, lockView_mk]

theorem measure_lockView (len : Nat) : (s.measure len).lockView = s.lockView := by
  simp only [State.measure, setBit_lockView (o := PWR_STAT) (by decide), setFld_lockView (o := PWR_MEAS0) (by decide),
    setFld_lockView (o := PWR_MEAS1) (by decide), fault_lockView, lockView_mk, lockView_ite, ite_self]

theorem powerSettings_lockView : s.powerSettings.lockView = s.lockView := by
  simp only [State.powerSettings, lockView_mk]

/-! #### Substitution and re-grade of tiles -/

theorem fusEnd_lockView {off : Nat} (h : off ≠ TCK_PLEN) (s : State) (code : Nat) :
    (s.fusEnd off code).lockView = s.lockView := by
  rw [State.fusEnd, setBit_lockView h, setFld_lockView h]

theorem regradeEnd_lockView (t code : Nat) : (s.regradeEnd t code).lockView = s.lockView :=
  lockView_cond (fusEnd_lockView (by decide) ..) rfl

theorem substEnd_lockView (p code : Nat) : (s.substEnd p code).lockView = s.lockView :=
  lockView_cond (fusEnd_lockView (by decide) ..) rfl

theorem abandonRegrade_lockView (p : Nat) : (s.abandonRegrade p).lockView = s.lockView := by
  unfold State.abandonRegrade
  dsimp only
  split <;> split <;> simp only [regradeEnd_lockView, setReach_lockView, modTile_lockView]

theorem abandonSubst_lockView (p : Nat) : (s.abandonSubst p).lockView = s.lockView := by
  unfold State.abandonSubst
  dsimp only
  split
  · rfl
  · refine lockView_cond ?_ ?_
    · split <;> simp only [regradeEnd_lockView, setReach_lockView]
    · simp only [substEnd_lockView, setReach_lockView]

theorem spareTakes_lockView (p pos q : Nat) (old : Tile) : (s.spareTakes p pos q old).lockView = s.lockView := by
  unfold State.spareTakes
  split <;> simp only [imageTile_lockView, modTile_lockView, setReach_lockView, lockView_ite, ite_self]

theorem retireTile_lockView (t : Nat) : (s.retireTile t).lockView = s.lockView := by
  unfold State.retireTile
  refine lockView_cond rfl ?_
  dsimp only
  split
  · simp only [setTile_lockView, abandonSubst_lockView, abandonRegrade_lockView, regradeEnd_lockView, setReach_lockView,
      lockView_ite, ite_self]
  · split
    · simp only [spareTakes_lockView, setTile_lockView, abandonSubst_lockView, abandonRegrade_lockView,
        regradeEnd_lockView, setReach_lockView, lockView_ite, ite_self]
    · split <;> simp only [modFlight_lockView, setTile_lockView, abandonSubst_lockView, abandonRegrade_lockView,
        regradeEnd_lockView, setReach_lockView, lockView_ite, ite_self]

theorem substLock_lockView (p : Nat) : (s.substLock p).lockView = s.lockView := by
  unfold State.substLock
  dsimp only
  split
  · rfl
  · split <;> simp only [substEnd_lockView, setReach_lockView, setTile_lockView, lockView_ite, ite_self]

theorem regradeLock_lockView (p : Nat) : (s.regradeLock p).lockView = s.lockView := by
  unfold State.regradeLock
  dsimp only
  split
  · rfl
  · refine lockView_cond ?_ ?_
    · simp only [setReach_lockView, setTile_lockView]
    · split <;> simp only [regradeEnd_lockView, setReach_lockView, setTile_lockView, modTile_lockView, lockView_ite,
      ite_self]

/-! #### Lockkeepers and the Waybill -/

theorem startRole_lockView (k role : Nat) : (s.startRole k role).lockView = s.lockView := by
  simp only [State.startRole, modLk_lockView]

theorem leaveRole_lockView (k : Nat) (st : LkState) : (s.leaveRole k st).lockView = s.lockView := by
  simp only [State.leaveRole, drainAll_lockView, modLk_lockView]

theorem moveRole_lockView (role : Nat) (st : LkState) : (s.moveRole role st).1.lockView = s.lockView := by
  unfold State.moveRole
  split <;> simp only [leaveRole_lockView, startRole_lockView]

theorem migrateLock_lockView : s.migrateLock.lockView = s.lockView := by
  simp only [State.migrateLock, setBit_lkpRole_lockView, moveRole_lockView, foldl_lockView, implies_true, lockView_mk]

theorem retireLk_lockView (k : Nat) : (s.retireLk k).lockView = s.lockView := by
  unfold State.retireLk
  refine lockView_cond rfl ?_
  dsimp only
  split
  · simp only [modLk_lockView, foldl_lockView, evictCopy_lockView, implies_true, lockView_mk, lockView_ite, ite_self]
  · split <;> simp only [startRole_lockView, haltFault_lockView, drainAborts_lockView, modLk_lockView, foldl_lockView,
      evictCopy_lockView, implies_true, lockView_mk, lockView_ite, ite_self]

theorem updateOut_lockView (role : Nat) : (s.updateOut role).lockView = s.lockView := by
  unfold State.updateOut
  dsimp only
  split <;> simp only [lockView_mk, moveRole_lockView]

theorem runStaged_lockView : s.runStaged.lockView = s.lockView := by
  simp only [State.runStaged, lockView_mk]

theorem updateBack_lockView (role k : Nat) : (s.updateBack role k).lockView = s.lockView := by
  unfold State.updateBack
  split <;> simp only [updateOut_lockView, runStaged_lockView, leaveRole_lockView, startRole_lockView, lockView_mk,
    lockView_ite, ite_self]

theorem updateLock_lockView : s.updateLock.lockView = s.lockView := by
  unfold State.updateLock
  split <;> simp only [updateBack_lockView, updateOut_lockView]

theorem publish_lockView : s.publish.lockView = s.lockView := by
  simp only [State.publish, irq_lockView, lockView_mk]

theorem waybillUpdate_lockView : s.waybillUpdate.lockView = s.lockView := by
  simp only [State.waybillUpdate, publish_lockView, lockView_ite, ite_self]

theorem firstPublish_lockView : s.firstPublish.lockView = s.lockView := by
  simp only [State.firstPublish, publish_lockView, lockView_mk]

theorem lockWaybill_lockView : s.lockWaybill.lockView = s.lockView := by
  simp only [State.lockWaybill, firstPublish_lockView, waybillUpdate_lockView, lockView_mk, lockView_ite, ite_self]

/-! #### Flights at the lock -/

theorem endWaits_lockView (p : Wait → Bool) (f : Fin) : (s.endWaits p f).lockView = s.lockView := by
  simp only [State.endWaits, finish_lockView, foldl_lockView, implies_true, lockView_ite, ite_self]

theorem displace_lockView (k n : Nat) : (s.displace k n).lockView = s.lockView := by
  simp only [State.displace, endWaits_lockView]

theorem complete_lockView (k n : Nat) (f : Fin) : (s.complete k n f).lockView = s.lockView := by
  simp only [State.complete, endWaits_lockView]

theorem runEnds_lockView (k status : Nat) : (s.runEnds k status).lockView = s.lockView := by
  simp only [State.runEnds, endWaits_lockView]

theorem leaveTiles_lockView (k : Nat) : (s.leaveTiles k).lockView = s.lockView := by
  simp only [State.leaveTiles, dropFlight_lockView, modFlight_lockView, lockView_ite, ite_self]

theorem abandonWaits_lockView (k status : Nat) : (s.abandonWaits k status).lockView = s.lockView := by
  simp only [State.abandonWaits, endWaits_lockView]

theorem haltFlight_lockView (k : Nat) : (s.haltFlight k).lockView = s.lockView := by
  simp only [State.haltFlight, abandonWaits_lockView, endWaits_lockView, setFlight_lockView, dropFlight_lockView,
    lockView_ite, ite_self]

theorem releaseStopped_lockView (k : Nat) : (s.releaseStopped k).lockView = s.lockView := by
  simp only [State.releaseStopped, modTile_lockView, foldl_lockView, implies_true]

theorem holdByDevice_lockView (k : Nat) (flag : Bool) : (s.holdByDevice k flag).lockView = s.lockView := by
  simp only [State.holdByDevice, runEnds_lockView, modFlight_lockView, lockView_ite, ite_self]

theorem overrunFlight_lockView (k : Nat) : (s.overrunFlight k).lockView = s.lockView := by
  simp only [State.overrunFlight, fault_lockView, modFlight_lockView, modTile_lockView, foldl_lockView, implies_true]

theorem startFlight_lockView (r : GateEnd) (k : Nat) : (s.startFlight r k).lockView = s.lockView := by
  unfold State.startFlight
  dsimp only
  split <;> simp only [runEnds_lockView, modFlight_lockView, lockView_ite, ite_self]

theorem takeSnapshot_lockView (k pound : Nat) : (s.takeSnapshot k pound).lockView = s.lockView := by
  simp only [State.takeSnapshot, setFlight_lockView, lockView_mk]

theorem snapshotLast_lockView (r : GateEnd) (k : Nat) : (s.snapshotLast r k).lockView = s.lockView := by
  unfold State.snapshotLast
  dsimp only
  split <;> simp only [endWaits_lockView, setFlight_lockView, lockView_mk, lockView_ite, ite_self]

theorem resumeFlight_lockView (k : Nat) : (s.resumeFlight k).lockView = s.lockView := by
  simp only [State.resumeFlight, complete_lockView, modFlight_lockView, displace_lockView, lockView_ite, ite_self]

theorem dropMuster_lockView (tag bid : Nat) : (s.dropMuster tag bid).lockView = s.lockView := by
  simp only [State.dropMuster, lockView_mk]

theorem barriers_lockView (r : GateEnd) (k : Nat) : (s.barriers r k).lockView = s.lockView := by
  unfold State.barriers
  dsimp only
  split <;> simp only [modFlight_lockView, dropMuster_lockView, foldl_lockView, implies_true, lockView_ite, ite_self]

theorem barrierExcess_lockView (r : GateEnd) (k : Nat) : (s.barrierExcess r k).lockView = s.lockView := by
  simp only [State.barrierExcess, fault_lockView, lockView_ite, ite_self]

theorem holdFlight_lockView (r : GateEnd) (k : Nat) : (s.holdFlight r k).lockView = s.lockView := by
  simp only [State.holdFlight, displace_lockView, dropMuster_lockView, beginRestore_lockView, modFlight_lockView,
    releaseStopped_lockView, lockView_ite, ite_self]

theorem moorFlight_lockView (k : Nat) : (s.moorFlight k).lockView = s.lockView := by
  simp only [State.moorFlight, complete_lockView, displace_lockView, modFlight_lockView]

theorem orders_lockView (r : GateEnd) (k : Nat) : (s.orders r k).lockView = s.lockView := by
  simp only [State.orders, barriers_lockView, resumeFlight_lockView, takeSnapshot_lockView, displace_lockView,
    moorFlight_lockView, holdFlight_lockView, lockView_ite, ite_self]

theorem lockFlight_lockView (r : GateEnd) (k : Nat) : (s.lockFlight r k).lockView = s.lockView := by
  simp only [State.lockFlight, startFlight_lockView, orders_lockView, dropFlight_lockView, abandonWaits_lockView,
    haltFlight_lockView, modFlight_lockView, overrunFlight_lockView, holdByDevice_lockView, displace_lockView,
    lockView_ite, ite_self]

theorem bindLock_lockView (r : GateEnd) (k : Nat) : (s.bindLock r k).lockView = s.lockView := by
  unfold State.bindLock
  refine lockView_cond rfl (lockView_cond ?_ ?_)
  · simp only [abandonWaits_lockView, endWaits_lockView, setFlight_lockView, unbind_lockView, modTile_lockView,
      foldl_lockView, implies_true, lockView_ite, ite_self]
  · split <;> simp only [restoreSpare_lockView, endWaits_lockView, setFlight_lockView, modTile_lockView, foldl_lockView,
      implies_true]

theorem classify_lockView (r : GateEnd) (k : Nat) : (s.classify r k).lockView = s.lockView := by
  unfold State.classify
  dsimp only
  split <;> simp only [fatalFlight_lockView, setFlight_lockView, beginRestore_lockView, lockView_ite, ite_self]

theorem standbyLock_lockView (r : GateEnd) (k : Nat) : (s.standbyLock r k).lockView = s.lockView := by
  unfold State.standbyLock
  dsimp only
  split
  · rfl
  · split <;> simp only [modFlight_lockView, startBind_lockView, setFlight_lockView, lockView_ite, ite_self]

theorem watchSnaps_lockView (r : GateEnd) : (s.watchSnaps r).lockView = s.lockView := by
  simp only [State.watchSnaps, lockView_mk, lockView_ite, ite_self]

theorem leaveAll_lockView : s.leaveAll.lockView = s.lockView := by
  simp only [State.leaveAll, leaveTiles_lockView, abandonWaits_lockView, foldl_lockView, implies_true]

theorem classifyLock_lockView (r : GateEnd) : (s.classifyLock r).lockView = s.lockView := by
  simp only [State.classifyLock, standbyLock_lockView, classify_lockView, leaveAll_lockView, watchSnaps_lockView,
    foldl_lockView, implies_true, lockView_ite, ite_self]

theorem routedDrop_lockView (k : Nat) (r : Routed) : (s.routedDrop k r).lockView = s.lockView := by
  unfold State.routedDrop
  split <;> simp only [modFlight_lockView, fault_lockView, lockView_ite, ite_self]

theorem routedDrops_lockView (k : Nat) : (s.routedDrops k).lockView = s.lockView := by
  simp only [State.routedDrops, routedDrop_lockView, foldl_lockView, implies_true]

theorem ranPound_lockView (slipOut : Bool) (k : Nat) : (s.ranPound slipOut k).lockView = s.lockView := by
  simp only [State.ranPound, routedDrops_lockView, modFlight_lockView, lockView_ite, ite_self]

theorem endRun_lockView (k : Nat) : (s.endRun k).lockView = s.lockView := by
  simp only [State.endRun, setFlight_lockView, endFence_lockView, lockView_ite, ite_self]

theorem startPound_lockView (r : GateEnd) (k : Nat) : (s.startPound r k).lockView = s.lockView := by
  simp only [State.startPound, musterOnce_lockView, setFlight_lockView, modTile_lockView, foldl_lockView, implies_true,
    lockView_ite, ite_self]

/-! #### Units at the lock -/

theorem chEnd_lockView (port ch code : Nat) : (s.chEnd port ch code).lockView = s.lockView := by
  simp only [State.chEnd, setBit_stkReg_lockView, modStack_lockView]

theorem missLock_lockView (miss : Bool) : (s.missLock miss).lockView = s.lockView := by
  simp only [State.missLock, fault_lockView, setBit_lockView (o := TCK_STAT) (by decide), lockView_ww, lockView_ite,
    ite_self]

theorem resetLock_lockView (pound : Nat) : (s.resetLock pound).lockView = s.lockView := by
  simp only [State.resetLock, setBit_lockView (o := FLT_RESET) (by decide), lockView_ww, foldl_lockView,
    abandonWaits_lockView, leaveTiles_lockView, runEnds_lockView, displace_lockView, implies_true, lockView_ite,
    ite_self]

theorem recoverWay_lockView (basin : Bool) (idx way : Nat) : (s.recoverWay basin idx way).lockView = s.lockView := by
  simp only [State.recoverWay, evictCopy_lockView, cleanLine_lockView, purge_lockView, discardLine_lockView,
    foldl_lockView, implies_true, lockView_mk, lockView_ite, ite_self]

theorem retirePcLock_lockView (port pc : Nat) : (s.retirePcLock port pc).lockView = s.lockView := by
  simp only [State.retirePcLock, setBit_stkReg_lockView, modStack_lockView, lockView_ite, ite_self]

theorem haltDevice_lockView : s.haltDevice.lockView = s.lockView := by
  simp only [State.haltDevice, leaveTiles_lockView, haltRings_lockView, foldl_lockView, implies_true]

theorem reaction_lockView (r : Reaction) : (s.reaction r).lockView = s.lockView := by
  cases r with
  | retireTile t => exact retireTile_lockView ..
  | retirePort p => exact lockView_cond (retireLink_lockView ..) rfl
  | retirePc port pc => exact retirePcLock_lockView ..
  | recoverWay basin idx way => exact recoverWay_lockView ..
  | retireLk k => exact retireLk_lockView ..
  | deviceFault => rfl
  | deviceHalt => exact haltDevice_lockView s

theorem reactions_lockView : s.reactions.lockView = s.lockView := by
  simp only [State.reactions, foldl_lockView, reaction_lockView, implies_true, lockView_mk]

theorem tileLock_lockView : s.tileLock.lockView = s.lockView := by
  simp only [State.tileLock, substLock_lockView, regradeLock_lockView, foldl_lockView, implies_true, lockView_mk]

theorem lmLock_lockView (r : GateEnd) : (s.lmLock r).lockView = s.lockView := by
  unfold State.lmLock
  refine lockView_cond rfl ?_
  split <;> simp only [chooseUpstream_lockView, loseTime_lockView, lockView_ww, lockView_ite, ite_self]

theorem expiryLock_lockView : s.expiryLock.lockView = s.lockView := by
  unfold State.expiryLock
  split <;> simp only [fault_lockView, lockView_ww, lockView_ite, ite_self]

theorem canalLock_lockView : s.canalLock.lockView = s.lockView := by
  simp only [State.canalLock, chooseUpstream_lockView, linkUp_lockView, allLate_lockView, foldl_lockView, implies_true,
    lockView_ite, ite_self]

theorem channelLock_lockView (port : Nat) : (s.channelLock port).lockView = s.lockView := by
  unfold State.channelLock
  split <;> simp only [modStack_lockView, chEnd_lockView, lockView_ite, ite_self]

theorem moorLock_lockView : s.moorLock.lockView = s.lockView := by
  unfold State.moorLock
  split <;> simp only [moorEnd_lockView, cleanMoored_lockView, lockView_mk, lockView_ite, ite_self]

theorem modeLock_lockView : s.modeLock.lockView = s.lockView := by
  simp only [State.modeLock, lockView_mk, lockView_ite, ite_self]

theorem unitLock_lockView : s.unitLock.lockView = s.lockView := by
  simp only [State.unitLock, moorLock_lockView, modeLock_lockView, migrateLock_lockView, updateLock_lockView,
    channelLock_lockView, canalLock_lockView, foldl_lockView, implies_true]

theorem standingOrders_lockView : s.standingOrders.lockView = s.lockView := by
  simp only [State.standingOrders, holdSlot_lockView, haltOrder_lockView, foldl_lockView, implies_true, lockView_ite,
    ite_self]

theorem unitsAtLock_lockView : s.unitsAtLock.lockView = s.lockView := by
  simp only [State.unitsAtLock, postFaults_lockView, postHot_lockView, settleXlt_lockView, ctxSync_lockView,
    flrSettle_lockView, settleTeardown_lockView, standingOrders_lockView, unitLock_lockView, drainAborts_lockView]

theorem resetActs_lockView (r : GateEnd) : (s.resetActs r).lockView = s.lockView := by
  simp only [State.resetActs, reactions_lockView, tileLock_lockView, resetLock_lockView, unitsAtLock_lockView]

theorem lockIrq_lockView : s.lockIrq.lockView = s.lockView := by
  simp only [State.lockIrq, irq_lockView, lockView_ite, ite_self]

theorem beginPound_lockView : s.beginPound.lockView = s.lockView := by
  simp only [State.beginPound, lockWaybill_lockView, resettle_lockView, estimate_lockView, decide_lockView,
    lockIrq_lockView, expiryLock_lockView]
end

/-! ### The time of a lock -/

/-- The instant that the formula gives for a pound (R21). -/
def LockView.formula (v : LockView) : Nat := (v.epoch + v.pound * (100 * v.len) + v.slip) % 2 ^ 64

/-- The view that the lock instant leaves after `slips` late votes (R21, R30). -/
def LockView.locked (v : LockView) (slips : Nat) : LockView :=
  let t := (v.epoch + (v.pound + 1) * (100 * v.len) + (v.slip + 250 * slips)) % 2 ^ 64
  { v with slip := v.slip + 250 * slips, pound := v.pound + 1, time := t, lockTime := t }

/-- From one view to another the formula stands, or it is re-based at the last lock, with no slip (R22). -/
def LockView.Rebases (v w : LockView) : Prop :=
  w = v ∨ ∃ len epoch, w = { v with len := len, epoch := epoch, slip := 0 } ∧
    (epoch + v.pound * (100 * len)) % 2 ^ 64 = v.lockTime

theorem LockView.locked_lockTime_lt (v : LockView) (slips : Nat) : (v.locked slips).lockTime < 2 ^ 64 :=
  Nat.mod_lt _ (by decide)

theorem LockView.Rebases.keeps {v w : LockView} (h : v.Rebases w) :
    w.time = v.time ∧ w.lockTime = v.lockTime ∧ w.pound = v.pound ∧ w.cut = v.cut ∧ w.round = v.round ∧
      w.got = v.got := by
  obtain rfl | ⟨len, epoch, rfl, _⟩ := h <;> exact ⟨rfl, rfl, rfl, rfl, rfl, rfl⟩

theorem LockView.Rebases.formula_eq {v w : LockView} (h : v.Rebases w) (hv : v.formula = v.lockTime) :
    w.formula = w.lockTime := by
  obtain rfl | ⟨len, epoch, rfl, he⟩ := h
  · exact hv
  · exact he

theorem LockView.Rebases.slip_of_len_ne {v w : LockView} (h : v.Rebases w) (hl : w.len ≠ v.len) : w.slip = 0 := by
  obtain rfl | ⟨len, epoch, rfl, _⟩ := h
  · exact absurd rfl hl
  · rfl

/-- A re-based epoch gives back the instant it is re-based at. -/
theorem rebase_mod {t m : Nat} (h : t < m) (b : Nat) : ((t + m - b % m) % m + b) % m = t := by
  have hb : t + m - b % m + b = t + m * (b / m + 1) := by
    have hlt := Nat.mod_lt b (Nat.zero_lt_of_lt h)
    have hdiv := Nat.mod_add_div b m
    rw [Nat.mul_succ]
    omega
  rw [Nat.mod_add_mod, hb, Nat.add_mul_mod_self_left, Nat.mod_eq_of_lt h]

theorem setReg_plen_lockView (s : State) (v : Reg) :
    (s.setReg TCK_PLEN v).lockView = { s.lockView with len := bitsOf v.toNat 9 0 } := by
  simp only [State.lockView, State.fld, State.reg_setReg_self]; rfl

/-- The count of slips in TCK_PLEN stands beside the pound length. -/
theorem bitsOf_putBits_slips (w : Reg) (v : Nat) : bitsOf (putBits w 20 16 v).toNat 9 0 = bitsOf w.toNat 9 0 := by
  have h : (putBits w 20 16 v).setWidth 10 = w.setWidth 10 := by
    simp only [putBits, BitVec.setWidth_or, BitVec.setWidth_and]
    exact (congrArg₂ _ (BitVec.and_allOnes) BitVec.and_zero).trans BitVec.or_zero
  simpa [bitsOf] using congrArg BitVec.toNat h

theorem setFld_slips_lockView (s : State) (v : Nat) : (s.setFld TCK_PLEN 20 16 v).lockView = s.lockView := by
  rw [State.setFld, setReg_plen_lockView, bitsOf_putBits_slips]; rfl

theorem lockTime_lockView (s : State) (slips : Nat) : (s.lockTime slips).lockView = s.lockView.locked slips := by
  unfold State.lockTime
  simp only [lockView_ite, setBit_lockView (o := TCK_STAT) (by decide), setFld_slips_lockView, ite_self]
  rfl

theorem endPound_lockView (s : State) (r : GateEnd) (tj : List Nat) :
    (s.endPound r tj).lockView = s.lockView.locked s.gate.round := by
  unfold State.endPound
  simp only [missLock_lockView, foldl_lockView, ranPound_lockView, modFlight_lockView, setCap_lockView,
    ceilings_lockView, powerSettings_lockView, measure_lockView, lockView_ite,
    setBit_lockView (o := TCK_STAT) (by decide), ite_self, lockTime_lockView, implies_true]

theorem setEpoch_lockView (s : State) (e : Nat) :
    State.lockView { s with ww := { s.ww with epoch := e, slip := 0 } } = { s.lockView with epoch := e, slip := 0 } :=
  rfl

/-- Once a new pound length stands, the epoch is moved so that the formula gives the last lock (R22). -/
theorem rebases_lockView {s t : State} {len : Nat} (h : s.ww.lockTime < 2 ^ 64)
    (ht : t.lockView = { s.lockView with len := len }) :
    s.lockView.Rebases (State.lockView { t with ww := { t.ww with
      epoch := (t.ww.lockTime + 2 ^ 64 - t.ww.pound * t.poundLen % 2 ^ 64) % 2 ^ 64, slip := 0 } }) := by
  have hlock : t.ww.lockTime = s.ww.lockTime := congrArg LockView.lockTime ht
  have hpound : t.ww.pound = s.ww.pound := congrArg LockView.pound ht
  have hlen : t.poundLen = 100 * len := congrArg (100 * LockView.len ·) ht
  rw [setEpoch_lockView, ht, hlock, hpound, hlen]
  exact .inr ⟨_, _, rfl, rebase_mod h _⟩

/-- An adopted request leaves the pound length, or re-bases the formula (R22). -/
theorem adopt_lockView {s : State} (h : s.ww.lockTime < 2 ^ 64) (q : SetupReq) :
    s.lockView.Rebases (s.adopt q).lockView := by
  unfold State.adopt
  simp only [foldl_lockView, lockView_ite, orderTag_lockView, ite_self, implies_true,
    setFld_lockView (o := TCK_GATE) (by decide)]
  split
  · exact .inl rfl
  · exact rebases_lockView h (setReg_plen_lockView s _)

theorem setupLock_lockView {s t : State} (h : s.ww.lockTime < 2 ^ 64) (ht : t.lockView = s.lockView) (r : GateEnd)
    (sent : Option SetupReq) : s.lockView.Rebases (t.setupLock r sent).lockView := by
  have htime : t.ww.lockTime < 2 ^ 64 := (congrArg LockView.lockTime ht).trans_lt h
  rw [← ht]
  unfold State.setupLock
  simp only [lockView_ite, setBit_lockView (o := TCK_REQ) (by decide), setBit_lockView (o := TCK_STAT) (by decide),
    ite_self]
  cases r.res.setup with
  | none => exact .inl rfl
  | some q =>
    simp only [lockView_ite]
    split
    · exact adopt_lockView htime q
    · exact .inl rfl

theorem lockActs_lockView {s : State} (h : s.ww.lockTime < 2 ^ 64) (r : GateEnd) (sent : Option SetupReq) :
    s.lockView.Rebases (s.lockActs r sent).lockView := by
  unfold State.lockActs
  simp only [foldl_lockView, startPound_lockView, lockView_mk, unitsAtLock_lockView, lockView_ite, lockView_ww,
    ite_self, implies_true]
  refine setupLock_lockView h ?_ r sent
  simp only [foldl_lockView, endRun_lockView, bindLock_lockView, classifyLock_lockView, lockFlight_lockView,
    barrierExcess_lockView, snapshotLast_lockView, lmLock_lockView, tileLock_lockView, reactions_lockView, implies_true]

/-- The vote of the next pound is open. -/
theorem setGate_lockView (s : State) (own : Gate) :
    State.lockView { s with gate := { own } } = { s.lockView with cut := false, round := 0, got := [] } := rfl

/-- What follows the end of a pound keeps the view, but for a pound length that is adopted. -/
theorem openPound_lockView {s : State} (h : s.ww.lockTime < 2 ^ 64) (r : GateEnd) (sent : Option SetupReq) :
    s.lockView.Rebases (if r.res.reset then s.resetActs r else s.lockActs r sent).beginPound.lockView := by
  rw [beginPound_lockView]
  split
  · exact .inl (resetActs_lockView s r)
  · exact lockActs_lockView h r sent

/-- The effect of a lock whose vote is decided (R21, R22, R30). -/
theorem doLock_lockView {s : State} (tj : List Nat) (hrun : s.locksRun = true) (hcut : s.gate.cut = true)
    (hvote : s.lateVote = false ∨ 16 ≤ s.gate.round) :
    LockView.Rebases { s.lockView.locked s.gate.round with cut := false, round := 0, got := [] }
      (s.doLock tj).lockView := by
  have hslip : (s.lateVote && decide (s.gate.round < 16)) = false := by
    rcases hvote with h | h <;> simp [h]
  have hend := endPound_lockView s s.gateEnd tj
  have htime : (s.endPound s.gateEnd tj).ww.lockTime < 2 ^ 64 :=
    (congrArg LockView.lockTime hend).trans_lt (LockView.locked_lockTime_lt ..)
  simp only [State.doLock, hrun, hcut, hslip, Bool.not_true, Bool.false_eq_true, if_false, if_true]
  rw [← hend]
  generalize s.endPound s.gateEnd tj = e at *
  have hx := openPound_lockView (s := { e with gate := { own := s.gate.next } }) htime s.gateEnd s.gate.sent.setup
  rwa [setGate_lockView] at hx

/-- TCK_PLEN resets to the same length under all fuses. -/
theorem seal_lockView (t s : State) : (t.seal s).lockView = t.lockView := rfl

/-- A late vote that may still slip brings no lock (R30, R31). -/
theorem doLock_of_late {s : State} (tj : List Nat) (hrun : s.locksRun = true) (hcut : s.gate.cut = true)
    (hlate : s.lateVote = true) (hround : s.gate.round < 16) : s.doLock tj = s := by
  simp [State.doLock, hrun, hcut, hlate, hround]

end Sys2Proof.Machine

open Sys2Proof Sys2Proof.Machine

/-- Settles O34: the end of the pound sets the instant by the formula, and all that follows keeps what the formula
reads, but for the adoption of a new pound length, which re-bases it at this lock (R22). -/
theorem lockOpensTheNextPound : Obligations.LockOpensTheNextPound := by
  intro s tj hl hrun hcut
  refine ⟨fun hlate hround => ?_, fun hvote => completes_live hl (t := s.doLock tj) rfl ?_⟩
  · exact (doneLive_of_live hl (s.doLock tj)).trans (by rw [doLock_of_late tj hrun hcut hlate hround])
  · have hview := doLock_lockView tj hrun hcut hvote
    rw [← seal_lockView (s.doLock tj) s] at hview
    generalize (s.doLock tj).seal s = u at hview ⊢
    obtain ⟨htime, hlock, hpound, hopen, hround, hgot⟩ := hview.keeps
    have hformula : u.ww.time = u.lockView.formula := (htime.trans hlock.symm).trans (hview.formula_eq rfl).symm
    have hinstant := htime.trans (congrArg (· % 2 ^ 64) (Nat.add_assoc ..).symm)
    have hslip (hne : u.poundLen ≠ s.poundLen) : u.ww.slip = 0 := hview.slip_of_len_ne (mt (congrArg (100 * ·)) hne)
    exact ⟨hpound, hlock.trans htime.symm, hinstant, hformula, hslip, hopen, hround, hgot⟩

end

section
/-! Segmented scans (R124, R165): what a scan gives at its first element and at each next one, the 32-bit elements and
the grid lanes that VSCAN scans, and the issue of a vector operation whose sources have right check bits. -/

open Sys2Proof Sys2Proof.Machine

namespace Sys2Proof.Machine

/-! ### The issue of a vector operation (R84, R134, R135) -/

/-- A vector operation reads a source: it poisons the elements whose check bits are bad (R84). -/
def Tile.readVec (x : Tile) (v : Nat) : Tile :=
  { x with vpoison := (List.range 256).foldl (fun m e =>
      if sget false x.vbad (256 * v + e) then sset false (256 * v + e) true m else m) x.vpoison }

theorem readVec_of_vecOk {x : Tile} {v : Nat} (h : x.VecOk v) : x.readVec v = x := by
  have hfold : (List.range 256).foldl (fun m e => if sget false x.vbad (256 * v + e) then
      sset false (256 * v + e) true m else m) x.vpoison = x.vpoison :=
    List.foldlRecOn (motive := (· = x.vpoison)) _ _ rfl fun m hm e he => by simp [hm, h e (List.mem_range.1 he)]
  rw [Tile.readVec, hfold]

theorem readVecs_of_vecOk {x : Tile} {srcs : List Nat} (h : ∀ v ∈ srcs, x.VecOk v) :
    srcs.foldl (fun y v => y.readVec v) x = x :=
  List.foldlRecOn (motive := (· = x)) _ _ rfl fun _ hy v hv => hy.symm ▸ readVec_of_vecOk (h v hv)

/-- An enabled vector operation that reads registers with right check bits and finds the vector unit free plans the
write of its elements and changes nothing else. -/
theorem issueV_ok {s : State} {t : Nat} {g : Guard} {srcs : List Nat} {c l vd off : Nat}
    {f : Tile → Option (List PElem × Bool)} {r : List PElem × Bool} (hs : s.Issues t g)
    (hv : ∀ v ∈ srcs, (s.tile t).VecOk v) (hfree : (s.tile t).Free .vector ((s.tile t).span 0 (c - 1)))
    (hf : f (s.tile t) = some r) :
    s.issueV t g srcs c l vd f [] off = s.setTile t
      (((s.tile t).holding .vector ((s.tile t).span 0 (c - 1))).plan 2 (l - 1) (.wrV (256 * vd + off) r.1 r.2)) := by
  have hbad : (srcs.any fun v => (List.range 256).any fun e => sget false (s.tile t).vbad (256 * v + e)) = false := by
    simpa only [List.any_eq_false, List.mem_range, Bool.not_eq_true] using hv
  have hreads := readVecs_of_vecOk hv
  simp only [Tile.readVec] at hreads
  simp only [State.issueV, hbad, Bool.and_false, Bool.false_eq_true, if_false]
  refine issue_ok hs ?_
  simp only [readsS_ok (rs := []) (fun _ h => nomatch h), if_true, hreads, hf, holdAll_cons hfree, holdAll_nil,
    planIf_true]

/-! ### Segmented scans -/

section
variable {α : Type} {f : α → α → α}

/-- The value of a scan at an element with its segment flag, after the value at the element before it, if there is
one: a segment's first element as it is, a later one under the operator (R124). -/
def scanNext (f : α → α → α) : Option (α × Bool) → (α × Bool) × (Bool × Bool) → α × Bool
  | none, (v, fl) => (v.1, v.2 || fl.2)
  | some a, (v, fl) => if fl.1 then (v.1, v.2 || fl.2) else (f a.1 v.1, a.2 || v.2 || fl.2)

theorem scanList_cons (acc : Option (α × Bool)) (e : (α × Bool) × (Bool × Bool))
    (l : List ((α × Bool) × (Bool × Bool))) :
    scanList f acc (e :: l) = scanNext f acc e :: scanList f (some (scanNext f acc e)) l := by
  cases acc <;> rfl

theorem scanList_getElem?_zero (acc : Option (α × Bool)) (l : List ((α × Bool) × (Bool × Bool))) :
    (scanList f acc l)[0]? = l[0]?.map (scanNext f acc) := by
  cases l with
  | nil => rfl
  | cons e l => rw [scanList_cons]; rfl

/-- The value at an element follows from the value at the element before it. -/
theorem scanList_getElem?_succ {acc : Option (α × Bool)} {l : List ((α × Bool) × (Bool × Bool))} {i : Nat}
    {a : α × Bool} (h : (scanList f acc l)[i]? = some a) :
    (scanList f acc l)[i + 1]? = l[i + 1]?.map (scanNext f (some a)) := by
  induction l generalizing acc i with
  | nil => simp [scanList] at h
  | cons e l ih =>
    rw [scanList_cons] at h ⊢
    cases i with
    | zero =>
      obtain rfl : scanNext f acc e = a := by simpa using h
      exact scanList_getElem?_zero ..
    | succ i => exact ih h

@[simp] theorem scanList_length (acc : Option (α × Bool)) (l : List ((α × Bool) × (Bool × Bool))) :
    (scanList f acc l).length = l.length := by
  induction l generalizing acc with
  | nil => rfl
  | cons e l ih => simp [scanList_cons, ih]

end

/-- VSCAN's flag of an element of vb, with its poison (R165). -/
def Tile.scanFlag (x : Tile) (vb e : Nat) : Bool × Bool := (decide (x.velem vb e ≠ 0), x.velemPoison vb e)

/-! ### Scans of 32-bit elements -/

/-- VSCAN's scan over elements. -/
def Tile.elemScan (x : Tile) (va vb : Nat) (f : BitVec 32 → BitVec 32 → BitVec 32) : List PElem :=
  scanList f none ((x.vreg va).zip ((x.vreg vb).map fun e => (decide (e.1 ≠ 0), e.2)))

theorem scanVec_elems {fn : Nat} {f : BitVec 32 → BitVec 32 → BitVec 32} (x : Tile) (va vb : Nat) (h : fn ≠ 0)
    (hf : scanOp fn = some f) : scanVec x va vb fn = some (x.elemScan va vb f, false) := by
  simp [scanVec, h, hf, Tile.elemScan]

/-- The operators of R124 by FN. -/
theorem scanOp_eq {fn : Nat} (h0 : fn ≠ 0) (h : fn < 7) : scanOp fn = some fun a b =>
    let num (v : BitVec 32) : Num := decodeElem .f32 v.toNat
    let enc (v : Num) : BitVec 32 := BitVec.ofNat 32 (encodeElem .f32 v).1
    ([a, a + b, if a.toInt < b.toInt then a else b, if a.toInt < b.toInt then b else a,
      enc ((num a).minimum (num b)), enc ((num a).maximum (num b)), enc ((num a).add (num b))]).getD fn a := by
  interval_cases fn <;> simp [scanOp, BitVec.slt] at h0 ⊢

/-- An element of va and its flag, as VSCAN pairs them. -/
theorem vreg_zip_flags_getElem? (x : Tile) (va vb : Nat) {e : Nat} (h : e < 256) :
    ((x.vreg va).zip ((x.vreg vb).map fun e => (decide (e.1 ≠ 0), e.2)))[e]? =
      some ((x.velem va e, x.velemPoison va e), x.scanFlag vb e) := by
  simp [Tile.vreg, Tile.scanFlag, h]

theorem elemScan_getElem?_zero (x : Tile) (va vb : Nat) (f : BitVec 32 → BitVec 32 → BitVec 32) :
    (x.elemScan va vb f)[0]? = some (x.velem va 0, x.velemPoison va 0 || x.velemPoison vb 0) := by
  rw [Tile.elemScan, scanList_getElem?_zero, vreg_zip_flags_getElem? x va vb (by decide)]
  rfl

theorem elemScan_getElem?_succ {x : Tile} {va vb : Nat} {f : BitVec 32 → BitVec 32 → BitVec 32} {e : Nat}
    {v : BitVec 32} {p : Bool} (he : e + 1 < 256) (h : (x.elemScan va vb f)[e]? = some (v, p)) :
    (x.elemScan va vb f)[e + 1]? =
      some (if (x.scanFlag vb (e + 1)).1 then
          (x.velem va (e + 1), x.velemPoison va (e + 1) || x.velemPoison vb (e + 1))
        else (f v (x.velem va (e + 1)), p || (x.velemPoison va (e + 1) || x.velemPoison vb (e + 1)))) := by
  rw [Tile.elemScan, scanList_getElem?_succ h, vreg_zip_flags_getElem? x va vb he, ← Bool.or_assoc]
  rfl

/-! ### Scans of grid lanes -/

theorem chunks_length {α : Type} {n : Nat} (hn : 0 < n) {k : Nat} {l : List α} (h : l.length = n * k) :
    (chunks n k l).length = k := by
  induction k generalizing l with
  | zero => rfl
  | succ k ih =>
    have hne : l.isEmpty = false := by
      rw [List.isEmpty_eq_false_iff_exists_mem, ← List.length_pos_iff_exists_mem, h]
      positivity
    have hdrop : (l.drop n).length = n * k := by simp [h, Nat.mul_succ]
    simp [chunks, hne, ih hdrop]

@[simp] theorem lanes_vreg_length (x : Tile) (v : Nat) : (lanes (x.vreg v)).length = 64 := by
  rw [lanes, List.length_map, chunks_length (by decide) (by simp [Tile.vreg])]

/-- Where every element gives `k` results, result `i` of element `j` stands at `k * j + i`. -/
theorem flatMap_getElem?_of_length {α β : Type} {g : α → List β} {k i : Nat} (hg : ∀ a, (g a).length = k)
    (hi : i < k) (l : List α) (j : Nat) : (l.flatMap g)[k * j + i]? = l[j]?.bind fun a => (g a)[i]? := by
  induction l generalizing j with
  | nil => rfl
  | cons a l ih =>
    rw [List.flatMap_cons]
    cases j with
    | zero => simp [List.getElem?_append_left, hg, hi]
    | succ j =>
      rw [List.getElem?_append_right (by rw [hg, Nat.mul_succ]; omega), hg,
        show k * (j + 1) + i - k = k * j + i by rw [Nat.mul_succ]; omega, ih]
      rfl

theorem laneElems_length (v : GVal × Bool) : (laneElems v).length = 4 := rfl

theorem laneElems_getElem? (v : GVal × Bool) {i : Nat} (h : i < 4) :
    (laneElems v)[i]? = some (BitVec.ofNat 32 (encodeGrid 128 v.1 / 2 ^ (32 * i)), v.2) := by
  simp [laneElems, h]

/-- VSCAN's scan over grid lanes. -/
def Tile.laneScan (x : Tile) (va vb : Nat) : List (GVal × Bool) :=
  scanList (fun a b => gridSum [a, b]) none
    ((lanes (x.vreg va)).zip ((List.range 64).map fun j => x.scanFlag vb (4 * j)))

theorem scanVec_lanes (x : Tile) (va vb : Nat) :
    scanVec x va vb 0 = some ((x.laneScan va vb).flatMap laneElems, false) := rfl

theorem laneScan_length (x : Tile) (va vb : Nat) : (x.laneScan va vb).length = 64 := by
  simp [Tile.laneScan]

/-- The running value of the scan over grid lanes. -/
def Tile.laneRun (x : Tile) (va vb j : Nat) : GVal × Bool := (x.laneScan va vb).getD j (.nan, false)

theorem laneScan_getElem? (x : Tile) (va vb : Nat) {j : Nat} (h : j < 64) :
    (x.laneScan va vb)[j]? = some (x.laneRun va vb j) := by
  have hj : j < (x.laneScan va vb).length := by rwa [laneScan_length]
  rw [Tile.laneRun, List.getD_eq_getElem _ _ hj, List.getElem?_eq_getElem hj]

/-- A lane of va and its flag, as VSCAN pairs them. -/
theorem lanes_zip_flags_getElem? {x : Tile} {va : Nat} (vb : Nat) {j : Nat} (h : j < 64) {v : GVal × Bool}
    (hv : (lanes (x.vreg va))[j]? = some v) :
    ((lanes (x.vreg va)).zip ((List.range 64).map fun j => x.scanFlag vb (4 * j)))[j]? =
      some (v, x.scanFlag vb (4 * j)) := by
  exact List.getElem?_zip_eq_some.2 ⟨hv, by simp [h]⟩

theorem laneRun_zero {x : Tile} {va : Nat} (vb : Nat) {v : GVal × Bool} (hv : (lanes (x.vreg va))[0]? = some v) :
    x.laneRun va vb 0 = (v.1, v.2 || x.velemPoison vb 0) := by
  have h := laneScan_getElem? x va vb (j := 0) (by decide)
  rw [Tile.laneScan, scanList_getElem?_zero, lanes_zip_flags_getElem? vb (by decide) hv] at h
  exact (Option.some.inj h).symm

theorem laneRun_succ {x : Tile} {va : Nat} (vb : Nat) {j : Nat} (hj : j + 1 < 64) {v : GVal × Bool}
    (hv : (lanes (x.vreg va))[j + 1]? = some v) : x.laneRun va vb (j + 1) =
      scanNext (fun a b => gridSum [a, b]) (some (x.laneRun va vb j)) (v, x.scanFlag vb (4 * (j + 1))) := by
  have h := laneScan_getElem? x va vb hj
  rw [Tile.laneScan, scanList_getElem?_succ (laneScan_getElem? x va vb (by omega)),
    lanes_zip_flags_getElem? vb hj hv] at h
  exact (Option.some.inj h).symm

/-- The lanes of the scan stand in vd four elements each. -/
theorem laneScan_elems_getElem? (x : Tile) (va vb : Nat) {i j : Nat} (hj : j < 64) (hi : i < 4) :
    ((x.laneScan va vb).flatMap laneElems)[4 * j + i]? =
      some (BitVec.ofNat 32 (encodeGrid 128 (x.laneRun va vb j).1 / 2 ^ (32 * i)), (x.laneRun va vb j).2) := by
  rw [flatMap_getElem?_of_length laneElems_length hi, laneScan_getElem? x va vb hj]
  exact laneElems_getElem? _ hi

/-- What an enabled VSCAN of an operator that exists leaves (R163). -/
theorem exec_vscan {s : State} {t : Nat} {g : Guard} {vd va vb : BitVec 6} {fn : BitVec 4} {r : List PElem}
    (hs : s.Issues t g) (hva : (s.tile t).VecOk va.toNat) (hvb : (s.tile t).VecOk vb.toNat)
    (hfree : (s.tile t).Free .vector [(s.tile t).cyc, (s.tile t).cyc + 1])
    (hr : scanVec (s.tile t) va.toNat vb.toNat fn.toNat = some (r, false)) :
    exec (.vscan t g vd va vb fn) s = .next (s.withTile t
      (((s.tile t).holding .vector [(s.tile t).cyc, (s.tile t).cyc + 1]).plan 2 9 (.wrV (256 * vd.toNat) r false))) := by
  have hspan : (s.tile t).span 0 (2 - 1) = [(s.tile t).cyc, (s.tile t).cyc + 1] := by
    simp [Tile.span, List.range_succ, Nat.add_comm]
  have hsrcs : ∀ v ∈ [va.toNat, vb.toNat], (s.tile t).VecOk v :=
    List.forall_mem_cons.2 ⟨hva, List.forall_mem_singleton.2 hvb⟩
  have hissue := issueV_ok (c := 2) (l := 10) (vd := vd.toNat) (off := 0)
    (f := fun x => scanVec x va.toNat vb.toNat fn.toNat) hs hsrcs (hspan ▸ hfree) hr
  rw [hspan] at hissue
  exact congrArg (done s) hissue

end Sys2Proof.Machine

/-- Settles O23: VSCAN runs `scanList`, whose value at an element follows from the value before it, over the elements
of va or over its grid lanes (R124, R165). The first element of a segment is taken as it is and a grid sum folds lane by
lane (log entry 77). -/
theorem vectorScans : Obligations.VectorScans := by
  intro s t g vd va vb fn hs hfn x occ num enc f flag pv hva hvb hfree
  by_cases h0 : fn = 0
  · subst h0
    exact ⟨_, exec_vscan hs hva hvb hfree (scanVec_lanes ..), fun h => absurd rfl h, fun _ =>
      ⟨x.laneRun va.toNat vb.toNat, fun _ _ hv => laneRun_zero _ hv, fun _ hj _ _ hv => laneRun_succ _ hj hv,
        fun _ hj _ hi => laneScan_elems_getElem? x _ _ hj hi⟩⟩
  · have hne : fn.toNat ≠ 0 := fun h => h0 (BitVec.eq_of_toNat_eq h)
    exact ⟨_, exec_vscan hs hva hvb hfree (scanVec_elems x _ _ hne (scanOp_eq hne hfn)), fun _ =>
      ⟨elemScan_getElem?_zero .., fun _ he _ _ hv => elemScan_getElem?_succ he hv⟩, fun h => absurd h h0⟩

end

section
/-! The functions of the scalar slot (R145), and the grid register and the zeroing of a bank (R141, R151, R161): the
results of a function by its FN, and what a command leaves when its operation goes on and when it stops its tile. -/

open Sys2Proof Sys2Proof.Machine

namespace Sys2Proof.Machine

/-! ### Results by FN (R145) -/

/-- The results of ALU, by FN from 0x00 on. -/
def aluResults (a b : Word) : List Word :=
  [a + b, a - b, a &&& b, a ||| b, a ^^^ b, a <<< (b.toNat % 64), a >>> (b.toNat % 64), a.sshiftRight (b.toNat % 64),
   if a.toInt < b.toInt then a else b, if a.toInt < b.toInt then b else a,
   if a.toNat < b.toNat then a else b, if a.toNat < b.toNat then b else a, BitVec.ofNat 64 (a.toNat * b.toNat)]

/-- The conditions of CMP and CMPI, by FN from 0 on. -/
def condResults (a b : Word) : List Bool :=
  [decide (a = b), decide (a ≠ b), decide (a.toInt < b.toInt), decide (b.toInt ≤ a.toInt), decide (a.toNat < b.toNat),
   decide (b.toNat ≤ a.toNat)]

/-- The results of POP, by FN from 0 on. -/
def predResults (a b : Bool) : List Bool := [a && b, a || b, a ^^ b, a && !b, !a, true, false]

theorem aluOp_eq_getElem? (fn : Nat) (a b : Word) : aluOp fn a b = (aluResults a b)[fn]? :=
  match fn with
  | 0 | 1 | 2 | 3 | 4 | 5 | 6 | 7 => rfl
  | 8 | 9 => by simp [aluOp, aluResults, BitVec.slt_eq_decide]
  | 10 | 11 => by simp [aluOp, aluResults, BitVec.ult_eq_decide]
  | 12 => by simp [aluOp, aluResults, BitVec.ofNat_mul]
  | _ + 13 => rfl

theorem scalarCond_eq_getElem? (fn : Nat) (a b : Word) : scalarCond fn a b = (condResults a b)[fn]? :=
  match fn with
  | 0 => congrArg some (beq_eq_decide a b)
  | 1 => congrArg some ((congrArg (!·) (beq_eq_decide a b)).trans decide_not.symm)
  | 2 => congrArg some BitVec.slt_eq_decide
  | 3 => congrArg some (BitVec.sle_eq_not_slt.symm.trans BitVec.sle_eq_decide)
  | 4 => congrArg some BitVec.ult_eq_decide
  | 5 => congrArg some ((BitVec.ule_eq_not_ult b a).symm.trans BitVec.ule_eq_decide)
  | _ + 6 => rfl

theorem predOp_eq_getElem? (fn : Nat) (a b : Bool) : predOp fn a b = (predResults a b)[fn]? :=
  match fn with
  | 0 | 1 | 2 | 3 | 4 | 5 | 6 => rfl
  | _ + 7 => rfl

/-! ### What a leg operation leaves -/

theorem Completes.imp {c : Instr} {s : State} {P Q : State → Prop} (h : Completes c s P) (hPQ : ∀ u, P u → Q u) :
    Completes c s Q := by
  obtain ⟨u, hexec, hu⟩ := h
  exact ⟨u, hexec, hPQ u hu⟩

section
variable {s : State} {t : Nat} {g : Guard} (hs : s.Issues t g)
include hs

/-- The outcome of an enabled operation that goes on. -/
theorem done_issue_ok {op : Bool → Tile → Issue} {y : Tile} (hop : op true (s.tile t) = .ok y) :
    done s (s.issue t g op) = .next (s.withTile t y) := by
  rw [issue_ok hs hop]
  rfl

/-- A command whose enabled operation stops its tile completes with that tile stopped (R82, R142). -/
theorem completes_stop {c : Instr} {op : Bool → Tile → Issue} {k : StopKind} {pc : Nat}
    (hc : exec c s = done s (s.issue t g op)) (hop : op true (s.tile t) = .stop k pc) :
    Completes c s fun u => u.tile t = (s.tile t).stopped k pc := by
  refine completes_done hc ?_
  rw [issue_stop hs hop, stopTile_seal_tile, if_pos rfl]

/-! ### The S slot -/

theorem exec_alu {rd ra rb : BitVec 5} {fn : BitVec 7} {v : Word} (hpar : (s.tile t).ParityOk [ra.toNat, rb.toNat])
    (hv : (aluResults ((s.tile t).rs ra.toNat) ((s.tile t).rs rb.toNat))[fn.toNat]? = some v) :
    exec (.alu t g rd ra rb fn) s = .next (s.withTile t ((s.tile t).writeS true 0 (if fn.toNat = 0x0C then 3 else 1)
      rd.toNat v ((s.tile t).rsPoison ra.toNat || (s.tile t).rsPoison rb.toNat))) :=
  done_issue_ok hs (by rw [readsS_ok hpar, aluOp_eq_getElem?, hv]; rfl)

theorem alu_reserved_stops (rd : BitVec 5) {ra rb : BitVec 5} {fn : BitVec 7}
    (hpar : (s.tile t).ParityOk [ra.toNat, rb.toNat]) (hfn : 0x0D ≤ fn.toNat) :
    Completes (.alu t g rd ra rb fn) s fun u => u.tile t = (s.tile t).stopped .illegal (s.tile t).pc :=
  completes_stop hs rfl (by rw [readsS_ok hpar, aluOp_eq_getElem?, List.getElem?_eq_none hfn])

theorem exec_cmp {pd fn : BitVec 3} {ra rb : BitVec 5} {v : Bool} (hpar : (s.tile t).ParityOk [ra.toNat, rb.toNat])
    (hv : (condResults ((s.tile t).rs ra.toNat) ((s.tile t).rs rb.toNat))[fn.toNat]? = some v) :
    exec (.cmp t g pd fn ra rb) s = .next (s.withTile t ((s.tile t).plan 0 0
      (.wrP pd.toNat v ((s.tile t).rsPoison ra.toNat || (s.tile t).rsPoison rb.toNat)))) :=
  done_issue_ok hs (by rw [readsS_ok hpar, compareInto, scalarCond_eq_getElem?, hv]; rfl)

theorem cmp_reserved_stops (pd : BitVec 3) {fn : BitVec 3} {ra rb : BitVec 5}
    (hpar : (s.tile t).ParityOk [ra.toNat, rb.toNat]) (hfn : 6 ≤ fn.toNat) :
    Completes (.cmp t g pd fn ra rb) s fun u => u.tile t = (s.tile t).stopped .illegal (s.tile t).pc :=
  completes_stop hs rfl (by rw [readsS_ok hpar, compareInto, scalarCond_eq_getElem?, List.getElem?_eq_none hfn])

theorem exec_cmpi {pd fn : BitVec 3} {ra : BitVec 5} {imm : BitVec 11} {v : Bool}
    (hpar : (s.tile t).ParityOk [ra.toNat])
    (hv : (condResults ((s.tile t).rs ra.toNat) (imm.signExtend 64))[fn.toNat]? = some v) :
    exec (.cmpi t g pd fn ra imm) s = .next (s.withTile t ((s.tile t).plan 0 0
      (.wrP pd.toNat v ((s.tile t).rsPoison ra.toNat)))) :=
  done_issue_ok hs (by rw [readsS_ok hpar, compareInto, scalarCond_eq_getElem?, hv]; rfl)

theorem cmpi_reserved_stops (pd : BitVec 3) {fn : BitVec 3} {ra : BitVec 5} (imm : BitVec 11)
    (hpar : (s.tile t).ParityOk [ra.toNat]) (hfn : 6 ≤ fn.toNat) :
    Completes (.cmpi t g pd fn ra imm) s fun u => u.tile t = (s.tile t).stopped .illegal (s.tile t).pc :=
  completes_stop hs rfl (by rw [readsS_ok hpar, compareInto, scalarCond_eq_getElem?, List.getElem?_eq_none hfn])

/-- POP's result is poisoned with the predicates that its function reads (R140). -/
theorem exec_pop {pd fn pa pb : BitVec 3} {v : Bool}
    (hv : (predResults ((s.tile t).rp pa.toNat) ((s.tile t).rp pb.toNat))[fn.toNat]? = some v) :
    exec (.pop t g pd fn pa pb) s = .next (s.withTile t ((s.tile t).plan 0 0 (.wrP pd.toNat v
      ((predReads fn.toNat).1 && (s.tile t).rpPoison pa.toNat ||
        (predReads fn.toNat).2 && (s.tile t).rpPoison pb.toNat)))) :=
  done_issue_ok hs (by rw [predOp_eq_getElem?, hv]; rfl)

theorem pop_reserved_stops (pd pa pb : BitVec 3) :
    Completes (.pop t g pd 7 pa pb) s fun u => u.tile t = (s.tile t).stopped .illegal (s.tile t).pc :=
  completes_stop hs rfl rfl

/-! ### The T slot -/

theorem exec_gxi (imm : BitVec 16) :
    exec (.gxi t g imm) s = .next (s.withTile t ((s.tile t).plan 1 0 (.wrGx imm))) :=
  done_issue_ok hs rfl

theorem exec_gxr {ra : BitVec 5} (hpar : (s.tile t).ParityOk [ra.toNat]) (hp : (s.tile t).rsPoison ra.toNat = false) :
    exec (.gxr t g ra) s =
      .next (s.withTile t ((s.tile t).plan 1 0 (.wrGx (((s.tile t).rs ra.toNat).truncate 16)))) :=
  done_issue_ok hs (by rw [readsS_ok hpar, hp]; rfl)

/-- A poisoned RA of GXR is a control use (R141). -/
theorem gxr_poisoned_stops {ra : BitVec 5} (hpar : (s.tile t).ParityOk [ra.toNat])
    (hp : (s.tile t).rsPoison ra.toNat = true) :
    Completes (.gxr t g ra) s fun u => u.tile t = (s.tile t).stopped .controlError (s.tile t).pc :=
  completes_stop hs rfl (by rw [readsS_ok hpar, hp]; rfl)

theorem exec_zb {bank : Bool} {w : BitVec 2} (hw : w ≠ 3)
    (hfree : (s.tile t).Free (bankPort bank) [(s.tile t).cyc + 1]) :
    exec (.zb t g bank w) s = .next (s.withTile t
      (((s.tile t).holding (bankPort bank) [(s.tile t).cyc + 1]).plan 1 1 (.zbWrite bank w.toNat))) := by
  have hne : w.toNat ≠ 3 := fun h => hw (BitVec.eq_of_toNat_eq h)
  exact done_issue_ok hs (by rw [if_neg hne, holdAll_cons hfree]; rfl)

theorem zb_reserved_stops (bank : Bool) :
    Completes (.zb t g bank 3) s fun u => u.tile t = (s.tile t).stopped .illegal (s.tile t).pc :=
  completes_stop hs rfl rfl

end

/-! ### A bank set to zero -/

@[simp] theorem bank_zeroBank_self (x : Tile) (b : Bool) (w : Nat) :
    (x.zeroBank b w).bank b = { entries := [], bad := [], width := w } := by
  cases b <;> rfl

@[simp] theorem bank_zeroBank_not (x : Tile) (b : Bool) (w : Nat) : (x.zeroBank b w).bank (!b) = x.bank (!b) := by
  cases b <;> rfl

theorem writeAct_zbWrite {x : Tile} {e : Sched} {b : Bool} {w : Nat} (h : e.act = .zbWrite b w) :
    (x.writeAct e).tile = x.zeroBank b w := by
  rw [Tile.writeAct, h]

theorem closeCycle_bank (x : Tile) (b : Bool) : x.closeCycle.bank b = x.bank b := rfl

section
variable {y : Tile} (hsched : y.sched = [])
include hsched

/-- At the end of the cycle in which it is planned, an act of a later cycle waits. -/
theorem endCycle_plan_later (rank : Nat) {d : Nat} (act : TileAct) (hd : 0 < d) :
    (y.plan rank d act).endCycle.tile = (y.plan rank d act).closeCycle :=
  endCycle_waits (by simp [Tile.plan, hsched, hd])

/-- A write planned for the next cycle acts at the end of that cycle on what the tile held. -/
theorem cycles_two_plan_write (rank : Nat) {act : TileAct} (hr : act.reads = false) (hc : act.clears = false) :
    Tile.cycles 2 (y.plan rank 1 act) =
      (({ (y.plan rank 1 act).closeCycle with sched := [] } : Tile).writeAct
        { due := y.cyc + 1, issued := y.cyc, rank := rank, pc := y.pc, act := act }).tile.closeCycle := by
  rw [Tile.cycles, endCycle_plan_later hsched rank act Nat.one_pos]
  exact endCycle_write (by simp [Tile.plan, hsched]) (Nat.le_refl _) hr hc

end

end Sys2Proof.Machine

/-- Settles O7: each function's result is an entry of the table of its FN values, and an FN beyond the table stops the
tile. -/
theorem scalarFunctions : Obligations.ScalarFunctions := by
  refine ⟨fun s t g rd ra rb hs hpar => ?_, fun s t g pd hs => ⟨fun ra rb hpar => ?_, fun ra imm hpar => ?_,
    fun pa pb => ?_⟩, fun s t g rd ra rb pd pa pb imm hs hpar => ?_⟩
  · and_intros <;> exact exec_alu hs hpar rfl
  · and_intros <;> exact exec_cmp hs hpar rfl
  · and_intros <;> exact exec_cmpi hs hpar rfl
  · refine ⟨exec_pop hs rfl, exec_pop hs rfl, exec_pop hs rfl, exec_pop hs rfl, ?_, exec_pop hs rfl, exec_pop hs rfl⟩
    exact (exec_pop hs rfl).trans (by simp [predReads])
  · have hra : (s.tile t).ParityOk [ra.toNat] := List.forall_mem_singleton.2 (hpar _ (List.mem_cons_self ..))
    have record (u : State) (hu : u.tile t = (s.tile t).stopped .illegal (s.tile t).pc) :
        (u.tile t).st = .stopped ∧ (u.tile t).stop = some (.illegal, (s.tile t).pc) ∧ (u.tile t).running = false ∧
          (u.tile t).sched = [] ∧ (u.tile t).sregs = (s.tile t).sregs := by
      rw [hu]
      exact ⟨rfl, rfl, rfl, rfl, rfl⟩
    exact ⟨fun fn hfn => (alu_reserved_stops hs rd hpar hfn).imp record,
      fun fn hfn => ⟨(cmp_reserved_stops hs pd hpar hfn).imp record,
        (cmpi_reserved_stops hs pd imm hra hfn).imp record⟩, (pop_reserved_stops hs pd pa pb).imp record⟩

/-- Settles O14: the zeroing waits out the cycle in which ZB issues and acts at the end of the next. -/
theorem gridRegisterAndBankZeroing : Obligations.GridRegisterAndBankZeroing := by
  refine fun s t g hs => ⟨exec_gxi hs, fun ra hpar => ⟨exec_gxr hs hpar, fun hp => ?_⟩, fun bank w => ⟨exec_zb hs, ?_⟩,
    fun y e bank w he => ?_, fun y bank w hsched _ _ => ?_⟩
  · exact (gxr_poisoned_stops hs hpar hp).imp fun u hu => by rw [hu]; exact ⟨rfl, rfl⟩
  · rintro rfl
    exact (zb_reserved_stops hs bank).imp fun u hu => by rw [hu]; rfl
  · simp [writeAct_zbWrite he]
  · have hz : (Tile.cycles 2 (y.plan 1 1 (.zbWrite bank w.toNat))).bank bank =
        { entries := [], bad := [], width := w.toNat } := by
      rw [cycles_two_plan_write hsched 1 rfl rfl, writeAct_zbWrite rfl, closeCycle_bank, bank_zeroBank_self]
    have hwaits := endCycle_plan_later hsched 1 (.zbWrite bank w.toNat) Nat.one_pos
    exact ⟨(congrArg (Tile.bank · bank) hwaits :), by rw [hz], by simp [hz]⟩

end

section
/-! What leaves the bring-up state, and with it the mark of safe state, as it was (R612): fault messages, the memory side,
translation, barges, rings and the host's port. -/

open Sys2Proof Sys2Proof.Machine

namespace Sys2Proof.Machine

/-! ### Conditionals and loops -/

theorem boot_ite (p : Prop) [Decidable p] (a b : State) :
    (if p then a else b).boot = if p then a.boot else b.boot := apply_ite State.boot p a b

theorem boot_fst_ite {β : Type} (p : Prop) [Decidable p] (a b : State × β) :
    (if p then a else b).1.boot = if p then a.1.boot else b.1.boot := apply_ite (fun r => r.1.boot) p a b

theorem boot_foldl {α : Type} {f : State → α → State} (hf : ∀ t a, (f t a).boot = t.boot) (l : List α) (s : State) :
    (l.foldl f s).boot = s.boot := by
  induction l generalizing s with
  | nil => rfl
  | cons a l ih => exact (ih _).trans (hf s a)

/-- The same for a loop that gathers a value beside the state. -/
theorem boot_foldl_fst {α β : Type} {f : State × β → α → State × β} (hf : ∀ r a, (f r a).1.boot = r.1.boot)
    (l : List α) (r : State × β) : (l.foldl f r).1.boot = r.1.boot := by
  induction l generalizing r with
  | nil => rfl
  | cons a l ih => exact (ih _).trans (hf r a)

section
variable (s : State)

/-! ### Fault messages and what they share with other operations -/

@[simp] theorem State.orderTag_boot (t : Nat) (f : TagRec → TagRec) : (s.orderTag t f).boot = s.boot :=
  (order_kept s _).boot
@[simp] theorem State.holdSlot_boot (k : Nat) : (s.holdSlot k).boot = s.boot := (holdSlot_kept s k).boot
@[simp] theorem State.sendVec_boot (v : Nat) : (s.sendVec v).boot = s.boot := (sendVec_kept s v).boot
@[simp] theorem State.irq_boot (n : Nat) : (s.irq n).boot = s.boot := (irq_kept s n).boot
@[simp] theorem State.hostWrite_boot (a : Nat) (bs : List Byte) (p : Bool) : (s.hostWrite a bs p).boot = s.boot :=
  (hostWrite_kept s a bs p).boot
@[simp] theorem State.snoopHost_boot (la : Nat) (inv : Bool) : (s.snoopHost la inv).boot = s.boot :=
  (snoopHost_kept s la inv).boot
@[simp] theorem State.recallHost_boot (host : Bool) (la : Nat) : (s.recallHost host la).boot = s.boot :=
  (recallHost_kept s host la).boot
@[simp] theorem State.recall_boot (host : Bool) (la : Nat) : (s.recall host la).boot = s.boot :=
  (recall_kept s host la).boot
@[simp] theorem State.cancelResv_boot (host : Bool) (la : Nat) (keep : Option Nat) :
    (s.cancelResv host la keep).boot = s.boot := (cancelResv_kept s host la keep).boot
@[simp] theorem State.dropCopies_boot (host : Bool) (la : Nat) (keep : Option Nat) :
    (s.dropCopies host la keep).boot = s.boot := (dropCopies_kept s host la keep).boot
@[simp] theorem State.mergeLine_boot (host : Bool) (la off : Nat) (bs : List Byte) (poison dirty : Bool) :
    (s.mergeLine host la off bs poison dirty).boot = s.boot := (mergeLine_kept s host la off bs poison dirty).boot
@[simp] theorem State.stkErr_boot (dpa bit : Nat) : (s.stkErr dpa bit).boot = s.boot := (stkErr_kept s dpa bit).boot
@[simp] theorem State.dropWriteback_boot (dpa : Nat) : (s.dropWriteback dpa).boot = s.boot :=
  (dropWriteback_kept s dpa).boot
@[simp] theorem State.wholeMark_boot (port : Nat) (poison : Bool) : (s.wholeMark port poison).1.boot = s.boot :=
  (wholeMark_kept s port poison).boot
@[simp] theorem State.haltFault_boot : s.haltFault.boot = s.boot := (haltFault_kept s).boot
@[simp] theorem State.fault_boot (m : FaultMsg) : (s.fault m).boot = s.boot := (fault_kept s m).boot
@[simp] theorem State.report_boot (kind unit inst addr : Nat) : (s.report kind unit inst addr).boot = s.boot :=
  s.fault_boot _

@[simp] theorem State.aerSet_boot (e : AerErr) : (s.aerSet e).boot = s.boot := rfl
@[simp] theorem State.advise_boot (e : AerErr) : (s.advise e).boot = s.boot := by simp [State.advise, boot_ite]
@[simp] theorem State.aer_boot (e : AerErr) (header : Bool) : (s.aer e header).boot = s.boot := by
  simp [State.aer, boot_ite]
@[simp] theorem State.rasError_boot : s.rasError.boot = s.boot := by simp [State.rasError]
@[simp] theorem State.sendPieces_boot (off : Nat) (data : PBytes) : (s.sendPieces off data).boot = s.boot :=
  boot_foldl (fun _ _ => State.emit_boot ..) _ s

/-! ### Tiles -/

@[simp] theorem State.stopTile_boot (t : Nat) (k : StopKind) (pc : Nat) : (s.stopTile t k pc).boot = s.boot := by
  unfold State.stopTile
  dsimp only
  split <;> simp

@[simp] theorem State.issue_boot (t : Nat) (g : Guard) (op : Bool → Tile → Issue) : (s.issue t g op).boot = s.boot := by
  simp only [State.issue, boot_ite]
  split
  · rfl
  · split
    · simp
    · split <;> simp

@[simp] theorem State.issueV_boot (t : Nat) (g : Guard) (srcs : List Nat) (c l vd : Nat)
    (f : Tile → Option (List PElem × Bool)) (ss : List Nat) (off : Nat) :
    (s.issueV t g srcs c l vd f ss off).boot = s.boot := by
  simp [State.issueV, boot_ite]

@[simp] theorem State.releaseStall_boot (t : Nat) : (s.releaseStall t).boot = s.boot := by
  unfold State.releaseStall
  dsimp only
  split <;> simp [boot_ite]

@[simp] theorem State.injUsed_boot (before after : Tile) : (s.injUsed before after).boot = s.boot := by
  simp [State.injUsed, boot_ite]

@[simp] theorem State.endTileCycle_boot (t : Nat) : (s.endTileCycle t).boot = s.boot := by
  unfold State.endTileCycle
  dsimp only
  split <;> simp [boot_foldl]

@[simp] theorem State.holdRead_boot (p a n : Nat) : (s.holdRead p a n).1.boot = s.boot :=
  boot_foldl (fun _ _ => State.fault_boot ..) _ s

/-! ### Stack words and the home -/

@[simp] theorem State.stkFault_boot (kind dpa : Nat) : (s.stkFault kind dpa).boot = s.boot := by
  unfold State.stkFault
  split <;> simp

@[simp] theorem State.queueWriteback_boot (dpa mark : Nat) : (s.queueWriteback dpa mark).boot = s.boot := by
  unfold State.queueWriteback
  split <;> simp

@[simp] theorem State.checkWord_boot (w : Nat) : (s.checkWord w).boot = s.boot := by
  unfold State.checkWord
  split <;> simp

@[simp] theorem State.drainedAccess_boot (dpa : Nat) : (s.drainedAccess dpa).boot = s.boot := by
  simp [State.drainedAccess]

@[simp] theorem State.discardedWrite_boot (dpa : Nat) : (s.discardedWrite dpa).boot = s.boot := by
  simp [State.discardedWrite]

@[simp] theorem State.stkReadLine_boot (la : Nat) : (s.stkReadLine la).1.boot = s.boot := by
  unfold State.stkReadLine
  split <;> simp [boot_foldl]

@[simp] theorem State.stkWord_boot (port a : Nat) (part : List Byte) (poison : Bool) :
    (s.stkWord port a part poison).boot = s.boot := by
  simp [State.stkWord, boot_ite]

@[simp] theorem State.stkWriteLine_boot (a : Nat) (bs : List Byte) (mask : Nat) :
    (s.stkWriteLine a bs mask).boot = s.boot := by
  unfold State.stkWriteLine
  split <;> simp [boot_foldl]

@[simp] theorem State.d2h_boot (req la : Nat) : (s.d2h req la).boot = s.boot := rfl

@[simp] theorem State.homeRead_boot (host : Bool) (la : Nat) : (s.homeRead host la).1.boot = s.boot := by
  simp [State.homeRead, boot_fst_ite]

@[simp] theorem State.homeWrite_boot (host : Bool) (a : Nat) (bs : List Byte) (mask : Nat) :
    (s.homeWrite host a bs mask).boot = s.boot := by
  simp [State.homeWrite, boot_ite]

@[simp] theorem State.cacheFault_boot (kind unit inst way addr : Nat) :
    (s.cacheFault kind unit inst way addr).boot = s.boot := s.fault_boot _

@[simp] theorem State.bsnInject_boot (host : Bool) (la word : Nat) : (s.bsnInject host la word).boot = s.boot := by
  unfold State.bsnInject
  split
  · split <;> simp
  · rfl

@[simp] theorem State.basinCheck_boot (host : Bool) (la : Nat) : (s.basinCheck host la).boot = s.boot := by
  unfold State.basinCheck
  split
  · rfl
  · dsimp only
    rw [boot_ite]
    split
    · simp [boot_ite]
    · split <;> simp [boot_ite]

@[simp] theorem State.ageSet_boot (p set n : Nat) : (s.ageSet p set n).boot = s.boot := rfl

@[simp] theorem State.drainLine_boot (host : Bool) (la : Nat) : (s.drainLine host la).boot = s.boot := by
  unfold State.drainLine
  split <;> simp [boot_ite]

@[simp] theorem State.victimRoom_boot (p : Nat) : (s.victimRoom p).boot = s.boot := by
  unfold State.victimRoom
  dsimp only
  split <;> simp [boot_ite]

@[simp] theorem State.evictLine_boot (host : Bool) (la : Nat) : (s.evictLine host la).boot = s.boot := by
  unfold State.evictLine
  dsimp only
  split <;> simp [boot_ite]

@[simp] theorem State.placeLine_boot (host : Bool) (la : Nat) : (s.placeLine host la).1.boot = s.boot := by
  unfold State.placeLine
  dsimp only
  split
  · rfl
  · rw [boot_ite]
    split
    · split <;> simp [boot_ite]
    · simp [boot_ite]

/-- What a placed line leaves, where the placement is taken apart by a match. -/
theorem boot_of_placeLine {s t : State} {host : Bool} {la : Nat} {w : Option Nat} (h : s.placeLine host la = (t, w)) :
    t.boot = s.boot := by
  rw [← s.placeLine_boot host la, h]

@[simp] theorem State.fillLine_boot (host : Bool) (la age : Nat) : (s.fillLine host la age).boot = s.boot := by
  unfold State.fillLine
  split
  · rw [boot_ite]
    dsimp only
    split
    · simp
    · split
      · next h => exact (boot_of_placeLine h :)
      · rfl
  · split
    · next h => exact boot_of_placeLine h
    · next h => simpa using boot_of_placeLine h

@[simp] theorem State.loseResv_boot (k : Nat) (host : Bool) (la : Nat) : (s.loseResv k host la).boot = s.boot := by
  simp [State.loseResv, boot_ite]

@[simp] theorem State.removeCopy_boot (agent : Nat) (host : Bool) (la : Nat) :
    (s.removeCopy agent host la).boot = s.boot := by
  simp [State.removeCopy, boot_ite]

@[simp] theorem State.writeBack_boot (agent : Nat) (host : Bool) (la : Nat) :
    (s.writeBack agent host la).boot = s.boot := by
  unfold State.writeBack
  split <;> simp [boot_ite]

@[simp] theorem State.copyRoom_boot (agent : Nat) : (s.copyRoom agent).boot = s.boot := by
  unfold State.copyRoom
  dsimp only
  split <;> simp [boot_ite]

@[simp] theorem State.evictCopy_boot (c : Copy) : (s.evictCopy c).boot = s.boot := by
  simp [State.evictCopy, boot_ite]

@[simp] theorem State.placeCopy_boot (agent : Nat) (host : Bool) (la : Nat) :
    (s.placeCopy agent host la).1.boot = s.boot := by
  unfold State.placeCopy
  dsimp only
  split
  · rfl
  · rw [boot_ite]
    split
    · split <;> simp [boot_ite]
    · simp [boot_ite]

@[simp] theorem State.lkInjUsed_boot (k : Nat) : (s.lkInjUsed k).boot = s.boot := by simp [State.lkInjUsed]

@[simp] theorem State.rcInject_boot (agent : Nat) : (s.rcInject agent).1.boot = s.boot := by
  simp [State.rcInject, boot_fst_ite]

@[simp] theorem State.grant_boot (agent : Nat) (host : Bool) (la : Nat) (st : LineSt) (data : LineData) (age : Nat) :
    (s.grant agent host la st data age).boot = s.boot := by
  unfold State.grant
  dsimp only
  cases s.copyOf agent host la with
  | none => split <;> simp
  | some c => split <;> simp [boot_fst_ite]

@[simp] theorem State.snoopOwner_boot (host : Bool) (la : Nat) (o : Nat → Nat → Out) :
    (s.snoopOwner host la o).boot = s.boot := by
  unfold State.snoopOwner
  split <;> simp [boot_ite]


@[simp] theorem State.sharedRead_boot (agent : Nat) (host : Bool) (la attr : Nat) :
    (s.sharedRead agent host la attr).1.boot = s.boot := by
  unfold State.sharedRead
  dsimp only
  simp only [boot_fst_ite, State.grant_boot, State.basinCheck_boot, ite_self]
  split
  · simp
  · split
    · simp
    · rw [boot_ite]
      split
      · simp
      · next o _ _ =>
        generalize hu : ((s.fillLine host la (fillAge attr)).snoopOwner host la .berthSnpData).recall host la = u
        have hb : u.boot = s.boot := by simp [← hu]
        cases u.copyOf o host la with
        | none => dsimp only; split <;> simp [hb]
        | some c => dsimp only; split <;> simp [hb]

@[simp] theorem State.copyCheck_boot (agent : Nat) (host : Bool) (la : Nat) :
    (s.copyCheck agent host la).boot = s.boot := by
  unfold State.copyCheck
  split <;> simp [boot_ite]

@[simp] theorem State.agentRead_boot (agent : Nat) (host : Bool) (la attr : Nat) :
    (s.agentRead agent host la attr).1.boot = s.boot := by
  unfold State.agentRead
  dsimp only
  split <;> simp [boot_fst_ite]

@[simp] theorem State.ncReadLine_boot (host : Bool) (la : Nat) : (s.ncReadLine host la).1.boot = s.boot := by
  unfold State.ncReadLine
  dsimp only
  rw [boot_fst_ite]
  split
  · simp
  · split <;> simp

@[simp] theorem State.ncRead_boot (host : Bool) (a n : Nat) : (s.ncRead host a n).1.boot = s.boot := by
  refine boot_foldl_fst (fun r la => ?_) _ _
  exact r.1.ncReadLine_boot host la

@[simp] theorem State.bsnWrite_boot (host : Bool) (la off : Nat) (bs : List Byte) (poison dirty : Bool) :
    (s.bsnWrite host la off bs poison dirty).boot = s.boot := by
  simp [State.bsnWrite]

@[simp] theorem State.purge_boot (host : Bool) (la : Nat) (keep : Option Nat) :
    (s.purge host la keep).boot = s.boot := by
  unfold State.purge
  dsimp only
  split <;> simp

@[simp] theorem State.ncWriteLine_boot (host : Bool) (a attr : Nat) (bs : List Byte) (poison : Bool)
    (keep : Option Nat) : (s.ncWriteLine host a attr bs poison keep).boot = s.boot := by
  unfold State.ncWriteLine
  dsimp only
  split <;> simp [boot_ite]

@[simp] theorem State.ncWrite_boot (host : Bool) (a attr : Nat) (bs : PBytes) (keep : Option Nat) :
    (s.ncWrite host a attr bs keep).boot = s.boot :=
  boot_foldl (fun _ _ => State.ncWriteLine_boot ..) _ s

@[simp] theorem State.flagStore_boot (host : Bool) (a : Nat) (bs : List Byte) :
    (s.flagStore host a bs).boot = s.boot := by
  simp [State.flagStore, boot_ite]

@[simp] theorem State.ucWrite_boot (host : Bool) (a : Nat) (bs : PBytes) : (s.ucWrite host a bs).boot = s.boot :=
  boot_foldl (fun t p => by simp [boot_ite]) _ s

@[simp] theorem State.ucRead_boot (host : Bool) (a n : Nat) : (s.ucRead host a n).1.boot = s.boot :=
  boot_foldl_fst (fun r la => by simp [boot_fst_ite]) _ _

@[simp] theorem State.pageWrite_boot (host : Bool) (attr a : Nat) (bs : PBytes) :
    (s.pageWrite host attr a bs).boot = s.boot := by
  simp [State.pageWrite, boot_ite]

@[simp] theorem State.cleanLine_boot (host : Bool) (la : Nat) : (s.cleanLine host la).boot = s.boot := by
  unfold State.cleanLine
  dsimp only
  cases s.mCopy host la with
  | none => split <;> simp [boot_ite]
  | some c => split <;> simp [boot_ite]

@[simp] theorem State.discardLine_boot (host : Bool) (la : Nat) : (s.discardLine host la).boot = s.boot := by
  simp [State.discardLine]

@[simp] theorem State.rebuildEntry_boot (l : Line) : (s.rebuildEntry l).boot = s.boot := by
  unfold State.rebuildEntry
  dsimp only
  cases s.mCopy l.host l.addr with
  | none => split <;> simp [boot_ite]
  | some c => split <;> simp [boot_ite]

@[simp] theorem State.homeRepair_boot (m : FaultMsg) : (s.homeRepair m).boot = s.boot := by
  unfold State.homeRepair
  rw [boot_ite, boot_foldl fun t l => by simp [boot_ite]]
  simp

@[simp] theorem State.setBit44_boot (la : Nat) (on : Bool) : (s.setBit44 la on).boot = s.boot := by
  unfold State.setBit44
  dsimp only
  split <;> simp [boot_ite]

@[simp] theorem State.applySnp_boot (host : Bool) (la snp : Nat) : (s.applySnp host la snp).boot = s.boot := by
  unfold State.applySnp
  dsimp only
  split
  · simp
  · split
    · split <;> simp
    · rfl

@[simp] theorem State.answerSnp_boot (la : Nat) : (s.answerSnp la).boot = s.boot := by
  unfold State.answerSnp
  split <;> simp [boot_ite]

@[simp] theorem State.flushHostLine_boot (la : Nat) : (s.flushHostLine la).boot = s.boot := by
  simp [State.flushHostLine]

@[simp] theorem State.cacheFlush_boot : s.cacheFlush.boot = s.boot :=
  boot_foldl State.flushHostLine_boot _ s

/-! ### Access checks and translation -/

@[simp] theorem State.actDeny_boot (target master need addr slot : Nat) :
    (s.actDeny target master need addr slot).boot = s.boot := by
  simp [State.actDeny]

@[simp] theorem State.actCheck_boot (target master need addr : Nat) :
    (s.actCheck target master need addr).1.boot = s.boot := by
  simp [State.actCheck, boot_fst_ite]

@[simp] theorem State.hdmCheck_boot (master need dpa n : Nat) : (s.hdmCheck master need dpa n).1.boot = s.boot := by
  unfold State.hdmCheck
  split <;> simp

@[simp] theorem State.readEntry_boot (unit dpa : Nat) : (s.readEntry unit dpa).1.boot = s.boot := by
  simp [State.readEntry, boot_fst_ite]

@[simp] theorem State.walkFrom_boot (unit va tbl level : Nat) : (s.walkFrom unit va tbl level).1.boot = s.boot := by
  induction level generalizing s tbl with
  | zero => rfl
  | succ level ih => simp [State.walkFrom, boot_fst_ite, ih]

/-- The walk's calls are named, so that the kernel compares names and does not run them. -/
@[simp] theorem State.walk_boot (unit ctx va : Nat) : (s.walk unit ctx va).1.boot = s.boot := by
  obtain ⟨r, hr⟩ : ∃ r, r = s.walk unit ctx va := ⟨_, rfl⟩
  obtain ⟨c, hc⟩ : ∃ c, c = s.actCheck (tgtHdm (s.rootAddr ctx)) MID_WALKER NEED_R (s.rootAddr ctx) := ⟨_, rfl⟩
  obtain ⟨e, he⟩ : ∃ e, e = c.1.readEntry unit (s.rootAddr ctx) := ⟨_, rfl⟩
  have hcb : c.1.boot = s.boot := by rw [hc, State.actCheck_boot]
  have heb : e.1.boot = s.boot := by rw [he, State.readEntry_boot, hcb]
  rw [← hr]
  unfold State.walk at hr
  dsimp only at hr
  rw [← hc, ← he] at hr
  simp [hr, boot_fst_ite, hcb, heb]

@[simp] theorem State.tlbFill_boot (unit ctx va level entry : Nat) :
    (s.tlbFill unit ctx va level entry).boot = s.boot := by
  simp [State.tlbFill, boot_ite]

/-- The walk is named, as in `State.walk_boot`. -/
@[simp] theorem State.lookup_boot (unit ctx va : Nat) : (s.lookup unit ctx va).1.boot = s.boot := by
  obtain ⟨r, hr⟩ : ∃ r, r = s.lookup unit ctx va := ⟨_, rfl⟩
  obtain ⟨walk, hw⟩ : ∃ f, f = @State.walk := ⟨_, rfl⟩
  have hwalk {t u : State} {x : Nat × Nat ⊕ XltFail} (h : walk t unit ctx va = (u, x)) : u.boot = t.boot := by
    rw [← t.walk_boot unit ctx va, ← hw, h]
  rw [← hr]
  unfold State.lookup at hr
  rw [← hw] at hr
  split at hr
  · rw [hr]
  · generalize s.xlt.tlb.find? (fun t => t.serves unit ctx va) = hit at hr
    cases hit with
    | none =>
      dsimp only at hr
      split at hr
      · next h => rw [hr, State.tlbFill_boot, hwalk h]
      · rw [hr, hwalk rfl]
    | some e =>
      dsimp only at hr
      split at hr
      · split at hr
        · next h => rw [hr, State.tlbFill_boot, hwalk h]; simp
        · rw [hr, hwalk rfl]; simp
      · rw [hr]

theorem boot_of_lookup {s t : State} {unit ctx va : Nat} {r : Nat × Nat ⊕ XltFail}
    (h : s.lookup unit ctx va = (t, r)) : t.boot = s.boot := by
  rw [← s.lookup_boot unit ctx va, h]

/-! ### Barges -/

@[simp] theorem State.countBlock_boot (ctx block n : Nat) (wr : Bool) :
    (s.countBlock ctx block n wr).boot = s.boot := rfl

@[simp] theorem State.countSeg_boot (ctx : Nat) (g : XSeg) (wr : Bool) : (s.countSeg ctx g wr).boot = s.boot := by
  unfold State.countSeg
  rw [boot_ite, boot_foldl fun _ _ => ?_]
  · simp
  · simp

@[simp] theorem State.putStride_boot (d : Stride) : (s.putStride d).boot = s.boot := rfl

@[simp] theorem State.sliceMiss_boot (stream : Nat) (host : Bool) (la : Nat) :
    (s.sliceMiss stream host la).boot = s.boot := by
  unfold State.sliceMiss
  dsimp only
  rw [boot_ite, boot_foldl fun t a => ?_]
  · simp
  · rw [boot_ite]
    split
    · rfl
    · split <;> simp

@[simp] theorem State.bargeReadLine_boot (p : Nat) (host : Bool) (la : Nat) :
    (s.bargeReadLine p host la).1.boot = s.boot := by
  simp [State.bargeReadLine, boot_fst_ite]

@[simp] theorem State.bargeRead_boot (p : Nat) (host : Bool) (attr a n : Nat) :
    (s.bargeRead p host attr a n).1.boot = s.boot := by
  unfold State.bargeRead
  rw [boot_fst_ite, boot_foldl_fst fun r la => ?_]
  · simp
  · simp

@[simp] theorem State.segsFrom_boot (unit k fuel va n : Nat) : (s.segsFrom unit k fuel va n).1.boot = s.boot := by
  induction fuel generalizing s va n with
  | zero => rfl
  | succ fuel ih =>
    unfold State.segsFrom
    dsimp only
    rw [boot_fst_ite]
    split
    · rfl
    · cases (s.flight k).curXlt.find? fun e => va / pageSize e.2.1 * pageSize e.2.1 == e.1 with
      | some e => exact ih ..
      | none =>
        obtain ⟨⟨t, e | f⟩, hl⟩ : ∃ r, s.lookup unit (s.flightCtx k) va = r := ⟨_, rfl⟩
        · rw [hl]
          exact (ih t _ _).trans (boot_of_lookup hl)
        · rw [hl]
          exact (ih t _ _).trans (boot_of_lookup hl)

@[simp] theorem State.segs_boot (t va n : Nat) : (s.segs t va n).1.boot = s.boot := by
  unfold State.segs
  split <;> simp

@[simp] theorem State.epRead_boot (t : Nat) (b : BargeInst) (kind addr n : Nat) :
    (s.epRead t b kind addr n).1.boot = s.boot := by
  unfold State.epRead
  simp only [boot_fst_ite]
  split
  · split <;> simp
  · split
    · rfl
    · split
      · rw [boot_foldl_fst fun r g => ?_, State.segs_boot]
        simp [boot_ite, boot_fst_ite]
      · rfl

@[simp] theorem State.readRec_boot (t : Nat) (b : BargeInst) (d : Desc) (q : Rec) :
    (s.readRec t b d q).1.boot = s.boot := by
  unfold State.readRec
  split
  · rfl
  · simp [boot_fst_ite]

@[simp] theorem State.recsWrites_boot (t : Nat) (b : BargeInst) (d : Desc) (l : List Rec) :
    (s.recsWrites t b d l).1.boot = s.boot := by
  unfold State.recsWrites
  rw [boot_foldl_fst fun r q => ?_]
  simp

@[simp] theorem State.transposeWrites_boot (t : Nat) (b : BargeInst) (d : Desc) :
    (s.transposeWrites t b d).1.boot = s.boot := by
  unfold State.transposeWrites
  dsimp only
  rw [boot_foldl_fst fun acc m => ?_]
  rw [boot_foldl_fst fun r i => ?_]
  simp

@[simp] theorem State.bargeWrites_boot (t : Nat) (b : BargeInst) (d : Desc) :
    (s.bargeWrites t b d).1.boot = s.boot := by
  unfold State.bargeWrites
  split <;> simp

@[simp] theorem State.indexFaults_boot (t : Nat) (b : BargeInst) : (s.indexFaults t b).boot = s.boot :=
  boot_foldl (fun _ _ => State.fault_boot ..) _ s

@[simp] theorem State.sendRead_boot (r : IoRead) (tag : Nat) : (s.sendRead r tag).boot = s.boot := rfl

@[simp] theorem State.pumpReads_boot (fuel : Nat) : (s.pumpReads fuel).boot = s.boot := by
  induction fuel generalizing s with
  | zero => rfl
  | succ fuel ih =>
    unfold State.pumpReads
    split
    · simp [boot_ite, ih]
    · rfl

@[simp] theorem State.ioRequest_boot (user : IoUser) (a n : Nat) : (s.ioRequest user a n).boot = s.boot := by
  simp [State.ioRequest]

@[simp] theorem State.bargeHostReads_boot (t : Nat) (b : BargeInst) (d : Desc) :
    (s.bargeHostReads t b d).1.boot = s.boot := by
  unfold State.bargeHostReads
  rw [boot_fst_ite, boot_foldl_fst fun r x => ?_, ite_self]
  exact r.1.segs_boot ..

@[simp] theorem State.berthTx_boot (b : Nat) (o : Out) : (s.berthTx b o).boot = s.boot := by
  simp [State.berthTx, boot_ite]

@[simp] theorem State.berthMsg_boot (b t id addr off len : Nat) (wr : Bool) (bytes : PBytes) :
    (s.berthMsg b t id addr off len wr bytes).1.boot = s.boot := by
  simp [State.berthMsg]

@[simp] theorem State.modBarge_boot (t id : Nat) (f : BargeInst → BargeInst) : (s.modBarge t id f).boot = s.boot := rfl

@[simp] theorem State.berthMissing_boot (b t id off len : Nat) : (s.berthMissing b t id off len).boot = s.boot := by
  simp [State.berthMissing]

@[simp] theorem State.berthReads_boot (t : Nat) (b : BargeInst) (d : Desc) : (s.berthReads t b d).boot = s.boot := by
  refine boot_foldl (fun u x => boot_foldl (fun v p => ?_) _ u) _ s
  simp [boot_ite]

@[simp] theorem State.berthWrites_boot (t : Nat) (b : BargeInst) (d : Desc) : (s.berthWrites t b d).boot = s.boot := by
  unfold State.berthWrites
  dsimp only
  rw [boot_foldl fun u x => boot_foldl (fun v p => ?_) _ u]
  · simp
  · simp [boot_ite]

@[simp] theorem State.bargeGo_boot (t id : Nat) : (s.bargeGo t id).boot = s.boot := by
  unfold State.bargeGo
  split
  · rfl
  · simp [boot_ite]

@[simp] theorem State.bargeRequests_boot (t id : Nat) : (s.bargeRequests t id).boot = s.boot := by
  unfold State.bargeRequests
  split
  · rfl
  · simp [boot_ite, boot_foldl]

@[simp] theorem State.indexList_boot (t : Nat) (d : Desc) : (s.indexList t d).1.boot = s.boot := by
  simp [State.indexList, boot_fst_ite]

@[simp] theorem State.bargeStart_boot (t id : Nat) : (s.bargeStart t id).boot = s.boot := by
  unfold State.bargeStart
  split
  · rfl
  · simp [boot_ite]

@[simp] theorem State.startBarges_boot (t : Nat) : (s.startBarges t).boot = s.boot :=
  boot_foldl (fun _ _ => State.bargeStart_boot ..) _ s

/-! ### Ring records and aborted contexts -/

@[simp] theorem State.atHome_boot {act : State → State} (hact : ∀ t, (act t).boot = t.boot) (c : HeldReq)
    (lk : Option Nat) (ts : List Touch) : (s.atHome c lk ts act).boot = s.boot := by
  have hask (t : State) (x : Touch) : (t.askHost x).boot = t.boot := by
    unfold State.askHost
    split <;> simp [boot_ite]
  unfold State.atHome
  simp [boot_ite, hact, boot_foldl hask]

@[simp] theorem State.flagAtHome_boot (host : Bool) (a : Nat) (bs : List Byte) :
    (s.flagAtHome host a bs).boot = s.boot := by
  simp [State.flagAtHome, State.doNonCachingWrite, boot_ite]

@[simp] theorem State.ringWrite_boot (c : Nat) (x : Ring) (off : Nat) (bs : List Byte) :
    (s.ringWrite c x off bs).1.boot = s.boot := by
  simp [State.ringWrite, boot_fst_ite]

@[simp] theorem State.putRecord_boot (c : Nat) (e : List Byte × Bool) : (s.putRecord c e).1.boot = s.boot := by
  simp [State.putRecord, boot_fst_ite, boot_ite]

@[simp] theorem State.tryRecord_boot (c : Nat) (e : List Byte × Bool) : (s.tryRecord c e).1.boot = s.boot := by
  simp [State.tryRecord, State.holdRecord, boot_fst_ite]

@[simp] theorem State.endQuiet_boot (c r seq flags : Nat) (f : Fin) : (s.endQuiet c r seq flags f).boot = s.boot := by
  simp [State.endQuiet, State.advance, boot_ite]

@[simp] theorem State.dropWatch_boot (host : Bool) (la : Nat) : (s.dropWatch host la).boot = s.boot := by
  unfold State.dropWatch State.unwatchLine
  split
  · rfl
  · split <;> simp

@[simp] theorem State.endWatch_boot (w : Wait) : (s.endWatch w).boot = s.boot := by
  unfold State.endWatch
  split
  · simp [boot_ite]
  · rfl

@[simp] theorem State.haltOrder_boot (k : Nat) (release : Bool) : (s.haltOrder k release).boot = s.boot := by
  simp [State.haltOrder, boot_ite]

@[simp] theorem State.abortWaits_boot (p : Wait → Bool) (f : Fin) : (s.abortWaits p f).boot = s.boot := by
  unfold State.abortWaits
  rw [boot_foldl fun t w => ?_]
  simp

@[simp] theorem State.haltRings_boot : s.haltRings.boot = s.boot := by simp [State.haltRings]

@[simp] theorem State.abortContext_boot (c : Nat) : (s.abortContext c).boot = s.boot := by
  simp [State.abortContext, boot_ite, boot_foldl]

@[simp] theorem State.drainAborts_boot : s.drainAborts.boot = s.boot := by
  simp [State.drainAborts, boot_ite, boot_foldl]

/-! ### The host's port and configuration space -/

@[simp] theorem State.decoderCommit_boot (d base size skip ways gran : Nat) (lockIt : Bool) :
    (s.decoderCommit d base size skip ways gran lockIt).boot = s.boot := by
  simp [State.decoderCommit, boot_ite]

@[simp] theorem State.unmask_boot (vec : Nat) : (s.unmask vec).boot = s.boot := by
  simp [State.unmask, boot_ite]

@[simp] theorem State.watchLine_boot (host : Bool) (la : Nat) : (s.watchLine host la).1.boot = s.boot := by
  unfold State.watchLine
  dsimp only
  split
  · simp
  · simp [boot_fst_ite]

@[simp] theorem State.tryWatch_boot (c r : Nat) : (s.tryWatch c r).boot = s.boot := by
  have hw (host : Bool) (la : Nat) {t : State} {b : Bool} (h : s.watchLine host la = (t, b)) : t.boot = s.boot := by
    rw [← s.watchLine_boot host la, h]
  unfold State.tryWatch
  dsimp only
  rw [boot_ite]
  split
  · rfl
  · split
    · next h => exact (hw _ _ h :)
    · next h => exact hw _ _ h

@[simp] theorem State.assignWatches_boot : s.assignWatches.boot = s.boot := by
  unfold State.assignWatches
  rw [boot_ite, boot_foldl fun t e => boot_foldl (fun u r => ?_) _ t, ite_self]
  simp [boot_ite]

@[simp] theorem State.cacheEnable_boot (en : Bool) : (s.cacheEnable en).boot = s.boot := by
  unfold State.cacheEnable
  dsimp only
  rw [boot_ite, boot_foldl fun t e => boot_foldl (fun u r => ?_) _ t]
  · simp
  · simp [boot_ite]

@[simp] theorem State.spdmReply_boot (code session : Nat) (bs : List Byte) :
    (s.spdmReply code session bs).boot = s.boot := rfl
@[simp] theorem State.spdmError_boot : s.spdmError.boot = s.boot := rfl
@[simp] theorem State.spdmFree_boot (code n : Nat) : (s.spdmFree code n).1.boot = s.boot := rfl

theorem State.inSession_boot {act : State → State} (hact : (act s).boot = s.boot) (session : Nat) :
    (s.inSession session act).boot = s.boot := by
  unfold State.inSession
  rw [boot_ite, hact]
  exact ite_self _

@[simp] theorem State.sendUnmasked_boot : s.sendUnmasked.boot = s.boot := by
  unfold State.sendUnmasked
  rw [boot_foldl fun t v => ?_]
  simp

@[simp] theorem State.cfgStore_boot (off new : Nat) : (s.cfgStore off new).boot = s.boot := rfl
@[simp] theorem State.cfgMsi_boot (v : Nat) : (s.cfgMsi v).boot = s.boot := by simp [State.cfgMsi]
@[simp] theorem State.cfgMsix_boot (v : Nat) : (s.cfgMsix v).boot = s.boot := by simp [State.cfgMsix]
@[simp] theorem State.cfgAerClear_boot (corr : Bool) (v : Nat) : (s.cfgAerClear corr v).boot = s.boot := rfl
@[simp] theorem State.cfgCxl_boot (v : Nat) : (s.cfgCxl v).boot = s.boot := by simp [State.cfgCxl, boot_ite]

@[simp] theorem State.readings_boot (junction ports : List (Nat × Nat)) : (s.readings junction ports).boot = s.boot := by
  unfold State.readings
  dsimp only
  rw [boot_foldl fun t r => ?_, boot_foldl fun t p => ?_]
  · split <;> simp
  · simp

@[simp] theorem State.tripRecords_boot (ns : List Nat) : (s.tripRecords ns).boot = s.boot :=
  boot_foldl (fun _ _ => State.fault_boot ..) _ s

@[simp] theorem State.stopCopies_boot : s.stopCopies.boot = s.boot := rfl

/-! ### What safe state stops (R462, R612) -/

section
variable {s} (h : s.boot.safe = true)
include h

theorem ioOpened_boot_of_safe : s.ioOpened.boot = s.boot := by simp [State.ioOpened, h]
theorem flr_boot_of_safe : s.flr.boot = s.boot := by simp [State.flr, h]
theorem enterSafe_boot_of_safe : s.enterSafe.boot = s.boot := by simp [State.enterSafe, h]

theorem setBusMaster_boot_of_safe (on : Bool) : (s.setBusMaster on).boot = s.boot := by
  simp [State.setBusMaster, boot_ite, ioOpened_boot_of_safe, h]

theorem setD3hot_boot_of_safe (on : Bool) : (s.setD3hot on).boot = s.boot := by
  simp [State.setD3hot, boot_ite, ioOpened_boot_of_safe, h]

theorem cfgCommand_boot_of_safe (v : Nat) : (s.cfgCommand v).boot = s.boot := by
  simp [State.cfgCommand, boot_ite, setBusMaster_boot_of_safe, h]

theorem cfgPower_boot_of_safe (v : Nat) : (s.cfgPower v).boot = s.boot := by
  simp [State.cfgPower, boot_ite, setD3hot_boot_of_safe, h]

theorem cfgDevCtl_boot_of_safe (v : Nat) : (s.cfgDevCtl v).boot = s.boot := by
  simp [State.cfgDevCtl, boot_ite, flr_boot_of_safe, h]

theorem cfgDword_boot_of_safe (off v wr : Nat) : (s.cfgDword off v wr).boot = s.boot := by
  unfold State.cfgDword
  split
  case h_1 => exact cfgCommand_boot_of_safe h v
  case h_2 => exact cfgPower_boot_of_safe h v
  case h_5 => exact cfgDevCtl_boot_of_safe (s := s.cfgStore 0x78 v) h v
  all_goals simp [boot_ite]

theorem cfgWrite_boot_of_safe (off size : Nat) (v : Word) : (s.cfgWrite off size v).boot = s.boot :=
  cfgDword_boot_of_safe h ..

theorem receiveFault_boot_of_safe (m : FaultMsg) : (s.receiveFault m).boot = s.boot := by
  simp [State.receiveFault, boot_ite, enterSafe_boot_of_safe, h]

theorem thermalTrip_boot_of_safe (junction ports : List (Nat × Nat)) : (s.thermalTrip junction ports).boot = s.boot := by
  simp [State.thermalTrip, boot_ite, enterSafe_boot_of_safe, h]

theorem role16_boot_of_safe (code : Nat) (act : State → State) : (s.role16 code act).boot = s.boot := by
  simp [State.role16, State.reply, h]

theorem barRead_boot_of_safe (off size : Nat) (act : State → State) : (s.barRead off size act).boot = s.boot := by
  simp [State.barRead, h]

end

end

end Sys2Proof.Machine
end

section
/-! Safe state is left by COLD_RESET alone (R613). -/

open Sys2Proof Sys2Proof.Machine

namespace Sys2Proof.Machine

/-! ### A command that begins in safe state -/

/-- The state that an outcome leaves is in safe state. -/
def EndsSafe (o : Host.Outcome State Fault Refusal) : Prop := ∀ t, o = .next t → t.boot.safe = true

section
variable {s : State} (h : s.boot.safe = true)
include h

/-- A command that leaves the bring-up state as it was leaves safe state. -/
theorem done_endsSafe {t : State} (ht : t.boot = s.boot) : EndsSafe (done s t) := by
  rintro u ⟨⟩
  exact (congrArg Boot.safe ht).trans h

theorem doneLive_endsSafe (t : State) : EndsSafe (doneLive s t) := by
  unfold doneLive
  rw [if_pos h]
  exact done_endsSafe h rfl

theorem done_issue_endsSafe {t : Nat} {g : Guard} {op : Bool → Tile → Issue} : EndsSafe (done s (s.issue t g op)) :=
  done_endsSafe h (s.issue_boot t g op)

theorem done_issueV_endsSafe {t : Nat} {g : Guard} {srcs : List Nat} {c l vd : Nat}
    {f : Tile → Option (List PElem × Bool)} {ss : List Nat} {off : Nat} :
    EndsSafe (done s (s.issueV t g srcs c l vd f ss off)) :=
  done_endsSafe h (s.issueV_boot ..)

/-- A muster that the tile issues is counted (R173). -/
theorem execMuster_endsSafe (t : Nat) (g : Guard) (bid : BitVec 8) : EndsSafe (execMuster t g bid s) := by
  refine done_endsSafe h ?_
  rw [boot_ite]
  split
  · split <;> simp
  · simp

theorem execRegisterWrite_endsSafe (a : HostPlace) (size : Nat) (v : Word) :
    EndsSafe (execRegisterWrite a size v s) := by
  unfold execRegisterWrite
  split
  · exact doneLive_endsSafe h _
  · exact doneLive_endsSafe h _
  · exact done_endsSafe h (cfgWrite_boot_of_safe h ..)

theorem execTckLoRead_endsSafe (a : HostRead) : EndsSafe (execTckLoRead a s) := by
  refine done_endsSafe h ?_
  split
  · exact barRead_boot_of_safe h ..
  · exact barRead_boot_of_safe h ..
  · rfl

theorem execMemClnEvct_endsSafe (hpa metaValue : Nat) : EndsSafe (execMemClnEvct hpa metaValue s) := by
  refine done_endsSafe h ?_
  split <;> simp [boot_ite]

theorem execSnpData_endsSafe (hpa : Nat) : EndsSafe (execSnpData hpa s) := by
  refine done_endsSafe h ?_
  split <;> simp

theorem execCxlCacheHostResponse_endsSafe (hpa : Nat) (data : Option (List Byte)) (poison : Bool) :
    EndsSafe (execCxlCacheHostResponse hpa data poison s) := by
  refine done_endsSafe h ?_
  split
  · rfl
  · dsimp only
    split <;> simp [boot_ite]

theorem execKeyExchange_endsSafe (slot : Nat) : EndsSafe (execKeyExchange slot s) := by
  refine done_endsSafe h ?_
  split <;> simp [boot_ite]

/-- Every command but COLD_RESET, run in safe state, ends in it (R613): most stop at once, and what the others do leaves
the bring-up state alone. -/
theorem exec_endsSafe {c : Instr} (hc : ∀ b, c ≠ .coldReset b) : EndsSafe (exec c s) := by
  cases c
  case coldReset b => exact absurd rfl (hc b)
  -- tile operations
  case nop | endLeg | br | brr | alu | addi | andi | ori | xori | shfi | li | shin | cmp | cmpi | pop | ld | st | rds | flg
      | tNop | lds | mma | expBank | imp | zb | gxi | gxr | vNop | vld | bNop | barge | waitLc | waitLock | lcset | gld
      | gst | gamo | fence =>
    exact done_issue_endsSafe h
  case fop | hop | iop | fcmp | icmp | vsel | vfn | vscan | vgadd | vgexp | vcvt | vperm | vbc =>
    exact done_issueV_endsSafe h
  case vst | vext => exact done_endsSafe h (by simp [boot_ite])
  case muster => exact execMuster_endsSafe h _ _ _
  case bundleStallRelease => exact done_endsSafe h (State.releaseStall_boot ..)
  -- the host's registers and memory
  case registerWrite => exact execRegisterWrite_endsSafe h _ _ _
  case tckLoRead => exact execTckLoRead_endsSafe h _
  case bar4Write => exact done_endsSafe h (by rw [if_pos h])
  case bar4Read => exact done_endsSafe h (by rw [if_pos h, State.sendPieces_boot])
  case memRd | memWr => exact done_endsSafe h (by rw [if_pos h]; rfl)
  case memClnEvct => exact execMemClnEvct_endsSafe h _ _
  case biconflict => exact done_endsSafe h (by simp [boot_ite])
  case decoderCommit => exact done_endsSafe h (State.decoderCommit_boot ..)
  -- the host's cache
  case snpData => exact execSnpData_endsSafe h _
  case snpInv => exact done_endsSafe h (by simp)
  case snpCur => exact done_endsSafe h rfl
  case cxlCacheHostResponse => exact execCxlCacheHostResponse_endsSafe h _ _ _
  case cacheEnableWrite => exact done_endsSafe h (State.cacheEnable_boot ..)
  case cacheWritebackInvalidate => exact done_endsSafe h (State.cacheFlush_boot s)
  case gpfPhase1 => exact done_endsSafe h (boot_foldl (fun t la => t.cleanLine_boot true la) ..)
  -- the host's port
  case flr => exact done_endsSafe h (flr_boot_of_safe h)
  case busMasterDisable | busMasterEnable => exact done_endsSafe h (setBusMaster_boot_of_safe h _)
  case d3hotEntry | d0Return => exact done_endsSafe h (setD3hot_boot_of_safe h _)
  case tagQuarantineExpiry => exact done_endsSafe h (State.pumpReads_boot ..)
  case vectorUnmask => exact done_endsSafe h (by simp [boot_ite])
  case ideCheckFailed => exact done_endsSafe h (State.aer_boot ..)
  -- SPDM
  case getVersion => exact done_endsSafe h rfl
  case getCapabilities | negotiateAlgorithms | getDigests | getCertificate | challenge | getMeasurements | finish =>
    exact done_endsSafe h (by simp [boot_ite])
  case keyExchange => exact execKeyExchange_endsSafe h _
  case heartbeat | keyUpdate | endSession => exact done_endsSafe h (s.inSession_boot rfl _)
  case ideKeyProgramming =>
    exact done_endsSafe h (s.inSession_boot (by simp [boot_ite, ioOpened_boot_of_safe, h]) _)
  -- faults, trips and the towpath
  case powerGoodLoss => exact done_endsSafe h (by simp [boot_ite, h])
  case thermalTrip => exact done_endsSafe h (thermalTrip_boot_of_safe h ..)
  case faultMessageReceive => exact done_endsSafe h (receiveFault_boot_of_safe h _)
  case viralReceive => exact done_endsSafe h (by simp)
  case faultOutPulseEnd => exact done_endsSafe h rfl
  case stackTempSample => exact done_endsSafe h (by simp [boot_ite])
  case getStatus | getTemps => exact done_endsSafe h rfl
  case getClocks | getLimits | getPower | setLease | wwReset => exact done_endsSafe h (role16_boot_of_safe h ..)
  all_goals exact doneLive_endsSafe h _

end

/-! ### A tick -/

theorem zeros_eq_some_iff {n : Nat} {z : BitVec n} {i j : Instr} : zeros z i = some j ↔ z = 0 ∧ i = j := by
  simp [zeros]

theorem slot_ne_coldReset {t : Nat} {w : BitVec 32} {i : Instr}
    (hi : slotS t w = some i ∨ slotT t w = some i ∨ slotV t w = some i ∨ slotB t w = some i) (b : BistReport) :
    i ≠ .coldReset b := by
  rintro rfl
  rcases hi with hi | hi | hi | hi
  all_goals
    simp only [slotS, slotT, slotV, slotB] at hi
    split at hi <;> simp [zeros_eq_some_iff] at hi

theorem bundleOps_ne_coldReset {t : Nat} {q : Quad} {ops : List Instr} (hq : bundleOps t q = some ops) :
    ∀ i ∈ ops, ∀ b, i ≠ .coldReset b := by
  simp only [bundleOps, Option.bind_eq_bind, Option.bind_eq_some_iff, Option.pure_def, Option.some.injEq] at hq
  obtain ⟨i, hi, j, hj, k, hk, l, hl, rfl⟩ := hq
  simp only [List.forall_mem_cons, List.not_mem_nil, IsEmpty.forall_iff, implies_true, and_true]
  exact ⟨slot_ne_coldReset (.inl hi), slot_ne_coldReset (.inr (.inl hj)), slot_ne_coldReset (.inr (.inr (.inl hk))),
    slot_ne_coldReset (.inr (.inr (.inr hl)))⟩

section
variable {s : State} (h : s.boot.safe = true)
include h

theorem run_safe {i : Instr} (hi : ∀ b, i ≠ .coldReset b) : (s.run i).boot.safe = true := by
  unfold State.run
  split
  · next t ht => exact exec_endsSafe h hi t ht
  · exact h

theorem issueBundle_safe (t : Nat) : (s.issueBundle t).boot.safe = true := by
  unfold State.issueBundle
  dsimp only
  split
  · simpa using h
  split
  · simpa using h
  split
  · simpa using h
  · next ops hops =>
    split
    · exact h
    · exact List.foldlRecOn (motive := fun u => u.boot.safe = true) ops State.run h fun u hu i hi =>
        run_safe hu (bundleOps_ne_coldReset hops i hi)

theorem tickTile_safe (t : Nat) : (s.tickTile t).boot.safe = true := by
  unfold State.tickTile
  dsimp only
  split
  · exact h
  · rw [State.startBarges_boot, State.endTileCycle_boot]
    split
    · split
      · exact issueBundle_safe (s := s.setTile t _) h t
      · exact h
    · split
      · exact issueBundle_safe h t
      · exact h

theorem tick_safe : s.tick.boot.safe = true :=
  List.foldlRecOn (motive := fun u => u.boot.safe = true) _ State.tickTile h fun _ hu t _ => tickTile_safe hu t

theorem idle_safe : s.idle.boot.safe = true := by
  rw [State.idle, if_pos h]
  exact tick_safe h

end

end Sys2Proof.Machine

/-- Settles O39: a command but COLD_RESET, or a tick, which runs tile operations only, leaves safe state as it was. -/
theorem onlyColdResetLeavesSafeState : Obligations.OnlyColdResetLeavesSafeState := by
  intro s t hs hcold hstep
  unfold step at hstep
  split at hstep
  · cases hstep
    exact idle_safe hs
  · next c rest hp =>
    have hc (b : BistReport) : c ≠ .coldReset b := by
      rintro rfl
      exact hcold b (by rw [hp]; rfl)
    exact exec_endsSafe (s := { s with pending := rest }) hs hc t hstep

end

section
/-! How every command ends (R1, R613, R615): it leaves the queue and the fuses alone and drives FAULT_OUT by its rule. -/

open Sys2Proof Sys2Proof.Machine

namespace Sys2Proof.Machine

/-- Every command ends by sealing the state that its operation leaves. -/
theorem exec_eq_done (c : Instr) (s : State) : ∃ t, exec c s = done s t := by
  cases c
  case registerWrite a size v =>
    show ∃ t, execRegisterWrite a size v s = done s t
    unfold execRegisterWrite
    split <;> exact ⟨_, rfl⟩
  all_goals exact ⟨_, rfl⟩

/-! ### FAULT_OUT (R615) -/

/-- The collector's registers reset to the same values under all fuses. -/
theorem bit_seal {o : Nat} (ho : ∀ f g : Fuses, regReset f o = regReset g o) (t s : State) (i : Nat) :
    (t.seal s).bit o i = t.bit o i := by
  unfold State.bit State.reg
  rw [ho (t.seal s).fuses t.fuses]
  rfl

theorem testBit_bitsOf (n hi lo k : Nat) : (bitsOf n hi lo).testBit k = (decide (k < hi + 1 - lo) && n.testBit (k + lo)) := by
  rw [bitsOf, Nat.testBit_mod_two_pow, Nat.testBit_div_two_pow]

theorem fld_testBit (s : State) (o hi lo k : Nat) : (s.fld o hi lo).testBit k = (decide (k < hi + 1 - lo) && s.bit o (k + lo)) :=
  testBit_bitsOf ..

/-- LEVEL mode: the pin is high while a pending class is selected. -/
theorem pendingSelected_iff (s : State) : s.fld FLT_STAT 4 0 &&& s.fld FLT_PIN 12 8 ≠ 0 ↔
    ∃ k < 5, s.bit FLT_STAT k = true ∧ s.bit FLT_PIN (8 + k) = true := by
  constructor
  · intro h
    obtain ⟨k, hk⟩ := Nat.exists_testBit_of_ne_zero h
    simp only [Nat.testBit_and, fld_testBit, Bool.and_eq_true, decide_eq_true_eq] at hk
    exact ⟨k, hk.1.1, hk.1.2, Nat.add_comm .. ▸ hk.2.2⟩
  · rintro ⟨k, hk, hs, hp⟩ h0
    have := congrArg (Nat.testBit · k) h0
    simp [fld_testBit, hk, hs, Nat.add_comm k, hp] at this

theorem faultLevel_of_live {s : State} (hs : s.boot.safe = false) :
    faultLevel s = if s.bit FLT_PIN 0 then s.pins.pulse || s.bit FLT_PIN 16
      else decide (s.fld FLT_STAT 4 0 &&& s.fld FLT_PIN 12 8 ≠ 0) := by
  rw [faultLevel, if_neg (by simp [hs])]
  rfl

/-- A sealed state drives the pin as its rule says. -/
theorem faultOutRight_seal (t s : State) : (t.seal s).FaultOutRight := by
  have hpin := bit_seal (o := FLT_PIN) (fun _ _ => rfl) t s
  have hstat := bit_seal (o := FLT_STAT) (fun _ _ => rfl) t s
  refine ⟨fun hs => if_pos hs, fun hs hm => ?_, fun hs hm => ?_⟩
  · have hlevel : (t.seal s).pins.faultOut = decide (t.fld FLT_STAT 4 0 &&& t.fld FLT_PIN 12 8 ≠ 0) :=
      (faultLevel_of_live hs).trans (if_neg (by simp [hm]))
    simp only [hlevel, decide_eq_true_eq, pendingSelected_iff, hpin, hstat]
  · have hpulse : (t.seal s).pins.faultOut = (t.pins.pulse || t.bit FLT_PIN 16) :=
      (faultLevel_of_live hs).trans (if_pos ((hpin 0).symm.trans hm))
    rw [hpulse, hpin]
    rfl

/-! ### Safe state, and tiles that do not issue -/

/-- A device in safe state with no decoder enabled and no traffic (R612). -/
def safeIdle : State := { boot := { safe := true } }

/-- The host's write of Memory Space Enable is taken in safe state too (R443, R462). -/
theorem safeIdle_takes_memSpace : exec (.registerWrite ⟨.config, 4⟩ 4 2) safeIdle = done safeIdle (safeIdle.cfgWrite 4 4 2) ∧
    (safeIdle.cfgWrite 4 4 2).port.memSpace = true ∧ safeIdle.port.memSpace = false :=
  ⟨rfl, rfl, rfl⟩

/-- A tile that issues nothing now is left alone by an operation (R138, R142, R167). -/
theorem issue_idle {s : State} {t : Nat} (h : (s.tile t).issuing = false) (g : Guard) (op : Bool → Tile → Issue) :
    s.issue t g op = s := by
  simp [State.issue, h]

theorem issueV_idle {s : State} {t : Nat} (h : (s.tile t).issuing = false) (g : Guard) {srcs : List Nat} {c l vd : Nat}
    {f : Tile → Option (List PElem × Bool)} {ss : List Nat} {off : Nat} : s.issueV t g srcs c l vd f ss off = s := by
  simp [State.issueV, issue_idle h, h]

end Sys2Proof.Machine

/-- Settles O1: by definition of the step. -/
theorem stepRunsTheFrontCommand : Obligations.StepRunsTheFrontCommand := fun _ _ _ => rfl

/-- Settles O2: by definition of the step, and an idle step ends sealed. -/
theorem emptyQueueTicks : Obligations.EmptyQueueTicks := fun s hs => ⟨by rw [step, hs], hs, rfl⟩

/-- Settles O3: every command ends by sealing a state with the queue and the fuses it began with. -/
theorem everyCommandAnswersANextState : Obligations.EveryCommandAnswersANextState := fun c s =>
  have ⟨t, ht⟩ := exec_eq_done c s
  ⟨t.seal s, ht, rfl, rfl⟩

/-- Settles O4: a command and an idle step end sealed, and a sealed state drives the pin by its rule. -/
theorem faultOutFollowsItsRule : Obligations.FaultOutFollowsItsRule := by
  intro s t hstep
  unfold step at hstep
  split at hstep
  · cases hstep
    exact faultOutRight_seal ..
  · next c rest _ =>
    obtain ⟨u, hu⟩ := exec_eq_done c { s with pending := rest }
    cases hu.symm.trans hstep
    exact faultOutRight_seal ..

/-- Settles O5: the reset state is in LEVEL mode with no class pending. -/
theorem faultOutRightAtReset : Obligations.FaultOutRightAtReset :=
  ⟨fun h => Bool.noConfusion h, fun _ _ => by decide, fun _ h => absurd h (by decide)⟩

/-- Refutes O6: `servedInSafe` leaves out the writes of configuration space, which the host's port serves in safe state
too: one that sets Memory Space Enable changes the device. -/
theorem not_safeStateStopsTheDevice : ¬ Obligations.SafeStateStopsTheDevice := by
  intro h
  obtain ⟨hexec, hset, hclear⟩ := safeIdle_takes_memSpace
  have hsame := h (.registerWrite ⟨.config, 4⟩ 4 2) safeIdle rfl rfl
  rw [hexec, done_eq, Host.Outcome.next.injEq] at hsame
  have hkeeps := congrArg (fun u : State => u.port.memSpace) hsame
  exact Bool.noConfusion (hset.symm.trans (hkeeps.trans hclear))

/-- Settles O27: no operation of a bundle acts on a tile that does not issue. -/
theorem tileThatDoesNotIssueIsLeftAlone : Obligations.TileThatDoesNotIssueIsLeftAlone := by
  intro s t g h
  refine ⟨fun rd ra rb fn => ?_, fun rb ra imm => ?_, fun bank buf z ag bs fmt ra rb => ?_, fun vd va vb fn => ?_,
    fun lc v => ?_, fun bid => ?_⟩
  · exact congrArg (done s) (issue_idle h g _)
  · exact congrArg (done s) (issue_idle h g _)
  · exact congrArg (done s) (issue_idle h g _)
  · exact congrArg (done s) (issueV_idle h g)
  · exact congrArg (done s) (issue_idle h g _)
  · exact congrArg (done s) ((if_neg (by simp [h])).trans (issue_idle h g _))
end

section
/-! The scalar slot (R128 to R147): what an enabled operation leaves, when its result is there, and what a hold access and a
write of the hold do. -/

open Sys2Proof Sys2Proof.Machine

namespace Sys2Proof.Machine

/-! ### The cycles of a tile in which one act is planned -/

theorem closeCycle_iterate {α : Type} {f : Tile → α} (hf : ∀ x, f x.closeCycle = f x) (n : Nat) (x : Tile) :
    f (Tile.closeCycle^[n] x) = f x := by
  induction n generalizing x with
  | zero => rfl
  | succ n ih => exact (ih _).trans (hf x)

theorem closeCycle_iterate_cyc (n : Nat) (x : Tile) : (Tile.closeCycle^[n] x).cyc = x.cyc + n := by
  induction n generalizing x with
  | zero => rfl
  | succ n ih => rw [Function.iterate_succ_apply, ih, closeCycle_cyc]; omega

theorem cycles_add (m n : Nat) (x : Tile) : Tile.cycles (m + n) x = Tile.cycles n (Tile.cycles m x) := by
  induction m generalizing x with
  | zero => rw [Nat.zero_add]; rfl
  | succ m ih => rw [Nat.succ_add]; exact ih _

/-- Until its cycle an act waits. -/
theorem cycles_wait {e : Sched} {n : Nat} {x : Tile} (hs : x.sched = [e]) (hn : x.cyc + n ≤ e.due) :
    Tile.cycles n x = Tile.closeCycle^[n] x := by
  induction n generalizing x with
  | zero => rfl
  | succ n ih =>
    have hwait : x.endCycle.tile = x.closeCycle := endCycle_waits (by simp [hs]; omega)
    rw [Tile.cycles, hwait, ih (by simpa using hs) (by simp; omega)]
    rfl

/-- The tile when the cycle of its one act ends, before the act. -/
def Tile.atAct (x : Tile) (d : Nat) : Tile := { Tile.closeCycle^[d] x with sched := [] }

/-- A part of the tile that neither the cycle nor the schedule touches. -/
theorem atAct_keeps {α : Type} {f : Tile → α} (hc : ∀ x, f x.closeCycle = f x) (hf : ∀ x : Tile, f { x with sched := [] } = f x)
    (x : Tile) (d : Nat) : f (x.atAct d) = f x :=
  (hf _).trans (closeCycle_iterate hc d x)

section
variable {x : Tile} (hsched : x.sched = [])
include hsched

theorem plan_sched (rank d : Nat) (act : TileAct) : (x.plan rank d act).sched =
    [{ due := x.cyc + d, issued := x.cyc, rank := rank, pc := x.pc, act := act }] := by
  simp [Tile.plan, hsched]

theorem cycles_plan_wait (rank : Nat) {d n : Nat} (act : TileAct) (hn : n ≤ d) :
    Tile.cycles n (x.plan rank d act) = Tile.closeCycle^[n] (x.plan rank d act) :=
  cycles_wait (plan_sched hsched ..) (Nat.add_le_add_left hn x.cyc)

/-- A write acts at the end of its cycle on what the tile then holds. -/
theorem cycles_plan_write (rank d : Nat) {act : TileAct} (hr : act.reads = false) (hc : act.clears = false) :
    Tile.cycles (d + 1) (x.plan rank d act) =
      (((x.plan rank d act).atAct d).writeAct
        { due := x.cyc + d, issued := x.cyc, rank := rank, pc := x.pc, act := act }).tile.closeCycle := by
  rw [cycles_add, cycles_plan_wait hsched rank act (Nat.le_refl d)]
  refine endCycle_write ?_ ?_ hr hc
  · rw [closeCycle_iterate closeCycle_sched, plan_sched hsched]
  · rw [closeCycle_iterate_cyc]; exact Nat.le_refl _

/-- A read acts so too. -/
theorem cycles_plan_read (rank d : Nat) {act : TileAct} (hr : act.reads = true) :
    Tile.cycles (d + 1) (x.plan rank d act) =
      (((x.plan rank d act).atAct d).readAct
        { due := x.cyc + d, issued := x.cyc, rank := rank, pc := x.pc, act := act }).tile.closeCycle := by
  rw [cycles_add, cycles_plan_wait hsched rank act (Nat.le_refl d)]
  refine endCycle_read ?_ ?_ hr
  · rw [closeCycle_iterate closeCycle_sched, plan_sched hsched]
  · rw [closeCycle_iterate_cyc]; exact Nat.le_refl _

end

/-! ### Scalar results (R131, R132, R140) -/

theorem rs_putS (x : Tile) (r : Nat) (v : Word) (p : Bool) (q : Nat) :
    (x.putS r v p).rs q = if q = 0 then 0 else if q = r then v else x.rs q := by
  unfold Tile.putS
  by_cases hr : r = 0
  · subst hr; by_cases hq : q = 0 <;> simp [hq, Tile.rs]
  · by_cases hq : q = 0 <;> simp [hr, hq, Tile.rs, sget_sset, eq_comm]

theorem rsPoison_putS (x : Tile) (r : Nat) (v : Word) (p : Bool) (q : Nat) :
    (x.putS r v p).rsPoison q = if q = 0 then false else if q = r then p else x.rsPoison q := by
  unfold Tile.putS
  by_cases hr : r = 0
  · subst hr; by_cases hq : q = 0 <;> simp [hq, Tile.rsPoison]
  · by_cases hq : q = 0 <;> simp [hr, hq, Tile.rsPoison, sget_sset, eq_comm]

theorem writeS_true (x : Tile) (rank l r : Nat) (v : Word) (p : Bool) :
    x.writeS true rank l r v p = x.plan rank (l - 1) (.wrS r v p) := rfl

section
variable {x : Tile} (hsched : x.sched = []) (rank : Nat) {l : Nat} (hl : 1 ≤ l) (r : Nat) (v : Word) (p : Bool)
include hsched hl

/-- A scalar result is written at the end of cycle i + L - 1. -/
theorem cycles_writeS : Tile.cycles l (x.writeS true rank l r v p) =
    (((x.writeS true rank l r v p).atAct (l - 1)).putS r v p).closeCycle := by
  obtain ⟨d, rfl⟩ := Nat.exists_eq_add_of_le' hl
  exact cycles_plan_write hsched rank d rfl rfl

theorem cycles_writeS_rs (q : Nat) : (Tile.cycles l (x.writeS true rank l r v p)).rs q =
    if q = 0 then 0 else if q = r then v else x.rs q := by
  rw [cycles_writeS hsched rank hl]
  refine (rs_putS _ r v p q).trans ?_
  rw [atAct_keeps (f := fun y : Tile => y.rs q) (fun _ => rfl) (fun _ => rfl)]
  rfl

theorem cycles_writeS_rsPoison (q : Nat) : (Tile.cycles l (x.writeS true rank l r v p)).rsPoison q =
    if q = 0 then false else if q = r then p else x.rsPoison q := by
  rw [cycles_writeS hsched rank hl]
  refine (rsPoison_putS _ r v p q).trans ?_
  rw [atAct_keeps (f := fun y : Tile => y.rsPoison q) (fun _ => rfl) (fun _ => rfl)]
  rfl

omit hl in
theorem cycles_writeS_rs_of_lt {n : Nat} (hn : n < l) (q : Nat) :
    (Tile.cycles n (x.writeS true rank l r v p)).rs q = x.rs q := by
  rw [writeS_true, cycles_plan_wait hsched rank _ (Nat.le_sub_one_of_lt hn)]
  exact closeCycle_iterate (f := fun y : Tile => y.rs q) (fun _ => rfl) n _

end

/-! ### Operations of the scalar slot that go on -/

section
variable {s : State} {t : Nat} {g : Guard} (hs : s.Issues t g)
include hs

/-- An operation that reads registers with right parity. -/
theorem done_issue_reads {rs : List Nat} {op : Bool → Tile → Issue} {y : Tile} (hpar : (s.tile t).ParityOk rs)
    (hop : op true (s.tile t) = .ok y) : done s (s.issue t g (readsS rs op)) = .next (s.withTile t y) :=
  done_issue_ok hs ((readsS_ok hpar).trans hop)

theorem completes_stop_reads {c : Instr} {rs : List Nat} {op : Bool → Tile → Issue} {k : StopKind} {pc : Nat}
    (hpar : (s.tile t).ParityOk rs) (hc : exec c s = done s (s.issue t g (readsS rs op)))
    (hop : op true (s.tile t) = .stop k pc) : Completes c s fun u => u.tile t = (s.tile t).stopped k pc :=
  completes_stop hs hc ((readsS_ok hpar).trans hop)

theorem exec_shfi {rd ra : BitVec 5} {kind : BitVec 2} {amt : BitVec 6} {v : Word} (hpar : (s.tile t).ParityOk [ra.toNat])
    (hv : shiftOp kind.toNat ((s.tile t).rs ra.toNat) amt.toNat = some v) :
    exec (.shfi t g rd ra kind amt) s =
      .next (s.withTile t ((s.tile t).writeS true 0 1 rd.toNat v ((s.tile t).rsPoison ra.toNat))) :=
  done_issue_reads hs hpar (by rw [hv]; rfl)

theorem shfi_reserved_stops (rd : BitVec 5) {ra : BitVec 5} (amt : BitVec 6) (hpar : (s.tile t).ParityOk [ra.toNat]) :
    Completes (.shfi t g rd ra 3 amt) s fun u => u.tile t = (s.tile t).stopped .illegal (s.tile t).pc :=
  completes_stop_reads hs hpar rfl rfl

theorem exec_rds {rd : BitVec 5} {sel : BitVec 8} {v : Word} {p : Bool}
    (hv : s.special t (s.tile t) sel.toNat = some (v, p)) :
    exec (.rds t g rd sel) s = .next (s.withTile t ((s.tile t).writeS true 0 1 rd.toNat v p)) :=
  done_issue_ok hs (by rw [hv]; rfl)

theorem rds_reserved_stops (rd : BitVec 5) {sel : BitVec 8} (hsel : (4 ≤ sel.toNat ∧ sel.toNat < 0x10) ∨ 0x20 ≤ sel.toNat) :
    Completes (.rds t g rd sel) s fun u => u.tile t = (s.tile t).stopped .illegal (s.tile t).pc := by
  have hnone : s.special t (s.tile t) sel.toNat = none := by
    unfold State.special
    rw [if_neg (by omega), if_neg (by omega), if_neg (by omega), if_neg (by omega), if_neg (by omega)]
  exact completes_stop hs rfl (by rw [hnone])

end

/-! ### The predicates as a byte (R146) -/

/-- A number made of bits from bit 0 up. -/
theorem foldl_bits (f : Nat → Bool) (k : Nat) :
    let n := (List.range k).foldl (fun n p => n + bnat (f p) * 2 ^ p) 0
    n < 2 ^ k ∧ ∀ p < k, n.testBit p = f p := by
  induction k with
  | zero => simp
  | succ k ih =>
    obtain ⟨hlt, hbit⟩ := ih
    simp only [List.range_succ, List.foldl_append, List.foldl_cons, List.foldl_nil]
    generalize (List.range k).foldl (fun n p => n + bnat (f p) * 2 ^ p) 0 = n at hlt hbit
    refine ⟨?_, fun p hp => ?_⟩
    · have hb : bnat (f k) * 2 ^ k ≤ 2 ^ k := by cases f k <;> simp [bnat]
      rw [Nat.pow_succ]; omega
    · rw [Nat.add_comm, Nat.mul_comm, Nat.testBit_two_pow_mul_add _ hlt]
      split
      · next h => exact hbit p h
      · next h =>
        obtain rfl : p = k := by omega
        cases f p <;> simp [bnat]

theorem sticky_eq (x : Tile) : x.sticky = x.t2code.toNat + 2 * x.convert.toNat + 4 * x.lcsat.toNat := by
  cases h1 : x.t2code <;> cases h2 : x.convert <;> cases h3 : x.lcsat <;> simp [Tile.sticky, bnat, h1, h2, h3]

end Sys2Proof.Machine

/-- Settles O8: each immediate form writes one scalar result of latency 1. -/
theorem scalarImmediates : Obligations.ScalarImmediates := by
  refine fun s t g rd ra imm imm17 amt hs => ⟨fun hpar => ?_, done_issue_ok hs rfl, fun hpar => ?_⟩
  · exact ⟨done_issue_reads hs hpar rfl, done_issue_reads hs hpar rfl, done_issue_reads hs hpar rfl,
      done_issue_reads hs hpar rfl, exec_shfi hs hpar rfl, exec_shfi hs hpar rfl, exec_shfi hs hpar rfl⟩
  · exact done_issue_reads hs hpar rfl

/-- Settles O9: RDS writes the special value and FLG the flags it then clears; a planned scalar write waits for its
cycle. -/
theorem specialReadsAndResultLatency : Obligations.SpecialReadsAndResultLatency := by
  refine ⟨fun s t g rd hs => ⟨exec_rds hs rfl, fun lt hlt => exec_rds hs ?_, fun k ft hft => exec_rds hs ?_,
    ⟨(s.tile t).predByte.1, exec_rds hs rfl, foldl_bits _ 8⟩, fun c hc => exec_rds hs ?_,
    fun mask => done_issue_ok hs (by rw [sticky_eq]; rfl)⟩,
    fun x l r v p hsched hinj hl hr => ⟨fun n hn => ?_, ?_, ?_, fun q hq => ?_⟩⟩
  · simp [State.special, hlt]
  · simp [State.special, hft]
  · have hsel : (BitVec.ofNat 8 (0x10 + c)).toNat = 0x10 + c := by
      rw [BitVec.toNat_ofNat]; omega
    rw [hsel, State.special, if_neg (by omega), if_neg (by omega), if_neg (by omega), if_neg (by omega),
      if_pos (by omega), Nat.add_sub_cancel_left]
  · exact cycles_writeS_rs_of_lt hsched 0 r v p hn r
  · rw [cycles_writeS_rs hsched 0 hl, if_pos rfl]
  · rw [cycles_writeS_rsPoison hsched 0 hl, if_pos rfl]
  · rw [cycles_writeS_rs hsched 0 hl, if_neg hq]
    by_cases h0 : q = 0 <;> simp [h0, Tile.rs]

/-- Settles O11: the operations that do nothing, END, and a branch outside and inside a branch's delay bundles. -/
theorem controlFlow : Obligations.ControlFlow := by
  refine fun s t g hs => ⟨done_issue_ok hs rfl, done_issue_ok hs rfl, done_issue_ok hs rfl, fun hfree => ?_,
    done_issue_ok hs rfl, fun hb => ⟨fun imm => ?_, fun ra hpar hp => ?_⟩, fun b hb imm => ?_⟩
  · exact done_issue_ok hs (holdAll_cons hfree)
  · exact done_issue_ok hs (by simp [takeBranch, hb])
  · exact done_issue_reads hs hpar (by simp [takeBranch, hb, hp])
  · refine (completes_stop hs (k := .illegal) (pc := (s.tile t).pc) rfl (by simp [takeBranch, hb])).imp fun u hu => ?_
    rw [hu]
    exact ⟨rfl, rfl⟩

/-- Settles O16: each entry of the tables is a value of the model's cycle counts. -/
theorem scheduleTables : Obligations.ScheduleTables := by
  unfold Obligations.ScheduleTables
  dsimp only
  and_intros
  all_goals decide
end

section
/-! Reserved functions of the vector slot (R163 to R165): an operation that its function does not name stops its tile. -/

open Sys2Proof Sys2Proof.Machine

namespace Sys2Proof.Machine

/-! ### Maps that can fail -/

theorem mapM_eq_some_map {α β : Type} {f : α → Option β} {h : α → β} (hf : ∀ a, f a = some (h a)) (l : List α) :
    l.mapM f = some (l.map h) := by
  induction l with
  | nil => rfl
  | cons a l ih => simp [hf, ih]

theorem mapM_eq_none {α β : Type} {f : α → Option β} (hf : ∀ a, f a = none) {l : List α} (hl : l ≠ []) :
    l.mapM f = none := by
  cases l with
  | nil => exact absurd rfl hl
  | cons a l => simp [hf]

theorem vreg_ne_nil (x : Tile) (v : Nat) : x.vreg v ≠ [] := by simp [Tile.vreg]

theorem zip_ne_nil {α β : Type} {l : List α} {m : List β} (hl : l ≠ []) (hm : m ≠ []) : l.zip m ≠ [] := by
  cases l with
  | nil => exact absurd rfl hl
  | cons a l =>
    cases m with
    | nil => exact absurd rfl hm
    | cons b m => simp

theorem elementwise_none {f : BitVec 32 → BitVec 32 → Option (BitVec 32)} (hf : ∀ a b, f a b = none) (x : Tile)
    (va vb : Nat) : elementwise x va vb f = none := by
  rw [elementwise, mapM_eq_none (fun p => by rw [hf]; rfl) (zip_ne_nil (vreg_ne_nil x va) (vreg_ne_nil x vb))]
  rfl

theorem floatVec_none {fn : Nat} {f : Nat → BitVec 32 → BitVec 32 → BitVec 32 → Option (BitVec 32)}
    (hf : ∀ a b d, f fn a b d = none) (x : Tile) (vd va vb : Nat) : floatVec x vd va vb fn f = none := by
  rw [floatVec, mapM_eq_none (fun p => by rw [hf]; rfl)
    (zip_ne_nil (vreg_ne_nil x va) (zip_ne_nil (vreg_ne_nil x vb) (vreg_ne_nil x vd)))]
  rfl

/-! ### Functions that no FN names -/

theorem floatOp_none {fn : Nat} (h : 6 ≤ fn) (a b d : Num) : floatOp fn a b d = none :=
  match fn with
  | _ + 6 => rfl

theorem fop32_none {fn : Nat} (h : 6 ≤ fn) (a b d : BitVec 32) : fop32 fn a b d = none := by
  simp [fop32, floatOp_none h]

theorem hop32_none {fn : Nat} (h : 6 ≤ fn) (a b d : BitVec 32) : hop32 fn a b d = none := by
  simp [hop32, floatOp_none h]

theorem vecIntOp_none {fn : Nat} (h : 11 ≤ fn) (a b : BitVec 32) : vecIntOp fn a b = none :=
  match fn with
  | _ + 11 => rfl

theorem floatCond_none {fn : Nat} (h : 4 ≤ fn) (a b : Num) : floatCond fn a b = none :=
  match fn with
  | _ + 4 => rfl

theorem vecIntCond_none {fn : Nat} (h : 4 ≤ fn) (a b : BitVec 32) : vecIntCond fn a b = none :=
  match fn with
  | _ + 4 => rfl

theorem vfnVec_none {fn : Nat} (h : 11 ≤ fn) (x : Tile) (va vb : Nat) : vfnVec x va vb fn = none := by
  rw [vfnVec, if_neg (by omega), if_neg (by omega), if_neg (by omega)]

theorem scanVec_none {fn : Nat} (h : 7 ≤ fn) (x : Tile) (va vb : Nat) : scanVec x va vb fn = none :=
  match fn with
  | _ + 7 => rfl

theorem gexpVec_none {vb fn : Nat} (h : 2 ≤ fn ∨ 4 ≤ vb) (x : Tile) (va : Nat) : gexpVec x va vb fn = none := by
  by_cases hvb : 4 ≤ vb
  · exact if_pos hvb
  · match fn, h.resolve_right hvb with
    | _ + 2, _ => exact if_neg hvb

theorem vcvtFmt_none {code : Nat} (h : 6 ≤ code) : vcvtFmt code = none :=
  match code with
  | _ + 6 => rfl

theorem cvtVec_none {vb : Nat} (h : vb / 8 = vb % 8 ∨ 6 ≤ vb / 8 ∨ 6 ≤ vb % 8) (x : Tile) (va fn : Nat) :
    cvtVec x va vb fn = none := by
  unfold cvtVec
  split
  · next a b ha hb =>
    rcases h with h | h | h
    · exact if_pos (.inl h)
    · simp [vcvtFmt_none h] at ha
    · simp [vcvtFmt_none h] at hb
  · rfl

/-! ### The stop of a vector operation -/

theorem readVecs_pc (srcs : List Nat) (x : Tile) : (srcs.foldl (fun y v => y.readVec v) x).pc = x.pc :=
  List.foldlRecOn (motive := fun y : Tile => y.pc = x.pc) _ _ rfl fun _ hy _ _ => hy

section
variable {s : State} {t : Nat} {g : Guard} (hs : s.Issues t g)
include hs

/-- A vector operation with no function stops its tile, also where a source has bad check bits (R84, R142). -/
theorem completes_stopV {c : Instr} {srcs : List Nat} {n l vd off : Nat} {f : Tile → Option (List PElem × Bool)}
    (hc : exec c s = done s (s.issueV t g srcs n l vd f [] off)) (hf : ∀ y, f y = none) :
    Completes c s fun u => u.tile t = (s.tile t).stopped .illegal (s.tile t).pc := by
  refine completes_done hc ?_
  unfold State.issueV
  dsimp only
  rw [issue_stop (k := .illegal) (pc := (s.tile t).pc) hs]
  · split
    · rw [seal_tile ((fault_kept ..).fuses.trans (stopTile_fuses ..)), (fault_kept ..).tile, stopTile_tile, if_pos rfl]
    · rw [stopTile_seal_tile, if_pos rfl]
  · rw [readsS_ok (rs := []) (fun _ h => nomatch h), if_pos rfl, hf]
    exact congrArg (Issue.stop .illegal) (readVecs_pc srcs _)

theorem completes_illegalV {c : Instr} {srcs : List Nat} {n l vd off : Nat} {f : Tile → Option (List PElem × Bool)}
    (hc : exec c s = done s (s.issueV t g srcs n l vd f [] off)) (hf : ∀ y, f y = none) :
    Completes c s fun u => (u.tile t).st = .stopped ∧ (u.tile t).stop = some (.illegal, (s.tile t).pc) :=
  (completes_stopV hs hc hf).imp fun u hu => by rw [hu]; exact ⟨rfl, rfl⟩

end

end Sys2Proof.Machine

/-- Settles O10: the shift kind, the selector or the function is none that the slot's tables name. -/
theorem reservedFunctionsStopTheTile : Obligations.ReservedFunctionsStopTheTile := by
  refine ⟨fun s t g rd ra amt hs hpar => ?_, fun s t g vd va vb fn hs => ?_⟩
  · have record (u : State) (hu : u.tile t = (s.tile t).stopped .illegal (s.tile t).pc) :
        (u.tile t).st = .stopped ∧ (u.tile t).stop = some (.illegal, (s.tile t).pc) ∧ (u.tile t).running = false ∧
          (u.tile t).sched = [] ∧ (u.tile t).sregs = (s.tile t).sregs := by
      rw [hu]
      exact ⟨rfl, rfl, rfl, rfl, rfl⟩
    exact ⟨(shfi_reserved_stops hs rd amt hpar).imp record, fun sel hsel => (rds_reserved_stops hs rd hsel).imp record⟩
  · have hzero (hfn : fn ≠ 0) : fn.toNat ≠ 0 := fun h => hfn (BitVec.eq_of_toNat_eq h)
    refine ⟨fun h => ⟨?_, ?_⟩, fun h => ⟨?_, ?_⟩, fun h => ⟨?_, ?_⟩, fun h => ⟨?_, ?_⟩, fun h => ?_, fun h => ?_,
      fun h => ?_, fun h => ?_⟩
    · exact completes_illegalV hs rfl fun y => floatVec_none (fop32_none h) y _ _ _
    · exact completes_illegalV hs rfl fun y => floatVec_none (hop32_none h) y _ _ _
    · exact completes_illegalV hs rfl fun y => elementwise_none (vecIntOp_none h) y _ _
    · exact completes_illegalV hs rfl fun y => vfnVec_none h y _ _
    · exact completes_illegalV hs rfl fun y => elementwise_none (fun _ _ => by rw [floatCond_none h]; rfl) y _ _
    · exact completes_illegalV hs rfl fun y => elementwise_none (fun _ _ => by rw [vecIntCond_none h]; rfl) y _ _
    · exact completes_illegalV hs rfl fun y => if_pos (hzero h)
    · exact completes_illegalV hs rfl fun y => if_pos (hzero h)
    · exact completes_illegalV hs rfl fun y => scanVec_none h y _ _
    · refine completes_illegalV hs rfl fun y => if_pos ?_
      exact h.symm.imp (fun h h0 => h (BitVec.eq_of_toNat_eq h0)) id
    · exact completes_illegalV hs rfl fun y => gexpVec_none h y _
    · exact completes_illegalV hs rfl fun y => cvtVec_none h y _ _
end

section
/-! The hold (R72, R84, R140, R144): what a write of its words does, and the loads and stores of the scalar slot. -/

open Sys2Proof Sys2Proof.Machine

namespace Sys2Proof.Machine

/-! ### Little-endian bytes (R19) -/

@[simp] theorem toLe_length (n v : Nat) : (toLe n v).length = n := by
  induction n generalizing v with
  | zero => rfl
  | succ n ih => simp [toLe, ih]

theorem toLe_getElem? {n i : Nat} (h : i < n) (v : Nat) : (toLe n v)[i]? = some (BitVec.ofNat 8 (v / 2 ^ (8 * i))) := by
  induction n generalizing v i with
  | zero => exact absurd h (Nat.not_lt_zero i)
  | succ n ih =>
    cases i with
    | zero => simp [toLe]
    | succ i =>
      rw [toLe, List.getElem?_cons_succ, ih (by omega), Nat.div_div_eq_div_mul, Nat.mul_succ, Nat.pow_add, Nat.mul_comm 256]

/-! ### The words of a range -/

theorem mem_wordsOf {a n w : Nat} : w ∈ wordsOf a n ↔ n ≠ 0 ∧ a / 8 ≤ w ∧ w ≤ (a + n - 1) / 8 := by
  unfold wordsOf
  split
  · next h => simp [h]
  · next h =>
    simp only [List.mem_map, List.mem_range]
    constructor
    · rintro ⟨i, hi, rfl⟩; omega
    · rintro ⟨_, h1, h2⟩; exact ⟨w - a / 8, by omega, by omega⟩

/-- Words marked one after another, each with its own mark. -/
theorem Ram.mark_foldl_setMark (f : Nat → Nat) (ws : List Nat) (m : Ram) (b : Nat) :
    (ws.foldl (fun m w => m.setMark (8 * w) (f w)) m).mark b = if b / 8 ∈ ws then f (b / 8) else m.mark b := by
  induction ws generalizing m with
  | nil => simp
  | cons w ws ih =>
    rw [List.foldl_cons, ih, Ram.mark_setMark, Nat.mul_div_cancel_left w (by decide)]
    by_cases hw : w = b / 8
    · simp [hw]
    · simp [hw, Ne.symm hw]

theorem Ram.mark_write (m : Ram) (a : Nat) (bs : List Byte) (b : Nat) : (m.write a bs).mark b = m.mark b := by
  induction bs generalizing m a with
  | nil => rfl
  | cons c bs ih => exact ih _ _

/-! ### A write of hold words (R72, R84, R140) -/

section
variable {x : Tile} (hinj : x.inject = none) (a : Nat) (bs : PBytes)
include hinj

theorem putHold_eq : x.putHold a bs = { x with hold := (wordsOf a bs.length).foldl (fun h w =>
    h.setMark (8 * w) (if anyPoison ((bs.drop (8 * w - a)).take 8) then 3 else 0)) (x.hold.write a (bytesOf bs)) } := by
  simp [Tile.putHold, Tile.holdInject, hinj]

theorem putHold_byte (b : Nat) : (x.putHold a bs).hold.byte b =
    if a ≤ b ∧ b < a + bs.length then (bs.getD (b - a) (0, false)).1 else x.hold.byte b := by
  rw [putHold_eq hinj]
  refine (Ram.byte_foldl_marks _ (fun r w x => Ram.byte_setMark r (8 * w) _ x) _ _ b).trans ?_
  rw [Ram.byte_write, bytesOf, List.length_map, List.getD_eq_getElem?_getD, List.getElem?_map,
    List.getD_eq_getElem?_getD]
  cases bs[b - a]? <;> rfl

theorem putHold_mark (b : Nat) : (x.putHold a bs).hold.mark b = if b / 8 ∈ wordsOf a bs.length then
    (if anyPoison ((bs.drop (8 * (b / 8) - a)).take 8) then 3 else 0) else x.hold.mark b := by
  rw [putHold_eq hinj]
  refine (Ram.mark_foldl_setMark (fun w => if anyPoison ((bs.drop (8 * w - a)).take 8) then 3 else 0) ..).trans ?_
  rw [Ram.mark_write]

theorem putHold_byte_of_outside {b : Nat} (hb : b < a ∨ a + bs.length ≤ b) :
    (x.putHold a bs).hold.byte b = x.hold.byte b := by
  rw [putHold_byte hinj, if_neg (by omega)]

theorem putHold_byte_inside {i : Nat} (hi : i < bs.length) :
    (x.putHold a bs).hold.byte (a + i) = (bs.getD i (0, false)).1 := by
  rw [putHold_byte hinj, if_pos (by omega), Nat.add_sub_cancel_left]

variable {a} {bs} (ha : a % 8 = 0) (hlen : bs.length % 8 = 0)
include ha hlen

theorem putHold_mark_inside {w : Nat} (h1 : a ≤ 8 * w) (h2 : 8 * w + 8 ≤ a + bs.length) :
    (x.putHold a bs).hold.mark (8 * w) = if ((bs.drop (8 * w - a)).take 8).any Prod.snd then 3 else 0 := by
  rw [putHold_mark hinj, Nat.mul_div_cancel_left w (by decide), if_pos (mem_wordsOf.2 (by omega))]
  rfl

theorem putHold_mark_of_outside {b : Nat} (hb : b < a ∨ a + bs.length ≤ b) :
    (x.putHold a bs).hold.mark b = x.hold.mark b := by
  rw [putHold_mark hinj, if_neg]
  rw [mem_wordsOf]
  omega

end

/-! ### Addresses (R144, R163) -/

theorem addrOf_eq {n : Nat} (ra : Word) (imm : BitVec n) (scale : Int) (clr : Nat) :
    addrOf ra imm.toInt scale clr = (ra + imm.signExtend 64 * BitVec.ofInt 64 scale).toNat / 2 ^ clr * 2 ^ clr := by
  have hsum : ra + imm.signExtend 64 * BitVec.ofInt 64 scale = BitVec.ofInt 64 ((ra.toNat : Int) + imm.toInt * scale) := by
    rw [BitVec.ofInt_add, BitVec.ofInt_mul, BitVec.ofInt_natCast, BitVec.ofNat_toNat, BitVec.setWidth_eq]
    rfl
  rw [hsum, BitVec.toNat_ofInt]
  rfl

theorem toNat_and_not_seven (a : Word) : (a &&& ~~~(7 : Word)).toNat = a.toNat / 2 ^ 3 * 2 ^ 3 := by
  have hshift : a &&& ~~~(7 : Word) = (a >>> 3) <<< 3 := by
    ext i hi
    have hseven : (7 : Word)[i] = decide (i < 3) := by
      rw [← BitVec.getLsbD_eq_getElem]
      exact (BitVec.getLsbD_ofNat ..).trans (by simpa [hi] using Nat.testBit_two_pow_sub_one 3 i)
    rw [BitVec.getElem_and, BitVec.getElem_not, hseven, BitVec.getElem_shiftLeft]
    by_cases h : i < 3
    · simp [h]
    · simp [h, Nat.add_sub_of_le (Nat.le_of_not_lt h), BitVec.getLsbD_eq_getElem hi]
  have hle : a.toNat / 2 ^ 3 * 2 ^ 3 < 2 ^ 64 := (Nat.div_mul_le_self ..).trans_lt a.isLt
  rw [hshift, BitVec.toNat_shiftLeft, BitVec.toNat_ushiftRight, Nat.shiftRight_eq_div_pow, Nat.shiftLeft_eq,
    Nat.mod_eq_of_lt hle]

/-! ### Loads and stores of the scalar slot -/

/-- An enabled access inside the hold whose address register is right. -/
theorem holdAccess_ok {x : Tile} {ra a n : Nat} (hp : x.rsPoison ra = false) (ha : a + n ≤ 0x180000) (k : Issue) :
    holdAccess true x ra a n k = k := by
  have hok : holdOk a n = true := decide_eq_true ha
  simp [holdAccess, hp, hok]

/-- The address of LD and ST (R144). -/
theorem addrOf_word (ra : Word) (imm : BitVec 12) :
    addrOf ra imm.toInt 8 3 = ((ra + imm.signExtend 64 * 8) &&& ~~~(7 : Word)).toNat := by
  rw [addrOf_eq, toNat_and_not_seven]
  rfl

section
variable {s : State} {t : Nat} {g : Guard} (hs : s.Issues t g) {ra : BitVec 5} {imm : BitVec 12}
  (hp : (s.tile t).rsPoison ra.toNat = false) (ha : addrOf ((s.tile t).rs ra.toNat) imm.toInt 8 3 + 8 ≤ 0x180000)
include hs hp ha

theorem exec_ld {rd : BitVec 5} (hpar : (s.tile t).ParityOk [ra.toNat])
    (hfree : (s.tile t).Free .holdRead [(s.tile t).cyc + 1]) :
    exec (.ld t g rd ra imm) s = .next (s.withTile t (((s.tile t).holding .holdRead [(s.tile t).cyc + 1]).plan 0 1
      (.rdS rd.toNat (addrOf ((s.tile t).rs ra.toNat) imm.toInt 8 3)))) :=
  done_issue_reads hs hpar ((holdAccess_ok hp ha _).trans (holdAll_cons hfree))

theorem exec_st {rb : BitVec 5} (hpar : (s.tile t).ParityOk [ra.toNat, rb.toNat])
    (hfree : (s.tile t).Free .holdWrite [(s.tile t).cyc + 2]) :
    exec (.st t g rb ra imm) s = .next (s.withTile t (((s.tile t).holding .holdWrite [(s.tile t).cyc + 2]).plan 0 2
      (.wrHold (addrOf ((s.tile t).rs ra.toNat) imm.toInt 8 3)
        ((toLe 8 ((s.tile t).rs rb.toNat).toNat).map fun b => (b, (s.tile t).rsPoison rb.toNat))))) :=
  done_issue_reads hs hpar ((holdAccess_ok hp ha _).trans (holdAll_cons hfree))

end

/-- The bytes of one aligned word of the hold have its poison. -/
theorem anyPoison_holdBytes {x : Tile} {a : Nat} (ha : a % 8 = 0) :
    anyPoison (x.holdBytes a 8) = badMark (x.hold.mark a) := by
  have hmark : ∀ i < 8, x.hold.mark (a + i) = x.hold.mark a := fun i hi => by
    rw [Ram.mark, Ram.mark, show (a + i) / 8 = a / 8 by omega]
  rw [anyPoison, Tile.holdBytes, List.any_map]
  cases h : badMark (x.hold.mark a)
  · exact List.any_eq_false.2 fun i hi => by simp [hmark i (List.mem_range.1 hi), h]
  · exact List.any_eq_true.2 ⟨0, by simp, h⟩

theorem bytesOf_holdBytes (x : Tile) (a n : Nat) :
    bytesOf (x.holdBytes a n) = (List.range n).map fun i => x.hold.byte (a + i) := by
  simp [bytesOf, Tile.holdBytes]

/-- A write that follows a read acts at the end of the next cycle. -/
theorem endCycle_follow_write {z : Tile} {e : Sched} {act : TileAct} (hz : z.sched = []) (hd : e.due ≤ z.cyc)
    (hr : act.reads = false) (hc : act.clears = false) : (z.follow e 1 act).closeCycle.endCycle.tile =
      (({ (z.follow e 1 act).closeCycle with sched := [] } : Tile).writeAct
        { e with due := e.due + 1, act := act }).tile.closeCycle :=
  endCycle_write (by rw [closeCycle_sched, Tile.follow, hz]; rfl) (Nat.succ_le_succ hd) hr hc

section
variable {x : Tile} (hsched : x.sched = [])
include hsched

/-- Three cycles after its issue a load has written what it read (R144). -/
theorem cycles_ld (rank r a : Nat) : ∃ z : Tile, z.hold = x.hold ∧
    Tile.cycles 3 (x.plan rank 1 (.rdS r a)) =
      (z.putS r (BitVec.ofNat 64 (leNat (bytesOf (x.holdBytes a 8)))) (anyPoison (x.holdBytes a 8))).closeCycle := by
  have hread := cycles_plan_read hsched rank 1 (act := .rdS r a) rfl
  have hempty : ((x.plan rank 1 (.rdS r a)).atAct 1).sched = [] := rfl
  have hhold : ((x.plan rank 1 (.rdS r a)).atAct 1).hold = x.hold := rfl
  have hcyc : ((x.plan rank 1 (.rdS r a)).atAct 1).cyc = x.cyc + 1 := rfl
  rw [show (3 : Nat) = 1 + 1 + 1 from rfl, cycles_add (1 + 1), hread]
  generalize (x.plan rank 1 (.rdS r a)).atAct 1 = z at hempty hhold hcyc
  have hbytes : z.holdBytes a 8 = x.holdBytes a 8 := by rw [Tile.holdBytes, hhold]; rfl
  rw [← hbytes]
  refine ⟨_, ?_, endCycle_follow_write (e := ⟨x.cyc + 1, x.cyc, rank, x.pc, .rdS r a⟩)
    (act := .wrS r (BitVec.ofNat 64 (leNat (bytesOf (z.holdBytes a 8)))) (anyPoison (z.holdBytes a 8)))
    hempty hcyc.ge rfl rfl⟩
  exact hhold

theorem cycles_st (rank a : Nat) (bs : PBytes) : ∃ z : Tile, z.hold = x.hold ∧ z.inject = x.inject ∧ z.sregs = x.sregs ∧
    Tile.cycles 3 (x.plan rank 2 (.wrHold a bs)) = (z.putHold a bs).closeCycle :=
  ⟨(x.plan rank 2 (.wrHold a bs)).atAct 2, rfl, rfl, rfl, cycles_plan_write hsched rank 2 rfl rfl⟩

end

end Sys2Proof.Machine

/-- Settles O13: the write puts its bytes, marks the words that it covers, and touches nothing else. -/
theorem holdWriteActsOnItsBytesOnly : Obligations.HoldWriteActsOnItsBytesOnly := by
  intro x e a bs he hinj ha hlen
  have hwrite : (x.writeAct e).tile = x.putHold a bs := by rw [Tile.writeAct, he]
  simp only [hwrite]
  refine ⟨fun i hi => putHold_byte_inside hinj a bs hi, fun w h1 h2 => putHold_mark_inside hinj ha hlen h1 h2,
    fun b hb => ⟨putHold_byte_of_outside hinj a bs hb, putHold_mark_of_outside hinj ha hlen hb⟩, ?_⟩
  rw [putHold_eq hinj]
  exact ⟨rfl, rfl, rfl, rfl⟩

/-- Settles O12: LD plans its read and ST its write; a load's register and a store's bytes three cycles on. -/
theorem scalarHoldAccess : Obligations.ScalarHoldAccess := by
  refine ⟨?_, fun x r a hsched hinj hr ha => ?_,
    fun x a v p hsched hinj ha => ?_⟩
  · intro s t g rd ra imm hs x a hp ha hpar
    have hpar_ra : x.ParityOk [ra.toNat] := List.forall_mem_singleton.2 (hpar _ (List.mem_cons_self ..))
    rw [show a = addrOf (x.rs ra.toNat) imm.toInt 8 3 from (addrOf_word ..).symm] at ha ⊢
    exact ⟨exec_ld hs hp ha hpar_ra, exec_st hs hp ha hpar⟩
  · obtain ⟨z, hz, hy⟩ := cycles_ld hsched 0 r a
    have hr0 : r ≠ 0 := Nat.pos_iff_ne_zero.1 hr
    simp only [hy]
    refine ⟨(rs_putS z r _ _ r).trans ?_, (rsPoison_putS z r _ _ r).trans ?_, ?_⟩
    · rw [if_neg hr0, if_pos rfl, bytesOf_holdBytes]
    · rw [if_neg hr0, if_pos rfl, anyPoison_holdBytes ha]
    · rw [closeCycle_hold, Tile.putS, if_neg hr0, hz]
  · obtain ⟨z, hz, hzi, hzr, hy⟩ := cycles_st hsched 0 a ((toLe 8 v.toNat).map fun b => (b, p))
    have hlen : ((toLe 8 v.toNat).map fun b => (b, p)).length = 8 := by simp
    simp only [hy, closeCycle_hold, closeCycle_sregs]
    refine ⟨fun i hi => ?_, ?_, fun b hb => ?_, ?_⟩
    · rw [putHold_byte_inside (hzi.trans hinj) a _ (by omega), List.getD_eq_getElem?_getD, List.getElem?_map,
        toLe_getElem? hi]
      rfl
    · obtain ⟨w, rfl⟩ := Nat.dvd_of_mod_eq_zero ha
      rw [putHold_mark_inside (hzi.trans hinj) ha (by omega) (Nat.le_refl _) (by omega)]
      cases p <;> simp [toLe]
    · rw [putHold_byte_of_outside (hzi.trans hinj) a _ (by omega), hz]
    · rw [putHold_eq (hzi.trans hinj), hzr]
end

section
/-! The slot for barges, waits and global accesses (R166 to R175), and disabled operations (R129). -/

open Sys2Proof Sys2Proof.Machine

namespace Sys2Proof.Machine

/-! ### Disabled operations -/

section
variable {s : State} {t : Nat} {g : Guard} (hs : s.Skips t g)
include hs

theorem done_issue_skip {op : Bool → Tile → Issue} {y : Tile} (hop : op false (s.tile t) = .ok y) :
    done s (s.issue t g op) = .next (s.withTile t y) := by
  rw [issue_skip hs hop]
  rfl

theorem done_issue_reads_skip {rs : List Nat} {op : Bool → Tile → Issue} {y : Tile} (hop : op false (s.tile t) = .ok y) :
    done s (s.issue t g (readsS rs op)) = .next (s.withTile t y) :=
  done_issue_skip hs hop

/-- A disabled muster is not counted. -/
theorem exec_muster_skip (bid : BitVec 8) : exec (.muster t g bid) s = .next (s.withTile t (s.tile t)) := by
  obtain ⟨hissuing, hguard, hoff⟩ := hs
  have hcount : ((s.tile t).issuing && !(s.tile t).guardPoison g && (s.tile t).enabled g) = false := by simp [hoff]
  refine (congrArg (done s) (if_neg (ne_true_of_eq_false hcount))).trans ?_
  exact done_issue_skip ⟨hissuing, hguard, hoff⟩ rfl

end

/-! ### Waits and counters (R166 to R169, R173) -/

section
variable {s : State} {t : Nat} {g : Guard} (hs : s.Issues t g)
include hs

theorem done_issue_wait_pass {w : Stall} (hw : (s.tile t).satisfied w = true) :
    done s (s.issue t g (waitFor w)) = .next (s.withTile t ((s.tile t).pass w)) :=
  done_issue_ok hs (by simp [waitFor, hw])

theorem done_issue_wait_stall {w : Stall} (hw : (s.tile t).satisfied w = false) :
    done s (s.issue t g (waitFor w)) = .next (s.withTile t { s.tile t with stall := some w }) :=
  done_issue_ok hs (by simp [waitFor, hw])

theorem exec_muster (bid : BitVec 8) {k : Nat} {ft : Nat} (hf : (s.tile t).flight = some (k, ft)) :
    exec (.muster t g bid) s = .next
      (({ s.setTile t (s.tile t) with musters := addMuster (s.flight k).tag bid.toNat 1 s.musters } : State).seal s) := by
  obtain ⟨hissuing, hguard, hon⟩ := hs
  have hcount : ((s.tile t).issuing && !(s.tile t).guardPoison g && (s.tile t).enabled g) = true := by
    simp [hissuing, hguard, hon]
  refine (congrArg (done s) (if_pos hcount)).trans ?_
  rw [issue_ok ⟨hissuing, hguard, hon⟩ rfl, hf]
  rfl

end

section
variable {s : State} {t : Nat}

theorem releaseStall_pass {w : Stall} (hrun : (s.tile t).running = true) (hst : (s.tile t).stall = some w)
    (hw : (s.tile t).satisfied w = true) :
    s.releaseStall t = s.setTile t (({ s.tile t with stall := none } : Tile).pass w) := by
  simp [State.releaseStall, hrun, hst, hw]

theorem releaseStall_wait {w : Stall} (hst : (s.tile t).stall = some w) (hw : (s.tile t).satisfied w = false) :
    s.releaseStall t = s := by
  simp [State.releaseStall, hst, hw]

end

/-! ### Global accesses (R170 to R172) -/

/-- The address that an access of `size` bytes forms from its window and its offset register. -/
def Tile.accessVa (x : Tile) (win : Nat × Nat) (ra size : Nat) : Nat := (win.1 + (x.rs ra).toNat) / size * size

/-- That address lies in its window. -/
def Tile.AccessInside (x : Tile) (win : Nat × Nat) (ra size : Nat) : Prop :=
  win.1 ≤ x.accessVa win ra size ∧ x.accessVa win ra size + size ≤ win.1 + win.2

/-- The tile with an access in flight. -/
def Tile.addAccess (x : Tile) (a : Access) : Tile := { x with accs := x.accs ++ [a], nextId := x.nextId + 1 }

section
variable {x : Tile} {m : Ram} {w ra size leg : Nat} (f : Nat → Access) (hleg : x.leg = some leg)
  (hw : w < legWindows m leg) (hp : x.rsPoison ra = false)
include hleg hw hp

theorem access_inside (hin : x.AccessInside (window m (legWindowFirst m leg + w)) ra size) : x.access m w ra size f =
    .ok (x.addAccess (f (x.accessVa (window m (legWindowFirst m leg + w)) ra size))) := by
  unfold Tile.AccessInside Tile.accessVa at hin
  simp only [Tile.access, hleg, hp, Bool.false_eq_true, if_false, if_neg (Nat.not_le.2 hw)]
  rw [if_neg (by omega), Tile.addAccess, Tile.accessVa, hleg]

theorem access_outside (hout : ¬x.AccessInside (window m (legWindowFirst m leg + w)) ra size) :
    x.access m w ra size f = .stop .windowAddress x.pc := by
  simp only [Tile.access, hleg, hp, Bool.false_eq_true, if_false, if_neg (Nat.not_le.2 hw)]
  refine if_pos ?_
  unfold Tile.AccessInside Tile.accessVa at hout
  omega

end

/-- What a GAMO sends (R171); `cas` says whether it compares. -/
def Tile.gamoAccess (x : Tile) (rd fn lc va : Nat) (nf cas : Bool) : Access :=
  { id := x.nextId, kind := .gamo rd fn nf, lc := lc, va := va, size := 8,
    value := if cas then x.rs (rd + 1) else x.rs rd, compare := x.rs rd,
    poison := x.rsPoison rd || (cas && x.rsPoison (rd + 1)), pc := x.pc }

/-- An atomic whose function is not reserved and whose registers fit it (R171). -/
theorem exec_gamo {s : State} {t : Nat} {g : Guard} {rd ra : BitVec 5} (lc : BitVec 4) {w : BitVec 3} {fn : BitVec 4}
    (nf : Bool) {leg : Nat} (hs : s.Issues t g) (hleg : (s.tile t).leg = some leg)
    (hw : w.toNat < legWindows (s.legImage (s.tile t)) leg) (hp : (s.tile t).rsPoison ra.toNat = false)
    (hpar : (s.tile t).ParityOk [ra.toNat, rd.toNat, rd.toNat + 1])
    (hfn : ¬(8 ≤ fn.toNat ∨ fn.toNat = 7 ∧ rd.toNat % 2 = 1))
    (hin : (s.tile t).AccessInside
      (window (s.legImage (s.tile t)) (legWindowFirst (s.legImage (s.tile t)) leg + w.toNat)) ra.toNat 8) :
    exec (.gamo t g rd lc w ra fn nf) s = .next (s.withTile t ((s.tile t).addAccess
      ((s.tile t).gamoAccess rd.toNat fn.toNat lc.toNat ((s.tile t).accessVa
        (window (s.legImage (s.tile t)) (legWindowFirst (s.legImage (s.tile t)) leg + w.toNat)) ra.toNat 8) nf
          (decide (fn.toNat = 7))))) := by
  have hreads : (s.tile t).ParityOk ([ra.toNat, rd.toNat] ++ if fn = 7 then [rd.toNat + 1] else []) := by
    intro r hr
    refine hpar r ?_
    split at hr
    · exact hr
    · exact List.mem_append_left [rd.toNat + 1] (by rwa [List.append_nil] at hr)
  exact done_issue_reads hs hreads ((if_neg hfn).trans ((if_neg Bool.false_ne_true).trans (access_inside _ hleg hw hp hin)))

/-! ### Barges (R174, R175) -/

section
variable {s : State} {t : Nat} {g : Guard} {leg : Nat} {idx : BitVec 12} (hs : s.Issues t g)
  (hleg : (s.tile t).leg = some leg)
include hs hleg

theorem exec_barge (lc : BitVec 4) (hidx : idx.toNat < legBarges (s.legImage (s.tile t)) leg)
    (hroom : (s.tile t).barges.length < 64) : exec (.barge t g lc idx) s =
      .next (s.withTile t ((s.tile t).addBarge (s.legImage (s.tile t)) lc.toNat idx.toNat)) :=
  done_issue_ok hs (by simp [legListLen, hleg, Nat.not_le.2 hidx, Nat.not_le.2 hroom])

theorem barge_beyond_stops (lc : BitVec 4) (hidx : legBarges (s.legImage (s.tile t)) leg ≤ idx.toNat) :
    Completes (.barge t g lc idx) s fun u => u.tile t = (s.tile t).stopped .illegal (s.tile t).pc :=
  completes_stop hs rfl (by simp [legListLen, hleg, hidx])

theorem barge_limit_stops (lc : BitVec 4) (hidx : idx.toNat < legBarges (s.legImage (s.tile t)) leg)
    (hfull : 64 ≤ (s.tile t).barges.length) :
    Completes (.barge t g lc idx) s fun u => u.tile t = (s.tile t).stopped .bargeLimit (s.tile t).pc :=
  completes_stop hs rfl (by simp [legListLen, hleg, Nat.not_le.2 hidx, hfull])

end

end Sys2Proof.Machine

/-- Settles O28: a disabled operation reads no register, forms no address and plans nothing; the ports come first. -/
theorem disabledOperationsOnlyHoldPorts : Obligations.DisabledOperationsOnlyHoldPorts := by
  refine fun s t g hs => ⟨fun rd ra imm => done_issue_reads_skip hs rfl, fun imm => done_issue_skip hs rfl,
    done_issue_skip hs rfl, fun rd ra imm hfree => done_issue_reads_skip hs (holdAll_cons hfree),
    fun rb ra imm hfree => done_issue_reads_skip hs (holdAll_cons hfree), fun bank w hw hfree => ?_,
    fun lc n => done_issue_skip hs rfl, fun lc v => done_issue_skip hs rfl, fun lc idx => done_issue_skip hs rfl,
    fun rb lc w ra sz aq rl => done_issue_reads_skip hs rfl, fun bid => exec_muster_skip hs bid⟩
  have hne : w.toNat ≠ 3 := fun h => hw (BitVec.eq_of_toNat_eq h)
  exact done_issue_skip hs ((if_neg hne).trans (holdAll_cons hfree))

/-- Settles O29: a wait passes or stalls as it is satisfied or not, at its issue and at a release. -/
theorem waitsCountersAndMusters : Obligations.WaitsCountersAndMusters := by
  refine ⟨fun s t g lc hs => ⟨fun n => ⟨fun h => ?_, fun h => ?_⟩, fun c => ⟨fun h => ?_, fun h => ?_⟩,
    fun v => done_issue_ok hs rfl, fun bid k ft hf => exec_muster hs bid hf⟩,
    fun s t hrun => ⟨fun c n hst h => ?_, fun c n hst h => ?_, fun n hst h => ?_⟩⟩
  · exact done_issue_wait_pass hs (w := .lc lc.toNat n.toNat) (decide_eq_true h)
  · exact done_issue_wait_stall hs (w := .lc lc.toNat n.toNat) (decide_eq_false (Nat.not_le.2 h))
  · exact done_issue_wait_pass hs (w := .cycle c.toNat) (decide_eq_true h)
  · exact done_issue_wait_stall hs (w := .cycle c.toNat) (decide_eq_false (Nat.not_le.2 h))
  · exact congrArg (done s) (releaseStall_pass hrun hst (decide_eq_true h))
  · exact congrArg (done s) (releaseStall_wait hst (decide_eq_false (Nat.not_le.2 h)))
  · exact congrArg (done s) (releaseStall_pass hrun hst (decide_eq_true h))

/-- Settles O30: an access starts where its address lies in its window, and a barge where its leg's list names it. -/
theorem accessesAndBargesStart : Obligations.AccessesAndBargesStart := by
  refine ⟨fun s t g rd ra lc w sz aq rl nf fn leg hs hleg hw hp hpar => ?_,
    fun s t g lc idx leg hs hleg => ⟨fun hidx hroom => ?_, fun hidx => ?_, fun hidx hfull => ?_⟩⟩
  · obtain ⟨hra, hrest⟩ := List.forall_mem_cons.1 hpar
    have hrd := (List.forall_mem_cons.1 hrest).1
    have hpar1 : (s.tile t).ParityOk [ra.toNat] := List.forall_mem_singleton.2 hra
    have hpar2 : (s.tile t).ParityOk [ra.toNat, rd.toNat] :=
      List.forall_mem_cons.2 ⟨hra, List.forall_mem_singleton.2 hrd⟩
    refine ⟨fun hin => ⟨?_, ?_⟩, fun hin hfn => ?_, fun hin heven => ?_, fun hout => ?_, done_issue_ok hs rfl⟩
    · exact done_issue_reads hs hpar1 ((if_neg Bool.false_ne_true).trans (access_inside _ hleg hw hp hin))
    · exact done_issue_reads hs hpar2 ((if_neg Bool.false_ne_true).trans (access_inside _ hleg hw hp hin))
    · refine (exec_gamo lc nf hs hleg hw hp hpar (by omega) hin).trans ?_
      rw [decide_eq_false (by omega), Tile.gamoAccess, Bool.false_and, Bool.or_false, if_neg Bool.false_ne_true]
      rfl
    · exact exec_gamo lc nf hs hleg hw hp hpar (fun h => h.elim (by decide) fun h => by omega) hin
    · refine (completes_stop_reads hs hpar2 rfl ((if_neg Bool.false_ne_true).trans
        (access_outside _ hleg hw hp hout))).imp fun u hu => ?_
      rw [hu]
      exact ⟨rfl, rfl⟩
  · refine (exec_barge hs hleg lc hidx hroom).trans ?_
    rw [Tile.addBarge, hleg]
  · exact (barge_beyond_stops hs hleg lc hidx).imp fun u hu => by rw [hu]; exact ⟨rfl, rfl⟩
  · exact (barge_limit_stops hs hleg lc hidx hfull).imp fun u hu => by rw [hu]; exact ⟨rfl, rfl⟩
end

section
/-! The tensor slot (R152 to R160): the ports that passes, exports, imports and stationary loads hold, and the acts
that they plan. -/

open Sys2Proof Sys2Proof.Machine

namespace Sys2Proof.Machine

/-! ### Ports and plans -/

/-- Cycles of one port leave the others free. -/
theorem free_holding {x : Tile} {p q : Port} (hne : p ≠ q) (cs ds : List Nat) : (x.holding p cs).Free q ds ↔ x.Free q ds := by
  simp [Tile.Free, Tile.holding, hne]

theorem span_eq (x : Tile) {lo hi n k : Nat} (h : hi + 1 = lo + n) (hk : x.cyc + lo = k) :
    x.span lo hi = (List.range n).map (· + k) := by
  rw [Tile.span, h, hk, Nat.add_sub_cancel_left]

/-- The scheduled act of an operation that issues now. -/
def Tile.entry (x : Tile) (rank : Nat) (a : Nat × TileAct) : Sched :=
  { due := x.cyc + a.1, issued := x.cyc, rank := rank, pc := x.pc, act := a.2 }

theorem planAll_true (x : Tile) (rank : Nat) (acts : List (Nat × TileAct)) :
    x.planAll true rank acts = { x with sched := x.sched ++ acts.map (x.entry rank) } := by
  rw [Tile.planAll, if_pos rfl]
  induction acts generalizing x with
  | nil => simp
  | cons a acts ih =>
    rw [List.foldl_cons, ih]
    simp only [Tile.plan, List.map_cons, List.append_assoc, List.singleton_append]
    rfl

/-- A planned act is in the schedule with its cycle. -/
theorem exists_mem_planAll {x : Tile} {rank d due : Nat} {act : TileAct} {acts : List (Nat × TileAct)}
    (h : (d, act) ∈ acts) (hdue : x.cyc + d = due) :
    ∃ e ∈ (x.planAll true rank acts).sched, e.act = act ∧ e.due = due := by
  rw [planAll_true]
  exact ⟨x.entry rank (d, act), List.mem_append_right _ (List.mem_map_of_mem h), rfl, hdue⟩

theorem addrOf_zero (ra : Word) (scale : Int) (clr : Nat) : addrOf ra 0 scale clr = ra.toNat / 2 ^ clr * 2 ^ clr := by
  have hlt := ra.isLt
  simp only [addrOf, Int.zero_mul, Int.add_zero]
  norm_cast
  rw [Nat.mod_eq_of_lt hlt]

/-! ### Passes (R153, R154) -/

section
variable (x : Tile) (bank buf z ag bs : Bool) (fmt ra rb : Nat)

/-- Scale or scan cycles of a pass that issues now. -/
def Tile.passScan (x : Tile) (buf ag bs : Bool) (fmt : Nat) : Nat := passS fmt ag bs (x.buf buf).expected

/-- Its streaming bytes per row. -/
def Tile.passBytes (x : Tile) (buf : Bool) (fmt : Nat) : Nat := passB fmt (x.buf buf).expected

/-- Reads of a pass before its streaming fetches: of scales, or of the elements that an auto-grid scans. -/
def Tile.passEarly (x : Tile) (buf ag bs : Bool) (fmt : Nat) : Nat :=
  if !fmtMx fmt && decide (x.passScan buf ag bs fmt ≠ 0) then passF (x.passBytes buf fmt) else x.passScan buf ag bs fmt

/-- The read cycles of a pass. -/
def Tile.passReads (x : Tile) (buf ag bs : Bool) (fmt : Nat) : List Nat :=
  (List.range (x.passEarly buf ag bs fmt)).map (· + (x.cyc + 1)) ++ (List.range (passF (x.passBytes buf fmt))).map fun j =>
    x.cyc + 1 + x.passScan buf ag bs fmt + 256 * j / x.passBytes buf fmt

/-- The pass as it stands at its issue. -/
def Tile.newPass : Pass :=
  { issue := x.cyc, pc := x.pc, bank := bank, buf := buf, z := z, ag := ag, bs16 := bs, fmt := fmt
    ra := (x.rs ra).toNat / 256 * 256, rb := (x.rs rb).toNat / 256 * 256, expected := (x.buf buf).expected
    b := x.passBytes buf fmt, s := x.passScan buf ag bs fmt, gx := x.gx }

/-- The acts of a pass with their delays. -/
def Tile.passActs (x : Tile) (buf z ag bs : Bool) (fmt : Nat) : List (Nat × TileAct) :=
  let sc := x.passScan buf ag bs fmt
  let scan := !fmtMx fmt && decide (sc ≠ 0)
  (List.range (x.passEarly buf ag bs fmt)).map (fun j =>
      (j + 1, if scan then TileAct.mmaScan x.cyc j else TileAct.mmaScale x.cyc j)) ++
    (List.range (passF (x.passBytes buf fmt))).map (fun j =>
      (1 + sc + 256 * j / x.passBytes buf fmt, TileAct.mmaFetch x.cyc j)) ++
    [(sc + 2, TileAct.mmaTags x.cyc)] ++ (List.range 64).map (fun m => (sc + 3 + m, TileAct.mmaArray x.cyc)) ++
    (if z then [(sc + 14, TileAct.mmaZero x.cyc)] else []) ++
    (List.range 64).map (fun m => (sc + 15 + m, TileAct.mmaRow x.cyc m))

end

theorem passEarly_eq (x : Tile) (buf ag bs : Bool) (fmt : Nat) : x.passEarly buf ag bs fmt =
    if fmtMx fmt then x.passScan buf ag bs fmt
    else if x.passScan buf ag bs fmt = 0 then 0 else passF (x.passBytes buf fmt) := by
  unfold Tile.passEarly
  by_cases h0 : x.passScan buf ag bs fmt = 0 <;> cases fmtMx fmt <;> simp [h0]

section
variable (x : Tile) (buf z ag bs : Bool) (fmt : Nat)

theorem mmaTags_mem_passActs : (x.passScan buf ag bs fmt + 2, TileAct.mmaTags x.cyc) ∈ x.passActs buf z ag bs fmt := by
  simp [Tile.passActs]

theorem mmaRow_mem_passActs {m : Nat} (hm : m < 64) :
    (x.passScan buf ag bs fmt + 15 + m, TileAct.mmaRow x.cyc m) ∈ x.passActs buf z ag bs fmt := by
  simp [Tile.passActs, hm]

theorem mmaZero_mem_passActs (hz : z = true) :
    (x.passScan buf ag bs fmt + 14, TileAct.mmaZero x.cyc) ∈ x.passActs buf z ag bs fmt := by
  simp [Tile.passActs, hz]

end

section
variable {x : Tile} {bank buf z ag bs : Bool} {fmt ra rb : Nat}

/-- An MMA whose fields, addresses and ports are right (R153). -/
theorem mmaIssue_ok (hfmt : mmaFormat fmt = true) (hbs : bs = true → fmtBlock fmt = true)
    (hrb : fmtMx fmt = false → rb = 0) (hag : ag = true → z = true) (hpa : x.rsPoison ra = false)
    (hpb : x.rsPoison rb = false) (ha : (x.rs ra).toNat / 256 * 256 + 64 * x.passBytes buf fmt ≤ 0x180000)
    (hr : fmtMx fmt = true → (x.rs rb).toNat / 256 * 256 + 256 * x.passScan buf ag bs fmt ≤ 0x180000)
    (hreads : x.Free .holdRead (x.passReads buf ag bs fmt))
    (harray : x.Free .array ((List.range 64).map (· + (x.cyc + x.passScan buf ag bs fmt + 3))))
    (hbank : x.Free (bankPort bank) ((List.range 64).map (· + (x.cyc + x.passScan buf ag bs fmt + 15)))) :
    mmaIssue bank buf z ag bs fmt ra rb true x = .ok (({ (((x.holding .holdRead (x.passReads buf ag bs fmt)).holding .array
      ((List.range 64).map (· + (x.cyc + x.passScan buf ag bs fmt + 3)))).holding (bankPort bank)
      ((List.range 64).map (· + (x.cyc + x.passScan buf ag bs fmt + 15)))) with
        passes := x.passes ++ [x.newPass bank buf z ag bs fmt ra rb] } : Tile).planAll true 1 (x.passActs buf z ag bs fmt)) := by
  have hlegal : ¬(!mmaFormat fmt ∨ (bs ∧ !fmtBlock fmt) ∨ (!fmtMx fmt ∧ rb ≠ 0) ∨ (ag ∧ !z)) := by
    rintro (h | ⟨h1, h2⟩ | ⟨h1, h2⟩ | ⟨h1, h2⟩)
    · simp [hfmt] at h
    · simp [hbs h1] at h2
    · exact h2 (hrb (by simpa using h1))
    · simp [hag h1] at h2
  have hpoison : ¬(true && (x.rsPoison ra || x.rsPoison rb)) = true := by simp [hpa, hpb]
  have hinside : ¬(true && !(holdOk (addrOf (x.rs ra) 0 1 8) (64 * x.passBytes buf fmt) &&
      (!fmtMx fmt || holdOk (addrOf (x.rs rb) 0 1 8) (256 * x.passScan buf ag bs fmt)))) = true := by
    cases hmx : fmtMx fmt
    · simp [holdOk, addrOf_zero, holdSize, ha]
    · simp [holdOk, addrOf_zero, holdSize, ha, hr hmx]
  have hspan3 : x.span (x.passScan buf ag bs fmt + 3) (x.passScan buf ag bs fmt + 66) = _ :=
    span_eq x (n := 64) (by omega) (Nat.add_assoc ..).symm
  have hspan15 : x.span (x.passScan buf ag bs fmt + 15) (x.passScan buf ag bs fmt + 78) = _ :=
    span_eq x (n := 64) (by omega) (Nat.add_assoc ..).symm
  rw [← hspan3] at harray ⊢
  rw [← hspan15] at hbank ⊢
  have hp1 : Port.holdRead ≠ .array := by decide
  have hp2 : Port.holdRead ≠ bankPort bank := by cases bank <;> decide
  have hp3 : Port.array ≠ bankPort bank := by cases bank <;> decide
  refine (if_neg hlegal).trans ((if_neg hpoison).trans ((if_neg hinside).trans ?_))
  refine (holdAll_cons hreads).trans ((holdAll_cons ((free_holding hp1 ..).2 harray)).trans
    ((holdAll_cons ((free_holding hp3 ..).2 ((free_holding hp2 ..).2 hbank))).trans ?_))
  rw [holdAll_nil]
  simp only [addrOf_zero]
  rfl

end

/-! ### Exports and imports (R159, R160) -/

/-- The `Export` as it stands at its issue. -/
def Tile.newExport (x : Tile) (bank cz : Bool) (fmt : Nat) (bs : Bool) (ra rb : Nat) : Export :=
  { issue := x.cyc, bank := bank, cz := cz, fmt := fmt, bs16 := bs, ra := (x.rs ra).toNat / 128 * 128
    rb := (x.rs rb).toNat / 128 * 128, width := (x.bank bank).width, gx := x.gx }

/-- The acts of an `Export` of `we` element writes and `w` writes in all. -/
def exportActs (i we w : Nat) : List (Nat × TileAct) :=
  (List.range 64).map (fun m => (1 + m * we / 64, TileAct.expRow i m)) ++
    (List.range we).map (fun j => (2 + j, TileAct.expWrite i j false)) ++
    (List.range (w - we)).map (fun j => (2 + we + j, TileAct.expWrite i j true))

/-- An `Export` whose fields, addresses and ports are right (R159). -/
theorem expIssue_ok {x : Tile} {bank cz : Bool} {fmt : Nat} {bs : Bool} {ra rb we w : Nat} (h9 : fmt ≠ 9) (h15 : fmt ≠ 15)
    (hrb : fmtMx fmt = false → rb = 0 ∧ bs = false)
    (hwidth : fmtMx fmt = true → blockSize bs ≤ widthCols (x.bank bank).width) (hpa : x.rsPoison ra = false)
    (hpb : x.rsPoison rb = false) (hw : expCycles fmt bs (x.bank bank).width = (we, w))
    (ha : (x.rs ra).toNat / 128 * 128 + 128 * we ≤ 0x180000)
    (hr : fmtMx fmt = true → (x.rs rb).toNat / 128 * 128 + 128 * (w - we) ≤ 0x180000)
    (hfree : x.Free .holdWrite ((List.range w).map (· + (x.cyc + 2)))) :
    expIssue bank cz fmt bs ra rb true x =
      .ok (({ x.holding .holdWrite ((List.range w).map (· + (x.cyc + 2))) with
        exports := x.exports ++ [x.newExport bank cz fmt bs ra rb] } : Tile).planAll true 1 (exportActs x.cyc we w)) := by
  have hlegal : ¬(fmt = 9 ∨ fmt = 15 ∨ (!fmtMx fmt ∧ (rb ≠ 0 ∨ bs))) := by
    rintro (h | h | ⟨h1, h2⟩)
    · exact h9 h
    · exact h15 h
    · obtain ⟨hrb0, hbs0⟩ := hrb (by simpa using h1)
      simp [hrb0, hbs0] at h2
  have hblock : ¬(true && fmtMx fmt && decide (widthCols (x.bank bank).width < blockSize bs)) = true := by
    cases hmx : fmtMx fmt
    · simp
    · simpa using hwidth hmx
  have hpoison : ¬(true && (x.rsPoison ra || x.rsPoison rb)) = true := by simp [hpa, hpb]
  have hinside : ¬(true && !(holdOk (addrOf (x.rs ra) 0 1 7) (128 * we) &&
      (!fmtMx fmt || holdOk (addrOf (x.rs rb) 0 1 7) (128 * (w - we))))) = true := by
    cases hmx : fmtMx fmt
    · simp [holdOk, addrOf_zero, holdSize, ha]
    · simp [holdOk, addrOf_zero, holdSize, ha, hr hmx]
  have hspan : x.span 2 (1 + w) = _ := span_eq x (n := w) (by omega) rfl
  rw [← hspan] at hfree ⊢
  refine (if_neg hlegal).trans ((if_neg hblock).trans ?_)
  simp only [hw]
  refine (if_neg hpoison).trans ((if_neg hinside).trans ((holdAll_cons hfree).trans ?_))
  rw [holdAll_nil]
  simp only [addrOf_zero]
  rfl

/-- The import as it stands at its issue. -/
def Tile.newImport (x : Tile) (bank g64 : Bool) (ra rb : Nat) : Import :=
  { issue := x.cyc, bank := bank, g64 := g64, ra := (x.rs ra).toNat / 256 * 256, width := (x.bank bank).width
    grid := (x.rs rb).truncate 16, gridPoison := x.rsPoison rb, gx := x.gx }

/-- The acts of an import of `r` reads a row. -/
def importActs (i r : Nat) : List (Nat × TileAct) :=
  (List.range 64).flatMap (fun m => (List.range r).map fun q => (1 + m * r + q, TileAct.impRead i m q)) ++
    (List.range 64).map (fun m => ((m + 1) * r + 1, TileAct.impRow i m))

/-- An import whose address and ports are right (R160). -/
theorem impIssue_ok {x : Tile} {bank g64 : Bool} {ra rb r : Nat} (hpa : x.rsPoison ra = false)
    (hr : impR g64 (x.bank bank).width = r)
    (ha : (x.rs ra).toNat / 256 * 256 + 64 * (widthCols (x.bank bank).width * (if g64 then 8 else 16)) ≤ 0x180000)
    (hreads : x.Free .holdRead ((List.range (64 * r)).map (· + (x.cyc + 1))))
    (hbank : x.Free (bankPort bank) ((List.range 64).map fun m => x.cyc + (m + 1) * r + 1)) :
    impIssue bank g64 ra rb true x =
      .ok (({ (x.holding .holdRead ((List.range (64 * r)).map (· + (x.cyc + 1)))).holding (bankPort bank)
          ((List.range 64).map fun m => x.cyc + (m + 1) * r + 1) with
        imports := x.imports ++ [x.newImport bank g64 ra rb] } : Tile).planAll true 1 (importActs x.cyc r)) := by
  subst hr
  have hspan : x.span 1 (64 * impR g64 (x.bank bank).width) = _ :=
    span_eq x (n := 64 * impR g64 (x.bank bank).width) (by omega) rfl
  rw [← hspan] at hreads ⊢
  have hp : Port.holdRead ≠ bankPort bank := by cases bank <;> decide
  refine (holdAccess_ok hpa ?_ _).trans ((holdAll_cons hreads).trans ((holdAll_cons ((free_holding hp ..).2 hbank)).trans ?_))
  · rw [addrOf_zero]
    exact ha
  · rw [holdAll_nil]
    simp only [addrOf_zero]
    rfl

theorem expRow_mem_exportActs (i : Nat) {we w m : Nat} (hm : m < 64) :
    (1 + m * we / 64, TileAct.expRow i m) ∈ exportActs i we w := by
  simp [exportActs, hm]

theorem expElems_mem_exportActs (i : Nat) {we w j : Nat} (hj : j < we) :
    (2 + j, TileAct.expWrite i j false) ∈ exportActs i we w := by
  simp [exportActs, hj]

theorem expScales_mem_exportActs (i : Nat) {we w j : Nat} (hj : j < w - we) :
    (2 + we + j, TileAct.expWrite i j true) ∈ exportActs i we w := by
  simp [exportActs, hj]

theorem impRow_mem_importActs (i : Nat) {r m : Nat} (hm : m < 64) :
    ((m + 1) * r + 1, TileAct.impRow i m) ∈ importActs i r := by
  simp [importActs, hm]

/-! ### Stationary loads (R152) -/

/-- How many entries name a read cycle from `c` on. -/
def heldFrom (held : List (Port × Nat)) (c : Nat) : Nat := held.countP fun h => h.1 == .holdRead && decide (c ≤ h.2)

theorem heldFrom_le (held : List (Port × Nat)) (c : Nat) : heldFrom held c ≤ held.length := List.countP_le_length

theorem heldFrom_succ_le (held : List (Port × Nat)) (c : Nat) : heldFrom held (c + 1) ≤ heldFrom held c := by
  refine List.countP_mono_left fun h _ hh => ?_
  simp only [Bool.and_eq_true, decide_eq_true_eq] at hh ⊢
  exact ⟨hh.1, Nat.le_of_succ_le hh.2⟩

theorem heldFrom_succ_lt {held : List (Port × Nat)} {c : Nat} (h : (Port.holdRead, c) ∈ held) :
    heldFrom held (c + 1) < heldFrom held c := by
  obtain ⟨l, r, rfl⟩ := List.append_of_mem h
  have hl := heldFrom_succ_le l c
  have hr := heldFrom_succ_le r c
  have hself : (Port.holdRead == Port.holdRead) = true := rfl
  simp only [heldFrom, List.countP_append, List.countP_cons, hself, Nat.not_succ_le_self, Nat.le_refl, decide_true,
    decide_false, Bool.and_true, Bool.true_and, if_true, if_false, Bool.false_eq_true] at hl hr ⊢
  omega

/-- Enough cycles are tried. -/
theorem freeReads_length {held : List (Port × Nat)} {f c n : Nat} (h : n + heldFrom held c ≤ f) :
    (freeReads held f c n).length = n := by
  induction f generalizing c n with
  | zero => simp [freeReads]; omega
  | succ f ih =>
    unfold freeReads
    split
    · next h0 => simp [h0]
    · split
      · next hc =>
        have := heldFrom_succ_lt (List.contains_iff_mem.1 hc)
        exact ih (by omega)
      · have := heldFrom_succ_le held c
        rw [List.length_cons, ih (by omega)]
        omega

theorem mem_freeReads {held : List (Port × Nat)} {f c n d : Nat} (h : d ∈ freeReads held f c n) :
    c ≤ d ∧ (Port.holdRead, d) ∉ held := by
  induction f generalizing c n with
  | zero => simp [freeReads] at h
  | succ f ih =>
    unfold freeReads at h
    split at h
    · simp at h
    · split at h
      · exact (ih h).imp_left Nat.le_of_succ_le
      · next hc =>
        rcases List.mem_cons.1 h with rfl | h
        · exact ⟨Nat.le_refl _, fun hm => hc (List.contains_iff_mem.2 hm)⟩
        · exact (ih h).imp_left Nat.le_of_succ_le

theorem freeReads_pairwise (held : List (Port × Nat)) (f c n : Nat) : (freeReads held f c n).Pairwise (· < ·) := by
  induction f generalizing c n with
  | zero => simp [freeReads]
  | succ f ih =>
    unfold freeReads
    split
    · exact List.Pairwise.nil
    · split
      · exact ih ..
      · exact List.pairwise_cons.2 ⟨fun d hd => Nat.lt_of_succ_le (mem_freeReads hd).1, ih ..⟩

/-- A cycle before a taken one that is not taken is held. -/
theorem held_of_not_mem_freeReads {held : List (Port × Nat)} {f c n d e : Nat} (he : e ∈ freeReads held f c n) (hcd : c ≤ d)
    (hde : d < e) (hd : d ∉ freeReads held f c n) : (Port.holdRead, d) ∈ held := by
  induction f generalizing c n with
  | zero => simp [freeReads] at he
  | succ f ih =>
    unfold freeReads at he hd
    split at he
    · simp at he
    · next h0 =>
      rw [if_neg h0] at hd
      split at he
      · next hc =>
        rw [if_pos hc] at hd
        rcases Nat.eq_or_lt_of_le hcd with rfl | hlt
        · exact List.contains_iff_mem.1 hc
        · exact ih he hlt hd
      · next hc =>
        rw [if_neg hc] at hd
        obtain ⟨hne, hrest⟩ := List.ne_and_not_mem_of_not_mem_cons hd
        rcases List.mem_cons.1 he with rfl | he
        · exact absurd hde (Nat.not_lt.2 hcd)
        · exact ih he (Nat.lt_of_le_of_ne hcd (Ne.symm hne)) hrest

/-- The cycles in which an LDS that issues now reads its rows. -/
def Tile.ldsCycles (x : Tile) (rows : Nat) : List Nat := freeReads x.older (x.older.length + rows + 1) (x.cyc + 1) rows

theorem ldsCycles_length (x : Tile) (rows : Nat) : (x.ldsCycles rows).length = rows := by
  have := heldFrom_le x.older (x.cyc + 1)
  exact freeReads_length (by omega)

theorem cyc_le_getLastD_ldsCycles (x : Tile) (rows : Nat) : x.cyc ≤ (x.ldsCycles rows).getLastD x.cyc := by
  cases h : x.ldsCycles rows with
  | nil => exact Nat.le_refl _
  | cons c l =>
    have hmem : (c :: l).getLastD x.cyc ∈ x.ldsCycles rows := by
      rw [h, List.getLastD_cons]
      exact List.getLastD_mem_cons ..
    exact Nat.le_of_succ_le (mem_freeReads hmem).1

/-- A cycle before the last one that is not taken is held. -/
theorem held_of_not_mem_ldsCycles {x : Tile} {rows c : Nat} (hc : x.cyc < c) (hlast : c < (x.ldsCycles rows).getLastD 0)
    (hnot : c ∉ x.ldsCycles rows) : (Port.holdRead, c) ∈ x.older := by
  cases h : x.ldsCycles rows with
  | nil => simp [h] at hlast
  | cons d l =>
    have hmem : (x.ldsCycles rows).getLastD 0 ∈ x.ldsCycles rows := by
      rw [h, List.getLastD_cons]
      exact List.getLastD_mem_cons ..
    exact held_of_not_mem_freeReads hmem hc hlast hnot

@[simp] theorem buf_setBuf_self (x : Tile) (b : Bool) (k : StatBuf) : (x.setBuf b k).buf b = k := by cases b <;> rfl
@[simp] theorem buf_setBuf_not (x : Tile) (b : Bool) (k : StatBuf) : (x.setBuf b k).buf (!b) = x.buf (!b) := by
  cases b <;> rfl
@[simp] theorem sched_setBuf (x : Tile) (b : Bool) (k : StatBuf) : (x.setBuf b k).sched = x.sched := by cases b <;> rfl
@[simp] theorem held_setBuf (x : Tile) (b : Bool) (k : StatBuf) : (x.setBuf b k).held = x.held := by cases b <;> rfl

/-- The tile with the acts of an LDS planned, before its buffer expects the image. -/
def Tile.ldsPlanned (x : Tile) (buf sp bs : Bool) (fmt a : Nat) (cycles : List Nat) : Tile :=
  ((x.holding .holdRead cycles).planAll true 1 ((cycles.zip (ldsOffsets fmt sp bs)).zipIdx.map fun p =>
    (p.1.1 - x.cyc, TileAct.ldsRow buf (a + 256 * p.2) p.1.2))).plan 1 (cycles.getLastD x.cyc + 1 - x.cyc)
      (.ldsTag buf fmt sp bs)

section
variable {x : Tile} {buf sp bs : Bool} {fmt ra : Nat} (hfmt : fmt ≤ 12) (hsp : ¬(fmt = 9 ∧ sp = true))
  (hbs : bs = true → fmtBlock fmt = true) (hp : x.rsPoison ra = false)
  (ha : (x.rs ra).toNat / 256 * 256 + 256 * (ldsOffsets fmt sp bs).length ≤ 0x180000)
include hfmt hsp hbs hp ha

/-- A legal LDS comes to the holding of its read cycles. -/
theorem ldsIssue_eq : ldsIssue buf sp bs fmt ra true x =
    x.holdAll [(.holdRead, x.ldsCycles (ldsOffsets fmt sp bs).length)] fun y =>
      let w := (x.ldsCycles (ldsOffsets fmt sp bs).length).getLastD x.cyc + 1
      let y := y.planAll true 1 (((x.ldsCycles (ldsOffsets fmt sp bs).length).zip (ldsOffsets fmt sp bs)).zipIdx.map
        fun p => (p.1.1 - x.cyc, TileAct.ldsRow buf ((x.rs ra).toNat / 256 * 256 + 256 * p.2) p.1.2))
      let y := y.planIf true 1 (w - x.cyc) (.ldsTag buf fmt sp bs)
      .ok (y.setBuf buf { y.buf buf with expected := some { fmt := fmt, sp := sp, bs16 := bs, ea := 0 } }) := by
  have hlegal : ¬(12 < fmt ∨ (fmt = 9 ∧ sp) ∨ (bs ∧ !fmtBlock fmt)) := by
    rintro (h | h | ⟨h1, h2⟩)
    · omega
    · exact hsp h
    · simp [hbs h1] at h2
  refine (if_neg hlegal).trans ((holdAccess_ok hp ?_ _).trans ?_)
  · rw [addrOf_zero]
    exact ha
  · simp only [addrOf_zero]
    rfl

theorem ldsIssue_ok (hfree : x.Free .holdRead (x.ldsCycles (ldsOffsets fmt sp bs).length)) :
    ∃ y : Tile, y = x.ldsPlanned buf sp bs fmt ((x.rs ra).toNat / 256 * 256) (x.ldsCycles (ldsOffsets fmt sp bs).length) ∧
      ldsIssue buf sp bs fmt ra true x =
        .ok (y.setBuf buf { y.buf buf with expected := some { fmt := fmt, sp := sp, bs16 := bs, ea := 0 } }) :=
  ⟨_, rfl, (ldsIssue_eq hfmt hsp hbs hp ha).trans (holdAll_cons hfree)⟩

theorem ldsIssue_collision (hfree : ¬x.Free .holdRead (x.ldsCycles (ldsOffsets fmt sp bs).length)) :
    ldsIssue buf sp bs fmt ra true x = .stop .portCollision x.pc := by
  refine (ldsIssue_eq hfmt hsp hbs hp ha).trans (holdAll_collision ?_)
  simpa [Tile.Free] using hfree

end

end Sys2Proof.Machine

/-- Settles O17: the pass, its ports and its acts are those that the model plans. -/
theorem mmaRunsItsSchedule : Obligations.MmaRunsItsSchedule := by
  refine fun s t g bank buf z ag bs fmt ra rb hs hfmt hbs hrb hag hpar hpa hpb ha hr hreads harray hbank => ?_
  have hformat : mmaFormat fmt.toNat = true := by
    rw [mmaFormat, ← Bool.decide_or]
    exact decide_eq_true hfmt
  have hfetches : (s.tile t).Free .holdRead ((s.tile t).passReads buf ag bs fmt.toNat) := by
    rw [Tile.passReads, passEarly_eq]
    exact hreads
  have hrb' (h : fmtMx fmt.toNat = false) : rb.toNat = 0 := by rw [hrb h]; rfl
  have hissue := done_issue_reads hs hpar
    (mmaIssue_ok hformat hbs hrb' hag hpa hpb ha hr hfetches harray hbank)
  refine ⟨(s.tile t).newPass bank buf z ag bs fmt.toNat ra.toNat rb.toNat, _, hissue, ?_, ?_, rfl, rfl, rfl, rfl, rfl, rfl,
    rfl, rfl, rfl, rfl, rfl, rfl, ?_, fun m hm => ?_, fun hz => ?_, ?_, ?_, ?_⟩
  · rw [planAll_true, Tile.passReads, passEarly_eq]
    rfl
  · rw [planAll_true]
  · exact exists_mem_planAll (mmaTags_mem_passActs ..) (Nat.add_assoc ..).symm
  · refine exists_mem_planAll (mmaRow_mem_passActs _ buf z ag bs _ hm) ?_
    rw [← Nat.add_assoc, ← Nat.add_assoc]
    rfl
  · exact exists_mem_planAll (mmaZero_mem_passActs _ buf z ag bs _ hz) (Nat.add_assoc ..).symm
  · rw [planAll_true]; rfl
  · rw [planAll_true]; rfl
  · rw [planAll_true]; rfl

/-- Settles O18: the `Export`, its ports and its acts are those that the model plans. -/
theorem exportRunsItsSchedule : Obligations.ExportRunsItsSchedule := by
  refine fun s t g bank cz bs fmt ra rb hs h9 h15 hrb hwidth hpar hpa hpb ha hr hfree => ?_
  have hrb' (h : fmtMx fmt.toNat = false) : rb.toNat = 0 ∧ bs = false := (hrb h).imp_left fun h0 => by rw [h0]; rfl
  have hissue := done_issue_reads hs hpar (expIssue_ok (cz := cz) h9 h15 hrb' hwidth hpa hpb rfl ha hr hfree)
  refine ⟨(s.tile t).newExport bank cz fmt.toNat bs ra.toNat rb.toNat, _, hissue, ?_, ?_, rfl, rfl, rfl, rfl, rfl, rfl,
    rfl, rfl, fun m hm => ?_, fun j hj => ?_, fun j hj => ?_, ?_, ?_, ?_⟩
  · rw [planAll_true]; rfl
  · rw [planAll_true]
  · exact exists_mem_planAll (expRow_mem_exportActs _ hm) (Nat.add_assoc ..).symm
  · exact exists_mem_planAll (expElems_mem_exportActs _ hj) (Nat.add_assoc ..).symm
  · refine exists_mem_planAll (expScales_mem_exportActs _ hj) ?_
    rw [← Nat.add_assoc, ← Nat.add_assoc]
    rfl
  · rw [planAll_true]; rfl
  · rw [planAll_true]; rfl
  · rw [planAll_true]; rfl

/-- Settles O19: the import, its ports and its acts are those that the model plans. -/
theorem importRunsItsSchedule : Obligations.ImportRunsItsSchedule := by
  refine fun s t g bank g64 ra rb hs hpar hpa ha hreads hbank => ?_
  have hissue := done_issue_reads hs hpar (impIssue_ok (rb := rb.toNat) hpa rfl ha hreads hbank)
  refine ⟨(s.tile t).newImport bank g64 ra.toNat rb.toNat, _, hissue, ?_, ?_, rfl, rfl, rfl, rfl, rfl, rfl, rfl, rfl,
    fun m hm => ?_, ?_, ?_, ?_⟩
  · rw [planAll_true]; rfl
  · rw [planAll_true]
  · exact exists_mem_planAll (impRow_mem_importActs _ hm) (Nat.add_assoc ..).symm
  · rw [planAll_true]; rfl
  · rw [planAll_true]; rfl
  · rw [planAll_true]; rfl

/-- Settles O15: LDS takes the first free read cycles, as many as its image has rows, and plans its tag after them. -/
theorem ldsTakesTheFirstFreeReadCycles : Obligations.LdsTakesTheFirstFreeReadCycles := by
  refine fun s t g buf sp bs fmt ra hs hfmt hsp hbs hpar hp ha => ?_
  have hsp' : ¬(fmt.toNat = 9 ∧ sp = true) := fun h => hsp ⟨BitVec.eq_of_toNat_eq h.1, h.2⟩
  refine ⟨(s.tile t).ldsCycles (ldsOffsets fmt.toNat sp bs).length, ldsCycles_length .., freeReads_pairwise ..,
    fun c hc => (mem_freeReads hc).imp_left Nat.lt_of_succ_le, fun c hc hlast hnot => held_of_not_mem_ldsCycles hc hlast hnot,
    fun hheld => ?_, fun hfree => ?_⟩
  · refine (completes_stop_reads hs hpar rfl (ldsIssue_collision hfmt hsp' hbs hp ha hheld)).imp fun u hu => ?_
    rw [hu]
    exact ⟨rfl, rfl⟩
  · obtain ⟨y, hy, hissue⟩ := ldsIssue_ok (buf := buf) hfmt hsp' hbs hp ha hfree
    refine ⟨_, done_issue_reads hs hpar hissue, ?_, ?_, ?_, ?_, ?_⟩
    · rw [held_setBuf, hy, Tile.ldsPlanned, planAll_true]
      rfl
    · rw [buf_setBuf_self]
    · rw [buf_setBuf_self, hy, Tile.ldsPlanned, planAll_true]
      rfl
    · rw [buf_setBuf_not, hy, Tile.ldsPlanned, planAll_true]
      rfl
    · rw [sched_setBuf, hy, Tile.ldsPlanned, planAll_true]
      have hle := cyc_le_getLastD_ldsCycles (s.tile t) (ldsOffsets fmt.toNat sp bs).length
      refine ⟨_, List.mem_append_right _ (List.mem_singleton_self _), rfl, ?_⟩
      exact Nat.add_sub_of_le (Nat.le_succ_of_le hle)
end

section
/-! Elementwise vector operations (R121, R163): what an enabled one leaves, and its results element by element. -/

open Sys2Proof Sys2Proof.Machine

namespace Sys2Proof.Machine

/-! ### The issue of a vector operation -/

theorem span_zero (x : Tile) {c : Nat} (hc : 0 < c) : x.span 0 (c - 1) = (List.range c).map (· + x.cyc) :=
  span_eq x (by omega) (Nat.add_zero _)

theorem span_zero_one (x : Tile) : x.span 0 (1 - 1) = [x.cyc] := by
  rw [span_zero x Nat.one_pos]
  simp

/-- An enabled vector operation on right scalar and vector registers plans the write of its elements. -/
theorem done_issueV {s : State} {t : Nat} {g : Guard} {srcs ss occ : List Nat} {c l vd off : Nat}
    {f : Tile → Option (List PElem × Bool)} {r : List PElem × Bool} (hs : s.Issues t g)
    (hv : ∀ v ∈ srcs, (s.tile t).VecOk v) (hpar : (s.tile t).ParityOk ss) (hocc : (s.tile t).span 0 (c - 1) = occ)
    (hfree : (s.tile t).Free .vector occ) (hf : f (s.tile t) = some r) :
    done s (s.issueV t g srcs c l vd f ss off) = .next (s.withTile t
      (((s.tile t).holding .vector occ).plan 2 (l - 1) (.wrV (256 * vd + off) r.1 r.2))) := by
  have hbad : (srcs.any fun v => (List.range 256).any fun e => sget false (s.tile t).vbad (256 * v + e)) = false := by
    simpa only [List.any_eq_false, List.mem_range, Bool.not_eq_true] using hv
  have hreads := readVecs_of_vecOk hv
  simp only [Tile.readVec] at hreads
  simp only [State.issueV, hbad, Bool.and_false, Bool.false_eq_true, if_false]
  refine done_issue_reads hs hpar ?_
  subst hocc
  simp only [if_true, hreads, hf, holdAll_cons hfree, holdAll_nil, planIf_true]

theorem parityOk_nil (x : Tile) : x.ParityOk [] := fun _ h => absurd h List.not_mem_nil

/-- The same for one cycle of the vector unit and no scalar source. -/
theorem done_issueV_one {s : State} {t : Nat} {g : Guard} {srcs : List Nat} {l vd : Nat} {f : Tile → Option (List PElem × Bool)}
    {r : List PElem} (hs : s.Issues t g) (hv : ∀ v ∈ srcs, (s.tile t).VecOk v)
    (hfree : (s.tile t).Free .vector [(s.tile t).cyc]) (hf : f (s.tile t) = some (r, false)) :
    done s (s.issueV t g srcs 1 l vd f) = .next (s.withTile t
      (((s.tile t).holding .vector [(s.tile t).cyc]).plan 2 (l - 1) (.wrV (256 * vd) r false))) :=
  done_issueV (ss := []) (off := 0) (r := (r, false)) hs hv (parityOk_nil _) (span_zero_one _) hfree hf

theorem vecOk_pair {x : Tile} {v w : Nat} (hv : x.VecOk v) (hw : x.VecOk w) : ∀ u ∈ [v, w], x.VecOk u :=
  List.forall_mem_cons.2 ⟨hv, List.forall_mem_singleton.2 hw⟩

theorem vecOk_triple {x : Tile} {u v w : Nat} (hu : x.VecOk u) (hv : x.VecOk v) (hw : x.VecOk w) : ∀ i ∈ [u, v, w], x.VecOk i :=
  List.forall_mem_cons.2 ⟨hu, vecOk_pair hv hw⟩

/-! ### Elements of registers -/

@[simp] theorem vreg_length (x : Tile) (v : Nat) : (x.vreg v).length = 256 := by simp [Tile.vreg]

theorem vreg_getElem? (x : Tile) (v : Nat) {e : Nat} (h : e < 256) :
    (x.vreg v)[e]? = some (x.velem v e, x.velemPoison v e) := by
  simp [Tile.vreg, h]

theorem vreg_zip_getElem? (x : Tile) (v w : Nat) {e : Nat} (h : e < 256) : ((x.vreg v).zip (x.vreg w))[e]? =
    some ((x.velem v e, x.velemPoison v e), (x.velem w e, x.velemPoison w e)) :=
  List.getElem?_zip_eq_some.2 ⟨vreg_getElem? x v h, vreg_getElem? x w h⟩

theorem vreg_zip_zip_getElem? (x : Tile) (u v w : Nat) {e : Nat} (h : e < 256) :
    ((x.vreg u).zip ((x.vreg v).zip (x.vreg w)))[e]? = some ((x.velem u e, x.velemPoison u e),
      (x.velem v e, x.velemPoison v e), (x.velem w e, x.velemPoison w e)) :=
  List.getElem?_zip_eq_some.2 ⟨vreg_getElem? x u h, vreg_zip_getElem? x v w h⟩

theorem elementwise_some {x : Tile} {va vb : Nat} {f : BitVec 32 → BitVec 32 → Option (BitVec 32)}
    {h : BitVec 32 → BitVec 32 → BitVec 32} (hf : ∀ a b, f a b = some (h a b)) :
    ∃ r : List PElem, elementwise x va vb f = some (r, false) ∧ r.length = 256 ∧ ∀ e < 256,
      r[e]? = some (h (x.velem va e) (x.velem vb e), x.velemPoison va e || x.velemPoison vb e) := by
  refine ⟨((x.vreg va).zip (x.vreg vb)).map fun p => (h p.1.1 p.2.1, p.1.2 || p.2.2), ?_, by simp, fun e he => ?_⟩
  · rw [elementwise, mapM_eq_some_map (fun p => by rw [hf]; rfl)]
    rfl
  · rw [List.getElem?_map, vreg_zip_getElem? x va vb he]
    rfl

theorem floatVec_some {x : Tile} {vd va vb fn : Nat} {f : Nat → BitVec 32 → BitVec 32 → BitVec 32 → Option (BitVec 32)}
    {h : BitVec 32 → BitVec 32 → BitVec 32 → BitVec 32} (hf : ∀ a b d, f fn a b d = some (h a b d)) :
    ∃ r : List PElem, floatVec x vd va vb fn f = some (r, false) ∧ r.length = 256 ∧ ∀ e < 256,
      r[e]? = some (h (x.velem va e) (x.velem vb e) (x.velem vd e),
        x.velemPoison va e || x.velemPoison vb e || (fn == 3 && x.velemPoison vd e)) := by
  refine ⟨((x.vreg va).zip ((x.vreg vb).zip (x.vreg vd))).map fun p =>
    (h p.1.1 p.2.1.1 p.2.2.1, p.1.2 || p.2.1.2 || (fn == 3 && p.2.2.2)), ?_, by simp, fun e he => ?_⟩
  · rw [floatVec, mapM_eq_some_map (fun p => by rw [hf]; rfl)]
    rfl
  · rw [List.getElem?_map, vreg_zip_zip_getElem? x va vb vd he]
    rfl

/-! ### Functions by FN -/

theorem floatOp_eq {fn : Nat} (h : fn < 6) (a b d : Num) :
    floatOp fn a b d = some (([a.add b, a.add b.neg, a.mul b, (a.mul b).add d, a.minimum b, a.maximum b]).getD fn a) := by
  interval_cases fn <;> rfl

theorem vecIntOp_eq {fn : Nat} (h : fn < 11) (a b : BitVec 32) : vecIntOp fn a b =
    some (([a + b, a - b, a * b, a &&& b, a ||| b, a ^^^ b, a <<< (b.toNat % 32), a >>> (b.toNat % 32),
      a.sshiftRight (b.toNat % 32), if a.toInt < b.toInt then a else b, if a.toInt < b.toInt then b else a]).getD fn 0) := by
  interval_cases fn <;> simp [vecIntOp, BitVec.slt_eq_decide]

theorem vecIntCond_eq {fn : Nat} (h : fn < 4) (a b : BitVec 32) : vecIntCond fn a b =
    some (([decide (a = b), decide (a ≠ b), decide (a.toInt < b.toInt), decide (a.toNat < b.toNat)]).getD fn false) := by
  interval_cases fn <;> simp [vecIntCond, BitVec.slt_eq_decide, BitVec.ult_eq_decide, beq_eq_decide, bne]

theorem floatCond_eq {fn : Nat} (h : fn < 4) (a b : Num) : floatCond fn a b =
    some (([a.eqv b, (decide (a = .nan) || decide (b = .nan)) || !a.eqv b, a.lt b,
      !(decide (a = .nan) || decide (b = .nan)) && (a.lt b || a.eqv b)]).getD fn false) := by
  interval_cases fn <;> rfl

theorem beq_three_toNat (fn : BitVec 4) : (fn == 3) = (fn.toNat == 3) := by
  rw [Bool.eq_iff_iff, beq_iff_eq, beq_iff_eq]
  exact BitVec.toNat_eq

/-- The registers that FOP and HOP read have right check bits. -/
theorem floatSrcs_vecOk {x : Tile} {vd va vb : BitVec 6} (fn : BitVec 4) (hva : x.VecOk va.toNat) (hvb : x.VecOk vb.toNat)
    (hvd : x.VecOk vd.toNat) : ∀ v ∈ floatSrcs vd va vb fn, x.VecOk v := by
  unfold floatSrcs
  split
  · exact vecOk_triple hva hvb hvd
  · exact vecOk_pair hva hvb

end Sys2Proof.Machine

/-- Settles O20: FOP and HOP map the function of R121 over the elements. -/
theorem floatVectorOperations : Obligations.FloatVectorOperations := by
  refine fun s t g vd va vb fn hs hfn hva hvb hvd hfree => ?_
  have hsrcs := floatSrcs_vecOk fn hva hvb hvd
  simp only [beq_three_toNat]
  constructor
  · obtain ⟨r, hr, hlen, helem⟩ := floatVec_some (x := s.tile t) (vd := vd.toNat) (va := va.toNat) (vb := vb.toNat)
      (f := fop32) fun a b d => by rw [fop32, floatOp_eq hfn]; rfl
    exact ⟨r, done_issueV_one (f := fun x => floatVec x vd.toNat va.toNat vb.toNat fn.toNat fop32) hs hsrcs hfree hr, hlen, helem⟩
  · obtain ⟨r, hr, hlen, helem⟩ := floatVec_some (x := s.tile t) (vd := vd.toNat) (va := va.toNat) (vb := vb.toNat)
      (f := hop32) fun a b d => by rw [hop32, floatOp_eq hfn, floatOp_eq hfn]
    exact ⟨r, done_issueV_one (f := fun x => floatVec x vd.toNat va.toNat vb.toNat fn.toNat hop32) hs hsrcs hfree hr, hlen, helem⟩

/-- Settles O21: each operation maps its function over the elements, or selects among them. -/
theorem integerVectorOperations : Obligations.IntegerVectorOperations := by
  refine fun s t g vd va vb fn hs hva hvb hvd hfree => ⟨fun hfn => ?_, fun hfn => ?_, fun hfn => ?_, ?_, ?_⟩
  · obtain ⟨r, hr, hlen, helem⟩ := elementwise_some (x := s.tile t) (va := va.toNat) (vb := vb.toNat) (vecIntOp_eq hfn)
    have htwo : (fn = 2) = (fn.toNat = 2) := propext BitVec.toNat_eq
    simp only [htwo]
    exact ⟨r, done_issueV_one hs (vecOk_pair hva hvb) hfree hr, hlen, helem⟩
  · obtain ⟨r, hr, hlen, helem⟩ := elementwise_some (x := s.tile t) (va := va.toNat) (vb := vb.toNat)
      (f := fun a b => (vecIntCond fn.toNat a b).map maskOf) fun a b => by rw [vecIntCond_eq hfn]; rfl
    exact ⟨r, done_issueV_one hs (vecOk_pair hva hvb) hfree hr, hlen, helem⟩
  · obtain ⟨r, hr, hlen, helem⟩ := elementwise_some (x := s.tile t) (va := va.toNat) (vb := vb.toNat)
      (f := fun a b => (floatCond fn.toNat (decodeElem .f32 a.toNat) (decodeElem .f32 b.toNat)).map maskOf)
      fun a b => by rw [floatCond_eq hfn]; rfl
    exact ⟨r, done_issueV_one hs (vecOk_pair hva hvb) hfree hr, hlen, helem⟩
  · refine ⟨selectVec (s.tile t) vd.toNat va.toNat vb.toNat, done_issueV_one hs
      (vecOk_triple hva hvb hvd) hfree rfl, by simp [selectVec], fun e he => ?_⟩
    rw [selectVec, List.getElem?_map, vreg_zip_zip_getElem? _ _ _ _ he]
    simp only [Option.map_some, Option.some.injEq]
    split <;> rfl
  · refine ⟨permVec (s.tile t) va.toNat vb.toNat, done_issueV_one hs (vecOk_pair hva hvb) hfree rfl, by simp [permVec],
      fun e he => ?_⟩
    rw [permVec, List.getElem?_map, vreg_getElem? _ _ he]
    rfl
end

section
/-! Functions, grid lanes and conversions of the vector unit (R122, R123, R125, R163 to R165): the elements each writes. -/

open Sys2Proof Sys2Proof.Machine

namespace Sys2Proof.Machine

/-! ### Functions -/

theorem packHalves_length (l : List (Nat × Bool)) : (packHalves l).length = l.length / 2 := by
  induction l using packHalves.induct with
  | case1 a b l ih =>
    simp only [packHalves, List.length_cons, ih]
    omega
  | case2 l h =>
    match l, h with
    | [], _ => rfl
    | [_], _ => simp [packHalves]
    | a :: b :: l, h => exact absurd rfl (h a b l)

theorem packHalves_getElem? {l : List (Nat × Bool)} {k : Nat} {a b : Nat × Bool} (ha : l[2 * k]? = some a)
    (hb : l[2 * k + 1]? = some b) : (packHalves l)[k]? = some (BitVec.ofNat 32 (a.1 + 65536 * b.1), a.2 || b.2) := by
  induction k generalizing l with
  | zero =>
    match l, ha, hb with
    | _ :: _ :: _, rfl, rfl => rfl
  | succ k ih =>
    match l, ha, hb with
    | _ :: _ :: l, ha, hb => exact ih (l := l) ha hb

theorem vfnVec_single {fn : Nat} (h : fn < 5) (x : Tile) (va : Nat) : vfnVec x va 0 fn = some ((x.vreg va).map fun e =>
    (BitVec.ofNat 32 (encodeElem .f32 (vecFn fn (decodeElem .f32 e.1.toNat))).1, e.2), false) := by
  rw [vfnVec, if_pos (by omega)]
  rfl

theorem vfnVec_half {fn vb : Nat} (h5 : 5 ≤ fn) (h8 : fn < 8) (hvb : vb < 2) (x : Tile) (va : Nat) :
    vfnVec x va vb fn = some (packHalves ((x.vreg va).map fun e =>
      ((encodeElem .bf16 (vecFn fn (decodeElem .f32 e.1.toNat))).1, e.2)), false) := by
  rw [vfnVec, if_neg (by omega), if_pos (by omega), if_neg (by omega)]

theorem vfnVec_pair {fn : Nat} (h8 : 8 ≤ fn) (h11 : fn < 11) (x : Tile) (va : Nat) :
    vfnVec x va 0 fn = some ((x.vreg va).map fun e =>
      let h (i : Nat) := (encodeElem .bf16 (vecFn fn (decodeElem .bf16 (e.1.toNat / 2 ^ (16 * i) % 65536)))).1
      (BitVec.ofNat 32 (h 0 + 65536 * h 1), e.2), false) := by
  rw [vfnVec, if_neg (by omega), if_neg (by omega), if_pos (by omega)]
  rfl

/-- VFN of 256 elements of vd. -/
theorem exec_vfn_whole {s : State} {t : Nat} {g : Guard} (hs : s.Issues t g) {vd va : BitVec 6} {fn : BitVec 4}
    {r : List PElem} (hfn : fn.toNat < 5 ∨ 8 ≤ fn.toNat) (hva : (s.tile t).VecOk va.toNat)
    (hfree : (s.tile t).Free .vector ((List.range 4).map (· + (s.tile t).cyc)))
    (hr : vfnVec (s.tile t) va.toNat 0 fn.toNat = some (r, false)) :
    exec (.vfn t g vd va 0 fn) s = .next (s.withTile t
      (((s.tile t).holding .vector ((List.range 4).map (· + (s.tile t).cyc))).plan 2 (14 - 1)
        (.wrV (256 * vd.toNat + 0) r false))) := by
  have hhalf : decide (5 ≤ fn.toNat ∧ fn.toNat ≤ 7) = false := decide_eq_false (by omega)
  change execVfn t g vd va 0 fn s = _
  simp only [execVfn, hhalf]
  exact done_issueV (ss := []) (off := 0) (c := 4) (r := (r, false)) hs (List.forall_mem_singleton.2 hva) (parityOk_nil _)
    (span_zero _ (by decide)) hfree hr

/-- VFN of 128 elements of one half of vd. -/
theorem exec_vfn_half {s : State} {t : Nat} {g : Guard} (hs : s.Issues t g) {vd va vb : BitVec 6} {fn : BitVec 4}
    {r : List PElem} (h5 : 5 ≤ fn.toNat) (h8 : fn.toNat < 8) (hva : (s.tile t).VecOk va.toNat)
    (hfree : (s.tile t).Free .vector ((List.range 2).map (· + (s.tile t).cyc)))
    (hr : vfnVec (s.tile t) va.toNat vb.toNat fn.toNat = some (r, false)) :
    exec (.vfn t g vd va vb fn) s = .next (s.withTile t
      (((s.tile t).holding .vector ((List.range 2).map (· + (s.tile t).cyc))).plan 2 (12 - 1)
        (.wrV (256 * vd.toNat + 128 * vb.toNat) r false))) := by
  have hhalf : decide (5 ≤ fn.toNat ∧ fn.toNat ≤ 7) = true := decide_eq_true (by omega)
  change execVfn t g vd va vb fn s = _
  simp only [execVfn, hhalf]
  exact done_issueV (ss := []) (c := 2) (r := (r, false)) hs (List.forall_mem_singleton.2 hva) (parityOk_nil _)
    (span_zero _ (by decide)) hfree hr

theorem vreg_map_getElem? {β : Type} (x : Tile) (v : Nat) (f : PElem → β) {e : Nat} (h : e < 256) :
    ((x.vreg v).map f)[e]? = some (f (x.velem v e, x.velemPoison v e)) := by
  rw [List.getElem?_map, vreg_getElem? x v h]
  rfl

/-! ### Grid lanes -/

/-- What VGADD leaves in one lane. -/
def Tile.gaddLane (x : Tile) (va : Nat) (bf : Bool) (l : (GVal × Bool) × Nat) : List PElem :=
  laneElems (gridSum (l.1.1 :: (laneTerms (x.vreg va) bf x.gx.toInt l.2).map Prod.fst),
    l.1.2 || (laneTerms (x.vreg va) bf x.gx.toInt l.2).any Prod.snd)

theorem gaddVec_eq {fn : Nat} (h : fn < 2) (x : Tile) (vd va : Nat) :
    gaddVec x vd va 0 fn = some ((lanes (x.vreg vd)).zipIdx.flatMap (x.gaddLane va (fn == 1)), false) := by
  rw [gaddVec, if_neg (by omega)]
  rfl

theorem gaddVec_getElem? {x : Tile} {vd va : Nat} {bf : Bool} {i j : Nat} {v : GVal} {p : Bool} (hi : i < 4)
    (hl : (lanes (x.vreg vd))[j]? = some (v, p)) :
    ((lanes (x.vreg vd)).zipIdx.flatMap (x.gaddLane va bf))[4 * j + i]? = some
      (BitVec.ofNat 32 (encodeGrid 128 (gridSum (v :: (laneTerms (x.vreg va) bf x.gx.toInt j).map Prod.fst)) / 2 ^ (32 * i)),
        p || (laneTerms (x.vreg va) bf x.gx.toInt j).any Prod.snd) := by
  have hz : (lanes (x.vreg vd)).zipIdx[j]? = some ((v, p), j) := by
    rw [List.getElem?_zipIdx, hl, Option.map_some, Nat.zero_add]
  rw [flatMap_getElem?_of_length (g := x.gaddLane va bf) (fun _ => laneElems_length _) hi, hz]
  exact laneElems_getElem? _ hi

/-- A lane as two elements of G64. -/
def gexpPair (gx : Int) (v : GVal × Bool) : List PElem :=
  [(BitVec.ofNat 32 (exportElem .g64 gx v.1).1, v.2), (BitVec.ofNat 32 ((exportElem .g64 gx v.1).1 / 2 ^ 32), v.2)]

theorem gexpPair_getElem? (gx : Int) (v : GVal × Bool) {i : Nat} (h : i < 2) :
    (gexpPair gx v)[i]? = some (BitVec.ofNat 32 ((exportElem .g64 gx v.1).1 / 2 ^ (32 * i)), v.2) := by
  interval_cases i
  · simp [gexpPair]
  · rfl

theorem gexpVec_single {vb : Nat} (h : vb < 4) (x : Tile) (va : Nat) : gexpVec x va vb 0 =
    some ((lanes (x.vreg va)).map fun v => (BitVec.ofNat 32 (exportElem .f32 x.gx.toInt v.1).1, v.2), false) := by
  rw [gexpVec, if_neg (by omega)]

theorem gexpVec_pair {vb : Nat} (h : vb < 2) (x : Tile) (va : Nat) :
    gexpVec x va vb 1 = some ((lanes (x.vreg va)).flatMap (gexpPair x.gx.toInt), false) := by
  simp only [gexpVec, if_neg (show ¬4 ≤ vb by omega), if_neg (show ¬2 ≤ vb by omega)]
  rfl

theorem exec_vgadd {s : State} {t : Nat} {g : Guard} (hs : s.Issues t g) {vd va : BitVec 6} {fn : BitVec 4} {n : Nat}
    {r : List PElem} (hn : n = if fn = 1 then 8 else 4) (hva : (s.tile t).VecOk va.toNat) (hvd : (s.tile t).VecOk vd.toNat)
    (hfree : (s.tile t).Free .vector ((List.range n).map (· + (s.tile t).cyc)))
    (hr : gaddVec (s.tile t) vd.toNat va.toNat 0 fn.toNat = some (r, false)) :
    exec (.vgadd t g vd va 0 fn) s = .next (s.withTile t
      (((s.tile t).holding .vector ((List.range n).map (· + (s.tile t).cyc))).plan 2 (n + 4 - 1)
        (.wrV (256 * vd.toNat + 0) r false))) := by
  have hone : decide (fn.toNat = 1) = decide (fn = 1) := decide_eq_decide.2 (BitVec.toNat_eq (y := 1)).symm
  change execVgadd t g vd va 0 fn s = _
  simp only [execVgadd, hone]
  subst hn
  by_cases h1 : fn = 1
  · simp only [decide_eq_true h1, if_pos h1] at hfree ⊢
    exact done_issueV (ss := []) (off := 0) (r := (r, false)) hs (vecOk_pair hva hvd) (parityOk_nil _)
      (span_zero _ (by decide)) hfree hr
  · simp only [decide_eq_false h1, if_neg h1] at hfree ⊢
    exact done_issueV (ss := []) (off := 0) (r := (r, false)) hs (vecOk_pair hva hvd) (parityOk_nil _)
      (span_zero _ (by decide)) hfree hr

theorem exec_vgexp {s : State} {t : Nat} {g : Guard} (hs : s.Issues t g) {vd va vb : BitVec 6} {fn : BitVec 4}
    {r : List PElem} (hva : (s.tile t).VecOk va.toNat)
    (hfree : (s.tile t).Free .vector ((List.range 1).map (· + (s.tile t).cyc)))
    (hr : gexpVec (s.tile t) va.toNat vb.toNat fn.toNat = some (r, false)) :
    exec (.vgexp t g vd va vb fn) s = .next (s.withTile t
      (((s.tile t).holding .vector ((List.range 1).map (· + (s.tile t).cyc))).plan 2 (4 - 1)
        (.wrV (256 * vd.toNat + (if fn = 0 then 64 else 128) * vb.toNat) r false))) :=
  done_issueV (ss := []) (f := fun x => gexpVec x va.toNat vb.toNat fn.toNat) (c := 1) (l := 4) (r := (r, false)) hs
    (List.forall_mem_singleton.2 hva) (parityOk_nil _) (span_zero _ Nat.one_pos) hfree hr

end Sys2Proof.Machine

/-- Settles O22: the results are the function of R122 mapped over the elements, packed two to an element for halves. -/
theorem vectorFunctions : Obligations.VectorFunctions := by
  refine fun s t g vd va vb fn hs hva => ⟨fun h5 hfree => ?_, fun h5 h8 hvb hfree => ?_, fun h8 h11 hfree => ?_⟩
  · exact ⟨_, exec_vfn_whole hs (.inl h5) hva hfree (vfnVec_single h5 _ _), by simp, fun e he => vreg_map_getElem? _ _ _ he⟩
  · refine ⟨_, exec_vfn_half hs h5 h8 hva hfree (vfnVec_half h5 h8 hvb _ _), by simp [packHalves_length], fun k hk => ?_⟩
    exact packHalves_getElem? (vreg_map_getElem? _ _ _ (by omega)) (vreg_map_getElem? _ _ _ (by omega))
  · exact ⟨_, exec_vfn_whole hs (.inr h8) hva hfree (vfnVec_pair h8 h11 _ _), by simp, fun e he => vreg_map_getElem? _ _ _ he⟩

/-- Settles O24: VGADD leaves each lane's exact sum in its four elements, VGEXP each lane's conversion in one or two. -/
theorem vectorGridLanes : Obligations.VectorGridLanes := by
  refine fun s t g vd va vb fn hs hfn hva => ⟨fun hvd hfree => ?_, fun hfree => ⟨fun hvb => ?_, fun hvb => ?_⟩⟩
  · have hone : (fn == 1) = (fn.toNat == 1) := by
      rw [Bool.eq_iff_iff, beq_iff_eq, beq_iff_eq]
      exact BitVec.toNat_eq
    simp only [hone]
    exact ⟨_, exec_vgadd hs rfl hva hvd hfree (gaddVec_eq hfn _ _ _), fun j _ v p hl i hi => gaddVec_getElem? hi hl⟩
  · refine ⟨_, exec_vgexp hs hva hfree (gexpVec_single hvb _ _), by simp, fun j _ v p hl => ?_⟩
    rw [List.getElem?_map, hl]
    rfl
  · refine ⟨_, exec_vgexp hs hva hfree (gexpVec_pair hvb _ _), by simp [gexpPair], fun j _ v p hl i hi => ?_⟩
    rw [flatMap_getElem?_of_length (g := gexpPair (s.tile t).gx.toInt) (fun _ => rfl) hi, hl]
    exact gexpPair_getElem? _ _ hi
end

section
/-! Conversions, moves and hold accesses of the vector unit (R125, R163, R165). -/

open Sys2Proof Sys2Proof.Machine

namespace Sys2Proof.Machine

/-! ### Little-endian numbers -/

theorem leNat_drop (i : Nat) (l : List Byte) : leNat (l.drop i) = leNat l / 2 ^ (8 * i) := by
  induction i generalizing l with
  | zero => simp
  | succ i ih =>
    cases l with
    | nil => simp [leNat]
    | cons b l =>
      have hb : b.toNat < 256 := b.isLt
      have hdiv : leNat (b :: l) / 256 = leNat l := by
        simp only [leNat]
        omega
      rw [List.drop_succ_cons, ih, ← hdiv, Nat.div_div_eq_div_mul, Nat.mul_succ, Nat.add_comm, Nat.pow_add]

theorem leNat_take (i : Nat) (l : List Byte) : leNat (l.take i) = leNat l % 2 ^ (8 * i) := by
  induction i generalizing l with
  | zero => simp [leNat, Nat.mod_one]
  | succ i ih =>
    cases l with
    | nil => simp [leNat]
    | cons b l =>
      have hb : b.toNat < 256 := b.isLt
      have hdiv : (b.toNat + 256 * leNat l) / 256 = leNat l := by omega
      have hmod : (b.toNat + 256 * leNat l) % 256 = b.toNat := by omega
      rw [List.take_succ_cons, leNat, leNat, ih, Nat.mul_succ, Nat.add_comm (8 * i), Nat.pow_add, Nat.mod_mul]
      simp only [Nat.reducePow, hdiv, hmod]

theorem leNat_toLe (n v : Nat) : leNat (toLe n v) = v % 2 ^ (8 * n) := by
  induction n generalizing v with
  | zero => simp [toLe, leNat, Nat.mod_one]
  | succ n ih =>
    rw [toLe, leNat, ih, Nat.mul_succ, Nat.add_comm (8 * n), Nat.pow_add, Nat.mod_mul]
    rfl

/-! ### Parts of lists -/

theorem chunks_getElem? {α : Type} {n : Nat} (hn : 0 < n) {k j : Nat} {l : List α} (h : l.length = n * k) (hj : j < k) :
    (chunks n k l)[j]? = some ((l.drop (n * j)).take n) := by
  induction k generalizing l j with
  | zero => omega
  | succ k ih =>
    have hne : l.isEmpty = false := by
      rw [List.isEmpty_eq_false_iff_exists_mem, ← List.length_pos_iff_exists_mem, h]
      positivity
    have hdrop : (l.drop n).length = n * k := by simp [h, Nat.mul_succ]
    rw [chunks, hne, if_neg Bool.false_ne_true]
    cases j with
    | zero => rfl
    | succ j => rw [List.getElem?_cons_succ, ih hdrop (by omega), List.drop_drop, Nat.mul_succ, Nat.add_comm n]

/-- Where every element gives `k` results, those of element `j` are the `k` from `k * j` on. -/
theorem flatMap_drop_take {α β : Type} {g : α → List β} {k : Nat} (hg : ∀ a, (g a).length = k) {l : List α} {j : Nat} {a : α}
    (h : l[j]? = some a) : ((l.flatMap g).drop (k * j)).take k = g a := by
  induction l generalizing j with
  | nil => simp at h
  | cons b l ih =>
    rw [List.flatMap_cons]
    cases j with
    | zero =>
      obtain rfl : b = a := Option.some.inj h
      rw [Nat.mul_zero, List.drop_zero, List.take_left' (hg b)]
    | succ j =>
      rw [Nat.mul_succ, Nat.add_comm, ← List.drop_drop, List.drop_left' (hg b), ih h]

theorem length_flatMap_of_length {α β : Type} {g : α → List β} {k : Nat} (hg : ∀ a, (g a).length = k) (l : List α) :
    (l.flatMap g).length = l.length * k := by
  rw [List.length_flatMap, List.map_congr_left fun a _ => hg a, List.map_const', List.sum_replicate, smul_eq_mul]

/-- A part of a part of a list. -/
theorem drop_take_within {α : Type} (l : List α) {m n o w : Nat} (h : o + w ≤ n) :
    (((l.drop m).take n).drop o).take w = (l.drop (m + o)).take w := by
  rw [List.drop_take, List.take_take, List.drop_drop, Nat.min_eq_left (by omega)]

/-! ### The bytes of a register -/

theorem bytesOf_flatMap {α : Type} (f : α → List Byte) (p : α → Bool) (l : List α) :
    bytesOf (l.flatMap fun a => (f a).map fun b => (b, p a)) = l.flatMap f := by
  simp [bytesOf, List.map_flatMap, Function.comp_def]

theorem bytesOf_drop_take (b : PBytes) (i n : Nat) : bytesOf ((b.drop i).take n) = ((bytesOf b).drop i).take n := by
  simp [bytesOf, List.map_take, List.map_drop]

/-- An aligned part of an element, in the bytes of its register. -/
theorem leNat_vecBytes {r : List PElem} {n w : Nat} {e : PElem} (he : r[n / 4]? = some e) (hw : n % 4 + w ≤ 4) :
    leNat (bytesOf (((vecBytes r).drop n).take w)) = e.1.toNat / 2 ^ (8 * (n % 4)) % 2 ^ (8 * w) := by
  have hbytes : ((bytesOf (vecBytes r)).drop (4 * (n / 4))).take 4 = toLe 4 e.1.toNat := by
    rw [vecBytes, bytesOf_flatMap]
    exact flatMap_drop_take (fun _ => toLe_length 4 _) he
  have hword : e.1.toNat < 2 ^ (8 * 4) := e.1.isLt
  rw [bytesOf_drop_take, show n = 4 * (n / 4) + n % 4 by omega, ← drop_take_within _ hw, hbytes, leNat_take, leNat_drop,
    leNat_toLe, Nat.mod_eq_of_lt hword, show 4 * (n / 4) + n % 4 = n by omega]

/-! ### VCVT -/

/-- The formats of VCVT have one, two or four whole bytes. -/
theorem vcvtFmt_bytes {c : Nat} {a : Elem} (h : vcvtFmt c = some a) : a.bits / 8 = 1 ∨ a.bits / 8 = 2 ∨ a.bits / 8 = 4 := by
  unfold vcvtFmt at h
  split at h <;> cases h <;> decide

/-- The converted elements of the source part `sp`, with their flags. -/
def Tile.converted (x : Tile) (va : Nat) (a b : Elem) (sp : Nat) : List ((Nat × Bool) × Bool) :=
  (chunks (a.bits / 8) 256 (((vecBytes (x.vreg va)).drop (256 * (a.bits / 8) * sp)).take (256 * (a.bits / 8)))).map fun c =>
    (encodeElem b (decodeElem a (leNat (bytesOf c))), anyPoison c)

theorem cvtVec_eq {vb fn : Nat} {a b : Elem} (ha : vcvtFmt (vb / 8) = some a) (hb : vcvtFmt (vb % 8) = some b) (hne : a ≠ b)
    (hsp : fn / 4 < 4 / (a.bits / 8)) (htp : fn % 4 < 4 / (b.bits / 8)) (x : Tile) (va : Nat) : cvtVec x va vb fn =
      some (bytesVec (64 * (b.bits / 8)) ((x.converted va a b (fn / 4)).flatMap fun r =>
        (toLe (b.bits / 8) r.1.1).map fun y => (y, r.2)), (x.converted va a b (fn / 4)).any fun r => r.1.2) := by
  have hcode : vb / 8 ≠ vb % 8 := fun h => hne (Option.some.inj (ha.symm.trans (h ▸ hb)))
  simp only [cvtVec, ha, hb]
  rw [if_neg (by omega)]
  rfl

section
variable {x : Tile} {va : Nat} {a b : Elem} {sp : Nat} (hwa : a.bits / 8 = 1 ∨ a.bits / 8 = 2 ∨ a.bits / 8 = 4)
  (hsp : sp < 4 / (a.bits / 8))
include hwa hsp

theorem converted_src_length : (((vecBytes (x.vreg va)).drop (256 * (a.bits / 8) * sp)).take (256 * (a.bits / 8))).length =
    a.bits / 8 * 256 := by
  have hlen : (vecBytes (x.vreg va)).length = 1024 := by
    rw [vecBytes, length_flatMap_of_length (k := 4) fun e => by simp, vreg_length]
  rw [List.length_take, List.length_drop, hlen]
  obtain h | h | h := hwa <;> rw [h] at hsp ⊢ <;> omega

theorem converted_length : (x.converted va a b sp).length = 256 := by
  rw [Tile.converted, List.length_map, chunks_length (by omega) (converted_src_length hwa hsp)]

theorem converted_getElem? {k : Nat} (hk : k < 256) : ∃ p, (x.converted va a b sp)[k]? = some (encodeElem b (decodeElem a
    ((x.velem va ((256 * (a.bits / 8) * sp + a.bits / 8 * k) / 4)).toNat /
      2 ^ (8 * ((256 * (a.bits / 8) * sp + a.bits / 8 * k) % 4)) % 2 ^ (8 * (a.bits / 8)))), p) := by
  have hwithin : a.bits / 8 * k + a.bits / 8 ≤ 256 * (a.bits / 8) := by
    obtain h | h | h := hwa <;> rw [h] <;> omega
  have hpart : (256 * (a.bits / 8) * sp + a.bits / 8 * k) % 4 + a.bits / 8 ≤ 4 ∧
      (256 * (a.bits / 8) * sp + a.bits / 8 * k) / 4 < 256 := by
    obtain h | h | h := hwa <;> rw [h] at hsp ⊢ <;> omega
  refine ⟨anyPoison (((vecBytes (x.vreg va)).drop (256 * (a.bits / 8) * sp + a.bits / 8 * k)).take (a.bits / 8)), ?_⟩
  rw [Tile.converted, List.getElem?_map, chunks_getElem? (by omega) (converted_src_length hwa hsp) hk, Option.map_some,
    drop_take_within _ hwithin, leNat_vecBytes (vreg_getElem? x va hpart.2) hpart.1]

end

/-- An aligned part of an element that bytes spell. -/
theorem bytesVec_part {m n w : Nat} {l : PBytes} (hlen : l.length = 4 * m) (hn : n / 4 < m) (hw : n % 4 + w ≤ 4) :
    ∃ v p, (bytesVec m l)[n / 4]? = some (v, p) ∧
      v.toNat / 2 ^ (8 * (n % 4)) % 2 ^ (8 * w) = leNat (((bytesOf l).drop n).take w) := by
  refine ⟨BitVec.ofNat 32 (leNat (bytesOf ((l.drop (4 * (n / 4))).take 4))), anyPoison ((l.drop (4 * (n / 4))).take 4),
    ?_, ?_⟩
  · rw [bytesVec, List.getElem?_map, chunks_getElem? (by decide) hlen hn]
    rfl
  · have hword : leNat (((bytesOf l).drop (4 * (n / 4))).take 4) < 2 ^ 32 := by
      rw [leNat_take]
      exact Nat.mod_lt _ (by decide)
    rw [bytesOf_drop_take, BitVec.toNat_ofNat, Nat.mod_eq_of_lt hword, ← leNat_drop, ← leNat_take, drop_take_within _ hw,
      show 4 * (n / 4) + n % 4 = n by omega]

/-- The elements of a conversion, as they stand in vd. -/
theorem bytesVec_converted {res : List ((Nat × Bool) × Bool)} {w k : Nat} (hw : w = 1 ∨ w = 2 ∨ w = 4) (hlen : res.length = 256)
    {v : Nat} {c p : Bool} (hk : k < 256) (h : res[k]? = some ((v, c), p)) : ∃ u q,
      (bytesVec (64 * w) (res.flatMap fun r => (toLe w r.1.1).map fun y => (y, r.2)))[w * k / 4]? = some (u, q) ∧
        u.toNat / 2 ^ (8 * (w * k % 4)) % 2 ^ (8 * w) = v % 2 ^ (8 * w) := by
  have hbytes : (res.flatMap fun r => (toLe w r.1.1).map fun y => (y, r.2)).length = 4 * (64 * w) := by
    rw [length_flatMap_of_length (k := w) fun r => by simp, hlen]
    omega
  have hpart : w * k / 4 < 64 * w ∧ w * k % 4 + w ≤ 4 := by
    obtain rfl | rfl | rfl := hw <;> omega
  obtain ⟨u, q, hu, hval⟩ := bytesVec_part hbytes hpart.1 hpart.2
  refine ⟨u, q, hu, hval.trans ?_⟩
  rw [bytesOf_flatMap (fun r : (Nat × Bool) × Bool => toLe w r.1.1) Prod.snd, flatMap_drop_take (fun _ => toLe_length w _) h,
    leNat_toLe]

theorem bytesVec_length {m : Nat} {l : PBytes} (hlen : l.length = 4 * m) : (bytesVec m l).length = m := by
  rw [bytesVec, List.length_map, chunks_length (by decide) hlen]

section
variable {s : State} {t : Nat} {g : Guard} (hs : s.Issues t g) (hfree : (s.tile t).Free .vector [(s.tile t).cyc])
include hs hfree

theorem exec_vcvt {vd va vb : BitVec 6} {fn : BitVec 4} {b : Elem} {r : List PElem × Bool} (hva : (s.tile t).VecOk va.toNat)
    (hb : vcvtFmt (vb.toNat % 8) = some b) (hr : cvtVec (s.tile t) va.toNat vb.toNat fn.toNat = some r) :
    exec (.vcvt t g vd va vb fn) s = .next (s.withTile t (((s.tile t).holding .vector [(s.tile t).cyc]).plan 2 (3 - 1)
      (.wrV (256 * vd.toNat + 64 * (b.bits / 8) * (fn.toNat % 4)) r.1 r.2))) := by
  have hbytes : vcvtBytes (vb.toNat % 8) = b.bits / 8 := by rw [vcvtBytes, hb]
  rw [← hbytes]
  exact done_issueV (ss := []) (f := fun x => cvtVec x va.toNat vb.toNat fn.toNat) (c := 1) (l := 3) hs
    (List.forall_mem_singleton.2 hva) (parityOk_nil _) (span_zero_one _) hfree hr

theorem exec_vbc {vd : BitVec 6} {ra : BitVec 5} (hpar : (s.tile t).ParityOk [ra.toNat]) : exec (.vbc t g vd ra) s =
    .next (s.withTile t (((s.tile t).holding .vector [(s.tile t).cyc]).plan 2 (2 - 1) (.wrV (256 * vd.toNat + 0)
      (List.replicate 256 (((s.tile t).rs ra.toNat).truncate 32, (s.tile t).rsPoison ra.toNat)) false))) :=
  done_issueV (srcs := []) (off := 0) (c := 1) (l := 2)
    (f := fun x => some (List.replicate 256 ((x.rs ra.toNat).truncate 32, x.rsPoison ra.toNat), false)) hs
    (fun _ h => absurd h List.not_mem_nil) hpar (span_zero_one _) hfree rfl

theorem exec_vext {va : BitVec 6} {rd : BitVec 5} {lane : BitVec 8}
    (hbad : sget false (s.tile t).vbad (256 * va.toNat + lane.toNat) = false) : exec (.vext t g rd va lane) s =
    .next (s.withTile t (((s.tile t).holding .vector [(s.tile t).cyc]).writeS true 2 3 rd.toNat
      (((s.tile t).velem va.toNat lane.toNat).zeroExtend 64) ((s.tile t).velemPoison va.toNat lane.toNat))) := by
  change execVext t g rd va lane s = _
  simp only [execVext, hbad, Bool.and_false, Bool.false_eq_true, if_false]
  refine done_issue_ok hs ((holdAll_cons hfree).trans ?_)
  have hbad' : sget false ((s.tile t).holding .vector [(s.tile t).cyc]).vbad (256 * va.toNat + lane.toNat) = false := hbad
  simp only [holdAll_nil, hbad', Bool.or_false]
  rfl

end

end Sys2Proof.Machine

/-- Settles O25: the converted bytes of VCVT stand in its target part; VBC and VEXT by their one plan. -/
theorem vectorConversionsAndMoves : Obligations.VectorConversionsAndMoves := by
  refine fun s t g vd va ra hs hfree => ⟨fun vb fn a b ha hb hne hsp htp hva => ?_, fun hpar => exec_vbc hs hfree hpar,
    fun lane hbad => exec_vext hs hfree hbad⟩
  have hwa := vcvtFmt_bytes ha
  have hwb := vcvtFmt_bytes hb
  have hlen := converted_length (x := s.tile t) (va := va.toNat) (b := b) hwa hsp
  refine ⟨_, _, exec_vcvt hs hfree hva hb (cvtVec_eq ha hb hne hsp htp _ _), ?_, fun k hk => ?_⟩
  · refine bytesVec_length ?_
    rw [length_flatMap_of_length (k := b.bits / 8) fun r => by simp, hlen]
    omega
  · obtain ⟨p, hp⟩ := converted_getElem? (x := s.tile t) (va := va.toNat) (b := b) hwa hsp hk
    exact bytesVec_converted hwb hlen hk hp
end

section
/-! Hold accesses of the vector unit (R163). -/

open Sys2Proof Sys2Proof.Machine

namespace Sys2Proof.Machine

/-- The address of VLD and VST. -/
theorem addrOf_row (ra : Word) (imm : BitVec 11) :
    addrOf ra imm.toInt 256 8 = (ra + imm.signExtend 64 * 256).toNat / 256 * 256 := addrOf_eq ra imm 256 8

/-- The bytes that VST writes. -/
def Tile.storedBytes (x : Tile) (v : Nat) : PBytes :=
  vecBytes ((List.range 256).map fun e => (x.velem v e, x.velemPoison v e || sget false x.vbad (256 * v + e)))

theorem storedBytes_length (x : Tile) (v : Nat) : (x.storedBytes v).length = 1024 := by
  rw [Tile.storedBytes, vecBytes, length_flatMap_of_length (k := 4) fun e => by simp, List.length_map, List.length_range]

theorem storedBytes_getElem? {x : Tile} {v e k : Nat} (hv : x.VecOk v) (he : e < 256) (hk : k < 4) : (x.storedBytes v)[4 * e + k]? =
    some (BitVec.ofNat 8 ((x.velem v e).toNat / 2 ^ (8 * k)), x.velemPoison v e) := by
  have hbytes : ∀ p : PElem, ((toLe 4 p.1.toNat).map fun b => (b, p.2)).length = 4 := fun p => by simp
  rw [Tile.storedBytes, vecBytes, flatMap_getElem?_of_length hbytes hk]
  simp [he, toLe_getElem? hk, hv e he]

section
variable {s : State} {t : Nat} {g : Guard} (hs : s.Issues t g) {v : BitVec 6} {ra : BitVec 5} {imm : BitVec 11}
  (hpar : (s.tile t).ParityOk [ra.toNat]) (hp : (s.tile t).rsPoison ra.toNat = false)
  (ha : addrOf ((s.tile t).rs ra.toNat) imm.toInt 256 8 + 1024 ≤ 0x180000)
  (hvec : (s.tile t).Free .vector [(s.tile t).cyc])
include hs hpar hp ha hvec

theorem exec_vld (hread : (s.tile t).Free .holdRead ((s.tile t).span 1 4)) : exec (.vld t g v ra imm) s = .next (s.withTile t
    ((((s.tile t).holding .vector [(s.tile t).cyc]).holding .holdRead ((s.tile t).span 1 4)).planAll true 2
      ((List.range 4).map fun p =>
        (1 + p, TileAct.rdV v.toNat (addrOf ((s.tile t).rs ra.toNat) imm.toInt 256 8) p)))) :=
  done_issue_reads hs hpar ((holdAccess_ok hp ha _).trans ((holdAll_cons hvec).trans
    (holdAll_cons ((free_holding (by decide) _ _).2 hread))))

theorem exec_vst (hv : (s.tile t).VecOk v.toNat) (hwrite : (s.tile t).Free .holdWrite ((s.tile t).span 2 9)) :
    exec (.vst t g v ra imm) s = .next (s.withTile t
      ((((s.tile t).holding .vector [(s.tile t).cyc]).holding .holdWrite ((s.tile t).span 2 9)).planAll true 2
        ((List.range 8).map fun p => (2 + p, TileAct.wrHold (addrOf ((s.tile t).rs ra.toNat) imm.toInt 256 8 + 128 * p)
          ((((s.tile t).storedBytes v.toNat).drop (128 * p)).take 128))))) := by
  have hbad : ((List.range 256).any fun e => sget false (s.tile t).vbad (256 * v.toNat + e)) = false := by
    simpa only [List.any_eq_false, List.mem_range, Bool.not_eq_true] using hv
  change execVst t g v ra imm s = _
  simp only [execVst, hbad, Bool.and_false, Bool.false_eq_true, if_false]
  exact done_issue_reads hs hpar ((holdAccess_ok hp ha _).trans ((holdAll_cons hvec).trans
    (holdAll_cons ((free_holding (by decide) _ _).2 hwrite))))

end

end Sys2Proof.Machine

/-- Settles O26: the four reads and the eight writes are planned; the bytes written are those of the register. -/
theorem vectorHoldAccess : Obligations.VectorHoldAccess := by
  refine fun s t g v ra imm hs hpar hp ha hvec => ?_
  simp only [← addrOf_row] at ha ⊢
  constructor
  · exact exec_vld hs hpar hp ha hvec
  · exact fun hv hwrite => ⟨_, storedBytes_length _ _, fun e he k hk => storedBytes_getElem? hv he hk,
      exec_vst hs hpar hp ha hvec hv hwrite⟩
end

section
/-! Registers and stored tables after a command: reads of a field that hardware wrote, reads through the seal. -/

open Sys2Proof Sys2Proof.Machine

namespace Sys2Proof.Machine

/-! ### Register fields (R19) -/

theorem getLsbD_putBits (w : Reg) {hi lo : Nat} (v : Nat) {i : Nat} (hi32 : i < 32) : (putBits w hi lo v).getLsbD i =
    if lo ≤ i ∧ i < hi + 1 then v.testBit (i - lo) else w.getLsbD i := by
  simp only [putBits, BitVec.getLsbD_or, BitVec.getLsbD_and, BitVec.getLsbD_not, BitVec.getLsbD_ofNat, hi32, decide_true,
    Bool.true_and, Nat.testBit_mul_two_pow, Nat.testBit_two_pow_sub_one]
  by_cases hlo : lo ≤ i
  · have hdec : decide (i - lo < hi + 1 - lo) = decide (i < hi + 1) := decide_eq_decide.2 (by omega)
    by_cases hhi : i < hi + 1 <;> simp [hlo, hhi, hdec]
  · simp [hlo]

theorem reg_setFld (s : State) (o hi lo v j : Nat) :
    (s.setFld o hi lo v).reg j = if o = j then putBits (s.reg o) hi lo v else s.reg j := State.reg_setReg ..

/-- A field that hardware wrote reads as its low bits. -/
theorem fld_setFld_self (s : State) (o : Nat) {hi lo : Nat} (v : Nat) (h : hi < 32) :
    (s.setFld o hi lo v).fld o hi lo = v % 2 ^ (hi + 1 - lo) := by
  refine Nat.eq_of_testBit_eq fun k => ?_
  rw [fld_testBit, Nat.testBit_mod_two_pow]
  by_cases hk : k < hi + 1 - lo
  · rw [State.bit, reg_setFld, if_pos rfl, getLsbD_putBits _ _ (by omega), if_pos (by omega), Nat.add_sub_cancel]
  · simp [hk]

theorem bit_setBit (s : State) (o : Nat) {i : Nat} (b : Bool) (p : Nat) {j : Nat} (hj : j < 32) :
    (s.setBit o i b).bit p j = if o = p ∧ i = j then b else s.bit p j := by
  rw [State.bit, State.setBit, reg_setFld]
  by_cases ho : o = p
  · subst ho
    rw [if_pos rfl, getLsbD_putBits _ _ hj]
    by_cases hij : i = j
    · subst hij
      cases b <;> simp [bnat]
    · rw [if_neg (by omega), if_neg (by simp [hij])]
      rfl
  · simp [ho, State.bit]

@[simp] theorem bit_setBit_self (s : State) (o : Nat) {i : Nat} (b : Bool) (h : i < 32) : (s.setBit o i b).bit o i = b := by
  rw [bit_setBit s o b o h, if_pos ⟨rfl, rfl⟩]

/-- A register reads through the seal as before it. -/
theorem seal_reg {t s : State} (h : t.fuses = s.fuses) (o : Nat) : (t.seal s).reg o = t.reg o := by simp [State.reg, h]

theorem seal_bit {t s : State} (h : t.fuses = s.fuses) (o i : Nat) : (t.seal s).bit o i = t.bit o i := by
  rw [State.bit, seal_reg h, State.bit]

theorem seal_fld {t s : State} (h : t.fuses = s.fuses) (o hi lo : Nat) : (t.seal s).fld o hi lo = t.fld o hi lo := by
  rw [State.fld, seal_reg h, State.fld]

/-! ### Tables -/

theorem sfind_sdel {α : Type} (k : Nat) (m : SMap α) (j : Nat) : sfind? (sdel k m) j = if k = j then none else sfind? m j := by
  induction m with
  | nil => simp [sdel, sfind?]
  | cons e m ih =>
    obtain ⟨k', v⟩ := e
    by_cases h : k' = k
    · subst h
      by_cases hj : k' = j
      · simpa [sdel, hj] using ih
      · simp [sdel, sfind?, ih, hj]
    · by_cases hj : k' = j
      · subst hj
        simp [sdel, sfind?, h, Ne.symm h]
      · simp [sdel, sfind?, h, ih, hj]

theorem seal_reach {t s : State} (h : t.fuses = s.fuses) (p : Nat) : (t.seal s).reach p = t.reach p := by
  simp [State.reach, h]

@[simp] theorem seal_flight (t s : State) (k : Nat) : (t.seal s).flight k = t.flight k := rfl

theorem tile_of_eq {s t : State} (ht : t.tiles = s.tiles) (hf : t.fuses = s.fuses) (j : Nat) : t.tile j = s.tile j := by
  simp [State.tile, ht, hf]

end Sys2Proof.Machine
end

section
/-! The start of legs, clock steps, droop detectors and access counters (R25, R78, R535, R586). -/

open Sys2Proof Sys2Proof.Machine

namespace Sys2Proof.Machine

/-- What LEG_START makes of a tile (R78). -/
def State.startedTile (s : State) (x : Tile) : Tile :=
  match x.leg, x.flight with
  | some l, some (k, _) =>
    if x.st = .bound ∧ !x.running ∧ x.endAt.isNone ∧ x.sched.isEmpty then
      { x with pc := legPc (s.flight k).image l, cyc := 64, running := true }
    else x
  | _, _ => x

theorem startedTile_idle (s : State) {x : Tile} (h : x.leg = none) : s.startedTile x = x := by
  simp [State.startedTile, h]

theorem startedTile_due (s : State) {x : Tile} {k i l : Nat} (hf : x.flight = some (k, i)) (hl : x.leg = some l)
    (hst : x.st = .bound) (hrun : x.running = false) (hend : x.endAt = none) (hsched : x.sched = []) :
    s.startedTile x = { x with pc := legPc (s.flight k).image l, cyc := 64, running := true } := by
  simp [State.startedTile, hf, hl, hst, hrun, hend, hsched]

theorem doLegStart_tiles (s : State) : s.doLegStart.tiles = s.tiles.map fun e => (e.1, s.startedTile e.2) := by
  refine List.map_congr_left fun e _ => ?_
  obtain ⟨n, x⟩ := e
  dsimp only [State.startedTile]
  cases x.leg with
  | none => rfl
  | some l =>
    cases x.flight with
    | none => rfl
    | some f => exact (apply_ite (Prod.mk n) ..).symm

/-- A table mapped over its values reads the mapped value of what is listed, and the default elsewhere. -/
theorem sget_map {α : Type} {d : α} (f : α → α) (hd : f d = d) (m : SMap α) (j : Nat) :
    sget d (m.map fun e => (e.1, f e.2)) j = f (sget d m j) := by
  induction m with
  | nil => exact hd.symm
  | cons e m ih =>
    simp only [List.map_cons, sget, ih]
    split <;> rfl

theorem doLegStart_tile (s : State) (t : Nat) : s.doLegStart.tile t = s.startedTile (s.tile t) := by
  have hdefault : (tileDefault s.fuses t).leg = none := by
    unfold tileDefault
    split <;> rfl
  rw [State.tile, doLegStart_tiles]
  exact sget_map _ (startedTile_idle s hdefault) _ _

theorem clockStep_takes {s : State} {t c : Nat} (hl : s.Live) (hstep : (s.tile t).step = some c)
    (hdroop : (s.reach (t / 17)).droop = []) (hcyc : (s.tile t).cyc < 64) : exec (.clockStep t) s =
      .next (s.withTile t { s.tile t with clk := min c (s.tile t).service, step := none }) := by
  refine (doneLive_of_live hl (s.doClockStep t)).trans ?_
  simp only [State.doClockStep, hstep, hdroop, hcyc, List.isEmpty_nil, true_and, if_true]
  rfl

theorem clockStep_waits {s : State} {t c : Nat} (hl : s.Live) (hstep : (s.tile t).step = some c)
    (h : (s.reach (t / 17)).droop ≠ [] ∨ 64 ≤ (s.tile t).cyc) : exec (.clockStep t) s = .next (s.seal s) := by
  refine (doneLive_of_live hl (s.doClockStep t)).trans ?_
  have hno : ¬((s.reach (t / 17)).droop.isEmpty = true ∧ (s.tile t).cyc < 64) := by
    rw [List.isEmpty_iff, not_and_or, Nat.not_lt]
    exact h
  simp only [State.doClockStep, hstep, if_neg hno]

theorem mem_doCounterDecay (s : State) (c b n : Nat) (w : Bool) : (c, b, n, w) ∈ s.doCounterDecay.xlt.counters ↔
    0 < n ∧ ∃ m, (c, b, m, w) ∈ s.xlt.counters ∧ n = m / 2 := by
  simp only [State.doCounterDecay, List.mem_filter, List.mem_map, Prod.exists, Prod.mk.injEq, decide_eq_true_eq]
  constructor
  · rintro ⟨⟨c', b', m, w', hm, rfl, rfl, rfl, rfl⟩, hn⟩
    exact ⟨Nat.pos_of_ne_zero hn, m, hm, rfl⟩
  · rintro ⟨hn, m, hm, rfl⟩
    exact ⟨⟨c, b, m, w, hm, rfl, rfl, rfl, rfl⟩, Nat.ne_of_gt hn⟩

end Sys2Proof.Machine

/-- Settles O33: each command changes its own tile, reach or counters and nothing else. -/
theorem clocksAndLegs : Obligations.ClocksAndLegs := by
  refine fun s hl => ⟨fun t k i l hf hleg hst hrun hend hsched => ?_,
    fun t c hstep hdroop hcyc => clockStep_takes hl hstep hdroop hcyc,
    fun t c hstep h => clockStep_waits hl hstep h, fun t c hstep => ?_, fun p d l hp hd h1 h3 => ?_, fun p d => ?_, ?_⟩
  · refine completes_live hl rfl ⟨?_, rfl, fun t' ht' => ?_⟩
    · rw [seal_tile (by rfl), doLegStart_tile, startedTile_due s hf hleg hst hrun hend hsched]
    · rw [seal_tile (by rfl), doLegStart_tile, startedTile_idle s ht']
  · have hdo : s.doClockDeferred t = (s.modTile t fun x => { x with step := none }).setBit PWR_STAT 7 true := by
      simp [State.doClockDeferred, hstep]
    refine completes_live hl rfl ?_
    rw [hdo]
    refine ⟨?_, ?_, fun t' ht' => ?_⟩
    · rw [seal_tile (by rfl), (setBit_kept _ _ _ _).tile, State.modTile, State.tile_setTile_self]
    · rw [seal_bit (by rfl), bit_setBit_self _ _ _ (by decide)]
    · rw [seal_tile (by rfl), (setBit_kept _ _ _ _).tile, State.modTile, State.tile_setTile, if_neg (Ne.symm ht')]
  · have hdo : s.doDroopTrip p d l = s.setReach p { s.reach p with droop := sput d l (s.reach p).droop } :=
      if_pos ⟨hp, hd, h1, h3⟩
    refine completes_live hl rfl ?_
    rw [hdo]
    refine ⟨?_, fun d' hd' => ?_, rfl⟩
    · rw [seal_reach (by rfl), State.reach_setReach_self, sfind_sput, if_pos rfl]
    · rw [seal_reach (by rfl), State.reach_setReach_self, sfind_sput, if_neg (Ne.symm hd')]
  · refine completes_live hl rfl ?_
    by_cases hd : (sfind? (s.reach p).droop d).isSome = true
    · rw [show s.doDroopEnd p d = s.setReach p { s.reach p with droop := sdel d (s.reach p).droop } from if_pos hd]
      refine ⟨?_, fun d' hd' => ?_, rfl⟩
      · rw [seal_reach (by rfl), State.reach_setReach_self, sfind_sdel, if_pos rfl]
      · rw [seal_reach (by rfl), State.reach_setReach_self, sfind_sdel, if_neg (Ne.symm hd')]
    · rw [show s.doDroopEnd p d = s from if_neg hd]
      exact ⟨Option.not_isSome_iff_eq_none.1 hd, fun d' _ => rfl, rfl⟩
  · exact completes_live hl rfl ⟨fun c b n w => mem_doCounterDecay s c b n w, rfl, rfl, rfl⟩
end

section
/-! The host's accesses to BAR0, BAR2 and configuration space (R9 to R12, R51, R443, R460 to R462). -/

open Sys2Proof Sys2Proof.Machine

namespace Sys2Proof.Machine

/-! ### Errors of the host port -/

/-- What an error of the host port leaves alone. -/
structure State.SamePort (s t : State) : Prop where
  regs : t.regs = s.regs
  out : t.out = s.out

theorem aerSet_samePort (s : State) (e : AerErr) : s.SamePort (s.aerSet e) := ⟨rfl, rfl⟩

theorem mem_aer_aerSet (s : State) (e : AerErr) : e ∈ (s.aerSet e).port.aer := by
  unfold State.aerSet
  dsimp only
  split
  next h => exact List.contains_iff_mem.1 h
  next => exact List.mem_append_right _ (List.mem_singleton.2 rfl)

theorem mem_aer_aerSet_of_mem {s : State} {e : AerErr} (f : AerErr) (h : e ∈ s.port.aer) : e ∈ (s.aerSet f).port.aer := by
  unfold State.aerSet
  dsimp only
  split
  · exact h
  · exact List.mem_append_left _ h

theorem advise_samePort (s : State) (e : AerErr) : s.SamePort (s.advise e) := by
  unfold State.advise
  split
  · exact ⟨rfl, rfl⟩
  · exact aerSet_samePort ..

theorem mem_aer_advise {s : State} {e : AerErr} (f : AerErr) (h : e ∈ s.port.aer) : e ∈ (s.advise f).port.aer := by
  unfold State.advise
  split
  · exact h
  · exact mem_aer_aerSet_of_mem _ h

theorem State.SamePort.trans {s t u : State} (h : s.SamePort t) (g : t.SamePort u) : s.SamePort u :=
  ⟨g.regs.trans h.regs, g.out.trans h.out⟩

/-- Logs the header of an error, where one of the 4 places is free. -/
def State.aerLog (s : State) (e : AerErr) : State :=
  if s.port.aerHeaders.length < 4 then
    { s with port := { s.port with aerHeaders := s.port.aerHeaders ++ [e],
                                   aerFirst := if s.port.aerFirst = none then some e else s.port.aerFirst } }
  else s.aerSet .headerLogOverflow

theorem aer_true (s : State) (e : AerErr) : s.aer e true =
    (if e = .poisonedTlp ∨ e = .completionTimeout ∨ e = .unexpectedCompletion then (s.aerSet e).advise e
      else s.aerSet e).aerLog e := rfl

theorem aerLog_effect {s : State} {e : AerErr} (h : e ∈ s.port.aer) : e ∈ (s.aerLog e).port.aer ∧ s.SamePort (s.aerLog e) := by
  unfold State.aerLog
  split
  · exact ⟨h, rfl, rfl⟩
  · exact ⟨mem_aer_aerSet_of_mem _ h, aerSet_samePort ..⟩

/-- An error that logs its header sets its status bit, and changes no register and nothing that goes out (R463, R464). -/
theorem aer_header (s : State) (e : AerErr) : e ∈ (s.aer e true).port.aer ∧ s.SamePort (s.aer e true) := by
  rw [aer_true]
  split
  · obtain ⟨hmem, hsame⟩ := aerLog_effect (mem_aer_advise e (mem_aer_aerSet s e))
    exact ⟨hmem, ((aerSet_samePort ..).trans (advise_samePort ..)).trans hsame⟩
  · obtain ⟨hmem, hsame⟩ := aerLog_effect (mem_aer_aerSet s e)
    exact ⟨hmem, (aerSet_samePort ..).trans hsame⟩

theorem refuseRead_effect (s : State) : s.refuseRead.out = s.out ++ [.barAbort] ∧
    AerErr.completerAbort ∈ s.refuseRead.port.aer ∧ s.refuseRead.regs = s.regs := by
  obtain ⟨hmem, hsame⟩ := aer_header s .completerAbort
  have hadv := hsame.trans (advise_samePort _ .completerAbort)
  exact ⟨congrArg (· ++ [Out.barAbort]) hadv.out, mem_aer_advise _ hmem, hadv.regs⟩

theorem unsupportedRead_effect (s : State) : s.unsupportedRead.out = s.out ++ [.barUnsupported] ∧
    AerErr.unsupportedRequest ∈ s.unsupportedRead.port.aer ∧ s.unsupportedRead.regs = s.regs := by
  obtain ⟨hmem, hsame⟩ := aer_header s .unsupportedRequest
  have hadv := hsame.trans (advise_samePort _ .unsupportedRequest)
  exact ⟨congrArg (· ++ [Out.barUnsupported]) hadv.out, mem_aer_advise _ hmem, hadv.regs⟩

theorem aer_write_effect (s : State) (e : AerErr) : e ∈ (s.aer e true).port.aer ∧ (s.aer e true).regs = s.regs :=
  ⟨(aer_header s e).1, (aer_header s e).2.regs⟩

/-! ### The pieces of a read (R461) -/

/-- The pieces lie one after the other from `a` on, cover `n` bytes, and none is longer than 512 B. -/
theorem readPieces_flatten {α : Type} (fuel a n off : Nat) (data : List α) (hfuel : n ≤ fuel) (ha : off ≤ a)
    (hn : n = (data.drop (a - off)).length) :
    ((readPieces fuel a n).map fun p => (data.drop (p.1 - off)).take p.2).flatten = data.drop (a - off) ∧
      ∀ p ∈ readPieces fuel a n, p.2 ≤ 512 := by
  induction fuel generalizing a n with
  | zero =>
    have hnil : data.drop (a - off) = [] := List.length_eq_zero_iff.1 (by omega)
    simp [readPieces, hnil]
  | succ fuel ih =>
    unfold readPieces
    by_cases hshort : n ≤ 512
    · rw [if_pos hshort]
      by_cases h0 : n = 0
      · have hnil : data.drop (a - off) = [] := List.length_eq_zero_iff.1 (by omega)
        simp [h0, hnil]
      · rw [if_neg h0]
        refine ⟨?_, List.forall_mem_singleton.2 hshort⟩
        rw [List.map_singleton, List.flatten_singleton, hn]
        exact List.take_of_length_le le_rfl
    · rw [if_neg hshort]
      generalize hk : (a + 512) / 64 * 64 - a = k
      have hsub : a + k - off = a - off + k := by omega
      have hrest : n - k = (data.drop (a + k - off)).length := by
        rw [hsub, ← List.drop_drop, List.length_drop, ← hn]
      obtain ⟨hflat, hle⟩ := ih (a + k) (n - k) (by omega) (by omega) hrest
      refine ⟨?_, List.forall_mem_cons.2 ⟨by dsimp only; omega, hle⟩⟩
      rw [List.map_cons, List.flatten_cons, hflat, hsub, ← List.drop_drop]
      exact List.take_append_drop ..

theorem readPieces_length_le {fuel a n : Nat} (h : n ≤ 512) : (readPieces fuel a n).length ≤ 1 := by
  cases fuel with
  | zero => simp [readPieces]
  | succ fuel =>
    rw [readPieces, if_pos h]
    split <;> simp

/-- The state with more that goes out. -/
def State.emits (s : State) (os : List Out) : State := { s with out := s.out ++ os }

theorem foldl_emit {α : Type} (f : α → Out) (l : List α) (s : State) :
    l.foldl (fun s a => s.emit (f a)) s = s.emits (l.map f) := by
  induction l generalizing s with
  | nil => simp [State.emits]
  | cons a l ih =>
    rw [List.foldl_cons, ih, List.map_cons, State.emits, State.emits, List.append_cons]
    rfl

theorem sendPieces_eq (s : State) (off : Nat) (data : PBytes) : s.sendPieces off data =
    s.emits ((readPieces data.length off data.length).map fun p =>
      .barData (bytesOf ((data.drop (p.1 - off)).take p.2)) (anyPoison ((data.drop (p.1 - off)).take p.2))) := foldl_emit _ _ _

theorem anyPoison_clean {bs : List Byte} (i n : Nat) : anyPoison (((bs.map fun b => (b, false)).drop i).take n) = false := by
  rw [← List.map_drop, ← List.map_take, anyPoison, List.any_map]
  exact List.any_eq_false.2 fun _ _ => Bool.false_ne_true

theorem bytesOf_clean (bs : List Byte) (i n : Nat) :
    bytesOf (((bs.map fun b => (b, false)).drop i).take n) = (bs.drop i).take n := by
  rw [bytesOf_drop_take]
  simp [bytesOf, Function.comp_def]

/-- A BAR read returns its bytes in pieces. -/
theorem sendPieces_sendsBar {s t u : State} (off : Nat) (bs : List Byte) (ht : t.out = s.out)
    (hu : u.out = (t.sendPieces off (bs.map fun b => (b, false))).out) : s.SendsBar u bs := by
  obtain ⟨hflat, hle⟩ := readPieces_flatten bs.length off bs.length off bs le_rfl le_rfl (by simp)
  refine ⟨(readPieces bs.length off bs.length).map fun p => (bs.drop (p.1 - off)).take p.2, ?_, ?_, fun h => ?_, ?_⟩
  · rw [hflat, Nat.sub_self, List.drop_zero]
  · intro b hb
    obtain ⟨p, hp, rfl⟩ := List.mem_map.1 hb
    exact (List.length_take_le ..).trans (hle p hp)
  · rw [List.length_map]
    exact readPieces_length_le h
  · rw [hu, sendPieces_eq]
    simp only [anyPoison_clean, bytesOf_clean, List.length_map, List.map_map, State.emits, ht]
    rfl

/-! ### Reads and writes of BAR0 (R9, R51) -/

theorem toLe_add (m n v : Nat) : toLe (m + n) v = toLe m v ++ toLe n (v / 256 ^ m) := by
  induction m generalizing v with
  | zero => simp [toLe]
  | succ m ih => simp [toLe, Nat.succ_add, ih, Nat.div_div_eq_div_mul, Nat.pow_succ']

theorem toLe_mod (n v : Nat) : toLe n (v % 256 ^ n) = toLe n v := by
  induction n generalizing v with
  | zero => rfl
  | succ n ih =>
    have hbyte : BitVec.ofNat 8 (v % 256 ^ (n + 1)) = BitVec.ofNat 8 v := by
      refine BitVec.eq_of_toNat_eq ?_
      rw [BitVec.toNat_ofNat, BitVec.toNat_ofNat, Nat.pow_succ', Nat.mod_mul_right_mod _ 256]
    rw [toLe, toLe, hbyte, Nat.pow_succ', Nat.mod_mul_right_div_self, ih]

theorem toLe_pair (a b : Reg) : toLe 8 (a.toNat + b.toNat * 2 ^ 32) = toLe 4 a.toNat ++ toLe 4 b.toNat := by
  have ha : a.toNat < 256 ^ 4 := a.isLt
  have hdiv : (a.toNat + b.toNat * 2 ^ 32) / 256 ^ 4 = b.toNat := by omega
  have hmod : (a.toNat + b.toNat * 2 ^ 32) % 256 ^ 4 = a.toNat := by omega
  rw [toLe_add 4 4, hdiv, ← toLe_mod 4 (a.toNat + _), hmod]

theorem regAccessOk_iff (off size : Nat) : regAccessOk off size = true ↔ (size = 4 ∨ size = 8) ∧ off % size = 0 := by
  simp [regAccessOk]

section
variable {s : State} (hl : s.Live)
include hl

theorem readReg_plain {off : Nat} (h : isTckPair off = false) : s.readReg off = (s, s.regRead off) := by
  have hhi : isTckHi off = false := by rw [isTckHi, h, Bool.false_and]
  simp only [State.readReg, hhi, h]
  rw [if_neg (by simp [hl])]
  rfl

theorem readReg_lo {off : Nat} (h : isTckPair off = true) (h8 : off % 8 = 0) : s.readReg off =
    ({ s with ww := { s.ww with capture := sput off (BitVec.ofNat 32 (half (s.tckPair off) 1)) s.ww.capture } },
      s.regRead off) := by
  have hhi : isTckHi off = false := by
    rw [isTckHi, decide_eq_false (by omega), Bool.and_false]
  simp only [State.readReg, hhi, h]
  rw [if_neg (by simp [hl])]
  rfl

theorem readReg_hi {off : Nat} (h : isTckPair off = true) (h8 : off % 8 = 0) {hi : Reg}
    (hcap : sfind? s.ww.capture off = some hi) : s.readReg (off + 4) =
      ({ s with ww := { s.ww with capture := sdel off s.ww.capture } }, hi) := by
  have hrange : 0x1008 ≤ off ∧ off < 0x1028 := by simpa [isTckPair] using h
  have hhi : isTckHi (off + 4) = true := by
    simp only [isTckHi, isTckPair, Bool.and_eq_true, decide_eq_true_eq]
    omega
  simp only [State.readReg, hhi, Nat.add_sub_cancel, hcap]
  rw [if_neg (by simp [hl])]
  rfl

/-- What a read of a LO register captures is what its HI register shows. -/
theorem regRead_hi {off : Nat} (h : isTckPair off = true) (h8 : off % 8 = 0) :
    s.regRead (off + 4) = BitVec.ofNat 32 (half (s.tckPair off) 1) := by
  have hrange : 0x1008 ≤ off ∧ off < 0x1028 := by simpa [isTckPair] using h
  have hdef : (regDef s.fuses (off + 4)).isSome = true := by
    obtain rfl | rfl | rfl | rfl : off = 0x1008 ∨ off = 0x1010 ∨ off = 0x1018 ∨ off = 0x1020 := by omega
    all_goals rfl
  have hpair : isTckPair (off + 4) = true := by
    simp only [isTckPair, Bool.and_eq_true, decide_eq_true_eq]
    omega
  have hstat : off + 4 ≠ TCK_STAT := by
    simp only [TCK_STAT]
    omega
  rw [State.regRead, if_neg (by simp [hl]), if_pos hdef, State.view, if_neg (by omega), if_pos (by omega), State.tckView,
    if_neg hstat, if_pos hpair, show (off + 4) / 8 * 8 = off by omega, show (off + 4) / 4 % 2 = 1 by omega]

theorem bar0Read_ok {off size : Nat} (hclosed : s.port.barClosed = false) (hok : regAccessOk off size = true) :
    exec (.tckLoRead ⟨.bar0, off, size⟩) s =
      done s ((s.regRead64 off size).1.emit (.barData (toLe size (s.regRead64 off size).2) false)) := by
  refine congrArg (done s) ?_
  dsimp only
  rw [State.barRead, if_neg (by simp [hl]), if_neg (by simp [hclosed]), State.bar0Read, hok]
  rfl

theorem bar0Write_ok {off size : Nat} (v : Word) (hclosed : s.port.barClosed = false) (hok : regAccessOk off size = true) :
    exec (.registerWrite ⟨.bar0, off⟩ size v) s = .next ((s.regWrite64 off size v).seal s) := by
  refine (doneLive_of_live hl (s.barWrite off size v)).trans ?_
  rw [State.barWrite, if_neg (by simp [hclosed]), hok]
  rfl

end

/-- GLB_SCRATCH takes what software writes (R17). -/
theorem regWrite_scratch (s : State) (v : Reg) : s.regWrite GLB_SCRATCH v = s.setReg GLB_SCRATCH v := by
  have hdef : regDef s.fuses GLB_SCRATCH = some { rw := 0xFFFFFFFF, warm := 0xFFFFFFFF } := rfl
  have hval : ∀ quiet, writeReg { rw := 0xFFFFFFFF, warm := 0xFFFFFFFF } quiet (s.reg GLB_SCRATCH) v = v := fun quiet => by
    have hones : v &&& BitVec.ofNat 32 0xFFFFFFFF = v := BitVec.and_allOnes
    cases quiet <;> simp [writeReg, hones]
  change s.swWrite GLB_SCRATCH v = _
  simp only [State.swWrite, hdef, hval, bne_self_eq_false, Bool.and_false, Bool.false_eq_true, if_false]

theorem bitOf_eq_testBit (n i : Nat) : bitOf n i = n.testBit i := by
  rw [Nat.testBit_eq_decide_div_mod_eq]
  rfl

theorem cfgCommand_same {s : State} {n : Nat} (h : bitOf n 2 = s.port.busMaster) : s.cfgCommand n =
    { s with port := { s.port with memSpace := bitOf n 1, per := bitOf n 6, serr := bitOf n 8 } } := if_pos h

/-- What a 32-bit write of the Command register's dword leaves there, when Bus Master Enable stays. -/
theorem cfgWrite_command (s : State) {v : Word} (hv : v.getLsbD 2 = s.port.busMaster) : s.cfgWrite 4 4 v =
    { s with port := { s.port with memSpace := v.getLsbD 1, per := v.getLsbD 6, serr := v.getLsbD 8 } } := by
  have hword : ∃ n, s.cfgWrite 4 4 v = s.cfgCommand n ∧ ∀ i < 32, bitOf n i = v.getLsbD i := by
    refine ⟨((s.cfgRead 4).toNat &&& 0) ||| (v.toNat * 1 &&& (2 ^ 32 - 1)), rfl, fun i hi => ?_⟩
    rw [Nat.and_zero, Nat.zero_or, Nat.mul_one, Nat.and_two_pow_sub_one_eq_mod, bitOf_eq_testBit, Nat.testBit_mod_two_pow,
      decide_eq_true hi, Bool.true_and]
    rfl
  obtain ⟨n, hn, hbit⟩ := hword
  rw [hn, cfgCommand_same ((hbit 2 (by decide)).trans hv), hbit 1 (by decide), hbit 6 (by decide), hbit 8 (by decide)]

end Sys2Proof.Machine

/-- Settles O37: each access is read off from its branch of R460 to R462, a TCK pair from R51. -/
theorem hostRegisterAccesses : Obligations.HostRegisterAccesses := by
  refine fun s => ⟨fun off size => completes_done rfl ⟨rfl, rfl, rfl⟩, fun v hv => ?_, fun hsafe off size v => ⟨fun sp hsp => ?_,
    doneLive_of_safe hsafe _, doneLive_of_safe hsafe _⟩, fun hl hclosed sp off size v hsp => ?_, fun hl hclosed off => ?_⟩
  · refine completes_done (t := s.cfgWrite 4 4 v) rfl ?_
    rw [cfgWrite_command s hv]
    exact ⟨rfl, hv.symm, rfl, rfl, rfl⟩
  · have hread : exec (.tckLoRead ⟨sp, off, size⟩) s = done s (s.sendPieces off (List.replicate size (0xFF, false))) := by
      cases sp with
      | bar0 => exact congrArg (done s) (if_pos hsafe)
      | bar2 => exact congrArg (done s) (if_pos hsafe)
      | config => exact absurd rfl hsp
    have hmap : List.replicate size ((0xFF : Byte), false) = (List.replicate size 0xFF).map fun b => (b, false) := by simp
    refine completes_done hread ⟨sendPieces_sendsBar off _ rfl (by rw [hmap]; rfl), ?_⟩
    rw [sendPieces_eq]
    rfl
  · have hread : exec (.tckLoRead ⟨sp, off, size⟩) s = done s s.unsupportedRead ∧
        exec (.registerWrite ⟨sp, off⟩ size v) s = doneLive s (s.aer .unsupportedRequest true) := by
      have hsafe : ¬s.boot.safe = true := by simp [hl]
      cases sp with
      | bar0 => exact ⟨congrArg (done s) ((if_neg hsafe).trans (if_pos hclosed)), congrArg (doneLive s) (if_pos hclosed)⟩
      | bar2 => exact ⟨congrArg (done s) ((if_neg hsafe).trans (if_pos hclosed)), congrArg (doneLive s) (if_pos hclosed)⟩
      | config => exact absurd rfl hsp
    exact ⟨completes_done hread.1 (unsupportedRead_effect s), completes_live hl hread.2 (aer_write_effect ..)⟩
  · refine ⟨fun size v hbad => ?_, fun h8 => ?_, fun h4 hpair => ?_, fun hpair h8 => ?_, fun hi hpair h8 hcap => ?_, fun size => ?_,
      fun size v => ?_, fun v => ?_, fun h8 v => bar0Write_ok hl v hclosed ((regAccessOk_iff ..).2 ⟨.inr rfl, h8⟩),
      fun h4 v => bar0Write_ok hl v hclosed ((regAccessOk_iff ..).2 ⟨.inl rfl, h4⟩)⟩
    · have hno : (!regAccessOk off size) = true := by
        rw [Bool.not_eq_true', ← Bool.not_eq_true, regAccessOk_iff]
        exact hbad
      have hsafe : ¬s.boot.safe = true := by simp [hl]
      have hopen : ¬s.port.barClosed = true := by simp [hclosed]
      exact ⟨completes_done (congrArg (done s) ((if_neg hsafe).trans ((if_neg hopen).trans (if_pos hno)))) (refuseRead_effect s),
        completes_live hl (congrArg (doneLive s) ((if_neg hopen).trans (if_pos hno))) (aer_write_effect ..)⟩
    · rw [bar0Read_ok hl hclosed ((regAccessOk_iff ..).2 ⟨.inr rfl, h8⟩), ← toLe_pair]
      rfl
    · rw [bar0Read_ok hl hclosed ((regAccessOk_iff ..).2 ⟨.inl rfl, h4⟩), State.regRead64, if_neg (by decide),
        readReg_plain hl hpair]
      rfl
    · refine completes_done (bar0Read_ok hl hclosed ((regAccessOk_iff ..).2 ⟨.inl rfl, by omega⟩)) ?_
      rw [State.regRead64, if_neg (by decide), readReg_lo hl hpair h8, regRead_hi hl hpair h8]
      exact ⟨rfl, (sfind_sput ..).trans (if_pos rfl)⟩
    · refine completes_done (bar0Read_ok hl hclosed ((regAccessOk_iff ..).2 ⟨.inl rfl, by omega⟩)) ?_
      rw [State.regRead64, if_neg (by decide), readReg_hi hl hpair h8 hcap]
      exact ⟨rfl, (sfind_sdel ..).trans (if_pos rfl)⟩
    · have hread : exec (.tckLoRead ⟨.bar2, off, size⟩) s = done s (s.sendPieces off (s.bar2Bytes off size)) :=
        congrArg (done s) ((if_neg (by simp [hl])).trans (if_neg (by simp [hclosed])))
      refine completes_done hread ⟨sendPieces_sendsBar off _ rfl rfl, ?_⟩
      rw [sendPieces_eq]
      rfl
    · exact (doneLive_of_live hl s.bar2Write).trans (by rw [State.bar2Write, if_neg (by simp [hclosed])])
    · have hwrite : s.regWrite64 GLB_SCRATCH 4 v = s.setReg GLB_SCRATCH (v.setWidth 32) := regWrite_scratch ..
      refine ⟨_, bar0Write_ok hl v hclosed rfl, ?_⟩
      rw [hwrite]
      refine ⟨?_, fun o ho => ?_, rfl, rfl⟩
      · rw [seal_reg (by rfl), State.reg_setReg_self]
      · rw [seal_reg (by rfl), State.reg_setReg, if_neg (Ne.symm ho)]
end

section
/-! Service of tiles: the end of an overrun, zeroing, substitution and re-grading (R81, R89, R203, R646, R649, R650). -/

open Sys2Proof Sys2Proof.Machine

namespace Sys2Proof.Machine

/-! ### Register writes of software (R19) -/

theorem getLsbD_ofNat32 (n : Nat) {i : Nat} (h : i < 32) : (BitVec.ofNat 32 n).getLsbD i = n.testBit i := by
  rw [BitVec.getLsbD_ofNat, decide_eq_true h, Bool.true_and]

/-- A writable bit of a register whose unit is quiet, and a bit that software sets by a 1. -/
theorem getLsbD_writeReg {d : RegDef} {old v : Reg} (hlock : (d.goLock && old.getLsbD 31) = false) {i : Nat} (hi : i < 32) :
    (writeReg d true old v).getLsbD i =
      ((if d.rw.testBit i || d.rwq.testBit i then v.getLsbD i else old.getLsbD i) && !(v.getLsbD i && d.w1c.testBit i) ||
        (v.getLsbD i && d.w1s.testBit i)) := by
  have hrange : ∀ a b : Bool, (decide (i < 32) && !(a && b)) = !(a && b) := fun a b => by simp [hi]
  simp only [writeReg, hlock, Bool.false_eq_true, if_false, if_true, BitVec.getLsbD_or, BitVec.getLsbD_and, BitVec.getLsbD_not,
    getLsbD_ofNat32 _ hi]
  cases d.rw.testBit i <;> cases d.rwq.testBit i <;> simp [hi]

/-- A write of a register whose fields are writable now. -/
theorem swWrite_quiet {s : State} {off : Nat} {d : RegDef} (hdef : regDef s.fuses off = some d)
    (hq : s.quietNow off d.quiet = true) (v : Reg) : s.swWrite off v = s.setReg off (writeReg d true (s.reg off) v) := by
  simp only [State.swWrite, hdef, hq, Bool.not_true, Bool.false_and, Bool.false_eq_true, if_false]

/-! ### Requests with GO (R649, R650) -/

/-- The register of a request that was written with GO. -/
def goReg (d : RegDef) (old v : Reg) : Reg := writeReg d true old (putBits v 31 31 1)

theorem goReg_go {d : RegDef} {old v : Reg} (hlock : (d.goLock && old.getLsbD 31) = false) (hset : d.w1s.testBit 31 = true) :
    (goReg d old v).getLsbD 31 = true := by
  have hgo : (putBits v 31 31 1).getLsbD 31 = true := by
    rw [getLsbD_putBits _ _ (by decide), if_pos (by decide)]
    rfl
  rw [goReg, getLsbD_writeReg hlock (by decide), hgo, hset, Bool.and_self, Bool.or_true]

theorem goReg_field {d : RegDef} {old v : Reg} (hlock : (d.goLock && old.getLsbD 31) = false) {hi lo : Nat} (hhi : hi < 31)
    (hrw : ∀ i ≤ hi, lo ≤ i → d.rw.testBit i = true ∧ d.w1c.testBit i = false ∧ d.w1s.testBit i = false) :
    bitsOf (goReg d old v).toNat hi lo = bitsOf v.toNat hi lo := by
  refine Nat.eq_of_testBit_eq fun k => ?_
  rw [testBit_bitsOf, testBit_bitsOf]
  by_cases hk : k < hi + 1 - lo
  · obtain ⟨h1, h2, h3⟩ := hrw (k + lo) (by omega) (by omega)
    have hbit : (goReg d old v).getLsbD (k + lo) = v.getLsbD (k + lo) := by
      have hput : (putBits v 31 31 1).getLsbD (k + lo) = v.getLsbD (k + lo) := by
        rw [getLsbD_putBits _ _ (by omega), if_neg (by omega)]
      rw [goReg, getLsbD_writeReg hlock (by omega), h1, h2, h3, hput]
      simp
    exact congrArg _ hbit
  · simp [hk]

theorem fusEnd_bit (s : State) (off code : Nat) : (s.fusEnd off code).bit off 31 = false := bit_setBit_self _ _ _ (by decide)

theorem fusEnd_fld (s : State) (off : Nat) {code : Nat} (h : code < 8) : (s.fusEnd off code).fld off 30 28 = code := by
  have hold := fld_setFld_self s off (hi := 30) (lo := 28) code (by decide)
  rw [Nat.mod_eq_of_lt (by omega)] at hold
  refine Nat.eq_of_testBit_eq fun k => ?_
  rw [← congrArg (Nat.testBit · k) hold, fld_testBit, fld_testBit]
  by_cases hk : k < 3
  · rw [State.fusEnd, bit_setBit _ _ _ _ (by omega), if_neg (by omega)]
  · simp [hk]

theorem regradeEnd_kept (s : State) (t code : Nat) : s.Kept (s.regradeEnd t code) := by
  unfold State.regradeEnd State.fusEnd
  exact State.Kept.cond ((setReg_kept ..).trans (setBit_kept ..)) (State.Kept.self s)

/-! ### The end of an overrun (R203) -/

/-- What is in flight of a tile is abandoned. -/
def State.drained (s : State) (t : Nat) : State := (s.dropTickets t).modTile t fun x => { x with barges := [], accs := [] }

/-- Nothing of a tile is in flight. -/
def State.NoneInFlight (s : State) (t : Nat) : Prop :=
  (s.tile t).barges = [] ∧ (s.tile t).accs = [] ∧ ∀ n ∈ s.tickets, n.2.1 ≠ t

theorem drained_tile (s : State) (t j : Nat) :
    (s.drained t).tile j = if t = j then { s.tile t with barges := [], accs := [] } else s.tile j := State.tile_setTile ..

theorem noneInFlight_drained (s : State) (t : Nat) : (s.drained t).NoneInFlight t := by
  refine ⟨?_, ?_, fun n hn => ?_⟩
  · rw [drained_tile, if_pos rfl]
  · rw [drained_tile, if_pos rfl]
  · simpa using (List.mem_filter.1 hn).2

theorem State.NoneInFlight.drained {s : State} {j : Nat} (h : s.NoneInFlight j) (t : Nat) : (s.drained t).NoneInFlight j := by
  obtain ⟨hbarges, haccs, htickets⟩ := h
  refine ⟨?_, ?_, fun n hn => htickets n (List.mem_filter.1 hn).1⟩
  · rw [drained_tile]
    split
    · rfl
    · exact hbarges
  · rw [drained_tile]
    split
    · rfl
    · exact haccs

/-- All tiles of a list are drained; flights, waits and memory stand. -/
theorem foldl_drained (l : List (Nat × Nat)) (s : State) : ∀ u, u = l.foldl (fun s e => s.drained e.1) s →
    (∀ e ∈ l, u.NoneInFlight e.1) ∧ (∀ j, s.NoneInFlight j → u.NoneInFlight j) ∧
      u.flights = s.flights ∧ u.waits = s.waits ∧ u.hdm = s.hdm ∧ u.fuses = s.fuses := by
  induction l generalizing s with
  | nil => rintro u rfl; simp
  | cons a l ih =>
    rintro u hu
    obtain ⟨hall, hkeep, hrest⟩ := ih (s.drained a.1) u hu
    exact ⟨List.forall_mem_cons.2 ⟨hkeep _ (noneInFlight_drained ..), hall⟩, fun j hj => hkeep j (hj.drained a.1), hrest⟩

/-- With no wait for a translation, there is none to settle. -/
theorem settleXlt_idle {s : State} (h : ∀ w ∈ s.waits, ∀ p c va n, w.kind ≠ .xlt p c va n) : s.settleXlt = s := by
  have hfold : ∀ l : List Wait, (∀ w ∈ l, ∀ p c va n, w.kind ≠ .xlt p c va n) → ∀ u : State, l.foldl (fun s w =>
      match w.kind with
      | .xlt p ctx va n => if s.xltFree p ctx va n then (s.unpost ctx va n).finish w {} else s
      | _ => s) u = u := fun l => by
    induction l with
    | nil => exact fun _ _ => rfl
    | cons w l ih =>
      intro hl u
      rw [List.foldl_cons]
      split
      next heq => exact absurd heq (hl w (List.mem_cons_self ..) _ _ _ _)
      next => exact ih (fun w hw => hl w (List.mem_cons_of_mem _ hw)) u
  exact hfold s.waits h s

/-- What follows once nothing of an overrun flight is in flight. -/
def State.afterOverrun (s : State) (k : Nat) : State :=
  let f := s.flight k
  let t := (s.setFlight k { f with overrun := false, curXlt := [], restoreDue := none }).settleXlt
  if f.leaveDue then (if t.ww.joined then t else t.dropFlight k)
  else if f.needRestore then t.beginRestore k
  else
    match f.restoreDue with
    | some r => t.startRestore k r false
    | none => t

theorem doOverrunDrain_eq {s : State} {k : Nat} (h : (s.flight k).overrun = true) :
    s.doOverrunDrain k = ((s.tilesOf k).foldl (fun s e => s.drained e.1) s).afterOverrun k := if_pos h

theorem afterOverrun_plain {s : State} {k : Nat} (hrestore : (s.flight k).needRestore = false)
    (hleave : (s.flight k).leaveDue = false) (hdue : (s.flight k).restoreDue = none)
    (hwaits : ∀ w ∈ s.waits, ∀ p c va n, w.kind ≠ .xlt p c va n) :
    s.afterOverrun k = s.setFlight k { s.flight k with overrun := false, curXlt := [], restoreDue := none } := by
  simp only [State.afterOverrun, hrestore, hleave, hdue, Bool.false_eq_true, if_false]
  exact settleXlt_idle hwaits

/-! ### Substitution and re-grading -/

theorem setReach_bit (s : State) (p : Nat) (r : Reach) (o i : Nat) : (s.setReach p r).bit o i = s.bit o i := rfl
theorem reach_modTile (s : State) (t : Nat) (f : Tile → Tile) (p : Nat) : (s.modTile t f).reach p = s.reach p := rfl

theorem regrade_request {s : State} (v : Reg) : s.swWrite FUS_REGRADE (putBits v 31 31 1) =
    s.setReg FUS_REGRADE (goReg { rw := 0x1FF, w1s := 0x80000000, goLock := true } (s.reg FUS_REGRADE) v) :=
  swWrite_quiet rfl rfl _

theorem subst_request {s : State} (v : Reg) : s.swWrite FUS_SUBST (putBits v 31 31 1) =
    s.setReg FUS_SUBST (goReg { rw := 0xFF, w1s := 0x80000000, goLock := true } (s.reg FUS_SUBST) v) :=
  swWrite_quiet rfl rfl _

/-- The state with a request of FUS_REGRADE under way. -/
def State.regrading (s : State) (v : Reg) : State :=
  s.setReg FUS_REGRADE (goReg { rw := 0x1FF, w1s := 0x80000000, goLock := true } (s.reg FUS_REGRADE) v)

/-- The state with a request of FUS_SUBST under way. -/
def State.substituting (s : State) (v : Reg) : State :=
  s.setReg FUS_SUBST (goReg { rw := 0xFF, w1s := 0x80000000, goLock := true } (s.reg FUS_SUBST) v)

section
variable {s : State} {v : Reg}

theorem regrading_bit (h : s.bit FUS_REGRADE 31 = false) : (s.regrading v).bit FUS_REGRADE 31 = true := by
  rw [State.bit, State.regrading, State.reg_setReg_self]
  exact goReg_go (by rw [Bool.true_and]; exact h) rfl

theorem regrading_fld (h : s.bit FUS_REGRADE 31 = false) : (s.regrading v).fld FUS_REGRADE 8 0 = v.toNat % 512 := by
  rw [State.fld, State.regrading, State.reg_setReg_self]
  refine (goReg_field (by rw [Bool.true_and]; exact h) (by decide) (by decide)).trans ?_
  simp [bitsOf]

theorem substituting_bit (h : s.bit FUS_SUBST 31 = false) : (s.substituting v).bit FUS_SUBST 31 = true := by
  rw [State.bit, State.substituting, State.reg_setReg_self]
  exact goReg_go (by rw [Bool.true_and]; exact h) rfl

theorem substituting_fld (h : s.bit FUS_SUBST 31 = false) : (s.substituting v).fld FUS_SUBST 7 0 = v.toNat % 256 := by
  rw [State.fld, State.substituting, State.reg_setReg_self]
  refine (goReg_field (by rw [Bool.true_and]; exact h) (by decide) (by decide)).trans ?_
  simp [bitsOf]

/-- What a request to re-grade does, by the tile's state and the reach's spare (R649). -/
def State.regradeOf (s : State) (t : Nat) : State :=
  let p := t / 17
  let x := s.tile t
  if !((x.st == .spare) || (x.st == .free && x.flight.isNone) || (x.st == .bound && !x.zeroing)) then
    s.fusEnd FUS_REGRADE RG_STATE
  else
    match s.spareIdle p with
    | none => s.fusEnd FUS_REGRADE RG_NO_SPARE
    | some _ =>
      if x.st = .bound then
        s.setReach p { s.reach p with subst := ((s.reach p).posOf (t % 17)).map fun n => (n, false), regradeAfter := true }
      else s.setReach p { s.reach p with regradeWait := some (t % 17) }

theorem doRegrade_eq (h : s.bit FUS_REGRADE 31 = false) : s.doRegrade v = (s.regrading v).regradeOf (v.toNat % 512) := by
  have hno : ¬s.bit FUS_REGRADE 31 = true := by simp [h]
  rw [State.doRegrade, if_neg hno, regrade_request, ← State.regrading]
  simp only [regrading_fld h]
  rfl

theorem doRegrade_spare (h : s.bit FUS_REGRADE 31 = false) (hst : (s.tile (v.toNat % 512)).st = .spare)
    (hspare : (s.spareIdle (v.toNat % 512 / 17)).isSome = true) : s.doRegrade v = (s.regrading v).setReach (v.toNat % 512 / 17)
      { s.reach (v.toNat % 512 / 17) with regradeWait := some (v.toNat % 512 % 17) } := by
  obtain ⟨q, hq⟩ := Option.isSome_iff_exists.1 hspare
  have hst' : ((s.regrading v).tile (v.toNat % 512)).st = .spare := hst
  have hq' : (s.regrading v).spareIdle (v.toNat % 512 / 17) = some q := hq
  rw [doRegrade_eq h]
  simp only [State.regradeOf, hst', hq']
  rfl

theorem doRegrade_bound (h : s.bit FUS_REGRADE 31 = false) (hst : (s.tile (v.toNat % 512)).st = .bound)
    (hz : (s.tile (v.toNat % 512)).zeroing = false) (hspare : (s.spareIdle (v.toNat % 512 / 17)).isSome = true) :
    s.doRegrade v = (s.regrading v).setReach (v.toNat % 512 / 17) { s.reach (v.toNat % 512 / 17) with
      subst := ((s.reach (v.toNat % 512 / 17)).posOf (v.toNat % 512 % 17)).map fun n => (n, false), regradeAfter := true } := by
  obtain ⟨q, hq⟩ := Option.isSome_iff_exists.1 hspare
  have hst' : ((s.regrading v).tile (v.toNat % 512)).st = .bound := hst
  have hz' : ((s.regrading v).tile (v.toNat % 512)).zeroing = false := hz
  have hq' : (s.regrading v).spareIdle (v.toNat % 512 / 17) = some q := hq
  rw [doRegrade_eq h]
  simp only [State.regradeOf, hst', hz', hq']
  rfl

theorem doRegrade_retired (h : s.bit FUS_REGRADE 31 = false) (hst : (s.tile (v.toNat % 512)).st = .retired) :
    s.doRegrade v = (s.regrading v).fusEnd FUS_REGRADE RG_STATE := by
  have hst' : ((s.regrading v).tile (v.toNat % 512)).st = .retired := hst
  rw [doRegrade_eq h]
  simp only [State.regradeOf, hst']
  rfl

/-- What a request to substitute does for a bound tile, by the reach's spare (R650). -/
theorem doSubst_bound {t : Nat} (h : s.bit FUS_SUBST 31 = false) (ht : s.physTile (v.toNat % 256) = some t)
    (hst : (s.tile t).st = .bound) (hz : (s.tile t).zeroing = false) :
    s.doSubst v = if (s.spareIdle (t / 17)).isNone then (s.substituting v).fusEnd FUS_SUBST RG_NO_SPARE
      else (s.substituting v).setReach (t / 17)
        { s.reach (t / 17) with subst := ((s.reach (t / 17)).posOf (t % 17)).map fun x => (x, false) } := by
  have hno : ¬s.bit FUS_SUBST 31 = true := by simp [h]
  have ht' : (s.substituting v).physTile (v.toNat % 256) = some t := ht
  have hst' : ((s.substituting v).tile t).st = .bound := hst
  have hz' : ((s.substituting v).tile t).zeroing = false := hz
  rw [State.doSubst, if_neg hno, subst_request, ← State.substituting]
  simp only [substituting_fld h, ht', hst', hz']
  rfl

end

/-- A tile that ends its test is the spare with its new grade, or retires (R646, R649). -/
theorem doRegradeDone_eq {s : State} {p q : Nat} (passed : Nat) (h : (s.reach p).regrade = some q) :
    s.doRegradeDone p passed =
      if min (sget 132 s.fuses.grades (17 * p + q)) passed - 2 < 40 then
        (((s.setReach p { s.reach p with regrade := none }).modTile (17 * p + q) fun x => { x with st := .retired }).fault
          (msgOf K_TILE_GRADE 1 (17 * p + q))).regradeEnd (17 * p + q) RG_RETIRED
      else
        ((s.setReach p { s.reach p with regrade := none }).modTile (17 * p + q) fun x =>
          { x with st := .spare, service := min (sget 132 s.fuses.grades (17 * p + q)) passed - 2,
                   clk := min x.clk (min (sget 132 s.fuses.grades (17 * p + q)) passed - 2) }).regradeEnd (17 * p + q) RG_OK := by
  rw [State.doRegradeDone, h]
  rfl

section
variable {s : State} (hl : s.Live)
include hl

theorem overrunDrainDone_completes {k : Nat} (hover : (s.flight k).overrun = true)
    (hrestore : (s.flight k).needRestore = false) (hleave : (s.flight k).leaveDue = false) (hdue : (s.flight k).restoreDue = none)
    (hwaits : ∀ w ∈ s.waits, ∀ p c va n, w.kind ≠ .xlt p c va n) : Completes (.overrunDrainDone k) s fun u =>
      (u.flight k).overrun = false ∧ (∀ e ∈ s.tilesOf k, u.NoneInFlight e.1) ∧ (∀ j, j ≠ k → u.flight j = s.flight j) ∧
        u.hdm = s.hdm := by
  obtain ⟨hall, -, hflights, hw, hhdm, hfuses⟩ := foldl_drained (s.tilesOf k) s _ rfl
  generalize hu : (s.tilesOf k).foldl (fun s e => s.drained e.1) s = u at *
  have hflight : ∀ j, u.flight j = s.flight j := fun j => by rw [State.flight, hflights, State.flight]
  have hdo : s.doOverrunDrain k = u.setFlight k { s.flight k with overrun := false, curXlt := [], restoreDue := none } := by
    rw [doOverrunDrain_eq hover, hu, afterOverrun_plain, hflight]
    all_goals simpa only [hflight, hw]
  refine completes_live hl rfl ?_
  rw [hdo]
  refine ⟨?_, fun e he => ?_, fun j hj => ?_, hhdm⟩
  · rw [seal_flight, State.flight_setFlight_self]
  · obtain ⟨hbarges, haccs, htickets⟩ := hall e he
    rw [State.NoneInFlight, seal_tile (by exact hfuses)]
    exact ⟨hbarges, haccs, htickets⟩
  · rw [seal_flight, State.flight_setFlight, if_neg (Ne.symm hj), hflight]

theorem tileZeroingDone_completes {t : Nat} (hz : (s.tile t).zeroing = true) : Completes (.tileZeroingDone t) s fun u =>
    u.tile t = (s.tile t).zeroed ∧ ∀ j, j ≠ t → u.tile j = s.tile j := by
  have hdo : s.doZeroingDone t = s.modTile t Tile.zeroed := if_pos hz
  refine completes_live hl rfl ?_
  rw [hdo]
  refine ⟨?_, fun j hj => ?_⟩
  · rw [seal_tile (by rfl), State.modTile, State.tile_setTile_self]
  · rw [seal_tile (by rfl), State.modTile, State.tile_setTile, if_neg (Ne.symm hj)]

omit hl in
/-- The tile and the reach after a test, whatever it left in the tile. -/
theorem regraded_reads {p t code : Nat} {f : Tile → Tile} {u : State}
    (hkept : State.Kept ((s.setReach p { s.reach p with regrade := none }).modTile t f) u) :
    ((u.regradeEnd t code).seal s).tile t = f (s.tile t) ∧ (((u.regradeEnd t code).seal s).reach p).regrade = none ∧
      ∀ j, j ≠ t → ((u.regradeEnd t code).seal s).tile j = s.tile j := by
  have hall := hkept.trans (regradeEnd_kept u t code)
  have hfuses : (u.regradeEnd t code).fuses = s.fuses := hall.fuses
  refine ⟨?_, ?_, fun j hj => ?_⟩
  · rw [seal_tile hfuses, hall.tile, State.modTile, State.tile_setTile_self]
    rfl
  · rw [seal_reach hfuses, State.reach, hall.reaches, hall.fuses]
    refine congrArg Reach.regrade (reach_modTile .. |>.trans (State.reach_setReach_self s p { s.reach p with regrade := none }))
  · rw [seal_tile hfuses, hall.tile, State.modTile, State.tile_setTile, if_neg (Ne.symm hj)]
    rfl

theorem tileRegrade_spare {v : Reg} (h : s.bit FUS_REGRADE 31 = false) (hst : (s.tile (v.toNat % 512)).st = .spare)
    (hspare : (s.spareIdle (v.toNat % 512 / 17)).isSome = true) : Completes (.tileRegrade v) s fun u =>
      (u.reach (v.toNat % 512 / 17)).regradeWait = some (v.toNat % 512 % 17) ∧ u.bit FUS_REGRADE 31 = true ∧
        u.tiles = s.tiles := by
  refine completes_live hl rfl ?_
  rw [doRegrade_spare h hst hspare]
  refine ⟨?_, ?_, rfl⟩
  · rw [seal_reach (by rfl), State.reach_setReach_self]
  · rw [seal_bit (by rfl), setReach_bit, regrading_bit h]

theorem tileRegrade_bound {v : Reg} (h : s.bit FUS_REGRADE 31 = false) (hst : (s.tile (v.toNat % 512)).st = .bound)
    (hz : (s.tile (v.toNat % 512)).zeroing = false) (hspare : (s.spareIdle (v.toNat % 512 / 17)).isSome = true) :
    Completes (.tileRegrade v) s fun u =>
      (u.reach (v.toNat % 512 / 17)).subst =
        ((s.reach (v.toNat % 512 / 17)).posOf (v.toNat % 512 % 17)).map (fun n => (n, false)) ∧
      (u.reach (v.toNat % 512 / 17)).regradeAfter = true ∧ u.bit FUS_REGRADE 31 = true ∧ u.tiles = s.tiles := by
  refine completes_live hl rfl ?_
  rw [doRegrade_bound h hst hz hspare]
  refine ⟨?_, ?_, ?_, rfl⟩
  · rw [seal_reach (by rfl), State.reach_setReach_self]
  · rw [seal_reach (by rfl), State.reach_setReach_self]
  · rw [seal_bit (by rfl), setReach_bit, regrading_bit h]

theorem tileRegrade_retired {v : Reg} (h : s.bit FUS_REGRADE 31 = false) (hst : (s.tile (v.toNat % 512)).st = .retired) :
    Completes (.tileRegrade v) s fun u => u.bit FUS_REGRADE 31 = false ∧ u.fld FUS_REGRADE 30 28 = 2 ∧
      u.tiles = s.tiles ∧ u.reaches = s.reaches := by
  refine completes_live hl rfl ?_
  rw [doRegrade_retired h hst]
  refine ⟨?_, ?_, rfl, rfl⟩
  · rw [seal_bit (by rfl), fusEnd_bit]
  · exact (seal_fld (by rfl) ..).trans (fusEnd_fld _ _ (by decide))

theorem spareSubstitution_takes {v : Reg} {t : Nat} (h : s.bit FUS_SUBST 31 = false) (ht : s.physTile (v.toNat % 256) = some t)
    (hst : (s.tile t).st = .bound) (hz : (s.tile t).zeroing = false) (hspare : (s.spareIdle (t / 17)).isSome = true) :
    Completes (.spareSubstitution v) s fun u =>
      (u.reach (t / 17)).subst = ((s.reach (t / 17)).posOf (t % 17)).map (fun n => (n, false)) ∧
        u.bit FUS_SUBST 31 = true ∧ u.tiles = s.tiles := by
  refine completes_live hl rfl ?_
  rw [doSubst_bound h ht hst hz, if_neg (by simpa using Option.isSome_iff_ne_none.1 hspare)]
  refine ⟨?_, ?_, rfl⟩
  · rw [seal_reach (by rfl), State.reach_setReach_self]
  · rw [seal_bit (by rfl), setReach_bit, substituting_bit h]

theorem spareSubstitution_noSpare {v : Reg} {t : Nat} (h : s.bit FUS_SUBST 31 = false)
    (ht : s.physTile (v.toNat % 256) = some t) (hst : (s.tile t).st = .bound) (hz : (s.tile t).zeroing = false)
    (hspare : s.spareIdle (t / 17) = none) : Completes (.spareSubstitution v) s fun u =>
      u.bit FUS_SUBST 31 = false ∧ u.fld FUS_SUBST 30 28 = 1 ∧ u.tiles = s.tiles ∧ u.reaches = s.reaches := by
  refine completes_live hl rfl ?_
  rw [doSubst_bound h ht hst hz, if_pos (by rw [hspare]; rfl)]
  refine ⟨?_, ?_, rfl, rfl⟩
  · rw [seal_bit (by rfl), fusEnd_bit]
  · exact (seal_fld (by rfl) ..).trans (fusEnd_fld _ _ (by decide))

end

end Sys2Proof.Machine

/-- Settles O32: each command's effect is one write of a flight, a tile or a reach, with its request register. -/
theorem tileService : Obligations.TileService := by
  refine fun s hl => ⟨fun k hover hrestore hleave hdue hwaits => ?_, fun t hz => ?_, fun p pos q k i hsub hmap hf hrun => ?_,
    fun v h => ?_, fun v h => ?_, fun v h => ⟨fun hst hspare => ?_, fun hst hz hspare => ?_, fun hst => ?_⟩,
    fun v t h ht => ⟨fun hst hz hspare => ?_, fun hst hz hspare => ?_⟩, fun p q passed hq => ⟨fun hg => ?_, fun hg => ?_⟩⟩
  · exact overrunDrainDone_completes hl hover hrestore hleave hdue hwaits
  · refine (tileZeroingDone_completes hl hz).imp fun u hu => ?_
    obtain ⟨hself, hothers⟩ := hu
    rw [hself]
    exact ⟨rfl, fun _ => rfl, fun _ => rfl, fun r => ite_self _, fun q _ hq => if_neg (Nat.ne_of_gt hq), fun _ => rfl, rfl, rfl,
      rfl, rfl, rfl, rfl, hothers⟩
  · refine (doneLive_of_live hl (s.doSubstCopyDone p)).trans ?_
    have hflight : s.flightOfTile (17 * p + q) = some k := by rw [State.flightOfTile, hf]; rfl
    simp only [State.doSubstCopyDone, hsub, hmap, hflight, hrun, ne_eq, not_false_eq_true, decide_true, if_true]
  · exact (doneLive_of_live hl (s.doRegrade v)).trans (by rw [State.doRegrade, if_pos h])
  · exact (doneLive_of_live hl (s.doSubst v)).trans (by rw [State.doSubst, if_pos h])
  · exact tileRegrade_spare hl h hst hspare
  · exact tileRegrade_bound hl h hst hz hspare
  · exact tileRegrade_retired hl h hst
  · exact spareSubstitution_takes hl h ht hst hz hspare
  · exact spareSubstitution_noSpare hl h ht hst hz hspare
  · refine completes_live hl rfl ?_
    rw [doRegradeDone_eq passed hq, if_neg (Nat.not_lt.2 hg)]
    obtain ⟨hself, hreach, hothers⟩ := regraded_reads (State.Kept.self _)
    rw [hself]
    exact ⟨rfl, rfl, rfl, hreach, hothers⟩
  · refine completes_live hl rfl ?_
    rw [doRegradeDone_eq passed hq, if_pos hg]
    obtain ⟨hself, hreach, -⟩ := regraded_reads (fault_kept ..)
    rw [hself]
    exact ⟨rfl, hreach⟩
end

section
/-! Lock-in, the loss of time and of the lockmaster, and the setup request (R43, R47 to R49, R57, R58, R207 to R209). -/

open Sys2Proof Sys2Proof.Machine

namespace Sys2Proof.Machine

/-! ### Gate orders (R27, R34) -/

@[simp] theorem order_flights (s : State) (f : Gate → Gate) : (s.order f).flights = s.flights := by
  unfold State.order
  split <;> rfl

@[simp] theorem order_ww (s : State) (f : Gate → Gate) : (s.order f).ww = s.ww := (order_kept s f).ww

@[simp] theorem order_regs (s : State) (f : Gate → Gate) : (s.order f).regs = s.regs := by
  unfold State.order
  split <;> rfl

/-- The contribution that an order enters: this pound's before the cut-off, the next pound's after it. -/
def GateState.open (g : GateState) : Gate := if g.cut then g.next else g.own

theorem order_gate (s : State) (f : Gate → Gate) : (s.order f).gate.cut = s.gate.cut ∧ (s.order f).gate.open = f s.gate.open := by
  unfold State.order GateState.open
  by_cases h : s.gate.cut = true <;> simp [h]

theorem gateTag_gateModTag (g : Gate) (t : Nat) (f : TagRec → TagRec) (j : Nat) :
    gateTag (gateModTag g t f) j = if t = j then f (gateTag g t) else gateTag g j := sget_sset ..

section
variable (s : State) (k : Nat)

@[simp] theorem holdSlot_flights : (s.holdSlot k).flights = s.flights := order_flights ..
@[simp] theorem holdSlot_regs : (s.holdSlot k).regs = s.regs := order_regs ..

theorem holdSlot_tag (j : Nat) : gateTag (s.holdSlot k).gate.open j =
    if (s.flight k).tag = j then { gateTag s.gate.open (s.flight k).tag with hold := true } else gateTag s.gate.open j := by
  have h : (s.holdSlot k).gate.open = gateModTag s.gate.open (s.flight k).tag fun r => { r with hold := true } := (order_gate s _).2
  rw [h, gateTag_gateModTag]

theorem holdSlot_cut : (s.holdSlot k).gate.cut = s.gate.cut := (order_gate s _).1

end

/-- The flights of a list hold, and nothing but the contribution changes. -/
theorem foldl_holdSlot (l : List Nat) (s : State) : ∀ u, u = l.foldl State.holdSlot s →
    s.Kept u ∧ u.flights = s.flights ∧ u.regs = s.regs ∧ u.gate.cut = s.gate.cut ∧
      (∀ j, (gateTag s.gate.open j).hold = true → (gateTag u.gate.open j).hold = true) ∧
      ∀ k ∈ l, (gateTag u.gate.open (s.flight k).tag).hold = true := by
  induction l generalizing s with
  | nil =>
    rintro u rfl
    exact ⟨State.Kept.self _, rfl, rfl, rfl, fun _ h => h, fun _ h => absurd h List.not_mem_nil⟩
  | cons a l ih =>
    intro u hu
    obtain ⟨hkept, hflights, hregs, hcut, hmono, hall⟩ := ih (s.holdSlot a) u hu
    have hself : ∀ j, (gateTag s.gate.open j).hold = true → (gateTag (s.holdSlot a).gate.open j).hold = true := fun j hj => by
      rw [holdSlot_tag]
      split
      · rfl
      · exact hj
    have hflight : ∀ k, (s.holdSlot a).flight k = s.flight k := fun k => by rw [State.flight, holdSlot_flights, State.flight]
    refine ⟨(holdSlot_kept s a).trans hkept, hflights.trans (holdSlot_flights ..), hregs.trans (holdSlot_regs ..),
      hcut.trans (holdSlot_cut ..), fun j hj => hmono j (hself j hj), List.forall_mem_cons.2 ⟨hmono _ ?_, fun k hk => ?_⟩⟩
    · rw [holdSlot_tag, if_pos rfl]
    · rw [← hflight]
      exact hall k hk

/-! ### Lock-in -/

theorem flight_orderTag (s : State) (t : Nat) (f : TagRec → TagRec) (k : Nat) : (s.orderTag t f).flight k = s.flight k := by
  rw [State.flight, State.orderTag, order_flights, State.flight]

/-- What a lock-in leaves in its flight: its outcome for the coming position (R207). -/
theorem doLockIn_flight {s : State} {k : Nat} (hlock : s.locksIn k = true) (hcut : s.gate.cut = false) :
    let r := (s.lockAll k (s.flight k).nextPos).2
    ((s.doLockIn k).flight k).lockinDone = true ∧ ((s.doLockIn k).flight k).lockinOk = r.ok ∧
      ((s.doLockIn k).flight k).nextXlt = r.leaves := by
  have hgo : ¬(!s.locksIn k || s.gate.cut) = true := by simp [hlock, hcut]
  have hflight : ∀ (p : Prop) [Decidable p] (u : State) (t : Nat) (f : TagRec → TagRec),
      (if p then u.orderTag t f else u).flight k = u.flight k := fun p _ u t f => by
    split
    · exact flight_orderTag ..
    · rfl
  simp only [State.doLockIn, if_neg hgo, hflight, State.modFlight, State.flight_setFlight_self, and_self]

/-! ### The setup request -/

theorem setup_request {s : State} {v : Reg} (h : s.bit TCK_REQ 31 = false) : s.setupWrite (putBits v 31 31 1) =
    s.setReg TCK_REQ (goReg { rw := 0x7F03FF, w1s := 0x80000000, goLock := true, reset := 0x280064 } (s.reg TCK_REQ) v) :=
  (if_neg (by simp [h])).trans (swWrite_quiet rfl rfl _)

end Sys2Proof.Machine

/-- Settles O36: each command's one effect, or none where its condition does not hold. -/
theorem timekeepingCommands : Obligations.TimekeepingCommands := by
  refine fun s hl => ⟨fun k hlock hcut => ?_, fun k h => ?_, fun hj hx => ?_, fun h => ?_, fun hj ha hp => ?_, fun h => ?_,
    fun v h => ?_, fun v h => ?_⟩
  · exact completes_live hl rfl (doLockIn_flight hlock hcut)
  · refine (doneLive_of_live hl (s.doLockIn k)).trans ?_
    have hno : (!s.locksIn k || s.gate.cut) = true := by simpa using h
    rw [State.doLockIn, if_pos hno]
  · have hgo : ¬(!s.ww.joined || s.ww.expired.isSome) = true := by simp [hj, hx]
    obtain ⟨hkept, hflights, hregs, hcut, -, hall⟩ := foldl_holdSlot s.boundSlots (s.setBit TCK_STAT 6 true) _ rfl
    generalize hu : s.boundSlots.foldl State.holdSlot (s.setBit TCK_STAT 6 true) = u at *
    have hdo : s.doHoldoverExpiry =
        { u with ww := { u.ww with holdover := true, expired := some (u.ww.pound + 1 + bnat u.gate.cut) } } := by
      rw [State.doHoldoverExpiry, if_neg hgo, hu]
    have hww : u.ww = s.ww := hkept.ww
    have hcut' : u.gate.cut = s.gate.cut := hcut
    refine completes_live hl rfl ?_
    rw [hdo]
    refine ⟨?_, ?_, hflights, fun k hk => ?_⟩
    · rw [← hww, ← hcut']
      rfl
    · have hbit := bit_setBit_self s TCK_STAT true (i := 6) (by decide)
      rw [seal_bit (by exact hkept.fuses)]
      rw [State.bit, State.reg] at hbit ⊢
      rwa [← hregs, ← hkept.fuses] at hbit
    · have hhold : (gateTag u.gate.open (s.flight k).tag).hold = true := hall k hk
      rw [GateState.open, hcut'] at hhold
      refine ⟨fun h => ?_, fun h => ?_⟩
      · rwa [if_neg (by simp [h])] at hhold
      · rwa [if_pos h] at hhold
  · refine (doneLive_of_live hl s.doHoldoverExpiry).trans ?_
    have hno : (!s.ww.joined || s.ww.expired.isSome) = true := by simpa using h
    rw [State.doHoldoverExpiry, if_pos hno]
  · exact (doneLive_of_live hl s.doLmAbsence).trans (by rw [State.doLmAbsence, if_pos ⟨hj, ha, hp⟩])
  · refine (doneLive_of_live hl s.doLmAbsence).trans ?_
    have hno : ¬(s.ww.joined = true ∧ 4 ≤ s.ww.lmAbsent ∧ s.fld TCK_CTL 15 8 ≠ 0) := by
      rintro ⟨hj, ha, hp⟩
      obtain h | h | h := h
      · exact Bool.false_ne_true (h.symm.trans hj)
      · omega
      · exact hp h
    rw [State.doLmAbsence, if_neg hno]
  · exact (doneLive_of_live hl (s.setupWrite (putBits v 31 31 1))).trans (by rw [State.setupWrite, if_pos h])
  · have hlock : (true && (s.reg TCK_REQ).getLsbD 31) = false := by rw [Bool.true_and]; exact h
    refine completes_live hl rfl ?_
    rw [setup_request h]
    refine ⟨?_, ?_, ?_, fun off hoff => ?_, rfl, rfl, rfl, rfl⟩
    · rw [seal_bit (by rfl), State.bit, State.reg_setReg_self]
      exact goReg_go hlock rfl
    · rw [seal_fld (by rfl), State.fld, State.reg_setReg_self]
      refine (goReg_field hlock (by decide) (by decide)).trans ?_
      simp [bitsOf]
    · rw [seal_fld (by rfl), State.fld, State.reg_setReg_self]
      exact goReg_field hlock (by decide) (by decide)
    · rw [seal_reg (by rfl), State.reg_setReg, if_neg (Ne.symm hoff)]
end

section
/-! What a fault message does to flights: it can make one FATAL, and changes nothing else of them (R603 to R607). -/

open Sys2Proof Sys2Proof.Machine

namespace Sys2Proof.Machine

/-! ### What leaves the flights alone -/

theorem flights_ite (p : Prop) [Decidable p] (a b : State) :
    (if p then a else b).flights = if p then a.flights else b.flights := apply_ite ..

theorem foldl_flights {α : Type} {f : State → α → State} (hf : ∀ s a, (f s a).flights = s.flights) (l : List α) (s : State) :
    (l.foldl f s).flights = s.flights := by
  induction l generalizing s with
  | nil => rfl
  | cons a l ih => exact (ih _).trans (hf s a)

section
variable (s : State)

@[simp] theorem emit_flights (o : Out) : (s.emit o).flights = s.flights := rfl

@[simp] theorem bump_flights (o : Nat) : (s.bump o).flights = s.flights := by simp [State.bump, flights_ite]

@[simp] theorem sendVec_flights (v : Nat) : (s.sendVec v).flights = s.flights := by simp [State.sendVec, flights_ite]

@[simp] theorem irq_flights (n : Nat) : (s.irq n).flights = s.flights := by simp [State.irq, flights_ite]

@[simp] theorem hostWrite_flights (a : Nat) (bs : List Byte) (p : Bool) : (s.hostWrite a bs p).flights = s.flights := by
  simp [State.hostWrite, flights_ite]

@[simp] theorem putLine_flights (l : Line) : (s.putLine l).flights = s.flights := rfl

@[simp] theorem snoopHost_flights (la : Nat) (i : Bool) : (s.snoopHost la i).flights = s.flights := by
  simp [State.snoopHost, State.sendSnoop, flights_ite]

@[simp] theorem recallHost_flights (h : Bool) (la : Nat) : (s.recallHost h la).flights = s.flights := by
  unfold State.recallHost
  split <;> simp [flights_ite]

@[simp] theorem recall_flights (h : Bool) (la : Nat) : (s.recall h la).flights = s.flights := by
  unfold State.recall
  split <;> simp

@[simp] theorem cancelResv_flights (h : Bool) (la : Nat) (k : Option Nat) : (s.cancelResv h la k).flights = s.flights := by
  unfold State.cancelResv
  split
  · rfl
  · exact foldl_flights (fun _ _ => State.setLk_flights ..) _ _

@[simp] theorem snoopBerths_flights (h : Bool) (la : Nat) (k : Option Nat) : (s.snoopBerths h la k).flights = s.flights :=
  foldl_flights (fun _ _ => emit_flights ..) _ _

@[simp] theorem dropCopies_flights (h : Bool) (la : Nat) (k : Option Nat) : (s.dropCopies h la k).flights = s.flights := by
  simp [State.dropCopies]

@[simp] theorem mergeLine_flights (h : Bool) (la off : Nat) (bs : List Byte) (p d : Bool) :
    (s.mergeLine h la off bs p d).flights = s.flights := by
  unfold State.mergeLine
  split <;> simp

@[simp] theorem stkErr_flights (d b : Nat) : (s.stkErr d b).flights = s.flights := by
  unfold State.stkErr
  split <;> simp

@[simp] theorem dropWriteback_flights (d : Nat) : (s.dropWriteback d).flights = s.flights := by
  unfold State.dropWriteback
  split <;> simp

@[simp] theorem wholeMark_flights (port : Nat) (p : Bool) : (s.wholeMark port p).1.flights = s.flights := by
  unfold State.wholeMark
  dsimp only
  split
  · simp
  · split <;> simp

@[simp] theorem quietStore_flights (a : Nat) (bs : List Byte) : (s.quietStore a bs).flights = s.flights := by
  unfold State.quietStore
  split
  · refine foldl_flights (fun s w => ?_) _ _
    dsimp only
    split <;> simp
  all_goals simp

@[simp] theorem flagWrite_flights (h : Bool) (a : Nat) (bs : List Byte) : (s.flagWrite h a bs).flights = s.flights := by
  have hline : ∀ (s : State) (la : Nat), (((s.recallHost false la).recall false la).dropCopies false la none).flights = s.flights :=
    fun s la => by simp
  unfold State.flagWrite
  split
  · simp
  · refine foldl_flights (fun s la => ?_) _ _
    dsimp only
    split
    · rw [mergeLine_flights, hline]
    · rw [quietStore_flights, hline]

@[simp] theorem logRecord_flights (m : FaultMsg) (e : Bool) : (s.logRecord m e).1.flights = s.flights := by
  unfold State.logRecord
  split <;> simp [flights_ite]

@[simp] theorem ringRecord_flights (m : FaultMsg) (e : Bool) : (s.ringRecord m e).1.flights = s.flights := by
  unfold State.ringRecord
  split
  · rfl
  · dsimp only
    split
    · simp
    · exact flagWrite_flights ..

@[simp] theorem countFault_flights (m : FaultMsg) : (s.countFault m).1.flights = s.flights := by
  unfold State.countFault
  dsimp only
  split
  · rfl
  · simp [flights_ite]

@[simp] theorem recordFault_flights (m : FaultMsg) (e : Bool) : (s.recordFault m e).flights = s.flights := by
  simp [State.recordFault, flights_ite]

@[simp] theorem react_flights (r : Reaction) : (s.react r).flights = s.flights := by simp [State.react, flights_ite]

@[simp] theorem musterOnce_flights (a b : Nat) : (s.musterOnce a b).flights = s.flights := by
  simp [State.musterOnce, State.muster, flights_ite]

@[simp] theorem ownFaultBit_flights : s.ownFaultBit.flights = s.flights := order_flights ..

@[simp] theorem haltFault_flights : s.haltFault.flights = s.flights := by simp [State.haltFault]

end

/-! ### What makes a flight FATAL -/

/-- The same flights are bound, and each is as before, but that it may have become FATAL. -/
structure State.SameRuns (s t : State) : Prop where
  flight : ∀ k, ∃ x, t.flight k = { s.flight k with fatal := x } ∧ ((s.flight k).fatal.isSome = true → x.isSome = true)
  bound : ∀ k, k ∈ t.boundSlots ↔ k ∈ s.boundSlots

theorem sameRuns_of_flights {s t : State} (h : t.flights = s.flights) : s.SameRuns t :=
  ⟨fun k => ⟨(s.flight k).fatal, by rw [State.flight, h, State.flight], id⟩, fun k => by rw [State.boundSlots, h, State.boundSlots]⟩

namespace State.SameRuns
variable {s t u : State} (h : s.SameRuns t)
include h

theorem trans (g : t.SameRuns u) : s.SameRuns u := by
  refine ⟨fun k => ?_, fun k => (g.bound k).trans (h.bound k)⟩
  obtain ⟨x, hx, hfx⟩ := h.flight k
  obtain ⟨y, hy, hfy⟩ := g.flight k
  rw [hx] at hy hfy
  exact ⟨y, hy, fun hf => hfy (hfx hf)⟩

theorem st (k : Nat) : (t.flight k).st = (s.flight k).st := by
  obtain ⟨x, hx, -⟩ := h.flight k
  rw [hx]

theorem ran (k : Nat) : (t.flight k).ran = (s.flight k).ran := by
  obtain ⟨x, hx, -⟩ := h.flight k
  rw [hx]

theorem ctx (k : Nat) : (t.flight k).ctx = (s.flight k).ctx := by
  obtain ⟨x, hx, -⟩ := h.flight k
  rw [hx]

end State.SameRuns

theorem foldl_sameRuns {α : Type} {f : State → α → State} (hf : ∀ (s : State) a, s.SameRuns (f s a)) (l : List α) (s : State) :
    s.SameRuns (l.foldl f s) := by
  induction l generalizing s with
  | nil => exact sameRuns_of_flights rfl
  | cons a l ih => exact (hf s a).trans (ih _)

/-- The entries of a table after a write: those of other keys, and the one written. -/
theorem mem_sput {α : Type} {k : Nat} {v : α} {m : SMap α} {e : Nat × α} (he : e ∈ sput k v m) : e = (k, v) ∨ e ∈ m := by
  induction m with
  | nil => exact .inl (List.mem_singleton.1 he)
  | cons a m ih =>
    obtain ⟨k', v'⟩ := a
    unfold sput at he
    split at he
    · exact (List.mem_cons.1 he).imp_right fun h => h
    · split at he
      · exact (List.mem_cons.1 he).imp_right (List.mem_cons_of_mem _)
      · obtain h | h := List.mem_cons.1 he
        · exact .inr (h ▸ List.mem_cons_self ..)
        · exact (ih h).imp_right (List.mem_cons_of_mem _)

theorem mem_sput_self {α : Type} (k : Nat) (v : α) (m : SMap α) : (k, v) ∈ sput k v m := by
  induction m with
  | nil => exact List.mem_singleton.2 rfl
  | cons a m ih =>
    obtain ⟨k', v'⟩ := a
    unfold sput
    split
    · exact List.mem_cons_self ..
    · split
      · exact List.mem_cons_self ..
      · exact List.mem_cons_of_mem _ ih

theorem mem_sput_of_ne {α : Type} {k : Nat} (v : α) {m : SMap α} {e : Nat × α} (hne : e.1 ≠ k) (he : e ∈ m) : e ∈ sput k v m := by
  induction m with
  | nil => exact absurd he List.not_mem_nil
  | cons a m ih =>
    obtain ⟨k', v'⟩ := a
    unfold sput
    split
    · exact List.mem_cons_of_mem _ he
    · obtain h | h := List.mem_cons.1 he
      · split
        next heq => exact absurd (h ▸ heq.symm) hne
        next => exact h ▸ List.mem_cons_self ..
      · split
        · exact List.mem_cons_of_mem _ h
        · exact List.mem_cons_of_mem _ (ih h)

theorem mem_of_sget {α : Type} {d v : α} {k : Nat} {m : SMap α} (h : sget d m k = v) (hv : v ≠ d) : (k, v) ∈ m := by
  induction m with
  | nil => exact absurd h.symm hv
  | cons e m ih =>
    unfold sget at h
    split at h
    next heq => exact List.mem_cons.2 (.inl (by rw [← h, ← heq]))
    next => exact List.mem_cons_of_mem _ (ih h)

theorem mem_boundSlots {s : State} {k : Nat} : k ∈ s.boundSlots ↔ ∃ f, (k, f) ∈ s.flights ∧ f.st.bound_ = true := by
  simp [State.boundSlots]

theorem bound_ne_default {f : Flight} (h : f.st.bound_ = true) : f ≠ {} := by
  rintro rfl
  exact Bool.false_ne_true h

/-- A bound flight that changes and stays bound leaves the bound slots as they are. -/
theorem boundSlots_setFlight {s : State} {k : Nat} {f : Flight} (hold : (s.flight k).st.bound_ = true)
    (hnew : f.st.bound_ = true) (j : Nat) : j ∈ (s.setFlight k f).boundSlots ↔ j ∈ s.boundSlots := by
  have hput : (s.setFlight k f).flights = sput k f s.flights := if_neg (bound_ne_default hnew)
  have hself : k ∈ s.boundSlots := mem_boundSlots.2 ⟨_, mem_of_sget rfl (bound_ne_default hold), hold⟩
  rw [mem_boundSlots, mem_boundSlots, hput]
  constructor
  · rintro ⟨g, hg, hb⟩
    obtain h | h := mem_sput hg
    · obtain ⟨rfl, rfl⟩ := Prod.mk.inj h
      exact mem_boundSlots.1 hself
    · exact ⟨g, h, hb⟩
  · rintro ⟨g, hg, hb⟩
    by_cases hj : j = k
    · exact ⟨f, hj ▸ mem_sput_self .., hnew⟩
    · exact ⟨g, mem_sput_of_ne f hj hg, hb⟩

theorem fatalFlight_sameRuns (s : State) (k status : Nat) : s.SameRuns (s.fatalFlight k status) := by
  unfold State.fatalFlight
  split
  next hb =>
    refine State.SameRuns.trans (t := s.modFlight k fun f => { f with fatal := some (f.fatal.getD status) })
      ⟨fun j => ?_, boundSlots_setFlight hb hb⟩ (sameRuns_of_flights (holdSlot_flights ..))
    rw [State.modFlight, State.flight_setFlight]
    split
    next h => exact ⟨_, by rw [h], fun _ => rfl⟩
    next => exact ⟨_, rfl, id⟩
  next => exact sameRuns_of_flights rfl

section
variable (s : State)

theorem retireBound_sameRuns (m : FaultMsg) : s.SameRuns (s.retireBound m) := by
  have hreact := sameRuns_of_flights (react_flights s (.retireTile m.inst))
  unfold State.retireBound
  dsimp only
  split
  · exact hreact
  · split
    · exact hreact
    · split
      · exact hreact.trans (sameRuns_of_flights (by simp))
      · split
        · exact hreact.trans (sameRuns_of_flights (by simp))
        · exact (hreact.trans (sameRuns_of_flights (holdSlot_flights ..))).trans (fatalFlight_sameRuns ..)

theorem retire_sameRuns (m : FaultMsg) : s.SameRuns (s.retire m) := by
  unfold State.retire
  split
  · exact sameRuns_of_flights (by simp)
  · exact retireBound_sameRuns ..
  · exact sameRuns_of_flights (by simp)
  · exact sameRuns_of_flights (by simp)
  · split <;> exact sameRuns_of_flights (by simp)
  · exact sameRuns_of_flights (by simp)
  · split <;> exact sameRuns_of_flights (by simp)
  · split <;> exact sameRuns_of_flights (by simp)
  · exact sameRuns_of_flights rfl

theorem reactFatal_sameRuns (m : FaultMsg) : s.SameRuns (s.reactFatal m) := by
  unfold State.reactFatal
  split
  · split
    · exact fatalFlight_sameRuns ..
    · exact sameRuns_of_flights rfl
  · split
    · exact fatalFlight_sameRuns ..
    · exact sameRuns_of_flights rfl
  · exact foldl_sameRuns (fun _ _ => fatalFlight_sameRuns ..) _ _
  · exact sameRuns_of_flights rfl
  · exact sameRuns_of_flights (haltFault_flights s)

theorem replayFlight_sameRuns (k : Nat) : s.SameRuns (s.replayFlight k).1 := by
  unfold State.replayFlight
  dsimp only
  split
  · exact sameRuns_of_flights rfl
  · split
    · exact sameRuns_of_flights (by simp)
    · exact fatalFlight_sameRuns ..

theorem reactClass_sameRuns (m : FaultMsg) (c : Nat) : s.SameRuns (s.reactClass m c).1 := by
  unfold State.reactClass
  split
  · split
    · split
      · exact replayFlight_sameRuns ..
      · exact sameRuns_of_flights rfl
    · exact sameRuns_of_flights rfl
  · exact retire_sameRuns ..
  · exact reactFatal_sameRuns ..
  · exact sameRuns_of_flights rfl

theorem collect_sameRuns (m : FaultMsg) : s.SameRuns (s.collect m).1 := by
  have hrecord : ∀ n, s.SameRuns ((s.countFault m).1.recordFault n (s.countFault m).2) := fun n =>
    sameRuns_of_flights (by simp)
  unfold State.collect
  dsimp only
  split
  · exact (hrecord _).trans (reactClass_sameRuns ..)
  · split
    · exact ((hrecord _).trans (reactClass_sameRuns ..)).trans (reactClass_sameRuns ..)
    · exact (hrecord _).trans (reactClass_sameRuns ..)

theorem fault_sameRuns (m : FaultMsg) : s.SameRuns (s.fault m) :=
  (collect_sameRuns s m).trans (foldl_sameRuns (fun s m => collect_sameRuns s m) _ _)

end

end Sys2Proof.Machine
end

section
/-! The vote, the gate flits and the merge of contributions (R26, R27, R30, R34, R35, R266). -/

open Sys2Proof Sys2Proof.Machine

namespace Sys2Proof.Machine

/-! ### The vote (R26) -/

theorem mem_lateSlots {s : State} {k : Nat} : k ∈ s.lateSlots ↔ k ∈ s.boundSlots ∧ (s.flight k).st = .running ∧
    (s.flight k).ran = true ∧ ∃ e ∈ s.tilesOf k, (s.tile e.1).votesLate = true := by
  simp [State.lateSlots, and_assoc]

/-- Whether a flight is late depends on the flights that run and on the tiles. -/
theorem lateSlots_isEmpty {s t : State} (h : s.SameRuns t) (ht : t.tiles = s.tiles) (hf : t.fuses = s.fuses) :
    t.lateSlots.isEmpty = s.lateSlots.isEmpty := by
  have hmem : ∀ k, k ∈ t.lateSlots ↔ k ∈ s.lateSlots := fun k => by
    have htile : ∀ j, t.tile j = s.tile j := tile_of_eq ht hf
    rw [mem_lateSlots, mem_lateSlots, h.bound, h.st, h.ran, State.tilesOf, ht, State.tilesOf]
    simp only [htile]
  rw [Bool.eq_iff_iff, List.isEmpty_iff, List.isEmpty_iff, List.eq_nil_iff_forall_not_mem, List.eq_nil_iff_forall_not_mem]
  exact forall_congr' fun k => not_congr (hmem k)

theorem lateLockIns_effect (s : State) : s.SameRuns s.lateLockIns ∧ s.Kept s.lateLockIns := by
  unfold State.lateLockIns
  constructor
  · refine foldl_sameRuns (fun s k => ?_) _ _
    split
    · exact fault_sameRuns ..
    · exact sameRuns_of_flights rfl
  · exact State.Kept.foldl _ (fun s k => State.Kept.cond (fault_kept ..) (State.Kept.self s)) _ _

theorem modFlight_kept (s : State) (k : Nat) (f : Flight → Flight) : s.Kept (s.modFlight k f) := setFlight_kept ..

theorem markLate_kept (s : State) : s.Kept s.markLate := State.Kept.foldl _ (fun _ _ => modFlight_kept ..) _ _

/-- The cut-off casts vote 0 and closes the contribution; the pound goes on. -/
theorem cutOff_gate (s : State) : s.cutOff.gate.cut = true ∧ s.cutOff.gate.round = 0 ∧
    s.cutOff.gate.voted = !s.lateSlots.isEmpty ∧ s.cutOff.gate.sent.late = !s.lateSlots.isEmpty ∧
    s.cutOff.ww = s.ww := by
  obtain ⟨hruns, hkept⟩ := lateLockIns_effect s
  have hlate : (!s.lateLockIns.lateSlots.isEmpty) = !s.lateSlots.isEmpty :=
    congrArg (!·) (lateSlots_isEmpty hruns hkept.tiles hkept.fuses)
  have hww : s.cutOff.ww = s.ww := by
    refine Eq.trans ?_ hkept.ww
    exact ((markLate_kept s.lateLockIns).trans (State.Kept.foldl _ (fun _ _ => modFlight_kept ..) _ _)).ww
  exact ⟨rfl, rfl, hlate, hlate, hww⟩

/-! ### The merge (R34, R269) -/

theorem mem_insertDev (n x : Nat) (l : List Nat) : x ∈ insertDev n l ↔ x = n ∨ x ∈ l := by
  induction l with
  | nil => simp [insertDev]
  | cons a l ih =>
    unfold insertDev
    split
    · simp
    · split
      next h => subst h; simp
      next => simp only [List.mem_cons, ih]; tauto

theorem mem_foldl_insertDev (m l : List Nat) (x : Nat) : x ∈ m.foldl (fun l n => insertDev n l) l ↔ x ∈ l ∨ x ∈ m := by
  induction m generalizing l with
  | nil => simp
  | cons a m ih =>
    rw [List.foldl_cons, ih, mem_insertDev, List.mem_cons]
    tauto

theorem sget_of_not_mem {α : Type} (d : α) {m : SMap α} {k : Nat} (h : k ∉ m.map Prod.fst) : sget d m k = d := by
  induction m with
  | nil => rfl
  | cons e m ih =>
    obtain ⟨hne, hm⟩ := not_or.1 (fun hk => h (List.mem_cons.2 hk))
    rw [sget, if_neg (Ne.symm hne), ih hm]

@[simp] theorem mergeTag_default (x : TagRec) : mergeTag x {} = x := by simp [mergeTag]

theorem sget_foldl_mergeTag {b : SMap TagRec} (hb : (b.map Prod.fst).Nodup) (a : SMap TagRec) (t : Nat) :
    sget {} (b.foldl (fun l e => sset {} e.1 (mergeTag (sget {} l e.1) e.2) l) a) t =
      mergeTag (sget {} a t) (sget {} b t) := by
  induction b generalizing a with
  | nil => simp
  | cons e b ih =>
    obtain ⟨hnot, hnodup⟩ := List.nodup_cons.1 hb
    rw [List.foldl_cons, ih hnodup, sget_sset, sget]
    by_cases h : e.1 = t
    · rw [if_pos h, if_pos h, ← h, sget_of_not_mem _ hnot, mergeTag_default]
    · rw [if_neg h, if_neg h]

theorem mergeCand_some (x y : Nat × Nat) :
    mergeCand (some x) (some y) = some (if y.1 < x.1 ∨ (x.1 = y.1 ∧ x.2 ≤ y.2) then x else y) := by
  refine congrArg some ?_
  by_cases h : y.1 < x.1 ∨ (x.1 = y.1 ∧ x.2 ≤ y.2)
  · rw [if_pos h, if_neg (by omega)]
  · rw [if_neg h, if_pos (by omega)]

theorem mergeSetup_some {x y : SetupReq} (h : x.dev ≠ y.dev) :
    mergeSetup (some x) (some y) = mergeSetup (some y) (some x) ∧
      mergeSetup (some x) (some y) = some (if x.dev < y.dev then x else y) := by
  by_cases hlt : x.dev < y.dev
  · simp [mergeSetup, hlt, Nat.lt_asymm hlt]
  · have hgt : y.dev < x.dev := by omega
    simp [mergeSetup, hlt, hgt]

/-! ### Gate flits (R35, R266) -/

/-- A gate flit that leaves: it is added to what goes out, with the gate, the time and the links as they were. -/
theorem lineOut_gate (s : State) (p : Nat) {f : Flit} (hf : f.typ = FLIT_GATE) : ∃ fec,
    (s.lineOut p f).out = s.out ++ [.flit p (f.bytes false) fec] ∧ (s.lineOut p f).gate = s.gate ∧
      (s.lineOut p f).ww = s.ww ∧ (s.lineOut p f).canals = s.canals := by
  have hcrc : (flitSequenced f.typ && s.bit (cnlReg p 0x18) 0) = false := by
    rw [hf]
    rfl
  unfold State.lineOut
  simp only [hcrc, Bool.false_eq_true, if_false]
  refine ⟨s.bit (cnlReg p 0x18) 1, ?_⟩
  split <;> exact ⟨rfl, rfl, rfl, rfl⟩

/-- What a step of the exchange keeps: nothing that went out is lost, the gate and the time stand. -/
structure State.Sends (s t : State) : Prop where
  out : s.out <+: t.out
  gate : t.gate = s.gate
  ww : t.ww = s.ww

theorem State.Sends.trans {s t u : State} (h : s.Sends t) (g : t.Sends u) : s.Sends u :=
  ⟨h.out.trans g.out, g.gate.trans h.gate, g.ww.trans h.ww⟩

theorem sendPlain_gate (s : State) (p : Nat) {f : Flit} (hf : f.typ = FLIT_GATE) : s.Sends (s.sendPlain p f) ∧
    (∃ fec, .flit p (((s.canal p).acks f).bytes false) fec ∈ (s.sendPlain p f).out) ∧
      ∀ q, (s.sendPlain p f).canal q = if p = q then { s.canal p with nakDue := false } else s.canal q := by
  obtain ⟨fec, hout, hgate, hww, hcanals⟩ :=
    lineOut_gate (s.setCanal p { s.canal p with nakDue := false }) p (f := (s.canal p).acks f) hf
  refine ⟨⟨hout ▸ List.prefix_append _ _, hgate, hww⟩, ⟨fec, ?_⟩, fun q => ?_⟩
  · exact hout ▸ List.mem_append_right _ (List.mem_singleton.2 rfl)
  · rw [State.canal, State.sendPlain, hcanals]
    exact State.canal_setCanal ..

/-- The flits of a phase on one port. -/
def State.sendParts (s : State) (round phase : Nat) (g : Gate) (p : Nat) : State :=
  (if round = 0 then [0, 1] else [0]).foldl (fun s part =>
    s.sendPlain p (gateFlit s.ww.index (s.canal p).peerDev round phase part s.ww.pound (partOf part g))) s

/-- The flit of one part of a phase, for a link. -/
def State.phaseFlit (s : State) (round phase : Nat) (g : Gate) (c : Canal) (part : Nat) : Flit :=
  gateFlit s.ww.index c.peerDev round phase part s.ww.pound (partOf part g)

/-- Both parts of a phase go out on a port in round 0, and PART A alone in the others. -/
def State.PartsOut (s t : State) (round phase : Nat) (g : Gate) (p : Nat) : Prop :=
  (∃ fec, .flit p (((s.canal p).acks (s.phaseFlit round phase g (s.canal p) 0)).bytes false) fec ∈ t.out) ∧
    (round = 0 → ∃ fec, .flit p ((({ s.canal p with nakDue := false } : Canal).acks
      (s.phaseFlit round phase g (s.canal p) 1)).bytes false) fec ∈ t.out)

theorem sendParts_effect (s : State) (round phase : Nat) (g : Gate) (p : Nat) :
    s.Sends (s.sendParts round phase g p) ∧ s.PartsOut (s.sendParts round phase g p) round phase g p ∧
      ∀ q, q ≠ p → (s.sendParts round phase g p).canal q = s.canal q := by
  obtain ⟨hsends, hout, hcanal⟩ := sendPlain_gate s p (f := s.phaseFlit round phase g (s.canal p) 0) rfl
  unfold State.sendParts State.PartsOut
  by_cases hround : round = 0
  · rw [if_pos hround]
    have hfirst : (s.sendPlain p (s.phaseFlit round phase g (s.canal p) 0)).phaseFlit round phase g
        ((s.sendPlain p (s.phaseFlit round phase g (s.canal p) 0)).canal p) 1 = s.phaseFlit round phase g (s.canal p) 1 := by
      rw [hcanal, if_pos rfl, State.phaseFlit, hsends.ww]
      rfl
    obtain ⟨hsends', hout', hcanal'⟩ := sendPlain_gate (s.sendPlain p (s.phaseFlit round phase g (s.canal p) 0)) p
      (f := s.phaseFlit round phase g (s.canal p) 1) rfl
    rw [hcanal p, if_pos rfl] at hout'
    have hfold : [0, 1].foldl (fun s part => State.sendPlain s p (gateFlit s.ww.index (s.canal p).peerDev round phase part
        s.ww.pound (partOf part g))) s = (s.sendPlain p (s.phaseFlit round phase g (s.canal p) 0)).sendPlain p
          (s.phaseFlit round phase g (s.canal p) 1) := by
      rw [← hfirst]
      rfl
    rw [hfold]
    refine ⟨hsends.trans hsends', ⟨hout.imp fun _ h => hsends'.out.subset h, fun _ => hout'⟩, fun q hq => ?_⟩
    rw [hcanal', if_neg (Ne.symm hq), hcanal, if_neg (Ne.symm hq)]
  · rw [if_neg hround]
    exact ⟨hsends, ⟨hout, fun h => absurd h hround⟩, fun q hq => (hcanal q).trans (if_neg (Ne.symm hq))⟩

theorem foldl_sendParts (round phase : Nat) (g : Gate) (ps : List Nat) (s : State) :
    s.Sends (ps.foldl (fun s p => s.sendParts round phase g p) s) ∧
      ∀ p ∈ ps, s.PartsOut (ps.foldl (fun s p => s.sendParts round phase g p) s) round phase g p := by
  induction ps generalizing s with
  | nil => exact ⟨⟨List.prefix_rfl, rfl, rfl⟩, fun _ h => absurd h List.not_mem_nil⟩
  | cons a ps ih =>
    obtain ⟨hsends, hparts, hcanal⟩ := sendParts_effect s round phase g a
    obtain ⟨hrest, hall⟩ := ih (s.sendParts round phase g a)
    have hfirst : s.PartsOut ((a :: ps).foldl (fun s p => s.sendParts round phase g p) s) round phase g a :=
      ⟨hparts.1.imp fun _ h => hrest.out.subset h, fun h0 => (hparts.2 h0).imp fun _ h => hrest.out.subset h⟩
    refine ⟨hsends.trans hrest, fun p hp => ?_⟩
    by_cases hpa : p = a
    · exact hpa ▸ hfirst
    · have h := hall p ((List.mem_cons.1 hp).resolve_left hpa)
      unfold State.PartsOut State.phaseFlit at h
      rw [hcanal p hpa, hsends.ww] at h
      exact h

theorem doGateSend_eq {s : State} {phase x : Nat} (hx : s.dims[phase]? = some x) (hj : s.ww.joined = true)
    (hcut : s.gate.cut = true) : ∃ t : State, t.out = s.out ∧ t.gate = s.gate ∧ t.canals = s.canals ∧ t.ww.index = s.ww.index ∧
      t.ww.pound = s.ww.pound ∧ s.doGateSend s.gate.round phase =
        ((s.neighborsIn x).flatMap fun n => s.linkGroup n).foldl (fun s p =>
          s.sendParts t.gate.round phase (t.phaseGate phase) p) t := by
  refine ⟨s.clockTo ((s.nextLock - s.gateLead + phase * s.phaseGap) * 2 ^ 16), rfl, rfl, rfl, rfl, rfl, ?_⟩
  have hgo : ¬(!s.ww.joined || !s.gate.cut || decide (s.gate.round ≠ s.gate.round)) = true := by simp [hj, hcut]
  simp only [State.doGateSend, hx, if_neg hgo]
  rfl

/-- What a gate flit from a neighbour brings. -/
def gateIn (f : Flit) (peer : Nat) : GateIn :=
  { round := gateRound f, phase := gatePhase f, peer := peer, part := gatePart f, gate := partOf (gatePart f) (gateOf f) }

/-- A gate flit without an acknowledgement, on an active link: its command acts on it. -/
theorem doGateReceive_eq {s : State} {p : Nat} {x : RxFlit} {f : Flit} (hp : s.portActive p = true) (hx : x.read = .flit f)
    (hf : f.typ = FLIT_GATE) (hack : f.ackv = false) : s.doGateReceive p x =
      if s.gateCounts (s.canal p).peerDev f then
        { s with gate := { s.gate with got := s.gate.got ++ [gateIn f (s.canal p).peerDev] } }
      else s := by
  have hst : (s.canal p).st = .active := by simpa [State.portActive] using hp
  have hfields : s.ackFields p f = s := if_pos (by rw [hack]; rfl)
  have htype : [FLIT_GATE].contains f.typ = true := by rw [hf]; rfl
  simp only [State.doGateReceive, State.receive, hst, hx, htype, hfields, hp, Bool.true_and, if_true]
  rfl

/-- Which gate flits count (R35). -/
theorem gateCounts_iff {s : State} {peer dim : Nat} {f : Flit} (hj : s.ww.joined = true)
    (hdim : s.dims[gatePhase f]? = some dim) (hpeer : peer ∈ s.neighborsIn dim) (hround : gateRound f ≤ 16)
    (hpart : gatePart f = 0 ∨ (gatePart f = 1 ∧ gateRound f = 0)) : s.gateCounts peer f = true ↔
      gatePound f = s.ww.pound % 2 ^ 32 ∧ ¬∃ g ∈ s.gate.got, g.round = gateRound f ∧ g.phase = gatePhase f ∧ g.peer = peer ∧
        g.part = gatePart f := by
  have hpart' : (gateRound f == 0 || gatePart f == 0) = true := by
    rw [Bool.or_eq_true, beq_iff_eq, beq_iff_eq]
    omega
  simp only [State.gateCounts, hdim, hj, hpart', List.contains_iff_mem.2 hpeer, decide_eq_true hround, Bool.true_and, Bool.and_true,
    Bool.and_eq_true, beq_iff_eq, Bool.not_eq_true', List.any_eq_false, not_exists, not_and, and_assoc]

end Sys2Proof.Machine

/-- Settles O35: votes and gate flits by their one branch each, the merge by its fields. -/
theorem gateExchange : Obligations.GateExchange := by
  refine ⟨fun s hl => ⟨fun hrun hcut => ?_, fun hrun hcut hlate hround => ?_, fun hrun hcut hlate => ?_,
    fun phase x hx hj hcut => ?_, fun p e0 e1 h sp crc bs f dim hp hj hx hf hack hdim hpeer hround hpart => ?_⟩,
    fun a b => ⟨rfl, rfl, rfl, rfl, rfl, fun n => mem_foldl_insertDev .., fun hb t => sget_foldl_mergeTag hb .., ?_, ?_⟩⟩
  · have hdo : s.doVote = (s.clockAt (s.poundLen - s.gateLead)).cutOff := by
      rw [State.doVote, if_neg (by simp [hrun]), if_pos (by simp [hcut])]
    obtain ⟨hc, hr, hv, hs, hw⟩ := cutOff_gate (s.clockAt (s.poundLen - s.gateLead))
    have hpound := congrArg Waterway.pound hw
    refine completes_live hl rfl ?_
    rw [hdo]
    exact ⟨hc, hr, hv, hs, hpound⟩
  · have hdo : ∃ t : State, s.doVote = t ∧
        t.gate = { s.gate with round := s.gate.round + 1, voted := !s.lateSlots.isEmpty } := by
      rw [State.doVote, if_neg (by simp [hrun]), if_neg (by simp [hcut]), if_pos (by simp [hlate, hround])]
      exact ⟨_, rfl, rfl⟩
    obtain ⟨t, ht, hgate⟩ := hdo
    refine completes_live hl rfl ?_
    rw [ht, State.seal_gate, hgate]
    exact ⟨hcut, rfl, rfl, rfl⟩
  · refine (doneLive_of_live hl s.doVote).trans ?_
    rw [State.doVote, if_neg (by simp [hrun]), if_neg (by simp [hcut]), if_neg (by simp [hlate])]
  · obtain ⟨t, hout, hgate, hcanals, hindex, hpound, hdo⟩ := doGateSend_eq hx hj hcut
    obtain ⟨hsends, hparts⟩ := foldl_sendParts t.gate.round phase (t.phaseGate phase)
      ((s.neighborsIn x).flatMap fun n => s.linkGroup n) t
    have hcanal : ∀ p, t.canal p = s.canal p := fun p => by rw [State.canal, hcanals, State.canal]
    have hphase : t.phaseGate phase = s.phaseGate phase := by rw [State.phaseGate, hgate, State.phaseGate]
    refine completes_live hl rfl ?_
    rw [hdo]
    generalize ((s.neighborsIn x).flatMap fun n => s.linkGroup n).foldl _ t = u at *
    refine ⟨fun n hn p hp => ?_, hsends.gate.trans hgate, hout ▸ hsends.out⟩
    have h := hparts p (List.mem_flatMap.2 ⟨n, hn, hp⟩)
    unfold State.PartsOut State.phaseFlit at h
    rw [hcanal, hphase, hgate, hindex, hpound] at h
    exact h
  · have hdo := doGateReceive_eq hp hx hf hack
    have hcounts := gateCounts_iff hj hdim hpeer hround hpart
    refine ⟨fun hknown => ?_, fun hpound hnew => ?_, fun hpound => ?_⟩
    · rw [if_neg fun hc => (hcounts.1 hc).2 hknown] at hdo
      exact (doneLive_of_live hl _).trans (by rw [hdo])
    · rw [if_pos (hcounts.2 ⟨hpound, hnew⟩)] at hdo
      exact (doneLive_of_live hl _).trans (by rw [hdo]; rfl)
    · rw [if_neg fun hc => hpound (hcounts.1 hc).1] at hdo
      exact (doneLive_of_live hl _).trans (by rw [hdo])
  · intro x y hx hy
    rw [← mergeCand_some, ← hx, ← hy]
    rfl
  · intro x y hx hy hne
    have h := mergeSetup_some hne
    rw [← hx, ← hy] at h
    exact h
end

section
/-! The SPDM responder and the keys of link encryption (R473, R474). -/

open Sys2Proof Sys2Proof.Machine

namespace Sys2Proof.Machine

/-- The responder's ERROR answer. -/
abbrev SpdmErrs (s : State) (c : Instr) : Prop := exec c s = .next ((s.emit (.spdm 0x7F 0 [])).seal s)

/-- A response of `n` bytes that leaves the host port as it is. -/
abbrev SpdmAnswers (s : State) (c : Instr) (code session n : Nat) : Prop := Completes c s fun u =>
  (∃ bs, u.out = s.out ++ [.spdm code session bs] ∧ bs.length = n) ∧ u.port = s.port

theorem spdmAnswers_of_reply {s : State} {c : Instr} {code session n : Nat} {bs : List Byte}
    (h : exec c s = done s (s.spdmReply code session bs)) (hn : bs.length = n) : SpdmAnswers s c code session n :=
  completes_done h ⟨⟨bs, rfl, hn⟩, rfl⟩

/-- A reply whose bytes the spec leaves free has the length asked for. -/
theorem spdmAnswers_of_free {s : State} {c : Instr} {code session n k : Nat}
    (h : exec c s = done s ((s.spdmFree k n).1.spdmReply code session (s.spdmFree k n).2)) :
    SpdmAnswers s c code session n :=
  completes_done h ⟨⟨(s.spdmFree k n).2, rfl, by simp [State.spdmFree]⟩, rfl⟩

theorem spdmErrs_of_if {s t : State} {c : Instr} {p : Prop} [Decidable p]
    (h : exec c s = done s (if p then s.spdmError else t)) (hp : p) : SpdmErrs s c := by
  rw [if_pos hp] at h
  exact h

theorem exec_of_if {s t e : State} {c : Instr} {p : Prop} [Decidable p] (h : exec c s = done s (if p then e else t))
    (hp : ¬ p) : exec c s = done s t := by rwa [if_neg hp] at h

/-- The first free place of the four sessions. -/
theorem find_session {s : State} {n : Nat} (hn : n < 4) (hfree : sfind? s.port.sessions n = none)
    (hbusy : ∀ j < n, sfind? s.port.sessions j ≠ none) :
    ((List.range 4).find? fun i => (sfind? s.port.sessions i).isNone) = some n := by
  refine List.find?_range_eq_some.2 ⟨by simp [hfree], by simpa using hn, fun j hj => ?_⟩
  simpa [Option.isSome_iff_ne_none] using hbusy j hj

theorem keyExchange_taken {s : State} {n slot : Nat}
    (hf : ((List.range 4).find? fun i => (sfind? s.port.sessions i).isNone) = some n) :
    exec (.keyExchange slot) s = done s (if !s.port.spdmAlgo || slot ≠ 0 then s.spdmError
      else { (s.spdmFree 0x64 96).1 with port := { (s.spdmFree 0x64 96).1.port with
        sessions := sput n 1 (s.spdmFree 0x64 96).1.port.sessions } }.spdmReply 0x64 n (s.spdmFree 0x64 96).2) := by
  change execKeyExchange slot s = _
  simp only [execKeyExchange, hf]

theorem keyExchange_full {s : State} {slot : Nat}
    (hf : ((List.range 4).find? fun i => (sfind? s.port.sessions i).isNone) = none) : SpdmErrs s (.keyExchange slot) := by
  change execKeyExchange slot s = _
  simp only [execKeyExchange, hf]
  rfl

/-- KEY_EXCHANGE ends in ERROR before the algorithms are negotiated and for another slot than 0. -/
theorem keyExchange_refused {s : State} {slot : Nat} (h : s.port.spdmAlgo = false ∨ slot ≠ 0) :
    SpdmErrs s (.keyExchange slot) := by
  cases hf : (List.range 4).find? fun i => (sfind? s.port.sessions i).isNone with
  | none => exact keyExchange_full hf
  | some n => exact spdmErrs_of_if (keyExchange_taken hf) (by simpa using h)

theorem inSession_open {s : State} {c : Instr} {n : Nat} {act : State → State}
    (h : exec c s = done s (s.inSession n act)) (hn : sfind? s.port.sessions n = some 2) :
    exec c s = done s (act s) := by rwa [State.inSession, if_pos hn] at h

theorem inSession_closed {s : State} {c : Instr} {n : Nat} {act : State → State}
    (h : exec c s = done s (s.inSession n act)) (hn : sfind? s.port.sessions n ≠ some 2) : SpdmErrs s c := by
  rw [State.inSession, if_neg hn] at h
  exact h

theorem ioOpened_idle {s : State} (h : s.port.ioOpen = false) : s.ioOpened = s := by simp [State.ioOpened, h]

/-- What the statement asks once the algorithms are negotiated. -/
theorem spdm_negotiated {s : State} (h : s.port.spdmAlgo = true) :
    SpdmAnswers s .getDigests 0x01 0 48 ∧
    (∀ off n, SpdmAnswers s (.getCertificate 0 off n) 0x02 0 n) ∧ (∀ n, SpdmAnswers s (.challenge 0 n) 0x03 0 128) ∧
    (∀ slot, slot ≠ 0 → (∀ off n, SpdmErrs s (.getCertificate slot off n)) ∧ (∀ n, SpdmErrs s (.challenge slot n)) ∧
      SpdmErrs s (.keyExchange slot)) ∧
    (∀ i, 1 ≤ i → i ≤ 3 → (i = 2 → s.boot.fwReady = true) → SpdmAnswers s (.getMeasurements i) 0x60 0 48) ∧
    (s.boot.fwReady = false → SpdmAnswers s (.getMeasurements 2) 0x60 0 0) ∧
    ∀ i, i < 1 ∨ 3 < i → SpdmErrs s (.getMeasurements i) := by
  refine ⟨spdmAnswers_of_free (exec_of_if rfl (by simp [h])), fun off n => ?_, fun n => ?_, fun slot hs => ?_,
    fun i h1 h3 h2 => ?_, fun hf => ?_, fun i hi => ?_⟩
  · exact spdmAnswers_of_reply (exec_of_if rfl (by simp [h])) (by simp)
  · exact spdmAnswers_of_free (exec_of_if rfl (by simp [h]))
  · exact ⟨fun _ _ => spdmErrs_of_if rfl (by simp [hs]), fun _ => spdmErrs_of_if rfl (by simp [hs]),
      keyExchange_refused (.inr hs)⟩
  · have hguard : ¬ ((!s.port.spdmAlgo || decide (i < 1) || decide (3 < i)) = true) := by
      simp only [h, Bool.not_true, Bool.false_or, Bool.or_eq_true, decide_eq_true_eq]
      omega
    exact spdmAnswers_of_reply (exec_of_if (exec_of_if rfl hguard) (by simpa using h2)) (by simp)
  · have hreply : exec (.getMeasurements 2) s = done s (s.spdmReply 0x60 0 []) := by
      change execGetMeasurements 2 s = _
      simp [execGetMeasurements, h, hf]
    exact spdmAnswers_of_reply hreply rfl
  · exact spdmErrs_of_if rfl (by simpa [h] using hi)

/-- FINISH and the requests of session `n`. -/
theorem spdm_session (s : State) (n : Nat) :
    (sfind? s.port.sessions n = some 1 →
      (Completes (.finish n true) s fun u =>
        sfind? u.port.sessions n = some 2 ∧ u.out = s.out ++ [.spdm 0x65 n []]) ∧
      Completes (.finish n false) s fun u =>
        sfind? u.port.sessions n = none ∧ u.out = s.out ++ [.spdm 0x7F 0 []]) ∧
    (∀ ok, sfind? s.port.sessions n ≠ some 1 → SpdmErrs s (.finish n ok)) ∧
    (sfind? s.port.sessions n ≠ some 2 → SpdmErrs s (.heartbeat n) ∧ SpdmErrs s (.keyUpdate n) ∧
      SpdmErrs s (.endSession n) ∧ ∀ m, SpdmErrs s (.ideKeyProgramming n m)) ∧
    (sfind? s.port.sessions n = some 2 →
      SpdmAnswers s (.heartbeat n) 0x68 n 0 ∧ SpdmAnswers s (.keyUpdate n) 0x69 n 0 ∧
      (Completes (.endSession n) s fun u =>
        sfind? u.port.sessions n = none ∧ u.out = s.out ++ [.spdm 0x6C n []]) ∧
      (exec (.ideKeyProgramming n true) s = .next (({ s with port := { s.port with ideMem := 1 } } : State).seal s)) ∧
      (s.port.busMaster = false → exec (.ideKeyProgramming n false) s =
        .next (({ s with port := { s.port with ideIo := 1 } } : State).seal s))) := by
  refine ⟨fun h => ⟨?_, ?_⟩, fun ok h => spdmErrs_of_if rfl h, fun h => ⟨?_, ?_, ?_, fun m => ?_⟩,
    fun h => ⟨?_, ?_, ?_, ?_, fun hb => ?_⟩⟩
  · refine completes_done (exec_of_if rfl (by simp [h])) ⟨?_, rfl⟩
    exact (sfind_sput n 2 s.port.sessions n).trans (if_pos rfl)
  · refine completes_done (exec_of_if rfl (by simp [h])) ⟨?_, rfl⟩
    exact (sfind_sdel n s.port.sessions n).trans (if_pos rfl)
  · exact inSession_closed rfl h
  · exact inSession_closed rfl h
  · exact inSession_closed rfl h
  · exact inSession_closed rfl h
  · exact spdmAnswers_of_reply (inSession_open (act := (·.spdmReply 0x68 n [])) rfl h) rfl
  · exact spdmAnswers_of_reply (inSession_open (act := (·.spdmReply 0x69 n [])) rfl h) rfl
  · refine completes_done (inSession_open rfl h) ⟨?_, rfl⟩
    exact (sfind_sdel n s.port.sessions n).trans (if_pos rfl)
  · exact inSession_open (act := fun s => { s with port := { s.port with ideMem := 1 } }) rfl h
  · refine (inSession_open (act := fun s => ({ s with port := { s.port with ideIo := 1 } } : State).ioOpened) rfl h).trans ?_
    have hshut : HostPort.ioOpen { s.port with ideIo := 1 } = false := by simp [HostPort.ioOpen, hb]
    exact congrArg (done s) (ioOpened_idle hshut)

end Sys2Proof.Machine

/-- Settles O55: each request is its reply or the ERROR answer, by the branch that its premise picks. -/
theorem spdmRequests : Obligations.SpdmRequests := by
  intro s
  refine ⟨completes_done rfl ⟨rfl, rfl, rfl⟩, fun h => ?_, fun h => ?_, fun o hv ho => ?_, fun o ho => ?_, fun h => ?_,
    fun h => ?_, fun h => ?_, spdm_session s⟩
  · have hreply : exec .getCapabilities s = done s (s.spdmReply 0x61 0 []) := congrArg (done s) (if_pos h)
    exact spdmAnswers_of_reply hreply rfl
  · exact ⟨congrArg (done s) (if_neg (by simp [h])), fun o => congrArg (done s) (if_neg (by simp [h]))⟩
  · exact completes_done (congrArg (done s) (if_pos (by simp [hv, ho]))) ⟨rfl, rfl⟩
  · exact congrArg (done s) (if_neg (by simp [ho]))
  · exact ⟨spdmErrs_of_if rfl (by simp [h]), fun _ _ _ => spdmErrs_of_if rfl (by simp [h]),
      fun _ _ => spdmErrs_of_if rfl (by simp [h]), fun _ => spdmErrs_of_if rfl (by simp [h]),
      fun _ => keyExchange_refused (.inl h)⟩
  · obtain ⟨hdigests, hcert, hchallenge, hslot, hmeas, hempty, hindex⟩ := spdm_negotiated h
    refine ⟨hdigests, hcert, hchallenge, hslot, hmeas, hempty, hindex, fun n hn hfree hbusy => ?_⟩
    refine completes_done (exec_of_if (keyExchange_taken (find_session hn hfree hbusy)) (by simp [h]))
      ⟨?_, fun j hj => ?_, ?_⟩
    · exact (sfind_sput n 1 s.port.sessions n).trans (if_pos rfl)
    · exact (sfind_sput n 1 s.port.sessions j).trans (if_neg (Ne.symm hj))
    · exact ⟨(s.spdmFree 0x64 96).2, rfl, by simp [State.spdmFree]⟩
  · refine keyExchange_full (List.find?_eq_none.2 fun i hi => ?_)
    simpa [Option.isSome_iff_ne_none] using h i (List.mem_range.1 hi)
end

section
/-! A fault ring in HDM takes the lockkeepers' reservations of its lines with it (R424, R617). -/

open Sys2Proof Sys2Proof.Machine

namespace Sys2Proof.Machine

/-- A device in service whose fault ring lies in HDM at 0, with every class recorded; lockkeeper 0 holds a reservation
of that line. -/
def reservedRing : State :=
  { ((Tests.base.setReg FLT_CTL 2).setReg FLT_RING_LO 0x41).setReg FLT_RING 0 with lks := [(0, { resv := some 0 })] }

/-- The record of a lockkeeper's watchdog is written at the home of its line, which cancels the reservation. -/
theorem reservedRing_watchdog : (reservedRing.fault (msgOf K_LK_WATCHDOG 6 0)).lks.length = 0 := by decide +kernel

end Sys2Proof.Machine

/-- Refutes O40: a watchdog's record in a fault ring in HDM cancels the reservation that a lockkeeper holds of the
ring's line, so LK_WATCHDOG_EXPIRY does not leave the lockkeepers as they are. -/
theorem not_bringUpCommands : ¬ Obligations.BringUpCommands := by
  intro h
  have hlive : reservedRing.Live := rfl
  obtain ⟨-, -, -, -, -, -, -, -, -, -, -, -, hwatchdog⟩ := h reservedRing hlive
  obtain ⟨u, hu, -, hlks⟩ := hwatchdog 0 rfl
  have hfault : (reservedRing.fault (msgOf K_LK_WATCHDOG 6 0)).seal reservedRing = u :=
    Host.Outcome.next.inj ((doneLive_of_live hlive _).symm.trans hu)
  have hlen : u.lks.length = 0 := hfault ▸ reservedRing_watchdog
  rw [hlks] at hlen
  exact absurd hlen (by decide)
end

section
/-! A fault ring in HDM takes the write-backs that wait on its words with it (R339, R617). -/

open Sys2Proof Sys2Proof.Machine

namespace Sys2Proof.Machine

/-- The device of `reservedRing` whose stack port 0 holds a corrected word of the ring's first entry for write-back. -/
def queuedRing : State :=
  { reservedRing with stk := [(0, { st := .active, writeback := [(0, 0)] }), (1, { st := .active })] }

/-- The entry of the fault that a forced pseudo-channel reports is written over the word, which drops its write-back. -/
theorem queuedRing_pcForce : ((queuedRing.pcForce 0 (putBits 0 31 31 1)).stack 0).writeback = [] := by decide +kernel

end Sys2Proof.Machine

/-- Refutes O48: the record that PC_FORCE makes is written into a fault ring in HDM, where it drops the write-back that
waits on a word of the entry, so the command does not leave the stack ports as they are. -/
theorem not_stackCommands : ¬ Obligations.StackCommands := by
  intro h
  have hlive : queuedRing.Live := rfl
  obtain ⟨-, -, hports⟩ := h queuedRing
  obtain ⟨-, -, -, -, -, -, -, -, -, -, -, -, hport⟩ := hports hlive
  obtain ⟨-, -, -, -, -, -, hforce, -⟩ := hport 0
  obtain ⟨u, hu, -, -, hstk⟩ := hforce 0 rfl (by decide) rfl
  have hpc : (queuedRing.pcForce 0 (putBits 0 31 31 1)).seal queuedRing = u :=
    Host.Outcome.next.inj ((doneLive_of_live hlive _).symm.trans hu)
  have hgone : (u.stack 0).writeback = [] := hpc ▸ queuedRing_pcForce
  rw [State.stack, hstk] at hgone
  exact absurd hgone (by decide)
end

section
/-! A message can lose its place in a full log to the record of the replay that it starts (R605, R610, R616). -/

open Sys2Proof Sys2Proof.Machine

namespace Sys2Proof.Machine

/-- A control error of flight 0 of class TRANSIENT. -/
def controlError : FaultMsg := { unit := 11, inst := 0, kind := K_CONTROL_ERROR, cls := 1 }

/-- 63 records of class FATAL: one slot of the log is free. -/
def nearlyFullLog : SMap FaultRec :=
  (List.range 63).map fun i => (i, { msg := { unit := 0, inst := 0, kind := 0x90, cls := 3 }, pound := 0, off := 0, esc := true, seq := 0 })

/-- A device whose flight 0 replays from a complete snapshot, with the log nearly full; a control error escalates never
and a replay at the first message. -/
def replayAtFullLog : State :=
  { (Tests.base.setReg (FLT_CNT + 4 * K_CONTROL_ERROR) 0).setReg (FLT_CNT + 4 * K_FLIGHT_REPLAY) 1 with
    flt := { log := nearlyFullLog }
    flights := [(0, { st := .running, image := ({} : Ram).write 0x10 [1],
                      areas := [{ pound := 0, replica := false, complete := true, size := 0, bytes := {} }] })] }

/-- The control error's record goes into the last free slot, and the escalated record of its replay replaces it. -/
theorem replayAtFullLog_loses :
    (replayAtFullLog.receiveFault controlError).flt.log.any (fun e => e.2.msg == controlError) = false := by
  decide +kernel

end Sys2Proof.Machine

/-- Refutes O60: with one free slot in the log, the replay that a control error starts is itself reported, and where
that report escalates it takes the slot of the control error's record. -/
theorem not_faultCollector : ¬ Obligations.FaultCollector := by
  intro h
  obtain ⟨hmsg, -⟩ := h replayAtFullLog
  obtain ⟨hlogged, -⟩ := hmsg controlError ⟨by decide +kernel, rfl, rfl⟩ (by decide)
  obtain ⟨u, hu, -, -, -, e, he, hm, -⟩ := hlogged (by decide) (.inr (by decide +kernel))
  have hstep : (replayAtFullLog.receiveFault controlError).seal replayAtFullLog = u := Host.Outcome.next.inj hu
  rw [← hstep] at he
  exact List.any_eq_false.mp replayAtFullLog_loses e he (beq_iff_eq.mpr hm)
end

section
/-! A table of lockkeepers that lists a hart twice: the home's cancelling of reservations (R424) writes the later entry
over the hart, whose store buffer comes back. -/

open Sys2Proof Sys2Proof.Machine

namespace Sys2Proof.Machine

/-- A store of a whole word of an NA page, for address 0. -/
def naStore : SbEntry := { word := 0, host := false, attr := 2, mask := 255, data := 0 }

/-- Hart 0 is listed twice; only the second entry reserves the line of its buffered store. -/
def hartTwice : State :=
  { Tests.base with lks := [(0, { sb := [naStore], sleeping := true }), (0, { sb := [naStore], resv := some 0 })] }

/-- Nothing caches the line and its home is free. -/
theorem hartTwice_plain : hartTwice.Uncached 0 ∧ hartTwice.RoomFor 0 ∧ hartTwice.Backed 0 ∧ hartTwice.CleanLine 0 := by
  decide +kernel

/-- After the drain, the second entry's store buffer stands in the hart's place. -/
theorem hartTwice_drain : (((hartTwice.doDrain 0).pumpDevice 0).lk 0).sb = [naStore] := by decide +kernel

end Sys2Proof.Machine

/-- Refutes O51: in a state whose table lists a hart twice, the cancelling of reservations that an NA store's drain makes
at the home puts the second entry's store buffer back, so the drained entry has not left. -/
theorem not_lockkeeperAccesses : ¬ Obligations.LockkeeperAccesses := by
  intro h
  have hlive : hartTwice.Live := rfl
  obtain ⟨-, -, -, hdrain, -⟩ := h hartTwice 0 0 hlive (by decide)
  obtain ⟨-, -, hmem⟩ := hdrain naStore [] rfl rfl rfl rfl rfl rfl (by decide) rfl (by decide +kernel)
  obtain ⟨u, hu, hsb, -⟩ := hmem hartTwice_plain hartTwice_plain.2.2.1 (by decide)
  have hstep : ((hartTwice.doDrain 0).pumpDevice 0).seal hartTwice = u :=
    Host.Outcome.next.inj ((doneLive_of_live hlive _).symm.trans hu)
  have hback : (u.lk 0).sb = [naStore] := hstep ▸ hartTwice_drain
  exact absurd (hsb.symm.trans hback) (by decide)
end

section
/-! The lines and copies of the caches (R362, R368, R371): what a line of the basin is after each operation on it. -/

open Sys2Proof Sys2Proof.Machine

namespace Sys2Proof.Machine

/-! ### A line found and a line replaced -/

theorem basinLine_key {s : State} {host : Bool} {la : Nat} {l : Line} (h : s.basinLine host la = some l) :
    l.host = host ∧ l.addr = la := by
  have := List.find?_some h
  simpa using this

/-- A change of lines that keeps every key changes the line found alike. -/
theorem basinLine_map {s t : State} (f : Line → Line) (ht : t.basin.lines = s.basin.lines.map f) {host : Bool} {la : Nat}
    (hf : ∀ l, (f l).host = l.host ∧ (f l).addr = l.addr) : t.basinLine host la = (s.basinLine host la).map f := by
  unfold State.basinLine
  rw [ht, List.find?_map]
  congr 2
  funext l
  simp [hf l]

theorem basinLine_of_lines {s t : State} (h : t.basin.lines = s.basin.lines) (host : Bool) (la : Nat) :
    t.basinLine host la = s.basinLine host la := by
  rw [State.basinLine, State.basinLine, h]

theorem basinLine_putLine {s : State} {host : Bool} {la : Nat} {l : Line} (hl : s.basinLine host la = some l) {y : Line}
    (hh : y.host = host) (ha : y.addr = la) : (s.putLine y).basinLine host la = some y := by
  have hmap : (s.putLine y).basinLine host la =
      (s.basinLine host la).map fun x => if x.host == y.host && x.addr == y.addr then y else x := by
    refine basinLine_map _ rfl fun x => ?_
    split
    · next h => simp at h; simp [h]
    · exact ⟨rfl, rfl⟩
  obtain ⟨h1, h2⟩ := basinLine_key hl
  rw [hmap, hl, Option.map_some, if_pos (by simp [h1, h2, hh, ha])]

theorem mCopy_of_copies {s t : State} (h : t.basin.copies = s.basin.copies) (host : Bool) (la : Nat) :
    t.mCopy host la = s.mCopy host la := by
  rw [State.mCopy, State.mCopy, h]

theorem copyOf_of_copies {s t : State} (h : t.basin.copies = s.basin.copies) (agent : Nat) (host : Bool) (la : Nat) :
    t.copyOf agent host la = s.copyOf agent host la := by
  rw [State.copyOf, State.copyOf, h]

/-! ### Recalls (R371, R377) -/

theorem recall_unmodified {s : State} {host : Bool} {la : Nat} (h : s.mCopy host la = none) : s.recall host la = s := by
  rw [State.recall, h]

theorem recall_absent {s : State} {host : Bool} {la : Nat} (h : s.basinLine host la = none) : s.recall host la = s := by
  unfold State.recall
  rw [h]
  cases s.mCopy host la <;> rfl

theorem recallHost_absent {s : State} {host : Bool} {la : Nat} (h : s.basinLine host la = none) :
    s.recallHost host la = s := by
  rw [State.recallHost, h]

theorem recallHost_unshared {s : State} {host : Bool} {la : Nat}
    (h : ∀ l, s.basinLine host la = some l → host = true ∨ 44 ∉ l.presence) : s.recallHost host la = s := by
  unfold State.recallHost
  split
  · next l hl =>
    rcases h l hl with rfl | hp
    · rfl
    · simp [hp]
  · rfl

/-! ### Copies that go (R371, R424, R551) -/

theorem foldl_setLk_fields (es : List (Nat × Lockkeeper)) (s : State) :
    ∃ lks, es.foldl (fun s e => s.setLk e.1 { e.2 with resv := none }) s = { s with lks := lks } := by
  induction es generalizing s with
  | nil => exact ⟨s.lks, rfl⟩
  | cons e es ih =>
    obtain ⟨lks, h⟩ := ih (s.setLk e.1 { e.2 with resv := none })
    exact ⟨lks, h⟩

/-- The cancelling of reservations changes the lockkeepers alone. -/
theorem cancelResv_fields (s : State) (host : Bool) (la : Nat) (keep : Option Nat) :
    ∃ lks, s.cancelResv host la keep = { s with lks := lks } := by
  unfold State.cancelResv
  split
  · exact ⟨s.lks, rfl⟩
  · exact foldl_setLk_fields ..

/-- The line of a basin as the removal of copies leaves it. -/
def Line.dropped (l : Line) (keep : Option Nat) : Line :=
  { l with presence := l.presence.filter fun a => some a = keep ∨ a = 44,
           owner := if l.owner = keep then l.owner else none }

/-- What the removal of a line's copies leaves of the caches. -/
def Basin.dropCopies (b : Basin) (host : Bool) (la : Nat) (keep : Option Nat) : Basin :=
  { b with copies := b.copies.filter fun c => !(c.host == host && c.addr == la && some c.agent ≠ keep)
           lines := b.lines.map fun l => if l.host == host && l.addr == la then l.dropped keep else l }

/-- No copy but `keep`'s is a berth's: no berth sees a snoop. -/
theorem snoopBerths_none {s : State} {host : Bool} {la : Nat} {keep : Option Nat}
    (h : ∀ c ∈ s.basin.copies, host = true ∨ c.host = true ∨ c.addr ≠ la ∨ some c.agent = keep ∨ c.agent < 40) :
    s.snoopBerths host la keep = s := by
  have hnil : (s.basin.copies.filter fun c =>
      !host && !c.host && c.addr == la && some c.agent ≠ keep && decide (40 ≤ c.agent)) = [] := by
    refine List.filter_eq_nil_iff.2 fun c hc => ?_
    rcases h c hc with h | h | h | h | h <;> simp [h]
  rw [State.snoopBerths, hnil]
  rfl

/-- The removal of copies that no berth holds changes the lockkeepers and the caches alone. -/
theorem dropCopies_fields {s : State} {host : Bool} {la : Nat} {keep : Option Nat}
    (h : ∀ c ∈ s.basin.copies, host = true ∨ c.host = true ∨ c.addr ≠ la ∨ some c.agent = keep ∨ c.agent < 40) :
    ∃ lks, s.dropCopies host la keep = { s with lks := lks, basin := s.basin.dropCopies host la keep } := by
  obtain ⟨lks, hlks⟩ := cancelResv_fields s host la keep
  refine ⟨lks, ?_⟩
  unfold State.dropCopies
  rw [hlks, snoopBerths_none (s := { s with lks := lks }) h]
  rfl

theorem dropCopies_host (s : State) (la : Nat) (keep : Option Nat) :
    s.dropCopies true la keep = { s with basin := s.basin.dropCopies true la keep } := by
  unfold State.dropCopies
  rw [snoopBerths_none fun c hc => .inl rfl]
  rfl

theorem basinLine_dropCopies (s : State) (host : Bool) (la : Nat) (keep : Option Nat) :
    (s.dropCopies host la keep).basinLine host la = (s.basinLine host la).map (Line.dropped · keep) := by
  have hlines : (s.dropCopies host la keep).basin.lines =
      s.basin.lines.map fun l => if l.host == host && l.addr == la then l.dropped keep else l := by
    have hsnoop : ((s.cancelResv host la keep).snoopBerths host la keep).basin = s.basin := by
      obtain ⟨lks, h⟩ := cancelResv_fields s host la keep
      rw [h]
      unfold State.snoopBerths
      generalize List.filter _ _ = cs
      suffices ∀ t : State, t.basin = s.basin →
          (cs.foldl (fun s c => s.emit (.berthSnpInv (c.agent - 40) la)) t).basin = s.basin from this _ rfl
      induction cs with
      | nil => exact fun t ht => ht
      | cons c cs ih => exact fun t ht => ih _ ht
    exact congrArg (fun b : Basin =>
      b.lines.map fun l => if l.host == host && l.addr == la then l.dropped keep else l) hsnoop
  rw [basinLine_map _ hlines fun l => by split <;> exact ⟨rfl, rfl⟩]
  cases hl : s.basinLine host la with
  | none => rfl
  | some l =>
    obtain ⟨h1, h2⟩ := basinLine_key hl
    simp [h1, h2]

/-! ### Writes into a line (R335, R371, R409) -/

theorem mergeLine_eq {s : State} {host : Bool} {la : Nat} {l : Line} (hl : s.basinLine host la = some l) (off : Nat)
    (bs : List Byte) (poison dirty : Bool) : s.mergeLine host la off bs poison dirty =
      s.putLine { l with data := putAt l.data off bs, marks := lineMarks l.marks off bs.length poison,
                         dirty := l.dirty || dirty } := by
  rw [State.mergeLine, hl]

theorem bsnInject_off {s : State} (h1 : s.bit CMX_INJ 1 = false) (h2 : s.bit CMX_INJ 2 = false) (host : Bool)
    (la w : Nat) : s.bsnInject host la w = s := by
  simp [State.bsnInject, h1, h2]

/-- An injection changes marks of the line, and the registers that it comes from. -/
theorem bsnInject_line {s : State} {host : Bool} {la : Nat} {l : Line} (hl : s.basinLine host la = some l) (w : Nat) :
    ∃ ms, (s.bsnInject host la w).basinLine host la = some { l with marks := ms } ∧
      (s.bsnInject host la w).port = s.port ∧ (s.bsnInject host la w).basin.held = s.basin.held := by
  unfold State.bsnInject
  split
  · rw [hl]
    obtain ⟨h1, h2⟩ := basinLine_key hl
    exact ⟨_, basinLine_putLine hl h1 h2, rfl, rfl⟩
  · exact ⟨l.marks, hl, rfl, rfl⟩

/-- A write into a line that is present: its bytes are there, and the line is dirty where the write makes it so. -/
theorem bsnWrite_line {s : State} {host : Bool} {la : Nat} {l : Line} (hl : s.basinLine host la = some l) (off : Nat)
    (bs : List Byte) (poison dirty : Bool) : ∃ ms, (s.bsnWrite host la off bs poison dirty).basinLine host la =
        some { l with data := putAt l.data off bs, marks := ms, dirty := l.dirty || dirty } ∧
      (s.bsnWrite host la off bs poison dirty).port = s.port ∧
      (s.bsnWrite host la off bs poison dirty).basin.held = s.basin.held := by
  obtain ⟨h1, h2⟩ := basinLine_key hl
  unfold State.bsnWrite
  rw [mergeLine_eq hl]
  have hput := basinLine_putLine hl (y := { l with data := putAt l.data off bs,
                                                   marks := lineMarks l.marks off bs.length poison
                                                   dirty := l.dirty || dirty }) h1 h2
  exact bsnInject_line hput _

end Sys2Proof.Machine
end

section
/-! The answers of the host (R377, R379, R447, R449, R452 to R459): snoops, completions, timeouts and decoders. -/

open Sys2Proof Sys2Proof.Machine

namespace Sys2Proof.Machine

/-! ### The error reporting of the port (R463, R464) -/

/-- The state with its error reporting replaced. -/
def State.withAer (s : State) (errs hs : List AerErr) (f : Option AerErr) : State :=
  { s with port := { s.port with aer := errs, aerHeaders := hs, aerFirst := f } }

theorem aerSet_withAer (s : State) (e : AerErr) :
    ∃ errs, s.aerSet e = s.withAer errs s.port.aerHeaders s.port.aerFirst ∧ e ∈ errs ∧ ∀ x ∈ s.port.aer, x ∈ errs :=
  ⟨_, rfl, mem_aer_aerSet s e, fun _ hx => mem_aer_aerSet_of_mem e hx⟩

theorem advise_withAer (s : State) (e : AerErr) :
    ∃ errs, s.advise e = s.withAer errs s.port.aerHeaders s.port.aerFirst ∧ ∀ x ∈ s.port.aer, x ∈ errs := by
  unfold State.advise
  split
  · exact ⟨s.port.aer, rfl, fun _ hx => hx⟩
  · obtain ⟨errs, h, -, hmem⟩ := aerSet_withAer s .advisoryNonFatal
    exact ⟨errs, h, hmem⟩

/-- An error sets its status bit and changes the error reporting alone. -/
theorem aer_withAer (s : State) (e : AerErr) (header : Bool) :
    ∃ errs hs f, s.aer e header = s.withAer errs hs f ∧ e ∈ errs := by
  obtain ⟨errs, hset, he, -⟩ := aerSet_withAer s e
  obtain ⟨errs', hadv, hkeep⟩ := advise_withAer (s.withAer errs s.port.aerHeaders s.port.aerFirst) e
  have hlog : ∀ errs, e ∈ errs → ∃ errs' hs f,
      (s.withAer errs s.port.aerHeaders s.port.aerFirst).aerLog e = s.withAer errs' hs f ∧ e ∈ errs' := fun errs he => by
    unfold State.aerLog
    split
    · exact ⟨errs, _, _, rfl, he⟩
    · obtain ⟨errs', h, -, hk⟩ := aerSet_withAer (s.withAer errs s.port.aerHeaders s.port.aerFirst) .headerLogOverflow
      exact ⟨errs', _, _, h, hk e he⟩
  cases header with
  | true =>
    rw [aer_true, hset]
    split
    · rw [hadv]
      exact hlog errs' (hkeep e he)
    · exact hlog errs he
  | false =>
    have hplain : s.aer e false = if e = .poisonedTlp ∨ e = .completionTimeout ∨ e = .unexpectedCompletion then
        (s.aerSet e).advise e else s.aerSet e := rfl
    rw [hplain, hset]
    split
    · exact ⟨errs', _, _, hadv, hkeep e he⟩
    · exact ⟨errs, _, _, rfl, he⟩

theorem mem_insertNat {n x : Nat} {l : List Nat} : x ∈ insertNat n l ↔ x = n ∨ x ∈ l := by
  unfold insertNat
  split
  · next h =>
    have hn : n ∈ l := List.contains_iff_mem.1 h
    exact ⟨.inr, fun h => h.elim (fun h => h ▸ hn) id⟩
  · simp [or_comm]

/-! ### Nothing waits -/

theorem retryHeld_nil {s : State} (h : s.basin.held = []) : s.retryHeld = s := by
  have hbasin : ({ s.basin with held := [] } : Basin) = s.basin := by rw [← h]
  unfold State.retryHeld
  rw [h, hbasin]
  rfl

theorem foldl_fixed {α β : Type} (f : β → α → β) (l : List α) (b : β) (h : ∀ a ∈ l, f b a = b) : l.foldl f b = b := by
  induction l with
  | nil => rfl
  | cons a l ih =>
    rw [List.foldl_cons, h a List.mem_cons_self]
    exact ih fun x hx => h x (List.mem_cons_of_mem _ hx)

theorem settleCopies_none {s : State} (h : s.NoCopies) : s.settleCopies = s := by
  unfold State.settleCopies
  dsimp only
  rw [foldl_fixed _ s.waits s fun w hw => ?_, if_pos rfl]
  obtain ⟨hc, hf⟩ := h w hw
  split
  · next he => exact absurd he (hc _ _ _ _ _)
  · next he => exact absurd he (hf _ _ _ _ _)
  · rfl

theorem pumpReads_none {s : State} (h : s.port.waitingRd = []) : s.pumpReads s.port.waitingRd.length = s := by
  rw [h]
  rfl

theorem flrSettle_idle {s : State} (h : s.port.flrBusy = false) : s.flrSettle = s := by
  simp [State.flrSettle, State.flrReady, h]

/-! ### Back-invalidation responses (R377, R449) -/

/-- A response to no snoop changes nothing. -/
theorem birspDone_none {s : State} {a : Nat} (h : ∀ b ∈ s.port.bisnp, b.1 ≠ lineOf a) (hbias : s.settleBias = s)
    (hsettle : s.resettle = s) (hcopies : s.NoCopies) (data : Option (List Byte)) (gone : Bool) :
    s.birspDone a data gone = s := by
  have hfind : (s.port.bisnp.find? fun b => b.1 == lineOf a) = none :=
    List.find?_eq_none.2 fun b hb => by simpa using h b hb
  have hrsp : s.birsp a data gone = s := by
    unfold State.birsp
    dsimp only
    rw [hfind]
  unfold State.birspDone
  rw [hrsp, hbias]
  dsimp only
  rw [if_pos rfl, settleCopies_none hcopies, hsettle]

theorem setBit44_off {s : State} {la : Nat} {l : Line} (hl : s.basinLine false la = some l) :
    s.setBit44 la false = s.putLine { l with presence := l.presence.filter (· ≠ 44) } := by
  simp [State.setBit44, hl]

/-- The host's snoop of a line answered: no snoop is outstanding. -/
def State.answered (s : State) (a : Nat) (inv gone : Bool) : State :=
  { s with port := { s.port with bisnp := [], curOk := if inv || gone then s.port.curOk else insertNat (lineOf a) s.port.curOk } }

theorem settled_none {s : State} (hheld : s.basin.held = []) (hconf : s.port.conflicts = []) (la : Nat) :
    s.retryHeld.ackConflict la = s := by
  rw [retryHeld_nil hheld, State.ackConflict, hconf]
  rfl

/-- The response to the only outstanding snoop, with no request and no conflict behind it. -/
theorem birsp_single {s : State} {a : Nat} {inv : Bool} (h : s.port.bisnp = [(lineOf a, inv)])
    (data : Option (List Byte)) (gone : Bool) {t : State}
    (ht : data.elim (s.answered a inv gone) ((s.answered a inv gone).takeHostData (lineOf a)) = t) (hth : (if gone then t.setBit44 (lineOf a) false else t).basin.held = [])
    (htc : (if gone then t.setBit44 (lineOf a) false else t).port.conflicts = []) :
    s.birsp a data gone = if gone then t.setBit44 (lineOf a) false else t := by
  have hfind : (s.port.bisnp.find? fun b => b.1 == lineOf a) = some (lineOf a, inv) := by simp [h]
  have hleft : (s.port.bisnp.filter fun b => b.1 ≠ lineOf a) = [] := by simp [h]
  unfold State.birsp
  dsimp only
  rw [hfind]
  dsimp only
  rw [hleft]
  simp only [List.take_nil, List.filter_nil, List.foldl_nil]
  subst ht
  cases data with
  | none => exact settled_none hth htc _
  | some d => exact settled_none hth htc _

/-- What a response to the only snoop leaves, where it takes the host's copy and brings no data. -/
theorem birsp_gone {s : State} {a : Nat} {inv : Bool} {l : Line} (h : s.port.bisnp = [(lineOf a, inv)])
    (hheld : s.basin.held = []) (hconf : s.port.conflicts = []) (hl : s.basinLine false (lineOf a) = some l) :
    s.birsp a none true = (s.answered a inv true).putLine { l with presence := l.presence.filter (· ≠ 44) } := by
  have hbit := setBit44_off (s := s.answered a inv true) hl
  rw [birsp_single (t := s.answered a inv true) h none true rfl (by rw [if_pos rfl, hbit]; exact hheld)
    (by rw [if_pos rfl, hbit]; exact hconf), if_pos rfl, hbit]

theorem birsp_kept {s : State} {a : Nat} {inv : Bool} (h : s.port.bisnp = [(lineOf a, inv)])
    (hheld : s.basin.held = []) (hconf : s.port.conflicts = []) : s.birsp a none false = s.answered a inv false :=
  birsp_single (t := s.answered a inv false) h none false rfl hheld hconf

/-- The host's data is in the line, which is dirty and no longer the host's. -/
theorem birsp_data {s : State} {a : Nat} {inv : Bool} {l : Line} (h : s.port.bisnp = [(lineOf a, inv)])
    (hheld : s.basin.held = []) (hconf : s.port.conflicts = []) (hl : s.basinLine false (lineOf a) = some l)
    {d : List Byte} (hd : d.length = 64) : (s.birsp a (some d) true).port.bisnp = [] ∧
      ∃ y, (s.birsp a (some d) true).basinLine false (lineOf a) = some y ∧ y.data.take 64 = d ∧ y.dirty = true ∧
        44 ∉ y.presence := by
  have hput : putAt (List.replicate 64 (0 : Byte)) 0 (d.take 64) = d := by
    rw [List.take_of_length_le (by omega), putAt, hd]
    simp
  have htake : (s.answered a inv true).takeHostData (lineOf a) d =
      (s.answered a inv true).bsnWrite false (lineOf a) 0 d false true := by
    unfold State.takeHostData
    rw [show (s.answered a inv true).basinLine false (lineOf a) = some l from hl]
    exact congrArg (fun x => (s.answered a inv true).bsnWrite false (lineOf a) 0 x false true) hput
  obtain ⟨ms, hw, hwport, hwheld⟩ := bsnWrite_line (s := s.answered a inv true) hl 0 d false true
  have hbit := setBit44_off hw
  have hrsp := birsp_single (t := (s.answered a inv true).bsnWrite false (lineOf a) 0 d false true) h (some d) true htake
    (by rw [if_pos rfl, hbit]; exact hwheld.trans hheld) (by rw [if_pos rfl, hbit]; exact (congrArg _ hwport).trans hconf)
  rw [hrsp, if_pos rfl, hbit]
  refine ⟨congrArg HostPort.bisnp hwport, _, basinLine_putLine hw (basinLine_key hw).1 (basinLine_key hw).2, ?_,
    Bool.or_true _, by simp⟩
  simp [putAt, hd]

/-! ### Completions and timeouts (R455 to R459) -/

/-- The state without outstanding requests. -/
def State.noReads (s : State) : State := { s with port := { s.port with outstanding := [] } }

/-- The only outstanding request ends: nothing else goes out, and a lockkeeper's request leaves nothing behind. -/
theorem readEnded_single {s : State} {r : IoRead} (hout : s.port.outstanding = [r]) (hrd : s.port.waitingRd = [])
    (hflr : s.port.flrBusy = false) (huser : r.user = .discard ∨ (∃ k, r.user = .lockkeeper k) ∧ s.basin.held = []) :
    s.readEnded r = s.noReads := by
  have hgone : (s.port.outstanding.filter fun x => x.tag ≠ r.tag) = [] := by simp [hout]
  have hlen : s.port.waitingRd.length = 0 := by simp [hrd]
  unfold State.readEnded
  rw [hgone]
  dsimp only
  rw [hlen]
  rcases huser with h | ⟨⟨k, h⟩, hheld⟩ <;> rw [h]
  · exact flrSettle_idle (s := s.noReads) hflr
  · change s.noReads.retryHeld.flrSettle = s.noReads
    rw [retryHeld_nil (s := s.noReads) hheld]
    exact flrSettle_idle hflr

theorem mark_word (m : Ram) (x : Nat) : m.mark (8 * (x / 8)) = m.mark x := by
  simp [Ram.mark]

/-- The marks of a clean store: words that were clean stay so. -/
theorem mark_store_clean {m : Ram} {a x : Nat} {bs : List Byte} (h : m.mark x = 0) : (m.store a bs false).mark x = 0 := by
  have hfold : m.store a bs false = (wordsOf a bs.length).foldl (fun r w => r.setMark (8 * w)
      (if a ≤ 8 * w ∧ 8 * w + 8 ≤ a + bs.length then 0 else if badMark (m.mark (8 * w)) then 3 else 0)) (m.write a bs) := by
    unfold Ram.store
    dsimp only
    congr 1
    funext r w
    repeat' split
    all_goals simp_all
  rw [hfold]
  refine (Ram.mark_foldl_setMark (fun w => if a ≤ 8 * w ∧ 8 * w + 8 ≤ a + bs.length then 0
    else if badMark (m.mark (8 * w)) then 3 else 0) ..).trans ?_
  rw [mark_word, h, Ram.mark_write, h]
  simp [badMark]

/-- The bytes that a completion brought read back without poison. -/
theorem hostBytes_store {s : State} {a : Nat} {bs : List Byte} (h : ∀ i < bs.length, s.host.mark (a + i) = 0) :
    ({ s with host := s.host.store a bs false } : State).hostBytes a bs.length = bs.map fun b => (b, false) := by
  unfold State.hostBytes
  rw [Ram.read_store]
  refine List.ext_getElem (by simp) fun i h1 h2 => ?_
  have hi : i < bs.length := by simpa using h2
  simp [mark_store_clean (h i hi), badMark]

theorem lkDeliver_clean (s : State) (k : Nat) (bs : List Byte) :
    s.lkDeliver k (bs.map fun b => (b, false)) = s.emit (.lkData k (leNat bs)) := by
  simp [State.lkDeliver, anyPoison, bytesOf, Function.comp_def]

/-- The last data of a request from its start on. -/
theorem completion_data (s : State) (r : IoRead) (bs : List Byte) (p : Bool) : s.completion r 0 true (.data bs p) =
    (((if p then s.aer .poisonedTlp true else s).takeData r 0 bs p).lkEnd r).readEnded r := by
  unfold State.completion
  dsimp only
  rw [Bool.true_or, if_pos rfl]

theorem completion_lk {s : State} {r : IoRead} {k : Nat} {bs : List Byte} (hout : s.port.outstanding = [r])
    (hrd : s.port.waitingRd = []) (hflr : s.port.flrBusy = false) (hk : r.user = .lockkeeper k) (hheld : s.basin.held = [])
    (hbs : bs.length = r.want) (hmark : ∀ i < r.want, s.host.mark (r.addr + i) = 0) :
    s.completion r 0 true (.data bs false) =
      (({ s with host := s.host.store r.addr bs false } : State).emit (.lkData k (leNat bs))).noReads := by
  have htake : s.takeData r 0 bs false = { s with host := s.host.store r.addr bs false } := by
    simp [State.takeData, hk, ← hbs]
  have hend : ({ s with host := s.host.store r.addr bs false } : State).lkEnd r =
      ({ s with host := s.host.store r.addr bs false } : State).emit (.lkData k (leNat bs)) := by
    unfold State.lkEnd
    rw [hk, ← hbs, hostBytes_store (hbs ▸ hmark)]
    exact lkDeliver_clean ..
  rw [completion_data, if_neg Bool.false_ne_true, htake, hend]
  exact readEnded_single (s := ({ s with host := s.host.store r.addr bs false } : State).emit (.lkData k (leNat bs)))
    hout hrd hflr (.inr ⟨⟨k, hk⟩, hheld⟩)

theorem completion_discard {s : State} {r : IoRead} (hout : s.port.outstanding = [r])
    (hrd : s.port.waitingRd = []) (hflr : s.port.flrBusy = false) (hd : r.user = .discard) (bs : List Byte) (p : Bool) :
    (s.completion r 0 true (.data bs p)).port.outstanding = [] ∧ (s.completion r 0 true (.data bs p)).host = s.host := by
  have hplain : ∀ t : State, t.port.outstanding = [r] → t.port.waitingRd = [] → t.port.flrBusy = false →
      ((t.takeData r 0 bs p).lkEnd r).readEnded r = t.noReads := fun t h1 h2 h3 => by
    have htake : (t.takeData r 0 bs p).lkEnd r = t := by simp [State.takeData, State.lkEnd, hd]
    rw [htake]
    exact readEnded_single h1 h2 h3 (.inl hd)
  obtain ⟨errs, hs, f, haer, -⟩ := aer_withAer s .poisonedTlp true
  rw [completion_data]
  cases p with
  | true =>
    rw [if_pos rfl, haer, hplain (s.withAer errs hs f) hout hrd hflr]
    exact ⟨rfl, rfl⟩
  | false =>
    rw [if_neg Bool.false_ne_true, hplain s hout hrd hflr]
    exact ⟨rfl, rfl⟩

theorem completion_abort {s : State} {r : IoRead} (hout : s.port.outstanding = [r])
    (hrd : s.port.waitingRd = []) (hflr : s.port.flrBusy = false) (hd : r.user = .discard) :
    s.completion r 0 true .abort = s.noReads := by
  have hnone : (s.cplError r).lkEnd r = s := by simp [State.cplError, State.lkEnd, hd]
  exact (congrArg (State.readEnded · r) hnone).trans (readEnded_single hout hrd hflr (.inl hd))

theorem find_outstanding_none {s : State} {tag : Nat} (h : ∀ r ∈ s.port.outstanding, r.tag ≠ tag) :
    (s.port.outstanding.find? fun x => x.tag == tag) = none :=
  List.find?_eq_none.2 fun r hr => by simpa using h r hr

/-- A completion that nothing waits for ends its tag's quarantine (R459). -/
theorem unexpected_effect {s : State} {tag : Nat} (hrd : s.port.waitingRd = []) (hstale : s.port.stale.contains tag = false) :
    AerErr.unexpectedCompletion ∈ (s.unexpected tag).port.aer ∧ tag ∉ (s.unexpected tag).port.quarantine ∧
      (s.unexpected tag).host = s.host := by
  let t : State := { s with port := { s.port with
    quarantine := s.port.quarantine.filter (· ≠ tag), stale := s.port.stale.filter (· ≠ tag) } }
  obtain ⟨errs, hs, f, haer, hmem⟩ := aer_withAer t .unexpectedCompletion true
  have hrun : s.unexpected tag = t.withAer errs hs f := by
    unfold State.unexpected
    rw [hstale]
    dsimp only
    rw [if_neg Bool.false_ne_true]
    change (t.aer .unexpectedCompletion true).pumpReads _ = _
    rw [haer]
    exact pumpReads_none (s := t.withAer errs hs f) hrd
  rw [hrun]
  exact ⟨hmem, by simp [State.withAer, t], rfl⟩

theorem timeout_lk {s : State} {r : IoRead} {k : Nat} (hout : s.port.outstanding = [r]) (hrd : s.port.waitingRd = [])
    (hflr : s.port.flrBusy = false) (hk : r.user = .lockkeeper k) (hheld : s.basin.held = []) :
    ∃ t, exec (.completionTimeout r.tag) s = doneLive s t ∧ t.port.outstanding = [] ∧ r.tag ∈ t.port.quarantine ∧
      AerErr.completionTimeout ∈ t.port.aer ∧ t.out = s.out ++ [.lkFault k false] := by
  obtain ⟨errs, hs, f, haer, hmem⟩ := aer_withAer s .completionTimeout false
  let t : State := { s.withAer errs hs f with port := { (s.withAer errs hs f).port with
    quarantine := insertNat r.tag s.port.quarantine } }
  have hfind : (s.port.outstanding.find? fun x => x.tag == r.tag) = some r := by simp [hout]
  have htime : t.timedOut r = t.lkTrap k false := by
    unfold State.timedOut
    rw [hk]
  refine ⟨(t.lkTrap k false).noReads, ?_, rfl, mem_insertNat.2 (.inl rfl), hmem, rfl⟩
  rw [← readEnded_single (s := t.lkTrap k false) hout hrd hflr (.inr ⟨⟨k, hk⟩, hheld⟩), ← htime]
  change execCompletionTimeout r.tag s = _
  unfold execCompletionTimeout
  rw [hfind]
  dsimp only
  rw [haer]
  rfl

/-! ### Decoders (R447) -/

theorem decoderCommit_accepts {s : State} {base size skip ways gran : Nat} {lk : Bool} (hd : s.port.decoders.length < 4)
    (hok : decoderOk ways gran = true)
    (hfit : (match s.port.decoders.getLast? with
      | some x => x.dpaEnd
      | none => 0) + skip + size / max 1 ways ≤ s.range1) :
    s.decoderCommit s.port.decoders.length base size skip ways gran lk = { s with port := { s.port with
      decoders := s.port.decoders ++ [{ base := base, size := size, dpa := (match s.port.decoders.getLast? with
                                          | some x => x.dpaEnd
                                          | none => 0) + skip, skip := skip, ways := ways, gran := gran, locked := lk }],
      commitErr := s.port.commitErr.filter (· ≠ s.port.decoders.length) } } := by
  refine if_neg ?_
  rw [hok]
  simp only [ne_eq, not_true_eq_false, Bool.not_true, Bool.false_eq_true, false_or, not_or]
  exact ⟨by omega, Nat.not_lt.2 hfit⟩

theorem decoderCommit_refuses {s : State} {e base size skip ways gran : Nat} {lk : Bool}
    (h : e ≠ s.port.decoders.length ∨ 4 ≤ s.port.decoders.length ∨ decoderOk ways gran = false ∨
      s.range1 < (match s.port.decoders.getLast? with
        | some x => x.dpaEnd
        | none => 0) + skip + size / max 1 ways) :
    s.decoderCommit e base size skip ways gran lk = { s with port := { s.port with
      commitErr := insertNat e s.port.commitErr } } := by
  refine if_pos ?_
  rcases h with h | h | h | h
  · exact .inl h
  · by_cases he : e = s.port.decoders.length
    · exact .inr (.inl (he ▸ h))
    · exact .inl he
  · exact .inr (.inr (.inl (by rw [h]; rfl)))
  · exact .inr (.inr (.inr h))

/-! ### Snoops of host lines (R379, R380) -/

theorem biconflict_free {s : State} {a : Nat} (h : ∀ b ∈ s.port.bisnp, b.1 ≠ lineOf a) :
    exec (.biconflict a) s = .next ((s.emit (.biConflictAck (lineOf a))).seal s) := by
  have hany : (s.port.bisnp.any fun b => b.1 == lineOf a) = false := by
    exact List.any_eq_false.2 fun b hb => by simpa using h b hb
  change done s (if (!(s.port.bisnp.any fun b => b.1 == lineOf a) || _) = true then _ else _) = _
  rw [hany]
  rfl

theorem biconflict_waits {s : State} {a : Nat} (h : ∃ b ∈ s.port.bisnp, b.1 = lineOf a) (hheld : s.basin.held = []) :
    exec (.biconflict a) s = done s { s with port := { s.port with
      conflicts := insertNat (lineOf a) s.port.conflicts } } := by
  have hany : (s.port.bisnp.any fun b => b.1 == lineOf a) = true := by
    obtain ⟨b, hb, he⟩ := h
    exact List.any_eq_true.2 ⟨b, hb, beq_iff_eq.2 he⟩
  change execBiconflict a s = _
  unfold execBiconflict
  dsimp only
  rw [hany, hheld]
  rfl

theorem snoopOwner_host (s : State) (la : Nat) (o : Nat → Nat → Out) : s.snoopOwner true la o = s := by
  unfold State.snoopOwner
  split <;> rfl

/-- The state with every copy of a line shared and clean. -/
def State.sharedCopies (s : State) (la : Nat) : State :=
  { s with basin := { s.basin with copies := s.basin.copies.map fun c =>
      if c.host == true && c.addr == la then { c with st := .s, data := [], poison := 0 } else c } }

theorem applySnp_data {s : State} {la : Nat} (h : s.mCopy true la = none) : s.applySnp true la SNP_DATA =
    match s.basinLine true la with
    | some l => (s.sharedCopies la).putLine { l with owner := none }
    | none => s.sharedCopies la := by
  unfold State.applySnp
  rw [if_neg (by decide), if_pos rfl, snoopOwner_host, recall_unmodified h]
  rfl

theorem answerSnp_line {s : State} {la : Nat} {l : Line} (h : s.basinLine true la = some l) :
    (s.answerSnp la).out = s.out ++ [.snpRsp la (if l.dirty then some l.data else none)] ∧
      (s.answerSnp la).basin = s.basin := by
  unfold State.answerSnp
  rw [h]
  dsimp only
  cases l.dirty <;> exact ⟨rfl, rfl⟩

theorem answerSnp_absent {s : State} {la : Nat} (h : s.basinLine true la = none) :
    s.answerSnp la = s.emit (.snpRsp la none) := by
  rw [State.answerSnp, h]

theorem snpData_absent {s : State} {a : Nat} (hm : s.mCopy true (lineOf a) = none)
    (hl : s.basinLine true (lineOf a) = none) : Completes (.snpData a) s fun u =>
      u.out = s.out ++ [.snpRsp (lineOf a) none] ∧ u.basin.lines = s.basin.lines := by
  refine ⟨((s.sharedCopies (lineOf a)).emit (.snpRsp (lineOf a) none)).seal s, ?_, rfl, rfl⟩
  change execSnpData a s = _
  have hl' : (s.sharedCopies (lineOf a)).basinLine true (lineOf a) = none := hl
  have hl2 : ((s.sharedCopies (lineOf a)).emit (.snpRsp (lineOf a) none)).basinLine true (lineOf a) = none := hl
  unfold execSnpData
  dsimp only
  rw [applySnp_data hm, hl]
  dsimp only
  rw [answerSnp_absent hl', hl2]
  rfl

/-- The line stays, shared and clean, and the host has its data where it was modified. -/
theorem snpData_line {s : State} {a : Nat} {l : Line} (hm : s.mCopy true (lineOf a) = none)
    (hl : s.basinLine true (lineOf a) = some l) : Completes (.snpData a) s fun u =>
      u.out = s.out ++ [.snpRsp (lineOf a) (if l.dirty then some l.data else none)] ∧
      ∃ y, u.basinLine true (lineOf a) = some y ∧ y.dirty = false ∧ y.data = l.data ∧ y.owner = none := by
  obtain ⟨h1, h2⟩ := basinLine_key hl
  have hl1 : ((s.sharedCopies (lineOf a)).putLine { l with owner := none }).basinLine true (lineOf a) =
      some { l with owner := none } := basinLine_putLine (s := s.sharedCopies (lineOf a)) hl h1 h2
  obtain ⟨hout, hbasin⟩ := answerSnp_line hl1
  have hl2 : (((s.sharedCopies (lineOf a)).putLine { l with owner := none }).answerSnp (lineOf a)).basinLine true (lineOf a) =
      some { l with owner := none } := (basinLine_of_lines (congrArg Basin.lines hbasin) ..).trans hl1
  refine completes_done (t := (((s.sharedCopies (lineOf a)).putLine { l with owner := none }).answerSnp (lineOf a)).putLine
      { l with owner := none, dirty := false }) ?_ ?_
  · change execSnpData a s = _
    unfold execSnpData
    dsimp only
    rw [applySnp_data hm, hl]
    dsimp only
    rw [hl2]
  · exact ⟨hout, _, basinLine_putLine hl2 h1 h2, rfl, rfl, rfl⟩

theorem mem_discardLine {s : State} {la : Nat} {c : Copy} (h : c ∈ (s.discardLine true la).basin.copies) :
    c.host = false ∨ c.addr ≠ la := by
  have := (List.mem_filter.1 h).2
  cases hc : c.host <;> simp_all

theorem basinLine_discardLine (s : State) (host : Bool) (la : Nat) : (s.discardLine host la).basinLine host la = none := by
  refine List.find?_eq_none.2 fun l hl => ?_
  have := (List.mem_filter.1 hl).2
  simpa [imp_iff_not_or] using this

/-- The line and its copies go, and the host has its data where it was modified. -/
theorem snpInv_line {s : State} {a : Nat} {l : Line} (hm : s.mCopy true (lineOf a) = none)
    (hl : s.basinLine true (lineOf a) = some l) : Completes (.snpInv a) s fun u =>
      u.out = s.out ++ [.snpRsp (lineOf a) (if l.dirty then some l.data else none)] ∧
      u.basinLine true (lineOf a) = none ∧ ∀ c ∈ u.basin.copies, c.host = false ∨ c.addr ≠ lineOf a := by
  have hdrop : s.applySnp true (lineOf a) SNP_INV = { s with basin := s.basin.dropCopies true (lineOf a) none } := by
    unfold State.applySnp
    rw [if_pos rfl, recall_unmodified hm, dropCopies_host]
  have hl1 : (s.applySnp true (lineOf a) SNP_INV).basinLine true (lineOf a) = some (l.dropped none) := by
    have h := basinLine_dropCopies s true (lineOf a) none
    rw [hl, dropCopies_host] at h
    rw [hdrop]
    exact h
  obtain ⟨hout, -⟩ := answerSnp_line hl1
  refine completes_done (t := ((s.applySnp true (lineOf a) SNP_INV).answerSnp (lineOf a)).discardLine true (lineOf a)) rfl
    ⟨?_, basinLine_discardLine _ true (lineOf a), fun c hc => mem_discardLine hc⟩
  refine (show _ = ((s.applySnp true (lineOf a) SNP_INV).answerSnp (lineOf a)).out from rfl).trans (hout.trans ?_)
  rw [hdrop]
  rfl

theorem latestLine_of_line {s : State} {host : Bool} {la : Nat} {l : Line} (hm : s.mCopy host la = none)
    (hl : s.basinLine host la = some l) : s.latestLine host la = { data := l.data, poison := markMask l.marks } := by
  rw [State.latestLine, hm, hl]

theorem snpCur_line {s : State} {a : Nat} {l : Line} (hm : s.mCopy true (lineOf a) = none)
    (hl : s.basinLine true (lineOf a) = some l) : exec (.snpCur a) s =
      .next ((s.emit (.snpRsp (lineOf a) (if l.dirty then some l.data else none))).seal s) := by
  change execSnpCur a s = _
  unfold execSnpCur
  dsimp only
  rw [latestLine_of_line hm hl, hm, hl]
  rfl

theorem snpCur_absent {s : State} {a : Nat} (hm : s.mCopy true (lineOf a) = none)
    (hl : s.basinLine true (lineOf a) = none) : exec (.snpCur a) s =
      .next ((s.emit (.snpRsp (lineOf a) none)).seal s) := by
  change execSnpCur a s = _
  unfold execSnpCur
  dsimp only
  rw [hm, hl]
  rfl

/-! ### The host's data for a host line (R452) -/

theorem hostResponse_data {s : State} {a : Nat} {bs : List Byte} (hbs : bs.length = 64) (poison : Bool) :
    Completes (.cxlCacheHostResponse a (some bs) poison) s fun u =>
      u.host.read (lineOf a) 64 = bs ∧
      (∀ x, x < lineOf a ∨ lineOf a + 64 ≤ x → u.host.byte x = s.host.byte x) ∧
      ∀ l, s.basinLine true (lineOf a) = some l → l.dirty = false → l.owner = none →
        ∃ y, u.basinLine true (lineOf a) = some y ∧ y.data.take 64 = bs := by
  let t : State := { s with host := s.host.store (lineOf a) bs poison }
  have hread : (s.host.store (lineOf a) bs poison).read (lineOf a) 64 = bs := hbs ▸ Ram.read_store ..
  have hbyte : ∀ x, x < lineOf a ∨ lineOf a + 64 ≤ x →
      (s.host.store (lineOf a) bs poison).byte x = s.host.byte x := fun x hx => by
    rw [Ram.byte_store, if_neg (by omega)]
  have htake : bs.take 64 = bs := List.take_of_length_le (by omega)
  have hexec : exec (.cxlCacheHostResponse a (some bs) poison) s = done s (match t.basinLine true (lineOf a) with
      | some l =>
        if l.dirty || l.owner.isSome then t
        else t.putLine { l with data := putAt l.data 0 bs
                                marks := if poison then (List.range 8).map fun i => (i, 3) else [] }
      | none => t) := by
    change execCxlCacheHostResponse a (some bs) poison s = _
    unfold execCxlCacheHostResponse
    dsimp only
    rw [htake] <;> rfl
  refine ⟨_, hexec, ?_⟩
  cases hl : s.basinLine true (lineOf a) with
  | none =>
    rw [show t.basinLine true (lineOf a) = none from hl]
    exact ⟨hread, hbyte, fun l h => nomatch h⟩
  | some l =>
    rw [show t.basinLine true (lineOf a) = some l from hl]
    dsimp only
    split
    · next h =>
      refine ⟨hread, hbyte, fun l' h' hd ho => ?_⟩
      cases h'
      simp [hd, ho] at h
    · obtain ⟨h1, h2⟩ := basinLine_key hl
      refine ⟨hread, hbyte, fun l' h' hd ho => ?_⟩
      exact ⟨_, basinLine_putLine (s := t) hl h1 h2, by simp [putAt, hbs]⟩

end Sys2Proof.Machine

/-- Settles O53: a response, a completion or a timeout acts on the one snoop or request that it answers; a decoder is
committed in order; a snoop of the host finds the line in the basin or answers that there is none. -/
theorem hostResponses : Obligations.HostResponses := by
  unfold Obligations.HostResponses
  intro s a
  refine ⟨fun hlive => ⟨fun data hno hbias hsettle hcopies => ?_, fun l inv hone hheld hconf hl => ?_,
    fun tag r hout htag hgot hrd hflr => ?_, fun tag off last c hno hrd => ⟨fun hstale => ?_, ?_⟩⟩,
    fun tag hrd => ?_, fun base size skip ways gran lk => ⟨fun hd hok hfit => ?_, fun e he => ?_⟩,
    fun hno => biconflict_free hno, fun hone hheld => ?_, fun hm => ⟨fun hl => ⟨snpData_absent hm hl, snpCur_absent hm hl⟩,
      fun l hl => ⟨snpData_line hm hl, snpInv_line hm hl, snpCur_line hm hl⟩⟩, fun poison => rfl,
    fun bs poison hbs => hostResponse_data hbs poison⟩
  · have hdone : ∀ gone, doneLive s (s.birspDone a data gone) = .next (s.seal s) := fun gone => by
      rw [birspDone_none hno hbias hsettle hcopies, doneLive_of_live hlive]
    exact ⟨hdone true, hdone false, hdone false⟩
  · refine ⟨fun h => completes_live hlive rfl ?_, fun d hd h => completes_live hlive rfl ?_,
      fun h => ⟨completes_live hlive rfl ?_, completes_live hlive rfl ?_⟩⟩
    · obtain ⟨h1, h2⟩ := basinLine_key hl
      rw [h, birsp_gone hone hheld hconf hl]
      exact ⟨rfl, basinLine_putLine (s := s.answered a inv true) hl h1 h2⟩
    · rw [h]
      exact birsp_data hone hheld hconf hl hd
    all_goals
      rw [h, birsp_kept hone hheld hconf]
      exact ⟨rfl, rfl⟩
  · subst htag
    have hfind : (s.port.outstanding.find? fun x => x.tag == r.tag) = some r := by simp [hout]
    have hexec : ∀ c, exec (.completionReceive r.tag 0 true c) s = doneLive s (s.completion r 0 true c) := fun c => by
      change doneLive s (match s.port.outstanding.find? fun x => x.tag == r.tag with
        | some q => s.completion q 0 true c
        | none => s.unexpected r.tag) = _
      rw [hfind]
    refine ⟨fun bs k hk hbs hwant hheld hmark => completes_live hlive (hexec _) ?_, fun k hk hheld => ?_,
      fun hd bs p => completes_live hlive (hexec _) (completion_discard hout hrd hflr hd bs p),
      fun hd => completes_live hlive (hexec _) ?_⟩
    · rw [completion_lk hout hrd hflr hk hheld hbs hmark]
      refine ⟨hbs ▸ Ram.read_store .., rfl, rfl, fun x hx => ?_⟩
      refine (Ram.byte_store s.host r.addr bs false x).trans (if_neg (by omega))
    · obtain ⟨t, ht, h1, h2, h3, h4⟩ := timeout_lk hout hrd hflr hk hheld
      exact completes_live hlive ht ⟨h1, h2, h3, h4⟩
    · rw [completion_abort hout hrd hflr hd]
      exact ⟨rfl, rfl, rfl⟩
  · refine completes_live hlive ?_ (unexpected_effect hrd hstale)
    change doneLive s (match s.port.outstanding.find? fun x => x.tag == tag with
      | some q => s.completion q off last c
      | none => s.unexpected tag) = _
    rw [find_outstanding_none hno]
  · change execCompletionTimeout tag s = _
    unfold execCompletionTimeout
    rw [find_outstanding_none hno]
    exact doneLive_of_live hlive s
  · refine completes_done (t := { s with port := { s.port with
      quarantine := s.port.quarantine.filter (· ≠ tag), stale := s.port.stale.filter (· ≠ tag) } }) ?_ ?_
    · exact congrArg (done s) (pumpReads_none (s := { s with port := { s.port with
        quarantine := s.port.quarantine.filter (· ≠ tag), stale := s.port.stale.filter (· ≠ tag) } }) hrd)
    · exact ⟨by simp, fun t ht => by simp [ht], rfl⟩
  · refine completes_done (congrArg (done s) (decoderCommit_accepts hd hok hfit)) ⟨rfl, ?_⟩
    simp
  · exact completes_done (congrArg (done s) (decoderCommit_refuses he)) ⟨rfl, mem_insertNat.2 (.inl rfl)⟩
  · exact completes_done (biconflict_waits hone hheld) ⟨mem_insertNat.2 (.inl rfl), rfl⟩
end

section
/-! What a fault message leaves (R599 to R617): the registers that it may write, the log, and everything that it keeps. -/

open Sys2Proof Sys2Proof.Machine

namespace Sys2Proof.Machine

/-! ### The view that every fault message keeps -/

/-- The registers that a fault message may write: the collector's, IRQ_PEND, and STK_ERR and STK_INJ of a stack port. -/
def faultReg (o : Nat) : Bool :=
  o == FLT_LOG_OVF || o == FLT_RING_LOST || o == FLT_STAT || o == IRQ_PEND ||
    (decide (STK ≤ o) && (o % 0x100 == 0x34 || o % 0x100 == 0x38))

/-- What a fault message keeps besides the units of `State.Kept`. -/
structure FaultView where
  regs    : Nat → Reg
  pins    : Pins
  temps   : Nat → Nat
  transit : List QFlit
  cut     : Bool
  basin   : Basin
  port    : HostPort

/-- The fault view of a state. -/
def State.faultView (s : State) : FaultView :=
  { regs := fun o => if faultReg o then 0 else s.reg o
    pins := { s.pins with pulse := false }
    temps := fun n => (s.stack n).temp
    transit := s.transit
    cut := s.gate.cut
    basin := { s.basin with lines := [], copies := [] }
    port := { s.port with pendingVec := [], waitingVec := [], waitingWr := [], bisnp := [] } }

/-- The fault view with the log. -/
def State.stillView (s : State) : FaultView × SMap FaultRec := (s.faultView, s.flt.log)

section
variable (s : State)

theorem stillView_ite (p : Prop) [Decidable p] (a b : State) :
    (if p then a else b).stillView = if p then a.stillView else b.stillView := apply_ite ..

theorem stillView_fst_ite {β : Type} (p : Prop) [Decidable p] (a b : State × β) :
    (if p then a else b).1.stillView = if p then a.1.stillView else b.1.stillView := by split <;> rfl

theorem foldl_stillView {α : Type} {f : State → α → State} (hf : ∀ t a, (f t a).stillView = t.stillView) (l : List α) :
    (l.foldl f s).stillView = s.stillView := by
  induction l generalizing s with
  | nil => rfl
  | cons a l ih => exact (ih _).trans (hf s a)

theorem setReg_faultView {o : Nat} (h : faultReg o = true) (v : Reg) : (s.setReg o v).faultView = s.faultView := by
  have hr : (fun j => if faultReg j then 0 else (s.setReg o v).reg j) = fun j => if faultReg j then 0 else s.reg j := by
    funext j
    rw [State.reg_setReg]
    by_cases hj : o = j
    · simp [← hj, h]
    · simp [hj]
  simp only [State.faultView, hr]
  rfl

theorem setReg_stillView {o : Nat} (h : faultReg o = true) (v : Reg) : (s.setReg o v).stillView = s.stillView :=
  Prod.ext (setReg_faultView s h v) rfl

theorem setBit_stillView {o : Nat} (h : faultReg o = true) (i : Nat) (b : Bool) :
    (s.setBit o i b).stillView = s.stillView := setReg_stillView s h _

theorem bump_stillView {o : Nat} (h : faultReg o = true) : (s.bump o).stillView = s.stillView := by
  simp only [State.bump, stillView_ite, setReg_stillView s h, ite_self]

/-! #### Parts of the state, tags and interrupts -/

theorem order_stillView (f : Gate → Gate) : (s.order f).stillView = s.stillView := by
  unfold State.order
  split
  · rfl
  · rfl

theorem setFlight_stillView (k : Nat) (x : Flight) : (s.setFlight k x).stillView = s.stillView := rfl

theorem modFlight_stillView (k : Nat) (f : Flight → Flight) : (s.modFlight k f).stillView = s.stillView := rfl

theorem modStack_stillView (p : Nat) {f : Stack → Stack} (hf : ∀ k, (f k).temp = k.temp) :
    (s.modStack p f).stillView = s.stillView := by
  have ht : (fun n => ((s.modStack p f).stack n).temp) = fun n => (s.stack n).temp := by
    funext n
    rw [State.stack, State.modStack, State.setStack, sget_sset]
    split
    · next h => rw [hf, h]
    · rfl
  unfold State.stillView State.faultView
  rw [ht]
  rfl

theorem setLk_stillView (k : Nat) (x : Lockkeeper) : (s.setLk k x).stillView = s.stillView := rfl

theorem emit_stillView (o : Out) : (s.emit o).stillView = s.stillView := rfl

theorem holdSlot_stillView (k : Nat) : (s.holdSlot k).stillView = s.stillView := by
  simp only [State.holdSlot, State.holdTag, State.orderTag, order_stillView]

theorem ownFaultBit_stillView : s.ownFaultBit.stillView = s.stillView := by
  simp only [State.ownFaultBit, order_stillView]

theorem musterOnce_stillView (tag bid : Nat) : (s.musterOnce tag bid).stillView = s.stillView := by
  unfold State.musterOnce
  split
  · rfl
  · rfl

theorem sendVec_stillView (v : Nat) : (s.sendVec v).stillView = s.stillView := by
  unfold State.sendVec
  dsimp only
  repeat' split
  all_goals rfl

theorem irq_stillView (n : Nat) : (s.irq n).stillView = s.stillView := by
  simp only [State.irq, setBit_stillView _ (o := IRQ_PEND) (by decide), sendVec_stillView, stillView_ite, ite_self]

/-! #### Lines, copies and snoops of a ring write (R617) -/

theorem cancelResv_stillView (host : Bool) (la : Nat) (keep : Option Nat) :
    (s.cancelResv host la keep).stillView = s.stillView := by
  obtain ⟨lks, h⟩ := cancelResv_fields s host la keep
  rw [h]
  rfl

theorem dropCopies_stillView (host : Bool) (la : Nat) (keep : Option Nat) :
    (s.dropCopies host la keep).stillView = s.stillView := by
  have hsnoop : ((s.cancelResv host la keep).snoopBerths host la keep).stillView = s.stillView :=
    (foldl_stillView _ (fun _ _ => emit_stillView ..) _).trans (cancelResv_stillView ..)
  refine Eq.trans ?_ hsnoop
  rfl

theorem putLine_stillView (l : Line) : (s.putLine l).stillView = s.stillView := rfl

theorem hostWrite_stillView (a : Nat) (bs : List Byte) (poison : Bool) :
    (s.hostWrite a bs poison).stillView = s.stillView := by
  unfold State.hostWrite
  split
  · rfl
  · rfl

theorem mergeLine_stillView (host : Bool) (la off : Nat) (bs : List Byte) (poison dirty : Bool) :
    (s.mergeLine host la off bs poison dirty).stillView = s.stillView := by
  unfold State.mergeLine
  split
  · rfl
  · rfl

theorem recall_stillView (host : Bool) (la : Nat) : (s.recall host la).stillView = s.stillView := by
  unfold State.recall
  split
  · rfl
  · rfl

theorem snoopHost_stillView (la : Nat) (inv : Bool) : (s.snoopHost la inv).stillView = s.stillView := by
  unfold State.snoopHost
  dsimp only
  repeat' split
  all_goals rfl

theorem recallHost_stillView (host : Bool) (la : Nat) : (s.recallHost host la).stillView = s.stillView := by
  unfold State.recallHost
  split <;> simp only [snoopHost_stillView, stillView_ite, ite_self]

theorem faultReg_stk (p : Nat) {off : Nat} (h : off = 0x34 ∨ off = 0x38) : faultReg (stkReg p off) = true := by
  have hmod : (stkReg p off) % 0x100 = off := by unfold stkReg STK; omega
  have hle : STK ≤ stkReg p off := by unfold stkReg; omega
  rcases h with rfl | rfl <;> simp [faultReg, hmod, hle]

theorem stkErr_stillView (dpa bit : Nat) : (s.stkErr dpa bit).stillView = s.stillView := by
  unfold State.stkErr
  split
  · exact setBit_stillView s (faultReg_stk _ (.inl rfl)) ..
  · rfl

theorem dropWriteback_stillView (dpa : Nat) : (s.dropWriteback dpa).stillView = s.stillView := by
  unfold State.dropWriteback
  split
  · exact modStack_stillView s _ fun _ => rfl
  · rfl

theorem wholeMark_stillView (port : Nat) (poison : Bool) : (s.wholeMark port poison).1.stillView = s.stillView := by
  have hinj (t : State) (i : Nat) (b : Bool) : (t.setBit (stkReg port 0x38) i b).stillView = t.stillView :=
    setBit_stillView t (faultReg_stk _ (.inr rfl)) ..
  simp only [State.wholeMark, hinj, stillView_fst_ite, ite_self]

theorem hdm_stillView (m : Ram) : ({ s with hdm := m } : State).stillView = s.stillView := rfl

theorem quietStore_stillView (a : Nat) (bs : List Byte) : (s.quietStore a bs).stillView = s.stillView := by
  unfold State.quietStore
  split
  · refine foldl_stillView s (fun t w => ?_) _
    dsimp only
    split
    · rfl
    · exact (hdm_stillView _ _).trans ((wholeMark_stillView ..).trans (dropWriteback_stillView ..))
  · exact stkErr_stillView ..
  · exact stkErr_stillView ..
  · exact stkErr_stillView ..
  · rfl

theorem flagWrite_stillView (host : Bool) (a : Nat) (bs : List Byte) :
    (s.flagWrite host a bs).stillView = s.stillView := by
  unfold State.flagWrite
  split
  · exact hostWrite_stillView ..
  · refine foldl_stillView s (fun t la => ?_) _
    dsimp only
    split <;> simp only [mergeLine_stillView, quietStore_stillView, dropCopies_stillView, recall_stillView,
      recallHost_stillView]

/-! #### The record and the reactions (R599 to R617) -/

theorem flt_stillView {f : Collector} (h : f.log = s.flt.log) : ({ s with flt := f } : State).stillView = s.stillView := by
  rw [State.stillView, State.stillView, ← h]
  rfl

theorem fatalFlight_stillView (k status : Nat) : (s.fatalFlight k status).stillView = s.stillView := by
  simp only [State.fatalFlight, modFlight_stillView, holdSlot_stillView, stillView_ite, ite_self]

theorem react_stillView (r : Reaction) : (s.react r).stillView = s.stillView := by
  unfold State.react
  dsimp only
  split
  · rfl
  · rfl

theorem retireBound_stillView (m : FaultMsg) : (s.retireBound m).stillView = s.stillView := by
  unfold State.retireBound
  dsimp only
  split <;> simp only [react_stillView, holdSlot_stillView, musterOnce_stillView, fatalFlight_stillView, stillView_ite,
    ite_self]

theorem retire_stillView (m : FaultMsg) : (s.retire m).stillView = s.stillView := by
  unfold State.retire
  split
  case h_5 => split <;> simp only [react_stillView]
  all_goals simp only [react_stillView, ownFaultBit_stillView, retireBound_stillView, stillView_ite, ite_self]

theorem haltFault_stillView : s.haltFault.stillView = s.stillView := by
  simp only [State.haltFault, react_stillView, ownFaultBit_stillView]
  rfl

theorem reactFatal_stillView (m : FaultMsg) : (s.reactFatal m).stillView = s.stillView := by
  unfold State.reactFatal
  split
  · split <;> simp only [fatalFlight_stillView]
  · split <;> simp only [fatalFlight_stillView]
  · exact foldl_stillView s (fun _ _ => fatalFlight_stillView ..) _
  · rfl
  · exact haltFault_stillView s

theorem replayFlight_stillView (k : Nat) : (s.replayFlight k).1.stillView = s.stillView := by
  simp only [State.replayFlight, fatalFlight_stillView, holdSlot_stillView, musterOnce_stillView, stillView_fst_ite,
    ite_self]

/-- The reaction to a message changes neither the fault view nor the log. -/
theorem reactClass_stillView (m : FaultMsg) (cls : Nat) : (s.reactClass m cls).1.stillView = s.stillView := by
  unfold State.reactClass
  split
  · split
    · split <;> simp only [replayFlight_stillView]
    · rfl
  all_goals simp only [retire_stillView, reactFatal_stillView]

theorem countFault_stillView (m : FaultMsg) : (s.countFault m).1.stillView = s.stillView := by
  unfold State.countFault
  dsimp only
  split
  · rfl
  · dsimp only
    split
    · exact setBit_stillView _ (o := FLT_STAT) (by decide) ..
    · rfl

/-- The ring's part of a record changes neither the fault view nor the log. -/
theorem ringRecord_stillView (m : FaultMsg) (esc : Bool) : (s.ringRecord m esc).1.stillView = s.stillView := by
  unfold State.ringRecord
  split
  · rfl
  · dsimp only
    split
    · exact bump_stillView s (o := FLT_RING_LOST) (by decide)
    · exact (flt_stillView _ rfl).trans (flagWrite_stillView ..)

theorem logRecord_faultView (m : FaultMsg) (esc : Bool) : (s.logRecord m esc).1.faultView = s.faultView := by
  unfold State.logRecord
  split
  · exact congrArg Prod.fst (bump_stillView s (o := FLT_LOG_OVF) (by decide))
  · dsimp only
    refine Eq.trans (b := (if (freeSlot s.flt.log).isNone then s.bump FLT_LOG_OVF else s).faultView) rfl ?_
    split
    · exact congrArg Prod.fst (bump_stillView s (o := FLT_LOG_OVF) (by decide))
    · rfl

/-- Past the log, a record changes neither the fault view nor the log. -/
theorem recordFault_stillView (m : FaultMsg) (esc : Bool) :
    (s.recordFault m esc).stillView = (s.logRecord m esc).1.stillView := by
  have hstat (t : State) : (t.setBit FLT_STAT m.cls true).stillView = t.stillView := setBit_stillView t (by decide) ..
  have hpin (t : State) : (if t.bit FLT_PIN 0 && t.bit FLT_PIN (8 + m.cls) then
      ({ t with pins := { t.pins with pulse := true } } : State) else t).stillView = t.stillView := by
    split <;> rfl
  refine (hpin _).trans ?_
  simp only [hstat, irq_stillView, ringRecord_stillView, stillView_ite, ite_self]

/-- One message at the collector is recorded and counted; nothing else of the fault view changes. -/
theorem collect_stillView (m : FaultMsg) : (s.collect m).1.stillView =
    ((s.countFault m).1.recordFault { m with cls := if (s.countFault m).2 then max m.cls (escClass m) else m.cls }
      (s.countFault m).2).stillView := by
  unfold State.collect
  dsimp only
  split
  · exact reactClass_stillView ..
  · split
    · exact (reactClass_stillView ..).trans (reactClass_stillView ..)
    · exact reactClass_stillView ..

theorem collect_faultView (m : FaultMsg) : (s.collect m).1.faultView = s.faultView := by
  refine (congrArg Prod.fst (collect_stillView s m)).trans ?_
  refine (congrArg Prod.fst (recordFault_stillView ..)).trans ?_
  exact (logRecord_faultView ..).trans (congrArg Prod.fst (countFault_stillView s m))

/-- A fault message keeps the fault view. -/
theorem fault_faultView (m : FaultMsg) : (s.fault m).faultView = s.faultView := by
  unfold State.fault
  dsimp only
  generalize (s.collect m).2 = ms
  have hfold : ∀ t : State, (ms.foldl (fun s m => (s.collect m).1) t).faultView = t.faultView := by
    induction ms with
    | nil => exact fun t => rfl
    | cons a ms ih => exact fun t => (ih _).trans (collect_faultView t a)
  exact (hfold _).trans (collect_faultView s m)

end

/-! ### What follows from the view -/

theorem fault_reg (s : State) (m : FaultMsg) {o : Nat} (h : faultReg o = false) : (s.fault m).reg o = s.reg o := by
  have := congrFun (congrArg FaultView.regs (fault_faultView s m)) o
  simpa [State.faultView, h] using this

theorem fault_bit (s : State) (m : FaultMsg) {o : Nat} (h : faultReg o = false) (i : Nat) :
    (s.fault m).bit o i = s.bit o i := by
  rw [State.bit, fault_reg s m h, State.bit]

theorem fault_fld (s : State) (m : FaultMsg) {o : Nat} (h : faultReg o = false) (hi lo : Nat) :
    (s.fault m).fld o hi lo = s.fld o hi lo := by
  rw [State.fld, fault_reg s m h, State.fld]

theorem fault_pins (s : State) (m : FaultMsg) :
    ({ (s.fault m).pins with pulse := false } : Pins) = { s.pins with pulse := false } :=
  congrArg FaultView.pins (fault_faultView s m)

theorem fault_temp (s : State) (m : FaultMsg) (n : Nat) : ((s.fault m).stack n).temp = (s.stack n).temp :=
  congrFun (congrArg FaultView.temps (fault_faultView s m)) n

theorem fault_transit (s : State) (m : FaultMsg) : (s.fault m).transit = s.transit :=
  congrArg FaultView.transit (fault_faultView s m)

theorem fault_cut (s : State) (m : FaultMsg) : (s.fault m).gate.cut = s.gate.cut :=
  congrArg FaultView.cut (fault_faultView s m)

theorem fault_basin (s : State) (m : FaultMsg) : ({ (s.fault m).basin with lines := [], copies := [] } : Basin) =
    { s.basin with lines := [], copies := [] } := congrArg FaultView.basin (fault_faultView s m)

theorem fault_port (s : State) (m : FaultMsg) :
    ({ (s.fault m).port with pendingVec := [], waitingVec := [], waitingWr := [], bisnp := [] } : HostPort) =
      { s.port with pendingVec := [], waitingVec := [], waitingWr := [], bisnp := [] } :=
  congrArg FaultView.port (fault_faultView s m)

/-! ### The record in the log -/

/-- The message sends no other one: it is no control error or overrun of class TRANSIENT (R605). -/
def MsgAlone (m : FaultMsg) : Prop := m.cls ≠ 1 ∨ m.kind ≠ K_CONTROL_ERROR ∧ m.kind ≠ K_OVERRUN

theorem reactClass_alone (s : State) {m : FaultMsg} {cls : Nat}
    (h : cls ≠ 1 ∨ m.kind ≠ K_CONTROL_ERROR ∧ m.kind ≠ K_OVERRUN) : (s.reactClass m cls).2 = [] := by
  unfold State.reactClass
  split
  · obtain ⟨h1, h2⟩ := h.resolve_left (by simp)
    rw [if_neg (by simp [h1, h2])]
  all_goals rfl

theorem escClass_ne_one (m : FaultMsg) : escClass m ≠ 1 := by
  unfold escClass
  split <;> decide

theorem collect_alone (s : State) {m : FaultMsg} (h : MsgAlone m) : (s.collect m).2 = [] := by
  unfold State.collect
  dsimp only
  split
  · exact reactClass_alone _ (.inl (escClass_ne_one m))
  · split
    · rw [reactClass_alone _ h, reactClass_alone _ (.inl (escClass_ne_one m))]
      rfl
    · exact reactClass_alone _ h

theorem fault_alone (s : State) {m : FaultMsg} (h : MsgAlone m) : s.fault m = (s.collect m).1 := by
  rw [State.fault, collect_alone s h]
  rfl

theorem logRecord_log {s : State} (hroom : s.LogRoom) (m : FaultMsg) (esc : Bool) : ∃ i seq,
    (s.logRecord m esc).1.flt.log =
      sput i { msg := m, pound := s.poundNow, off := s.offsetNow, esc := esc, seq := seq } s.flt.log := by
  obtain ⟨i, hi⟩ := Option.isSome_iff_exists.1 hroom
  refine ⟨i, s.flt.nextSeq, ?_⟩
  unfold State.logRecord logPlace
  rw [hi]
  rfl

theorem countFault_log (s : State) (m : FaultMsg) : (s.countFault m).1.flt.log = s.flt.log :=
  congrArg Prod.snd (countFault_stillView s m)

/-- A message that sends no other one is in the log, where that has room. -/
theorem fault_log {s : State} (hroom : s.LogRoom) {m : FaultMsg} (h : MsgAlone m) : ∃ i r, r.msg =
    { m with cls := if (s.countFault m).2 then max m.cls (escClass m) else m.cls } ∧ (s.fault m).flt.log = sput i r s.flt.log := by
  have hlog := congrArg Prod.snd (collect_stillView s m)
  have hrec := hlog.trans (congrArg Prod.snd (recordFault_stillView ..))
  have hcount := countFault_log s m
  rw [fault_alone s h]
  obtain ⟨i, seq, hput⟩ := logRecord_log (s := (s.countFault m).1) (by rw [State.LogRoom, hcount]; exact hroom)
    { m with cls := if (s.countFault m).2 then max m.cls (escClass m) else m.cls } (s.countFault m).2
  exact ⟨i, { msg := { m with cls := if (s.countFault m).2 then max m.cls (escClass m) else m.cls }, .. }, rfl, hrec.trans (hput.trans (by rw [hcount]))⟩

theorem logged_of_sput {t : State} {i : Nat} {r : FaultRec} {log : SMap FaultRec} (h : t.flt.log = sput i r log) :
    t.Logged r.msg.kind r.msg.unit r.msg.inst := ⟨(i, r), h ▸ mem_sput_self i r log, rfl, rfl, rfl⟩

theorem fault_logged {s : State} (hroom : s.LogRoom) {m : FaultMsg} (h : MsgAlone m) :
    (s.fault m).Logged m.kind m.unit m.inst := by
  obtain ⟨i, r, hr, hlog⟩ := fault_log hroom h
  have := logged_of_sput hlog
  rwa [hr] at this

/-! ### What a record leaves of the collector -/

section
variable (s : State)

theorem foldl_flt {α : Type} {f : State → α → State} (hf : ∀ t a, (f t a).flt = t.flt) (l : List α) :
    (l.foldl f s).flt = s.flt := by
  induction l generalizing s with
  | nil => rfl
  | cons a l ih => exact (ih _).trans (hf s a)

theorem dropCopies_flt (host : Bool) (la : Nat) (keep : Option Nat) : (s.dropCopies host la keep).flt = s.flt := by
  have hsnoop : ((s.cancelResv host la keep).snoopBerths host la keep).flt = s.flt := by
    obtain ⟨lks, h⟩ := cancelResv_fields s host la keep
    rw [h]
    unfold State.snoopBerths
    refine foldl_flt _ ?_ _
    exact fun _ _ => rfl
  exact hsnoop

theorem hostWrite_flt (a : Nat) (bs : List Byte) (poison : Bool) : (s.hostWrite a bs poison).flt = s.flt := by
  unfold State.hostWrite
  split <;> rfl

theorem mergeLine_flt (host : Bool) (la off : Nat) (bs : List Byte) (poison dirty : Bool) :
    (s.mergeLine host la off bs poison dirty).flt = s.flt := by
  unfold State.mergeLine
  split <;> rfl

theorem recall_flt (host : Bool) (la : Nat) : (s.recall host la).flt = s.flt := by
  unfold State.recall
  split <;> rfl

theorem recallHost_flt (host : Bool) (la : Nat) : (s.recallHost host la).flt = s.flt := by
  unfold State.recallHost State.snoopHost
  dsimp only
  repeat' split
  all_goals rfl

theorem stkErr_flt (dpa bit : Nat) : (s.stkErr dpa bit).flt = s.flt := by
  unfold State.stkErr
  split <;> rfl

theorem dropWriteback_flt (dpa : Nat) : (s.dropWriteback dpa).flt = s.flt := by
  unfold State.dropWriteback
  split <;> rfl

theorem wholeMark_flt (port : Nat) (poison : Bool) : (s.wholeMark port poison).1.flt = s.flt := by
  unfold State.wholeMark
  dsimp only
  repeat' split
  all_goals rfl

theorem quietStore_flt (a : Nat) (bs : List Byte) : (s.quietStore a bs).flt = s.flt := by
  unfold State.quietStore
  split
  · refine foldl_flt s (fun t w => ?_) _
    dsimp only
    split
    · rfl
    · exact (wholeMark_flt ..).trans (dropWriteback_flt ..)
  · exact stkErr_flt ..
  · exact stkErr_flt ..
  · exact stkErr_flt ..
  · rfl

theorem flagWrite_flt (host : Bool) (a : Nat) (bs : List Byte) : (s.flagWrite host a bs).flt = s.flt := by
  unfold State.flagWrite
  split
  · exact hostWrite_flt ..
  · refine foldl_flt s (fun t la => ?_) _
    dsimp only
    split <;> simp only [mergeLine_flt, quietStore_flt, dropCopies_flt, recall_flt, recallHost_flt]

theorem bump_flt (o : Nat) : (s.bump o).flt = s.flt := by
  unfold State.bump
  split <;> rfl

theorem irq_flt (n : Nat) : (s.irq n).flt = s.flt := by
  unfold State.irq State.sendVec
  dsimp only
  repeat' split
  all_goals rfl

/-- Past the log, a record changes the count of the ring alone. -/
theorem recordFault_flt (m : FaultMsg) (esc : Bool) : ∃ n,
    (s.recordFault m esc).flt = { (s.logRecord m esc).1.flt with ringCount := n } := by
  have hring : ∃ n, ((s.logRecord m esc).1.ringRecord m esc).1.flt = { (s.logRecord m esc).1.flt with ringCount := n } := by
    unfold State.ringRecord
    split
    · exact ⟨_, rfl⟩
    · dsimp only
      split
      · exact ⟨_, bump_flt ..⟩
      · exact ⟨_, congrArg (fun f : Collector =>
          { f with ringCount := ((s.logRecord m esc).1.flt.ringCount + 1) % 2 ^ 32 }) (flagWrite_flt ..)⟩
  obtain ⟨n, hn⟩ := hring
  refine ⟨n, Eq.trans ?_ hn⟩
  have hpin (t : State) : (if t.bit FLT_PIN 0 && t.bit FLT_PIN (8 + m.cls) then
      ({ t with pins := { t.pins with pulse := true } } : State) else t).flt = t.flt := by
    split <;> rfl
  refine (hpin _).trans ?_
  split
  · exact irq_flt ..
  · rfl

theorem logRecord_aborts (m : FaultMsg) (esc : Bool) : (s.logRecord m esc).1.flt.ctxAborts = s.flt.ctxAborts := by
  unfold State.logRecord
  split
  · rw [bump_flt]
  · dsimp only
    split
    · rw [bump_flt]
    · rfl

theorem countFault_aborts (m : FaultMsg) : (s.countFault m).1.flt.ctxAborts = s.flt.ctxAborts := by
  unfold State.countFault
  dsimp only
  repeat' split
  all_goals rfl

end

/-! ### A fatal message (R607) -/

/-- The state in which a message has been counted and recorded, and no reaction is made yet. -/
def State.recorded (s : State) (m : FaultMsg) : State :=
  (s.countFault m).1.recordFault { m with cls := if (s.countFault m).2 then max m.cls (escClass m) else m.cls }
    (s.countFault m).2

theorem recorded_faultView (s : State) (m : FaultMsg) : (s.recorded m).faultView = s.faultView :=
  (congrArg Prod.fst (recordFault_stillView ..)).trans
    ((logRecord_faultView ..).trans (congrArg Prod.fst (countFault_stillView s m)))

theorem recorded_kept (s : State) (m : FaultMsg) : s.Kept (s.recorded m) :=
  (countFault_kept s m).trans (recordFault_kept ..)

theorem recorded_aborts (s : State) (m : FaultMsg) : (s.recorded m).flt.ctxAborts = s.flt.ctxAborts := by
  obtain ⟨n, h⟩ := recordFault_flt (s.countFault m).1
    { m with cls := if (s.countFault m).2 then max m.cls (escClass m) else m.cls } (s.countFault m).2
  unfold State.recorded
  rw [h]
  exact (logRecord_aborts ..).trans (countFault_aborts ..)

/-- A FATAL message of the host port or of the device halts it. -/
theorem fault_halts (s : State) {m : FaultMsg} (hcls : m.cls = 3) (hunit : m.unit = 7 ∨ m.unit = 0 ∧ (s.countFault m).2 = false) :
    s.fault m = (s.recorded m).haltFault := by
  have hesc : ¬ m.cls < escClass m := by
    rw [hcls]
    unfold escClass
    split <;> decide
  have hown : (s.recorded m).reactClass m m.cls = ((s.recorded m).haltFault, []) := by
    unfold State.reactClass State.reactFatal
    rw [hcls]
    rcases hunit with h | ⟨h, -⟩ <;> rw [h] <;> rfl
  rw [fault_alone s (.inl (by rw [hcls]; decide))]
  have hcollect : s.collect m = if (s.countFault m).2 && decide (m.cls < escClass m) then
      (s.recorded m).reactClass m (escClass m)
    else if (s.countFault m).2 && decide (escClass m < m.cls) then
      (((s.recorded m).reactClass m m.cls).1.reactClass m (escClass m) |>.1,
        ((s.recorded m).reactClass m m.cls).2 ++ (((s.recorded m).reactClass m m.cls).1.reactClass m (escClass m)).2)
    else (s.recorded m).reactClass m m.cls := rfl
  rw [hcollect, if_neg (by simp [hesc]), hown]
  rcases hunit with h | ⟨-, h⟩
  · have hretire : ((s.recorded m).haltFault.reactClass m (escClass m)) = ((s.recorded m).haltFault, []) := by
      unfold State.reactClass State.retire escClass
      rw [h]
      rfl
    rw [hretire]
    split <;> rfl
  · rw [h]
    rfl

end Sys2Proof.Machine
end

section
/-! Lines of HDM at their stack controllers (R331 to R339): a read of clean words, a write of words without injections. -/

open Sys2Proof Sys2Proof.Machine

namespace Sys2Proof.Machine

/-! ### Bytes of a memory, word by word -/

theorem read_of_byte {m : Ram} {a : Nat} {bs : List Byte} (h : ∀ i < bs.length, m.byte (a + i) = bs.getD i 0) :
    m.read a bs.length = bs := by
  rw [Ram.read_eq]
  refine List.ext_getElem (by simp) fun i h1 h2 => ?_
  rw [List.getElem_map, List.getElem_range, h i h2, List.getD_eq_getElem]

theorem length_partAt {α : Type} (a : Nat) (bs : List α) (lo n : Nat) :
    (partAt a bs lo n).2.length = min (lo + n - max a lo) (bs.length - (max a lo - a)) := by
  simp [partAt]

theorem getD_partAt {α : Type} (a : Nat) (bs : List α) {lo n x : Nat} (d : α) (h1 : max a lo ≤ x) (h2 : x < lo + n) :
    (partAt a bs lo n).2.getD (x - max a lo) d = bs.getD (x - a) d := by
  have hlt : x - max a lo < lo + n - max a lo := by omega
  simp only [partAt, List.getD_eq_getElem?_getD, List.getElem?_take, if_pos hlt, List.getElem?_drop]
  congr 2
  omega

/-- One word's part of a range of bytes written, and its mark. -/
def Ram.putWord (m : Ram) (a : Nat) (bs : List Byte) (mask w : Nat) : Ram :=
  (m.write (partAt a bs (8 * w) 8).1 (partAt a bs (8 * w) 8).2).setMark (8 * w) (if bitOf mask (w % 8) then 3 else 0)

/-- Bytes written word by word, with the poison of each word. -/
def Ram.putWords (m : Ram) (a : Nat) (bs : List Byte) (mask : Nat) (ws : List Nat) : Ram :=
  ws.foldl (fun m w => m.putWord a bs mask w) m

theorem Ram.byte_putWord (m : Ram) (a : Nat) (bs : List Byte) (mask w x : Nat) : (m.putWord a bs mask w).byte x =
    if x / 8 = w ∧ a ≤ x ∧ x < a + bs.length then bs.getD (x - a) 0 else m.byte x := by
  rw [Ram.putWord, Ram.byte_setMark, Ram.byte_write, length_partAt]
  have hfst : (partAt a bs (8 * w) 8).1 = max a (8 * w) := rfl
  rw [hfst]
  by_cases h : x / 8 = w ∧ a ≤ x ∧ x < a + bs.length
  · rw [if_pos h, if_pos (by omega), getD_partAt _ _ _ (by omega) (by omega)]
  · rw [if_neg h, if_neg (by omega)]

/-- Words written one after another, each with its own part of the bytes. -/
theorem Ram.byte_foldl_words {a : Nat} {bs : List Byte} {f : Ram → Nat → Ram} (hf : ∀ m w x, (f m w).byte x =
      if x / 8 = w ∧ a ≤ x ∧ x < a + bs.length then bs.getD (x - a) 0 else m.byte x) (ws : List Nat) (m : Ram) (x : Nat) :
    (ws.foldl f m).byte x = if x / 8 ∈ ws ∧ a ≤ x ∧ x < a + bs.length then bs.getD (x - a) 0 else m.byte x := by
  induction ws generalizing m with
  | nil => simp
  | cons w ws ih =>
    rw [List.foldl_cons, ih, hf]
    by_cases h : a ≤ x ∧ x < a + bs.length
    · by_cases hw : x / 8 = w <;> by_cases hws : x / 8 ∈ ws <;> simp [h, hw, hws]
    · simp [h]

/-- All the words of a range written: the bytes read back, and no other byte changes. -/
theorem Ram.put_foldl_words {a : Nat} {bs : List Byte} {f : Ram → Nat → Ram} (hf : ∀ m w x, (f m w).byte x =
      if x / 8 = w ∧ a ≤ x ∧ x < a + bs.length then bs.getD (x - a) 0 else m.byte x) (m : Ram) :
    ((wordsOf a bs.length).foldl f m).read a bs.length = bs ∧
      ∀ x, x < a ∨ a + bs.length ≤ x → ((wordsOf a bs.length).foldl f m).byte x = m.byte x := by
  refine ⟨read_of_byte fun i hi => ?_, fun x hx => ?_⟩
  · rw [Ram.byte_foldl_words hf, if_pos ⟨mem_wordsOf.2 ⟨by omega, by omega, by omega⟩, by omega⟩, Nat.add_sub_cancel_left]
  · rw [Ram.byte_foldl_words hf, if_neg (by omega)]

theorem Ram.mark_putWord (m : Ram) (a : Nat) (bs : List Byte) (mask w x : Nat) : (m.putWord a bs mask w).mark x =
    if x / 8 = w then (if bitOf mask (w % 8) then 3 else 0) else m.mark x := by
  rw [Ram.putWord, Ram.mark_setMark, Ram.mark_write, Nat.mul_div_cancel_left w (by decide)]
  simp only [eq_comm]

theorem Ram.mark_putWords (m : Ram) (a : Nat) (bs : List Byte) (mask : Nat) (ws : List Nat) (x : Nat) :
    (m.putWords a bs mask ws).mark x =
      if x / 8 ∈ ws then (if bitOf mask (x / 8 % 8) then 3 else 0) else m.mark x := by
  induction ws generalizing m with
  | nil => simp [Ram.putWords]
  | cons w ws ih =>
    rw [Ram.putWords, List.foldl_cons]
    refine (ih _).trans ?_
    rw [Ram.mark_putWord]
    by_cases hw : x / 8 = w <;> by_cases hws : x / 8 ∈ ws <;> simp [hw, hws]

/-- The bytes written read back, and no other byte changes. -/
theorem Ram.put_putLine (m : Ram) (a : Nat) (bs : List Byte) (mask : Nat) :
    (m.putWords a bs mask (wordsOf a bs.length)).read a bs.length = bs ∧
      ∀ x, x < a ∨ a + bs.length ≤ x → (m.putWords a bs mask (wordsOf a bs.length)).byte x = m.byte x :=
  Ram.put_foldl_words (fun m w x => Ram.byte_putWord m a bs mask w x) m

theorem nodup_wordsOf (a n : Nat) : (wordsOf a n).Nodup := by
  unfold wordsOf
  split
  · exact List.nodup_nil
  · exact List.nodup_range.map fun i j h => by simpa using h

/-! ### A write at the stack controller (R335, R337, R339, R359) -/

/-- The stack ports, HDM and registers of a state replaced. -/
def State.stored (s : State) (m : Ram) (stk : SMap Stack) (regs : SMap Reg) : State :=
  { s with hdm := m, stk := stk, regs := regs }

/-- No injection waits at a stack port (R359). -/
def State.NoStkInj (s : State) (port : Nat) : Prop :=
  s.bit (stkReg port 0x38) 0 = false ∧ s.bit (stkReg port 0x38) 1 = false

theorem dropWriteback_stored (s : State) (w : Nat) : ∃ stk, s.dropWriteback w = s.stored s.hdm stk s.regs := by
  unfold State.dropWriteback
  split
  · exact ⟨_, rfl⟩
  · exact ⟨s.stk, rfl⟩

theorem stkErr_stored (s : State) (w b : Nat) : ∃ regs, s.stkErr w b = s.stored s.hdm s.stk regs ∧
    ∀ port m stk, s.NoStkInj port → (s.stored m stk regs).NoStkInj port := by
  unfold State.stkErr
  split
  · next f hf =>
    refine ⟨_, rfl, fun port m stk hno => ?_⟩
    have hreg : (s.setBit (stkReg f.port 0x34) b true).reg (stkReg port 0x38) = s.reg (stkReg port 0x38) := by
      refine (State.reg_setReg ..).trans (if_neg ?_)
      unfold stkReg STK
      omega
    have hbit (i : Nat) : (s.setBit (stkReg f.port 0x34) b true).bit (stkReg port 0x38) i = s.bit (stkReg port 0x38) i := by
      rw [State.bit, hreg, State.bit]
    exact ⟨(hbit 0).trans hno.1, (hbit 1).trans hno.2⟩
  · exact ⟨s.regs, rfl, fun port m stk hno => hno⟩

theorem wholeMark_quiet {s : State} {port : Nat} (h : s.NoStkInj port) (poison : Bool) :
    s.wholeMark port poison = (s, if poison then 3 else 0) := by
  simp [State.wholeMark, h.1, h.2]

/-- A word written, where no injection waits and a word written in part is not marked. -/
theorem stkWord_stored {s : State} {port a : Nat} {part : List Byte} (poison : Bool) (hno : s.NoStkInj port)
    (hq : part.length = 8 ∨ s.hdm.mark (8 * (a / 8)) = 0) : ∃ stk regs, s.stkWord port a part poison =
      s.stored ((s.hdm.write a part).setMark (8 * (a / 8)) (if poison then 3 else 0)) stk regs ∧
      (∀ m, (s.stored m stk regs).NoStkInj port) ∧ (poison = false → regs = s.regs) := by
  obtain ⟨stk, hdrop⟩ := dropWriteback_stored ({ s with hdm := s.hdm.write a part } : State) (8 * (a / 8))
  have herr : ∃ regs, (if poison then (s.stored (s.hdm.write a part) stk s.regs).stkErr (8 * (a / 8)) 2
      else s.stored (s.hdm.write a part) stk s.regs) = s.stored (s.hdm.write a part) stk regs ∧
      (∀ m, (s.stored m stk regs).NoStkInj port) ∧ (poison = false → regs = s.regs) := by
    obtain ⟨regs, h, hkeep⟩ := stkErr_stored (s.stored (s.hdm.write a part) stk s.regs) (8 * (a / 8)) 2
    cases poison with
    | true =>
      rw [if_pos rfl]
      exact ⟨regs, h, fun m => hkeep port m stk hno, fun h => nomatch h⟩
    | false => exact ⟨s.regs, rfl, fun m => hno, fun _ => rfl⟩
  obtain ⟨regs, hregs, hkeep, hsame⟩ := herr
  refine ⟨stk, regs, ?_, hkeep, hsame⟩
  have hrun : s.stkWord port a part poison =
      if part.length = 8 then
        { ((s.stored (s.hdm.write a part) stk regs).wholeMark port poison).1 with
          hdm := ((s.stored (s.hdm.write a part) stk regs).wholeMark port poison).1.hdm.setMark (8 * (a / 8))
            ((s.stored (s.hdm.write a part) stk regs).wholeMark port poison).2 }
      else
        let t := if s.hdm.mark (8 * (a / 8)) = 1 then
          ((s.stored (s.hdm.write a part) stk regs).stkFault K_STK_CE (8 * (a / 8))).stkErr (8 * (a / 8)) 0
          else s.stored (s.hdm.write a part) stk regs
        if badMark (s.hdm.mark (8 * (a / 8))) then
          (({ t with hdm := t.hdm.setMark (8 * (a / 8)) 3 }.stkFault K_STK_MERGE_UE (8 * (a / 8))).stkErr
            (8 * (a / 8)) 3).stkErr (8 * (a / 8)) 2
        else { t with hdm := t.hdm.setMark (8 * (a / 8)) (if poison then 3 else 0) } := by
    rw [← hregs]
    unfold State.stkWord
    dsimp only
    rw [hdrop]
    rfl
  rw [hrun]
  split
  · rw [wholeMark_quiet (hkeep _)]
    rfl
  · next hlen =>
    rw [hq.resolve_left hlen]
    rfl

/-- A run of words written. -/
theorem foldl_stkWord {port a : Nat} {bs : List Byte} {mask : Nat} (ws : List Nat) (hnodup : ws.Nodup)
    (hmem : ∀ w ∈ ws, w ∈ wordsOf a bs.length) (s : State) (hno : s.NoStkInj port)
    (hq : ∀ w ∈ ws, a ≤ 8 * w ∧ 8 * w + 8 ≤ a + bs.length ∨ s.hdm.mark (8 * w) = 0) :
    ∃ stk regs, ws.foldl (fun s w => s.stkWord port (partAt a bs (8 * w) 8).1 (partAt a bs (8 * w) 8).2
        (bitOf mask (w % 8))) s = s.stored (s.hdm.putWords a bs mask ws) stk regs ∧
      ((∀ w, bitOf mask w = false) → regs = s.regs) := by
  induction ws generalizing s with
  | nil => exact ⟨s.stk, s.regs, rfl, fun _ => rfl⟩
  | cons w ws ih =>
    obtain ⟨hne, h1, h2⟩ := mem_wordsOf.1 (hmem w List.mem_cons_self)
    have hword : (partAt a bs (8 * w) 8).1 / 8 = w := by
      have : (partAt a bs (8 * w) 8).1 = max a (8 * w) := rfl
      omega
    have hlen : (partAt a bs (8 * w) 8).2.length = 8 ∨ s.hdm.mark (8 * ((partAt a bs (8 * w) 8).1 / 8)) = 0 := by
      rw [hword]
      refine (hq w List.mem_cons_self).imp (fun h => ?_) id
      rw [length_partAt]
      omega
    obtain ⟨stk, regs, hrun, hkeep, hsame⟩ := stkWord_stored (bitOf mask (w % 8)) hno hlen
    rw [hword] at hrun
    have hput : (s.hdm.write (partAt a bs (8 * w) 8).1 (partAt a bs (8 * w) 8).2).setMark (8 * w)
        (if bitOf mask (w % 8) then 3 else 0) = s.hdm.putWord a bs mask w := rfl
    rw [hput] at hrun
    obtain ⟨hw, hnodup'⟩ := List.nodup_cons.1 hnodup
    obtain ⟨stk', regs', hrest, hsame'⟩ := ih hnodup' (fun v hv => hmem v (List.mem_cons_of_mem _ hv))
      (s.stored (s.hdm.putWord a bs mask w) stk regs) (hkeep _) fun v hv => by
        refine (hq v (List.mem_cons_of_mem _ hv)).imp id fun h => ?_
        refine (Ram.mark_putWord ..).trans ?_
        rw [if_neg (fun he => hw (by rw [← he, Nat.mul_div_cancel_left v (by decide)]; exact hv))]
        exact h
    refine ⟨stk', regs', ?_, fun h => (hsame' h).trans (hsame (h _))⟩
    rw [List.foldl_cons, hrun, hrest]
    rfl

/-- A write within a backed frame: its bytes and marks, and nothing else but the port's own bookkeeping. -/
theorem stkWriteLine_stored {s : State} {a : Nat} (hb : s.Backed a) (bs : List Byte) (mask : Nat)
    (hq : ∀ w ∈ wordsOf a bs.length, a ≤ 8 * w ∧ 8 * w + 8 ≤ a + bs.length ∨ s.hdm.mark (8 * w) = 0) :
    ∃ stk regs, s.stkWriteLine a bs mask =
      s.stored (s.hdm.putWords a bs mask (wordsOf a bs.length)) stk regs ∧
      ((∀ w, bitOf mask w = false) → regs = s.regs) := by
  obtain ⟨f, hf, huse, hi0, hi1⟩ := hb
  have hrun : s.stkWriteLine a bs mask = (wordsOf a bs.length).foldl (fun s w =>
      s.stkWord f.port (partAt a bs (8 * w) 8).1 (partAt a bs (8 * w) 8).2 (bitOf mask (w % 8))) s := by
    unfold State.stkWriteLine
    rw [show s.frame a = some f from hf, huse]
  rw [hrun]
  exact foldl_stkWord _ (nodup_wordsOf ..) (fun _ h => h) s ⟨hi0, hi1⟩ hq

/-! ### A read at the stack controller (R334) -/

theorem clean_words {s : State} {la : Nat} (hclean : s.CleanLine la) (hal : la % 64 = 0) {w : Nat} (hw : w ∈ wordsOf la 64) :
    s.hdm.mark (8 * w) = 0 := by
  obtain ⟨-, h1, h2⟩ := mem_wordsOf.1 hw
  have := hclean (w - la / 8) (by omega)
  rwa [show la + 8 * (w - la / 8) = 8 * w by omega] at this

theorem poisonMask_clean {m : Ram} {la : Nat} (h : ∀ w < 8, m.mark (la + 8 * w) = 0) : m.poisonMask la = 0 := by
  unfold Ram.poisonMask
  have hall : ∀ (is : List Nat) (k : Nat), (∀ i ∈ is, i < 8) →
      is.foldl (fun k i => k + (if badMark (m.mark (la + 8 * i)) then 2 ^ i else 0)) k = k := fun is => by
    induction is with
    | nil => exact fun k _ => rfl
    | cons i is ih =>
      intro k hi
      rw [List.foldl_cons, h i (hi i List.mem_cons_self)]
      exact ih _ fun j hj => hi j (List.mem_cons_of_mem _ hj)
  exact hall _ _ fun i hi => List.mem_range.1 hi

/-- The line as memory gives it, where its frame is backed and its words are clean. -/
theorem memLine_clean {s : State} {la : Nat} (hb : s.Backed la) (hclean : s.CleanLine la) :
    s.memLine false la = { data := s.hdm.read la 64, poison := 0 } := by
  obtain ⟨f, -, huse, -, -⟩ := hb
  have hlost : s.lostLine la = false := by rw [State.lostLine, huse]
  unfold State.memLine
  rw [hlost]
  exact congrArg (fun p => ({ data := s.hdm.read la 64, poison := p } : LineData)) (poisonMask_clean hclean)

/-- A read of clean words changes nothing. -/
theorem stkReadLine_clean {s : State} {la : Nat} (hb : s.Backed la) (hclean : s.CleanLine la) (hal : la % 64 = 0) :
    s.stkReadLine la = (s, { data := s.hdm.read la 64, poison := 0 }) := by
  have hcheck : (wordsOf la 64).foldl State.checkWord s = s := foldl_fixed _ _ _ fun w hw => by
    rw [State.checkWord, clean_words hclean hal hw]
    rfl
  have hmem := memLine_clean hb hclean
  obtain ⟨f, -, huse, -, -⟩ := hb
  unfold State.stkReadLine
  rw [huse]
  dsimp only
  rw [hcheck, hmem]

theorem lineOf_aligned (a : Nat) : lineOf a % 64 = 0 := by
  unfold lineOf
  omega

theorem lineOf_of_aligned {a : Nat} (h : a % 64 = 0) : lineOf a = a := by
  unfold lineOf
  omega

end Sys2Proof.Machine
end

section
/-! The events of the host port (R452, R454, R465, R466, R470, R474 to R476). -/

open Sys2Proof Sys2Proof.Machine

namespace Sys2Proof.Machine

/-! ### Bus mastering and power states (R465, R466) -/

theorem mem_stopCopies_waitingRd {s : State} {r : IoRead} (h : r ∈ s.stopCopies.port.waitingRd) (c k : Nat) :
    r.user ≠ .ring c k := by
  intro he
  have := (List.mem_filter.1 h).2
  simp [he] at this

theorem mem_stopCopies_waits {s : State} {w : Wait} (h : w ∈ s.stopCopies.waits) : w ∈ s.waits := (List.mem_filter.1 h).1

theorem ioOpened_safe {s : State} (h : s.boot.safe = true) : s.ioOpened = s := by simp [State.ioOpened, h]

/-- The one posted write that waited goes out as the port opens. -/
theorem ioOpened_single {s : State} {a : Nat} {bs : List Byte} {p : Bool} (hopen : s.port.ioOpen = true)
    (hlive : s.boot.safe = false) (hwr : s.port.waitingWr = [(a, bs, p)]) (hvec : s.port.waitingVec = [])
    (hrd : s.port.waitingRd = []) : s.ioOpened =
      State.resettle { s with host := s.host.store a bs p, out := s.out ++ [.ioWrite a bs.length]
                              port := { s.port with waitingWr := [] } } := by
  have hport : ({ s.port with waitingWr := [], waitingVec := [] } : HostPort) = { s.port with waitingWr := [] } := by
    rw [← hvec]
  have hrd' : ∀ t : State, t.pumpReads s.port.waitingRd.length = t := fun t => by rw [hrd]; rfl
  have hwrite : ({ s with port := { s.port with waitingWr := [] } } : State).hostWrite a bs p =
      { s with host := s.host.store a bs p, out := s.out ++ [.ioWrite a bs.length]
               port := { s.port with waitingWr := [] } } := if_pos hopen
  unfold State.ioOpened
  rw [hopen, hlive, hwr, hvec]
  dsimp only [List.foldl]
  rw [if_neg (by decide), hport, hwrite]
  dsimp only
  rw [hrd']

/-! ### Cache flushes (R453) -/

/-- The state of a device whose basin holds one modified line of the host, and no copy of any. -/
structure State.OneHostLine (s : State) (l : Line) : Prop where
  lines : s.basin.lines = [l]
  copies : s.basin.copies = []
  host : l.host = true
  dirty : l.dirty = true
  placed : l.victim = false
  clean : l.marks = []
  len : l.data.length = 64
  aligned : l.addr % 64 = 0

section
variable {s : State} {l : Line} (h : s.OneHostLine l)
include h

theorem oneHostLine_line : s.basinLine true l.addr = some l := by
  simp [State.basinLine, h.lines, h.host]

theorem oneHostLine_mCopy : s.mCopy true l.addr = none := by
  simp [State.mCopy, h.copies]

theorem oneHostLine_hostLines : s.hostLines = [l.addr] := by
  simp [State.hostLines, h.lines, h.host]

end

theorem basinCheck_clean {s : State} {host : Bool} {la : Nat} {l : Line} (hl : s.basinLine host la = some l)
    (hm : l.marks = []) : s.basinCheck host la = s := by
  unfold State.basinCheck
  rw [hl]
  dsimp only
  rw [hm]
  rfl

/-- A line written to the host, word by word. -/
def Ram.storeLine (m : Ram) (a : Nat) (bs : List Byte) (mask : Nat) : Ram :=
  (wordsOf a bs.length).foldl (fun m w =>
    m.store (partAt a bs (8 * w) 8).1 (partAt a bs (8 * w) 8).2 (bitOf mask (w % 8))) m

theorem Ram.put_storeLine (m : Ram) (a : Nat) (bs : List Byte) (mask : Nat) :
    (m.storeLine a bs mask).read a bs.length = bs ∧
      ∀ x, x < a ∨ a + bs.length ≤ x → (m.storeLine a bs mask).byte x = m.byte x := by
  refine Ram.put_foldl_words (fun m w x => ?_) m
  have hfst : (partAt a bs (8 * w) 8).1 = max a (8 * w) := rfl
  rw [Ram.byte_store, length_partAt, hfst]
  by_cases h : x / 8 = w ∧ a ≤ x ∧ x < a + bs.length
  · rw [if_pos h, if_pos (by omega), getD_partAt _ _ _ (by omega) (by omega)]
  · rw [if_neg h, if_neg (by omega)]

section
variable {s : State} {l : Line} (h : s.OneHostLine l)
include h

/-- The line is written to the host, and stays clean. -/
theorem oneHostLine_clean : s.cleanLine true l.addr =
    { s with host := s.host.storeLine l.addr l.data 0, out := s.out ++ [.d2h 6 l.addr]
             basin := { s.basin with lines := [{ l with dirty := false, owner := none }] } } := by
  have hl := oneHostLine_line h
  have hm := oneHostLine_mCopy h
  have hrun : s.cleanLine true l.addr =
      (s.homeWrite true l.addr l.data (markMask l.marks)).putLine { l with dirty := false, owner := none } := by
    unfold State.cleanLine
    dsimp only
    rw [hm, recall_unmodified hm, basinCheck_clean hl h.clean, hl]
    dsimp only
    rw [if_pos h.dirty, h.placed]
    rfl
  have hput : ∀ t : State, t.basin.lines = [l] → t.putLine { l with dirty := false, owner := none } =
      { t with basin := { t.basin with lines := [{ l with dirty := false, owner := none }] } } := fun t ht => by
    simp [State.putLine, ht]
  have hmask : markMask l.marks = 0 := by rw [h.clean]; decide
  rw [hrun, hmask, hput (s.homeWrite true l.addr l.data 0) h.lines]
  unfold State.homeWrite
  rw [if_pos rfl, lineOf_of_aligned h.aligned]
  rfl

theorem oneHostLine_saved : (s.host.storeLine l.addr l.data 0).read l.addr 64 = l.data ∧
    ∀ x, x < l.addr ∨ l.addr + 64 ≤ x → (s.host.storeLine l.addr l.data 0).byte x = s.host.byte x :=
  h.len ▸ Ram.put_storeLine ..

theorem oneHostLine_flush : (s.flushHostLine l.addr).host = s.host.storeLine l.addr l.data 0 ∧
    (s.flushHostLine l.addr).basin.lines = [] := by
  unfold State.flushHostLine
  rw [oneHostLine_clean h, dropCopies_host]
  refine ⟨rfl, ?_⟩
  simp [State.discardLine, State.cancelResv, Basin.dropCopies, Line.dropped, h.host]

theorem oneHostLine_flush_saved : (s.flushHostLine l.addr).host.read l.addr 64 = l.data ∧
    ∀ x, x < l.addr ∨ l.addr + 64 ≤ x → (s.flushHostLine l.addr).host.byte x = s.host.byte x := by
  rw [(oneHostLine_flush h).1]
  exact oneHostLine_saved h

theorem oneHostLine_writeback : exec .cacheWritebackInvalidate s = done s
    { s.flushHostLine l.addr with port := { (s.flushHostLine l.addr).port with cacheInvalid := true } } := by
  change done s s.cacheFlush = _
  unfold State.cacheFlush
  rw [oneHostLine_hostLines h]
  rfl

theorem oneHostLine_written : Completes .cacheWritebackInvalidate s fun u => (u.host.read l.addr 64 = l.data ∧
    ∀ x, x < l.addr ∨ l.addr + 64 ≤ x → u.host.byte x = s.host.byte x) ∧ u.basin.lines = [] ∧
    u.port.cacheInvalid = true := by
  refine completes_done (oneHostLine_writeback h) ?_
  have hsaved := oneHostLine_flush_saved h
  have hgone := (oneHostLine_flush h).2
  generalize s.flushHostLine l.addr = t at *
  exact ⟨hsaved, hgone, rfl⟩

theorem oneHostLine_gpf : exec .gpfPhase1 s = done s (s.cleanLine true l.addr) := by
  change done s (s.hostLines.foldl (fun s la => s.cleanLine true la) s) = _
  rw [oneHostLine_hostLines h]
  rfl

end

/-! ### Viral, link encryption and vectors (R454, R474, R475) -/

theorem abortWaits_none {s : State} (h : s.waits = []) (p : Wait → Bool) (f : Fin) : s.abortWaits p f = s := by
  have hwaits : ({ s with waits := [] } : State) = s := by rw [← h]
  unfold State.abortWaits
  rw [h]
  exact hwaits

theorem haltRings_idle {s : State} (h : s.waits = []) : s.haltRings = ({ s with contexts := s.contexts.map fun e =>
    (e.1, e.2.ringsStopped) } : State).setBit FLT_RESET 30 false := by
  exact congrArg (State.setBit · FLT_RESET 30 false) (abortWaits_none (s := { s with contexts := s.contexts.map fun e =>
    (e.1, e.2.ringsStopped) }) h _ _)

theorem drainAborts_idle {s : State} (h : s.flt.ctxAborts = []) (hh : s.flt.halted = true) : s.drainAborts = s.haltRings := by
  have hflt : ({ s.flt with ctxAborts := [] } : Collector) = s.flt := by rw [← h]
  unfold State.drainAborts
  dsimp only
  rw [hflt, h]
  exact if_pos hh

/-- The device's own bit is in the fault map of the gate that is open. -/
theorem haltFault_effect (s : State) : s.haltFault.flt.halted = true ∧
    s.ww.index ∈ (if s.gate.cut then s.haltFault.gate.next else s.haltFault.gate.own).faultMap := by
  unfold State.haltFault State.ownFaultBit State.order State.react
  dsimp only
  repeat' split
  all_goals simp_all [mem_insertNat]

theorem viral_effect {s : State} (hroom : s.LogRoom) (hwaits : s.waits = []) (haborts : s.flt.ctxAborts = []) :
    ∃ t, exec .viralReceive s = done s t ∧ t.Logged 0x71 7 0 ∧ t.flt.halted = true ∧
      s.ww.index ∈ (if s.gate.cut then t.gate.next else t.gate.own).faultMap := by
  have hhalt := fault_halts s (m := msgOf K_VIRAL_RX 7 0) (by decide) (.inl rfl)
  have hlog := fault_logged hroom (m := msgOf K_VIRAL_RX 7 0) (.inl (by decide))
  have hkept := fault_kept s (msgOf K_VIRAL_RX 7 0)
  obtain ⟨hhalted, hmap⟩ := haltFault_effect (s.recorded (msgOf K_VIRAL_RX 7 0))
  have hab : (s.fault (msgOf K_VIRAL_RX 7 0)).flt.ctxAborts = [] := by
    rw [hhalt]
    refine Eq.trans ?_ ((recorded_aborts s (msgOf K_VIRAL_RX 7 0)).trans haborts)
    unfold State.haltFault State.ownFaultBit State.order State.react
    dsimp only
    repeat' split
    all_goals rfl
  have hcut' : (s.recorded (msgOf K_VIRAL_RX 7 0)).gate.cut = s.gate.cut :=
    congrArg FaultView.cut (recorded_faultView ..)
  rw [(recorded_kept ..).ww, hcut'] at hmap
  refine ⟨(s.fault (msgOf K_VIRAL_RX 7 0)).haltRings, ?_, ?_, ?_, ?_⟩
  · exact congrArg (done s) (drainAborts_idle hab (by rw [hhalt]; exact hhalted))
  all_goals rw [haltRings_idle (hkept.waits.trans hwaits)]
  · exact hlog
  · rw [hhalt]; exact hhalted
  · rw [hhalt]
    exact hmap

/-- The mask bit of a vector's MSI-X entry cleared. -/
def State.unmasked (s : State) (n : Nat) : State := s.setBit (MSIX_TABLE + 16 * n + 12) 0 false

theorem sendVec_open {s : State} {n : Nat} (hx : s.port.msixEn = true) (hm : s.vecMasked n = false)
    (hopen : s.port.ioOpen = true) : s.sendVec n = s.emit (.msi n) := by
  simp [State.sendVec, hx, hm, hopen]

/-- A pending vector whose mask bit clears sends its message. -/
theorem unmask_pending {s : State} {n : Nat} (hx : s.port.msixEn = true) (hp : s.port.pendingVec = [n])
    (hf : s.port.funcMask = false) (hopen : s.port.ioOpen = true) : s.unmask n =
      State.emit { s.unmasked n with port := { s.port with pendingVec := [] } } (.msi n) := by
  have hbit : (s.unmasked n).bit (MSIX_TABLE + 16 * n + 12) 0 = false := bit_setBit_self s (MSIX_TABLE + 16 * n + 12) false (by decide)
  have hmask : ((s.unmasked n).port.funcMask || (s.unmasked n).bit (MSIX_TABLE + 16 * n + 12) 0) = false := by
    rw [hbit]
    exact (Bool.or_false _).trans hf
  have hunmasked : (s.unmasked n).vecMasked n = false := (if_pos hx).trans hmask
  have hpend : (s.port.pendingVec.filter (· ≠ n)) = [] := by rw [hp]; simp
  have hrun : s.unmask n = State.sendVec
      { s.unmasked n with port := { s.port with pendingVec := s.port.pendingVec.filter (· ≠ n) } } n := by
    have htest : (s.port.pendingVec.contains n && !(s.unmasked n).vecMasked n) = true := by
      rw [hunmasked, hp]
      simp
    unfold State.unmask
    rw [hx]
    exact if_pos htest
  rw [hrun, hpend]
  exact sendVec_open (s := { s.unmasked n with port := { s.port with pendingVec := [] } }) hx
    ((if_pos hx).trans hmask) hopen

/-- The message that a pending vector sends, and the mask bit after it. -/
theorem unmask_pending_effect {s : State} {n : Nat} (hx : s.port.msixEn = true) (hp : s.port.pendingVec = [n])
    (hf : s.port.funcMask = false) (hopen : s.port.ioOpen = true) : (s.unmask n).out = s.out ++ [.msi n] ∧
      (s.unmask n).port.pendingVec = [] ∧ ((s.unmask n).seal s).bit (MSIX_TABLE + 16 * n + 12) 0 = false := by
  rw [unmask_pending hx hp hf hopen]
  generalize hoff : MSIX_TABLE + 16 * n + 12 = o
  have hbit : (s.unmasked n).bit o 0 = false := by
    rw [← hoff]
    exact bit_setBit_self s (MSIX_TABLE + 16 * n + 12) false (by decide)
  refine ⟨rfl, rfl, ?_⟩
  rw [seal_bit (by rfl)]
  exact hbit

theorem foldl_port {α : Type} {f : State → α → State} (hf : ∀ t a, (f t a).port = t.port) (l : List α) (s : State) :
    (l.foldl f s).port = s.port := by
  induction l generalizing s with
  | nil => rfl
  | cons a l ih => exact (ih _).trans (hf s a)

/-- The watched rings of a context polled. -/
def State.pollRings (s : State) (e : Nat × Context) : State :=
  e.2.rings.foldl (fun s r => if r.2.mode = .watched then s.setRing e.1 r.1 { r.2 with mode := .polled } else s) s

theorem pollRings_port (s : State) (e : Nat × Context) : (s.pollRings e).port = s.port := by
  refine foldl_port (fun t r => ?_) _ s
  split <;> rfl

theorem cacheEnable_false (s : State) : s.cacheEnable false = s.contexts.foldl State.pollRings
    { s with port := { s.port with cacheEn := false, cacheInvalid := s.port.cacheInvalid && !false } } := rfl

/-- Cache_Enable of 0 polls the watched rings, and changes nothing else of the port. -/
theorem cacheEnable_off (s : State) : (s.cacheEnable false).port.cacheEn = false ∧
    (s.cacheEnable false).port.cacheInvalid = s.port.cacheInvalid := by
  rw [cacheEnable_false, foldl_port pollRings_port]
  exact ⟨rfl, Bool.and_true _⟩

theorem cacheEnable_noContexts {s : State} (h : s.contexts = []) (en : Bool) : s.cacheEnable en =
    { s with port := { s.port with cacheEn := en, cacheInvalid := s.port.cacheInvalid && !en } } := by
  unfold State.cacheEnable State.assignWatches
  dsimp only
  rw [h]
  simp

end Sys2Proof.Machine

/-- Settles O54: what waits for the port goes out as it opens, the modified line of the host is written back, and viral
halts the device with its record in the log. -/
theorem hostPortEvents : Obligations.HostPortEvents := by
  unfold Obligations.HostPortEvents
  intro s
  refine ⟨completes_done rfl ⟨rfl, rfl, fun r hr c k => mem_stopCopies_waitingRd hr c k, fun w hw => mem_stopCopies_waits hw, rfl⟩,
    completes_done rfl ⟨rfl, ?_, ?_, rfl, rfl⟩, fun h => ?_, fun h => ?_, fun a bs p hlive hwr hvec hrd => ⟨fun hd hi => ?_, fun hb hi => ?_⟩,
    fun h => ?_, fun l hlines hhost hdirty hvictim hlen hmarks hcopies haddr => ?_, fun hroom hwaits hab => ?_, ?_, ?_,
    fun n hlive hx hp hf hopen => ?_, fun n hx hp => ?_, fun en h => congrArg (done s) (cacheEnable_noContexts h en),
    completes_done rfl (cacheEnable_off s)⟩
  · exact Bool.or_true _
  · simp [HostPort.ioOpen, State.setD3hot, State.stopCopies]
  · exact congrArg (done s) (h.elim (fun h => ioOpened_safe (s := { s with port := { s.port with busMaster := true } }) h)
      fun h => ioOpened_idle (s := { s with port := { s.port with busMaster := true } }) (by simp [HostPort.ioOpen, h]))
  · exact congrArg (done s) (h.elim (fun h => ioOpened_safe (s := { s with port := { s.port with d3hot := false } }) h)
      fun h => ioOpened_idle (s := { s with port := { s.port with d3hot := false } }) (by simp [HostPort.ioOpen, h]))
  · intro t ht
    have hrun := ioOpened_single (s := { s with port := { s.port with busMaster := true } })
      (by simp [HostPort.ioOpen, hd, hi]) hlive hwr hvec hrd
    exact congrArg (done s) (hrun.trans ht)
  · intro t ht
    have hrun := ioOpened_single (s := { s with port := { s.port with d3hot := false } })
      (by simp [HostPort.ioOpen, hb, hi]) hlive hwr hvec hrd
    exact congrArg (done s) (hrun.trans ht)
  · constructor
    · change done s s.cacheFlush = _
      unfold State.cacheFlush
      rw [h]
      rfl
    · change done s (s.hostLines.foldl _ s) = _
      rw [h]
      rfl
  · have hone : s.OneHostLine l := ⟨hlines, hcopies, hhost, hdirty, hvictim, hmarks, hlen, haddr⟩
    refine ⟨oneHostLine_written hone, completes_done (oneHostLine_gpf hone) ?_⟩
    rw [oneHostLine_clean hone]
    exact ⟨oneHostLine_saved hone, rfl⟩
  · obtain ⟨t, ht, hlog, hhalt, hmap⟩ := viral_effect hroom hwaits hab
    exact completes_done ht ⟨hlog, hhalt, hmap⟩
  · obtain ⟨errs, hs, f, haer, hmem⟩ := aer_withAer s .ideCheckFailed false
    refine ⟨_, rfl, rfl, ?_⟩
    rw [haer]
    exact hmem
  · obtain ⟨errs, hs, f, haer, hmem⟩ := aer_withAer s .ideCheckFailed false
    refine ⟨_, rfl, rfl, ?_, ?_⟩
    · simp [HostPort.ioOpen]
    · rw [haer]
      exact hmem
  · have hexec : exec (.vectorUnmask n) s = done s (s.unmask n) :=
      congrArg (done s) (if_neg (by simp [show s.boot.safe = false from hlive]))
    obtain ⟨hout, hpend, hbit⟩ := unmask_pending_effect hx hp hf hopen
    exact completes_done hexec ⟨hout, hpend, hbit⟩
  · have hexec : exec (.vectorUnmask n) s = done s (s.unmask n) :=
      congrArg (done s) (if_neg (by simp [hx]))
    have hrun : s.unmask n = { s with port := { s.port with msiMasked := s.port.msiMasked.filter (· ≠ n) } } := by
      unfold State.unmask
      rw [hx]
      exact if_neg (by simp [hp])
    refine completes_done hexec ?_
    rw [hrun]
    exact ⟨by simp, rfl, rfl⟩
end

section
/-! A frame that is normal at a line's own address and not at its frame's first (R326, R344): the state names any
capacity, so the regions of the reaches may be smaller than a frame. -/

open Sys2Proof Sys2Proof.Machine

namespace Sys2Proof.Machine

/-- A device whose regions are of 192 bytes, with pseudo-channel 0 of stack port 0 retired, whose engine holds a ZERO of
the line at 192, which is reach 1's. -/
def smallRegions : State :=
  { Tests.base with
    boot := { Tests.base.boot with capacity := 96 }
    stk := [(0, { st := .active, pcs := [(0, .retired)] }), (2, { st := .active })]
    basin := { Tests.base.basin with queue := [{ op := 4, space_ := SP_DPA, ctx := 0, addr := 192, len := 64, ring := none }] } }

/-- The extent of the ZERO starts at the frame's first byte, whose pseudo-channel is retired, so it writes no byte. -/
theorem smallRegions_maintEnd : smallRegions.maintEnd.basin.lastStatus = 0x0400 := by decide +kernel

theorem smallRegions_resettle : smallRegions.maintEnd.resettle = smallRegions.maintEnd := rfl

theorem smallRegions_admits : smallRegions.maintBusy
    { op := 4, space_ := SP_DPA, ctx := 0, addr := 192, len := 64, ring := none } = [] ∧
    smallRegions.hdmRefusal MID_MAINT NEED_W 192 64 = none := by decide +kernel

theorem smallRegions_backed : smallRegions.Backed 192 := by
  refine ⟨{ reach := 1, port := 2, pc := 0 }, ?_⟩
  decide +kernel

theorem smallRegions_uncached : smallRegions.Uncached 192 := by
  refine ⟨rfl, ?_, fun wr => ?_⟩
  · exact fun c hc => absurd hc List.not_mem_nil
  · cases wr with
    | none => rfl
    | some b => rfl

end Sys2Proof.Machine

/-- Refutes O50: the check of a ZERO for unbacked frames starts at the first byte of the line's frame, which lies in
another reach's region where a capacity is no multiple of a frame's bytes, so a backed line may stay unzeroed. -/
theorem not_basinMaintenance : ¬ Obligations.BasinMaintenance := by
  intro h
  have hlive : smallRegions.Live := rfl
  obtain ⟨-, -, -, -, -, -, -, hend, -⟩ := h smallRegions hlive
  obtain ⟨-, -, -, hzero⟩ := hend _ rfl rfl rfl rfl rfl rfl smallRegions_resettle
  obtain ⟨hbusy, hpass⟩ := smallRegions_admits
  obtain ⟨u, hu, -, hstatus, -⟩ := hzero hbusy rfl hpass smallRegions_uncached smallRegions_backed
  have hrun : smallRegions.maintEnd.resettle.seal smallRegions = u :=
    Host.Outcome.next.inj ((doneLive_of_live hlive _).symm.trans hu)
  rw [← hrun, smallRegions_resettle] at hstatus
  exact absurd (smallRegions_maintEnd.symm.trans hstatus) (by decide)
end

section
/-! Requests at a line's home (R365 to R374, R424, R426): what runs there at once, what waits, and the line that a fill or
a grant leaves. -/

open Sys2Proof Sys2Proof.Machine

namespace Sys2Proof.Machine

/-! ### What the home of a line lets run (R370, R426) -/

theorem linesOf_single {a n : Nat} (hn : 0 < n) (h : lineOf (a + n - 1) = lineOf a) : linesOf a n = [lineOf a] := by
  unfold lineOf at h
  unfold linesOf
  rw [if_neg (by omega), show (a + n - 1) / 64 - a / 64 + 1 = 1 by omega]
  rfl

theorem linesOf_line (a : Nat) : linesOf (lineOf a) 64 = [lineOf a] := by
  have hal := lineOf_aligned a
  refine (linesOf_single (by decide) ?_).trans (by rw [lineOf_of_aligned hal])
  unfold lineOf at *
  omega

theorem linesOf_aligned {a : Nat} (h : a % 64 = 0) : linesOf a 64 = [a] := by
  have := linesOf_line a
  rwa [lineOf_of_aligned h] at this

theorem lineOf_word {a : Nat} (h : a % 8 = 0) : lineOf (a + 8 - 1) = lineOf a := by
  unfold lineOf
  omega

theorem touches_single {a n : Nat} (hn : 0 < n) (h : lineOf (a + n - 1) = lineOf a) (wr : Bool) :
    touches false a n wr = [(lineOf a, some wr)] := by
  rw [touches, if_neg (by decide), linesOf_single hn h]
  rfl

theorem touches_line (a : Nat) (wr : Bool) : touches false (lineOf a) 64 wr = [(lineOf a, some wr)] := by
  rw [touches, if_neg (by decide), linesOf_line]
  rfl

/-- A request on these lines has run at its home: the answers of the host that it used are spent (R377). -/
def State.admitted (s : State) (ts : List Touch) : State :=
  { s with port := { s.port with curOk := s.port.curOk.filter fun la => !(ts.any fun t => t.1 == la) } }

theorem atHome_free {s : State} {lk : Option Nat} {ts : List Touch} (h : ∀ t ∈ ts, s.homeBusy lk t = false) (c : HeldReq)
    (act : State → State) : s.atHome c lk ts act = act (s.admitted ts) := by
  have hnone : (ts.filter fun t => s.homeBusy lk t) = [] := List.filter_eq_nil_iff.2 fun t ht => ne_true_of_eq_false (h t ht)
  unfold State.atHome
  dsimp only
  rw [hnone]
  rfl

theorem atHome_line {s : State} {la : Nat} {wr : Bool} (h : s.homeBusy none (la, some wr) = false) (c : HeldReq)
    (act : State → State) : s.atHome c none [(la, some wr)] act = act (s.admitted [(la, some wr)]) :=
  atHome_free (fun t ht => by rw [List.mem_singleton.1 ht]; exact h) c act

/-- A snoop of the host changes the port and what leaves it. -/
theorem snoopHost_port (s : State) (la : Nat) (inv : Bool) :
    ∃ port out, s.snoopHost la inv = { s with port := port, out := out } := by
  unfold State.snoopHost
  split
  · exact ⟨s.port, s.out, rfl⟩
  · dsimp only
    split
    · exact ⟨_, _, rfl⟩
    · exact ⟨_, s.out, rfl⟩

theorem askHost_port (s : State) (t : Touch) : ∃ port out, s.askHost t = { s with port := port, out := out } := by
  unfold State.askHost
  split
  · split
    · exact snoopHost_port ..
    · exact ⟨s.port, s.out, rfl⟩
  · exact ⟨s.port, s.out, rfl⟩

theorem askAll_port (s : State) (ts : List Touch) : ∃ port out, s.askAll ts = { s with port := port, out := out } := by
  induction ts generalizing s with
  | nil => exact ⟨s.port, s.out, rfl⟩
  | cons t ts ih =>
    obtain ⟨p, o, h⟩ := askHost_port s t
    obtain ⟨p', o', h'⟩ := ih (s.askHost t)
    exact ⟨p', o', h'.trans (by rw [h])⟩

/-- A request that its home holds back waits behind those that already do. -/
theorem atHome_busy {s : State} {lk : Option Nat} {ts : List Touch} (h : ∃ t ∈ ts, s.homeBusy lk t = true) (c : HeldReq)
    (act : State → State) : (s.atHome c lk ts act).basin = { s.basin with held := s.basin.held ++ [c] } ∧
      (s.atHome c lk ts act).hdm = s.hdm := by
  have hsome : (ts.filter fun t => s.homeBusy lk t).isEmpty = false := by
    obtain ⟨t, ht, hb⟩ := h
    rw [List.isEmpty_eq_false_iff_exists_mem]
    exact ⟨t, List.mem_filter.2 ⟨ht, hb⟩⟩
  unfold State.atHome
  dsimp only
  rw [hsome, if_neg (by decide)]
  obtain ⟨port, out, hask⟩ := askAll_port s (ts.filter fun t => s.homeBusy lk t)
  unfold State.askAll at hask
  rw [hask]
  exact ⟨rfl, rfl⟩

theorem homeBusy_pinned {s : State} {la k : Nat} (h : (la, k) ∈ s.basin.pins) (wr : Option Bool) :
    s.homeBusy none (la, wr) = true := by
  have hpin : (s.basin.pins.any fun p => p.1 == la && (none : Option Nat) ≠ some p.2) = true :=
    List.any_eq_true.2 ⟨_, h, by simp⟩
  unfold State.homeBusy
  dsimp only
  rw [hpin, Bool.or_true, Bool.true_or, Bool.true_or]

/-! ### Reservations (R424) -/

/-- After the cancelling of a line's reservations only the agent that keeps its own still has one. -/
theorem cancelResv_lk {s : State} {la : Nat} {keep : Option Nat} {k : Nat}
    (h : ((s.cancelResv false la keep).lk k).resv = some la) : some (k + 16) = keep ∧ (s.lk k).resv = some la := by
  have hfold : ∀ (es : List (Nat × Lockkeeper)) (t : State),
      ((es.foldl (fun s e => s.setLk e.1 { e.2 with resv := none }) t).lk k).resv = some la →
      (t.lk k).resv = some la ∧ ∀ e ∈ es, e.1 ≠ k := fun es => by
    induction es with
    | nil => exact fun t ht => ⟨ht, fun e he => absurd he List.not_mem_nil⟩
    | cons e es ih =>
      intro t ht
      obtain ⟨h1, h2⟩ := ih _ ht
      rw [State.lk_setLk] at h1
      by_cases he : e.1 = k
      · rw [if_pos he] at h1
        exact absurd h1 (by simp)
      · rw [if_neg he] at h1
        exact ⟨h1, List.forall_mem_cons.2 ⟨he, h2⟩⟩
  unfold State.cancelResv at h
  rw [if_neg (by decide)] at h
  obtain ⟨hresv, hnot⟩ := hfold _ _ h
  refine ⟨?_, hresv⟩
  have hmem : (k, s.lk k) ∈ s.lks := mem_of_sget rfl fun hd => by
    have : (lkDefault s.fuses k).resv = none := rfl
    rw [show s.lk k = lkDefault s.fuses k from hd, this] at hresv
    exact absurd hresv (by simp)
  by_contra hne
  exact hnot _ (List.mem_filter.2 ⟨hmem, by simp [hresv, hne]⟩) rfl

/-! ### The caches of an agent, away from a line of HDM (R361, R374) -/

/-- No cache of the device holds a copy of a line of HDM. -/
def State.NoCopy (s : State) (la : Nat) : Prop := ∀ c ∈ s.basin.copies, c.host = true ∨ c.addr ≠ la

/-- The memory stands, a line of HDM stands as it was in its slice, no copy of it came, and no reservation on it. -/
structure State.LineKept (s t : State) (la : Nat) : Prop where
  hdm : t.hdm = s.hdm
  line : t.basinLine false la = s.basinLine false la
  copies : s.NoCopy la → t.NoCopy la
  resv : ∀ k, (t.lk k).resv = some la → (s.lk k).resv = some la

theorem State.LineKept.self (s : State) (la : Nat) : s.LineKept s la := ⟨rfl, rfl, id, fun _ h => h⟩

theorem State.LineKept.trans {s t u : State} {la : Nat} (h : s.LineKept t la) (h' : t.LineKept u la) : s.LineKept u la :=
  ⟨h'.hdm.trans h.hdm, h'.line.trans h.line, fun hs => h'.copies (h.copies hs), fun k hk => h.resv k (h'.resv k hk)⟩

theorem mCopy_noCopy {s : State} {la : Nat} (h : s.NoCopy la) : s.mCopy false la = none := by
  refine List.find?_eq_none.2 fun c hc => ?_
  rcases h c hc with h | h <;> simp [h]

theorem copyOf_noCopy {s : State} {la : Nat} (h : s.NoCopy la) (agent : Nat) : s.copyOf agent false la = none := by
  refine List.find?_eq_none.2 fun c hc => ?_
  rcases h c hc with h | h <;> simp [h]

section
variable {la : Nat}

theorem modLk_lineKept (s : State) (k : Nat) {f : Lockkeeper → Lockkeeper}
    (hf : ∀ x, (f x).resv = some la → x.resv = some la) : s.LineKept (s.modLk k f) la := by
  refine ⟨rfl, rfl, id, fun j hj => ?_⟩
  rw [State.modLk, State.lk_setLk] at hj
  split at hj
  · next h => exact h ▸ hf _ hj
  · exact hj

theorem loseResv_lineKept (s : State) (k : Nat) (host : Bool) (x : Nat) : s.LineKept (s.loseResv k host x) la := by
  unfold State.loseResv
  split
  · exact modLk_lineKept s k fun x h => absurd h (by simp)
  · exact .self s la

theorem loseResvOf_lineKept (s : State) (agent : Nat) (host : Bool) (x : Nat) :
    s.LineKept (if 16 ≤ agent ∧ agent < 40 then s.loseResv (agent - 16) host x else s) la := by
  split
  · exact loseResv_lineKept ..
  · exact .self s la

/-- A change of other lines leaves a line as it was. -/
theorem basinLine_map_other {s t : State} (f : Line → Line) (ht : t.basin.lines = s.basin.lines.map f) {host : Bool}
    (hf : ∀ l, (f l).host = l.host ∧ (f l).addr = l.addr) (hid : ∀ l, l.host = host → l.addr = la → f l = l) :
    t.basinLine host la = s.basinLine host la := by
  rw [basinLine_map f ht hf]
  cases hl : s.basinLine host la with
  | none => rfl
  | some l =>
    obtain ⟨h1, h2⟩ := basinLine_key hl
    exact congrArg some (hid l h1 h2)

theorem putLine_lineKept (s : State) {y : Line} (hy : y.host = true ∨ y.addr ≠ la) : s.LineKept (s.putLine y) la := by
  refine ⟨rfl, basinLine_map_other _ rfl (fun l => ?_) (fun l h1 h2 => ?_), id, fun _ h => h⟩
  · split
    · next h => simp at h; simp [h]
    · exact ⟨rfl, rfl⟩
  · refine if_neg fun h => ?_
    simp only [Bool.and_eq_true, beq_iff_eq] at h
    rcases hy with hy | hy
    · rw [← h.1, h1] at hy
      exact absurd hy (by decide)
    · exact hy (h.2 ▸ h2)

theorem recall_lineKept (s : State) {host : Bool} {x : Nat} (hx : host = true ∨ x ≠ la) : s.LineKept (s.recall host x) la := by
  unfold State.recall
  split
  · next c l hc hl =>
    obtain ⟨h1, h2⟩ := basinLine_key hl
    exact putLine_lineKept s (by simpa [h1, h2] using hx)
  · exact .self s la

theorem filterCopies_lineKept (s : State) (p : Copy → Bool) :
    s.LineKept { s with basin := { s.basin with copies := s.basin.copies.filter p } } la :=
  ⟨rfl, rfl, fun h c hc => h c (List.mem_filter.1 hc).1, fun _ h => h⟩

theorem mapCopies_lineKept (s : State) {f : Copy → Copy} (hf : ∀ c, (f c).host = c.host ∧ (f c).addr = c.addr) :
    s.LineKept { s with basin := { s.basin with copies := s.basin.copies.map f } } la := by
  refine ⟨rfl, rfl, fun h c hc => ?_, fun _ h => h⟩
  obtain ⟨d, hd, rfl⟩ := List.mem_map.1 hc
  rw [(hf d).1, (hf d).2]
  exact h d hd

theorem putCopy_lineKept (s : State) (c : Copy) : s.LineKept (s.putCopy c) la := by
  refine mapCopies_lineKept s fun x => ?_
  split
  · next h => simp at h; simp [h]
  · exact ⟨rfl, rfl⟩

theorem removeCopy_lineKept (s : State) (agent : Nat) {host : Bool} {x : Nat} (hx : host = true ∨ x ≠ la) :
    s.LineKept (s.removeCopy agent host x) la := by
  unfold State.removeCopy
  have h := loseResvOf_lineKept (la := la) s agent host x
  dsimp only
  generalize (if 16 ≤ agent ∧ agent < 40 then s.loseResv (agent - 16) host x else s) = t at *
  refine h.trans ⟨rfl, basinLine_map_other _ rfl (fun l => ?_) (fun l h1 h2 => ?_), fun h c hc => h c (List.mem_filter.1 hc).1,
    fun _ h => h⟩
  · split <;> exact ⟨rfl, rfl⟩
  · refine if_neg fun h => ?_
    simp only [Bool.and_eq_true, beq_iff_eq] at h
    rcases hx with hx | hx
    · rw [← h.1, h1] at hx
      exact absurd hx (by decide)
    · exact hx (h.2 ▸ h2)

theorem writeBack_lineKept (s : State) (agent : Nat) {host : Bool} {x : Nat} (hx : host = true ∨ x ≠ la) :
    s.LineKept (s.writeBack agent host x) la := by
  unfold State.writeBack
  split
  · exact .self s la
  · split
    · exact (recall_lineKept s hx).trans (removeCopy_lineKept _ agent hx)
    · exact filterCopies_lineKept s _

theorem copyRoom_lineKept {s : State} (hno : s.NoCopy la) (agent : Nat) : s.LineKept (s.copyRoom agent) la := by
  unfold State.copyRoom
  dsimp only
  split
  · next v vs hvs =>
    split
    · exact .self s la
    · have hv : v ∈ s.basin.copies := (List.mem_filter.1 (hvs ▸ List.mem_cons_self)).1
      exact writeBack_lineKept s agent (hno v hv)
  · exact .self s la

theorem evictCopy_lineKept {s : State} (hno : s.NoCopy la) (c : Copy) : s.LineKept (s.evictCopy c) la := by
  unfold State.evictCopy
  have h := loseResvOf_lineKept (la := la) s c.agent c.host c.addr
  dsimp only
  generalize (if 16 ≤ c.agent ∧ c.agent < 40 then s.loseResv (c.agent - 16) c.host c.addr else s) = t at *
  split
  · exact h.trans ((copyRoom_lineKept (h.copies hno) c.agent).trans (putCopy_lineKept _ _))
  · exact h.trans (filterCopies_lineKept t _)

/-- The ages of an agent's set risen, as a fill makes them rise (R384). -/
def State.agedCopies (s : State) (agent set up : Nat) : State :=
  if up = 0 then s else
    { s with basin := { s.basin with copies := s.basin.copies.map fun c =>
        if c.agent == agent && !c.victim && s.copySet agent c.host c.addr == set then { c with age := min 3 (c.age + up) }
        else c } }

/-- The copy in a way evicted, where the fill takes the way of one. -/
def State.leftWay (s : State) (agent set w : Nat) (leave : Bool) : State :=
  if leave then ((s.setCopies agent set).find? fun c => c.way == w).elim s s.evictCopy else s

theorem placeCopy_eq (s : State) (agent : Nat) (host : Bool) (x : Nat) : (s.placeCopy agent host x).1 = s ∨
    ∃ w up leave, (s.placeCopy agent host x).1 =
      (s.agedCopies agent (s.copySet agent host x) up).leftWay agent (s.copySet agent host x) w leave := by
  unfold State.placeCopy
  dsimp only
  split
  · exact .inl rfl
  · next w up leave _ =>
    refine .inr ⟨w, up, leave, ?_⟩
    unfold State.leftWay State.agedCopies
    dsimp only
    cases leave with
    | false => rfl
    | true =>
      rw [if_pos rfl, if_pos rfl]
      split
      · next h => rw [h]; rfl
      · next h => rw [h]; rfl

theorem agedCopies_lineKept (s : State) (agent set up : Nat) : s.LineKept (s.agedCopies agent set up) la := by
  unfold State.agedCopies
  split
  · exact .self s la
  · exact mapCopies_lineKept s fun c => by split <;> exact ⟨rfl, rfl⟩

theorem leftWay_lineKept {s : State} (hno : s.NoCopy la) (agent set w : Nat) (leave : Bool) :
    s.LineKept (s.leftWay agent set w leave) la := by
  unfold State.leftWay
  split
  · cases (s.setCopies agent set).find? fun c => c.way == w with
    | none => exact .self s la
    | some c => exact evictCopy_lineKept hno c
  · exact .self s la

theorem placeCopy_lineKept {s : State} (hno : s.NoCopy la) (agent : Nat) (host : Bool) (x : Nat) :
    s.LineKept (s.placeCopy agent host x).1 la := by
  rcases placeCopy_eq s agent host x with h | ⟨w, up, leave, h⟩
  · rw [h]
    exact .self s la
  · have hage := agedCopies_lineKept (la := la) s agent (s.copySet agent host x) up
    rw [h]
    exact hage.trans (leftWay_lineKept (hage.copies hno) ..)

theorem rcInject_lineKept (s : State) (agent : Nat) : s.LineKept (s.rcInject agent).1 la := by
  unfold State.rcInject
  split
  · exact ⟨rfl, rfl, id, fun _ h => h⟩
  · split
    · refine (modLk_lineKept (la := la) s (agent - 16) (f := fun x => { x with inject := none }) fun x h => h).trans ?_
      exact ⟨rfl, rfl, id, fun _ h => h⟩
    · exact .self s la

end

end Sys2Proof.Machine
end

section
/-! The fill of a line of HDM, and the copy that a grant gives (R368, R371, R384). -/

open Sys2Proof Sys2Proof.Machine

namespace Sys2Proof.Machine

/-! ### A fill with a free way (R384) -/

theorem chooseWay_free {ways : List Nat} {used : List WayUse} (h : ∃ w ∈ ways, ∀ u ∈ used, u.way ≠ w) :
    ∃ w, chooseWay ways used = some (w, 0, false) := by
  obtain ⟨w, hw, hfree⟩ := h
  have hsome : (ways.find? fun w => !(used.any fun u => u.way == w)).isSome = true := by
    refine List.find?_isSome.2 ⟨w, hw, ?_⟩
    simp only [Bool.not_eq_true', List.any_eq_false, beq_iff_eq]
    exact hfree
  obtain ⟨x, hx⟩ := Option.isSome_iff_exists.1 hsome
  exact ⟨x, by rw [chooseWay, hx]⟩

theorem placeLine_room {s : State} {la : Nat} (h : s.RoomFor la) : ∃ w, s.placeLine false la = (s, some w) := by
  obtain ⟨⟨w, hw, hfree⟩, -, -⟩ := h
  obtain ⟨x, hx⟩ := chooseWay_free (ways := s.bsnWays (s.slice false la)) (used := (s.setLines (s.slice false la)
    (s.bsnSet false la)).map fun l => { way := l.way, age := l.age, empty := l.presence.isEmpty, free := !l.watch : WayUse })
    ⟨w, hw, fun u hu => by obtain ⟨l, hl, rfl⟩ := List.mem_map.1 hu; exact hfree l hl⟩
  refine ⟨x, ?_⟩
  unfold State.placeLine
  dsimp only
  rw [hx]
  rfl

/-- A line of HDM as a fill from clean words brings it. -/
def State.newLine (s : State) (la age w : Nat) : Line :=
  { host := false, addr := la, data := s.hdm.read la 64, marks := [], age := age, way := w }

/-- The state with that line. -/
def State.filled (s : State) (la age w : Nat) : State :=
  { s with basin := { s.basin with lines := s.basin.lines ++ [s.newLine la age w] } }

theorem fillLine_room {s : State} {la : Nat} (hnone : s.basinLine false la = none) (hroom : s.RoomFor la)
    (hb : s.Backed la) (hclean : s.CleanLine la) (hal : la % 64 = 0) (age : Nat) :
    ∃ w, s.fillLine false la age = s.filled la age w := by
  obtain ⟨w, hw⟩ := placeLine_room hroom
  refine ⟨w, ?_⟩
  unfold State.fillLine
  rw [hnone]
  dsimp only
  rw [hw]
  dsimp only
  have hread : s.homeRead false la = (s, { data := s.hdm.read la 64, poison := 0 }) := stkReadLine_clean hb hclean hal
  rw [hread]
  exact bsnInject_off (s := s.filled la age w) hroom.2.1 hroom.2.2 false la 0

theorem basinLine_filled {s : State} {la : Nat} (hnone : s.basinLine false la = none) (age w : Nat) :
    (s.filled la age w).basinLine false la = some (s.newLine la age w) := by
  unfold State.basinLine State.filled
  dsimp only
  rw [List.find?_append, show s.basin.lines.find? _ = none from hnone]
  simp [State.newLine]

theorem filled_lineKept (s : State) (la age w : Nat) : (s.filled la age w).hdm = s.hdm ∧
    (s.filled la age w).basin.copies = s.basin.copies ∧ (s.filled la age w).lks = s.lks := ⟨rfl, rfl, rfl⟩

/-! ### The copy that a grant gives (R368) -/

/-- The one copy of an agent in a list where it stands for all the earlier ones. -/
theorem copyOf_replaced {agent la : Nat} {host : Bool} {t : State} (cs : List Copy) (c : Copy) (ha : c.agent = agent)
    (hh : c.host = host) (hx : c.addr = la) (ht : t.basin.copies = (cs.filter fun x =>
      !(x.agent == agent && x.host == host && x.addr == la)) ++ [c]) : t.copyOf agent host la = some c := by
  have hnone : (cs.filter fun x => !(x.agent == agent && x.host == host && x.addr == la)).find? (fun x =>
      x.agent == agent && x.host == host && x.addr == la) = none := List.find?_eq_none.2 fun x hx => by
    have := (List.mem_filter.1 hx).2
    rw [Bool.not_eq_true'] at this
    exact ne_true_of_eq_false this
  rw [State.copyOf, ht, List.find?_append, hnone]
  simp [ha, hh, hx]

/-- A copy given to an agent that has none. -/
structure State.Granted (s t : State) (agent la : Nat) (st : LineSt) (d : LineData) (l : Line) : Prop where
  hdm : t.hdm = s.hdm
  line : t.basinLine false la = some { l with presence := insertNat agent l.presence
                                              owner := if st = .s then l.owner else some agent }
  copy : ∃ c, t.copyOf agent false la = some c ∧ c.st = st ∧ c.data = if st = .m then d.data else []
  resv : ∀ k, (t.lk k).resv = some la → (s.lk k).resv = some la

theorem grant_effect {s : State} {la : Nat} (hno : s.NoCopy la) {l : Line} (hl : s.basinLine false la = some l) (agent : Nat)
    (st : LineSt) (d : LineData) (age : Nat) : s.Granted (s.grant agent false la st d age) agent la st d l := by
  have hplace := placeCopy_lineKept hno agent false la
  have hinj := hplace.trans (rcInject_lineKept (la := la) (s.placeCopy agent false la).1 agent)
  obtain ⟨h1, h2⟩ := basinLine_key hl
  unfold State.grant
  rw [copyOf_noCopy hno]
  dsimp only
  generalize (s.placeCopy agent false la).2 = w
  generalize ((s.placeCopy agent false la).1.rcInject agent).2 = bad
  generalize ((s.placeCopy agent false la).1.rcInject agent).1 = t at *
  have hline : ∀ cs : List Copy, ({ t with basin := { t.basin with copies := cs } } : State).basinLine false la = some l :=
    fun _ => hinj.line.trans hl
  rw [hline]
  dsimp only
  refine ⟨hinj.hdm, basinLine_putLine (hline _) h1 h2, ?_, hinj.resv⟩
  exact ⟨_, copyOf_replaced t.basin.copies _ rfl rfl rfl rfl, rfl, rfl⟩

/-! ### Copies that go from a line that has none -/

theorem snoopBerths_noCopy {s : State} {la : Nat} (h : s.NoCopy la) (keep : Option Nat) :
    s.snoopBerths false la keep = s :=
  snoopBerths_none fun c hc => .inr ((h c hc).imp_right .inl)

theorem dropCopies_noCopy {s : State} {la : Nat} (h : s.NoCopy la) (keep : Option Nat) :
    ∃ lks, s.dropCopies false la keep = { s with lks := lks, basin := s.basin.dropCopies false la keep } :=
  dropCopies_fields fun c hc => .inr ((h c hc).imp_right .inl)

theorem dropCopies_resv {s : State} {la : Nat} (h : s.NoCopy la) {keep : Option Nat} {k : Nat}
    (hk : ((s.dropCopies false la keep).lk k).resv = some la) : some (k + 16) = keep := by
  obtain ⟨lks, hlks⟩ := cancelResv_fields s false la keep
  have hsnoop : (s.cancelResv false la keep).snoopBerths false la keep = s.cancelResv false la keep :=
    snoopBerths_noCopy (s := s.cancelResv false la keep) (by rw [hlks]; exact h) keep
  unfold State.dropCopies at hk
  rw [hsnoop] at hk
  exact (cancelResv_lk hk).1

theorem dropCopies_lineKept_copies {s : State} {la : Nat} (h : s.NoCopy la) (keep : Option Nat) :
    (s.dropCopies false la keep).NoCopy la := by
  obtain ⟨lks, hd⟩ := dropCopies_noCopy h keep
  rw [hd]
  exact fun c hc => h c (List.mem_filter.1 hc).1

/-! ### Shared and ownership reads of an uncached line (R371) -/

/-- A line of HDM that no cache holds, with a free way in its slice, in a backed frame of clean words. -/
structure State.Fresh (s : State) (la : Nat) : Prop where
  absent : s.basinLine false la = none
  noCopy : s.NoCopy la
  room : s.RoomFor la
  backed : s.Backed la
  clean : s.CleanLine la
  aligned : la % 64 = 0

section
variable {s : State} {la : Nat} (h : s.Fresh la)
include h

theorem fillLine_fresh (age : Nat) : ∃ w, s.fillLine false la age = s.filled la age w :=
  fillLine_room h.absent h.room h.backed h.clean h.aligned age

theorem latestLine_filled (age w : Nat) :
    (s.filled la age w).latestLine false la = { data := s.hdm.read la 64, poison := 0 } := by
  have hno : (s.filled la age w).NoCopy la := h.noCopy
  rw [State.latestLine, mCopy_noCopy hno, basinLine_filled h.absent age w]
  rfl

/-- The shared read of such a line fills it and grants it. -/
theorem sharedRead_runs (agent attr : Nat) : ∃ w, s.sharedRead agent false la attr =
    ((s.filled la (fillAge attr) w).grant agent false la
      (if (decide (agent < 16) || decide (40 ≤ agent)) && !false then .e else .s)
      { data := s.hdm.read la 64, poison := 0 } (fillAge attr), { data := s.hdm.read la 64, poison := 0 }) := by
  obtain ⟨w, hfill⟩ := fillLine_fresh h (fillAge attr)
  refine ⟨w, ?_⟩
  have hl := basinLine_filled h.absent (fillAge attr) w
  have hno : (s.filled la (fillAge attr) w).NoCopy la := h.noCopy
  have hlatest := latestLine_filled h (fillAge attr) w
  have hshared : (s.filled la (fillAge attr) w).sharedWith agent false la = false := by
    rw [State.sharedWith, hl]
    rfl
  unfold State.sharedRead
  rw [hfill]
  generalize s.filled la (fillAge attr) w = t at *
  have howner : (s.newLine la (fillAge attr) w).owner = none := rfl
  simp only [hl, howner, basinCheck_clean hl rfl, copyOf_noCopy hno, hshared, hlatest]
  rfl

/-- The shared read of such a line takes it from its stack, for the one agent that has it now. -/
theorem sharedRead_fresh (agent attr : Nat) : (s.sharedRead agent false la attr).1.hdm = s.hdm ∧
    ∃ l c, (s.sharedRead agent false la attr).1.basinLine false la = some l ∧ l.data = s.hdm.read la 64 ∧
      l.dirty = false ∧ l.presence = [agent] ∧ (s.sharedRead agent false la attr).1.copyOf agent false la = some c ∧
      c.st = (if agent < 16 ∨ 40 ≤ agent then .e else .s) := by
  obtain ⟨w, hrun⟩ := sharedRead_runs h agent attr
  have hno : (s.filled la (fillAge attr) w).NoCopy la := h.noCopy
  have hhdm : (s.filled la (fillAge attr) w).hdm = s.hdm := rfl
  have hgrant := grant_effect hno (basinLine_filled h.absent (fillAge attr) w) agent
    (if (decide (agent < 16) || decide (40 ≤ agent)) && !false then .e else .s)
    { data := s.hdm.read la 64, poison := 0 } (fillAge attr)
  rw [hrun]
  obtain ⟨c, hc, hst, -⟩ := hgrant.copy
  refine ⟨hgrant.hdm.trans hhdm, _, c, hgrant.line, rfl, rfl, rfl, hc, ?_⟩
  rw [hst]
  simp

/-- The ownership read of such a line fills it and grants it once its reservations have gone. -/
theorem ownershipRead_runs (agent : Nat) : ∃ w, s.ownershipRead agent false la =
    ((((s.filled la 1 w).dropCopies false la (some agent)).putLine (s.newLine la 1 w)).grant agent false la .m
      { data := s.hdm.read la 64, poison := 0 } 1, { data := s.hdm.read la 64, poison := 0 }) := by
  obtain ⟨w, hfill⟩ := fillLine_fresh h 1
  refine ⟨w, ?_⟩
  have hl := basinLine_filled h.absent 1 w
  have hlatest := latestLine_filled h 1 w
  have hline := basinLine_dropCopies (s.filled la 1 w) false la (some agent)
  rw [hl, Option.map_some] at hline
  have hput := basinLine_putLine hline (y := s.newLine la 1 w) rfl rfl
  have hsame : { (s.newLine la 1 w).dropped (some agent) with presence :=
      ((s.newLine la 1 w).dropped (some agent)).presence.filter (· ≠ 44) } = s.newLine la 1 w := by
    simp [State.newLine, Line.dropped]
  unfold State.ownershipRead
  rw [hfill]
  dsimp only
  rw [basinCheck_clean hl rfl, hlatest]
  generalize (s.filled la 1 w).dropCopies false la (some agent) = t at *
  simp only [hline, hsame, hput]
  rfl

/-- The ownership read of such a line gives its data to the requester, which owns it. -/
theorem ownershipRead_fresh (agent : Nat) : (s.ownershipRead agent false la).1.hdm = s.hdm ∧
    (∀ k, ((s.ownershipRead agent false la).1.lk k).resv = some la → k + 16 = agent) ∧
    ∃ l c, (s.ownershipRead agent false la).1.basinLine false la = some l ∧ l.presence = [agent] ∧ l.owner = some agent ∧
      (s.ownershipRead agent false la).1.copyOf agent false la = some c ∧ c.st = .m ∧ c.data = s.hdm.read la 64 := by
  obtain ⟨w, hrun⟩ := ownershipRead_runs h agent
  have hno : (s.filled la 1 w).NoCopy la := h.noCopy
  have hline := basinLine_dropCopies (s.filled la 1 w) false la (some agent)
  rw [basinLine_filled h.absent 1 w, Option.map_some] at hline
  have hresv := fun k => dropCopies_resv (k := k) hno (keep := some agent)
  have hno' := dropCopies_lineKept_copies hno (some agent)
  obtain ⟨lks, hdrop⟩ := dropCopies_noCopy hno (some agent)
  have hhdm' : ((s.filled la 1 w).dropCopies false la (some agent)).hdm = s.hdm := by rw [hdrop]; rfl
  rw [hrun]
  generalize (s.filled la 1 w).dropCopies false la (some agent) = t at *
  have hput := basinLine_putLine hline (y := s.newLine la 1 w) rfl rfl
  have hgrant := grant_effect (s := t.putLine _) hno' hput agent .m { data := s.hdm.read la 64, poison := 0 } 1
  obtain ⟨c, hc, hst, hdata⟩ := hgrant.copy
  refine ⟨hgrant.hdm.trans hhdm', fun k hk => ?_, _, c, hgrant.line, rfl, rfl, hc, hst, hdata⟩
  exact Option.some.inj (hresv k (hgrant.resv k hk))

end

end Sys2Proof.Machine
end

section
/-! The requests of R371 at a line's home, and atomics and moored memory (R365 to R374, R381, R382, R393). -/

open Sys2Proof Sys2Proof.Machine

namespace Sys2Proof.Machine

/-! ### The line and the copies after an owner's write-back (R371, R373) -/

theorem copyOf_key {s : State} {agent la : Nat} {host : Bool} {c : Copy} (h : s.copyOf agent host la = some c) :
    c.agent = agent ∧ c.host = host ∧ c.addr = la := by
  have := List.find?_some h
  simpa [and_assoc] using this

theorem copyOf_putCopy {s : State} {agent la : Nat} {host : Bool} {c d : Copy} (h : s.copyOf agent host la = some c)
    (ha : d.agent = agent) (hh : d.host = host) (hx : d.addr = la) : (s.putCopy d).copyOf agent host la = some d := by
  obtain ⟨h1, h2, h3⟩ := copyOf_key h
  unfold State.copyOf State.putCopy
  dsimp only
  rw [List.find?_map]
  have hsame : ((fun c : Copy => c.agent == agent && c.host == host && c.addr == la) ∘ fun x : Copy =>
      if x.agent == d.agent && x.host == d.host && x.addr == d.addr then d else x) =
      fun c => c.agent == agent && c.host == host && c.addr == la := by
    funext x
    simp only [Function.comp]
    split
    · next hk =>
      simp only [Bool.and_eq_true, beq_iff_eq] at hk
      simp [ha, hh, hx, hk.1.1, hk.1.2, hk.2]
    · rfl
  rw [hsame, show s.basin.copies.find? _ = some c from h, Option.map_some, if_pos (by simp [h1, h2, h3, ha, hh, hx])]

theorem copyOf_removeCopy (s : State) (agent : Nat) (host : Bool) (la : Nat) :
    (s.removeCopy agent host la).copyOf agent host la = none := by
  unfold State.copyOf State.removeCopy
  dsimp only
  refine List.find?_eq_none.2 fun x hx => ?_
  have := (List.mem_filter.1 hx).2
  rw [Bool.not_eq_true'] at this
  exact ne_true_of_eq_false this

theorem loseResvOf_fields (s : State) (agent : Nat) (host : Bool) (la : Nat) :
    ∃ lks, (if 16 ≤ agent ∧ agent < 40 then s.loseResv (agent - 16) host la else s) = { s with lks := lks } := by
  unfold State.loseResv
  split
  · split
    · exact ⟨_, rfl⟩
    · exact ⟨s.lks, rfl⟩
  · exact ⟨s.lks, rfl⟩

/-- The loss of a copy changes the caches and the lockkeepers alone. -/
theorem removeCopy_fields (s : State) (agent : Nat) (host : Bool) (la : Nat) :
    ∃ lks, s.removeCopy agent host la = { s with lks := lks, basin := { s.basin with
      copies := s.basin.copies.filter fun c => !(c.agent == agent && c.host == host && c.addr == la)
      lines := s.basin.lines.map fun l => if l.host == host && l.addr == la then
        { l with presence := l.presence.filter (· ≠ agent), owner := if l.owner = some agent then none else l.owner }
        else l } } := by
  obtain ⟨lks, h⟩ := loseResvOf_fields s agent host la
  refine ⟨lks, ?_⟩
  unfold State.removeCopy
  dsimp only
  rw [h]

theorem basinLine_removeCopy {s : State} {host : Bool} {la : Nat} {l : Line} (h : s.basinLine host la = some l) (agent : Nat) :
    (s.removeCopy agent host la).basinLine host la = some
      { l with presence := l.presence.filter (· ≠ agent), owner := if l.owner = some agent then none else l.owner } := by
  obtain ⟨h1, h2⟩ := basinLine_key h
  obtain ⟨lks, hr⟩ := removeCopy_fields s agent host la
  rw [basinLine_map (s := s) _ (by rw [hr]) fun l => by split <;> exact ⟨rfl, rfl⟩, h, Option.map_some, if_pos (by simp [h1, h2])]

/-- What the home takes of a modified copy. -/
def Line.taking (l : Line) (c : Copy) : Line :=
  { l with data := c.data, dirty := true, owner := none
           marks := (List.range 8).foldl (fun m i => sset 0 i (if bitOf c.poison i then 3 else 0) m) [] }

section
variable {s : State} {host : Bool} {la : Nat} {c : Copy} {l : Line} (hm : s.mCopy host la = some c)
  (hl : s.basinLine host la = some l)
include hm hl

theorem recall_modified : s.recall host la = s.putLine (l.taking c) := by
  rw [State.recall, hm, hl]
  rfl

theorem basinLine_recall : (s.recall host la).basinLine host la = some (l.taking c) := by
  obtain ⟨h1, h2⟩ := basinLine_key hl
  rw [recall_modified hm hl]
  exact basinLine_putLine hl h1 h2

end

/-- What an owner's copy leaves at the home: its data in a dirty line that no agent owns. -/
def State.HomeTook (s u : State) (la : Nat) (c : Copy) : Prop :=
  u.hdm = s.hdm ∧ ∃ x, u.basinLine false la = some x ∧ x.data = c.data ∧ x.dirty = true ∧ x.owner = none

theorem removed_recall {s : State} {agent la : Nat} {c : Copy} {l : Line} (hm : s.mCopy false la = some c)
    (hl : s.basinLine false la = some l) : s.HomeTook ((s.recall false la).removeCopy agent false la) la c := by
  refine ⟨?_, _, basinLine_removeCopy (basinLine_recall hm hl) agent, rfl, rfl, ?_⟩
  · obtain ⟨lks, h⟩ := removeCopy_fields (s.recall false la) agent false la
    rw [h, recall_modified hm hl]
    rfl
  · simp [Line.taking]

theorem removed_out (s : State) (agent la : Nat) : ((s.recall false la).removeCopy agent false la).out = s.out := by
  obtain ⟨lks, h⟩ := removeCopy_fields (s.recall false la) agent false la
  rw [h]
  unfold State.recall
  dsimp only
  split <;> rfl

theorem latestLine_modified {s : State} {host : Bool} {la : Nat} {c : Copy} (hm : s.mCopy host la = some c) :
    s.latestLine host la = { data := c.data, poison := c.poison } := by
  rw [State.latestLine, hm]

theorem writeBack_owner {s : State} {agent la : Nat} {host : Bool} {c : Copy} (hc : s.copyOf agent host la = some c)
    (hst : c.st = .m) : s.writeBack agent host la = (s.recall host la).removeCopy agent host la := by
  rw [State.writeBack, hc]
  exact if_pos hst

section
variable {s : State} (hlive : s.Live) {agent addr : Nat} {c : Copy} {l : Line}
  (hc : s.copyOf agent false (lineOf addr) = some c) (hst : c.st = .m) (hm : s.mCopy false (lineOf addr) = some c)
  (hl : s.basinLine false (lineOf addr) = some l)
include hlive hc hst hm hl

theorem mLineWriteBack_owner : Completes (.mLineWriteBack agent false addr) s fun u =>
    s.HomeTook u (lineOf addr) c ∧ u.copyOf agent false (lineOf addr) = none := by
  have hrun : exec (.mLineWriteBack agent false addr) s =
      doneLive s ((s.recall false (lineOf addr)).removeCopy agent false (lineOf addr)) :=
    congrArg (doneLive s) (writeBack_owner hc hst)
  exact completes_live hlive hrun ⟨removed_recall hm hl, copyOf_removeCopy ..⟩

theorem forwarded_own : Completes (.forwardedRequest agent false addr true) s fun u =>
    s.HomeTook u (lineOf addr) c ∧ u.copyOf agent false (lineOf addr) = none ∧
      u.out = s.out ++ [.homeData c.data (decide (c.poison ≠ 0))] := by
  have hrun : exec (.forwardedRequest agent false addr true) s = doneLive s
      (((s.emit (.homeData c.data (decide (c.poison ≠ 0)))).recall false (lineOf addr)).removeCopy agent false
        (lineOf addr)) := by
    change execForwardedRequest agent false addr true s = _
    unfold execForwardedRequest
    dsimp only
    rw [hc, latestLine_modified hm]
    dsimp only
    rw [if_pos hst, if_pos rfl]
  refine completes_live hlive hrun ⟨?_, copyOf_removeCopy .., removed_out (s.emit _) ..⟩
  exact removed_recall (s := s.emit (.homeData c.data (decide (c.poison ≠ 0)))) hm hl

theorem forwarded_shared : Completes (.forwardedRequest agent false addr false) s fun u =>
    s.HomeTook u (lineOf addr) c ∧
      u.copyOf agent false (lineOf addr) = some { c with st := .s, data := [], poison := 0 } ∧
      u.out = s.out ++ [.homeData c.data (decide (c.poison ≠ 0))] := by
  have hline := basinLine_recall (s := s.emit (.homeData c.data (decide (c.poison ≠ 0)))) hm hl
  have hrec := recall_modified (s := s.emit (.homeData c.data (decide (c.poison ≠ 0)))) hm hl
  obtain ⟨ka, kh, kx⟩ := copyOf_key hc
  obtain ⟨h1, h2⟩ := basinLine_key hl
  have hcopy : ((s.emit (.homeData c.data (decide (c.poison ≠ 0)))).recall false (lineOf addr)).copyOf agent false
      (lineOf addr) = some c := by
    rw [hrec]
    exact hc
  have hkept : ((s.emit (.homeData c.data (decide (c.poison ≠ 0)))).recall false (lineOf addr)).hdm = s.hdm ∧
      ((s.emit (.homeData c.data (decide (c.poison ≠ 0)))).recall false (lineOf addr)).out =
        s.out ++ [.homeData c.data (decide (c.poison ≠ 0))] ∧
      ((s.emit (.homeData c.data (decide (c.poison ≠ 0)))).recall false (lineOf addr)).fuses = s.fuses := by
    rw [hrec]
    exact ⟨rfl, rfl, rfl⟩
  have hrun : exec (.forwardedRequest agent false addr false) s = doneLive s
      ((((s.emit (.homeData c.data (decide (c.poison ≠ 0)))).recall false (lineOf addr)).putCopy
        { c with st := .s, data := [], poison := 0 }).putLine
          { l.taking c with owner := if (l.taking c).owner = some agent then none else (l.taking c).owner }) := by
    change execForwardedRequest agent false addr false s = _
    unfold execForwardedRequest
    dsimp only
    rw [hc, latestLine_modified hm]
    dsimp only
    rw [if_pos hst, if_neg (by decide)]
    rw [show (((s.emit (.homeData c.data (decide (c.poison ≠ 0)))).recall false (lineOf addr)).putCopy
        { c with st := .s, data := [], poison := 0 }).basinLine false (lineOf addr) = some (l.taking c) from hline]
  generalize (s.emit (.homeData c.data (decide (c.poison ≠ 0)))).recall false (lineOf addr) = t at *
  have hput := basinLine_putLine (s := t.putCopy { c with st := .s, data := [], poison := 0 }) hline
    (y := { l.taking c with owner := if (l.taking c).owner = some agent then none else (l.taking c).owner }) h1 h2
  have hnew := copyOf_putCopy (d := { c with st := .s, data := [], poison := 0 }) hcopy ka kh kx
  obtain ⟨hhdm, hout, -⟩ := hkept
  refine completes_live hlive hrun ⟨⟨hhdm, _, hput, rfl, rfl, ?_⟩, hnew, hout⟩
  simp [Line.taking]

end

theorem victimWriteback_owner {s : State} {agent addr : Nat} {c : Copy} (hc : s.copyOf agent false (lineOf addr) = some c)
    (hv : c.victim = true) : exec (.victimWritebackAccept agent false addr) s = exec (.mLineWriteBack agent false addr) s := by
  change execVictimWritebackAccept agent false addr s = doneLive s _
  unfold execVictimWritebackAccept
  dsimp only
  rw [hc]
  exact congrArg (doneLive s) (if_pos hv)

theorem victimWriteback_inWay {s : State} (hlive : s.Live) {agent addr : Nat} {c : Copy}
    (hc : s.copyOf agent false (lineOf addr) = some c) (hv : c.victim = false) :
    exec (.victimWritebackAccept agent false addr) s = .next (s.seal s) := by
  change execVictimWritebackAccept agent false addr s = _
  unfold execVictimWritebackAccept
  dsimp only
  rw [hc]
  dsimp only
  rw [hv, if_neg (by decide), doneLive_of_live hlive]

/-! ### Requests of agents without a copy (R373) -/

section
variable {s : State} (hlive : s.Live) {agent addr : Nat} {host : Bool} (hc : s.copyOf agent host (lineOf addr) = none)
include hlive hc

theorem mLineWriteBack_absent : exec (.mLineWriteBack agent host addr) s = .next (s.seal s) := by
  change doneLive s (s.writeBack agent host (lineOf addr)) = _
  rw [State.writeBack, hc, doneLive_of_live hlive]

theorem forwardedRequest_absent (own : Bool) : exec (.forwardedRequest agent host addr own) s = .next (s.seal s) := by
  change execForwardedRequest agent host addr own s = _
  unfold execForwardedRequest
  dsimp only
  rw [hc, doneLive_of_live hlive]

theorem victimWriteback_drain : exec (.victimWritebackAccept agent host addr) s =
    .next ((s.drainLine host (lineOf addr)).seal s) := by
  change execVictimWritebackAccept agent host addr s = _
  unfold execVictimWritebackAccept
  dsimp only
  rw [hc, doneLive_of_live hlive]

end

theorem drainLine_absent {s : State} {host : Bool} {la : Nat} (h : s.basinLine host la = none) : s.drainLine host la = s := by
  rw [State.drainLine, h]

theorem words_whole {a n : Nat} (ha : a % 8 = 0) (hn : n % 8 = 0) {w : Nat} (hw : w ∈ wordsOf a n) :
    a ≤ 8 * w ∧ 8 * w + 8 ≤ a + n := by
  obtain ⟨h0, h1, h2⟩ := mem_wordsOf.1 hw
  omega

/-- Whole words written within a backed frame: HDM has these bytes, and no other byte of it changes. -/
theorem stkWriteLine_put {s : State} {a : Nat} (hb : s.Backed a) {bs : List Byte} (mask : Nat) (ha : a % 8 = 0)
    (hn : bs.length % 8 = 0) : ∃ stk regs, s.stkWriteLine a bs mask =
      s.stored (s.hdm.putWords a bs mask (wordsOf a bs.length)) stk regs ∧
      s.HdmPut (s.stkWriteLine a bs mask) a bs := by
  obtain ⟨stk, regs, hst, -⟩ := stkWriteLine_stored hb bs mask fun w hw => .inl (words_whole ha hn hw)
  refine ⟨stk, regs, hst, ?_⟩
  rw [hst]
  exact Ram.put_putLine ..

/-- A line of a victim buffer that is alone of its key is written to its stack and goes. -/
theorem drainLine_victim {s : State} {la : Nat} {l : Line} (hl : s.basinLine false la = some l) (hv : l.victim = true)
    (hlen : l.data.length = 64) (hal : la % 64 = 0) (hb : s.Backed la)
    (hone : ∀ x ∈ s.basin.lines, x.host = false → x.addr = la → x = l) :
    (s.drainLine false la).basinLine false la = none ∧ s.HdmPut (s.drainLine false la) la l.data := by
  have hrun : s.drainLine false la = ({ s with basin := { s.basin with lines := s.basin.lines.filter (· ≠ l) } } :
      State).stkWriteLine la l.data (markMask l.marks) := by
    rw [State.drainLine, hl]
    dsimp only
    rw [hv]
    rfl
  have hgone : (s.basin.lines.filter (· ≠ l)).find? (fun x => x.host == false && x.addr == la) = none :=
    List.find?_eq_none.2 fun x hx => by
      obtain ⟨hmem, hne⟩ := List.mem_filter.1 hx
      intro hk
      simp only [Bool.and_eq_true, beq_iff_eq] at hk
      exact (of_decide_eq_true hne) (hone x hmem hk.1 hk.2)
  obtain ⟨stk, regs, hst, hput⟩ := stkWriteLine_put (s := { s with basin := { s.basin with
    lines := s.basin.lines.filter (· ≠ l) } }) hb (markMask l.marks) (by omega : la % 8 = 0) (by omega : l.data.length % 8 = 0)
  rw [hrun]
  refine ⟨?_, hput⟩
  rw [hst]
  exact hgone

/-! ### Non-caching reads (R371) -/

/-- The part of a line that a read inside it names. -/
theorem part_inside {a n : Nat} (d : LineData) (hp : d.poison = 0) :
    d.part (lineOf a) a n = ((d.data.drop (a - lineOf a)).take n).map fun b => (b, false) := by
  have hle : lineOf a ≤ a := Nat.div_mul_le_self a 64
  unfold LineData.part partAt
  dsimp only
  rw [Nat.max_eq_right hle, Nat.add_sub_cancel_left, hp]
  rfl

theorem data_clean (bs : List Byte) : bytesOf (bs.map fun b => (b, false)) = bs ∧
    anyPoison (bs.map fun b => (b, false)) = false := by
  constructor
  · simp [bytesOf, Function.comp_def]
  · simp [anyPoison]

/-- A read inside one line, from what its home reads of the line. -/
theorem ncRead_line {s t : State} {a n : Nat} {d : LineData} (hn : 0 < n) (hin : lineOf (a + n - 1) = lineOf a)
    (hd : s.ncReadLine false (lineOf a) = (t, d)) (hp : d.poison = 0) :
    s.ncRead false a n = (t, ((d.data.drop (a - lineOf a)).take n).map fun b => (b, false)) := by
  unfold State.ncRead
  rw [linesOf_single hn hin]
  simp only [List.foldl_cons, List.foldl_nil, List.nil_append, hd, part_inside d hp]

/-- The snoop that a berth sees when its modified line is read. -/
def curSnoop (l : Line) (la : Nat) : List Out :=
  match l.owner with
  | some o => if 40 ≤ o then [.berthSnpCur (o - 40) la] else []
  | none => []

theorem snoopOwner_cur {s : State} {la : Nat} {l : Line} (hl : s.basinLine false la = some l) :
    s.snoopOwner false la .berthSnpCur = { s with out := s.out ++ curSnoop l la } := by
  unfold State.snoopOwner curSnoop
  rw [hl]
  dsimp only [Option.bind]
  cases l.owner with
  | none => simp
  | some o =>
    by_cases ho : 40 ≤ o
    · simp [ho, State.emit]
    · simp [ho]

section
variable {s : State} (hlive : s.Live) {addr n : Nat} (hn : 0 < n) (hin : lineOf (addr + n - 1) = lineOf addr)
  (hfree : s.homeBusy none (lineOf addr, some false) = false)
include hn hin hfree

theorem nonCachingRead_runs {t : State} {d : LineData} (hp : d.poison = 0)
    (hd : (s.admitted [(lineOf addr, some false)]).ncReadLine false (lineOf addr) = (t, d)) :
    exec (.nonCachingRead false addr n) s =
      doneLive s (t.emit (.homeData ((d.data.drop (addr - lineOf addr)).take n) false)) := by
  change doneLive s (s.doNonCachingRead false addr n) = _
  unfold State.doNonCachingRead
  rw [touches_single hn hin, atHome_line hfree]
  dsimp only
  rw [ncRead_line hn hin hd hp]
  obtain ⟨h1, h2⟩ := data_clean ((d.data.drop (addr - lineOf addr)).take n)
  dsimp only
  rw [h1, h2]

include hlive

theorem nonCachingRead_owner {c : Copy} {l : Line} (hm : s.mCopy false (lineOf addr) = some c)
    (hl : s.basinLine false (lineOf addr) = some l) (hp : c.poison = 0) :
    Completes (.nonCachingRead false addr n) s fun u =>
      u.out = s.out ++ curSnoop l (lineOf addr) ++ [.homeData ((c.data.drop (addr - lineOf addr)).take n) false] ∧
      u.basin = s.basin := by
  refine completes_live hlive (nonCachingRead_runs hn hin hfree (t := { s.admitted [(lineOf addr, some false)] with
    out := s.out ++ curSnoop l (lineOf addr) }) (d := { data := c.data, poison := c.poison }) hp ?_) ⟨rfl, rfl⟩
  unfold State.ncReadLine
  rw [snoopOwner_cur (s := s.admitted [(lineOf addr, some false)]) hl]
  have hm' : ({ s.admitted [(lineOf addr, some false)] with out := s.out ++ curSnoop l (lineOf addr) } : State).mCopy false
    (lineOf addr) = some c := hm
  dsimp only
  rw [show (s.admitted [(lineOf addr, some false)]).out = s.out from rfl, hm', latestLine_modified hm']
  rfl

end

/-- A part of what was read is a read of that part. -/
theorem Ram.drop_take_read (m : Ram) {la a n N : Nat} (h1 : la ≤ a) (h2 : a + n ≤ la + N) :
    ((m.read la N).drop (a - la)).take n = m.read a n := by
  rw [Ram.read_eq, Ram.read_eq]
  refine List.ext_getElem (by simp; omega) fun i hi _ => ?_
  simp only [List.getElem_take, List.getElem_drop, List.getElem_map, List.getElem_range]
  congr 1
  omega

theorem inside_line {a n : Nat} (hin : lineOf (a + n - 1) = lineOf a) :
    lineOf a ≤ a ∧ a + n ≤ lineOf a + 64 := by
  unfold lineOf at *
  omega

theorem ncReadLine_uncached {s : State} {la : Nat} (hnone : s.basinLine false la = none) (hno : s.NoCopy la)
    (hb : s.Backed la) (hclean : s.CleanLine la) (hal : la % 64 = 0) :
    s.ncReadLine false la = (s, { data := s.hdm.read la 64, poison := 0 }) := by
  have howner : s.snoopOwner false la .berthSnpCur = s := by
    rw [State.snoopOwner, hnone]
    rfl
  unfold State.ncReadLine
  rw [howner]
  dsimp only
  rw [mCopy_noCopy hno, hnone]
  exact stkReadLine_clean hb hclean hal

theorem nonCachingRead_uncached {s : State} (hlive : s.Live) {addr n : Nat} (hn : 0 < n)
    (hin : lineOf (addr + n - 1) = lineOf addr) (hu : s.Uncached (lineOf addr)) (hb : s.Backed (lineOf addr))
    (hclean : s.CleanLine (lineOf addr)) : Completes (.nonCachingRead false addr n) s fun u =>
      u.out = s.out ++ [.homeData (s.hdm.read addr n) false] ∧ u.hdm = s.hdm ∧ u.basin = s.basin := by
  obtain ⟨hnone, hno, hfree⟩ := hu
  obtain ⟨h1, h2⟩ := inside_line hin
  have hrun := nonCachingRead_runs hn hin (hfree _) rfl
    (ncReadLine_uncached (s := s.admitted [(lineOf addr, some false)]) hnone hno hb hclean (lineOf_aligned _))
  rw [Ram.drop_take_read _ h1 h2] at hrun
  exact completes_live hlive hrun ⟨rfl, rfl, rfl⟩

/-! ### Non-caching writes (R365, R371) -/

/-- A lockkeeper's reservation reads through the seal as before it: no lockkeeper starts with one. -/
theorem seal_resv (t s : State) (k : Nat) : ((t.seal s).lk k).resv = (t.lk k).resv := by
  change (sget (lkDefault s.fuses k) t.lks k).resv = (sget (lkDefault t.fuses k) t.lks k).resv
  induction t.lks with
  | nil => rfl
  | cons e m ih =>
    unfold sget
    split
    · rfl
    · exact ih

theorem partAt_all (a : Nat) (bs : PBytes) (hin : lineOf (a + bs.length - 1) = lineOf a) :
    partAt a bs (lineOf a) 64 = (a, bs) := by
  obtain ⟨h1, h2⟩ := inside_line hin
  unfold partAt
  dsimp only
  rw [Nat.max_eq_left h1, Nat.sub_self, List.drop_zero, List.take_of_length_le (by omega)]

theorem data_marked (bs : List Byte) (hn : 0 < bs.length) (poison : Bool) :
    bytesOf (bs.map fun b => (b, poison)) = bs ∧ anyPoison (bs.map fun b => (b, poison)) = poison := by
  constructor
  · simp [bytesOf, Function.comp_def]
  · obtain ⟨b, bs', rfl⟩ := List.exists_cons_of_length_pos hn
    cases poison <;> simp [anyPoison]

theorem lineParts_single {a : Nat} {bs : List Byte} (hn : 0 < bs.length) (hin : lineOf (a + bs.length - 1) = lineOf a)
    (poison : Bool) : lineParts a (bs.map fun b => (b, poison)) = [(a, bs, poison)] := by
  obtain ⟨h1, h2⟩ := data_marked bs hn poison
  have hlen : (bs.map fun b => (b, poison)).length = bs.length := List.length_map ..
  unfold lineParts
  rw [hlen, linesOf_single hn hin, List.map_singleton, partAt_all a _ (by rw [hlen]; exact hin)]
  dsimp only
  rw [h1, h2]

/-- A write inside one line, in the way its page prescribes. -/
theorem nonCachingWrite_runs {s : State} {addr : Nat} {bs : List Byte} (hn : 0 < bs.length)
    (hin : lineOf (addr + bs.length - 1) = lineOf addr) (hfree : s.homeBusy none (lineOf addr, some true) = false)
    (attr : Nat) (poison : Bool) : exec (.nonCachingWrite false addr attr bs poison) s =
      doneLive s (if attr = 3 then (s.admitted [(lineOf addr, some true)]).stkWriteLine addr bs
          (if poison then wordMask addr bs.length else 0)
        else (s.admitted [(lineOf addr, some true)]).ncWriteLine false addr attr bs poison none) := by
  change doneLive s (s.doNonCachingWrite false addr attr bs poison) = _
  unfold State.doNonCachingWrite
  rw [touches_single hn hin, atHome_line hfree]
  unfold State.pageWrite State.isUc State.ucWrite State.ncWrite
  rw [lineParts_single hn hin]
  by_cases h3 : attr = 3
  · simp [h3, ATTR_UC]
  · simp [h3, ATTR_UC]

/-- What a purge of an uncached line changes: reservations go. -/
theorem purge_uncached {s : State} {la : Nat} (hnone : s.basinLine false la = none) :
    s.purge false la none = s.dropCopies false la none ∧ (s.dropCopies false la none).basinLine false la = none := by
  have hline := basinLine_dropCopies s false la none
  rw [hnone, Option.map_none] at hline
  refine ⟨?_, hline⟩
  unfold State.purge
  dsimp only
  rw [recallHost_absent hnone, recall_absent hnone, hline]

theorem bitOf_wordMask {a : Nat} (h : a % 8 = 0) : bitOf (wordMask a 8) (a / 8 % 8) = true := by
  have hws : wordsOf a 8 = [a / 8] := by
    unfold wordsOf
    rw [if_neg (by decide), show (a + 8 - 1) / 8 - a / 8 + 1 = 1 by omega]
    simp
  rw [wordMask, hws]
  simp [bitOf_eq_testBit]

/-- One word written within a backed frame. -/
theorem stkWriteLine_word {s : State} {a : Nat} (hb : s.Backed a) {bs : List Byte} (ha : a % 8 = 0) (hn : bs.length = 8)
    (poison : Bool) : ∃ m stk regs,
      s.stkWriteLine a bs (if poison then wordMask a bs.length else 0) = s.stored m stk regs ∧
      s.HdmPut (s.stored m stk regs) a bs ∧ m.mark a = if poison then 3 else 0 := by
  obtain ⟨stk, regs, hst, hput⟩ := stkWriteLine_put hb (bs := bs) (if poison then wordMask a bs.length else 0) ha (by omega)
  rw [hst] at hput
  refine ⟨_, stk, regs, hst, hput, ?_⟩
  have hmem : a / 8 ∈ wordsOf a bs.length := mem_wordsOf.2 ⟨by omega, by omega, by omega⟩
  rw [Ram.mark_putWords, if_pos hmem, hn]
  cases poison with
  | true => rw [if_pos rfl, bitOf_wordMask ha]
  | false => simp [bitOf_eq_testBit]

theorem ncWriteLine_uncached {s : State} {a : Nat} (hnone : s.basinLine false (lineOf a) = none) (attr : Nat) (bs : List Byte)
    (poison : Bool) : s.ncWriteLine false a attr bs poison none =
      (s.dropCopies false (lineOf a) none).stkWriteLine a bs (if poison then wordMask a bs.length else 0) := by
  obtain ⟨h1, h2⟩ := purge_uncached hnone
  unfold State.ncWriteLine
  dsimp only
  rw [h1, h2]
  rfl

theorem nonCachingWrite_uncached {s : State} (hlive : s.Live) {addr : Nat} (hu : s.Uncached (lineOf addr)) {bs : List Byte}
    (ha : addr % 8 = 0) (hn : bs.length = 8) (hb : s.Backed addr) (attr : Nat) (poison : Bool) :
    Completes (.nonCachingWrite false addr attr bs poison) s fun u =>
      s.HdmPut u addr bs ∧ u.hdm.mark addr = (if poison then 3 else 0) ∧ u.basin.lines = s.basin.lines ∧
      (attr ≠ 3 → ∀ k, (u.lk k).resv ≠ some (lineOf addr)) := by
  obtain ⟨hnone, hno, hfree⟩ := hu
  have hrun := nonCachingWrite_runs (s := s) (addr := addr) (bs := bs) (by omega) (by rw [hn]; exact lineOf_word ha)
    (hfree _) attr poison
  by_cases h3 : attr = 3
  · rw [if_pos h3] at hrun
    obtain ⟨m, stk, regs, hst, hput, hmark⟩ := stkWriteLine_word (s := s.admitted [(lineOf addr, some true)]) hb ha hn poison
    rw [hst] at hrun
    exact completes_live hlive hrun ⟨hput, hmark, rfl, fun h => absurd h3 h⟩
  · rw [if_neg h3, ncWriteLine_uncached (s := s.admitted [(lineOf addr, some true)]) hnone] at hrun
    have hresv := fun k => dropCopies_resv (s := s.admitted [(lineOf addr, some true)]) (k := k) (keep := none) hno
    obtain ⟨lks, hdrop⟩ := dropCopies_noCopy (s := s.admitted [(lineOf addr, some true)]) hno none
    have hkept : ((s.admitted [(lineOf addr, some true)]).dropCopies false (lineOf addr) none).basin.lines = s.basin.lines ∧
        ((s.admitted [(lineOf addr, some true)]).dropCopies false (lineOf addr) none).fuses = s.fuses ∧
        ((s.admitted [(lineOf addr, some true)]).dropCopies false (lineOf addr) none).hdm = s.hdm ∧
        ((s.admitted [(lineOf addr, some true)]).dropCopies false (lineOf addr) none).Backed addr := by
      rw [hdrop]
      refine ⟨?_, rfl, rfl, hb⟩
      refine (List.map_congr_left fun l hl => ?_).trans (List.map_id _)
      have := List.find?_eq_none.1 hnone l hl
      exact if_neg this
    generalize (s.admitted [(lineOf addr, some true)]).dropCopies false (lineOf addr) none = t at *
    obtain ⟨hlines, hfuses, hhdm, hb'⟩ := hkept
    obtain ⟨m, stk, regs, hst, hput, hmark⟩ := stkWriteLine_word hb' ha hn poison
    rw [hst] at hrun
    refine completes_live hlive hrun ⟨⟨hput.1, fun x hx => ?_⟩, hmark, hlines, fun _ k hk => ?_⟩
    · rw [← hhdm]
      exact hput.2 x hx
    · exact absurd (hresv k ((seal_resv _ s k).symm.trans hk)) (by simp)

/-! ### A non-caching write of a line that the basin holds (R371) -/

/-- The removal of copies changes the lockkeepers, the caches, and what the berths see. -/
theorem dropCopies_seen (s : State) (la : Nat) (keep : Option Nat) :
    ∃ lks out, s.dropCopies false la keep = { s with lks := lks, out := out, basin := s.basin.dropCopies false la keep } := by
  obtain ⟨lks, hlks⟩ := cancelResv_fields s false la keep
  have hfold : ∀ (cs : List Copy) (t : State), ∃ out,
      cs.foldl (fun s c => s.emit (.berthSnpInv (c.agent - 40) la)) t = { t with out := out } := fun cs => by
    induction cs with
    | nil => exact fun t => ⟨t.out, rfl⟩
    | cons c cs ih =>
      intro t
      obtain ⟨out, h⟩ := ih (t.emit (.berthSnpInv (c.agent - 40) la))
      exact ⟨out, h⟩
  obtain ⟨out, hout⟩ := hfold _ { s with lks := lks }
  refine ⟨lks, out, ?_⟩
  unfold State.dropCopies State.snoopBerths
  rw [hlks, hout]
  rfl

theorem homeBusy_line {s : State} {la : Nat} {l : Line} (h : s.homeBusy none (la, some true) = false)
    (hl : s.basinLine false la = some l) : 44 ∉ l.presence := by
  intro hp
  have : (l.presence.contains 44 && (true || !s.port.curOk.contains la)) = true := by simp [hp]
  unfold State.homeBusy at h
  dsimp only at h
  rw [hl, Bool.or_eq_false_iff] at h
  exact absurd (this.symm.trans h.2) (by decide)

/-- The line of a basin after a write into it under WB, its copies gone. -/
def Line.written (l : Line) (off : Nat) (bs : List Byte) : Line :=
  { l with presence := (l.dropped none).presence.filter (· ≠ 44), owner := none, age := 0, data := putAt l.data off bs
           marks := lineMarks l.marks off bs.length false, dirty := l.dirty || true }

theorem ncWriteLine_line {s : State} {a : Nat} {l : Line} (hl : s.basinLine false (lineOf a) = some l) (h44 : 44 ∉ l.presence)
    (hm : s.mCopy false (lineOf a) = none) (h1 : s.bit CMX_INJ 1 = false) (h2 : s.bit CMX_INJ 2 = false) (bs : List Byte) :
    (s.ncWriteLine false a 0 bs false none).hdm = s.hdm ∧ (s.ncWriteLine false a 0 bs false none).fuses = s.fuses ∧
    (s.ncWriteLine false a 0 bs false none).NoCopy (lineOf a) ∧
    (s.ncWriteLine false a 0 bs false none).basinLine false (lineOf a) = some (l.written (a - lineOf a) bs) := by
  obtain ⟨k1, k2⟩ := basinLine_key hl
  have hhost : s.recallHost false (lineOf a) = s := recallHost_unshared fun x hx => .inr (by
    rw [hl] at hx
    exact Option.some.inj hx ▸ h44)
  have hline := basinLine_dropCopies s false (lineOf a) none
  rw [hl, Option.map_some] at hline
  obtain ⟨lks, out, hdrop⟩ := dropCopies_seen s (lineOf a) none
  have hkept : (s.dropCopies false (lineOf a) none).hdm = s.hdm ∧ (s.dropCopies false (lineOf a) none).fuses = s.fuses ∧
      (s.dropCopies false (lineOf a) none).NoCopy (lineOf a) ∧
      (s.dropCopies false (lineOf a) none).bit CMX_INJ 1 = false ∧
      (s.dropCopies false (lineOf a) none).bit CMX_INJ 2 = false := by
    rw [hdrop]
    refine ⟨rfl, rfl, fun c hc => ?_, h1, h2⟩
    have := (List.mem_filter.1 hc).2
    cases hh : c.host with
    | true => exact .inl rfl
    | false => exact .inr (by simpa [hh] using this)
  generalize hrun : s.ncWriteLine false a 0 bs false none = u
  unfold State.ncWriteLine State.purge at hrun
  dsimp only at hrun
  rw [hhost, recall_unmodified hm] at hrun
  generalize s.dropCopies false (lineOf a) none = t at *
  rw [hline] at hrun
  dsimp only at hrun
  have hput := basinLine_putLine hline (y := { l.dropped none with presence := (l.dropped none).presence.filter (· ≠ 44)
                                                                   owner := none }) k1 k2
  rw [hput] at hrun
  dsimp only at hrun
  have hput' := basinLine_putLine hput (y := { l.dropped none with presence := (l.dropped none).presence.filter (· ≠ 44)
                                                                   owner := none, age := 0 }) k1 k2
  rw [if_neg (by decide)] at hrun
  unfold State.bsnWrite at hrun
  rw [mergeLine_eq hput', bsnInject_off (by exact hkept.2.2.2.1) (by exact hkept.2.2.2.2)] at hrun
  subst hrun
  obtain ⟨hhdm, hfuses, hno, -⟩ := hkept
  exact ⟨hhdm, hfuses, hno, basinLine_putLine hput' k1 k2⟩

theorem nonCachingWrite_line {s : State} (hlive : s.Live) {addr : Nat} {l : Line} {bs : List Byte}
    (hl : s.basinLine false (lineOf addr) = some l) (hm : s.mCopy false (lineOf addr) = none)
    (hfree : s.homeBusy none (lineOf addr, some true) = false) (ha : addr % 8 = 0) (hn : bs.length = 8)
    (h1 : s.bit CMX_INJ 1 = false) (h2 : s.bit CMX_INJ 2 = false) :
    Completes (.nonCachingWrite false addr 0 bs false) s fun u =>
      u.hdm = s.hdm ∧ (∀ c ∈ u.basin.copies, c.host = true ∨ c.addr ≠ lineOf addr) ∧
      ∃ x, u.basinLine false (lineOf addr) = some x ∧ x.data = putAt l.data (addr - lineOf addr) bs ∧ x.dirty = true := by
  have hrun := nonCachingWrite_runs (s := s) (addr := addr) (bs := bs) (by omega) (by rw [hn]; exact lineOf_word ha)
    hfree 0 false
  rw [if_neg (by decide)] at hrun
  have h := ncWriteLine_line (s := s.admitted [(lineOf addr, some true)]) hl (homeBusy_line hfree hl) hm h1 h2 bs
  generalize (s.admitted [(lineOf addr, some true)]).ncWriteLine false addr 0 bs false none = t at *
  obtain ⟨hhdm, -, hno, hline⟩ := h
  exact completes_live hlive hrun ⟨hhdm, hno, _, hline, rfl, Bool.or_true _⟩

/-! ### Requests that a pin holds back (R426) -/

theorem sharedRead_atHome (s : State) (agent addr attr : Nat) : exec (.sharedRead agent false addr attr) s =
    doneLive s (s.atHome (.sharedRead agent false addr attr) none [(lineOf addr, some false)] fun s =>
      (s.sharedRead agent false (lineOf addr) attr).1) := by
  change doneLive s (s.doSharedRead agent false addr attr) = _
  unfold State.doSharedRead
  dsimp only
  rw [touches_line]

theorem ownershipRead_atHome (s : State) (agent addr : Nat) : exec (.ownershipRead agent false addr) s =
    doneLive s (s.atHome (.ownershipRead agent false addr) none [(lineOf addr, some true)] fun s =>
      (s.ownershipRead agent false (lineOf addr)).1) := by
  change doneLive s (s.doOwnershipRead agent false addr) = _
  unfold State.doOwnershipRead
  dsimp only
  rw [touches_line]

section
variable {s : State} (hlive : s.Live) {agent addr k : Nat} (hpin : (lineOf addr, k) ∈ s.basin.pins)
include hlive hpin

theorem held_back {i : Instr} {c : HeldReq} {wr : Bool} {act : State → State}
    (hexec : exec i s = doneLive s (s.atHome c none [(lineOf addr, some wr)] act)) : Completes i s fun u =>
      u.basin.held = s.basin.held ++ [c] ∧ u.basin.lines = s.basin.lines ∧ u.hdm = s.hdm := by
  obtain ⟨hbasin, hhdm⟩ := atHome_busy (s := s) (lk := none) (ts := [(lineOf addr, some wr)])
    ⟨_, List.mem_cons_self, homeBusy_pinned hpin _⟩ c act
  have hheld := congrArg Basin.held hbasin
  have hlines := congrArg Basin.lines hbasin
  exact completes_live hlive hexec ⟨hheld, hlines, hhdm⟩

theorem sharedRead_held (attr : Nat) : Completes (.sharedRead agent false addr attr) s fun u =>
    u.basin.held = s.basin.held ++ [.sharedRead agent false addr attr] ∧ u.basin.lines = s.basin.lines ∧ u.hdm = s.hdm :=
  held_back hlive hpin (sharedRead_atHome s agent addr attr)

theorem ownershipRead_held : Completes (.ownershipRead agent false addr) s fun u =>
    u.basin.held = s.basin.held ++ [.ownershipRead agent false addr] ∧ u.basin.lines = s.basin.lines ∧ u.hdm = s.hdm :=
  held_back hlive hpin (ownershipRead_atHome s agent addr)

theorem nonCachingRead_held {n : Nat} (hn : 0 < n) (hin : lineOf (addr + n - 1) = lineOf addr) :
    Completes (.nonCachingRead false addr n) s fun u =>
      u.basin.held = s.basin.held ++ [.nonCachingRead false addr n] ∧ u.basin.lines = s.basin.lines ∧ u.hdm = s.hdm := by
  refine held_back hlive hpin (wr := false) (act := fun s =>
    (s.ncRead false addr n).1.emit (.homeData (bytesOf (s.ncRead false addr n).2) (anyPoison (s.ncRead false addr n).2))) ?_
  change doneLive s (s.doNonCachingRead false addr n) = _
  unfold State.doNonCachingRead
  rw [touches_single hn hin]

end

/-! ### Shared and ownership reads (R368, R371) -/

section
variable {s : State} (hlive : s.Live) {agent addr : Nat} (hu : s.Uncached (lineOf addr)) (hroom : s.RoomFor (lineOf addr))
  (hb : s.Backed (lineOf addr)) (hclean : s.CleanLine (lineOf addr))
include hu hroom hb hclean

theorem fresh_admitted (ts : List Touch) : (s.admitted ts).Fresh (lineOf addr) := by
  obtain ⟨hnone, hno, -⟩ := hu
  exact ⟨hnone, hno, hroom, hb, hclean, lineOf_aligned addr⟩

include hlive

theorem sharedRead_serves (attr : Nat) : Completes (.sharedRead agent false addr attr) s fun u => u.hdm = s.hdm ∧
    ∃ l c, u.basinLine false (lineOf addr) = some l ∧ l.data = s.hdm.read (lineOf addr) 64 ∧ l.dirty = false ∧
      l.presence = [agent] ∧ u.copyOf agent false (lineOf addr) = some c ∧
      c.st = (if agent < 16 ∨ 40 ≤ agent then .e else .s) := by
  have hrun := sharedRead_atHome s agent addr attr
  rw [atHome_line (hu.2.2 _)] at hrun
  exact completes_live hlive hrun (sharedRead_fresh (fresh_admitted hu hroom hb hclean _) agent attr)

theorem ownershipRead_serves : Completes (.ownershipRead agent false addr) s fun u => u.hdm = s.hdm ∧
    (∀ k, (u.lk k).resv = some (lineOf addr) → k + 16 = agent) ∧
    ∃ l c, u.basinLine false (lineOf addr) = some l ∧ l.presence = [agent] ∧ l.owner = some agent ∧
      u.copyOf agent false (lineOf addr) = some c ∧ c.st = .m ∧ c.data = s.hdm.read (lineOf addr) 64 := by
  have hrun := ownershipRead_atHome s agent addr
  rw [atHome_line (hu.2.2 _)] at hrun
  have h := ownershipRead_fresh (fresh_admitted hu hroom hb hclean [(lineOf addr, some true)]) agent
  generalize ((s.admitted [(lineOf addr, some true)]).ownershipRead agent false (lineOf addr)).1 = t at *
  obtain ⟨hhdm, hresv, hline⟩ := h
  exact completes_live hlive hrun ⟨hhdm, fun k hk => hresv k ((seal_resv t s k).symm.trans hk), hline⟩

end

/-! ### Moored memory and atomics (R381, R382, R393) -/

theorem moored_atomic {s : State} (hlive : s.Live) (addr attr fn : Nat) {size : Nat} (operand compare : Nat) (hn : 0 < size) :
    Completes (.atomic addr attr fn size operand compare true) s fun u =>
      u.basin.moored = s.basin.moored.store addr (bytesOf (atomicChange fn size operand compare false
        ((s.basin.moored.read addr size).map fun b => (b, s.basin.moored.poisoned addr size))))
        (anyPoison (atomicChange fn size operand compare false
        ((s.basin.moored.read addr size).map fun b => (b, s.basin.moored.poisoned addr size)))) ∧ u.hdm = s.hdm ∧
      u.out = s.out ++ [.atomicOld (leNat (s.basin.moored.read addr size)) (s.basin.moored.poisoned addr size)] := by
  obtain ⟨h1, h2⟩ := data_marked (s.basin.moored.read addr size) (by simpa [Ram.read_eq] using hn)
    (s.basin.moored.poisoned addr size)
  refine completes_live hlive (t := s.doAtomic addr attr fn size operand compare true) rfl ⟨rfl, rfl, ?_⟩
  refine congrArg (s.out ++ [·]) ?_
  exact congrArg₂ Out.atomicOld (congrArg leNat h1) h2

theorem moored_write {s : State} (hlive : s.Live) {addr : Nat} {bs : List Byte} (poison : Bool)
    (hin : addr + bs.length ≤ s.mooredSize s.basin.moor) : exec (.mooredAccess addr true bs poison) s =
      .next (({ s with basin := { s.basin with moored := s.basin.moored.store addr bs poison } } : State).seal s) := by
  refine (doneLive_of_live hlive _).trans ?_
  rw [if_neg (Nat.not_lt.2 hin)]
  rfl

theorem moored_read {s : State} (hlive : s.Live) {addr : Nat} {bs : List Byte} (poison : Bool)
    (hin : addr + bs.length ≤ s.mooredSize s.basin.moor) (hn : 0 < bs.length)
    (hone : lineOf (addr + bs.length - 1) = lineOf addr) : exec (.mooredAccess addr false bs poison) s =
      .next ((s.emit (.mooredData (s.basin.moored.read addr bs.length) (s.basin.moored.poisoned (lineOf addr) 64))).seal s) := by
  obtain ⟨k1, k2⟩ := inside_line hone
  have hread : s.mooredRead addr bs.length = (s.basin.moored.read addr bs.length).map fun b =>
      (b, s.basin.moored.poisoned (lineOf addr) 64) := by
    unfold State.mooredRead
    rw [linesOf_single hn hone, List.flatMap_singleton]
    unfold partAt
    dsimp only
    rw [Nat.max_eq_right k1, Nat.add_sub_cancel_left, Ram.drop_take_read _ k1 k2]
  obtain ⟨h1, h2⟩ := data_marked (s.basin.moored.read addr bs.length) (by simpa [Ram.read_eq] using hn)
    (s.basin.moored.poisoned (lineOf addr) 64)
  refine (doneLive_of_live hlive _).trans ?_
  rw [if_neg (Nat.not_lt.2 hin), if_neg (by decide)]
  dsimp only
  rw [hread, h1, h2]

theorem moored_outside {s : State} (hlive : s.Live) {addr : Nat} {bs : List Byte} (wr poison : Bool)
    (hout : s.mooredSize s.basin.moor < addr + bs.length) : exec (.mooredAccess addr wr bs poison) s = .next (s.seal s) :=
  (doneLive_of_live hlive _).trans (congrArg (fun t => Host.Outcome.next (State.seal t s)) (if_pos hout))

theorem cleanLine_absent {s : State} {la : Nat} (hnone : s.basinLine false la = none) (hno : s.NoCopy la) :
    s.cleanLine false la = s := by
  have hcheck : s.basinCheck false la = s := by
    rw [State.basinCheck, hnone]
  unfold State.cleanLine
  dsimp only
  rw [mCopy_noCopy hno, recall_absent hnone]
  dsimp only
  rw [hcheck, hnone]

/-- Before an atomic at the stack controller an uncached line changes the lockkeepers and the caches alone. -/
theorem uncache_fields {s : State} {la : Nat} (hnone : s.basinLine false la = none) (hno : s.NoCopy la) :
    ∃ lks b, (((s.cleanLine false la).purge false la none).discardLine false la) = { s with lks := lks, basin := b } := by
  rw [cleanLine_absent hnone hno, (purge_uncached hnone).1]
  obtain ⟨lks, hdrop⟩ := dropCopies_noCopy hno none
  rw [hdrop]
  obtain ⟨lks', h⟩ := cancelResv_fields { s with lks := lks, basin := s.basin.dropCopies false la none } false la none
  unfold State.discardLine
  rw [h]
  exact ⟨lks', _, rfl⟩

theorem atomicChange_word {fn : Nat} (hfn : fn ≤ 7) (operand compare : Nat) (bs : List Byte) :
    atomicChange fn 8 operand compare false (bs.map fun b => (b, false)) =
      (toLe 8 (atomicNew fn 64 (leNat bs) operand compare)).map fun b => (b, false) := by
  obtain ⟨h1, h2⟩ := data_clean bs
  unfold atomicChange atomicBytes
  rw [if_neg (by omega)]
  dsimp only
  rw [h1, h2]
  rfl

/-- An integer atomic on a word of an uncached line at its stack controller. -/
theorem stkRmw_word {s : State} {a : Nat} (hb : s.Backed (lineOf a)) (hclean : s.CleanLine (lineOf a)) (hba : s.Backed a)
    (ha : a % 8 = 0) {fn : Nat} (hfn : fn ≤ 7) (operand compare : Nat) : ∃ m stk regs,
      s.stkRmw a 8 (atomicChange fn 8 operand compare false) =
        (s.stored m stk regs, (s.hdm.read a 8).map fun b => (b, false)) ∧
      s.HdmPut (s.stored m stk regs) a (toLe 8 (atomicNew fn 64 (leNat (s.hdm.read a 8)) operand compare)) := by
  obtain ⟨k1, k2⟩ := inside_line (lineOf_word ha)
  have hold : (partAt (lineOf a) (s.hdm.read (lineOf a) 64) a 8).2 = s.hdm.read a 8 := by
    unfold partAt
    dsimp only
    rw [Nat.max_eq_right k1, Nat.add_sub_cancel_left, Ram.drop_take_read _ k1 k2]
  have hzero : bitOf 0 ((a - lineOf a) / 8) = false := by simp [bitOf_eq_testBit]
  obtain ⟨h1, h2⟩ := data_clean (toLe 8 (atomicNew fn 64 (leNat (s.hdm.read a 8)) operand compare))
  obtain ⟨m, stk, regs, hst, hput, -⟩ := stkWriteLine_word hba ha (toLe_length 8 _) false
    (bs := toLe 8 (atomicNew fn 64 (leNat (s.hdm.read a 8)) operand compare))
  refine ⟨m, stk, regs, ?_, hput⟩
  unfold State.stkRmw
  dsimp only
  rw [stkReadLine_clean hb hclean (lineOf_aligned a)]
  dsimp only
  rw [hold, hzero, atomicChange_word hfn, h1, h2]
  exact congrArg (·, _) hst

theorem atomic_uncached {s : State} (hlive : s.Live) {addr fn : Nat} (hfn : fn ≤ 7) (operand compare : Nat)
    (hu : s.Uncached (lineOf addr)) (hb : s.Backed (lineOf addr)) (hclean : s.CleanLine (lineOf addr)) (hba : s.Backed addr)
    (ha : addr % 8 = 0) : Completes (.atomic addr 3 fn 8 operand compare false) s fun u =>
      s.HdmPut u addr (toLe 8 (atomicNew fn 64 (leNat (s.hdm.read addr 8)) operand compare)) ∧
      u.out = s.out ++ [.atomicOld (leNat (s.hdm.read addr 8)) false] := by
  obtain ⟨hnone, hno, hfree⟩ := hu
  obtain ⟨lks, b, hun⟩ := uncache_fields (s := s.admitted [(lineOf addr, some true)]) hnone hno
  obtain ⟨m, stk, regs, hrmw, hput⟩ := stkRmw_word (s := { s.admitted [(lineOf addr, some true)] with
    lks := lks, basin := b }) hb hclean hba ha hfn operand compare
  obtain ⟨h1, h2⟩ := data_clean (s.hdm.read addr 8)
  have hrun : exec (.atomic addr 3 fn 8 operand compare false) s = doneLive s
      ((State.stored { s.admitted [(lineOf addr, some true)] with lks := lks, basin := b } m stk regs).emit
        (.atomicOld (leNat (s.hdm.read addr 8)) false)) := by
    change doneLive s (s.doAtomic addr 3 fn 8 operand compare false) = _
    unfold State.doAtomic
    dsimp only
    rw [if_neg (by decide), touches_single (by decide) (lineOf_word ha), atHome_line (hfree _)]
    unfold State.hdmRmw
    rw [if_neg (by decide), hun, hrmw]
    refine congrArg (fun o => doneLive s (State.emit _ o)) ?_
    exact congrArg₂ Out.atomicOld (congrArg leNat h1) h2
  exact completes_live hlive hrun ⟨hput, rfl⟩

end Sys2Proof.Machine

/-- Settles O49: a request that its home lets run acts as R371 says on the line's copies, its slice and its stack. -/
theorem homeRequests : Obligations.HomeRequests := by
  intro s agent addr hlive _
  refine ⟨fun hu hroom hb hclean => ⟨fun attr => sharedRead_serves hlive hu hroom hb hclean attr,
    ownershipRead_serves hlive hu hroom hb hclean⟩, fun c l hc hst hm hl => ?_, fun host hc => ?_,
    fun l hc hl hv hlen hmarks hb hone => ?_, fun hu => ?_, fun l bs hl _ _ hm hfree ha hn h1 h2 => ?_,
    fun k hpin n attr hn hin => ?_, fun fn size operand compare hn => ?_, fun fn hfn operand compare hu hb hclean hba ha => ?_,
    fun bs poison hin => ?_, fun wr bs poison hout => moored_outside hlive wr poison hout⟩
  · refine ⟨?_, ?_, ?_, victimWriteback_owner hc, victimWriteback_inWay hlive hc, fun n hn hin _ hp hfree => ?_⟩
    · exact mLineWriteBack_owner hlive hc hst hm hl
    · exact forwarded_own hlive hc hst hm hl
    · exact forwarded_shared hlive hc hst hm hl
    · exact nonCachingRead_owner hlive hn hin hfree hm hl hp
  · refine ⟨mLineWriteBack_absent hlive hc, forwardedRequest_absent hlive hc, fun hnone => ?_⟩
    rw [victimWriteback_drain hlive hc, drainLine_absent hnone]
  · obtain ⟨hgone, hput⟩ := drainLine_victim hl hv hlen (lineOf_aligned addr) hb hone
    exact completes_live hlive ((victimWriteback_drain hlive hc).trans (doneLive_of_live hlive _).symm) ⟨hgone, hput⟩
  · exact ⟨fun n hn hin hb hclean => nonCachingRead_uncached hlive hn hin hu hb hclean,
      fun attr bs poison ha hn hb => nonCachingWrite_uncached hlive hu ha hn hb attr poison⟩
  · exact nonCachingWrite_line hlive hl hm hfree ha hn h1 h2
  · exact ⟨sharedRead_held hlive hpin attr, ownershipRead_held hlive hpin, nonCachingRead_held hlive hpin hn hin⟩
  · exact moored_atomic hlive addr 0 fn operand compare hn
  · exact atomic_uncached hlive hfn operand compare hu hb hclean hba ha
  · exact ⟨moored_write hlive poison hin, moored_read hlive poison hin⟩
end

section
/-! A fault message with no fault ring enabled writes no memory (R603 to R617). -/

open Sys2Proof Sys2Proof.Machine

namespace Sys2Proof.Machine

/-- The memory of a device, its caches and its lockkeepers. -/
def State.memView (s : State) : Ram × Ram × Basin × SMap Lockkeeper := (s.hdm, s.host, s.basin, s.lks)

theorem memView_ite (p : Prop) [Decidable p] (a b : State) :
    (if p then a else b).memView = if p then a.memView else b.memView := apply_ite ..

theorem foldl_memView {α : Type} {f : State → α → State} (hf : ∀ s a, (f s a).memView = s.memView) (l : List α) (s : State) :
    (l.foldl f s).memView = s.memView := by
  induction l generalizing s with
  | nil => rfl
  | cons a l ih => exact (ih _).trans (hf s a)

section
variable (s : State)

theorem bump_memView (o : Nat) : (s.bump o).memView = s.memView := by
  unfold State.bump
  split <;> rfl

theorem sendVec_memView (v : Nat) : (s.sendVec v).memView = s.memView := by
  unfold State.sendVec
  dsimp only
  repeat' split
  all_goals rfl

theorem irq_memView (n : Nat) : (s.irq n).memView = s.memView := by
  unfold State.irq
  dsimp only
  split
  · exact sendVec_memView _ _
  · rfl

theorem order_memView (f : Gate → Gate) : (s.order f).memView = s.memView := by
  unfold State.order
  split <;> rfl

theorem holdSlot_memView (k : Nat) : (s.holdSlot k).memView = s.memView := order_memView s _

theorem ownFaultBit_memView : s.ownFaultBit.memView = s.memView := order_memView s _

theorem musterOnce_memView (tag bid : Nat) : (s.musterOnce tag bid).memView = s.memView := by
  unfold State.musterOnce
  split <;> rfl

theorem react_memView (r : Reaction) : (s.react r).memView = s.memView := by
  unfold State.react
  dsimp only
  split <;> rfl

theorem fatalFlight_memView (k status : Nat) : (s.fatalFlight k status).memView = s.memView := by
  unfold State.fatalFlight
  split
  · exact holdSlot_memView _ _
  · rfl

theorem retireBound_memView (m : FaultMsg) : (s.retireBound m).memView = s.memView := by
  unfold State.retireBound
  dsimp only
  split <;> simp only [react_memView, holdSlot_memView, musterOnce_memView, fatalFlight_memView, memView_ite, ite_self]

theorem retire_memView (m : FaultMsg) : (s.retire m).memView = s.memView := by
  unfold State.retire
  split
  case h_5 => split <;> simp only [react_memView]
  all_goals simp only [react_memView, ownFaultBit_memView, retireBound_memView, memView_ite, ite_self]

theorem haltFault_memView : s.haltFault.memView = s.memView := by
  simp only [State.haltFault, react_memView, ownFaultBit_memView]
  rfl

theorem reactFatal_memView (m : FaultMsg) : (s.reactFatal m).memView = s.memView := by
  unfold State.reactFatal
  split
  · split <;> simp only [fatalFlight_memView]
  · split <;> simp only [fatalFlight_memView]
  · exact foldl_memView (fun _ _ => fatalFlight_memView ..) _ _
  · rfl
  · exact haltFault_memView s

theorem replayFlight_memView (k : Nat) : (s.replayFlight k).1.memView = s.memView := by
  unfold State.replayFlight
  dsimp only
  split
  · rfl
  · split
    · exact (musterOnce_memView ..).trans (holdSlot_memView ..)
    · exact fatalFlight_memView ..

theorem reactClass_memView (m : FaultMsg) (cls : Nat) : (s.reactClass m cls).1.memView = s.memView := by
  unfold State.reactClass
  split
  · split
    · split <;> simp only [replayFlight_memView]
    · rfl
  all_goals simp only [retire_memView, reactFatal_memView]

theorem countFault_memView (m : FaultMsg) : (s.countFault m).1.memView = s.memView := by
  unfold State.countFault
  dsimp only
  split
  · rfl
  · dsimp only
    split <;> rfl

theorem logRecord_memView (m : FaultMsg) (esc : Bool) : (s.logRecord m esc).1.memView = s.memView := by
  unfold State.logRecord
  split
  · exact bump_memView s _
  · dsimp only
    refine Eq.trans (b := (if (freeSlot s.flt.log).isNone then s.bump FLT_LOG_OVF else s).memView) rfl ?_
    split
    · exact bump_memView s _
    · rfl

variable {s}

/-- With the ring off, one message at the collector writes no memory. -/
theorem collect_memView (h : s.bit FLT_CTL 1 = false) (m : FaultMsg) : (s.collect m).1.memView = s.memView := by
  have hrec : ∀ (t : State) (esc : Bool) (m : FaultMsg), t.bit FLT_CTL 1 = false → (t.recordFault m esc).memView = t.memView :=
      fun t esc m ht => by
    have hlog : (t.logRecord m esc).1.bit FLT_CTL 1 = false := by
      have hreg : (t.logRecord m esc).1.reg FLT_CTL = t.reg FLT_CTL :=
        congrFun (congrArg FaultView.regs (logRecord_faultView t m esc)) FLT_CTL
      rw [State.bit, hreg]
      exact ht
    have hring : (t.logRecord m esc).1.ringRecord m esc = ((t.logRecord m esc).1, false) := by
      unfold State.ringRecord
      rw [hlog]
      exact if_pos rfl
    have hpin (t : State) : (if t.bit FLT_PIN 0 && t.bit FLT_PIN (8 + m.cls) then
        ({ t with pins := { t.pins with pulse := true } } : State) else t).memView = t.memView := by
      split <;> rfl
    unfold State.recordFault
    dsimp only
    rw [hpin, hring]
    refine Eq.trans ?_ (logRecord_memView t m esc)
    dsimp only
    split
    · exact irq_memView _ _
    · rfl
  have hcount : (s.countFault m).1.bit FLT_CTL 1 = false := by
    have hreg : (s.countFault m).1.reg FLT_CTL = s.reg FLT_CTL :=
      congrFun (congrArg FaultView.regs (congrArg Prod.fst (countFault_stillView s m))) FLT_CTL
    rw [State.bit, hreg]
    exact h
  have hall := fun m' => (hrec _ (s.countFault m).2 m' hcount).trans (countFault_memView s m)
  unfold State.collect
  dsimp only
  split
  · exact (reactClass_memView ..).trans (hall _)
  · split
    · exact (reactClass_memView ..).trans ((reactClass_memView ..).trans (hall _))
    · exact (reactClass_memView ..).trans (hall _)

theorem fault_memView (h : s.bit FLT_CTL 1 = false) (m : FaultMsg) : (s.fault m).memView = s.memView := by
  have hfold : ∀ (ms : List FaultMsg) (t : State), t.bit FLT_CTL 1 = false →
      (ms.foldl (fun s m => (s.collect m).1) t).memView = t.memView := fun ms => by
    induction ms with
    | nil => exact fun t _ => rfl
    | cons a ms ih =>
      intro t ht
      have hreg : (t.collect a).1.reg FLT_CTL = t.reg FLT_CTL :=
        congrFun (congrArg FaultView.regs (collect_faultView t a)) FLT_CTL
      refine (ih _ ?_).trans (collect_memView ht a)
      rw [State.bit, hreg]
      exact ht
  have hreg : (s.collect m).1.reg FLT_CTL = s.reg FLT_CTL :=
    congrFun (congrArg FaultView.regs (collect_faultView s m)) FLT_CTL
  unfold State.fault
  dsimp only
  refine (hfold _ _ ?_).trans (collect_memView h m)
  rw [State.bit, hreg]
  exact h

end

end Sys2Proof.Machine
end

section
/-! The host's accesses to BAR4 and by CXL.mem (R13, R14, R446 to R449, R460 to R462, R612). -/

open Sys2Proof Sys2Proof.Machine

namespace Sys2Proof.Machine

/-! ### BAR4 (R13, R14, R446, R460 to R462) -/

theorem sendPieces_kept (s : State) (off : Nat) (data : PBytes) : ∃ os, s.sendPieces off data = { s with out := s.out ++ os } :=
  ⟨_, sendPieces_eq s off data⟩

/-- Clean data that a BAR read returns. -/
theorem bar4Read_sends {s t : State} {off n : Nat} {bs : List Byte} (hexec : exec (.bar4Read off n) s =
      done s (t.sendPieces off (bs.map fun b => (b, false)))) (hout : t.out = s.out) (htiles : t.tiles = s.tiles) :
    Completes (.bar4Read off n) s fun u => s.SendsBar u bs ∧ u.tiles = s.tiles := by
  refine completes_done hexec ⟨sendPieces_sendsBar off bs hout rfl, ?_⟩
  obtain ⟨os, h⟩ := sendPieces_kept t off (bs.map fun b => (b, false))
  rw [h]
  exact htiles

theorem readZeros_eq (n : Nat) : readZeros n = (List.replicate n (0 : Byte)).map fun b => (b, false) :=
  (List.map_replicate (f := fun b : Byte => (b, false))).symm

/-! #### Words of a hold and pieces of a read -/

/-- Reads that find no error in the words of a hold. -/
theorem holdErrors_clean {x : Tile} {a n : Nat} (h : ∀ w, w < n + 8 → x.hold.mark (a + w) = 0) : x.holdErrors a n = [] := by
  refine List.filterMap_eq_nil_iff.2 fun w hw => ?_
  obtain ⟨h0, h1, h2⟩ := mem_wordsOf.1 hw
  have hmark : x.hold.mark (8 * w) = 0 := by
    have := h (8 * w + 7 - a) (by omega)
    rw [Ram.mark] at this ⊢
    rwa [show (a + (8 * w + 7 - a)) / 8 = 8 * w / 8 by omega] at this
  rw [hmark]
  rfl

theorem holdBytes_clean {x : Tile} {a n : Nat} (h : ∀ w, w < n → x.hold.mark (a + w) = 0) :
    x.holdBytes a n = (x.hold.read a n).map fun b => (b, false) := by
  unfold Tile.holdBytes
  rw [Ram.read_eq, List.map_map]
  refine List.map_congr_left fun i hi => ?_
  rw [h i (List.mem_range.1 hi)]
  rfl

/-- Up to 512 bytes leave in one piece. -/
theorem readPieces_short {fuel a n : Nat} (h0 : 0 < n) (h : n ≤ 512) : readPieces (fuel + 1) a n = [(a, n)] := by
  unfold readPieces
  rw [if_pos h, if_neg (by omega)]

theorem bar4_safe {s : State} (h : s.boot.safe = true) (a : Nat) :
    (∀ bs ep, exec (.bar4Write a bs ep) s = .next (s.seal s)) ∧
    (∀ n, Completes (.bar4Read a n) s fun u => s.SendsBar u (List.replicate n 0xFF) ∧ u.tiles = s.tiles) ∧
    (∀ ms mv sn, exec (.memRd a ms mv sn) s = .next ((s.emit (.memData (List.replicate 64 0) true)).seal s)) ∧
    ∀ mv sn bs p, exec (.memWr a mv sn bs p) s = .next ((s.emit .memDone).seal s) := by
  refine ⟨fun bs ep => congrArg (done s) (if_pos h), fun n => ?_, fun ms mv sn => congrArg (done s) (if_pos h),
    fun mv sn bs p => congrArg (done s) (if_pos h)⟩
  have hexec : exec (.bar4Read a n) s = done s (s.sendPieces a (List.replicate n (0xFF, false))) :=
    congrArg (done s) (if_pos h)
  rw [← List.map_replicate (f := fun b : Byte => (b, false)) (a := 0xFF)] at hexec
  exact bar4Read_sends hexec rfl rfl

section
variable {s : State} (hlive : s.boot.safe = false) {off : Nat}
include hlive

theorem bar4_closed (hcl : s.port.barClosed = true) : (∀ n, Completes (.bar4Read off n) s fun u =>
      u.out = s.out ++ [.barUnsupported] ∧ AerErr.unsupportedRequest ∈ u.port.aer) ∧
    ∀ bs ep, Completes (.bar4Write off bs ep) s fun u =>
      u.tiles = s.tiles ∧ AerErr.unsupportedRequest ∈ u.port.aer := by
  refine ⟨fun n => ?_, fun bs ep => ?_⟩
  · have hexec : exec (.bar4Read off n) s = done s s.unsupportedRead := by
      refine congrArg (done s) ?_
      rw [hlive, if_neg (by decide), if_pos hcl]
    obtain ⟨hout, haer, -⟩ := unsupportedRead_effect s
    exact completes_done hexec ⟨hout, haer⟩
  · have hexec : exec (.bar4Write off bs ep) s = done s (s.aer .unsupportedRequest true) := by
      refine congrArg (done s) ?_
      rw [hlive, if_neg (by decide), if_pos hcl]
    obtain ⟨errs, hs, f, haer, hmem⟩ := aer_withAer s .unsupportedRequest true
    rw [haer] at hexec
    exact completes_done hexec ⟨rfl, hmem⟩

variable (hopen : s.port.barClosed = false)
include hopen

theorem bar4Write_misaligned {bs : List Byte} (h : off % 8 ≠ 0 ∨ bs.length % 8 ≠ 0) :
    Completes (.bar4Write off bs false) s fun u => u.tiles = s.tiles ∧ AerErr.completerAbort ∈ u.port.aer := by
  have hexec : exec (.bar4Write off bs false) s = done s (s.aer .completerAbort true) := by
    refine congrArg (done s) ?_
    rw [hlive, if_neg (by decide), hopen, if_neg (by decide), if_pos h]
    rfl
  obtain ⟨errs, hs, f, haer, hmem⟩ := aer_withAer s .completerAbort true
  rw [haer] at hexec
  exact completes_done hexec ⟨rfl, hmem⟩

theorem bar4Read_zero {n : Nat} (h : s.bar4Tile off = none ∨ HOLD_BYTES ≤ off % 2 ^ 21) :
    Completes (.bar4Read off n) s fun u => s.SendsBar u (List.replicate n 0) ∧ u.tiles = s.tiles := by
  have hexec : exec (.bar4Read off n) s = done s (s.sendPieces off (readZeros n)) := by
    refine congrArg (done s) ?_
    rw [hlive, if_neg (by decide), hopen, if_neg (by decide)]
    dsimp only
    rcases h with h | h
    · rw [h]
    · cases s.bar4Tile off with
      | none => rfl
      | some t => exact if_pos h
  rw [readZeros_eq] at hexec
  exact bar4Read_sends hexec rfl rfl

theorem bar4Write_nowhere {bs : List Byte} (h : s.bar4Tile off = none ∨ HOLD_BYTES ≤ off % 2 ^ 21) (h8 : off % 8 = 0)
    (hn : bs.length % 8 = 0) : exec (.bar4Write off bs false) s = .next (s.seal s) := by
  refine congrArg (done s) ?_
  rw [hlive, if_neg (by decide), hopen, if_neg (by decide), if_neg (by omega), if_neg (by decide)]
  dsimp only
  rcases h with h | h
  · rw [h]
  · cases s.bar4Tile off with
    | none => rfl
    | some t =>
      refine if_pos ?_
      rw [Nat.sub_eq_zero_of_le h]
      rfl

variable {t : Nat} (ht : s.bar4Tile off = some t)
include ht

theorem bar4Write_hold {bs : List Byte} (hpass : s.actPass (tgtHold (off / 2 ^ 21)) 0 NEED_W = true) (h8 : off % 8 = 0)
    (hn : bs.length % 8 = 0) (hpos : 0 < bs.length) (hin : off % 2 ^ 21 + bs.length ≤ HOLD_BYTES)
    (hinj : (s.tile t).inject = none) : Completes (.bar4Write off bs false) s fun u =>
      (u.tile t).hold.read (off % 2 ^ 21) bs.length = bs ∧
      (∀ x, x < off % 2 ^ 21 ∨ off % 2 ^ 21 + bs.length ≤ x → (u.tile t).hold.byte x = (s.tile t).hold.byte x) ∧
      (∀ q, q ≠ t → u.tile q = s.tile q) ∧ u.port = s.port := by
  have hexec : exec (.bar4Write off bs false) s =
      done s (s.setTile t ((s.tile t).putHold (off % 2 ^ 21) (bs.map fun b => (b, false)))) := by
    have hpart : bs.take (HOLD_BYTES - off % 2 ^ 21) = bs := List.take_of_length_le (by omega)
    have hne : bs.isEmpty = false := by
      rw [List.isEmpty_eq_false_iff]
      exact List.ne_nil_of_length_pos hpos
    have hact : s.actCheck (tgtHold (off / 2 ^ 21)) 0 NEED_W (off % 2 ^ 21) = (s, true) := if_pos hpass
    refine congrArg (done s) ?_
    rw [hlive, if_neg (by decide), hopen, if_neg (by decide), if_neg (by omega)]
    dsimp only
    rw [if_neg (by decide), ht]
    dsimp only
    rw [hpart, hne, if_neg (by decide), hact]
    dsimp only
    rw [if_pos rfl]
    unfold State.holdWrite State.injUsed
    dsimp only
    rw [hinj]
    rfl
  have hlen : (bs.map fun b => (b, false)).length = bs.length := List.length_map ..
  refine completes_done hexec ⟨?_, fun x hx => ?_, fun q hq => ?_, rfl⟩
  · rw [seal_tile (by rfl), State.tile_setTile_self]
    refine read_of_byte fun i hi => ?_
    rw [putHold_byte_inside hinj _ _ (by omega), List.getD_eq_getElem?_getD, List.getElem?_map, List.getD_eq_getElem?_getD]
    cases bs[i]? <;> rfl
  · rw [seal_tile (by rfl), State.tile_setTile_self]
    exact putHold_byte_of_outside hinj _ _ (by omega)
  · rw [seal_tile (by rfl), State.tile_setTile, if_neg (Ne.symm hq)]

omit ht in
theorem bar4Read_exec {n : Nat} (ht : s.bar4Tile off = some t) (hin : off % 2 ^ 21 < HOLD_BYTES)
    (hpass : s.actPass (tgtHold (off / 2 ^ 21)) 0 NEED_R = true) : exec (.bar4Read off n) s = done s
      ((s.holdRead t (off % 2 ^ 21) (min n (HOLD_BYTES - off % 2 ^ 21))).1.sendPieces off
        ((s.holdRead t (off % 2 ^ 21) (min n (HOLD_BYTES - off % 2 ^ 21))).2 ++
          readZeros (n - min n (HOLD_BYTES - off % 2 ^ 21)))) := by
  have hact : s.actCheck (tgtHold (off / 2 ^ 21)) 0 NEED_R (off % 2 ^ 21) = (s, true) := if_pos hpass
  refine congrArg (done s) ?_
  rw [hlive, if_neg (by decide), hopen, if_neg (by decide)]
  dsimp only
  rw [ht]
  dsimp only
  rw [if_neg (by omega), hact]
  rfl

theorem bar4Read_hold {n : Nat} (hpass : s.actPass (tgtHold (off / 2 ^ 21)) 0 NEED_R = true) (hin : off % 2 ^ 21 < HOLD_BYTES)
    (hclean : ∀ w, w < n + 8 → (s.tile t).hold.mark (off % 2 ^ 21 + w) = 0) : Completes (.bar4Read off n) s fun u =>
      s.SendsBar u ((s.tile t).hold.read (off % 2 ^ 21) (min n (HOLD_BYTES - off % 2 ^ 21)) ++
        List.replicate (n - (HOLD_BYTES - off % 2 ^ 21)) 0) ∧ u.tiles = s.tiles := by
  have hexec := bar4Read_exec (n := n) hlive hopen ht hin hpass
  have hread : s.holdRead t (off % 2 ^ 21) (min n (HOLD_BYTES - off % 2 ^ 21)) =
      (s, ((s.tile t).hold.read (off % 2 ^ 21) (min n (HOLD_BYTES - off % 2 ^ 21))).map fun b => (b, false)) := by
    unfold State.holdRead
    dsimp only
    rw [holdErrors_clean fun w hw => hclean w (by omega), holdBytes_clean fun w hw => hclean w (by omega)]
    rfl
  rw [hread, readZeros_eq, ← List.map_append, show n - min n (HOLD_BYTES - off % 2 ^ 21) = n - (HOLD_BYTES - off % 2 ^ 21) by
    omega] at hexec
  exact bar4Read_sends hexec rfl rfl

theorem bar4Read_poisoned {n : Nat} (hpass : s.actPass (tgtHold (off / 2 ^ 21)) 0 NEED_R = true) (hn : n ≤ 512)
    (hin : off % 2 ^ 21 + n ≤ HOLD_BYTES) (hbad : ∃ i < n, (s.tile t).hold.mark (off % 2 ^ 21 + i) = 3) :
    Completes (.bar4Read off n) s fun u => ∃ bs, .barData bs true ∈ u.out := by
  obtain ⟨i, hi, hmark⟩ := hbad
  have hexec := bar4Read_exec (n := n) hlive hopen ht (by omega) hpass
  have hlen : ((s.tile t).holdBytes (off % 2 ^ 21) n).length = n := by simp [Tile.holdBytes]
  have hpoison : anyPoison ((s.tile t).holdBytes (off % 2 ^ 21) n) = true := by
    unfold anyPoison Tile.holdBytes
    rw [List.any_map]
    refine List.any_eq_true.2 ⟨i, List.mem_range.2 hi, ?_⟩
    change badMark ((s.tile t).hold.mark (off % 2 ^ 21 + i)) = true
    rw [hmark]
    rfl
  have hdata : (s.holdRead t (off % 2 ^ 21) n).2 = (s.tile t).holdBytes (off % 2 ^ 21) n := rfl
  rw [Nat.min_eq_left (by omega), Nat.sub_self, readZeros, List.replicate_zero, List.append_nil, hdata, sendPieces_eq] at hexec
  refine completes_done hexec ⟨bytesOf ((s.tile t).holdBytes (off % 2 ^ 21) n), List.mem_append_right _ ?_⟩
  obtain ⟨k, hk⟩ : ∃ k, n = k + 1 := ⟨n - 1, by omega⟩
  have hpieces : readPieces ((s.tile t).holdBytes (off % 2 ^ 21) n).length off
      ((s.tile t).holdBytes (off % 2 ^ 21) n).length = [(off, n)] := by
    rw [hlen, hk]
    exact readPieces_short (by omega) (by omega)
  refine List.mem_map.2 ⟨(off, n), hpieces ▸ List.mem_cons_self, ?_⟩
  dsimp only
  rw [Nat.sub_self, List.drop_zero, List.take_of_length_le (by omega), hpoison]

theorem bar4Read_denied {n : Nat} (hdeny : s.actPass (tgtHold (off / 2 ^ 21)) 0 NEED_R = false)
    (hin : off % 2 ^ 21 < HOLD_BYTES) : Completes (.bar4Read off n) s fun u =>
      .barAbort ∈ u.out ∧ AerErr.completerAbort ∈ u.port.aer ∧ u.tiles = s.tiles := by
  have hact : s.actCheck (tgtHold (off / 2 ^ 21)) 0 NEED_R (off % 2 ^ 21) =
      (s.actDeny (tgtHold (off / 2 ^ 21)) 0 NEED_R (off % 2 ^ 21) 255, false) := if_neg (ne_true_of_eq_false hdeny)
  have hexec : exec (.bar4Read off n) s =
      done s (s.actDeny (tgtHold (off / 2 ^ 21)) 0 NEED_R (off % 2 ^ 21) 255).refuseRead := by
    refine congrArg (done s) ?_
    rw [hlive, if_neg (by decide), hopen, if_neg (by decide)]
    dsimp only
    rw [ht]
    dsimp only
    rw [if_neg (by omega), hact]
    rfl
  have htiles : (s.actDeny (tgtHold (off / 2 ^ 21)) 0 NEED_R (off % 2 ^ 21) 255).tiles = s.tiles :=
    (fault_kept _ _).tiles
  generalize s.actDeny (tgtHold (off / 2 ^ 21)) 0 NEED_R (off % 2 ^ 21) 255 = x at *
  obtain ⟨hout, haer, -⟩ := refuseRead_effect x
  obtain ⟨errs, hs, f, h1, -⟩ := aer_withAer x .completerAbort true
  obtain ⟨errs', h2, -⟩ := advise_withAer (x.withAer errs hs f) .completerAbort
  have hkept : x.refuseRead.tiles = x.tiles := by
    unfold State.refuseRead
    rw [h1, h2]
    rfl
  refine completes_done hexec ⟨?_, haer, hkept.trans htiles⟩
  change _ ∈ x.refuseRead.out
  rw [hout]
  exact List.mem_append_right _ List.mem_cons_self

end

/-! ### CXL.mem (R447 to R449) -/

theorem rasError_withAer (s : State) : ∃ errs hs f,
    s.rasError = State.withAer { s with port := { s.port with rasUncorr := true } } errs hs f := by
  obtain ⟨errs, hs, f, h, -⟩ := aer_withAer { s with port := { s.port with rasUncorr := true } } .uncorrectableInternal false
  exact ⟨errs, hs, f, h⟩

section
variable {s : State} (hlive : s.boot.safe = false) {off : Nat}
include hlive

theorem memRd_exec (ms : Bool) (mv sn : Nat) : exec (.memRd off ms mv sn) s = done s (s.doMemRd off ms mv sn) := by
  refine congrArg (done s) ?_
  rw [hlive, if_neg (by decide)]

theorem memWr_exec (mv sn : Nat) (bs : List Byte) (p : Bool) :
    exec (.memWr off mv sn bs p) s = done s (s.doMemWr off mv sn bs p) := by
  refine congrArg (done s) ?_
  rw [hlive, if_neg (by decide)]

theorem mem_undecoded (hdec : s.hdmDecode off = none) :
    (∀ ms mv sn, Completes (.memRd off ms mv sn) s fun u =>
      u.out = s.out ++ [.memData (List.replicate 64 0) true] ∧ u.port.rasUncorr = true ∧ u.hdm = s.hdm) ∧
    (∀ mv sn bs p, Completes (.memWr off mv sn bs p) s fun u =>
      u.out = s.out ++ [.memDone] ∧ u.port.rasUncorr = true ∧ u.hdm = s.hdm) ∧
    ∀ mv, Completes (.memClnEvct off mv) s fun u => u.out = s.out ++ [.memDone] ∧ u.basin = s.basin := by
  obtain ⟨errs, hs, f, hras⟩ := rasError_withAer s
  refine ⟨fun ms mv sn => ?_, fun mv sn bs p => ?_, fun mv => ?_⟩
  · have hrun := memRd_exec (off := off) hlive ms mv sn
    rw [State.doMemRd, hdec] at hrun
    dsimp only at hrun
    rw [hras] at hrun
    exact completes_done hrun ⟨rfl, rfl, rfl⟩
  · have hrun := memWr_exec (off := off) hlive mv sn bs p
    rw [State.doMemWr, hdec] at hrun
    dsimp only at hrun
    rw [hras] at hrun
    exact completes_done hrun ⟨rfl, rfl, rfl⟩
  · have hrun : exec (.memClnEvct off mv) s = done s (s.rasError.emit .memDone) := by
      refine congrArg (done s) ?_
      rw [hdec]
    rw [hras] at hrun
    exact completes_done hrun ⟨rfl, rfl⟩

end

theorem memClnEvct_line {s : State} {off dpa : Nat} (hdec : s.hdmDecode off = some dpa) {l : Line}
    (hl : s.basinLine false (lineOf dpa) = some l) : Completes (.memClnEvct off META_INVALID) s fun u =>
      u.out = s.out ++ [.memDone] ∧
      u.basinLine false (lineOf dpa) = some { l with presence := l.presence.filter (· ≠ 44) } := by
  have hrun : exec (.memClnEvct off META_INVALID) s = done s ((s.setBit44 (lineOf dpa) false).emit .memDone) := by
    refine congrArg (done s) ?_
    rw [hdec]
    exact congrArg (State.emit · Out.memDone) (if_pos rfl)
  rw [setBit44_off hl] at hrun
  obtain ⟨h1, h2⟩ := basinLine_key hl
  exact completes_done hrun ⟨rfl, basinLine_putLine hl h1 h2⟩

/-! #### A host request at an uncached line's home (R376, R448, R449) -/

/-- The state in which a host request at the home of an uncached line acts: its frame is in SHR bias. -/
def State.shared (s : State) (la : Nat) (shr : List Nat) : State :=
  { s.admitted [(la, none)] with basin := { s.basin with shr := shr } }

/-- A host request runs at the home of a line that nothing holds back, its frame in SHR bias. -/
theorem hostAtHome_uncached {s : State} {la : Nat} (hfree : s.homeBusy none (la, none) = false)
    (hframe : ∀ l ∈ s.basin.lines, l.host = true ∨ l.addr / 4096 ≠ la / 4096) (c : HeldReq) (act : State → State) :
    ∃ shr, la / 4096 ∈ shr ∧ s.hostAtHome c la act = act (s.shared la shr) := by
  have hlines : (s.basin.lines.filter fun l => !l.host && l.addr / 4096 == la / 4096) = [] :=
    List.filter_eq_nil_iff.2 fun l hl => by
      rcases hframe l hl with h | h <;> simp [h]
  have hrun : s.hostAtHome c la act = act (if (s.admitted [(la, none)]).isShr la then s.admitted [(la, none)]
      else (s.admitted [(la, none)]).flip (la / 4096)) := by
    unfold State.hostAtHome
    dsimp only
    rw [hfree, if_neg (by decide), atHome_free fun t ht => by rw [List.mem_singleton.1 ht]; exact hfree]
  by_cases hshr : s.isShr la = true
  · refine ⟨s.basin.shr, List.contains_iff_mem.1 hshr, hrun.trans ?_⟩
    rw [if_pos (show (s.admitted [(la, none)]).isShr la = true from hshr)]
    rfl
  · refine ⟨insertNat (la / 4096) s.basin.shr, mem_insertNat.2 (.inl rfl), hrun.trans ?_⟩
    rw [if_neg (show ¬(s.admitted [(la, none)]).isShr la = true from hshr)]
    unfold State.flip
    rw [show (s.admitted [(la, none)]).basin.lines = s.basin.lines from rfl, hlines]
    rfl

/-- A state with other copies and lockkeepers, none of a line of HDM. -/
structure State.Recopied (s t : State) (la : Nat) : Prop where
  eq : ∃ lks copies, t = { s with lks := lks, basin := { s.basin with copies := copies } }
  noCopy : t.NoCopy la

theorem dropCopies_recopied {s : State} {la : Nat} (hnone : s.basinLine false la = none) (hno : s.NoCopy la)
    (keep : Option Nat) : s.Recopied (s.dropCopies false la keep) la := by
  have hlines : (s.basin.lines.map fun l => if l.host == false && l.addr == la then l.dropped keep else l) = s.basin.lines := by
    refine (List.map_congr_left fun l hl => ?_).trans (List.map_id _)
    exact if_neg (List.find?_eq_none.1 hnone l hl)
  have hcopies := dropCopies_lineKept_copies hno keep
  obtain ⟨lks, hd⟩ := dropCopies_noCopy hno keep
  refine ⟨⟨lks, (s.basin.dropCopies false la keep).copies, hd.trans ?_⟩, hcopies⟩
  have hbasin : s.basin.dropCopies false la keep =
      { s.basin with copies := (s.basin.dropCopies false la keep).copies } :=
    congrArg (fun ls => ({ s.basin with copies := (s.basin.dropCopies false la keep).copies, lines := ls } : Basin)) hlines
  rw [← hbasin]

/-- What the snoop of a host request changes for an uncached line. -/
theorem applySnp_recopied {s : State} {la : Nat} (hnone : s.basinLine false la = none) (hno : s.NoCopy la) (sn : Nat) :
    s.Recopied (s.applySnp false la sn) la := by
  unfold State.applySnp
  split
  · rw [recall_absent hnone]
    exact dropCopies_recopied hnone hno none
  · split
    · have hsnoop : s.snoopOwner false la .berthSnpData = s := by
        rw [State.snoopOwner, hnone]
        rfl
      dsimp only
      rw [hsnoop, recall_absent hnone]
      generalize hcs : (s.basin.copies.map fun c =>
        if c.host == false && c.addr == la then { c with st := .s, data := [], poison := 0 } else c) = cs
      rw [show ({ s with basin := { s.basin with copies := cs } } : State).basinLine false la = none from hnone]
      refine ⟨⟨s.lks, cs, rfl⟩, fun c hc => ?_⟩
      obtain ⟨x, hx, rfl⟩ := List.mem_map.1 (hcs ▸ hc)
      have := hno x hx
      split
      · exact this
      · exact this
    · exact ⟨⟨s.lks, s.basin.copies, rfl⟩, hno⟩

/-- A state in which a request of the host acts on an uncached line at its home, after its snoop. -/
structure State.Ready (s t : State) (la : Nat) : Prop where
  absent : t.basinLine false la = none
  noCopy : t.NoCopy la
  backed : s.Backed la → t.Backed la
  clean : s.CleanLine la → t.CleanLine la
  room : s.RoomFor la → t.RoomFor la
  hdm : t.hdm = s.hdm
  out : t.out = s.out
  fuses : t.fuses = s.fuses
  biEnable : t.port.biEnable = s.port.biEnable
  shr : la / 4096 ∈ t.basin.shr

theorem roomFor_congr {s t : State} {la : Nat} (hlines : t.basin.lines = s.basin.lines)
    (hdis : t.basin.disabled = s.basin.disabled) (hrec : t.basin.recovering = s.basin.recovering)
    (hmoor : t.basin.moor = s.basin.moor) (hfuses : t.fuses = s.fuses) (hboot : t.boot = s.boot) (hregs : t.regs = s.regs)
    (h : s.RoomFor la) : t.RoomFor la := by
  have hframe : ∀ x, t.frame x = s.frame x := fun x => by simp only [State.frame, State.physReach, hfuses, hboot]
  have hslice : ∀ host x, t.slice host x = s.slice host x := fun host x => by simp only [State.slice, hframe, hfuses]
  have hset : ∀ host x, t.bsnSet host x = s.bsnSet host x := fun host x => by simp only [State.bsnSet, State.setAddr, hboot]
  have hways : ∀ p, t.bsnWays p = s.bsnWays p := fun p => by
    simp only [State.bsnWays, State.enabledWays, State.mooredWays, hdis, hrec, hmoor]
  have hsets : ∀ p set, t.setLines p set = s.setLines p set := fun p set => by
    simp only [State.setLines, hlines, hslice, hset]
  have hbit : ∀ o i, t.bit o i = s.bit o i := fun o i => by simp only [State.bit, State.reg, hregs, hfuses]
  simp only [State.RoomFor, hslice, hset, hways, hsets, hbit]
  exact h

theorem ready_snooped {s : State} {la : Nat} (hnone : s.basinLine false la = none) (hno : s.NoCopy la) {shr : List Nat}
    (hshr : la / 4096 ∈ shr) (sn : Nat) : s.Ready ((s.shared la shr).applySnp false la sn) la := by
  obtain ⟨⟨lks, copies, heq⟩, hno'⟩ := applySnp_recopied (s := s.shared la shr) hnone hno sn
  rw [heq] at hno' ⊢
  exact ⟨hnone, hno', id, id, roomFor_congr rfl rfl rfl rfl rfl rfl rfl, rfl, rfl, rfl, rfl, hshr⟩

/-- The end of a host read at the home: the host's presence where it takes the line, and the data. -/
def State.memServed (t : State) (la : Nat) (take : Bool) : State :=
  let y := if take && t.port.biEnable then t.setBit44 la true else t
  (y.ncReadLine false la).1.answerMem (y.ncReadLine false la).2

/-- The end of a host write at the home. -/
def State.memWritten (t : State) (la mv : Nat) (bs : List Byte) (poison : Bool) : State :=
  let y := t.hostWriteLine la bs poison
  (if mv = META_INVALID then y.setBit44 la false else y).emit .memDone

section
variable {s : State} (hlive : s.boot.safe = false) {off dpa : Nat} (hdec : s.hdmDecode off = some dpa)
  (hu : s.Uncached (lineOf dpa)) (hb : s.Backed (lineOf dpa))
  (hframe : ∀ l ∈ s.basin.lines, l.host = true ∨ l.addr / 4096 ≠ lineOf dpa / 4096)
include hlive hdec hu hb hframe

theorem memRd_home (hpass : s.actPass (tgtHdm (lineOf dpa)) 0 NEED_R = true) (ms : Bool) (mv sn : Nat) :
    ∃ shr, lineOf dpa / 4096 ∈ shr ∧ exec (.memRd off ms mv sn) s = done s
      (((s.shared (lineOf dpa) shr).applySnp false (lineOf dpa) sn).memServed (lineOf dpa)
        (ms && (mv == META_ANY || mv == META_SHARED))) := by
  obtain ⟨-, -, hfree⟩ := hu
  obtain ⟨f, -, huse, -, -⟩ := hb
  obtain ⟨shr, hshr, hrun⟩ := hostAtHome_uncached (hfree none) hframe (.memRd off ms mv sn) fun s =>
    (s.applySnp false (lineOf dpa) sn).memServed (lineOf dpa) (ms && (mv == META_ANY || mv == META_SHARED))
  refine ⟨shr, hshr, (memRd_exec hlive ms mv sn).trans (congrArg (done s) (Eq.trans ?_ hrun))⟩
  have hact : s.actCheck (tgtHdm (lineOf dpa)) 0 NEED_R (lineOf dpa) = (s, true) := if_pos hpass
  unfold State.doMemRd
  rw [hdec]
  dsimp only
  rw [huse, if_neg (by simp), hact]
  rfl

theorem memWr_home (hpass : s.actPass (tgtHdm (lineOf dpa)) 0 NEED_W = true) (mv sn : Nat) (bs : List Byte) (poison : Bool) :
    ∃ shr, lineOf dpa / 4096 ∈ shr ∧ exec (.memWr off mv sn bs poison) s = done s
      (((s.shared (lineOf dpa) shr).applySnp false (lineOf dpa) sn).memWritten (lineOf dpa) mv bs poison) := by
  obtain ⟨-, -, hfree⟩ := hu
  obtain ⟨f, -, huse, -, -⟩ := hb
  obtain ⟨shr, hshr, hrun⟩ := hostAtHome_uncached (hfree none) hframe (.memWr off mv sn bs poison) fun s =>
    (s.applySnp false (lineOf dpa) sn).memWritten (lineOf dpa) mv bs poison
  refine ⟨shr, hshr, (memWr_exec hlive mv sn bs poison).trans (congrArg (done s) (Eq.trans ?_ hrun))⟩
  have hact : s.actCheck (tgtHdm (lineOf dpa)) 0 NEED_W (lineOf dpa) = (s, true) := if_pos hpass
  unfold State.doMemWr
  rw [hdec]
  dsimp only
  rw [huse, if_neg (by simp), hact]
  rfl

theorem memRd_plain (hclean : s.CleanLine (lineOf dpa)) (hpass : s.actPass (tgtHdm (lineOf dpa)) 0 NEED_R = true)
    (mv sn : Nat) : Completes (.memRd off false mv sn) s fun u =>
      u.out = s.out ++ [.memData (s.hdm.read (lineOf dpa) 64) false] ∧ u.hdm = s.hdm ∧ lineOf dpa / 4096 ∈ u.basin.shr := by
  obtain ⟨shr, hshr, hrun⟩ := memRd_home hlive hdec hu hb hframe hpass false mv sn
  have hready := ready_snooped hu.1 hu.2.1 hshr sn
  generalize (s.shared (lineOf dpa) shr).applySnp false (lineOf dpa) sn = t at *
  unfold State.memServed at hrun
  rw [Bool.false_and, Bool.false_and, if_neg (by decide)] at hrun
  dsimp only at hrun
  rw [ncReadLine_uncached hready.absent hready.noCopy (hready.backed hb) (hready.clean hclean) (lineOf_aligned _)] at hrun
  refine completes_done hrun ⟨?_, hready.hdm, hready.shr⟩
  rw [← hready.out, ← hready.hdm]
  rfl

omit hb hframe hu hlive hdec in
/-- The read of a line that its slice holds clean, and no cache owns. -/
theorem ncReadLine_clean {t : State} {la : Nat} {l : Line} (hl : t.basinLine false la = some l) (hno : t.NoCopy la)
    (howner : l.owner = none) (hv : l.victim = false) (hm : l.marks = []) :
    t.ncReadLine false la = (t.putLine { l with age := 0 }, { data := l.data, poison := 0 }) := by
  obtain ⟨h1, h2⟩ := basinLine_key hl
  have hsnoop : t.snoopOwner false la .berthSnpCur = t := by
    rw [State.snoopOwner, hl]
    dsimp only [Option.bind]
    rw [howner]
  have hput := basinLine_putLine hl (y := { l with age := 0 }) h1 h2
  have hfill : t.fillLine false la 1 = t.putLine { l with age := 0 } := by
    rw [State.fillLine, hl]
    dsimp only
    rw [hv]
    rfl
  have hlatest : (t.putLine { l with age := 0 }).latestLine false la = { data := l.data, poison := 0 } := by
    rw [State.latestLine, mCopy_noCopy (s := t.putLine { l with age := 0 }) hno, hput]
    dsimp only
    rw [hm]
    rfl
  unfold State.ncReadLine
  rw [hsnoop]
  dsimp only
  rw [mCopy_noCopy hno, hl]
  dsimp only
  rw [hfill, basinCheck_clean hput hm, hlatest]
  rfl

theorem memRd_takes (hclean : s.CleanLine (lineOf dpa)) (hpass : s.actPass (tgtHdm (lineOf dpa)) 0 NEED_R = true)
    {mv : Nat} (sn : Nat) (hmv : mv = META_ANY ∨ mv = META_SHARED) (hbi : s.port.biEnable = true)
    (hroom : s.RoomFor (lineOf dpa)) : Completes (.memRd off true mv sn) s fun u =>
      u.out = s.out ++ [.memData (s.hdm.read (lineOf dpa) 64) false] ∧
      ∃ l, u.basinLine false (lineOf dpa) = some l ∧ 44 ∈ l.presence := by
  obtain ⟨shr, hshr, hrun⟩ := memRd_home hlive hdec hu hb hframe hpass true mv sn
  have hready := ready_snooped hu.1 hu.2.1 hshr sn
  generalize (s.shared (lineOf dpa) shr).applySnp false (lineOf dpa) sn = t at *
  obtain ⟨w, hfill⟩ := fillLine_room hready.absent (hready.room hroom) (hready.backed hb) (hready.clean hclean)
    (lineOf_aligned _) 1
  have hl := basinLine_filled hready.absent 1 w
  have htaken : t.setBit44 (lineOf dpa) true = (t.filled (lineOf dpa) 1 w).putLine
      { t.newLine (lineOf dpa) 1 w with presence := [44] } := by
    unfold State.setBit44
    dsimp only
    rw [if_pos rfl, hfill, hl]
    rfl
  have hput := basinLine_putLine hl (y := { t.newLine (lineOf dpa) 1 w with presence := [44] }) rfl rfl
  have hread := ncReadLine_clean hput (t := (t.filled (lineOf dpa) 1 w).putLine _) hready.noCopy rfl rfl rfl
  have hput' := basinLine_putLine hput (y := { t.newLine (lineOf dpa) 1 w with presence := [44], age := 0 }) rfl rfl
  have htake : (true && (mv == META_ANY || mv == META_SHARED) && t.port.biEnable) = true := by
    rw [hready.biEnable, hbi]
    rcases hmv with rfl | rfl <;> rfl
  unfold State.memServed at hrun
  rw [htake, if_pos rfl] at hrun
  dsimp only at hrun
  rw [htaken, hread] at hrun
  refine completes_done hrun ⟨?_, _, hput', List.mem_cons_self⟩
  rw [← hready.out, ← hready.hdm]
  rfl

theorem memWr_uncached (hpass : s.actPass (tgtHdm (lineOf dpa)) 0 NEED_W = true) (mv sn : Nat) {bs : List Byte}
    (poison : Bool) (hn : bs.length = 64) : Completes (.memWr off mv sn bs poison) s fun u =>
      s.HdmPut u (lineOf dpa) bs ∧ u.hdm.mark (lineOf dpa) = (if poison then 3 else 0) ∧ u.out = s.out ++ [.memDone] ∧
      lineOf dpa / 4096 ∈ u.basin.shr := by
  obtain ⟨shr, hshr, hrun⟩ := memWr_home hlive hdec hu hb hframe hpass mv sn bs poison
  have hready := ready_snooped hu.1 hu.2.1 hshr sn
  generalize (s.shared (lineOf dpa) shr).applySnp false (lineOf dpa) sn = t at *
  have hal := lineOf_aligned dpa
  obtain ⟨⟨lks, copies, heq⟩, hno⟩ := dropCopies_recopied hready.absent hready.noCopy none
  obtain ⟨stk, regs, hst, hput⟩ := stkWriteLine_put (s := { t with lks := lks, basin := { t.basin with copies := copies } })
    (bs := bs) (hready.backed hb) (if poison then 0xFF else 0) (by omega) (by omega)
  have hmark : (t.hdm.putWords (lineOf dpa) bs (if poison then 0xFF else 0) (wordsOf (lineOf dpa) bs.length)).mark
      (lineOf dpa) = if poison then 3 else 0 := by
    rw [Ram.mark_putWords, if_pos (mem_wordsOf.2 ⟨by omega, by omega, by omega⟩), show lineOf dpa / 8 % 8 = 0 by omega]
    cases poison <;> rfl
  have hwrite : t.hostWriteLine (lineOf dpa) bs poison =
      State.stored { t with lks := lks, basin := { t.basin with copies := copies } }
        (t.hdm.putWords (lineOf dpa) bs (if poison then 0xFF else 0) (wordsOf (lineOf dpa) bs.length)) stk regs := by
    unfold State.hostWriteLine
    rw [recall_absent hready.absent, heq]
    dsimp only
    rw [show ({ t with lks := lks, basin := { t.basin with copies := copies } } : State).basinLine false (lineOf dpa) =
      none from hready.absent]
    exact hst
  have hbit : ∀ y : State, y.basinLine false (lineOf dpa) = none → y.setBit44 (lineOf dpa) false = y := fun y hy => by
    unfold State.setBit44
    rw [if_neg (by decide)]
    dsimp only
    rw [hy]
  rw [hst] at hput
  have hskip : (t.hostWriteLine (lineOf dpa) bs poison).setBit44 (lineOf dpa) false =
      t.hostWriteLine (lineOf dpa) bs poison := by
    rw [hwrite]
    exact hbit _ hready.absent
  unfold State.memWritten at hrun
  dsimp only at hrun
  rw [hskip, ite_self, hwrite] at hrun
  rw [← hready.out]
  refine completes_done hrun ⟨⟨hput.1, fun x hx => ?_⟩, hmark, rfl, hready.shr⟩
  rw [← hready.hdm]
  exact hput.2 x hx

end

/-- A write that the access tables refuse: it is answered, and with the fault ring off no memory changes (R560, R617). -/
theorem memWr_denied {s : State} (hlive : s.boot.safe = false) {off dpa : Nat} (hdec : s.hdmDecode off = some dpa)
    (hdeny : s.actPass (tgtHdm (lineOf dpa)) 0 NEED_W = false) (huse : s.frameUse (lineOf dpa) = .normal)
    (hring : s.bit FLT_CTL 1 = false) (mv sn : Nat) (bs : List Byte) (p : Bool) :
    Completes (.memWr off mv sn bs p) s fun u => .memDone ∈ u.out ∧ u.hdm = s.hdm ∧ u.basin = s.basin := by
  have hact : s.actCheck (tgtHdm (lineOf dpa)) 0 NEED_W (lineOf dpa) =
      (s.actDeny (tgtHdm (lineOf dpa)) 0 NEED_W (lineOf dpa) 255, false) := if_neg (ne_true_of_eq_false hdeny)
  have hrun : exec (.memWr off mv sn bs p) s =
      done s ((s.actDeny (tgtHdm (lineOf dpa)) 0 NEED_W (lineOf dpa) 255).emit .memDone) := by
    refine (memWr_exec hlive mv sn bs p).trans (congrArg (done s) ?_)
    unfold State.doMemWr
    rw [hdec]
    dsimp only
    rw [huse, if_neg (by simp), hact]
    rfl
  have hmem : (s.actDeny (tgtHdm (lineOf dpa)) 0 NEED_W (lineOf dpa) 255).memView = s.memView := by
    unfold State.actDeny
    dsimp only
    rw [fault_memView]
    · rfl
    · rw [State.bit, State.reg_setReg, if_neg (by decide), State.reg_setReg, if_neg (by decide)]
      exact hring
  generalize s.actDeny (tgtHdm (lineOf dpa)) 0 NEED_W (lineOf dpa) 255 = t at *
  exact completes_done hrun ⟨List.mem_append_right _ List.mem_cons_self, congrArg Prod.fst hmem,
    congrArg (fun v => v.2.2.1) hmem⟩

end Sys2Proof.Machine

/-- Settles O52: the clauses on BAR4 from the tile that an offset names, and those on CXL.mem from the home of the line. -/
theorem hostMemoryAccesses : Obligations.HostMemoryAccesses := by
  refine fun s => ⟨fun hsafe a => bar4_safe hsafe a, fun hlive off => ⟨fun hcl => bar4_closed hlive hcl, fun hopen => ?_,
    fun hdec => mem_undecoded hlive hdec, fun dpa hdec => ⟨fun l hl => memClnEvct_line hdec hl,
      fun hu hb hclean hframe => ⟨fun hpass mv sn => ⟨memRd_plain hlive hdec hu hb hframe hclean hpass mv sn,
        fun hmv hbi hroom => memRd_takes hlive hdec hu hb hframe hclean hpass sn hmv hbi hroom⟩,
        fun hpass mv sn bs poison hn => memWr_uncached hlive hdec hu hb hframe hpass mv sn poison hn⟩,
      fun hdeny huse hring mv sn bs p => memWr_denied hlive hdec hdeny huse hring mv sn bs p⟩⟩⟩
  refine ⟨fun bs h => bar4Write_misaligned hlive hopen h, fun n h => bar4Read_zero hlive hopen h,
    fun bs h h8 hn => bar4Write_nowhere hlive hopen h h8 hn, fun t ht => ⟨?_, ?_, ?_, ?_⟩⟩
  · exact fun bs hpass h8 hn hpos hin hinj => bar4Write_hold hlive hopen ht hpass h8 hn hpos hin hinj
  · exact fun n hpass hin hclean => bar4Read_hold hlive hopen ht hpass hin hclean
  · exact fun n hpass hn hin hbad => bar4Read_poisoned hlive hopen ht hpass hn hin hbad
  · exact fun n hdeny hin => bar4Read_denied hlive hopen ht hdeny hin
end

section
/-! The towpath's requests (R319, R574, R643). -/

open Sys2Proof Sys2Proof.Machine

namespace Sys2Proof.Machine

/-! ### The hardware responder and role 16 -/

theorem toLe_one (v : Nat) : toLe 1 v = [BitVec.ofNat 8 v] := rfl

theorem statusBytes_layout (s : State) : s.statusBytes.length = 20 ∧
    s.statusBytes.take 8 = toLe 4 (s.glbView GLB_ID).toNat ++ toLe 4 (s.glbView GLB_STATUS).toNat ∧
    s.statusBytes.drop 8 =
      toLe 1 (bnat s.boot.safe) ++ toLe 1 (bnat s.pins.thermtripOut) ++ [0, 0] ++ toLe 8 s.ww.pound := by
  have hfront : (toLe 4 (s.glbView GLB_ID).toNat ++ toLe 4 (s.glbView GLB_STATUS).toNat).length = 8 := by
    rw [List.length_append, toLe_length, toLe_length]
  have hparts : s.statusBytes = (toLe 4 (s.glbView GLB_ID).toNat ++ toLe 4 (s.glbView GLB_STATUS).toNat) ++
      (toLe 1 (bnat s.boot.safe) ++ toLe 1 (bnat s.pins.thermtripOut) ++ [0, 0] ++ toLe 8 s.ww.pound) := by
    simp only [State.statusBytes, List.append_assoc]
    rfl
  refine ⟨?_, ?_, ?_⟩
  · simp [State.statusBytes]
  · rw [hparts, List.take_left' hfront]
  · rw [hparts, List.drop_left' hfront]

theorem tempBytes_layout (s : State) : s.tempBytes.length = 48 ∧
    (∀ p < 16, s.tempBytes[p]? = some (BitVec.ofNat 8 (s.fld (PWR_REACH + 4 * p) 31 24))) ∧
    ∀ n < 32, s.tempBytes[16 + n]? = some (BitVec.ofNat 8 (min 255 (s.stack n).temp)) := by
  have hparts : s.tempBytes = (List.range 16).map (fun p => BitVec.ofNat 8 (s.fld (PWR_REACH + 4 * p) 31 24)) ++
      (List.range 32).map fun n => BitVec.ofNat 8 (min 255 (s.stack n).temp) := by
    simp only [State.tempBytes, toLe_one, ← List.map_eq_flatMap]
  refine ⟨?_, fun p hp => ?_, fun n hn => ?_⟩
  · rw [hparts]
    simp
  · rw [hparts, List.getElem?_append_left (by simpa using hp)]
    simp [hp]
  · rw [hparts, List.getElem?_append_right (by simp)]
    simp [hn]

theorem role16_refuses {s : State} (h : s.boot.fwReady = false ∨ s.boot.safe = true) (code : Nat) (act : State → State) :
    s.role16 code act = s.emit (.towpath code 2 []) :=
  if_pos (by rcases h with h | h <;> simp [h])

theorem role16_serves {s : State} (hfw : s.boot.fwReady = true) (hlive : s.boot.safe = false) (code : Nat)
    (act : State → State) : s.role16 code act = act s := if_neg (by simp [hfw, hlive])

/-! ### Interrupts (R475, R476) -/

theorem sendVec_port (s : State) (v : Nat) : ∃ port out, s.sendVec v = { s with port := port, out := out } := by
  unfold State.sendVec
  split
  · exact ⟨s.port, s.out, rfl⟩
  · dsimp only
    split
    · exact ⟨_, s.out, rfl⟩
    · split
      · exact ⟨_, s.out, rfl⟩
      · exact ⟨s.port, _, rfl⟩

/-- An event of a fixed source changes its pending bit, the port and what leaves it. -/
theorem irq_port (s : State) (n : Nat) : ∃ port out, s.irq n = { s.setBit IRQ_PEND n true with port := port, out := out } := by
  unfold State.irq
  dsimp only
  split
  · exact sendVec_port ..
  · exact ⟨s.port, s.out, rfl⟩

theorem irq_pending (s : State) {n : Nat} (h : n < 32) : (s.irq n).bit IRQ_PEND n = true := by
  obtain ⟨port, out, hirq⟩ := irq_port s n
  rw [hirq]
  exact bit_setBit_self s IRQ_PEND true h

/-! ### Clocks, limits and leases -/

theorem clockBytes_length (s : State) (n p : Nat) : (s.clockBytes n p).length = 4 := by
  unfold State.clockBytes
  split
  · rfl
  · split
    · rfl
    · rfl

/-- The entry of one reach in the reply of GET_CLOCKS. -/
theorem clocks_entry (s : State) (n : Nat) {p : Nat} (hp : p < 16) :
    (((List.range 16).flatMap (s.clockBytes n)).drop (4 * p)).take 4 = s.clockBytes n p :=
  flatMap_drop_take (clockBytes_length s n) (by simp [hp])

theorem clocks_byte (s : State) (n : Nat) {p i : Nat} (hp : p < 16) (hi : i < 4) :
    ((List.range 16).flatMap (s.clockBytes n))[4 * p + i]? = (s.clockBytes n p)[i]? := by
  rw [← clocks_entry s n hp, List.getElem?_take_of_lt hi, List.getElem?_drop]

/-- The entry of a reach that is active, with a bound tile and without one. -/
theorem clockBytes_active {s : State} {p : Nat} (h : s.fuses.reachActive p = true) (n : Nat) :
    (s.clockBytes n p)[0]? = some (BitVec.ofNat 8 (s.ceil p)) ∧ ∀ c cs, s.plannedClocks p = c :: cs →
      (s.clockBytes n p)[1]? = some (BitVec.ofNat 8 (cs.foldl max c)) ∧
      (s.clockBytes n p)[2]? = some (BitVec.ofNat 8 (cs.foldl min c)) := by
  unfold State.clockBytes
  rw [h, if_neg (by decide)]
  constructor
  · split <;> rfl
  · intro c cs hcs
    rw [hcs]
    exact ⟨rfl, rfl⟩

section
variable {s : State} (hfw : s.boot.fwReady = true) (hlive : s.Live)
include hfw hlive

theorem getClocks_replies : Completes .getClocks s fun u => ∃ bs, u.out = s.out ++ [.towpath 2 0 bs] ∧ bs.length = 64 ∧
    ∀ p < 16, (s.fuses.reachActive p = false → (bs.drop (4 * p)).take 4 = [0, 0, 0, 0]) ∧
      (s.fuses.reachActive p = true → bs[4 * p]? = some (BitVec.ofNat 8 (s.ceil p))) ∧
      ∀ c cs, s.fuses.reachActive p = true → s.plannedClocks p = c :: cs →
        bs[4 * p + 1]? = some (BitVec.ofNat 8 (cs.foldl max c)) ∧
        bs[4 * p + 2]? = some (BitVec.ofNat 8 (cs.foldl min c)) := by
  have hrun : exec .getClocks s = done s (s.draw.2.reply TP_CLOCKS TP_OK ((List.range 16).flatMap (s.clockBytes s.fresh))) :=
    congrArg (done s) (role16_serves hfw hlive ..)
  refine completes_done hrun ⟨(List.range 16).flatMap (s.clockBytes s.fresh), rfl, ?_, fun p hp => ⟨fun hoff => ?_,
    fun hon => ?_, fun c cs hon hcs => ⟨?_, ?_⟩⟩⟩
  · rw [length_flatMap_of_length (clockBytes_length s s.fresh), List.length_range]
  · rw [clocks_entry s s.fresh hp, State.clockBytes, hoff]
    rfl
  · exact (clocks_byte s s.fresh hp (by decide)).trans (clockBytes_active hon s.fresh).1
  · exact (clocks_byte s s.fresh hp (by decide)).trans ((clockBytes_active hon s.fresh).2 c cs hcs).1
  · exact (clocks_byte s s.fresh hp (by decide)).trans ((clockBytes_active hon s.fresh).2 c cs hcs).2

theorem getLimits_replies (hd : s.power.drv = none) (ht : s.power.tow = none) : exec .getLimits s =
    .next ((s.emit (.towpath 4 0 (toLe 4 (s.reg PWR_THERM).toNat ++ toLe 2 (min 2400 (max 100 (s.fld PWR_FLOOR 11 0))) ++
      toLe 2 (s.fld PWR_BASE 11 0) ++ toLe 2 (s.fld PWR_CAP 11 0) ++ List.replicate 16 0))).seal s) := by
  have hrun : exec .getLimits s = done s (s.reply TP_LIMITS TP_OK s.limitBytes) :=
    congrArg (done s) (role16_serves hfw hlive ..)
  have hbytes : s.limitBytes = toLe 4 (s.reg PWR_THERM).toNat ++ toLe 2 (min 2400 (max 100 (s.fld PWR_FLOOR 11 0))) ++
      toLe 2 (s.fld PWR_BASE 11 0) ++ toLe 2 (s.fld PWR_CAP 11 0) ++ List.replicate 16 0 := by
    unfold State.limitBytes
    rw [hd, ht, List.append_assoc]
    rfl
  rw [hrun, hbytes]
  rfl

theorem getPower_replies : exec .getPower s = .next ((s.emit (.towpath 5 0 (toLe 2 (s.fld PWR_MEAS0 10 0) ++
    toLe 2 (s.fld PWR_MEAS0 26 16) ++ toLe 2 (s.fld PWR_MEAS1 10 0) ++ toLe 2 (s.fld PWR_MEAS1 27 16)))).seal s) :=
  congrArg (done s) (role16_serves hfw hlive ..)

omit hfw hlive in
theorem setLease_tow (w d : Nat) : s.setLease true w d = ({ s with power := { s.power with
    tow := if w = 0 then none else some { watts := w, start := s.ww.time, dur := 1000 * d } } } : State).irq 5 := rfl

theorem setLease_exec (w d : Nat) : exec (.setLease w d) s = done s
    (if leaseOk w d && (w == 0 || decide (d < 2 ^ 32)) then (s.setLease true w d).reply TP_SET_LEASE TP_OK []
      else s.reply TP_SET_LEASE TP_BAD_REQUEST []) :=
  congrArg (done s) (role16_serves hfw hlive ..)

theorem setLease_grants {w d : Nat} (h1 : 100 ≤ w) (h2 : w ≤ 2400) (h3 : 1 ≤ d) (h4 : d < 2 ^ 32) :
    Completes (.setLease w d) s fun u =>
      u.power = { s.power with tow := some { watts := w, start := s.ww.time, dur := 1000 * d } } ∧
      u.bit IRQ_PEND 5 = true ∧ .towpath 0x10 0 [] ∈ u.out := by
  have hok : (leaseOk w d && (w == 0 || decide (d < 2 ^ 32))) = true := by
    simp [leaseOk, h1, h2, h3]
    omega
  have hrun := setLease_exec hfw hlive w d
  rw [if_pos hok, setLease_tow, if_neg (show w ≠ 0 by omega)] at hrun
  have hpend := irq_pending (n := 5) { s with power := { s.power with
    tow := some { watts := w, start := s.ww.time, dur := 1000 * d } } } (by decide)
  obtain ⟨port, out, hirq⟩ := irq_port { s with power := { s.power with
    tow := some { watts := w, start := s.ww.time, dur := 1000 * d } } } 5
  rw [hirq] at hrun hpend
  refine completes_done hrun ⟨rfl, ?_, List.mem_append_right _ List.mem_cons_self⟩
  rw [seal_bit (by rfl)]
  exact hpend

theorem setLease_revokes (d : Nat) : Completes (.setLease 0 d) s fun u =>
    u.power = { s.power with tow := none } ∧ .towpath 0x10 0 [] ∈ u.out := by
  have hrun := setLease_exec hfw hlive 0 d
  rw [if_pos (by rfl), setLease_tow, if_pos rfl] at hrun
  obtain ⟨port, out, hirq⟩ := irq_port { s with power := { s.power with tow := none } } 5
  rw [hirq] at hrun
  exact completes_done hrun ⟨rfl, List.mem_append_right _ List.mem_cons_self⟩

theorem setLease_refuses {w d : Nat} (h0 : w ≠ 0) (h : w < 100 ∨ 2400 < w ∨ d = 0 ∨ 2 ^ 32 ≤ d) :
    exec (.setLease w d) s = .next ((s.emit (.towpath 0x10 1 [])).seal s) := by
  refine (setLease_exec hfw hlive w d).trans (congrArg (done s) (if_neg ?_))
  simp [leaseOk, h0]
  omega

theorem wwReset_orders : Completes .wwReset s fun u =>
    u.out = s.out ++ [.towpath 0x11 0 []] ∧ (if s.gate.cut then u.gate.next else u.gate.own).reset = true := by
  have hrun : exec .wwReset s = done s (s.orderReset.reply TP_WW_RESET TP_OK []) :=
    congrArg (done s) (role16_serves hfw hlive ..)
  have hout : s.orderReset.out = s.out := by
    unfold State.orderReset State.order
    split <;> rfl
  have hgate : (if s.gate.cut then s.orderReset.gate.next else s.orderReset.gate.own).reset = true := by
    unfold State.orderReset State.order
    cases s.gate.cut <;> rfl
  generalize s.orderReset = t at *
  exact completes_done hrun ⟨congrArg (· ++ [Out.towpath 0x11 0 []]) hout, hgate⟩

end

end Sys2Proof.Machine

/-- Settles O59: the hardware responder's replies in every state, and those of role 16 in service. -/
theorem towpathRequests : Obligations.TowpathRequests := by
  refine fun s => ⟨⟨s.statusBytes, rfl, statusBytes_layout s⟩, ⟨s.tempBytes, rfl, tempBytes_layout s⟩, fun h => ?_,
    fun hfw hlive => ⟨getClocks_replies hfw hlive, getLimits_replies hfw hlive, getPower_replies hfw hlive,
      fun w d h1 h2 h3 h4 => setLease_grants hfw hlive h1 h2 h3 h4, setLease_revokes hfw hlive,
      fun w d h0 h => setLease_refuses hfw hlive h0 h, wwReset_orders hfw hlive⟩⟩
  refine ⟨?_, ?_, ?_, fun w d => ?_, ?_⟩
  · exact congrArg (done s) (role16_refuses h ..)
  · exact congrArg (done s) (role16_refuses h ..)
  · exact congrArg (done s) (role16_refuses h ..)
  · exact congrArg (done s) (role16_refuses h ..)
  · exact congrArg (done s) (role16_refuses h ..)
end

section
/-! A berth that drains while a request of its own waits at a home: the drain is not done (R555 asks for no request
outstanding in either direction), though the device has no message of its own out. -/

open Sys2Proof Sys2Proof.Machine

namespace Sys2Proof.Machine

/-- A FENCE of the berth. -/
def waitingFence : BerthMsg :=
  { oid := 0, aq := false, rl := false, poison := 0, tag := 0, len := 1, fn := 0, addr := 0, data := [] }

/-- Berth 0 drains, and a FENCE of it waits at a home. -/
def heldAtDrain : State :=
  { Tests.base with berths := [(0, { st := .draining })]
                    basin := { Tests.base.basin with held := [.berthFence 0 waitingFence] } }

theorem heldAtDrain_berth : (heldAtDrain.berth 0).st = .draining ∧ (heldAtDrain.berth 0).out = [] := by decide

/-- BERTH_DRAIN_DONE leaves that berth draining. -/
theorem heldAtDrain_stays : exec (.berthDrainDone 0) heldAtDrain = .next (heldAtDrain.seal heldAtDrain) := by
  refine (doneLive_of_live (s := heldAtDrain) rfl _).trans ?_
  rw [if_neg (by decide)]

end Sys2Proof.Machine

/-- Refutes O56: with nothing of the device's out, a berth is not DRAINED while a request of its own waits at a home. -/
theorem not_berthLinks : ¬ Obligations.BerthLinks := by
  intro h
  obtain ⟨-, -, -, -, -, hdone, -⟩ := h heldAtDrain 0 rfl
  obtain ⟨hst, hout⟩ := heldAtDrain_berth
  have hclaim := hdone hst hout
  have hsame : heldAtDrain.seal heldAtDrain = ((heldAtDrain.setBerth 0 { heldAtDrain.berth 0 with st := .drained }).seal heldAtDrain) :=
    Host.Outcome.next.inj (heldAtDrain_stays.symm.trans hclaim)
  have hst' : (heldAtDrain.berth 0).st = .drained := congrArg (fun u : State => (u.berth 0).st) hsame
  exact absurd (hst.symm.trans hst') (by decide)
end

section
/-! What a berth's link and ports see of the work at a home: what leaves the device, and the registers. -/

open Sys2Proof Sys2Proof.Machine

namespace Sys2Proof.Machine

/-! ### The work of the caches sends nothing and writes no register -/

/-- What has left the device, and its registers. -/
def State.wire (s : State) : List Out × SMap Reg × Fuses := (s.out, s.regs, s.fuses)

theorem loseResvOf_wire (s : State) (agent : Nat) (host : Bool) (la : Nat) :
    (if 16 ≤ agent ∧ agent < 40 then s.loseResv (agent - 16) host la else s).wire = s.wire := by
  obtain ⟨lks, h⟩ := loseResvOf_fields s agent host la
  rw [h]
  rfl

theorem recall_wire (s : State) (host : Bool) (la : Nat) : (s.recall host la).wire = s.wire := by
  unfold State.recall
  split <;> rfl

theorem removeCopy_wire (s : State) (agent : Nat) (host : Bool) (la : Nat) : (s.removeCopy agent host la).wire = s.wire := by
  obtain ⟨lks, h⟩ := removeCopy_fields s agent host la
  rw [h]
  rfl

theorem writeBack_wire (s : State) (agent : Nat) (host : Bool) (la : Nat) : (s.writeBack agent host la).wire = s.wire := by
  unfold State.writeBack
  split
  · rfl
  · split
    · exact (removeCopy_wire ..).trans (recall_wire ..)
    · rfl

theorem copyRoom_wire (s : State) (agent : Nat) : (s.copyRoom agent).wire = s.wire := by
  unfold State.copyRoom
  dsimp only
  split
  · split
    · rfl
    · exact writeBack_wire ..
  · rfl

theorem evictCopy_wire (s : State) (c : Copy) : (s.evictCopy c).wire = s.wire := by
  unfold State.evictCopy
  have h := loseResvOf_wire s c.agent c.host c.addr
  dsimp only
  generalize (if 16 ≤ c.agent ∧ c.agent < 40 then s.loseResv (c.agent - 16) c.host c.addr else s) = t at *
  rw [← h]
  split
  · exact copyRoom_wire t c.agent
  · rfl

theorem agedCopies_wire (s : State) (agent set up : Nat) : (s.agedCopies agent set up).wire = s.wire := by
  unfold State.agedCopies
  split <;> rfl

theorem leftWay_wire (s : State) (agent set w : Nat) (leave : Bool) : (s.leftWay agent set w leave).wire = s.wire := by
  unfold State.leftWay
  split
  · cases (s.setCopies agent set).find? fun c => c.way == w with
    | none => rfl
    | some c => exact evictCopy_wire s c
  · rfl

theorem placeCopy_wire (s : State) (agent : Nat) (host : Bool) (la : Nat) : (s.placeCopy agent host la).1.wire = s.wire := by
  rcases placeCopy_eq s agent host la with h | ⟨w, up, leave, h⟩
  · rw [h]
  · rw [h, leftWay_wire, agedCopies_wire]

theorem rcInject_berth {agent : Nat} (h : 40 ≤ agent) (s : State) : s.rcInject agent = (s, false) := by
  have h16 : ¬agent < 16 := by omega
  have h40 : ¬agent < 40 := by omega
  simp [State.rcInject, h16, h40]

theorem grant_wire {agent : Nat} (h : 40 ≤ agent) (s : State) (host : Bool) (la : Nat) (st : LineSt) (d : LineData) (age : Nat) :
    (s.grant agent host la st d age).wire = s.wire := by
  have hplaced : ∀ p : State × Nat, p = (match s.copyOf agent host la with
      | some c => if c.victim then s.placeCopy agent host la else (s, c.way)
      | none => s.placeCopy agent host la) → p.1.wire = s.wire := by
    rintro p rfl
    split
    · split
      · exact placeCopy_wire ..
      · rfl
    · exact placeCopy_wire ..
  unfold State.grant
  dsimp only
  rw [← hplaced _ rfl, rcInject_berth h]
  split <;> rfl

theorem dropCopies_wire {s : State} {la : Nat} (h : s.NoCopy la) (keep : Option Nat) :
    (s.dropCopies false la keep).wire = s.wire := by
  obtain ⟨lks, hd⟩ := dropCopies_noCopy h keep
  rw [hd]
  rfl

theorem sharedRead_wire {s : State} {la agent : Nat} (h : s.Fresh la) (ha : 40 ≤ agent) (attr : Nat) :
    (s.sharedRead agent false la attr).1.wire = s.wire ∧
      (s.sharedRead agent false la attr).2 = { data := s.hdm.read la 64, poison := 0 } := by
  obtain ⟨w, hrun⟩ := sharedRead_runs h agent attr
  rw [hrun]
  exact ⟨grant_wire ha .., rfl⟩

theorem ownershipRead_wire {s : State} {la agent : Nat} (h : s.Fresh la) (ha : 40 ≤ agent) :
    (s.ownershipRead agent false la).1.wire = s.wire ∧
      (s.ownershipRead agent false la).2 = { data := s.hdm.read la 64, poison := 0 } := by
  obtain ⟨w, hrun⟩ := ownershipRead_runs h agent
  have hno : (s.filled la 1 w).NoCopy la := h.noCopy
  rw [hrun]
  exact ⟨(grant_wire ha ..).trans (dropCopies_wire hno _), rfl⟩

/-! ### What goes to a berth (R543, R549, R551) -/

theorem berthTx_plain {s : State} {b : Nat} (h : s.bit (brtReg b 0x14) 0 = false) (o : Out) : s.berthTx b o = s.emit o := by
  simp only [State.berthTx, h, Bool.false_eq_true, if_false]

theorem bit_of_wire {s t : State} (h : t.wire = s.wire) (o i : Nat) : t.bit o i = s.bit o i := by
  have hregs : t.regs = s.regs := congrArg (·.2.1) h
  have hfuses : t.fuses = s.fuses := congrArg (·.2.2) h
  rw [State.bit, State.bit, State.reg, State.reg, hregs, hfuses]

theorem out_of_wire {s t : State} (h : t.wire = s.wire) : t.out = s.out := congrArg (·.1) h

theorem poison64_clean (bs : List Byte) : poison64 (bs.map fun b => (b, false)) = 0 := by
  have hfold : ∀ (f : Nat → PBytes) (is : List Nat) (k : Nat), (∀ i ∈ is, anyPoison (f i) = false) →
      is.foldl (fun m i => m + (if anyPoison (f i) then 2 ^ i else 0)) k = k := fun f is => by
    induction is with
    | nil => exact fun k _ => rfl
    | cons i is ih =>
      intro k hi
      rw [List.foldl_cons, hi i List.mem_cons_self]
      exact ih _ fun j hj => hi j (List.mem_cons_of_mem _ hj)
  refine hfold (fun i => ((bs.map fun b => (b, false)).drop (64 * i)).take 64) _ _ fun i _ => ?_
  rw [← List.map_drop, ← List.map_take]
  exact (data_clean _).2

theorem berthReply_clean {s : State} {b : Nat} (h : s.bit (brtReg b 0x14) 0 = false) (tag : Nat) {st : Nat}
    (hst : st ≠ CPL_MALFORMED) (bs : List Byte) :
    s.berthReply b tag st (bs.map fun b => (b, false)) = s.emit (.berthCpl b tag st bs 0) := by
  unfold State.berthReply
  rw [if_neg hst]
  dsimp only
  rw [berthTx_plain h, (data_clean bs).1, poison64_clean]

theorem berthReply_empty {s : State} {b : Nat} (h : s.bit (brtReg b 0x14) 0 = false) (tag : Nat) {st : Nat}
    (hst : st ≠ CPL_MALFORMED) : s.berthReply b tag st [] = s.emit (.berthCpl b tag st [] 0) :=
  berthReply_clean h tag hst []

theorem berthAnswer_clean {s : State} {b : Nat} (h : s.bit (brtReg b 0x14) 0 = false) (la : Nat) (err : Bool) (bs : List Byte) :
    s.berthAnswer b la err (some { data := bs, poison := 0 }) = s.emit (.berthRsp b la err (some bs) false) := berthTx_plain h _

theorem berthAnswer_none {s : State} {b : Nat} (h : s.bit (brtReg b 0x14) 0 = false) (la : Nat) (err : Bool) :
    s.berthAnswer b la err none = s.emit (.berthRsp b la err none false) := berthTx_plain h _

end Sys2Proof.Machine
end

section
/-! The messages of a berth: their stream, and what they do to memory and holds (R546 to R552). -/

open Sys2Proof Sys2Proof.Machine

namespace Sys2Proof.Machine

/-! ### The stream (R546, R549, R550) -/

section
variable {s : State} {b : Nat} {m : BerthMsg} (c : HeldReq) (release : Bool) (act : State → State)

theorem berthStream_closed (h : (s.berth b).st ≠ .active) (legal : Bool) : s.berthStream b m c release legal act = s := by
  rw [State.berthStream, State.berthAdmits, decide_eq_false h]
  rfl

variable (hst : (s.berth b).st = .active)
include hst

theorem berthStream_malformed : s.berthStream b m c release false act = s.berthReply b m.tag CPL_MALFORMED [] := by
  rw [State.berthStream, State.berthAdmits, decide_eq_true hst]
  rfl

theorem berthStream_off (hen : s.bit (brtReg b 0x00) 2 = false) :
    s.berthStream b m c release true act = s.berthReply b m.tag CPL_DENIED [] := by
  rw [State.berthStream, State.berthAdmits, decide_eq_true hst, hen]
  rfl

theorem berthStream_runs (hen : s.bit (brtReg b 0x00) 2 = true) (hheld : s.basin.held = []) :
    s.berthStream b m c release true act = act s := by
  have hwaits : s.streamWaits b m.oid release = false := by
    rw [State.streamWaits, hheld]
    rfl
  rw [State.berthStream, State.berthAdmits, decide_eq_true hst, hen, hwaits]
  rfl

end

/-- A malformed message is answered so, and BRT_ERR says it. -/
theorem berthReply_malformed {s : State} {b : Nat} (hcrc : s.bit (brtReg b 0x14) 0 = false) (tag : Nat) :
    s.berthReply b tag CPL_MALFORMED [] =
      (s.setBit (brtReg b 0x10) 2 true).emit (.berthCpl b tag CPL_MALFORMED [] 0) := by
  have hne : brtReg b 0x10 ≠ brtReg b 0x14 := by unfold brtReg; omega
  have hreg : (s.setBit (brtReg b 0x10) 2 true).reg (brtReg b 0x14) = s.reg (brtReg b 0x14) := by
    rw [State.setBit, State.setFld, State.reg_setReg, if_neg hne]
  have hbit : (s.setBit (brtReg b 0x10) 2 true).bit (brtReg b 0x14) 0 = false := by
    rw [State.bit, hreg]
    exact hcrc
  unfold State.berthReply
  rw [if_pos rfl]
  exact berthTx_plain hbit _

theorem mem_berthTx (s : State) (b : Nat) (o : Out) : o ∈ (s.berthTx b o).out := by
  unfold State.berthTx State.emit
  exact List.mem_append_right _ List.mem_cons_self

theorem msgData_clean {m : BerthMsg} (hlen : m.data.length = 8 * m.len) (hp : m.poison = 0) :
    msgData m = m.data.map fun b => (b, false) := by
  unfold msgData
  refine List.ext_getElem (by simp [hlen]) fun i h1 h2 => ?_
  have hi : i < m.data.length := by simpa using h2
  simp [hp, hi, bitOf_eq_testBit]

theorem hdmCheck_pass {s : State} {mid need a n : Nat} (h : s.hdmRefusal mid need a n = none) :
    s.hdmCheck mid need a n = (s, true) := by rw [State.hdmCheck, h]

theorem hdmCheck_refused {s : State} {mid need a n : Nat} (h : s.hdmRefusal mid need a n ≠ none) :
    (s.hdmCheck mid need a n).2 = false := by
  unfold State.hdmCheck
  split
  · next h' => exact absurd h' h
  · rfl

theorem actCheck_pass {s : State} {tgt mid need : Nat} (h : s.actPass tgt mid need = true) (a : Nat) :
    s.actCheck tgt mid need a = (s, true) := if_pos h

/-! ### Words of HDM (R547, R548) -/

section
variable {s : State} {b : Nat} {m : BerthMsg} (hcrc : s.bit (brtReg b 0x14) 0 = false)

theorem berthWrite_unbacked (hspace : msgSpace m = SPACE_HDM)
    (hpass : s.hdmRefusal (MID_BERTH b) NEED_W (msgAddr m) (8 * m.len) = none)
    (hub : s.unbackedWrite (msgAddr m) (8 * m.len) = true) (hcrc : s.bit (brtReg b 0x14) 0 = false) :
    s.berthWrite b m = s.emit (.berthCpl b m.tag 3 [] 0) := by
  unfold State.berthWrite
  dsimp only
  rw [if_pos hspace, hdmCheck_pass hpass]
  simp only [Bool.not_true, Bool.false_eq_true, if_false, hub, if_true]
  exact berthReply_empty hcrc m.tag (by decide)

theorem berthWrite_refused (hspace : msgSpace m = SPACE_HDM)
    (hden : s.hdmRefusal (MID_BERTH b) NEED_W (msgAddr m) (8 * m.len) ≠ none) :
    Out.berthCpl b m.tag 1 [] 0 ∈ (s.berthWrite b m).out := by
  have hrun : s.berthWrite b m =
      (s.hdmCheck (MID_BERTH b) NEED_W (msgAddr m) (8 * m.len)).1.berthReply b m.tag CPL_DENIED [] := by
    unfold State.berthWrite
    dsimp only
    rw [if_pos hspace, hdmCheck_refused hden]
    rfl
  rw [hrun]
  exact mem_berthTx ..

variable (hlen : m.len = 1) (ha : msgAddr m % 8 = 0) (hu : s.Uncached (lineOf (msgAddr m)))
include hcrc hlen ha hu

/-- A word written to an uncached line goes to its stack. -/
theorem berthWrite_word (hba : s.Backed (msgAddr m)) (hspace : msgSpace m = SPACE_HDM) (hdata : m.data.length = 8) (hp : m.poison = 0)
    (hpass : s.hdmRefusal (MID_BERTH b) NEED_W (msgAddr m) (8 * m.len) = none)
    (hub : s.unbackedWrite (msgAddr m) (8 * m.len) = false) :
    s.HdmPut (s.berthWrite b m) (msgAddr m) m.data ∧ (s.berthWrite b m).out = s.out ++ [.berthCpl b m.tag 0 [] 0] := by
  obtain ⟨hnone, hno, hfree⟩ := hu
  let t := s.admitted [(lineOf (msgAddr m), some true)]
  have htno : t.NoCopy (lineOf (msgAddr m)) := hno
  have hin : lineOf (msgAddr m + m.data.length - 1) = lineOf (msgAddr m) := by rw [hdata]; exact lineOf_word ha
  obtain ⟨lks, hdrop⟩ := dropCopies_noCopy htno none
  let v : State := { t with lks := lks, basin := t.basin.dropCopies false (lineOf (msgAddr m)) none }
  have hbv : v.Backed (msgAddr m) := hba
  obtain ⟨stk, regs, hst, hregs⟩ := stkWriteLine_stored hbv m.data 0 fun w hw => .inl (words_whole ha (by omega) hw)
  have hput : v.HdmPut (v.stkWriteLine (msgAddr m) m.data 0) (msgAddr m) m.data :=
    (stkWriteLine_put hbv 0 ha (by omega)).elim fun _ h => h.elim fun _ h => h.2
  have hwrite : t.ncWrite false (msgAddr m) 0 (msgData m) none = v.stkWriteLine (msgAddr m) m.data 0 := by
    rw [msgData_clean (by omega) hp, State.ncWrite, lineParts_single (by omega) hin, List.foldl_cons, List.foldl_nil,
      ncWriteLine_uncached (s := t) hnone, hdrop]
    rfl
  have hrun : s.berthWrite b m = (v.stkWriteLine (msgAddr m) m.data 0).berthReply b m.tag CPL_OK [] := by
    unfold State.berthWrite
    dsimp only
    rw [if_pos hspace, hdmCheck_pass hpass]
    simp only [Bool.not_true, Bool.false_eq_true, if_false, hub]
    rw [touches_single (by omega) (by rw [hlen]; exact lineOf_word ha), atHome_line (hfree _), hwrite]
  have hwire : (v.stkWriteLine (msgAddr m) m.data 0).wire = s.wire := by
    rw [hst, hregs fun w => by simp [bitOf_eq_testBit]]
    rfl
  rw [hrun, berthReply_empty ((bit_of_wire hwire _ _).trans hcrc) m.tag (by decide)]
  exact ⟨hput, congrArg (· ++ [_]) (out_of_wire hwire)⟩

/-- A word read from an uncached line comes from its stack. -/
theorem berthRead_word (hb : s.Backed (lineOf (msgAddr m))) (hclean : s.CleanLine (lineOf (msgAddr m)))
    (hspace : msgSpace m = SPACE_HDM)
    (hpass : s.hdmRefusal (MID_BERTH b) NEED_R (msgAddr m) (8 * m.len) = none) :
    (s.berthRead b m).hdm = s.hdm ∧
      (s.berthRead b m).out = s.out ++ [.berthCpl b m.tag 0 (s.hdm.read (msgAddr m) 8) 0] := by
  obtain ⟨hnone, hno, hfree⟩ := hu
  let t := s.admitted [(lineOf (msgAddr m), some false)]
  have hin := lineOf_word ha
  obtain ⟨k1, k2⟩ := inside_line hin
  have hread : t.ncRead false (msgAddr m) 8 = (t, (s.hdm.read (msgAddr m) 8).map fun b => (b, false)) := by
    rw [ncRead_line (by decide) hin (ncReadLine_uncached (s := t) hnone hno hb hclean (lineOf_aligned _)) rfl]
    dsimp only
    rw [Ram.drop_take_read _ k1 k2]
    rfl
  have hrun : s.berthRead b m = t.berthReply b m.tag CPL_OK ((s.hdm.read (msgAddr m) 8).map fun b => (b, false)) := by
    unfold State.berthRead
    dsimp only
    rw [if_pos hspace, hdmCheck_pass hpass]
    simp only [Bool.not_true, Bool.false_eq_true, if_false]
    rw [hlen, touches_single (by decide) hin, atHome_line (hfree _), hread]
  rw [hrun, berthReply_clean (s := t) hcrc m.tag (by decide)]
  exact ⟨rfl, rfl⟩

end

/-! ### Atomics on an uncached line (R382) -/

/-- An atomic at the slice on a clean line whose only place is the basin. -/
theorem sliceRmw_line {s : State} {a : Nat} {x : Line} (hx : s.basinLine false (lineOf a) = some x) (hm : x.marks = [])
    (hno : s.NoCopy (lineOf a)) (h1 : s.bit CMX_INJ 1 = false) (h2 : s.bit CMX_INJ 2 = false) (f : PBytes → PBytes) :
    (s.sliceRmw a 8 0 f).1.wire = s.wire ∧
      (s.sliceRmw a 8 0 f).2 = (partAt (lineOf a) x.data a 8).2.map (fun b => (b, false)) ∧
      ((s.sliceRmw a 8 0 f).1.latestLine false (lineOf a)).data = putAt x.data (a - lineOf a)
        (bytesOf (f ((partAt (lineOf a) x.data a 8).2.map fun b => (b, false)))) := by
  have hold : (partAt (lineOf a) x.data a 8).2.map (fun b => (b, badMark (sget 0 x.marks ((a - lineOf a) / 8)))) =
      (partAt (lineOf a) x.data a 8).2.map fun b => (b, false) := by
    rw [hm]
    rfl
  have hrun : s.sliceRmw a 8 0 f = (s.bsnWrite false (lineOf a) (a - lineOf a)
      (bytesOf (f ((partAt (lineOf a) x.data a 8).2.map fun b => (b, false))))
      (anyPoison (f ((partAt (lineOf a) x.data a 8).2.map fun b => (b, false)))) true,
      (partAt (lineOf a) x.data a 8).2.map fun b => (b, false)) := by
    simp only [State.sliceRmw, hx, hold]
    generalize (partAt (lineOf a) x.data a 8).2.map (fun b => (b, false)) = old
    obtain ⟨ms, hw, -⟩ := bsnWrite_line hx (a - lineOf a) (bytesOf (f old)) (anyPoison (f old)) true
    refine if_neg ?_
    rw [show (decide ((0 : Nat) ≠ 1)) = true from rfl, hw]
    simp
  have hput : ∀ y : Line, y.host = false → y.addr = lineOf a → ((s.putLine y).latestLine false (lineOf a)).data = y.data :=
    fun y h1 h2 => by rw [State.latestLine, mCopy_noCopy (s := s.putLine y) hno, basinLine_putLine hx h1 h2]
  rw [hrun]
  dsimp only
  unfold State.bsnWrite
  obtain ⟨k1, k2⟩ := basinLine_key hx
  rw [mergeLine_eq hx, bsnInject_off (s := s.putLine _) h1 h2]
  exact ⟨rfl, rfl, hput _ k1 k2⟩

/-- What an atomic of a cached page makes of a line that no cache holds: it fills, and its word changes there. -/
theorem hdmRmw_fresh {s : State} {a : Nat} (h : s.Fresh (lineOf a)) (ha : a % 8 = 0) (f : PBytes → PBytes) :
    (s.hdmRmw a 8 0 f).1.wire = s.wire ∧ (s.hdmRmw a 8 0 f).2 = (s.hdm.read a 8).map (fun b => (b, false)) ∧
      ((s.hdmRmw a 8 0 f).1.latestLine false (lineOf a)).data = putAt (s.hdm.read (lineOf a) 64) (a - lineOf a)
        (bytesOf (f ((s.hdm.read a 8).map fun b => (b, false)))) := by
  obtain ⟨k1, k2⟩ := inside_line (lineOf_word ha)
  obtain ⟨w, hfill⟩ := fillLine_fresh h 1
  have hl := basinLine_filled h.absent 1 w
  have hno : (s.filled (lineOf a) 1 w).NoCopy (lineOf a) := h.noCopy
  have hhost : (s.filled (lineOf a) 1 w).recallHost false (lineOf a) = s.filled (lineOf a) 1 w :=
    recallHost_unshared fun l hl' => by
      have hsame := Option.some.inj (hl.symm.trans hl')
      exact .inr (by rw [← hsame]; simp [State.newLine])
  have hdropped := basinLine_dropCopies (s.filled (lineOf a) 1 w) false (lineOf a) none
  rw [hl, Option.map_some] at hdropped
  have hno' := dropCopies_lineKept_copies hno none
  have hwire := dropCopies_wire hno none
  -- the line as it stands once its copies have gone
  let x : Line := { (s.newLine (lineOf a) 1 w).dropped none with
    presence := ((s.newLine (lineOf a) 1 w).dropped none).presence.filter (· ≠ 44), owner := none }
  have hpurge : (s.filled (lineOf a) 1 w).purge false (lineOf a) none =
      ((s.filled (lineOf a) 1 w).dropCopies false (lineOf a) none).putLine x := by
    unfold State.purge
    rw [hhost, recall_unmodified (mCopy_noCopy hno)]
    dsimp only
    rw [hdropped]
  have hpart : (partAt (lineOf a) x.data a 8).2 = s.hdm.read a 8 := by
    change (partAt (lineOf a) (s.hdm.read (lineOf a) 64) a 8).2 = _
    unfold partAt
    dsimp only
    rw [Nat.max_eq_right k1, Nat.add_sub_cancel_left, Ram.drop_take_read _ k1 k2]
  have hfilled : (s.filled (lineOf a) 1 w).wire = s.wire := rfl
  unfold State.hdmRmw
  dsimp only
  rw [if_pos (by decide), hfill, hpurge]
  generalize (s.filled (lineOf a) 1 w).dropCopies false (lineOf a) none = t at *
  have hx : (t.putLine x).basinLine false (lineOf a) = some x := basinLine_putLine hdropped rfl rfl
  have huwire : (t.putLine x).wire = s.wire := hwire.trans hfilled
  have hu : (t.putLine x).NoCopy (lineOf a) := hno'
  rw [basinCheck_clean hx rfl]
  generalize t.putLine x = u at *
  have hslice := sliceRmw_line hx rfl hu ((bit_of_wire huwire _ _).trans h.room.2.1)
    ((bit_of_wire huwire _ _).trans h.room.2.2) f
  rw [hpart] at hslice
  exact ⟨hslice.1.trans huwire, hslice.2⟩

section
variable {s : State} {b : Nat} {m : BerthMsg} (hcrc : s.bit (brtReg b 0x14) 0 = false) (hlen : m.len = 1)
  (ha : msgAddr m % 8 = 0)
include hcrc hlen ha

/-- An integer atomic of a berth on a word of an uncached line. -/
theorem berthAtomic_word (hu : s.Uncached (lineOf (msgAddr m))) (hroom : s.RoomFor (lineOf (msgAddr m)))
    (hb : s.Backed (lineOf (msgAddr m))) (hclean : s.CleanLine (lineOf (msgAddr m))) (hspace : msgSpace m = SPACE_HDM)
    (hdata : m.data.length = 8) (hp : m.poison = 0) (hfn : m.fn ≤ 6)
    (hpass : s.hdmRefusal (MID_BERTH b) NEED_A (msgAddr m) 8 = none) (hub : s.unbackedWrite (msgAddr m) 8 = false) :
    ((s.berthAtomic b m).out = s.out ++ [.berthCpl b m.tag 0 (s.hdm.read (msgAddr m) 8) 0] ∧
      ((s.berthAtomic b m).latestLine false (lineOf (msgAddr m))).data = putAt (s.hdm.read (lineOf (msgAddr m)) 64)
        (msgAddr m - lineOf (msgAddr m)) (toLe 8 (atomicNew m.fn 64 (leNat (s.hdm.read (msgAddr m) 8)) (leNat m.data) 0))) ∧
      (s.berthAtomic b m).fuses = s.fuses := by
  let t := s.admitted [(lineOf (msgAddr m), some true)]
  have hfresh : t.Fresh (lineOf (msgAddr m)) := fresh_admitted hu hroom hb hclean _
  obtain ⟨hwire, hold, hline⟩ := hdmRmw_fresh hfresh ha (msgChange m)
  have hbytes : msgAtomicBytes m = 8 := if_neg (by omega)
  have hchange : bytesOf (msgChange m ((s.hdm.read (msgAddr m) 8).map fun b => (b, false))) =
      toLe 8 (atomicNew m.fn 64 (leNat (s.hdm.read (msgAddr m) 8)) (leNat m.data) 0) := by
    obtain ⟨h1, h2⟩ := data_clean m.data
    obtain ⟨h3, h4⟩ := data_clean (s.hdm.read (msgAddr m) 8)
    unfold msgChange atomicBytes
    rw [msgData_clean (by omega) hp, h1, h2]
    dsimp only
    rw [if_neg (by omega), if_neg (by omega), h3, h4]
    rw [show 8 * 0 = 0 from rfl, List.drop_zero, List.take_of_length_le (by omega)]
    exact (data_clean _).1
  have hrun : s.berthAtomic b m = (t.hdmRmw (msgAddr m) 8 0 (msgChange m)).1.berthReply b m.tag CPL_OK
      (t.hdmRmw (msgAddr m) 8 0 (msgChange m)).2 := by
    unfold State.berthAtomic
    dsimp only
    rw [hbytes, hspace, ha, hdmCheck_pass hpass]
    simp only [Bool.not_true, Bool.false_eq_true, if_false, hub]
    rw [touches_single (by decide) (lineOf_word ha), atHome_line (hu.2.2 _)]
    rfl
  have hhdm : t.hdm = s.hdm := rfl
  rw [hhdm] at hold hline
  rw [hchange] at hline
  rw [hrun, hold]
  generalize (t.hdmRmw (msgAddr m) 8 0 (msgChange m)).1 = u at *
  rw [berthReply_clean ((bit_of_wire hwire _ _).trans hcrc) m.tag (by decide)]
  exact ⟨⟨congrArg (· ++ [_]) (out_of_wire hwire), hline⟩, congrArg (·.2.2) hwire⟩

end

end Sys2Proof.Machine
end

section
/-! The holds, doorbells and CXL.cache requests of a berth (R547, R551, R552). -/

open Sys2Proof Sys2Proof.Machine

namespace Sys2Proof.Machine

/-! ### Holds (R547) -/

/-- Aligned reads that find no error in the words of a hold. -/
theorem holdErrors_words {x : Tile} {a n : Nat} (h : ∀ w < n, x.hold.mark (a + w) = 0) (ha : a % 8 = 0) :
    x.holdErrors a n = [] := by
  refine List.filterMap_eq_nil_iff.2 fun w hw => ?_
  obtain ⟨h0, h1, h2⟩ := mem_wordsOf.1 hw
  have hmark := h (8 * w - a) (by omega)
  rw [show a + (8 * w - a) = 8 * w by omega] at hmark
  rw [hmark]
  rfl

section
variable {s : State} {b : Nat} {m : BerthMsg} (hcrc : s.bit (brtReg b 0x14) 0 = false) (hspace : msgSpace m = 2) {t : Nat}
  (ht : s.msgHold m = some t) (hr : holdRange (msgHoldAddr m) (8 * m.len) = true)
include hcrc hspace ht hr

omit hcrc hspace ht hr in
theorem putHold_read {x : Tile} (hinj : x.inject = none) {a n : Nat} {bs : List Byte} (hn : bs.length = n) :
    (x.putHold a (bs.map fun b => (b, false))).hold.read a n = bs := by
  rw [Ram.read_eq]
  refine List.ext_getElem (by simp [hn]) fun i h1 h2 => ?_
  rw [List.getElem_map, List.getElem_range, putHold_byte_inside hinj _ _ (by rwa [List.length_map])]
  simp [h2]

theorem berthWrite_hold (h8 : msgHoldAddr m % 8 = 0) (hinj : (s.tile t).inject = none) (hdata : m.data.length = 8 * m.len)
    (hp : m.poison = 0) (hpass : s.actPass (tgtHold (bitsOf (msgAddr m) 39 32)) (MID_BERTH b) NEED_W = true) :
    s.berthWrite b m = (s.setTile t ((s.tile t).putHold (msgHoldAddr m) (m.data.map fun b => (b, false)))).emit
      (.berthCpl b m.tag 0 [] 0) := by
  have hhdm : msgSpace m ≠ SPACE_HDM := by rw [hspace]; decide
  have hmoored : msgSpace m ≠ SPACE_MOORED := by rw [hspace]; decide
  unfold State.berthWrite
  dsimp only
  rw [if_neg hhdm, if_neg hmoored, ht]
  dsimp only
  rw [h8, hr, actCheck_pass hpass, msgData_clean hdata hp]
  simp only [ne_eq, not_true_eq_false, decide_false, Bool.not_true, Bool.or_self, Bool.false_eq_true, if_false]
  have hused : (s.holdWrite t (msgHoldAddr m) (m.data.map fun b => (b, false))) =
      s.setTile t ((s.tile t).putHold (msgHoldAddr m) (m.data.map fun b => (b, false))) := by
    unfold State.holdWrite State.injUsed
    dsimp only
    rw [hinj]
    rfl
  rw [hused]
  exact berthReply_empty (s := s.setTile t _) hcrc m.tag (by decide)

theorem berthRead_hold (hpass : s.actPass (tgtHold (bitsOf (msgAddr m) 39 32)) (MID_BERTH b) NEED_R = true)
    (h8 : msgHoldAddr m % 8 = 0) (hmark : ∀ x < 8 * m.len, (s.tile t).hold.mark (msgHoldAddr m + x) = 0) :
    s.berthRead b m = s.emit (.berthCpl b m.tag 0 ((s.tile t).hold.read (msgHoldAddr m) (8 * m.len)) 0) := by
  have hhdm : msgSpace m ≠ SPACE_HDM := by rw [hspace]; decide
  have hmoored : msgSpace m ≠ SPACE_MOORED := by rw [hspace]; decide
  have herr : (s.tile t).holdErrors (msgHoldAddr m) (8 * m.len) = [] := holdErrors_words hmark h8
  unfold State.berthRead
  dsimp only
  rw [if_neg hhdm, if_neg hmoored, ht]
  dsimp only
  rw [hr, actCheck_pass hpass]
  simp only [Bool.not_true, Bool.false_eq_true, if_false]
  unfold State.holdRead
  dsimp only
  rw [herr, holdBytes_clean hmark]
  exact berthReply_clean hcrc m.tag (by decide) _

end

/-! ### Doorbells (R552) -/

theorem hostWrite_open {s : State} (h : s.port.ioOpen = true) (a : Nat) (bs : List Byte) (p : Bool) :
    s.hostWrite a bs p = ({ s with host := s.host.store a bs p } : State).emit (.ioWrite a bs.length) := if_pos h

/-- A doorbell that is accepted is a posted write of its word. -/
theorem berthDb_rings {s : State} (hcrc : s.bit (brtReg b 0x14) 0 = false) (hio : s.port.ioOpen = true) (a v tag : Nat) :
    let t := (s.hostWrite a (toLe 4 v) false).berthReply b tag CPL_OK []
    t.host.read a 4 = toLe 4 v ∧ (∀ x, x < a ∨ a + 4 ≤ x → t.host.byte x = s.host.byte x) ∧
      t.out = s.out ++ [.ioWrite a 4, .berthCpl b tag 0 [] 0] := by
  dsimp only
  rw [hostWrite_open hio, berthReply_empty (s := ({ s with host := s.host.store a (toLe 4 v) false } : State).emit _) hcrc tag
    (by decide)]
  refine ⟨?_, fun x hx => ?_, ?_⟩
  · have h := Ram.read_store s.host a (toLe 4 v) false
    rwa [toLe_length] at h
  · exact (Ram.byte_store ..).trans (if_neg (by rw [toLe_length]; omega))
  · rw [toLe_length]
    exact List.append_assoc s.out [_] [_]

/-! ### CXL.cache (R551) -/

section
variable {s : State} {b : Nat} (hst : (s.berth b).st = .active) (hcrc : s.bit (brtReg b 0x14) 0 = false) {addr : Nat}
include hst

theorem berthCache_off (hen : s.bit (brtReg b 0x00) 1 = false) (hcrc : s.bit (brtReg b 0x14) 0 = false) (need : Nat)
    (act : State → State) : s.berthCache b addr need act = s.emit (.berthRsp b (lineOf addr) true none false) := by
  unfold State.berthCache
  dsimp only
  rw [State.berthAdmits, decide_eq_true hst, hen]
  exact berthAnswer_none hcrc _ _

theorem berthCache_runs (hen : s.bit (brtReg b 0x00) 1 = true) {need : Nat}
    (hpass : s.hdmRefusal (MID_BERTH b) need (lineOf addr) 64 = none) (act : State → State) :
    s.berthCache b addr need act = act s := by
  unfold State.berthCache
  dsimp only
  rw [State.berthAdmits, decide_eq_true hst, hen, hdmCheck_pass hpass]
  simp only [ite_self]
  rfl

theorem berthCache_evict (hen : s.bit (brtReg b 0x00) 1 = true) (act : State → State) :
    s.berthCache b addr 0 act = act s := by
  unfold State.berthCache
  dsimp only
  rw [State.berthAdmits, decide_eq_true hst, hen]
  rfl

end

theorem berthAtHome_line {s : State} {b la : Nat} {wr : Bool} (hw : s.streamWaits b 0 false = false)
    (hfree : s.homeBusy none (lineOf la, some wr) = false) (c : HeldReq) (act : State → State) :
    s.berthAtHome b c (lineOf la) wr act = act (s.admitted [(lineOf la, some wr)]) := by
  rw [State.berthAtHome, if_neg (by rw [hw]; decide), touches_line, atHome_line hfree]

section
variable {s : State} {b : Nat} (hst : (s.berth b).st = .active) (hcrc : s.bit (brtReg b 0x14) 0 = false) {addr : Nat}
  (hw : s.streamWaits b 0 false = false) (hen : s.bit (brtReg b 0x00) 1 = true) (hu : s.Uncached (lineOf addr))
  (hroom : s.RoomFor (lineOf addr)) (hb : s.Backed (lineOf addr)) (hclean : s.CleanLine (lineOf addr))
include hu hroom hb hclean

/-- The ownership that a berth gets, with the bytes of its copy free. -/
theorem berthOwns_granted : let t := ((s.admitted [(lineOf addr, some true)]).ownershipRead (berthAgent b) false
      (lineOf addr)).1.berthOwns b (lineOf addr)
    t.wire = s.wire ∧ ∃ c l, t.copyOf (berthAgent b) false (lineOf addr) = some c ∧ c.st = .m ∧
      t.basinLine false (lineOf addr) = some l ∧ l.owner = some (berthAgent b) := by
  have hfresh := fresh_admitted hu hroom hb hclean [(lineOf addr, some true)]
  obtain ⟨hwire, -⟩ := ownershipRead_wire hfresh (agent := berthAgent b) (Nat.le_add_right ..)
  obtain ⟨-, -, l, c, hline, -, howner, hcopy, hcst, -⟩ := ownershipRead_fresh hfresh (berthAgent b)
  dsimp only
  generalize ((s.admitted [(lineOf addr, some true)]).ownershipRead (berthAgent b) false (lineOf addr)).1 = t at *
  obtain ⟨k1, k2, k3⟩ := copyOf_key hcopy
  unfold State.berthOwns
  rw [hcopy]
  dsimp only
  have hdrawn : (t.drawBytes 64).1.copyOf (berthAgent b) false (lineOf addr) = some c := hcopy
  exact ⟨hwire, _, l, copyOf_putCopy hdrawn k1 k2 k3, hcst, hline, howner⟩

omit hroom
include hst hcrc hw hen

theorem doBerthRdCurr_serves (hpass : s.hdmRefusal (MID_BERTH b) NEED_R (lineOf addr) 64 = none) :
    (s.doBerthRdCurr b addr).out = s.out ++ [.berthRsp b (lineOf addr) false (some (s.hdm.read (lineOf addr) 64)) false] ∧
      (s.doBerthRdCurr b addr).basin = s.basin := by
  obtain ⟨hnone, hno, hfree⟩ := hu
  have hread := ncReadLine_uncached (s := s.admitted [(lineOf addr, some false)]) hnone hno hb hclean (lineOf_aligned addr)
  unfold State.doBerthRdCurr
  dsimp only
  rw [berthCache_runs hst hen hpass, berthAtHome_line hw (hfree _), hread]
  dsimp only
  rw [berthAnswer_clean (s := s.admitted [(lineOf addr, some false)]) hcrc]
  exact ⟨rfl, rfl⟩

include hroom

theorem doBerthRdShared_serves (hpass : s.hdmRefusal (MID_BERTH b) NEED_R (lineOf addr) 64 = none) :
    (s.doBerthRdShared b addr).out = s.out ++ [.berthRsp b (lineOf addr) false (some (s.hdm.read (lineOf addr) 64)) false] ∧
      ∃ c, (s.doBerthRdShared b addr).copyOf (berthAgent b) false (lineOf addr) = some c ∧ c.st = .e := by
  have hfresh := fresh_admitted hu hroom hb hclean [(lineOf addr, some false)]
  have hagent : 40 ≤ berthAgent b := Nat.le_add_right ..
  obtain ⟨hwire, hdata⟩ := sharedRead_wire hfresh hagent 0
  obtain ⟨-, l, c, -, -, -, -, hcopy, hcst⟩ := sharedRead_fresh hfresh (berthAgent b) 0
  unfold State.doBerthRdShared
  dsimp only
  rw [berthCache_runs hst hen hpass, berthAtHome_line hw (hu.2.2 _), hdata]
  generalize ((s.admitted [(lineOf addr, some false)]).sharedRead (berthAgent b) false (lineOf addr) 0).1 = t at *
  rw [berthAnswer_clean ((bit_of_wire hwire _ _).trans hcrc)]
  refine ⟨congrArg (· ++ [_]) (out_of_wire hwire), c, hcopy, ?_⟩
  rw [hcst, if_pos (.inr hagent)]

theorem doBerthRdOwn_serves (hpass : s.hdmRefusal (MID_BERTH b) NEED_W (lineOf addr) 64 = none) :
    (s.doBerthRdOwn b addr).out = s.out ++ [.berthRsp b (lineOf addr) false (some (s.hdm.read (lineOf addr) 64)) false] ∧
      ∃ c l, (s.doBerthRdOwn b addr).copyOf (berthAgent b) false (lineOf addr) = some c ∧ c.st = .m ∧
        (s.doBerthRdOwn b addr).basinLine false (lineOf addr) = some l ∧ l.owner = some (berthAgent b) := by
  have hfresh := fresh_admitted hu hroom hb hclean [(lineOf addr, some true)]
  obtain ⟨-, hdata⟩ := ownershipRead_wire hfresh (agent := berthAgent b) (Nat.le_add_right ..)
  obtain ⟨hwire, howned⟩ := berthOwns_granted (b := b) hu hroom hb hclean
  unfold State.doBerthRdOwn
  dsimp only
  rw [berthCache_runs hst hen hpass, berthAtHome_line hw (hu.2.2 _), hdata]
  generalize (((s.admitted [(lineOf addr, some true)]).ownershipRead (berthAgent b) false (lineOf addr)).1.berthOwns b
    (lineOf addr)) = t at *
  rw [berthAnswer_clean ((bit_of_wire hwire _ _).trans hcrc)]
  exact ⟨congrArg (· ++ [_]) (out_of_wire hwire), howned⟩

theorem doBerthRdOwnNoData_serves (hpass : s.hdmRefusal (MID_BERTH b) NEED_W (lineOf addr) 64 = none) :
    (s.doBerthRdOwnNoData b addr).out = s.out ++ [.berthRsp b (lineOf addr) false none false] ∧
      ∃ c l, (s.doBerthRdOwnNoData b addr).copyOf (berthAgent b) false (lineOf addr) = some c ∧ c.st = .m ∧
        (s.doBerthRdOwnNoData b addr).basinLine false (lineOf addr) = some l ∧ l.owner = some (berthAgent b) := by
  obtain ⟨hwire, howned⟩ := berthOwns_granted (b := b) hu hroom hb hclean
  unfold State.doBerthRdOwnNoData
  dsimp only
  rw [berthCache_runs hst hen hpass, berthAtHome_line hw (hu.2.2 _)]
  generalize (((s.admitted [(lineOf addr, some true)]).ownershipRead (berthAgent b) false (lineOf addr)).1.berthOwns b
    (lineOf addr)) = t at *
  rw [berthAnswer_none ((bit_of_wire hwire _ _).trans hcrc)]
  exact ⟨congrArg (· ++ [_]) (out_of_wire hwire), howned⟩

end

/-! #### Evictions (R371, R373) -/

theorem copyOf_removed (s : State) (agent : Nat) (host : Bool) (la : Nat) :
    (s.removeCopy agent host la).copyOf agent host la = none := by
  obtain ⟨lks, h⟩ := removeCopy_fields s agent host la
  rw [h]
  refine List.find?_eq_none.2 fun c hc => ?_
  have hkey := (List.mem_filter.1 hc).2
  rw [Bool.not_eq_true'] at hkey
  exact ne_true_of_eq_false hkey

/-- The one copy of a line, made modified. -/
theorem mCopy_putCopy {s : State} {agent la : Nat} {c d : Copy} (hc : s.copyOf agent false la = some c)
    (hone : ∀ y ∈ s.basin.copies, y.host = false → y.addr = la → y = c) (ha : d.agent = agent) (hh : d.host = false)
    (hx : d.addr = la) (hm : d.st = .m) : (s.putCopy d).mCopy false la = some d := by
  obtain ⟨k1, k2, k3⟩ := copyOf_key hc
  have hmem : d ∈ (s.putCopy d).basin.copies :=
    List.mem_map.2 ⟨c, List.mem_of_find?_eq_some hc, if_pos (by simp [k1, k2, k3, ha, hh, hx])⟩
  cases hfind : (s.putCopy d).mCopy false la with
  | none =>
    have := List.find?_eq_none.1 hfind d hmem
    simp [hh, hx, hm] at this
  | some e =>
    have hkey := List.find?_some hfind
    simp only [Bool.and_eq_true, beq_iff_eq] at hkey
    obtain ⟨y, hy, rfl⟩ := List.mem_map.1 (List.mem_of_find?_eq_some hfind)
    by_cases hno : (y.agent == d.agent && y.host == d.host && y.addr == d.addr) = true
    · rw [if_pos hno]
    · rw [if_neg hno] at hkey
      have hyc := hone y hy hkey.1.1 hkey.1.2
      exact absurd (by simp [hyc, k1, k2, k3, ha, hh, hx]) hno

section
variable {s : State} {b : Nat} (hst : (s.berth b).st = .active) (hcrc : s.bit (brtReg b 0x14) 0 = false) {addr : Nat}
  (hen : s.bit (brtReg b 0x00) 1 = true)
include hst hcrc hen

theorem doBerthClean_effect :
    (s.doBerthClean b addr).out = s.out ++ [.berthRsp b (lineOf addr) false none false] ∧
      (s.doBerthClean b addr).copyOf (berthAgent b) false (lineOf addr) = none := by
  have hwire := removeCopy_wire s (berthAgent b) false (lineOf addr)
  have hgone := copyOf_removed s (berthAgent b) false (lineOf addr)
  unfold State.doBerthClean
  dsimp only
  rw [berthCache_evict hst hen]
  generalize s.removeCopy (berthAgent b) false (lineOf addr) = t at *
  rw [berthAnswer_none ((bit_of_wire hwire _ _).trans hcrc)]
  exact ⟨congrArg (· ++ [_]) (out_of_wire hwire), hgone⟩

theorem doBerthDirty_effect {c : Copy} {l : Line} {bs : List Byte} (p : Bool)
    (hc : s.copyOf (berthAgent b) false (lineOf addr) = some c) (hcst : c.st ≠ .s) (hlen : bs.length = 64)
    (hl : s.basinLine false (lineOf addr) = some l)
    (hone : ∀ y ∈ s.basin.copies, y.host = false → y.addr = lineOf addr → y = c) :
    ((s.doBerthDirty b addr bs p).out = s.out ++ [.berthRsp b (lineOf addr) false none false] ∧
      (s.doBerthDirty b addr bs p).copyOf (berthAgent b) false (lineOf addr) = none) ∧
      ∃ y, (s.doBerthDirty b addr bs p).basinLine false (lineOf addr) = some y ∧ y.data = bs ∧ y.dirty = true ∧
        y.owner = none := by
  obtain ⟨k1, k2, k3⟩ := copyOf_key hc
  let d : Copy := { c with st := .m, data := putAt (List.replicate 64 0) 0 (bs.take 64), poison := if p then 0xFF else 0 }
  have hd : (s.putCopy d).copyOf (berthAgent b) false (lineOf addr) = some d := copyOf_putCopy hc k1 k2 k3
  have hm : (s.putCopy d).mCopy false (lineOf addr) = some d := mCopy_putCopy hc hone k1 k2 k3 rfl
  have hdata : d.data = bs := by
    show putAt (List.replicate 64 0) 0 (bs.take 64) = bs
    simp [putAt, List.take_of_length_le hlen.le, hlen]
  have hwire : ((s.putCopy d).writeBack (berthAgent b) false (lineOf addr)).wire = s.wire :=
    (writeBack_wire ..).trans rfl
  have hwb := writeBack_owner hd rfl
  have hgone : ((s.putCopy d).writeBack (berthAgent b) false (lineOf addr)).copyOf (berthAgent b) false (lineOf addr) = none := by
    rw [hwb]
    exact copyOf_removed ..
  obtain ⟨-, y, hy, hydata, hydirty, hyowner⟩ := removed_recall (s := s.putCopy d) (agent := berthAgent b) hm hl
  rw [← hwb] at hy
  unfold State.doBerthDirty
  dsimp only
  rw [berthCache_evict hst hen, hc]
  simp only [hcst, if_false]
  generalize (s.putCopy d).writeBack (berthAgent b) false (lineOf addr) = t at *
  rw [berthAnswer_none ((bit_of_wire hwire _ _).trans hcrc)]
  exact ⟨⟨congrArg (· ++ [_]) (out_of_wire hwire), hgone⟩, y, hy, hydata.trans hdata, hydirty, hyowner⟩

end

/-! ### The commands -/

/-- The commands of a message. -/
noncomputable def messages (b : Nat) (m : BerthMsg) : List Instr := [.berthWr b m, .berthRd b m, .berthAmo b m, .berthFence b m, .berthDb b m]

/-- What a berth's message does, by the part of the stream that it meets. -/
def State.messageRuns (s : State) (b : Nat) (m : BerthMsg) (c : Instr) (legal : Bool) : Prop :=
  ∃ q release act, exec c s = doneLive s (s.berthStream b m q release legal act)

theorem berthWr_stream (s : State) (b : Nat) (m : BerthMsg) : ∃ act,
    exec (.berthWr b m) s = doneLive s (s.berthStream b m (.berthWr b m) m.rl (msgLegal m) act) ∧
      (msgSpace m ≠ SPACE_BAR0 → act = fun s => s.berthWrite b m) := by
  change ∃ act, doneLive s (s.berthWr b m) = _ ∧ _
  unfold State.berthWr
  split
  · next h => exact ⟨_, rfl, fun hne => absurd h hne⟩
  · exact ⟨_, rfl, fun _ => rfl⟩

theorem berthRd_stream (s : State) (b : Nat) (m : BerthMsg) : ∃ act,
    exec (.berthRd b m) s = doneLive s (s.berthStream b m (.berthRd b m) m.rl (msgLegal m) act) ∧
      (msgSpace m ≠ SPACE_BAR0 → act = fun s => s.berthRead b m) := by
  change ∃ act, doneLive s (s.berthRd b m) = _ ∧ _
  unfold State.berthRd
  split
  · next h => exact ⟨_, rfl, fun hne => absurd h hne⟩
  · exact ⟨_, rfl, fun _ => rfl⟩

theorem berthWr_runs (s : State) (b : Nat) (m : BerthMsg) : s.messageRuns b m (.berthWr b m) (msgLegal m) :=
  (berthWr_stream s b m).elim fun act h => ⟨_, _, act, h.1⟩

theorem berthRd_runs (s : State) (b : Nat) (m : BerthMsg) : s.messageRuns b m (.berthRd b m) (msgLegal m) :=
  (berthRd_stream s b m).elim fun act h => ⟨_, _, act, h.1⟩

theorem berthFence_runs (s : State) (b : Nat) (m : BerthMsg) : s.messageRuns b m (.berthFence b m) (!m.reservedSet) :=
  ⟨_, _, _, rfl⟩

theorem messages_run {s : State} {b : Nat} {m : BerthMsg} : ∀ c ∈ messages b m, ∃ legal, s.messageRuns b m c legal ∧
    (m.reservedSet = true → legal = false) := by
  have hlegal : m.reservedSet = true → msgLegal m = false := fun h => by simp [msgLegal, h]
  refine List.forall_mem_cons.2 ⟨⟨_, berthWr_runs s b m, hlegal⟩, List.forall_mem_cons.2 ⟨⟨_, berthRd_runs s b m, hlegal⟩,
    List.forall_mem_cons.2 ⟨⟨_, ⟨_, _, _, rfl⟩, fun h => ?_⟩, List.forall_mem_cons.2 ⟨⟨_, berthFence_runs s b m, fun h => ?_⟩,
    List.forall_mem_singleton.2 ⟨_, ⟨_, _, _, rfl⟩, fun h => ?_⟩⟩⟩⟩⟩
  · rw [hlegal h, Bool.false_and]
  · rw [h, Bool.not_true]
  · rw [h, Bool.not_true, Bool.false_and]

section
variable {s : State} (hl : s.Live) {b : Nat} {m : BerthMsg}
include hl

theorem messages_closed (hst : (s.berth b).st ≠ .active) : ∀ c ∈ messages b m, exec c s = .next (s.seal s) := by
  intro c hc
  obtain ⟨legal, ⟨q, release, act, hrun⟩, -⟩ := messages_run c hc
  rw [hrun, berthStream_closed q release act hst, doneLive_of_live hl]

theorem messages_malformed (hst : (s.berth b).st = .active) (hcrc : s.bit (brtReg b 0x14) 0 = false)
    (hres : m.reservedSet = true) : ∀ c ∈ messages b m, Completes c s fun u =>
      u.out = s.out ++ [.berthCpl b m.tag 2 [] 0] ∧ u.bit (brtReg b 0x10) 2 = true ∧ u.hdm = s.hdm ∧ u.tiles = s.tiles := by
  intro c hc
  obtain ⟨legal, ⟨q, release, act, hrun⟩, hlegal⟩ := messages_run c hc
  rw [hlegal hres, berthStream_malformed q release act hst, berthReply_malformed hcrc] at hrun
  refine completes_live hl hrun ⟨rfl, ?_, rfl, rfl⟩
  rw [seal_bit (by rfl)]
  exact bit_setBit_self s _ _ (by decide)

/-- A legal message while the berth's stream is off is denied. -/
theorem message_off (hst : (s.berth b).st = .active) (hcrc : s.bit (brtReg b 0x14) 0 = false)
    (hen : s.bit (brtReg b 0x00) 2 = false) {c : Instr} (h : s.messageRuns b m c true) :
    exec c s = .next ((s.emit (.berthCpl b m.tag 1 [] 0)).seal s) := by
  obtain ⟨q, release, act, hrun⟩ := h
  rw [hrun, berthStream_off q release act hst hen, berthReply_empty hcrc m.tag (by decide), doneLive_of_live hl]
  rfl

/-- Cache requests while CACHE_EN is 0 are refused. -/
theorem cache_off (hst : (s.berth b).st = .active) (hcrc : s.bit (brtReg b 0x14) 0 = false)
    (hen : s.bit (brtReg b 0x00) 1 = false) (addr : Nat) (bs : List Byte) (p : Bool) :
    ∀ c ∈ [Instr.berthRdCurr b addr, .berthRdShared b addr, .berthRdOwn b addr, .berthRdOwnNoData b addr,
      .berthCleanEvict b addr, .berthCleanEvictNoData b addr, .berthDirtyEvict b addr bs p],
      exec c s = .next ((s.emit (.berthRsp b (lineOf addr) true none false)).seal s) := by
  have h (c : Instr) (need : Nat) (act : State → State) (hc : exec c s = doneLive s (s.berthCache b addr need act)) :
      exec c s = .next ((s.emit (.berthRsp b (lineOf addr) true none false)).seal s) := by
    rw [hc, berthCache_off hst hen hcrc need act, doneLive_of_live hl]
  have hcurr := h (.berthRdCurr b addr) NEED_R _ (congrArg (doneLive s) (by unfold State.doBerthRdCurr; rfl))
  have hshared := h (.berthRdShared b addr) NEED_R _ (congrArg (doneLive s) (by unfold State.doBerthRdShared; rfl))
  have hown := h (.berthRdOwn b addr) NEED_W _ (congrArg (doneLive s) (by unfold State.doBerthRdOwn; rfl))
  have hnodata := h (.berthRdOwnNoData b addr) NEED_W _
    (congrArg (doneLive s) (by unfold State.doBerthRdOwnNoData; rfl))
  have hclean := h (.berthCleanEvict b addr) 0 _ (congrArg (doneLive s) (by unfold State.doBerthClean; rfl))
  have hclean' := h (.berthCleanEvictNoData b addr) 0 _ (congrArg (doneLive s) (by unfold State.doBerthClean; rfl))
  have hdirty := h (.berthDirtyEvict b addr bs p) 0 _ (congrArg (doneLive s) (by unfold State.doBerthDirty; rfl))
  exact List.forall_mem_cons.2 ⟨hcurr, List.forall_mem_cons.2 ⟨hshared, List.forall_mem_cons.2 ⟨hown,
    List.forall_mem_cons.2 ⟨hnodata, List.forall_mem_cons.2 ⟨hclean, List.forall_mem_cons.2 ⟨hclean',
    List.forall_mem_singleton.2 hdirty⟩⟩⟩⟩⟩⟩

end

/-- The latest data of a line as the answer of a command leaves it. -/
theorem latestLine_sealed {s t : State} {la : Nat} {o : List Out} {d : List Byte}
    (h : (t.out = o ∧ (t.latestLine false la).data = d) ∧ t.fuses = s.fuses) :
    (t.seal s).out = o ∧ ((t.seal s).latestLine false la).data = d := by
  obtain ⟨⟨hout, hdata⟩, hfuses⟩ := h
  have hseal : (t.seal s).latestLine false la = t.latestLine false la := by
    rw [State.seal, ← hfuses]
    rfl
  exact ⟨hout, hseal ▸ hdata⟩

/-- The berth's stream is on, nothing waits at a home, and no injection waits for the link. -/
structure State.Streams (s : State) (b : Nat) : Prop where
  st : (s.berth b).st = .active
  en : s.bit (brtReg b 0x00) 2 = true
  crc : s.bit (brtReg b 0x14) 0 = false
  held : s.basin.held = []

section
variable {s : State} {b : Nat} {m : BerthMsg} (h : s.Streams b)
include h

theorem exec_berthWr (hlegal : msgLegal m = true) (hspace : msgSpace m ≠ SPACE_BAR0) :
    exec (.berthWr b m) s = doneLive s (s.berthWrite b m) := by
  obtain ⟨act, hrun, hact⟩ := berthWr_stream s b m
  rw [hrun, hlegal, berthStream_runs _ _ _ h.st h.en h.held, hact hspace]

theorem exec_berthRd (hlegal : msgLegal m = true) (hspace : msgSpace m ≠ SPACE_BAR0) :
    exec (.berthRd b m) s = doneLive s (s.berthRead b m) := by
  obtain ⟨act, hrun, hact⟩ := berthRd_stream s b m
  rw [hrun, hlegal, berthStream_runs _ _ _ h.st h.en h.held, hact hspace]

theorem exec_berthAmo (hlegal : msgLegal m = true) (hlen : m.len = 1) (hfn : m.fn ≤ 6) :
    exec (.berthAmo b m) s = doneLive s (s.berthAtomic b m) := by
  have hok : (msgLegal m && (decide (m.fn ≤ 8) && msgAtomicOk m)) = true := by
    have h8 : ¬m.fn = 8 := by omega
    have h7 : ¬m.fn = 7 := by omega
    simp only [hlegal, msgAtomicOk, h8, h7, if_false, Bool.true_and, hlen, Bool.and_eq_true, decide_eq_true_eq, beq_self_eq_true,
      and_true]
    omega
  change doneLive s (s.berthStream b m _ _ (msgLegal m && (decide (m.fn ≤ 8) && msgAtomicOk m)) _) = _
  rw [hok, berthStream_runs _ _ _ h.st h.en h.held]

theorem exec_berthFence (hl : s.Live) (hres : m.reservedSet = false) :
    exec (.berthFence b m) s = .next ((s.emit (.berthCpl b m.tag 0 [] 0)).seal s) := by
  change doneLive s (s.berthStream b m _ _ (!m.reservedSet) _) = _
  rw [hres]
  refine (congrArg (doneLive s) (berthStream_runs _ _ _ h.st h.en h.held)).trans ?_
  rw [berthReply_empty h.crc m.tag (by decide), doneLive_of_live hl]
  rfl

theorem exec_berthDb (hres : m.reservedSet = false) (hfn : m.fn ≤ 8) : exec (.berthDb b m) s = doneLive s
    (if s.berthDbOk b m.fn then
      (s.hostWrite (s.ring (s.fld (brtReg b 0x08) 9 0) m.fn).db (toLe 4 (bitsOf m.addr 31 0)) false).berthReply b
        m.tag CPL_OK []
    else s.berthReply b m.tag CPL_DENIED []) := by
  change doneLive s (s.berthStream b m _ _ (!m.reservedSet && decide (m.fn ≤ 8)) _) = _
  rw [hres, decide_eq_true hfn]
  exact congrArg (doneLive s) (berthStream_runs _ _ _ h.st h.en h.held)

end

end Sys2Proof.Machine

/-- Settles O57: a message meets its stream first; on a clean word of an uncached line it acts at the stack or at the home
slice, on a hold in the tile, and a cache request changes the copies and what the home knows of them. -/
theorem berthRequests : Obligations.BerthRequests := by
  intro s b m hl
  dsimp only
  refine ⟨messages_closed hl, fun hst hcrc hres => messages_malformed hl hst hcrc hres, fun hst hcrc hen hlegal => ?_,
    fun ⟨hst, hen, hcrc, hheld⟩ hres => ?_, fun ⟨hst, hen, hcrc, hheld⟩ hlegal hspace => ?_,
    fun ⟨hst, hen, hcrc, hheld⟩ hlegal hspace t ht hr h8 hinj hdata hp => ?_, fun addr bs p hst hcrc hw => ?_⟩
  · have hres : (!m.reservedSet) = true := by
      simp only [msgLegal, Bool.and_eq_true] at hlegal
      exact hlegal.1.1.1.1.1
    refine List.forall_mem_cons.2 ⟨message_off hl hst hcrc hen (hlegal ▸ berthWr_runs s b m), List.forall_mem_cons.2
      ⟨message_off hl hst hcrc hen (hlegal ▸ berthRd_runs s b m),
        List.forall_mem_singleton.2 (message_off hl hst hcrc hen (hres ▸ berthFence_runs s b m))⟩⟩
  · have h : s.Streams b := ⟨hst, hen, hcrc, hheld⟩
    refine ⟨exec_berthFence h hl hres, fun hfn hdb => ?_, fun hfn hdb hio => ?_⟩
    · rw [exec_berthDb h hres hfn, if_neg (by rw [hdb]; decide), berthReply_empty hcrc m.tag (by decide), doneLive_of_live hl]
      rfl
    · have hrun := exec_berthDb (m := m) h hres hfn
      rw [if_pos hdb] at hrun
      exact completes_live hl hrun (berthDb_rings hcrc hio _ _ _)
  · have h : s.Streams b := ⟨hst, hen, hcrc, hheld⟩
    have hspace' : msgSpace m ≠ SPACE_BAR0 := by rw [hspace]; decide
    have hwr := exec_berthWr h hlegal hspace'
    refine ⟨fun hpass hub => ?_, fun hden => completes_live hl hwr (berthWrite_refused hspace hden),
      fun hlen ha hdata hp hu hb hba hclean => ⟨fun hpass hub => completes_live hl hwr
          (berthWrite_word hcrc hlen ha hu hba hspace hdata hp hpass hub),
        fun hpass => completes_live hl (exec_berthRd h hlegal hspace')
          (berthRead_word hcrc hlen ha hu hb hclean hspace hpass).symm,
        fun hfn hpass hub hroom => completes_live hl (exec_berthAmo h hlegal hlen hfn)
          (latestLine_sealed (berthAtomic_word hcrc hlen ha hu hroom hb hclean hspace hdata hp hfn hpass hub))⟩⟩
    rw [hwr, berthWrite_unbacked hspace hpass hub hcrc, doneLive_of_live hl]
  · have h : s.Streams b := ⟨hst, hen, hcrc, hheld⟩
    have hspace' : msgSpace m ≠ SPACE_BAR0 := by rw [hspace]; decide
    refine ⟨fun hpass => ?_, fun hpass hmark => ?_⟩
    · have hrun := exec_berthWr h hlegal hspace'
      rw [berthWrite_hold hcrc hspace ht hr h8 hinj hdata hp hpass] at hrun
      have htile : ((s.setTile t ((s.tile t).putHold (msgHoldAddr m) (m.data.map fun b => (b, false)))).emit
          (.berthCpl b m.tag 0 [] 0)).tile t = (s.tile t).putHold (msgHoldAddr m) (m.data.map fun b => (b, false)) :=
        State.tile_setTile_self s t _
      refine completes_live hl hrun ⟨?_, fun x hx => ?_, rfl⟩
      · rw [seal_tile (by rfl), htile]
        exact putHold_read hinj hdata
      · rw [seal_tile (by rfl), htile]
        exact putHold_byte_of_outside hinj _ _ (by rwa [List.length_map, hdata])
    · rw [exec_berthRd h hlegal hspace', berthRead_hold hcrc hspace ht hr hpass h8 hmark, doneLive_of_live hl]
  · refine ⟨fun hen => cache_off hl hst hcrc hen addr bs p, fun hen _ => ⟨fun hu hroom hb hclean =>
      ⟨fun hpass => ⟨completes_live hl rfl (doBerthRdCurr_serves hst hcrc hw hen hu hb hclean hpass),
        completes_live hl rfl (doBerthRdShared_serves hst hcrc hw hen hu hroom hb hclean hpass)⟩,
      fun hpass => ⟨completes_live hl rfl (doBerthRdOwn_serves hst hcrc hw hen hu hroom hb hclean hpass),
        completes_live hl rfl (doBerthRdOwnNoData_serves hst hcrc hw hen hu hroom hb hclean hpass)⟩⟩,
      completes_live hl rfl (doBerthClean_effect hst hcrc hen), completes_live hl rfl (doBerthClean_effect hst hcrc hen),
      fun c l hc hcst hlen hline hone => completes_live hl rfl
        (doBerthDirty_effect hst hcrc hen p hc hcst hlen hline hone)⟩⟩

end

section
/-! SUPPORT. What the memory side keeps (R334 to R342, R365 to R390): a property of the state that no fault message, no
line, copy or stored byte and no register but GLB_SCRATCH touches outlives every operation of the homes, the caches and
the stack controllers. -/

open Sys2Proof Sys2Proof.Machine

namespace Sys2Proof.Machine

/-- A property that the memory side does not touch: it reads nothing of the basin, the memories, the lockkeepers and the
host port, of a stack only its temperature, and of the registers only GLB_SCRATCH. -/
structure MemStable (P : State → Prop) : Prop where
  fault   : ∀ {s} (m : FaultMsg), m.cls ≤ 4 → P s → P (s.fault m)
  reg     : ∀ {s o} (v : Reg), o ≠ GLB_SCRATCH → P s → P (s.setReg o v)
  stack   : ∀ {s n k}, k.temp = (s.stack n).temp → P s → P (s.setStack n k)
  lk      : ∀ {s} (k : Nat) (x : Lockkeeper), P s → P (s.setLk k x)
  basin   : ∀ {s} (b : Basin), P s → P { s with basin := b }
  port    : ∀ {s} (p : HostPort), P s → P { s with port := p }
  hdm     : ∀ {s} (m : Ram), P s → P { s with hdm := m }
  host    : ∀ {s} (m : Ram), P s → P { s with host := m }
  emit    : ∀ {s} (o : Out), P s → P (s.emit o)

/-- A kind's class is one of R599's five. -/
theorem msgOf_cls (kind unit inst : Nat) : (msgOf kind unit inst).cls ≤ 4 := by
  have hall : ∀ k ∈ kindTable, k.cls ≤ 4 := by decide
  unfold msgOf
  dsimp only
  split
  · next k hk => exact hall k (List.mem_of_find?_eq_some hk)
  · exact Nat.zero_le 4

theorem stkReg_ne_scratch (p off : Nat) : stkReg p off ≠ GLB_SCRATCH := by
  simp only [stkReg, STK, GLB_SCRATCH]
  omega

/-- What holds of the state of either branch. -/
theorem of_ite {P : State → Prop} {p : Prop} [Decidable p] {a b : State} (ha : P a) (hb : P b) : P (if p then a else b) := by
  split
  · exact ha
  · exact hb

theorem of_fst_ite {P : State → Prop} {β : Type} {p : Prop} [Decidable p] {a b : State × β} (ha : P a.1) (hb : P b.1) :
    P (if p then a else b).1 := by
  split
  · exact ha
  · exact hb

/-- What every round of a loop keeps, the loop keeps. -/
theorem of_foldl (P : State → Prop) {α : Type} {f : State → α → State} (hf : ∀ t a, P t → P (f t a)) (l : List α) {s : State}
    (h : P s) : P (l.foldl f s) :=
  List.foldlRecOn l f h fun t ht a _ => hf t a ht

theorem of_foldl_fst (P : State → Prop) {α β : Type} {f : State × β → α → State × β} (hf : ∀ r a, P r.1 → P (f r a).1)
    (l : List α) {r : State × β} (h : P r.1) : P (l.foldl f r).1 :=
  List.foldlRecOn (motive := fun r => P r.1) l f h fun r hr a _ => hf r a hr

namespace MemStable
variable {P : State → Prop} {s : State} (hP : MemStable P) (h : P s)
include hP h

/-! ### Registers, vectors and the host -/

theorem setBit {o : Nat} (i : Nat) (b : Bool) (ho : o ≠ GLB_SCRATCH) : P (s.setBit o i b) := hP.reg _ ho h

theorem sendVec (v : Nat) : P (s.sendVec v) := of_ite h (of_ite (hP.port _ h) (of_ite (hP.port _ h) (hP.emit _ h)))

theorem irq (n : Nat) : P (s.irq n) := by
  have hb := hP.setBit h n true (by decide : IRQ_PEND ≠ GLB_SCRATCH)
  exact of_ite (hP.sendVec hb _) hb

theorem hostWrite (a : Nat) (bs : List Byte) (p : Bool) : P (s.hostWrite a bs p) :=
  of_ite (hP.emit _ (hP.host _ h)) (hP.port _ h)

theorem snoopHost (la : Nat) (inv : Bool) : P (s.snoopHost la inv) :=
  of_ite h (of_ite (hP.emit _ (hP.port _ h)) (hP.port _ h))

/-! ### Lines and copies -/

theorem putLine (l : Line) : P (s.putLine l) := hP.basin _ h
theorem putCopy (c : Copy) : P (s.putCopy c) := hP.basin _ h

theorem recallHost (host : Bool) (la : Nat) : P (s.recallHost host la) := by
  unfold State.recallHost
  split
  · exact of_ite (hP.snoopHost h _ _) h
  · exact h

theorem recallLine (host : Bool) (la : Nat) : P (s.recall host la) := by
  unfold State.recall
  split
  · exact hP.putLine h _
  · exact h

theorem cancelResv (host : Bool) (la : Nat) (keep : Option Nat) : P (s.cancelResv host la keep) :=
  of_ite h (of_foldl P (fun _ _ ht => hP.lk _ _ ht) _ h)

theorem snoopBerths (host : Bool) (la : Nat) (keep : Option Nat) : P (s.snoopBerths host la keep) :=
  of_foldl P (fun _ _ ht => hP.emit _ ht) _ h

theorem dropCopies (host : Bool) (la : Nat) (keep : Option Nat) : P (s.dropCopies host la keep) :=
  hP.basin _ (hP.snoopBerths (hP.cancelResv h host la keep) host la keep)

theorem mergeLine (host : Bool) (la off : Nat) (bs : List Byte) (poison dirty : Bool) :
    P (s.mergeLine host la off bs poison dirty) := by
  unfold State.mergeLine
  split
  · exact h
  · exact hP.putLine h _

/-! ### Stack controllers -/

theorem stkErr (dpa bit : Nat) : P (s.stkErr dpa bit) := by
  unfold State.stkErr
  split
  · exact hP.setBit h _ _ (stkReg_ne_scratch _ _)
  · exact h

theorem dropWriteback (dpa : Nat) : P (s.dropWriteback dpa) := by
  unfold State.dropWriteback
  split
  · exact hP.stack (k := { s.stack _ with writeback := _ }) rfl h
  · exact h

theorem queueWriteback (dpa mark : Nat) : P (s.queueWriteback dpa mark) := by
  unfold State.queueWriteback
  split
  · exact hP.stack (k := { s.stack _ with writeback := _ }) rfl h
  · exact h

theorem wholeMark (port : Nat) (poison : Bool) : P (s.wholeMark port poison).1 :=
  of_fst_ite (hP.setBit (hP.setBit h _ _ (stkReg_ne_scratch _ _)) _ _ (stkReg_ne_scratch _ _))
    (of_fst_ite (hP.setBit h _ _ (stkReg_ne_scratch _ _)) h)

theorem stkFault (kind dpa : Nat) : P (s.stkFault kind dpa) := by
  unfold State.stkFault
  split
  · exact hP.fault _ (msgOf_cls kind 0 0) h
  · exact h

theorem checkWord (w : Nat) : P (s.checkWord w) := by
  unfold State.checkWord
  split
  · exact hP.queueWriteback (hP.stkErr (hP.stkFault h _ _) _ _) _ _
  · exact hP.queueWriteback (hP.stkErr (hP.stkFault h _ _) _ _) _ _
  · exact h

theorem drainedAccess (dpa : Nat) : P (s.drainedAccess dpa) := hP.stkErr (hP.stkFault h _ _) _ _
theorem discardedWrite (dpa : Nat) : P (s.discardedWrite dpa) := hP.stkErr (hP.stkFault h _ _) _ _

theorem stkReadLine (la : Nat) : P (s.stkReadLine la).1 := by
  unfold State.stkReadLine
  split
  · exact of_foldl P (fun _ _ ht => hP.checkWord ht _) _ h
  · exact of_foldl P (fun _ _ ht => hP.checkWord ht _) _ h
  · exact hP.drainedAccess h _
  · exact h
  · exact h

theorem stkWord (port a : Nat) (part : List Byte) (poison : Bool) : P (s.stkWord port a part poison) := by
  have hw := hP.dropWriteback (hP.hdm (s.hdm.write a part) h) (8 * (a / 8))
  have he : P (if poison then _ else _) := of_ite (p := poison = true) (hP.stkErr hw (8 * (a / 8)) 2) hw
  have hc := of_ite (p := s.hdm.mark (8 * (a / 8)) = 1) (hP.stkErr (hP.stkFault he K_STK_CE (8 * (a / 8))) (8 * (a / 8)) 0) he
  exact of_ite (hP.hdm _ (hP.wholeMark he _ _))
    (of_ite (hP.stkErr (hP.stkErr (hP.stkFault (hP.hdm _ hc) _ _) _ _) _ _) (hP.hdm _ hc))

theorem stkWriteLine (a : Nat) (bs : List Byte) (mask : Nat) : P (s.stkWriteLine a bs mask) := by
  unfold State.stkWriteLine
  split
  · exact of_foldl P (fun _ _ ht => hP.stkWord ht _ _ _ _) _ h
  · exact hP.drainedAccess h _
  · exact h
  · exact hP.discardedWrite h _

/-! ### The home's lines -/

theorem homeRead (host : Bool) (la : Nat) : P (s.homeRead host la).1 := of_fst_ite (hP.emit _ h) (hP.stkReadLine h _)

theorem homeWrite (host : Bool) (a : Nat) (bs : List Byte) (mask : Nat) : P (s.homeWrite host a bs mask) :=
  of_ite (hP.emit _ (hP.host _ h)) (hP.stkWriteLine h _ _ _)

theorem cacheFault (kind unit inst way addr : Nat) : P (s.cacheFault kind unit inst way addr) := hP.fault _ (msgOf_cls kind 0 0) h

theorem bsnInject (host : Bool) (la word : Nat) : P (s.bsnInject host la word) := by
  unfold State.bsnInject
  split
  · split
    · exact hP.setBit (hP.setBit (hP.putLine h _) _ _ (by decide)) _ _ (by decide)
    · exact h
  · exact h

theorem basinCheck (host : Bool) (la : Nat) : P (s.basinCheck host la) := by
  unfold State.basinCheck
  split
  · exact h
  · next l _ =>
    dsimp only
    generalize hc : (if (l.marks.any fun m => m.2 == 1) = true then _ else s) = c
    have hPc : P c := hc ▸ of_ite (hP.cacheFault (hP.putLine h _) _ _ _ _ _) h
    refine of_ite hPc ?_
    have he := hP.setBit (hP.cacheFault hPc K_BSN_UE 3 (c.slice host la) l.way la) 4 true (by decide : CMX_ERR ≠ GLB_SCRATCH)
    split
    · exact he
    · exact of_ite (hP.putLine he _) (hP.putLine (hP.homeRead he _ _) _)

theorem ageSet (p set n : Nat) : P (s.ageSet p set n) := hP.basin _ h

theorem drainLine (host : Bool) (la : Nat) : P (s.drainLine host la) := by
  unfold State.drainLine
  split
  · exact h
  · exact of_ite h (hP.homeWrite (hP.basin _ h) _ _ _ _)

theorem victimRoom (p : Nat) : P (s.victimRoom p) := by
  unfold State.victimRoom
  dsimp only
  split
  · exact of_ite h (hP.drainLine h _ _)
  · exact h

theorem evictLine (host : Bool) (la : Nat) : P (s.evictLine host la) := by
  have hd := hP.dropCopies (hP.recallLine (hP.recallHost h host la) host la) host la none
  unfold State.evictLine
  dsimp only
  split
  · exact hd
  · exact of_ite (hP.putLine (hP.victimRoom hd _) _) (hP.basin _ hd)

theorem placeLine (host : Bool) (la : Nat) : P (s.placeLine host la).1 := by
  unfold State.placeLine
  dsimp only
  split
  · exact h
  · next w up leave _ =>
    have ha := of_ite (p := up = 0) h (hP.ageSet h (s.slice host la) (s.bsnSet host la) up)
    refine of_ite ?_ ha
    split
    · exact hP.evictLine ha _ _
    · exact ha

theorem fillLine (host : Bool) (la age : Nat) : P (s.fillLine host la age) := by
  have placed {t u : State} {w : Option Nat} (ht : P t) (hu : t.placeLine host la = (u, w)) : P u := by
    simpa only [hu] using hP.placeLine ht host la
  unfold State.fillLine
  split
  · refine of_ite (hP.putLine h _) ?_
    dsimp only
    split
    · next he => exact hP.basin _ (placed (hP.basin _ h) he)
    · exact h
  · split
    · next he => exact placed h he
    · next he => exact hP.bsnInject (hP.basin _ (hP.homeRead (placed h he) _ _)) _ _ _

/-! ### Copies -/

theorem loseResv (k : Nat) (host : Bool) (la : Nat) : P (s.loseResv k host la) := of_ite (hP.lk _ _ h) h

theorem removeCopy (agent : Nat) (host : Bool) (la : Nat) : P (s.removeCopy agent host la) :=
  hP.basin _ (of_ite (hP.loseResv h _ _ _) h)

theorem snoopOwner (host : Bool) (la : Nat) (o : Nat → Nat → Out) : P (s.snoopOwner host la o) := by
  unfold State.snoopOwner
  split
  · exact of_ite (hP.emit _ h) h
  · exact h

/-! ### Accesses at the home -/

theorem ncReadLine (host : Bool) (la : Nat) : P (s.ncReadLine host la).1 := by
  have ho := hP.snoopOwner h host la .berthSnpCur
  unfold State.ncReadLine
  refine of_fst_ite ho ?_
  split
  · exact hP.basinCheck (hP.fillLine ho _ _ _) _ _
  · exact hP.homeRead ho _ _

theorem ncRead (host : Bool) (a n : Nat) : P (s.ncRead host a n).1 := by
  unfold State.ncRead
  refine of_foldl_fst P (fun r la hr => ?_) _ h
  exact hP.ncReadLine hr host la

theorem bsnWrite (host : Bool) (la off : Nat) (bs : List Byte) (poison dirty : Bool) :
    P (s.bsnWrite host la off bs poison dirty) := hP.bsnInject (hP.mergeLine h _ _ _ _ _ _) _ _ _

theorem purge (host : Bool) (la : Nat) (keep : Option Nat) : P (s.purge host la keep) := by
  have hd := hP.dropCopies (hP.recallLine (hP.recallHost h host la) host la) host la keep
  unfold State.purge
  dsimp only
  split
  · exact hP.putLine hd _
  · exact hd

theorem ncWriteLine (host : Bool) (a attr : Nat) (bs : List Byte) (poison : Bool) (keep : Option Nat) :
    P (s.ncWriteLine host a attr bs poison keep) := by
  have hp := hP.purge h host (lineOf a) keep
  unfold State.ncWriteLine
  dsimp only
  split
  · exact of_ite (hP.hostWrite hp _ _ _) (hP.homeWrite hp _ _ _ _)
  · next l _ =>
    have hw := hP.bsnWrite (hP.putLine hp { l with age := 0 }) host (lineOf a) (a - lineOf a) bs poison (decide (attr ≠ 1))
    exact of_ite (of_ite (hP.hostWrite hw _ _ _) (hP.homeWrite hw _ _ _ _)) hw

theorem ncWrite (host : Bool) (a attr : Nat) (bs : PBytes) (keep : Option Nat) : P (s.ncWrite host a attr bs keep) :=
  of_foldl P (fun _ _ ht => hP.ncWriteLine ht _ _ _ _ _ _) _ h

theorem flagStore (host : Bool) (a : Nat) (bs : List Byte) : P (s.flagStore host a bs) :=
  of_ite (hP.hostWrite h _ _ _) (hP.ncWrite h _ _ _ _ _)

theorem ucWrite (host : Bool) (a : Nat) (bs : PBytes) : P (s.ucWrite host a bs) :=
  of_foldl P (fun _ _ ht => of_ite (hP.hostWrite ht _ _ _) (hP.stkWriteLine ht _ _ _)) _ h

theorem pageWrite (host : Bool) (attr a : Nat) (bs : PBytes) : P (s.pageWrite host attr a bs) :=
  of_ite (hP.ucWrite h _ _ _) (hP.ncWrite h _ _ _ _ _)

/-! ### Watches -/

theorem unwatchLine (host : Bool) (la : Nat) : P (s.unwatchLine host la) := by
  unfold State.unwatchLine
  split
  · exact hP.putLine h _
  · exact h

theorem dropWatch (host : Bool) (la : Nat) : P (s.dropWatch host la) := of_ite h (hP.unwatchLine h _ _)

theorem watchLine (host : Bool) (la : Nat) : P (s.watchLine host la).1 := by
  have hf := hP.fillLine h host la 1
  unfold State.watchLine
  dsimp only
  split
  · exact hf
  · exact of_fst_ite hf (of_fst_ite hf (hP.putLine hf _))

end MemStable

/-- The memory side leaves the contexts and their rings alone. -/
theorem contexts_memStable (c : SMap Context) : MemStable fun s => s.contexts = c where
  fault m _ h := (fault_kept _ m).contexts.trans h
  reg _ _ h := h
  stack _ h := h
  lk _ _ h := h
  basin _ h := h
  port _ h := h
  hdm _ h := h
  host _ h := h
  emit _ h := h

end Sys2Proof.Machine
end

section
/-! SUPPORT. Contexts and rings as stored, and a record put into a completion ring that takes it at once (R489, R495). -/

open Sys2Proof Sys2Proof.Machine

namespace Sys2Proof.Machine
variable {s : State} {c r : Nat}

theorem mem_of_sfind {α : Type} {m : SMap α} {k : Nat} {v : α} (h : sfind? m k = some v) : (k, v) ∈ m := by
  induction m with
  | nil => exact absurd h (by simp [sfind?])
  | cons e m ih =>
    simp only [sfind?] at h
    split at h
    · next hk => exact List.mem_cons.2 (.inl (by rw [← hk, ← Option.some.inj h]))
    · exact List.mem_cons_of_mem _ (ih h)

theorem sget_of_sfind {α : Type} {m : SMap α} {k : Nat} {v : α} (h : sfind? m k = some v) (d : α) : sget d m k = v := by
  induction m with
  | nil => exact absurd h (by simp [sfind?])
  | cons e m ih =>
    simp only [sfind?] at h
    simp only [sget]
    split
    · next hk => exact Option.some.inj (by rwa [if_pos hk] at h)
    · next hk => exact ih (by rwa [if_neg hk] at h)

theorem State.context_setContext_of_ne {c j : Nat} (h : j ≠ c) (s : State) (x : Context) :
    (s.setContext c x).context j = s.context j := sget_sset_of_ne h.symm ..

theorem State.ring_setRing (s : State) (c r : Nat) (x : Ring) (d q : Nat) :
    (s.setRing c r x).ring d q = if d = c ∧ q = r then x else s.ring d q := by
  simp only [State.ring, State.setRing]
  by_cases hd : d = c
  · subst hd
    simp [sget_sset, eq_comm]
  · simp [State.context_setContext_of_ne hd, hd]

@[simp] theorem State.ring_setRing_self (s : State) (c r : Nat) (x : Ring) : (s.setRing c r x).ring c r = x := by
  simp [State.ring_setRing]

theorem State.ring_setRing_of_ne {r q : Nat} (h : q ≠ r) (s : State) (c : Nat) (x : Ring) (d : Nat) :
    (s.setRing c r x).ring d q = s.ring d q := by simp [State.ring_setRing, h]

/-- Rings and contexts are what the contexts say. -/
theorem ring_of_contexts {s t : State} (h : t.contexts = s.contexts) (c r : Nat) : t.ring c r = s.ring c r := by
  simp only [State.ring, State.context, h]

theorem context_of_contexts {s t : State} (h : t.contexts = s.contexts) (c : Nat) : t.context c = s.context c := by
  simp only [State.context, h]

@[simp] theorem seal_ring (s t : State) (c r : Nat) : (t.seal s).ring c r = t.ring c r := rfl
@[simp] theorem seal_context (s t : State) (c : Nat) : (t.seal s).context c = t.context c := rfl

/-- The address of the slot that a completion ring fills next. -/
def Ring.recordAddr (x : Ring) : Nat := x.base + 32 * (x.count % 2 ^ x.log2n)

/-- A record in a ring's next slot, in host memory, as `putRecord_open` shows. -/
def State.recordPut (s : State) (c : Nat) (rec_ : List Byte) : State :=
  let x := s.ring c 8
  let bytes := withPhase rec_ (x.count / 2 ^ x.log2n % 2 == 0)
  (({ s with host := s.host.store x.recordAddr bytes false } : State).emit (.ioWrite x.recordAddr bytes.length)).setRing c 8
    { x with count := (x.count + 1) % 2 ^ 32, prod := s.cplConsumed c }

theorem putRecord_open (hloc : (s.ring c 8).locDpa = false) (hvec : (s.ring c 8).vecEn = false) (ho : s.port.ioOpen = true)
    (e : List Byte × Bool) : s.putRecord c e = (s.recordPut c e.1, true) := by
  have hw (bs : List Byte) : s.ringWrite c (s.ring c 8) (32 * ((s.ring c 8).count % 2 ^ (s.ring c 8).log2n)) bs =
      (({ s with host := s.host.store (s.ring c 8).recordAddr bs false } : State).emit
        (.ioWrite (s.ring c 8).recordAddr bs.length), true) := by
    rw [State.ringWrite, if_neg (by simp [hloc]), State.flagAtHome, if_pos rfl, State.flagStore, if_pos rfl, State.hostWrite,
      if_pos ho]
    rfl
  simp only [State.putRecord, CPL_RING, hw, Bool.not_true, Bool.false_eq_true, if_false]
  rw [if_neg (by simp [hvec])] <;> rfl

theorem tryRecord_open (h : s.CplOpen c) (e : List Byte × Bool) : s.tryRecord c e = (s.recordPut c e.1, true) := by
  obtain ⟨hwait, hroom, hloc, hvec, ho⟩ := h
  rw [State.tryRecord, if_pos (by simp [CPL_RING, hwait, hroom]), putRecord_open hloc hvec ho]

theorem post_open (h : s.CplOpen c) (r seq flags : Nat) (f : Fin) :
    s.post c r seq flags f = s.recordPut c (s.recordBytes r seq f) := by
  simp only [State.post, tryRecord_open h, if_true]
  rfl

theorem recordPut_ring (s : State) (c : Nat) (b : List Byte) :
    (s.recordPut c b).ring c 8 = { s.ring c 8 with count := ((s.ring c 8).count + 1) % 2 ^ 32, prod := s.cplConsumed c } :=
  State.ring_setRing_self ..

theorem recordPut_ring_of_ne {q : Nat} (h : q ≠ 8) (s : State) (c : Nat) (b : List Byte) (d : Nat) :
    (s.recordPut c b).ring d q = s.ring d q := State.ring_setRing_of_ne h ..

@[simp] theorem recordPut_regs (s : State) (c : Nat) (b : List Byte) : (s.recordPut c b).regs = s.regs := rfl
@[simp] theorem recordPut_fuses (s : State) (c : Nat) (b : List Byte) : (s.recordPut c b).fuses = s.fuses := rfl

theorem recordPut_bit (s : State) (c : Nat) (b : List Byte) (o i : Nat) : (s.recordPut c b).bit o i = s.bit o i := rfl

/-- Whether a completion ring takes a record depends on the ring, its consumer word and the host port alone. -/
theorem cplOpen_of {s t : State} (hring : t.ring c 8 = s.ring c 8) (hport : t.port.ioOpen = s.port.ioOpen)
    (hword : t.latest true (s.ring c 8).db 8 = s.latest true (s.ring c 8).db 8) (h : s.CplOpen c) : t.CplOpen c := by
  have hroom : t.cplRoom c = s.cplRoom c := by
    unfold State.cplRoom State.cplConsumed CPL_RING
    rw [hring, hword]
  obtain ⟨hwait, hr, hloc, hvec, ho⟩ := h
  exact ⟨hring ▸ hwait, hroom.trans hr, hring ▸ hloc, hring ▸ hvec, hport.trans ho⟩

end Sys2Proof.Machine
end

section
/-! The service of rings (R484, R485, R489 to R494, R511, R512, R514): doorbells, descriptors, consumer words, and the moves
of contexts and rings. -/

open Sys2Proof Sys2Proof.Machine

namespace Sys2Proof.Machine
variable {s : State} {c r : Nat}

/-! ### Serving a ring -/

theorem serve_none (h : (s.ring c r).ahead = 0) : s.serve c r = s := by rw [State.serve, h, State.serveLoop]

theorem serve_one {d : List Byte} (h : (s.ring c r).ahead = 1) (hready : s.ringReady c r = true)
    (hread : s.readSlot c r = (s, some d)) (hwhole : descWhole (s.ring c r) d = true) : s.serve c r = s.execute c r d := by
  rw [State.serve, h, State.serveLoop, if_neg (by simp [hready]), hread]
  simp only [hwhole, if_true]
  rfl

theorem Ring.polled_eq {x : Ring} (hm : x.mode = .polled) (hw : x.watch = false) (ht : x.tries = 0) (q : Nat) :
    ({ x with prod := q, mode := .polled, tries := 0, watch := false } : Ring) = { x with prod := q } := by
  cases x
  simp_all

/-- What follows the reading of a polled ring's doorbell. -/
theorem wake_polled (hs : s.ctxServed c = true) (hr : r < 8) (he : (s.ring c r).enable = true)
    (hm : (s.ring c r).mode = .polled) (hw : (s.ring c r).watch = false) (ht : (s.ring c r).tries = 0)
    (hp : anyPoison (s.latest true (s.ring c r).db 8) = false) (polled : Bool) :
    let x := s.ring c r
    let w := leNat (bytesOf (s.latest true x.db 8))
    let t := s.setRing c r { x with prod := w % 2 ^ 32 }
    s.wake c r polled = if 2 ^ x.log2n < (w % 2 ^ 32 + 2 ^ 32 - x.count) % 2 ^ 32 then
      ((t.setRing c r { t.ring c r with mode := .stopped }).setBit RNG_ERR 1 true).post c r x.count 0
        { status := ST_DOORBELL_RANGE, result := w }
      else t.serve c r := by
  have hgo : ¬(!(s.ctxServed c && decide (r < 8) && (s.ring c r).enable) || (s.ring c r).mode == .stopped ||
      (s.ring c r).mode == .off) = true := by simp [hs, hr, he, hm]
  intro x w t
  unfold State.wake
  dsimp only
  rw [if_neg hgo, if_neg (by simp [hp])]
  have hpark : ¬(s.ring c r).mode = .parked := by simp [hm]
  simp only [hw, Bool.false_and, Bool.false_eq_true, if_false, hpark, false_and, ht, true_or, if_true]
  rw [Ring.polled_eq hm hw ht]

theorem doorbellPoll_polled (h : (s.ring c r).mode = .polled) : exec (.doorbellPoll c r) s = doneLive s (s.wake c r true) :=
  congrArg (doneLive s) (if_pos (.inl h))

/-- What stands after the record of a ring that has stopped. -/
theorem post_stopped {b : State} (hf : b.fuses = s.fuses) (hr : r ≠ 8) (hm : (b.ring c r).mode = .stopped) (ho : b.CplOpen c)
    (q : Nat) (f : Fin) :
    let u := ((b.setBit RNG_ERR 1 true).post c r q 0 f).seal s
    (u.ring c r).mode = .stopped ∧ u.bit RNG_ERR 1 = true ∧ (u.ring c 8).count = ((b.ring c 8).count + 1) % 2 ^ 32 := by
  have hopen : (b.setBit RNG_ERR 1 true).CplOpen c := cplOpen_of rfl rfl rfl ho
  dsimp only
  rw [post_open hopen]
  refine ⟨?_, ?_, ?_⟩
  · rw [seal_ring, recordPut_ring_of_ne hr]
    exact hm
  · have hfuses : (b.setBit RNG_ERR 1 true).fuses = s.fuses := hf
    rw [seal_bit ((recordPut_fuses ..).trans hfuses), recordPut_bit, bit_setBit_self b _ _ (by decide)]
  · rw [seal_ring, recordPut_ring]
    rfl

/-- A doorbell out of range stops the ring, with a record. -/
theorem range_stops (hr : r < 8) (ho : s.CplOpen c) (x y : Ring) (q : Nat) (f : Fin) :
    let u := ((((s.setRing c r x).setRing c r { y with mode := .stopped }).setBit RNG_ERR 1 true).post c r q 0 f).seal s
    (u.ring c r).mode = .stopped ∧ u.bit RNG_ERR 1 = true ∧ (u.ring c 8).count = ((s.ring c 8).count + 1) % 2 ^ 32 := by
  have hne : r ≠ 8 := by omega
  have hring : ((s.setRing c r x).setRing c r { y with mode := .stopped }).ring c 8 = s.ring c 8 :=
    (State.ring_setRing_of_ne hne.symm ..).trans (State.ring_setRing_of_ne hne.symm ..)
  have hm : (((s.setRing c r x).setRing c r { y with mode := .stopped }).ring c r).mode = .stopped :=
    congrArg Ring.mode (State.ring_setRing_self ..)
  have h := post_stopped (s := s) (by rfl) hne hm (cplOpen_of hring rfl rfl ho) q f
  rwa [hring] at h

/-! ### Records that wait -/

theorem pollConsumer_noRecord (h : (s.ring c 8).waiting = []) :
    s.pollConsumer c = (s.setRing c 8 { s.ring c 8 with prod := s.cplConsumed c }).serveIdle := by
  simp only [State.pollConsumer, CPL_RING, h, List.length_nil, State.flushRecords]

/-- A record that waits is written where there is room. -/
theorem flushRecords_one {e : List Byte × Bool} (hw : (s.ring c 8).waiting = [e]) (hroom : s.cplRoom c = true)
    (hloc : (s.ring c 8).locDpa = false) (hvec : (s.ring c 8).vecEn = false) (ho : s.port.ioOpen = true) :
    s.flushRecords c 1 = (s.setRing c 8 { s.ring c 8 with waiting := [] }).recordPut c e.1 := by
  have hring := State.ring_setRing_self s c 8 { s.ring c 8 with waiting := [] }
  have hput := putRecord_open (s := s.setRing c 8 { s.ring c 8 with waiting := [] }) (c := c)
    (by rw [hring]; exact hloc) (by rw [hring]; exact hvec) ho e
  simp only [State.flushRecords, CPL_RING, hw, hroom, Bool.not_true, Bool.false_eq_true, if_false, hput]

theorem pollConsumer_record {e : List Byte × Bool} (hl : s.Live) (hw : (s.ring c 8).waiting = [e])
    (hroom : s.cplRoom c = true) (hloc : (s.ring c 8).locDpa = false) (hvec : (s.ring c 8).vecEn = false)
    (ho : s.port.ioOpen = true) :
    ∀ t, t = s.setRing c 8 { s.ring c 8 with prod := s.cplConsumed c } → (t.flushRecords c 1).serveIdle = t.flushRecords c 1 →
      Completes (.consumerWordPoll c) s fun u =>
        (u.ring c 8).waiting = [] ∧ (u.ring c 8).count = ((s.ring c 8).count + 1) % 2 ^ 32 := by
  intro t ht hidle
  have hring : t.ring c 8 = { s.ring c 8 with prod := s.cplConsumed c } := ht ▸ State.ring_setRing_self ..
  have hwait : (t.ring c 8).waiting = [e] := by rw [hring]; exact hw
  have hword : t.cplConsumed c = s.cplConsumed c := by
    unfold State.cplConsumed CPL_RING
    rw [hring, ht] <;> rfl
  have hrm : t.cplRoom c = true := by
    rw [← hroom]
    unfold State.cplRoom CPL_RING
    rw [hring, hword]
  have hflush := flushRecords_one hwait hrm (by rw [hring]; exact hloc) (by rw [hring]; exact hvec) (by rw [ht]; exact ho)
  have hpoll : s.pollConsumer c = t.flushRecords c 1 := by
    rw [← hidle]
    simp only [State.pollConsumer, CPL_RING, hw, List.length_singleton, ht]
  refine completes_live hl rfl ?_
  rw [hpoll, hflush, seal_ring, recordPut_ring, State.ring_setRing_self, hring]
  exact ⟨rfl, rfl⟩

/-! ### Moves of contexts -/

theorem ctxCmd_reserved (h : 8 < s.selRing) (cmd : Nat) : s.ctxCmd cmd = s := if_pos (.inl h)

/-- A move that is not ignored. -/
theorem ctxCmd_eq (hr : s.selRing ≤ 8) (hg : s.ctxGo s.selCtx = false) (cmd : Nat) :
    s.ctxCmd cmd =
      let t := s.setFld RNG_CTX_CTL 26 24 cmd
      let n := s.selCtx
      let x := s.context n
      if cmd = CTX_ENABLE ∧ x.st = .empty ∧ (s.ring n CPL_RING).enable then t.setContext n { x with st := .ready }
      else if cmd = CTX_SUSPEND ∧ n ≠ 0 ∧ (x.st = .ready ∨ x.st = .running) then t.ctxSuspend n
      else if cmd = CTX_RESUME ∧ n ≠ 0 ∧ x.st = .suspended then t.ctxResume n
      else t.ctxIllegal :=
  if_neg (by simp [hg]; omega)

/-- A move that is not legal leaves the contexts alone. -/
theorem ctxIllegal_completes {i : Instr} {cmd : Nat} (hl : s.Live)
    (hi : exec i s = doneLive s (s.ctxCmd cmd)) (h : s.ctxCmd cmd = (s.setFld RNG_CTX_CTL 26 24 cmd).ctxIllegal) :
    Completes i s fun u => u.contexts = s.contexts ∧ u.bit RNG_ERR 3 = true := by
  refine completes_live hl hi ?_
  rw [h]
  exact ⟨rfl, (seal_bit (by rfl) ..).trans (bit_setBit_self _ _ _ (by decide))⟩

/-- The order that a suspension enters for a flight. -/
def State.suspendFlight (s : State) (k : Nat) : State :=
  (s.modFlight k fun f => { f with suspendMoored := true }).orderTag (s.flight k).tag fun t => { t with moor := true }

theorem suspendFlight_flight (s : State) (k j : Nat) : (s.suspendFlight k).flight j =
    if k = j then { s.flight k with suspendMoored := true } else s.flight j := by
  rw [State.suspendFlight, flight_orderTag, State.modFlight, State.flight_setFlight]

theorem suspendFlight_gate (s : State) (k : Nat) : (s.suspendFlight k).gate.cut = s.gate.cut ∧
    (s.suspendFlight k).gate.open = gateModTag s.gate.open (s.flight k).tag fun t => { t with moor := true } :=
  order_gate _ _

/-- The flights of a list are marked and their moor orders entered. -/
theorem foldl_suspendFlight (l : List Nat) (s : State) : ∀ u, u = l.foldl State.suspendFlight s →
    u.contexts = s.contexts ∧ u.gate.cut = s.gate.cut ∧ (∀ k, (u.flight k).tag = (s.flight k).tag) ∧
      (∀ k, (s.flight k).suspendMoored = true → (u.flight k).suspendMoored = true) ∧
      (∀ j, (gateTag s.gate.open j).moor = true → (gateTag u.gate.open j).moor = true) ∧
      ∀ k ∈ l, (u.flight k).suspendMoored = true ∧ (gateTag u.gate.open (s.flight k).tag).moor = true := by
  induction l generalizing s with
  | nil =>
    rintro u rfl
    exact ⟨rfl, rfl, fun _ => rfl, fun _ h => h, fun _ h => h, by simp⟩
  | cons k l ih =>
    intro u hu
    obtain ⟨hcut₁, hopen⟩ := suspendFlight_gate s k
    have htag₁ (j : Nat) : ((s.suspendFlight k).flight j).tag = (s.flight j).tag := by
      rw [suspendFlight_flight]
      split
      · next h => rw [← h]
      · rfl
    have hmark₁ (j : Nat) (h : (s.flight j).suspendMoored = true) : ((s.suspendFlight k).flight j).suspendMoored = true := by
      rw [suspendFlight_flight]
      split
      · rfl
      · exact h
    have hmoor (j : Nat) : gateTag (s.suspendFlight k).gate.open j =
        if (s.flight k).tag = j then { gateTag s.gate.open (s.flight k).tag with moor := true } else gateTag s.gate.open j := by
      rw [hopen, gateTag_gateModTag]
    obtain ⟨hctx, hcut, htag, hmark, hkeep, hall⟩ := ih (s.suspendFlight k) u hu
    refine ⟨hctx.trans (order_kept _ _).contexts, hcut.trans hcut₁, fun j => (htag j).trans (htag₁ j),
      fun j h => hmark j (hmark₁ j h), fun j h => hkeep j ?_, fun j hj => ?_⟩
    · rw [hmoor]
      split
      · rfl
      · exact h
    · rcases List.mem_cons.1 hj with rfl | hj
      · exact ⟨hmark j (by rw [suspendFlight_flight, if_pos rfl]), hkeep _ (by rw [hmoor, if_pos rfl])⟩
      · obtain ⟨hm, ho⟩ := hall j hj
        exact ⟨hm, htag₁ j ▸ ho⟩

theorem ctxSuspend_effect (s : State) (n : Nat) : ∀ u, u = s.ctxSuspend n →
    (u.context n).st = .suspended ∧ ∀ k f, sfind? s.flights k = some f → f.ctx = n → f.st = .running →
      (u.flight k).suspendMoored = true ∧ (gateTag (if s.gate.cut then u.gate.next else u.gate.own) f.tag).moor = true := by
  rintro u rfl
  generalize hks : (s.flights.filter fun e => e.2.ctx == n && decide (e.2.st = .running)).map Prod.fst = ks
  have hu : s.ctxSuspend n = ks.foldl State.suspendFlight (s.setContext n { s.context n with st := .suspended }) := by
    rw [← hks] <;> rfl
  obtain ⟨hctx, hcut, -, -, -, hall⟩ := foldl_suspendFlight ks _ _ hu
  generalize s.ctxSuspend n = u at *
  refine ⟨?_, fun k f hf hc hst => ?_⟩
  · rw [context_of_contexts hctx, State.context_setContext_self]
  · have hk : k ∈ ks := by
      rw [← hks]
      exact List.mem_map.2 ⟨(k, f), List.mem_filter.2 ⟨mem_of_sfind hf, by simp [hc, hst]⟩, rfl⟩
    have hfl : s.flight k = f := sget_of_sfind hf _
    obtain ⟨hm, ho⟩ := hall k hk
    have hcut' : u.gate.cut = s.gate.cut := hcut
    refine ⟨hm, ?_⟩
    rw [← hcut', ← hfl]
    exact ho

theorem ctxResume_idle (hf : s.flights = []) (n : Nat) :
    s.ctxResume n = (s.setContext n { s.context n with st := .ready }).serveIdle := by
  simp only [State.ctxResume, State.ctxBusy, hf, List.any_nil, List.filter_nil, List.map_nil, List.foldl_nil,
    Bool.false_eq_true, if_false]

/-! ### Rings enabled and disabled -/

theorem tryWatch_off (h : s.port.cacheEn = false) (c r : Nat) : s.tryWatch c r = s := if_pos (by simp [h])

theorem assignWatches_off (h : s.port.cacheEn = false) : s.assignWatches = s := by
  have inner (l : List (Nat × Ring)) (k : Nat) : l.foldl (fun s r =>
      if r.1 < 8 ∧ (s.ring k r.1).mode = .polled then s.tryWatch k r.1 else s) s = s :=
    foldl_fixed (fun s r => _) l s fun r _ => by simp only [tryWatch_off h, ite_self]
  unfold State.assignWatches
  rw [foldl_fixed (fun s e => _) s.contexts s fun e _ => inner e.2.rings e.1, ite_self]

/-- The search for watches leaves a ring that is not polled as it is. -/
theorem tryWatch_ring {d q : Nat} {x : Ring} (hx : x.mode ≠ .polled) (hm : (s.ring c r).mode = .polled) (h : s.ring d q = x) :
    (s.tryWatch c r).ring d q = x := by
  have watched {t : State} {b : Bool} (ht : s.watchLine true (lineOf (s.ring c r).db) = (t, b)) : t.ring d q = x := by
    have hc : t.contexts = s.contexts := by
      have := (contexts_memStable s.contexts).watchLine rfl true (lineOf (s.ring c r).db)
      rwa [ht] at this
    exact (ring_of_contexts hc d q).trans h
  unfold State.tryWatch
  dsimp only
  split
  · exact h
  · split
    · next t ht =>
      rw [State.ring_setRing, if_neg]
      · exact watched ht
      · rintro ⟨rfl, rfl⟩
        exact hx (h ▸ hm)
    · next t ht => exact watched ht

theorem assignWatches_ring {d q : Nat} {x : Ring} (hx : x.mode ≠ .polled) (h : s.ring d q = x) :
    s.assignWatches.ring d q = x := by
  unfold State.assignWatches
  refine of_ite (P := fun s => s.ring d q = x) h (of_foldl (fun s => s.ring d q = x) (fun t e ht => ?_) _ h)
  refine of_foldl (fun s => s.ring d q = x) (fun u a hu => ?_) _ ht
  split
  · next hm => exact tryWatch_ring hx hm.2 hu
  · exact hu

theorem ringEnable_sub (hr : s.selRing < 8) (he : (s.ring s.selCtx s.selRing).enable = false)
    (h4 : 4 ≤ (s.ring s.selCtx s.selRing).log2n) (h16 : (s.ring s.selCtx s.selRing).log2n ≤ 16)
    (hc : s.port.cacheEn = false) : s.ringEnable =
      (s.setRing s.selCtx s.selRing { s.ring s.selCtx s.selRing with
        enable := true, mode := .polled, count := 0, prod := 0, tries := 0, poison := 0 }).setBit RNG_ERR 4 true := by
  unfold State.ringEnable
  dsimp only
  rw [if_neg (by simp [he]; omega), if_neg (by simp only [CPL_RING]; omega), assignWatches_off (by exact hc),
    if_pos (by rw [State.ring_setRing_self])]

theorem ringEnable_cpl (hr : s.selRing = 8) (he : (s.ring s.selCtx s.selRing).enable = false)
    (h4 : 4 ≤ (s.ring s.selCtx s.selRing).log2n) (h16 : (s.ring s.selCtx s.selRing).log2n ≤ 16) : s.ringEnable =
      s.setRing s.selCtx s.selRing { s.ring s.selCtx s.selRing with enable := true, mode := .active, count := 0, prod := 0 } := by
  unfold State.ringEnable
  dsimp only
  rw [if_neg (by simp [he]; omega), if_pos (show s.selRing = CPL_RING from hr)]

theorem ringDisable_effect (hl : s.Live) (hr : s.selRing ≤ 8) (he : (s.ring s.selCtx s.selRing).enable = true) :
    Completes .ringDisable s fun u => let x := u.ring s.selCtx s.selRing
      x.enable = false ∧ x.mode = .off ∧ x.watch = false ∧ x.count = (s.ring s.selCtx s.selRing).count := by
  generalize hx : ({ s.ring s.selCtx s.selRing with enable := false, mode := .off, watch := false } : Ring) = x
  generalize ht : s.setRing s.selCtx s.selRing x = t
  have hring : t.ring s.selCtx s.selRing = x := ht ▸ State.ring_setRing_self ..
  have hdrop : (if (s.ring s.selCtx s.selRing).watch then t.dropWatch true (lineOf (s.ring s.selCtx s.selRing).db)
      else t).ring s.selCtx s.selRing = x :=
    (ring_of_contexts (of_ite (P := fun u => u.contexts = t.contexts)
      ((contexts_memStable t.contexts).dropWatch rfl _ _) rfl) ..).trans hring
  have hfin := assignWatches_ring (by rw [← hx]; exact (by decide : RingMode.off ≠ .polled)) hdrop
  have hdis : s.ringDisable = (if (s.ring s.selCtx s.selRing).watch then
      t.dropWatch true (lineOf (s.ring s.selCtx s.selRing).db) else t).assignWatches := by
    unfold State.ringDisable
    dsimp only
    rw [if_neg (by simp [he]; omega), hx, ht]
  refine completes_live hl rfl ?_
  rw [hdis]
  dsimp only
  rw [seal_ring, hfin, ← hx]
  exact ⟨rfl, rfl, rfl, rfl⟩

/-! ### The clauses -/

theorem doorbells (hl : s.Live) (hs : s.ctxServed c = true) (hr : r < 8) (he : (s.ring c r).enable = true)
    (hm : (s.ring c r).mode = .polled) (hw : (s.ring c r).watch = false) (ht : (s.ring c r).tries = 0)
    (hp : anyPoison (s.latest true (s.ring c r).db 8) = false) {p : Nat}
    (hword : leNat (bytesOf (s.latest true (s.ring c r).db 8)) % 2 ^ 32 = p) :
    ∀ t, t = s.setRing c r { s.ring c r with prod := p } →
      (p = (s.ring c r).count → exec (.doorbellWake c r) s = .next (t.seal s) ∧ exec (.doorbellPoll c r) s = .next (t.seal s)) ∧
      (∀ d, p = ((s.ring c r).count + 1) % 2 ^ 32 → (s.ring c r).count < 2 ^ 32 → t.ringReady c r = true →
        t.readSlot c r = (t, some d) → descWhole (s.ring c r) d = true →
        exec (.doorbellWake c r) s = .next ((t.execute c r d).seal s) ∧
          exec (.doorbellPoll c r) s = .next ((t.execute c r d).seal s)) ∧
      (2 ^ (s.ring c r).log2n < (p + 2 ^ 32 - (s.ring c r).count) % 2 ^ 32 → s.CplOpen c →
        Completes (.doorbellWake c r) s fun u => (u.ring c r).mode = .stopped ∧ u.bit RNG_ERR 1 = true ∧
          (u.ring c 8).count = ((s.ring c 8).count + 1) % 2 ^ 32) := by
  intro t hdef
  have hring : t.ring c r = { s.ring c r with prod := p } := hdef ▸ State.ring_setRing_self ..
  have hwake (b : Bool) := wake_polled hs hr he hm hw ht hp b
  simp only [hword, ← hdef] at hwake
  have runs {u : State} (h : ∀ b, s.wake c r b = u) :
      exec (.doorbellWake c r) s = .next (u.seal s) ∧ exec (.doorbellPoll c r) s = .next (u.seal s) :=
    ⟨(congrArg (doneLive s) (h false)).trans (doneLive_of_live hl u),
      (doorbellPoll_polled hm).trans ((congrArg (doneLive s) (h true)).trans (doneLive_of_live hl u))⟩
  have hahead : (t.ring c r).ahead = if (p + 2 ^ 32 - (s.ring c r).count) % 2 ^ 32 ≤ 2 ^ (s.ring c r).log2n then
      (p + 2 ^ 32 - (s.ring c r).count) % 2 ^ 32 else 0 := by
    rw [hring] <;> rfl
  have hpos : 1 ≤ 2 ^ (s.ring c r).log2n := Nat.one_le_two_pow
  refine ⟨fun hc => runs fun b => ?_, fun d hc hlt hready hread hwhole => runs fun b => ?_, fun hfar ho => ?_⟩
  · have hd : (p + 2 ^ 32 - (s.ring c r).count) % 2 ^ 32 = 0 := by omega
    rw [hwake, hd, if_neg (by omega), serve_none (by rw [hahead, hd, ite_self])]
  · have hd : (p + 2 ^ 32 - (s.ring c r).count) % 2 ^ 32 = 1 := by omega
    rw [hwake, hd, if_neg (by omega), serve_one (by rw [hahead, hd, if_pos hpos]) hready hread]
    rw [hring]
    exact hwhole
  · refine completes_live hl rfl ?_
    rw [hwake, if_pos hfar, hdef]
    exact range_stops hr ho _ _ _ _

/-- A written descriptor line has its ring execute the descriptor. -/
theorem lineWritten_one (ht : (s.ring c r).tries ≠ 0) (hm : (s.ring c r).mode = .watched) (ha : (s.ring c r).ahead = 1)
    {t : State} (hdef : t = s.unwatchLine (!(s.ring c r).locDpa) (lineOf (s.ring c r).slotAddr)) (hready : t.ringReady c r = true)
    {d : List Byte} (hread : t.readSlot c r = (t, some d)) (hwhole : descWhole (s.ring c r) d = true) :
    s.lineWritten c r = t.execute c r d := by
  have hring : t.ring c r = s.ring c r :=
    ring_of_contexts (hdef ▸ (contexts_memStable s.contexts).unwatchLine rfl _ _) c r
  have hgo : ¬((s.ring c r).tries = 0 ∨ (s.ring c r).mode ≠ .watched) := by simp [ht, hm]
  rw [State.lineWritten, if_neg hgo, ← hdef]
  exact serve_one (by rw [hring, ha]) hready hread (by rw [hring]; exact hwhole)

theorem contextMoves (hl : s.Live) (hr : s.selRing ≤ 8) (hg : s.ctxGo s.selCtx = false) (v : Reg) : let n := s.selCtx
    ((s.context n).st = .empty → (s.ring n 8).enable = true → Completes (.contextEnable v) s fun u =>
      u.context n = { s.context n with st := .ready } ∧ (∀ j, j ≠ n → u.context j = s.context j) ∧
      u.fld RNG_CTX_CTL 26 24 = 1) ∧
    ((s.context n).st ≠ .empty → Completes (.contextEnable v) s fun u =>
      u.contexts = s.contexts ∧ u.bit RNG_ERR 3 = true) ∧
    (0 < n → (s.context n).st = .ready ∨ (s.context n).st = .running → Completes (.contextSuspend v) s fun u =>
      (u.context n).st = .suspended ∧ ∀ k f, sfind? s.flights k = some f → f.ctx = n → f.st = .running →
        (u.flight k).suspendMoored = true ∧
        (gateTag (if s.gate.cut then u.gate.next else u.gate.own) f.tag).moor = true) ∧
    (n = 0 ∨ (s.context n).st = .empty → Completes (.contextSuspend v) s fun u =>
      u.contexts = s.contexts ∧ u.bit RNG_ERR 3 = true) ∧
    (0 < n → (s.context n).st = .suspended → s.flights = [] → ∀ t,
      t = (s.setFld RNG_CTX_CTL 26 24 3).setContext n { s.context n with st := .ready } →
      t.serveIdle = t → exec (.contextResume v) s = .next (t.seal s)) ∧
    (n = 0 ∨ (s.context n).st ≠ .suspended → Completes (.contextResume v) s fun u =>
      u.contexts = s.contexts ∧ u.bit RNG_ERR 3 = true) := by
  intro n
  have hcmd := ctxCmd_eq hr hg
  dsimp only at hcmd
  refine ⟨fun hst he => ?_, fun hst => ?_, fun hn hst => ?_, fun hst => ?_, fun hn hst hf t ht hidle => ?_, fun hst => ?_⟩
  · refine completes_live hl rfl ?_
    rw [hcmd, if_pos ⟨rfl, hst, he⟩]
    refine ⟨?_, fun j hj => ?_, ?_⟩
    · rw [seal_context, State.context_setContext_self]
    · rw [seal_context]
      exact State.context_setContext_of_ne hj (s.setFld RNG_CTX_CTL 26 24 CTX_ENABLE) _
    · exact (seal_fld (by rfl) ..).trans (fld_setFld_self s RNG_CTX_CTL 1 (by decide))
  · refine ctxIllegal_completes hl rfl ?_
    rw [hcmd, if_neg fun h => hst h.2.1, if_neg (by simp [CTX_ENABLE, CTX_SUSPEND]), if_neg (by simp [CTX_ENABLE, CTX_RESUME])]
  · refine completes_live hl rfl ?_
    rw [hcmd, if_neg (by simp [CTX_ENABLE, CTX_SUSPEND]), if_pos ⟨rfl, by omega, hst⟩]
    exact (ctxSuspend_effect (s.setFld RNG_CTX_CTL 26 24 CTX_SUSPEND) n _ rfl :)
  · refine ctxIllegal_completes hl rfl ?_
    have hno : ¬(CTX_SUSPEND = CTX_SUSPEND ∧ s.selCtx ≠ 0 ∧ ((s.context n).st = .ready ∨ (s.context n).st = .running)) := by
      rintro ⟨-, hn, h⟩
      rcases hst with h0 | h0
      · exact hn h0
      · rw [h0] at h
        exact absurd h (by decide)
    rw [hcmd, if_neg (by simp [CTX_ENABLE, CTX_SUSPEND]), if_neg hno, if_neg (by simp [CTX_SUSPEND, CTX_RESUME])]
  · have hres := ctxResume_idle (s := s.setFld RNG_CTX_CTL 26 24 CTX_RESUME) hf n
    have hrun : s.ctxCmd CTX_RESUME = t := by
      rw [hcmd, if_neg (by simp [CTX_ENABLE, CTX_RESUME]), if_neg (by simp [CTX_SUSPEND, CTX_RESUME]),
        if_pos ⟨rfl, by omega, hst⟩, hres]
      exact (congrArg State.serveIdle ht.symm).trans hidle
    exact (congrArg (doneLive s) hrun).trans (doneLive_of_live hl t)
  · refine ctxIllegal_completes hl rfl ?_
    rw [hcmd, if_neg (by simp [CTX_ENABLE, CTX_RESUME]), if_neg (by simp [CTX_SUSPEND, CTX_RESUME]),
      if_neg fun h => hst.elim h.2.1 fun hne => hne h.2.2]

theorem ringSwitches (hl : s.Live) : let n := s.selCtx
    let q := s.selRing
    let y := s.ring n q
    (q < 8 → y.enable = false → 4 ≤ y.log2n → y.log2n ≤ 16 → s.port.cacheEn = false → exec .ringEnable s =
      .next (((s.setRing n q { y with enable := true, mode := .polled, count := 0, prod := 0, tries := 0,
                                      poison := 0 }).setBit RNG_ERR 4 true).seal s)) ∧
    (q = 8 → y.enable = false → 4 ≤ y.log2n → y.log2n ≤ 16 → exec .ringEnable s =
      .next ((s.setRing n q { y with enable := true, mode := .active, count := 0, prod := 0 }).seal s)) ∧
    (y.enable = true ∨ y.log2n < 4 ∨ 16 < y.log2n → exec .ringEnable s = .next (s.seal s)) ∧
    (q ≤ 8 → y.enable = true → Completes .ringDisable s fun u =>
      (u.ring n q).enable = false ∧ (u.ring n q).mode = .off ∧ (u.ring n q).watch = false ∧
      (u.ring n q).count = y.count) := by
  refine ⟨fun hq he h4 h16 hc => ?_, fun hq he h4 h16 => ?_, fun h => ?_, fun hq he => ringDisable_effect hl hq he⟩
  · exact (congrArg (doneLive s) (ringEnable_sub hq he h4 h16 hc)).trans (doneLive_of_live hl _)
  · exact (congrArg (doneLive s) (ringEnable_cpl hq he h4 h16)).trans (doneLive_of_live hl _)
  · have hno : s.ringEnable = s := by
      unfold State.ringEnable
      dsimp only
      rw [if_pos (.inr h)]
    exact (congrArg (doneLive s) hno).trans (doneLive_of_live hl s)

end Sys2Proof.Machine

/-- Settles O47, a clause at a time: what the doorbell, the descriptor, the consumer word or the selected context calls
for is the one path that the hypotheses leave open. -/
theorem ringService : Obligations.RingService := by
  intro s c r hl x
  have quiet {i : Instr} {t : State} (hi : exec i s = doneLive s t) (ht : t = s) : exec i s = .next (s.seal s) := by
    rw [hi, ht, doneLive_of_live hl]
  refine ⟨fun p hs hr he hm hw ht hp hword => doorbells hl hs hr he hm hw ht hp hword _ rfl, fun hm => ?_, fun hm => ?_,
    fun hm => quiet rfl (if_pos hm), fun d ht hm ha hready hread hwhole => ?_, fun hw hidle => ?_,
    fun e hw hroom hloc hvec ho hidle => pollConsumer_record hl hw hroom hloc hvec ho _ rfl hidle, fun h => ⟨fun v => ⟨?_, ?_, ?_⟩,
    ?_, ?_⟩, fun hr hg v => ?_, ringSwitches hl, doneLive_of_live hl _⟩
  · refine quiet rfl (if_neg ?_)
    rcases hm with h | h | h <;> simp [show (s.ring c r).mode = _ from h]
  · refine quiet rfl ?_
    unfold State.wake
    dsimp only
    rw [if_pos (by rcases hm with h | h <;> simp [show (s.ring c r).mode = _ from h])]
  · exact (congrArg (doneLive s) (lineWritten_one ht hm ha rfl hready hread hwhole)).trans (doneLive_of_live hl _)
  · exact (congrArg (doneLive s) ((pollConsumer_noRecord hw).trans hidle)).trans (doneLive_of_live hl _)
  · exact quiet rfl (ctxCmd_reserved h _)
  · exact quiet rfl (ctxCmd_reserved h _)
  · exact quiet rfl (ctxCmd_reserved h _)
  · refine quiet rfl ?_
    unfold State.ringEnable
    exact if_pos (.inl h)
  · refine quiet rfl ?_
    unfold State.ringDisable
    exact if_pos (.inl h)
  · obtain ⟨h₁, h₂, h₃, h₄, h₅, h₆⟩ := contextMoves hl hr hg v
    exact ⟨h₁, h₂, h₃, h₄, fun hn hst hf => h₅ hn hst hf _ rfl, h₆⟩

end

section
/-! SUPPORT. A command of a ring (R490, R493, R495 to R500): its arrival, the checks that it passes, and its end, with the
record of R500. -/

open Sys2Proof Sys2Proof.Machine

namespace Sys2Proof.Machine
variable {s : State} {c r : Nat} {h : DescHdr} {k : Cmd}

/-! ### Arrival and checks -/

theorem arrive_takes (ht : s.Takes c r h) (act : State → Cmd → State) : s.arrive c r h act = act s { c := c, r := r, h := h } :=
  if_pos (by simp [ht.1, ht.2])

theorem arrive_idle (ht : ¬s.Takes c r h) (act : State → Cmd → State) : s.arrive c r h act = s :=
  if_neg (by simpa [State.Takes] using ht)

/-- What a ring that takes a command is. -/
theorem takes_ring (ht : s.Takes c r h) : r < 8 ∧ s.port.ioOpen = true := by
  have h := ht.1
  simp only [State.ringReady, State.ctxServed, Bool.and_eq_true, decide_eq_true_eq] at h
  obtain ⟨⟨⟨⟨⟨⟨⟨⟨⟨⟨-, -⟩, hio⟩, -⟩, -⟩, -⟩, -⟩, hr⟩, -⟩, -⟩, -⟩ := h.1
  exact ⟨hr, hio⟩

theorem wellFormed_ok {bad : List (Bool × Nat)} (hp : k.pre = []) (hf : k.h.flags / 4 = 0) (hb : ∀ b ∈ bad, b.1 = false)
    (act : State → State) : s.wellFormed k bad act = act s := by
  have hnone : bad.filter Prod.fst = [] := List.filter_eq_nil_iff.2 fun b hm => by simp [hb b hm]
  simp [State.wellFormed, hp, hf, hnone, lowest]

/-- A set bit of the flags that are reserved. -/
theorem wellFormed_flags (hp : k.pre = []) (hf : k.h.flags / 4 ≠ 0) (act : State → State) :
    s.wellFormed k [] act = s.fin k { status := ST_BAD_DESCRIPTOR, detail := 5 } := by
  simp [State.wellFormed, hp, hf, lowest]

theorem withObj_ok {handle need : Nat} {own : Bool} {t : State} {o : Obj} (h : s.object k.c handle need own = (t, .inl o))
    (act : State → Obj → State) : s.withObj k handle need own act = act t o := by rw [State.withObj, h]

theorem withExtent_ok {o : Obj} {off n need : Nat} {write : Bool} {t : State} {gs : List XSeg}
    (h : s.ringXlate k.c o off n need write = (t, .inl gs)) (act : State → List XSeg → State) :
    s.withExtent k o off n need write act = act t gs := by rw [State.withExtent, h]

/-! ### The end -/

theorem advance_passed (s : State) (c r : Nat) : s.Passed (s.advance c r) c r := by
  rw [State.Passed, State.advance, State.ring_setRing_self]
  exact ⟨rfl, rfl⟩

theorem endCmd_quiet {flags : Nat} {f : Fin} (h : wantsRecord flags f = false) (seq : Nat) :
    s.endCmd c r seq flags f = s.advance c r := if_neg (by simp [h])

theorem wantsRecord_quiet {f : Fin} (hs : f.status = 0) : wantsRecord 0 f = false := by
  rw [wantsRecord, hs] <;> rfl

theorem fin_quiet {f : Fin} (hf : k.h.flags = 0) (hs : f.status = 0) : s.fin k f = s.advance k.c k.r :=
  endCmd_quiet (by rw [hf, wantsRecord_quiet hs]) _

theorem advance_ring_of_ne {q : Nat} (hq : q ≠ r) (d : Nat) : (s.advance c r).ring d q = s.ring d q :=
  State.ring_setRing_of_ne hq ..

theorem advance_cplOpen (hr : r < 8) (ho : s.CplOpen c) : (s.advance c r).CplOpen c :=
  cplOpen_of (advance_ring_of_ne (by omega) c) rfl rfl ho

theorem toLe_phase (hr : r < 8) : toLe 2 (2 * r) = [BitVec.ofNat 8 (2 * r), 0] ∧
    toLe 2 (2 * r + 1) = [BitVec.ofNat 8 (2 * r) ||| 1, 0] := by
  interval_cases r <;> decide

/-- The bytes of a record with its phase (R500). -/
theorem withPhase_record (hr : r < 8) (seq : Nat) (f : Fin) (phase : Bool) : withPhase (s.recordBytes r seq f) phase =
    toLe 4 seq ++ toLe 2 f.status ++ toLe 2 (2 * r + if phase then 1 else 0) ++ toLe 8 s.ww.pound ++
      toLe 4 (s.ww.time - s.ww.lockTime) ++ toLe 4 f.detail ++ toLe 8 f.result := by
  obtain ⟨h0, h1⟩ := toLe_phase hr
  have hrec : s.recordBytes r seq f = (toLe 4 seq ++ toLe 2 f.status) ++ ([BitVec.ofNat 8 (2 * r), 0] ++ (toLe 8 s.ww.pound ++
      (toLe 4 (s.ww.time - s.ww.lockTime) ++ (toLe 4 f.detail ++ toLe 8 f.result)))) := by
    simp only [State.recordBytes, h0, List.append_assoc]
    rfl
  have hlen : (toLe 4 seq ++ toLe 2 f.status).length = 6 := by simp [toLe_length]
  rw [hrec, withPhase, List.drop_left' hlen, List.take_left' hlen]
  cases phase
  · simp [h0]
  · simp [h1]

theorem record_length (seq a b p t d w : Nat) :
    (toLe 4 seq ++ toLe 2 a ++ toLe 2 b ++ toLe 8 p ++ toLe 4 t ++ toLe 4 d ++ toLe 8 w).length = 32 := by
  simp [toLe_length]

/-- The record stands in the completion ring's next slot. -/
theorem recordPut_posts (hr : r < 8) (seq : Nat) (f : Fin) : let x := s.ring c 8
    let phase := if x.count / 2 ^ x.log2n % 2 = 0 then 1 else 0
    (s.recordPut c (s.recordBytes r seq f)).host.read (x.base + 32 * (x.count % 2 ^ x.log2n)) 32 =
      toLe 4 seq ++ toLe 2 f.status ++ toLe 2 (2 * r + phase) ++ toLe 8 s.ww.pound ++
        toLe 4 (s.ww.time - s.ww.lockTime) ++ toLe 4 f.detail ++ toLe 8 f.result := by
  intro x phase
  have hb : (x.count / 2 ^ x.log2n % 2 == 0) = decide (x.count / 2 ^ x.log2n % 2 = 0) := beq_eq_decide ..
  have hph : withPhase (s.recordBytes r seq f) (x.count / 2 ^ x.log2n % 2 == 0) = _ := withPhase_record hr seq f _
  have hhost : (s.recordPut c (s.recordBytes r seq f)).host =
      s.host.store x.recordAddr (withPhase (s.recordBytes r seq f) (x.count / 2 ^ x.log2n % 2 == 0)) false := rfl
  rw [hhost, hph]
  have hread := Ram.read_store s.host x.recordAddr (toLe 4 seq ++ toLe 2 f.status ++
    toLe 2 (2 * r + if (x.count / 2 ^ x.log2n % 2 == 0) = true then 1 else 0) ++ toLe 8 s.ww.pound ++
    toLe 4 (s.ww.time - s.ww.lockTime) ++ toLe 4 f.detail ++ toLe 8 f.result) false
  rw [record_length] at hread
  refine hread.trans ?_
  simp only [hb, decide_eq_true_eq]
  rfl

/-- A command's end with a record. -/
theorem endCmd_posts (hr : r < 8) (ho : s.CplOpen c) {flags : Nat} {f : Fin} (hw : wantsRecord flags f = true) (seq : Nat) :
    s.Posts (s.endCmd c r seq flags f) c r seq f := by
  have hend : s.endCmd c r seq flags f = (s.advance c r).recordPut c ((s.advance c r).recordBytes r seq f) := by
    rw [State.endCmd, if_pos hw, post_open (advance_cplOpen hr ho)]
  have h8 : (s.advance c r).ring c 8 = s.ring c 8 := advance_ring_of_ne (by omega) c
  have hread := recordPut_posts (s := s.advance c r) (c := c) hr seq f
  rw [h8] at hread
  rw [hend]
  refine ⟨hread, ?_, ?_⟩
  · rw [recordPut_ring, h8]
  · rw [State.Passed, recordPut_ring_of_ne (by omega)]
    exact advance_passed s c r

theorem fin_posts (hr : k.r < 8) (ho : s.CplOpen k.c) {f : Fin} (hw : wantsRecord k.h.flags f = true) :
    s.Posts (s.fin k f) k.c k.r k.h.seq f := endCmd_posts hr ho hw _

theorem wantsRecord_status {flags : Nat} {f : Fin} (h : f.status ≠ 0) : wantsRecord flags f = true := by
  simp [wantsRecord, h]

end Sys2Proof.Machine
end

section
/-! NOP, fences, COPY and FILL as descriptors of a ring (R489, R490, R493, R495 to R500, R505 to R507). -/

open Sys2Proof Sys2Proof.Machine

namespace Sys2Proof.Machine
variable {s : State} {c r : Nat} {h : DescHdr}

/-! ### Fences -/

theorem withFence_ok {k : Cmd} {o : Obj} {off need : Nat} {g : XSeg} {t : State} (hal : (o.va + off) % 8 = 0)
    (hin : off + 8 ≤ o.len) (hx : s.ringXlate k.c o off 8 need (need == NEED_W) = (t, .inl [g])) (act : State → XSeg → State) :
    s.withFence k o off need act = act t g := by
  rw [State.withFence, if_neg (by omega), withExtent_ok hx]

/-- A FENCE_SIGNAL that has passed its checks. -/
theorem doFenceSignal_eq {k : Cmd} (hp : k.pre = []) (hf : k.h.flags = 0) {fence off value : Nat} {o : Obj} {g : XSeg}
    (ho : s.object k.c fence (OBJ_W + OBJ_FENCE) true = (s, .inl o)) (hal : (o.va + off) % 8 = 0) (hin : off + 8 ≤ o.len)
    (hx : s.ringXlate k.c o off 8 NEED_W true = (s, .inl [g])) (hg : g.host = true) :
    s.doFenceSignal k fence off value =
      if 2 ^ 63 ≤ s.fenceWord g ∨ value % 2 ^ 63 ≤ s.fenceWord g % 2 ^ 63 then
        s.fin k { status := ST_FENCE_REGRESS, result := s.fenceWord g }
      else
        let u := s.hostWrite g.pa (toLe 8 (value % 2 ^ 63)) false
        if (u.ring k.c k.r).poison = 0 then u.fin k {}
        else (u.setRing k.c k.r { u.ring k.c k.r with poison := 0 }).fin k
          { status := ST_POISON, detail := (u.ring k.c k.r).poison } := by
  have hsee : s.seeFence g = s := by rw [State.seeFence, State.markRead, if_pos hg]
  have hwrite (v : Nat) : s.writeFence g v = s.hostWrite g.pa (toLe 8 v) false := by
    rw [State.writeFence, hg, State.flagAtHome, if_pos rfl, State.flagStore, if_pos rfl]
  rw [State.doFenceSignal, wellFormed_ok hp (by rw [hf]) (by simp), withObj_ok ho, withFence_ok hal hin hx]
  simp only [hsee, hwrite, fenceMask]

theorem fenceSignal_passes (hl : s.Live) (ht : s.Takes c r h) (hf : h.flags = 0) {fence off value : Nat} {o : Obj} {g : XSeg}
    (ho : s.object c fence 6 true = (s, .inl o)) (hal : (o.va + off) % 8 = 0) (hin : off + 8 ≤ o.len)
    (hx : s.ringXlate c o off 8 NEED_W true = (s, .inl [g])) (hg : g.host = true) (hw : s.fenceWord g < 2 ^ 63)
    (hv : s.fenceWord g < value % 2 ^ 63) (hp : (s.ring c r).poison = 0) :
    Completes (.fenceSignal c r h fence off value) s fun u =>
      s.Passed u c r ∧ u.host.read g.pa 8 = toLe 8 (value % 2 ^ 63) ∧
      ∀ a, a < g.pa ∨ g.pa + 8 ≤ a → u.host.byte a = s.host.byte a := by
  have hwrite : s.hostWrite g.pa (toLe 8 (value % 2 ^ 63)) false = ({ s with
      host := s.host.store g.pa (toLe 8 (value % 2 ^ 63)) false } : State).emit (.ioWrite g.pa (toLe 8 (value % 2 ^ 63)).length) :=
    if_pos (takes_ring ht).2
  refine completes_live hl (congrArg (doneLive s) (arrive_takes ht _)) ?_
  rw [doFenceSignal_eq (k := { c := c, r := r, h := h }) rfl hf ho hal hin hx hg, if_neg (by rw [Nat.mod_eq_of_lt hw]; omega), hwrite]
  dsimp only
  rw [if_pos (by exact hp), fin_quiet hf rfl]
  refine ⟨advance_passed _ c r, ?_, fun a ha => ?_⟩
  · have := Ram.read_store s.host g.pa (toLe 8 (value % 2 ^ 63)) false
    rwa [toLe_length] at this
  · refine (Ram.byte_store ..).trans (if_neg ?_)
    rw [toLe_length]
    omega

theorem fenceSignal_regresses (hl : s.Live) (ht : s.Takes c r h) (hf : h.flags = 0) {fence off value : Nat} {o : Obj} {g : XSeg}
    (ho : s.object c fence 6 true = (s, .inl o)) (hal : (o.va + off) % 8 = 0) (hin : off + 8 ≤ o.len)
    (hx : s.ringXlate c o off 8 NEED_W true = (s, .inl [g])) (hg : g.host = true)
    (hw : 2 ^ 63 ≤ s.fenceWord g ∨ value % 2 ^ 63 ≤ s.fenceWord g) (hopen : s.CplOpen c) :
    Completes (.fenceSignal c r h fence off value) s fun u =>
      s.Posts u c r h.seq { status := 0x0103, result := s.fenceWord g } := by
  refine completes_live hl (congrArg (doneLive s) (arrive_takes ht _)) ?_
  rw [doFenceSignal_eq (k := { c := c, r := r, h := h }) rfl hf ho hal hin hx hg, if_pos]
  · exact fin_posts (k := { c := c, r := r, h := h }) (takes_ring ht).1 hopen (wantsRecord_status (show ST_FENCE_REGRESS ≠ 0 by decide))
  · rcases Nat.lt_or_ge (s.fenceWord g) (2 ^ 63) with hlt | hge
    · rw [Nat.mod_eq_of_lt hlt]
      exact hw
    · exact .inl hge

/-- A FENCE_WAIT that has passed its checks. -/
theorem doFenceWait_eq {k : Cmd} (hp : k.pre = []) (hf : k.h.flags = 0) {fence off value us : Nat} {o : Obj} {g : XSeg}
    (ho : s.object k.c fence OBJ_R false = (s, .inl o)) (hal : (o.va + off) % 8 = 0) (hin : off + 8 ≤ o.len)
    (hx : s.ringXlate k.c o off 8 NEED_R false = (s, .inl [g])) :
    s.doFenceWait k fence off value us =
      match fenceFin ((s.seeFence g).fenceWord g) value with
      | some f => (s.seeFence g).fin k f
      | none => (s.seeFence g).awaitFence k o.ctx g value (if us = 0 then 0 else (s.seeFence g).ww.time + 1000 * us) := by
  rw [State.doFenceWait, wellFormed_ok hp (by rw [hf]) (by simp), withObj_ok ho, withFence_ok hal hin hx] <;> rfl

theorem fenceFin_abandoned {w value : Nat} (h : 2 ^ 63 ≤ w) : fenceFin w value =
    some { status := ST_FENCE_ABANDONED, result := w } := if_pos h
theorem fenceFin_shown {w value : Nat} (h : w < 2 ^ 63) (hv : value ≤ w) : fenceFin w value = some { result := w } :=
  (if_neg (by simpa [fenceMask] using h)).trans (if_pos hv)
theorem fenceFin_waits {w value : Nat} (h : w < 2 ^ 63) (hv : w < value) : fenceFin w value = none :=
  (if_neg (by simpa [fenceMask] using h)).trans (if_neg (by omega))

theorem fenceWaits (hl : s.Live) (ht : s.Takes c r h) (hf : h.flags = 0) {fence off value us : Nat} {o : Obj} {g : XSeg}
    (ho : s.object c fence 1 false = (s, .inl o)) (hal : (o.va + off) % 8 = 0) (hin : off + 8 ≤ o.len)
    (hx : s.ringXlate c o off 8 NEED_R false = (s, .inl [g])) :
    let t := s.seeFence g
    let w := t.fenceWord g
    (w < 2 ^ 63 → value ≤ w → Completes (.fenceWait c r h fence off value us) s fun u => t.Passed u c r ∧ u.waits = t.waits) ∧
    (w < 2 ^ 63 → w < value → let q := t.watchFence g
      let x := waitOfCmd c r h (.fence g value (if us = 0 then 0 else t.ww.time + 1000 * us))
      exec (.fenceWait c r h fence off value us) s = .next (({ q.1 with
        waits := q.1.waits ++ [{ x with watch := q.2, uses := [(o.ctx, g.va, g.len)] }] } : State).seal s)) ∧
    (2 ^ 63 ≤ w → t.CplOpen c → Completes (.fenceWait c r h fence off value us) s fun u =>
      t.Posts u c r h.seq { status := 0x0102, result := w }) := by
  have heq : exec (.fenceWait c r h fence off value us) s = doneLive s _ := congrArg (doneLive s) ((arrive_takes ht _).trans
    (doFenceWait_eq (k := { c := c, r := r, h := h }) (value := value) (us := us) rfl hf ho hal hin hx))
  dsimp only at heq ⊢
  generalize s.seeFence g = t at *
  refine ⟨fun hw hv => ?_, fun hw hv => ?_, fun hw hopen => ?_⟩
  · refine completes_live hl heq ?_
    rw [fenceFin_shown hw hv]
    dsimp only
    rw [fin_quiet hf rfl]
    exact ⟨advance_passed t c r, rfl⟩
  · rw [heq, fenceFin_waits hw hv, doneLive_of_live hl] <;> rfl
  · refine completes_live hl heq ?_
    rw [fenceFin_abandoned hw]
    exact fin_posts (k := { c := c, r := r, h := h }) (takes_ring ht).1 hopen (wantsRecord_status (show ST_FENCE_ABANDONED ≠ 0 by decide))

/-! ### A wait that is looked at again -/

theorem waitOf_some {w : Wait} (h : s.waitOf c r = some w) : w.ctx = c ∧ w.ring = r := by
  simpa using List.find?_some h

theorem endWatch_stable {P : State → Prop} (hP : MemStable P) (h : P s) (w : Wait) : P (s.endWatch w) := by
  unfold State.endWatch
  split
  · exact of_ite (hP.dropWatch h _ _) h
  · exact h

/-- The watch of a line is no part of what a read of a line gives. -/
theorem latestLine_unwatched {l : Line} {host : Bool} {la : Nat} (hl : s.basinLine host la = some l) (h : Bool) (x : Nat) :
    (s.putLine { l with watch := false }).latestLine h x = s.latestLine h x := by
  obtain ⟨hh, ha⟩ := basinLine_key hl
  have hmap := basinLine_map (s := s) (t := s.putLine { l with watch := false }) (host := h) (la := x)
    (fun y => if y.host == l.host && y.addr == l.addr then { l with watch := false } else y) rfl fun y => by
      split
      · next hy =>
        have hy' : y.host = l.host ∧ y.addr = l.addr := by simpa using hy
        exact ⟨hy'.1.symm, hy'.2.symm⟩
      · exact ⟨rfl, rfl⟩
  have hcopy : (s.putLine { l with watch := false }).mCopy h x = s.mCopy h x := rfl
  unfold State.latestLine
  rw [hmap, hcopy]
  cases hx : s.basinLine h x with
  | none => rfl
  | some y =>
    rw [Option.map_some]
    obtain ⟨hyh, hya⟩ := basinLine_key hx
    by_cases hk : (y.host == l.host && y.addr == l.addr) = true
    · have hk' : y.host = l.host ∧ y.addr = l.addr := by simpa using hk
      have hyl : y = l := by
        rw [← hyh, ← hya, hk'.1, hk'.2, hh, ha, hl] at hx
        exact (Option.some.inj hx).symm
      rw [if_pos hk, hyl]
    · rw [if_neg hk]

theorem endWatch_latest (s : State) (w : Wait) (h : Bool) (a n : Nat) : (s.endWatch w).latest h a n = s.latest h a n := by
  have drop (host : Bool) (la : Nat) : (s.dropWatch host la).latest h a n = s.latest h a n := by
    unfold State.dropWatch State.unwatchLine
    split
    · rfl
    · split
      · next hl => simp only [State.latest, latestLine_unwatched hl]
      · rfl
  unfold State.endWatch
  split
  · split
    · exact drop _ _
    · rfl
  · rfl

/-- The port, the time and the stored bytes of the host are none of a watch's business. -/
theorem endWatch_fields (s : State) (w : Wait) : (s.endWatch w).contexts = s.contexts ∧ (s.endWatch w).waits = s.waits ∧
    (s.endWatch w).port = s.port ∧ (s.endWatch w).ww = s.ww := by
  unfold State.endWatch State.dropWatch State.unwatchLine
  split
  · split
    · split
      · exact ⟨rfl, rfl, rfl, rfl⟩
      · split <;> exact ⟨rfl, rfl, rfl, rfl⟩
    · exact ⟨rfl, rfl, rfl, rfl⟩
  · exact ⟨rfl, rfl, rfl, rfl⟩

theorem endCmd_waits (hr : r < 8) {flags : Nat} {f : Fin} (h : wantsRecord flags f = false ∨ s.CplOpen c) (seq : Nat) :
    (s.endCmd c r seq flags f).waits = s.waits := by
  by_cases hw : wantsRecord flags f = true
  · have ho := h.resolve_left (by simp [hw])
    rw [State.endCmd, if_pos hw, post_open (advance_cplOpen hr ho)] <;> rfl
  · rw [endCmd_quiet (by simpa using hw)] <;> rfl

/-- A wait without flags that ends well leaves its ring past its command. -/
theorem finish_quiet {w : Wait} (hw : w.ctx = c ∧ w.ring = r) (hf : w.flags = 0) {f : Fin} (hs : f.status = 0) :
    w ∉ (s.finish w f).waits ∧ s.Passed (s.finish w f) c r := by
  obtain ⟨hctx, hring⟩ := hw
  have hend : s.finish w f = (({ s with waits := s.waits.filter (· ≠ w) } : State).endWatch w).advance c r := by
    rw [State.finish, hf, hctx, hring, endCmd_quiet (wantsRecord_quiet hs)]
  obtain ⟨hc, hwaits, -, -⟩ := endWatch_fields ({ s with waits := s.waits.filter (· ≠ w) } : State) w
  have hr : (({ s with waits := s.waits.filter (· ≠ w) } : State).endWatch w).ring c r = s.ring c r := ring_of_contexts hc c r
  rw [hend]
  refine ⟨fun hm => ?_, ?_⟩
  · have hm' : w ∈ s.waits.filter (· ≠ w) := (congrArg (w ∈ ·) hwaits).mp hm
    exact absurd rfl (of_decide_eq_true (List.mem_filter.1 hm').2)
  · have := advance_passed (({ s with waits := s.waits.filter (· ≠ w) } : State).endWatch w) c r
    rwa [State.Passed, hr] at this

/-- A wait that ends with a record. -/
theorem finish_posts {w : Wait} (hw : w.ctx = c ∧ w.ring = r) (hr : r < 8) (ho : s.CplOpen c) {f : Fin} (hs : f.status ≠ 0) :
    w ∉ (s.finish w f).waits ∧ s.Posts (s.finish w f) c r w.seq f := by
  obtain ⟨hctx, hring⟩ := hw
  generalize hv : ({ s with waits := s.waits.filter (· ≠ w) } : State).endWatch w = v
  obtain ⟨hc, hwaits, hport, hww⟩ := hv ▸ endWatch_fields ({ s with waits := s.waits.filter (· ≠ w) } : State) w
  have hrings (q : Nat) : v.ring c q = s.ring c q := ring_of_contexts hc c q
  have hopen : v.CplOpen c := cplOpen_of (hrings 8) (congrArg HostPort.ioOpen hport)
    ((congrArg (fun u => State.latest u true _ 8) hv.symm).trans (endWatch_latest ..)) ho
  have hend : s.finish w f = v.endCmd c r w.seq w.flags f := by rw [State.finish, hctx, hring, hv]
  rw [hend]
  refine ⟨fun hm => ?_, ?_⟩
  · rw [endCmd_waits hr (.inr hopen), hwaits] at hm
    exact absurd rfl (of_decide_eq_true (List.mem_filter.1 hm).2)
  · have := endCmd_posts hr hopen (wantsRecord_status (flags := w.flags) hs) w.seq
    rwa [State.Posts, State.Passed, hrings, hrings, hww] at this

/-! ### COPY and FILL of a line -/

theorem Ram.length_read (m : Ram) (a n : Nat) : (m.read a n).length = n := by
  rw [Ram.read_eq, List.length_map, List.length_range]

theorem countSeg_off {g : XSeg} (h : g.ce = false) (ctx : Nat) (wr : Bool) : s.countSeg ctx g wr = s := if_pos (by simp [h])

theorem isUc_uncached (s : State) (host : Bool) : s.isUc host 3 = true := by simp [State.isUc, ATTR_UC]

/-- An uncached piece of one line as a command reads it. -/
theorem readSegs_line {g : XSeg} (hh : g.host = false) (ha : g.attr = 3) (hce : g.ce = false) (hlen : g.len = 64)
    (hal : g.pa % 64 = 0) (hb : s.Backed g.pa) (hclean : s.CleanLine g.pa) (ctx : Nat) :
    s.readSegs ctx [g] = (s, (s.hdm.read g.pa 64).map fun b => (b, false)) := by
  have hlo : lineOf g.pa = g.pa := lineOf_of_aligned hal
  have hpart := part_inside (a := g.pa) (n := 64) { data := s.hdm.read g.pa 64, poison := 0 } rfl
  rw [hlo, Nat.sub_self, List.drop_zero, List.take_of_length_le (Ram.length_read ..).le] at hpart
  have hread : s.ucRead false g.pa 64 = (s, (s.hdm.read g.pa 64).map fun b => (b, false)) := by
    unfold State.ucRead
    rw [linesOf_aligned hal, List.foldl_cons, List.foldl_nil]
    simp only [Bool.false_eq_true, if_false, stkReadLine_clean hb hclean hal, hpart, List.nil_append]
  simp only [State.readSegs, List.foldl_cons, List.foldl_nil, countSeg_off hce, State.pageRead, hh, ha, hlen, isUc_uncached,
    if_true, hread, List.nil_append]

/-- An uncached piece of one line written: the line has these bytes, and no other byte of HDM changes. -/
theorem writeSegs_line {k : XSeg} (hh : k.host = false) (ha : k.attr = 3) (hce : k.ce = false) (hlen : k.len = 64)
    (hal : k.pa % 64 = 0) (hb : s.Backed k.pa) {bs : List Byte} (hn : bs.length = 64) (ctx : Nat) :
    ∃ stk regs, s.writeSegs ctx [k] (bs.map fun b => (b, false)) =
      s.stored (s.hdm.putWords k.pa bs 0 (wordsOf k.pa bs.length)) stk regs ∧
      s.HdmPut (s.writeSegs ctx [k] (bs.map fun b => (b, false))) k.pa bs := by
  have hin : lineOf (k.pa + bs.length - 1) = lineOf k.pa := by
    rw [hn]
    unfold lineOf
    omega
  have hrun : s.writeSegs ctx [k] (bs.map fun b => (b, false)) = s.stkWriteLine k.pa bs 0 := by
    have htake : (bs.map fun b => (b, false)).take 64 = bs.map fun b => (b, false) :=
      List.take_of_length_le (by simp [hn])
    simp only [State.writeSegs, List.foldl_cons, List.foldl_nil, countSeg_off hce, State.pageWrite, hh, ha, hlen,
      isUc_uncached, if_true, htake, State.ucWrite, lineParts_single (by omega) hin, Bool.false_eq_true, if_false]
  rw [hrun]
  exact stkWriteLine_put hb 0 (by omega) (by omega)

/-- What a read of HDM gives at each byte. -/
theorem read_byte {m : Ram} {a n : Nat} {bs : List Byte} (h : m.read a n = bs) {i : Nat} (hi : i < n) :
    m.byte (a + i) = bs.getD i 0 := by
  rw [← h, Ram.read_eq]
  simp [hi]

theorem askHost_fields (s : State) (t : Touch) : (s.askHost t).waits = s.waits ∧ (s.askHost t).hdm = s.hdm := by
  have hsnoop (wr : Bool) : (s.snoopHost t.1 wr).waits = s.waits ∧ (s.snoopHost t.1 wr).hdm = s.hdm := by
    unfold State.snoopHost State.sendSnoop
    split
    · exact ⟨rfl, rfl⟩
    · dsimp only
      split <;> exact ⟨rfl, rfl⟩
  unfold State.askHost
  split
  · split
    · exact hsnoop _
    · exact ⟨rfl, rfl⟩
  · exact ⟨rfl, rfl⟩

theorem askAll_fields (s : State) (ts : List Touch) : (s.askAll ts).waits = s.waits ∧ (s.askAll ts).hdm = s.hdm :=
  List.foldlRecOn (motive := fun t : State => t.waits = s.waits ∧ t.hdm = s.hdm) ts _ ⟨rfl, rfl⟩ fun t ht x _ =>
    ⟨(askHost_fields t x).1.trans ht.1, (askHost_fields t x).2.trans ht.2⟩

/-- A COPY of a line that has passed its checks. -/
theorem doCopy_eq {k : Cmd} (hp : k.pre = []) (hf : k.h.flags = 0) {src dst so d : Nat} {a b : Obj} {g e : XSeg}
    (ha : s.object k.c src OBJ_R false = (s, .inl a)) (hb : s.object k.c dst OBJ_W false = (s, .inl b))
    (hso : so + 64 ≤ a.len) (hd : d + 64 ≤ b.len)
    (hover : a.ctx ≠ b.ctx ∨ b.va + d + 64 ≤ a.va + so ∨ a.va + so + 64 ≤ b.va + d)
    (hg : s.ringXlate k.c a so 64 NEED_R false = (s, .inl [g])) (he : s.ringXlate k.c b d 64 NEED_W true = (s, .inl [e]))
    (hh : g.host = false) :
    s.doCopy k src dst so d 64 =
      let busy := s.busyOf (segTouches [g] false ++ segTouches [e] true)
      if busy.isEmpty then (s.copyBytes k.c k.r a.ctx b.ctx [g] [e]).fin k {}
      else (s.askAll busy).await k (.copy a.ctx b.ctx [g] [e] false) := by
  have hbad : (a.ctx == b.ctx && decide (a.va + so < b.va + d + 64) && decide (b.va + d < a.va + so + 64)) = false := by
    rcases hover with h | h | h
    · simp [h]
    · simp only [Bool.and_eq_false_iff, decide_eq_false_iff_not]
      omega
    · simp only [Bool.and_eq_false_iff, decide_eq_false_iff_not]
      omega
  have hus : ([g].filter fun g => g.host && s.isUc true g.attr) = [] := by simp [hh]
  rw [State.doCopy, wellFormed_ok hp (by rw [hf]) (by simp [badLength]), withObj_ok ha, withObj_ok hb]
  dsimp only
  rw [wellFormed_ok hp (by rw [hf]), withExtent_ok hg, withExtent_ok he]
  · rw [hus]
    simp only [List.isEmpty_nil, Bool.true_and, List.foldl_nil]
  · intro x hx
    simp only [List.mem_cons, List.not_mem_nil, or_false] at hx
    rcases hx with rfl | rfl | rfl
    · exact decide_eq_false (by omega)
    · exact decide_eq_false (by omega)
    · exact hbad

/-- A FILL of a line that has passed its checks. -/
theorem doFill_eq {k : Cmd} (hp : k.pre = []) (hf : k.h.flags = 0) {dst d pattern : Nat} {b : Obj} {e : XSeg}
    (hb : s.object k.c dst OBJ_W false = (s, .inl b)) (hd : d + 64 ≤ b.len)
    (he : s.ringXlate k.c b d 64 NEED_W true = (s, .inl [e])) :
    s.doFill k dst d 64 pattern =
      let busy := s.busyOf (segTouches [e] true)
      if busy.isEmpty then (s.writeSegs b.ctx [e] (patternBytes pattern d 64)).fin k {}
      else (s.askAll busy).await k (.fill b.ctx [e] pattern d 64) := by
  rw [State.doFill, wellFormed_ok hp (by rw [hf]) (by simp [badLength]), withObj_ok hb]
  dsimp only
  rw [wellFormed_ok hp (by rw [hf]) (by simp; omega), withExtent_ok he]

/-- A line's bytes that a command has put, and its ring past the command. -/
theorem stored_passed {v : State} {m : Ram} {stk : SMap Stack} {regs : SMap Reg} (hv : v = s.stored m stk regs) {a : Nat}
    {bs : List Byte} (hn : bs.length = 64) (hput : s.HdmPut v a bs) :
    let u := (v.advance c r).seal s
    s.Passed u c r ∧ (∀ i < 64, u.hdm.byte (a + i) = bs.getD i 0) ∧
      ∀ x, x < a ∨ a + 64 ≤ x → u.hdm.byte x = s.hdm.byte x := by
  obtain ⟨hread, hkeep⟩ := hput
  rw [hn] at hread hkeep
  refine ⟨?_, fun i hi => read_byte hread hi, hkeep⟩
  have := advance_passed v c r
  have hring : v.ring c r = s.ring c r := by rw [hv] <;> rfl
  rwa [State.Passed, hring] at this

/-- A command that waits at the homes of its lines. -/
theorem awaits (hl : s.Live) {i : Instr} {k : Cmd} (busy : List Touch) (w : WaitKind)
    (hi : exec i s = doneLive s ((s.askAll busy).await k w)) : Completes i s fun u =>
      u.waits = s.waits ++ [{ ctx := k.c, ring := k.r, seq := k.h.seq, flags := k.h.flags, kind := w }] ∧ u.hdm = s.hdm := by
  obtain ⟨hw, hm⟩ := askAll_fields s busy
  refine completes_live hl hi ⟨?_, hm⟩
  exact congrArg (· ++ [({ ctx := k.c, ring := k.r, seq := k.h.seq, flags := k.h.flags, kind := w } : Wait)]) hw

theorem copies (hl : s.Live) (ht : s.Takes c r h) (hf : h.flags = 0) {src dst so d : Nat} {a b : Obj} {g e : XSeg}
    (ha : s.object c src 1 false = (s, .inl a)) (hb : s.object c dst 2 false = (s, .inl b))
    (hso : so + 64 ≤ a.len) (hd : d + 64 ≤ b.len)
    (hover : a.ctx ≠ b.ctx ∨ b.va + d + 64 ≤ a.va + so ∨ a.va + so + 64 ≤ b.va + d)
    (hg : s.ringXlate c a so 64 NEED_R false = (s, .inl [g])) (he : s.ringXlate c b d 64 NEED_W true = (s, .inl [e]))
    (hgh : g.host = false) (heh : e.host = false) (hga : g.attr = 3) (hea : e.attr = 3) (hgc : g.ce = false)
    (hec : e.ce = false) (hgl : g.len = 64) (hel : e.len = 64) (hgp : g.pa % 64 = 0) (hep : e.pa % 64 = 0)
    (hgb : s.Backed g.pa) (heb : s.Backed e.pa) (hclean : s.CleanLine g.pa) :
    let busy := s.busyOf (segTouches [g] false ++ segTouches [e] true)
    (busy = [] → Completes (.copy c r h src dst so d 64) s fun u =>
      s.Passed u c r ∧ (∀ i < 64, u.hdm.byte (e.pa + i) = s.hdm.byte (g.pa + i)) ∧
      ∀ x, x < e.pa ∨ e.pa + 64 ≤ x → u.hdm.byte x = s.hdm.byte x) ∧
    (busy ≠ [] → Completes (.copy c r h src dst so d 64) s fun u =>
      u.waits = s.waits ++ [waitOfCmd c r h (.copy a.ctx b.ctx [g] [e] false)] ∧ u.hdm = s.hdm) := by
  have heq : exec (.copy c r h src dst so d 64) s = doneLive s _ := congrArg (doneLive s) ((arrive_takes ht _).trans
    (doCopy_eq (k := { c := c, r := r, h := h }) rfl hf ha hb hso hd hover hg he hgh))
  dsimp only at heq ⊢
  generalize s.busyOf (segTouches [g] false ++ segTouches [e] true) = busy at *
  refine ⟨fun hbusy => ?_, fun hbusy => ?_⟩
  · rw [hbusy, List.isEmpty_nil, if_pos rfl] at heq
    have hn : (s.hdm.read g.pa 64).length = 64 := Ram.length_read ..
    obtain ⟨stk, regs, hst, hput⟩ := writeSegs_line heh hea hec hel hep heb hn b.ctx
    have hcopy : s.copyBytes c r a.ctx b.ctx [g] [e] =
        s.writeSegs b.ctx [e] ((s.hdm.read g.pa 64).map fun x => (x, false)) := by
      unfold State.copyBytes
      rw [readSegs_line hgh hga hgc hgl hgp hgb hclean]
      dsimp only
      rw [State.stickPoison, if_neg (by simp [(data_clean _).2])]
    refine completes_live hl heq ?_
    rw [fin_quiet hf rfl]
    dsimp only
    rw [hcopy]
    obtain ⟨hpass, hbytes, hkeep⟩ := stored_passed (c := c) (r := r) hst hn hput
    refine ⟨hpass, fun i hi => ?_, hkeep⟩
    rw [hbytes i hi]
    exact (read_byte rfl hi).symm
  · rw [if_neg (by simpa using hbusy)] at heq
    exact awaits hl busy _ heq

theorem fills (hl : s.Live) (ht : s.Takes c r h) (hf : h.flags = 0) {dst d pattern : Nat} {b : Obj} {e : XSeg}
    (hb : s.object c dst 2 false = (s, .inl b)) (hd : d + 64 ≤ b.len)
    (he : s.ringXlate c b d 64 NEED_W true = (s, .inl [e]))
    (heh : e.host = false) (hea : e.attr = 3) (hec : e.ce = false) (hel : e.len = 64) (hep : e.pa % 64 = 0)
    (heb : s.Backed e.pa) :
    let busy := s.busyOf (segTouches [e] true)
    (busy = [] → Completes (.fill c r h dst d 64 pattern) s fun u =>
      s.Passed u c r ∧
      (∀ i < 64, u.hdm.byte (e.pa + i) = BitVec.ofNat 8 (pattern / 256 ^ ((d + i) % 8))) ∧
      ∀ x, x < e.pa ∨ e.pa + 64 ≤ x → u.hdm.byte x = s.hdm.byte x) ∧
    (busy ≠ [] → Completes (.fill c r h dst d 64 pattern) s fun u =>
      u.waits = s.waits ++ [waitOfCmd c r h (.fill b.ctx [e] pattern d 64)] ∧ u.hdm = s.hdm) := by
  have heq : exec (.fill c r h dst d 64 pattern) s = doneLive s _ := congrArg (doneLive s) ((arrive_takes ht _).trans
    (doFill_eq (k := { c := c, r := r, h := h }) (pattern := pattern) rfl hf hb hd he))
  dsimp only at heq ⊢
  generalize s.busyOf (segTouches [e] true) = busy at *
  refine ⟨fun hbusy => ?_, fun hbusy => ?_⟩
  · rw [hbusy, List.isEmpty_nil, if_pos rfl] at heq
    generalize hbs : (List.range 64).map (fun i => (BitVec.ofNat 8 (pattern / 256 ^ ((d + i) % 8)) : Byte)) = bs
    have hn : bs.length = 64 := by rw [← hbs]; simp
    have hpat : patternBytes pattern d 64 = bs.map fun x => (x, false) := by
      rw [← hbs, patternBytes, List.map_map] <;> rfl
    obtain ⟨stk, regs, hst, hput⟩ := writeSegs_line heh hea hec hel hep heb hn b.ctx
    refine completes_live hl heq ?_
    rw [fin_quiet hf rfl]
    dsimp only
    rw [hpat]
    obtain ⟨hpass, hbytes, hkeep⟩ := stored_passed (c := c) (r := r) hst hn hput
    refine ⟨hpass, fun i hi => ?_, hkeep⟩
    rw [hbytes i hi, ← hbs]
    simp [hi]
  · rw [if_neg (by simpa using hbusy)] at heq
    exact awaits hl busy _ heq

/-! ### The clauses -/

theorem ringNops (hl : s.Live) (ht : s.Takes c r h) :
    (h.flags = 0 → Completes (.ringNop c r h) s fun u =>
      s.Passed u c r ∧ u.waits = s.waits ∧ u.hdm = s.hdm ∧ u.host = s.host ∧ u.out = s.out) ∧
    (h.flags = 1 → s.CplOpen c → Completes (.ringNop c r h) s fun u => s.Posts u c r h.seq {}) ∧
    (4 ≤ h.flags → s.CplOpen c → Completes (.ringNop c r h) s fun u =>
      s.Posts u c r h.seq { status := 0x000A, detail := 5 }) := by
  have hnop : exec (.ringNop c r h) s = doneLive s (s.doNop { c := c, r := r, h := h }) :=
    congrArg (doneLive s) (arrive_takes ht _)
  generalize hk : ({ c := c, r := r, h := h } : Cmd) = k at hnop
  obtain ⟨hc, hr, hh, hp⟩ : k.c = c ∧ k.r = r ∧ k.h = h ∧ k.pre = [] := hk ▸ ⟨rfl, rfl, rfl, rfl⟩
  have hr8 : k.r < 8 := hr ▸ (takes_ring ht).1
  refine ⟨fun hf => ?_, fun hf ho => ?_, fun hf ho => ?_⟩
  · refine completes_live hl hnop ?_
    rw [State.doNop, wellFormed_ok hp (by rw [hh, hf]) (by simp), fin_quiet (by rw [hh, hf]) rfl, hc, hr]
    exact ⟨advance_passed s c r, rfl, rfl, rfl, rfl⟩
  · refine completes_live hl hnop ?_
    rw [State.doNop, wellFormed_ok hp (by rw [hh, hf]) (by simp)]
    have := fin_posts (s := s) (f := {}) hr8 (hc ▸ ho) (by rw [hh, hf]; rfl)
    rwa [hc, hr, hh] at this
  · refine completes_live hl hnop ?_
    rw [State.doNop, wellFormed_flags hp (by rw [hh]; omega)]
    have := fin_posts (s := s) hr8 (hc ▸ ho) (wantsRecord_status (f := { status := ST_BAD_DESCRIPTOR, detail := 5 })
      (flags := k.h.flags) (by decide))
    rwa [hc, hr, hh] at this

/-- The commands that look at a fence again, or give it up. -/
theorem fenceWaitsEnd (hl : s.Live) {w : Wait} {g : XSeg} {value dl : Nat} (hw : s.waitOf c r = some w)
    (hk : w.kind = .fence g value dl) (hf : w.flags = 0) (hr : r < 8) :
    (∀ t, t = s.reseeFence w g →
      (t.fenceWord g < 2 ^ 63 → value ≤ t.fenceWord g → (t.finish w {}).resettle = t.finish w {} →
        Completes (.fenceWaitSatisfied c r) s fun u => w ∉ u.waits ∧ t.Passed u c r) ∧
      (t.fenceWord g < 2 ^ 63 → t.fenceWord g < value → t.resettle = t →
        exec (.fenceWaitSatisfied c r) s = .next (t.seal s))) ∧
    (dl = 0 → s.resettle = s → exec (.fenceWaitTimeout c r) s = .next (s.seal s)) ∧
    (∀ f : Fin, f = { status := 0x000B, result := s.fenceWord g } → dl ≠ 0 → s.CplOpen c →
      (s.finish w f).resettle = s.finish w f →
      Completes (.fenceWaitTimeout c r) s fun u => w ∉ u.waits ∧ s.Posts u c r w.seq f) := by
  have hkey := waitOf_some hw
  have hcheck : s.fenceCheck c r = match fenceFin ((s.reseeFence w g).fenceWord g) value with
      | some f => (s.reseeFence w g).finish w f
      | none => s.reseeFence w g := by
    unfold State.fenceCheck
    rw [hw]
    dsimp only
    rw [hk] <;> rfl
  have htime : s.fenceTimeout c r = if dl = 0 then s else s.finish w { status := ST_TIMEOUT, result := s.fenceWord g } := by
    unfold State.fenceTimeout
    rw [hw]
    dsimp only
    rw [hk]
  refine ⟨?_, fun hd hidle => ?_, ?_⟩
  · rintro t rfl
    generalize s.reseeFence w g = t at *
    refine ⟨fun hlt hv hidle => ?_, fun hlt hv hidle => ?_⟩
    · have hsame : t.finish w { result := t.fenceWord g } = t.finish w {} := by
        rw [State.finish, State.finish, hf, endCmd_quiet (wantsRecord_quiet rfl), endCmd_quiet (wantsRecord_quiet rfl)]
      refine completes_live hl rfl ?_
      rw [hcheck, fenceFin_shown hlt hv]
      dsimp only
      rw [hsame, hidle]
      exact finish_quiet hkey hf rfl
    · refine (congrArg (doneLive s) ?_).trans (doneLive_of_live hl t)
      rw [hcheck, fenceFin_waits hlt hv]
      exact hidle
  · refine (congrArg (doneLive s) ?_).trans (doneLive_of_live hl s)
    rw [htime, if_pos hd]
    exact hidle
  · rintro f rfl hd ho hidle
    refine completes_live hl rfl ?_
    have htm : s.fenceTimeout c r = s.finish w { status := 0x000B, result := s.fenceWord g } := htime.trans (if_neg hd)
    rw [htm, hidle]
    exact finish_posts hkey hr ho (show (0x000B : Nat) ≠ 0 by decide)

end Sys2Proof.Machine

/-- Settles O43: the checks that the hypotheses decide leave one path of each command, and its end is an advance of the ring
with or without a record. -/
theorem ringDataCommands : Obligations.RingDataCommands := by
  intro s c r h hl
  have idle (ht : ¬s.Takes c r h) (act : State → Cmd → State) : doneLive s (s.arrive c r h act) = .next (s.seal s) := by
    rw [arrive_idle ht, doneLive_of_live hl]
  refine ⟨fun ht => ⟨idle ht _, fun f o v => idle ht _, fun d o n p => idle ht _⟩, fun ht => ?_, fun w g value dl hw hk hf hr => ?_⟩
  · obtain ⟨hnop, hrec, hbad⟩ := ringNops hl ht
    exact ⟨hnop, hrec, hbad,
      fun fence off value o g hf ho hal hin hx hg =>
        ⟨fun hw hv hp => fenceSignal_passes hl ht hf ho hal hin hx hg hw hv hp,
          fun hw hopen => fenceSignal_regresses hl ht hf ho hal hin hx hg hw hopen⟩,
      fun fence off value us o g hf ho hal hin hx => fenceWaits hl ht hf ho hal hin hx,
      fun src dst so d a b g k hf ha hb hso hd hover hg hk hgh hkh hga hka hgc hkc hgl hkl hgp hkp hgb hkb hclean =>
        copies hl ht hf ha hb hso hd hover hg hk hgh hkh hga hka hgc hkc hgl hkl hgp hkp hgb hkb hclean,
      fun dst d pattern b k hf hb hd hk hkh hka hkc hkl hkp hkb =>
        fills hl ht hf hb hd hk hkh hka hkc hkl hkp hkb⟩
  · obtain ⟨hseen, hnone, htime⟩ := fenceWaitsEnd hl hw hk hf hr
    exact ⟨hseen _ rfl, hnone, htime _ rfl⟩

end

section
/-! SUPPORT. What the end of a ring's waits keeps (R485, R489, R507): the memory side of a record and of a watch, for a
property that no ring and no list of waits touches either. -/

open Sys2Proof Sys2Proof.Machine

namespace Sys2Proof.Machine

namespace MemStable
variable {P : State → Prop} {s : State} (hP : MemStable P) (h : P s)
include hP h

theorem actDeny (target master need addr slot : Nat) : P (s.actDeny target master need addr slot) :=
  hP.fault _ (msgOf_cls K_ACT_DENIED (16 + master / 1024) (master % 1024)) (hP.reg _ (by decide) (hP.reg _ (by decide) h))

theorem actCheck (target master need addr : Nat) : P (s.actCheck target master need addr).1 :=
  of_fst_ite h (hP.actDeny h ..)

theorem hdmCheck (master need dpa n : Nat) : P (s.hdmCheck master need dpa n).1 := by
  unfold State.hdmCheck
  split
  · exact h
  · exact hP.actDeny h ..

theorem askHost (t : Touch) : P (s.askHost t) := by
  unfold State.askHost
  split
  · exact of_ite (hP.snoopHost h _ _) h
  · exact h

theorem atHome {act : State → State} (hact : ∀ t, P t → P (act t)) (c : HeldReq) (lk : Option Nat) (ts : List Touch) :
    P (s.atHome c lk ts act) :=
  of_ite (hact _ (hP.port _ h)) (hP.basin _ (of_foldl P (fun _ _ ht => hP.askHost ht _) _ h))

theorem flagAtHome (host : Bool) (a : Nat) (bs : List Byte) : P (s.flagAtHome host a bs) :=
  of_ite (hP.flagStore h _ _ _) (hP.atHome h (fun _ ht => hP.pageWrite ht _ _ _ _) ..)

theorem ringWrite (c : Nat) (x : Ring) (off : Nat) (bs : List Byte) : P (s.ringWrite c x off bs).1 := by
  have hc := hP.hdmCheck h c NEED_W (x.base + off) bs.length
  unfold State.ringWrite
  split
  · dsimp only
    split
    · exact hP.flagAtHome hc false (x.base + off) bs
    · exact hc
  · exact hP.flagAtHome h true (x.base + off) bs

theorem markRead (host : Bool) (a n : Nat) : P (s.markRead host a n) := of_ite h (hP.ncRead h ..)

theorem endWatch (w : Wait) : P (s.endWatch w) := endWatch_stable hP h w

end MemStable

/-- A property that rings and waits do not touch either. -/
structure RingStable (P : State → Prop) : Prop extends MemStable P where
  ring  : ∀ {s} (c r : Nat) (x : Ring), P s → P (s.setRing c r x)
  waits : ∀ {s} (p : Wait → Bool), P s → P { s with waits := s.waits.filter p }

namespace RingStable
variable {P : State → Prop} {s : State} (hP : RingStable P) (h : P s)
include hP h

theorem putRecord (c : Nat) (e : List Byte × Bool) : P (s.putRecord c e).1 := by
  have hw := hP.ringWrite h c (s.ring c CPL_RING) (32 * ((s.ring c CPL_RING).count % 2 ^ (s.ring c CPL_RING).log2n))
    (withPhase e.1 ((s.ring c CPL_RING).count / 2 ^ (s.ring c CPL_RING).log2n % 2 == 0))
  exact of_fst_ite hw (of_ite (hP.sendVec (hP.ring _ _ _ hw) _) (hP.ring _ _ _ hw))

theorem tryRecord (c : Nat) (e : List Byte × Bool) : P (s.tryRecord c e).1 :=
  of_fst_ite (hP.putRecord h c e) (hP.setBit (hP.ring _ _ _ h) _ _ (by decide))

theorem advance (c r : Nat) : P (s.advance c r) := hP.ring _ _ _ h

theorem endQuiet (c r seq flags : Nat) (f : Fin) : P (s.endQuiet c r seq flags f) :=
  of_ite (hP.tryRecord (hP.advance h c r) c _) (hP.advance h c r)

/-- Waits that a test picks end with one outcome. -/
theorem abortWaits (p : Wait → Bool) (f : Fin) : P (s.abortWaits p f) :=
  of_foldl P (fun _ _ ht => hP.endQuiet (hP.endWatch ht _) _ _ _ _ _) _ (hP.waits _ h)

end RingStable

/-- A context's state is no business of its rings. -/
theorem contextState_ringStable (c : Nat) (st : CState) : RingStable fun s => (s.context c).st = st where
  fault m _ h := ((fault_kept _ m).context c).symm ▸ h
  reg _ _ h := h
  stack _ h := h
  lk _ _ h := h
  basin _ h := h
  port _ h := h
  hdm _ h := h
  host _ h := h
  emit _ h := h
  ring d r x h := by
    rw [State.setRing, State.context_setContext]
    split
    · next he => exact he ▸ h
    · exact h
  waits _ h := h

/-- A flight's context and state are no business of the memory side and of rings; a fault may only make it FATAL. -/
theorem flightState_ringStable (k c : Nat) (st : FState) : RingStable fun s => (s.flight k).ctx = c ∧ (s.flight k).st = st where
  fault m _ h := ⟨((fault_sameRuns _ m).ctx k).trans h.1, ((fault_sameRuns _ m).st k).trans h.2⟩
  reg _ _ h := h
  stack _ h := h
  lk _ _ h := h
  basin _ h := h
  port _ h := h
  hdm _ h := h
  host _ h := h
  emit _ h := h
  ring _ _ _ h := h
  waits _ h := h

end Sys2Proof.Machine
end

section
/-! The driver's ring (R378, R399, R487, R509, R515, R518, R521 to R525, R573 to R575): the commands that keep the translation
mirror, the bias, the maintenance queue, the lease and the contexts. -/

open Sys2Proof Sys2Proof.Machine

namespace Sys2Proof.Machine
variable {s : State} {c r : Nat} {h : DescHdr} {k : Cmd}

/-! ### Commands that only the driver may issue -/

theorem onlyDriver_driver (hc : k.c = 0) (act : State → State) : s.onlyDriver k act = act s := if_pos hc

theorem onlyDriver_denied (hc : k.c ≠ 0) (act : State → State) : s.onlyDriver k act = s.fin k { status := ST_ACCESS_DENIED } :=
  if_neg hc

theorem named_ok {ctx : Nat} {faulted : Bool} (hst : (s.context ctx).st = .ready ∨ (s.context ctx).st = .running)
    (act : State → State) : s.named k ctx faulted act = act s := if_pos (hst.elim .inl fun h => .inr (.inl h))

/-- A command that another context than the driver's issues ends at once. -/
theorem denied_posts {i : Instr} (hl : s.Live) (ht : s.Takes c r h) (ho : s.CplOpen c)
    (hi : exec i s = doneLive s (s.fin { c := c, r := r, h := h } { status := ST_ACCESS_DENIED })) :
    Completes i s fun u => s.Posts u c r h.seq { status := 0x0003 } :=
  completes_live hl hi (fin_posts (k := { c := c, r := r, h := h }) (takes_ring ht).1 ho
    (wantsRecord_status (show ST_ACCESS_DENIED ≠ 0 by decide)))

/-- A command of a ring whose act is known. -/
theorem exec_takes {i : Instr} {act : State → Cmd → State} (ht : s.Takes c r h)
    (hi : exec i s = doneLive s (s.arrive c r h act)) {t : State}
    (hact : ∀ k : Cmd, k.c = c → k.r = r → k.h = h → k.pre = [] → act s k = t) : exec i s = doneLive s t := by
  rw [hi, arrive_takes ht, hact _ rfl rfl rfl rfl]

theorem badList {bad : List (Bool × Nat)} (h : (bad.any Prod.fst) = false) : ∀ b ∈ bad, b.1 = false := by
  simpa using h

theorem flags_zero (hh : k.h = h) (hf : h.flags = 0) : k.h.flags / 4 = 0 := by rw [hh, hf]

theorem deniedClauses (hl : s.Live) (ht : s.Takes c r h) (hf : h.flags = 0) (hc : c ≠ 0) (ho : s.CplOpen c) :
    let denied (i : Instr) : Prop := Completes i s fun u => s.Posts u c r h.seq { status := 0x0003 }
    (∀ ctx page count va e, ctx < 1024 → page ≤ 2 → badRange page count va = false →
      (s.entryOk page count e = true → denied (.mapRange c r h ctx page count va e)) ∧
      denied (.unmapRange c r h ctx page count va) ∧ ∀ sc ≤ 1, denied (.invalidateXlt c r h ctx sc page count va)) ∧
    (∀ b n dpa, b ≤ 1 → dpa % 4096 = 0 → dpa + 4096 * n ≤ s.hdmSize → denied (.setBias c r h b n dpa)) ∧
    (∀ w us, 100 ≤ w → w ≤ 2400 → 1 ≤ us → denied (.setPowerLease c r h w us)) ∧
    (∀ ctx < 1024, denied (.contextTeardown c r h ctx)) ∧
    ∀ op addr n, op ≤ 4 → addr % 64 = 0 → n % 64 = 0 → 0 < n → n ≤ 2 ^ 40 → denied (.maint c r h op SP_DPA 0 addr n) := by
  intro denied
  have deny {i : Instr} {act : State → Cmd → State} (hi : exec i s = doneLive s (s.arrive c r h act)) (bad : List (Bool × Nat))
      (rest : Cmd → State → State) (hact : ∀ k, act s k = s.wellFormed k bad (rest k)) (hbad : bad.any Prod.fst = false)
      (hrest : ∀ k : Cmd, k.c ≠ 0 → rest k s = s.fin k { status := ST_ACCESS_DENIED }) : denied i := by
    refine denied_posts hl ht ho ?_
    rw [hi, arrive_takes ht, hact, wellFormed_ok rfl (flags_zero rfl hf) (badList hbad), hrest _ hc]
  refine ⟨fun ctx page count va e hctx hpage hrange => ⟨fun hent => ?_, ?_, fun sc hsc => ?_⟩, fun b n dpa hb hal hin => ?_,
    fun w us h1 h2 h3 => ?_, fun ctx hctx => ?_, fun op addr n hop hal hn hpos hmax => ?_⟩
  · exact deny rfl _ _ (fun _ => rfl) (by simp [hrange, hent]; omega) fun k hk => onlyDriver_denied hk _
  · exact deny rfl _ _ (fun _ => rfl) (by simp [hrange]; omega) fun k hk => onlyDriver_denied hk _
  · exact deny rfl _ _ (fun _ => rfl) (by simp [hrange]; omega) fun k hk => onlyDriver_denied hk _
  · exact deny rfl _ _ (fun _ => rfl) (by simp [hal]; omega) fun k hk => onlyDriver_denied hk _
  · exact deny rfl _ _ (fun _ => rfl) (by simp [leaseOk]; omega) fun k hk => onlyDriver_denied hk _
  · exact deny rfl _ _ (fun _ => rfl) (by simp; omega) fun k hk => onlyDriver_denied hk _
  · have hbad (k : Cmd) (hk : k.c = c) : ([(decide (4 < op), 0x08), (decide (2 < SP_DPA), 0x09),
        (k.c == 0 && decide (1024 ≤ 0), 0x0A), (decide (addr % 64 ≠ 0), 0x10),
        (decide (n % 64 ≠ 0) || badLength n, 0x18)] : List (Bool × Nat)).any Prod.fst = false := by
      simp [SP_DPA, badLength, hal, hn]
      omega
    refine denied_posts hl ht ho (exec_takes ht rfl fun k hkc hkr hkh hkp => ?_)
    rw [State.doMaint, wellFormed_ok hkp (flags_zero hkh hf) (badList (hbad k hkc)), if_pos ⟨hkc ▸ hc, by decide⟩]
    have hk : k = { c := c, r := r, h := h } := by
      cases k
      simp_all
    rw [hk]

/-! ### Translation -/

/-- The memory side leaves translation and the fuses alone. -/
theorem alloc_memStable (l : List Nat) (f : Fuses) : MemStable fun s => s.xlt.alloc = l ∧ s.fuses = f where
  fault m _ h := ⟨(congrArg Xlt.alloc (fault_kept _ m).xlt).trans h.1, (fault_kept _ m).fuses.trans h.2⟩
  reg _ _ h := h
  stack _ h := h
  lk _ _ h := h
  basin _ h := h
  port _ h := h
  hdm _ h := h
  host _ h := h
  emit _ h := h

theorem xltEnable_effect (hl : s.Live) (hoff : s.xltOn = false) (hp : s.poolOk = true) (hf : s.xrSizeOk frRing = true)
    (hh : s.xrSizeOk hrRing = true) : Completes .xltEnable s fun u => u.bit XLT_CTL 0 = true ∧ u.xlt.alloc = [] := by
  obtain ⟨bs, hbs⟩ : ∃ bs, bs = List.replicate 8192 ((0 : Byte), false) := ⟨_, rfl⟩
  have hrun : s.xltEnable = (({ s with xlt := { s.xlt with alloc := [] } } : State).ncWrite false s.poolBase 0 bs
      none).setBit XLT_CTL 0 true := by
    rw [State.xltEnable, if_neg (by simp [hoff]), if_neg (by simp [hp]), if_neg (by simp [hf, hh]), hbs] <;> rfl
  have hkept := (alloc_memStable [] s.fuses).ncWrite (s := { s with xlt := { s.xlt with alloc := [] } }) ⟨rfl, rfl⟩
    false s.poolBase 0 bs none
  refine completes_live hl rfl ?_
  rw [hrun]
  generalize ({ s with xlt := { s.xlt with alloc := [] } } : State).ncWrite false s.poolBase 0 bs none = t at *
  exact ⟨(seal_bit (t := t.setBit XLT_CTL 0 true) hkept.2 ..).trans (bit_setBit_self t _ _ (by decide)), hkept.1⟩

theorem mem_unpost {ctx va n : Nat} {p : Nat × Nat × Nat} (h : p ∈ (s.unpost ctx va n).xlt.posted) (hc : p.1 = ctx)
    (hlt : p.2.1 < va + n) : p.2.1 + pageSize p.2.2 ≤ va := by
  have := (List.mem_filter.1 h).2
  simp only [hc, beq_self_eq_true, hlt, decide_true, Bool.and_self, Bool.true_and, Bool.not_eq_true',
    decide_eq_false_iff_not, Nat.not_lt] at this
  exact this

theorem mem_flushTlb {ctx va n : Nat} {e : TlbEntry} (h : e ∈ (s.flushTlb ctx va n).xlt.tlb) : e ∈ s.xlt.tlb ∧
    (e.ctx = ctx → e.va < va + n → e.va + pageSize e.level ≤ va) := by
  obtain ⟨hm, hp⟩ := List.mem_filter.1 h
  refine ⟨hm, fun hc hlt => ?_⟩
  simp only [hc, beq_self_eq_true, hlt, decide_true, Bool.and_self, Bool.true_and, Bool.not_eq_true',
    decide_eq_false_iff_not, Nat.not_lt] at hp
  exact hp

/-- The end of an UNMAP_RANGE or INVALIDATE_XLT flushes its range and leaves memory alone. -/
theorem xltEnd_flushed (hf : k.h.flags = 0) (ctx va n : Nat) : (s.xltEnd k ctx va n).hdm = s.hdm ∧
    (s.xltEnd k ctx va n).xlt.tlb = (s.flushTlb ctx va n).xlt.tlb := by
  unfold State.xltEnd
  dsimp only
  split
  · rw [fin_quiet hf rfl]
    exact ⟨rfl, rfl⟩
  · exact ⟨rfl, rfl⟩

theorem xltEnd_done (hf : k.h.flags = 0) (hfl : s.flights = []) (hw : s.waits = []) (ctx va n : Nat) :
    s.xltEnd k ctx va n = ((s.flushTlb ctx va n).unpost ctx va n).advance k.c k.r := by
  have hfree : (s.flushTlb ctx va n).xltFree ((s.flushTlb ctx va n).xltUntil ctx va n) ctx va n = true := by
    have h1 : (s.flushTlb ctx va n).flights = [] := hfl
    have h2 : (s.flushTlb ctx va n).waits = [] := hw
    simp [State.xltFree, State.xltUntil, h1, h2]
  unfold State.xltEnd
  dsimp only
  rw [if_pos hfree, fin_quiet hf rfl]

theorem mapRange_maps (hl : s.Live) (ht : s.Takes 0 r h) (hf : h.flags = 0) {ctx page count va e : Nat} {t : State}
    (hctx : ctx < 1024) (hpage : page ≤ 2) (hrange : badRange page count va = false) (hent : s.entryOk page count e = true)
    (hst : (s.context ctx).st = .ready ∨ (s.context ctx).st = .running) (hon : s.xltOn = true)
    (hclear : s.rangeClear ctx page count va = true) (hmap : s.mapLeaves (s.ringUnit 0) ctx page va e count va = .inl t)
    (hheld : entHost e = true ∨ entShr e = true ∨ t.hostHolds (entPa e) (count * pageSize page) = false) :
    Completes (.mapRange 0 r h ctx page count va e) s fun u =>
      t.Passed u 0 r ∧ u.hdm = t.hdm ∧ u.basin = t.basin ∧ u.xlt.tlb = t.xlt.tlb ∧
      ∀ p ∈ u.xlt.posted, p.1 = ctx → p.2.1 < va + count * pageSize page → p.2.1 + pageSize p.2.2 ≤ va := by
  have hno : (!entHost e && !entShr e && t.hostHolds (entPa e) (count * pageSize page)) = false := by
    rcases hheld with h | h | h <;> simp [h]
  refine completes_live hl (exec_takes (t := (t.unpost ctx va (count * pageSize page)).advance 0 r) ht rfl
    fun k hkc hkr hkh hkp => ?_) ?_
  · rw [State.doMapRange, wellFormed_ok hkp (flags_zero hkh hf) (badList (by simp [hrange, hent]; omega)),
      onlyDriver_driver hkc, named_ok hst, hkc]
    simp only [hon, hclear, Bool.not_true, Bool.false_eq_true, if_false, hmap, hno]
    rw [fin_quiet (hkh ▸ hf) rfl, hkc, hkr]
  · exact ⟨advance_passed t 0 r, rfl, rfl, rfl, fun p hp => mem_unpost hp⟩

theorem unmapRange_unmaps (hl : s.Live) (ht : s.Takes 0 r h) (hf : h.flags = 0) {ctx page count va : Nat}
    (hctx : ctx < 1024) (hpage : page ≤ 2) (hrange : badRange page count va = false)
    (hst : (s.context ctx).st = .ready ∨ (s.context ctx).st = .running) :
    (s.xltOn = false → Completes (.unmapRange 0 r h ctx page count va) s fun u =>
      s.Passed u 0 r ∧ u.hdm = s.hdm ∧ u.xlt = s.xlt) ∧
    (∀ t, s.xltOn = true → s.rangeClear ctx page count va = true →
      s.unmapLeaves (s.ringUnit 0) ctx page count va = .inl t → Completes (.unmapRange 0 r h ctx page count va) s
        fun u => u.hdm = t.hdm ∧ ∀ e ∈ u.xlt.tlb, e.ctx = ctx → e.va < va + count * pageSize page →
          e.va + pageSize e.level ≤ va) := by
  have hrun {k : Cmd} (hkc : k.c = 0) (hkh : k.h = h) (hkp : k.pre = []) : s.doUnmapRange k ctx page count va =
      if !s.xltOn then s.fin k {}
      else if !s.rangeClear ctx page count va then s.fin k { status := ST_STATE_REJECT }
      else
        match s.unmapLeaves (s.ringUnit 0) ctx page count va with
        | .inr x => s.xltStop k x
        | .inl t => t.xltEnd k ctx va (count * pageSize page) := by
    rw [State.doUnmapRange, wellFormed_ok hkp (flags_zero hkh hf) (badList (by simp [hrange]; omega)),
      onlyDriver_driver hkc, named_ok hst, hkc] <;> rfl
  refine ⟨fun hoff => ?_, fun t hon hclear hun => ?_⟩
  · refine completes_live hl (exec_takes (t := s.advance 0 r) ht rfl fun k hkc hkr hkh hkp => ?_) ?_
    · rw [hrun hkc hkh hkp, if_pos (by simp [hoff]), fin_quiet (hkh ▸ hf) rfl, hkc, hkr]
    · exact ⟨advance_passed s 0 r, rfl, rfl⟩
  · have hkf : ({ c := 0, r := r, h := h } : Cmd).h.flags = 0 := hf
    obtain ⟨hhdm, htlb⟩ := xltEnd_flushed (s := t) hkf ctx va (count * pageSize page)
    refine completes_live hl (t := t.xltEnd { c := 0, r := r, h := h } ctx va (count * pageSize page)) ?_ ⟨hhdm, fun e he => ?_⟩
    · refine congrArg (doneLive s) ((arrive_takes ht _).trans ?_)
      rw [hrun rfl rfl rfl]
      simp only [hon, hclear, Bool.not_true, Bool.false_eq_true, if_false, hun]
    · exact (mem_flushTlb (htlb ▸ he :)).2

theorem invalidateXlt_flushes (hl : s.Live) (ht : s.Takes 0 r h) (hf : h.flags = 0) {ctx page count va : Nat}
    (hctx : ctx < 1024) (hpage : page ≤ 2) (hrange : badRange page count va = false)
    (hst : (s.context ctx).st = .ready ∨ (s.context ctx).st = .running) (hon : s.xltOn = true) (hfl : s.flights = [])
    (hw : s.waits = []) :
    (Completes (.invalidateXlt 0 r h ctx 0 page count va) s fun u =>
      s.Passed u 0 r ∧ u.hdm = s.hdm ∧ ∀ e ∈ u.xlt.tlb, e ∈ s.xlt.tlb ∧
        (e.ctx = ctx → e.va < va + count * pageSize page → e.va + pageSize e.level ≤ va)) ∧
    Completes (.invalidateXlt 0 r h ctx 1 page count va) s fun u =>
      s.Passed u 0 r ∧ ∀ e ∈ u.xlt.tlb, e.va < 2 ^ 57 → e.ctx ≠ ctx := by
  have hrun (sc : Nat) (hsc : sc ≤ 1) {k : Cmd} (hkc : k.c = 0) (hkr : k.r = r) (hkh : k.h = h) (hkp : k.pre = []) :
      s.doInvalidateXlt k ctx sc page count va =
        if sc = 1 then ((s.flushTlb ctx 0 (2 ^ 57)).unpost ctx 0 (2 ^ 57)).advance 0 r
        else ((s.flushTlb ctx va (count * pageSize page)).unpost ctx va (count * pageSize page)).advance 0 r := by
    rw [State.doInvalidateXlt, wellFormed_ok hkp (flags_zero hkh hf) (badList (by simp [hrange]; omega)),
      onlyDriver_driver hkc, named_ok hst, xltEnd_done (hkh ▸ hf) hfl hw, xltEnd_done (hkh ▸ hf) hfl hw, hkc, hkr,
      if_neg (by simp [hon])]
  constructor
  · refine completes_live hl (exec_takes ht rfl fun k hkc hkr hkh hkp =>
      (hrun 0 (by omega) hkc hkr hkh hkp).trans (if_neg (by decide))) ?_
    exact ⟨advance_passed (s.flushTlb ctx va (count * pageSize page)) 0 r, rfl, fun e he => mem_flushTlb he⟩
  · refine completes_live hl (exec_takes ht rfl fun k hkc hkr hkh hkp =>
      (hrun 1 (by omega) hkc hkr hkh hkp).trans (if_pos rfl)) ?_
    refine ⟨advance_passed (s.flushTlb ctx 0 (2 ^ 57)) 0 r, fun e he hva hc => ?_⟩
    have := (mem_flushTlb (s := s) he).2 hc (by omega)
    have hpos : 0 < pageSize e.level := Nat.two_pow_pos _
    omega

/-! ### Bias -/

/-- Bias bits as a list. -/
def State.withShr (s : State) (x : List Nat) : State := { s with basin := { s.basin with shr := x } }

theorem setShr_withShr (s : State) (f : Nat) (b : Bool) : s.setShr f b =
    s.withShr (if b then insertNat f s.basin.shr else s.basin.shr.filter (· ≠ f)) := rfl

/-- The frames of a range go to SHR. -/
theorem biasFrames_shr (a : Nat) (l : List Nat) (s : State) : ∃ x,
    l.foldl (fun s i => s.biasFrame (a + i) true) s = s.withShr x ∧ ∀ f, f ∈ x ↔ f ∈ s.basin.shr ∨ ∃ i ∈ l, f = a + i := by
  induction l generalizing s with
  | nil => exact ⟨s.basin.shr, rfl, by simp⟩
  | cons i l ih =>
    obtain ⟨x, hx, hmem⟩ := ih (s.biasFrame (a + i) true)
    refine ⟨x, hx, fun f => (hmem f).trans ?_⟩
    have hstep : f ∈ (s.biasFrame (a + i) true).basin.shr ↔ f ∈ s.basin.shr ∨ f = a + i :=
      mem_insertNat.trans or_comm
    rw [hstep]
    simp only [List.mem_cons, exists_eq_or_imp, or_assoc]

/-- The frames of a range of which the host holds no line go to DEV. -/
theorem biasFrames_dev (a : Nat) (l : List Nat) (s : State)
    (hheld : ∀ i ∈ l, s.hostHeld (fun x => x / 4096 == a + i) = []) : ∃ x,
    l.foldl (fun s i => s.biasFrame (a + i) false) s = s.withShr x ∧ ∀ f, f ∈ x ↔ f ∈ s.basin.shr ∧ ¬∃ i ∈ l, f = a + i := by
  induction l generalizing s with
  | nil => exact ⟨s.basin.shr, rfl, by simp⟩
  | cons i l ih =>
    have hstep : s.biasFrame (a + i) false = s.setShr (a + i) false := by
      rw [State.biasFrame, if_neg Bool.false_ne_true, hheld i List.mem_cons_self]
    obtain ⟨x, hx, hmem⟩ := ih (s.setShr (a + i) false) fun j hj => hheld j (List.mem_cons_of_mem _ hj)
    refine ⟨x, by rw [List.foldl_cons, hstep, hx] <;> rfl, fun f => (hmem f).trans ?_⟩
    have hset : f ∈ (s.setShr (a + i) false).basin.shr ↔ f ∈ s.basin.shr ∧ f ≠ a + i := by
      rw [setShr_withShr]
      simp [State.withShr]
    rw [hset]
    simp only [List.mem_cons, exists_eq_or_imp, not_or, and_assoc, ne_eq]

theorem setBias_effect (hl : s.Live) (ht : s.Takes 0 r h) (hf : h.flags = 0) {n dpa : Nat} (hal : dpa % 4096 = 0)
    (hin : dpa + 4096 * n ≤ s.hdmSize) :
    (Completes (.setBias 0 r h 1 n dpa) s fun u =>
      s.Passed u 0 r ∧ (∀ f, f ∈ u.basin.shr ↔ f ∈ s.basin.shr ∨ (dpa / 4096 ≤ f ∧ f < dpa / 4096 + n)) ∧
      u.hdm = s.hdm) ∧
    (s.hostHolds dpa (4096 * n) = false → Completes (.setBias 0 r h 0 n dpa) s fun u =>
      s.Passed u 0 r ∧ (∀ f, f ∈ u.basin.shr ↔ f ∈ s.basin.shr ∧ ¬(dpa / 4096 ≤ f ∧ f < dpa / 4096 + n)) ∧
      u.hdm = s.hdm) := by
  have hrange (f : Nat) : (∃ i ∈ List.range n, f = dpa / 4096 + i) ↔ dpa / 4096 ≤ f ∧ f < dpa / 4096 + n := by
    simp only [List.mem_range]
    exact ⟨by rintro ⟨i, hi, rfl⟩; omega, fun h => ⟨f - dpa / 4096, by omega, by omega⟩⟩
  have hrun (b : Nat) (hb : b ≤ 1) (x : List Nat) (hfold : (List.range n).foldl (fun s i =>
      s.biasFrame (dpa / 4096 + i) (b == 1)) s = s.withShr x) (hno : ¬(b = 0 ∧ (s.withShr x).hostHolds dpa (4096 * n) = true)) :
      exec (.setBias 0 r h b n dpa) s = doneLive s ((s.withShr x).advance 0 r) :=
    exec_takes ht rfl fun k hkc hkr hkh hkp => by
      rw [State.doSetBias, wellFormed_ok hkp (flags_zero hkh hf) (badList (by simp [hal]; omega)), onlyDriver_driver hkc]
      dsimp only
      rw [hfold, if_neg hno, fin_quiet (hkh ▸ hf) rfl, hkc, hkr]
  refine ⟨?_, fun hheld => ?_⟩
  · obtain ⟨x, hfold, hmem⟩ := biasFrames_shr (dpa / 4096) (List.range n) s
    refine completes_live hl (hrun 1 (by omega) x hfold (by simp)) ⟨advance_passed (s.withShr x) 0 r, fun f => ?_, rfl⟩
    exact (hmem f).trans (by rw [hrange])
  · have hnone (i : Nat) (hi : i ∈ List.range n) : s.hostHeld (fun x => x / 4096 == dpa / 4096 + i) = [] := by
      have hall : (s.hostHeld fun a => decide (dpa ≤ a) && decide (a < dpa + 4096 * n)) = [] := by
        simpa [State.hostHolds] using hheld
      simp only [State.hostHeld, List.map_eq_nil_iff, List.filter_eq_nil_iff, Bool.and_eq_true, decide_eq_true_eq,
        beq_iff_eq, not_and] at hall ⊢
      intro l hl' hh hp
      have := hall l hl' hh
      have hi' := List.mem_range.1 hi
      omega
    obtain ⟨x, hfold, hmem⟩ := biasFrames_dev (dpa / 4096) (List.range n) s hnone
    have hkeep : (s.withShr x).hostHolds dpa (4096 * n) = false := hheld
    refine completes_live hl (hrun 0 (by omega) x hfold (by simp [hkeep])) ⟨advance_passed (s.withShr x) 0 r, fun f => ?_, rfl⟩
    exact (hmem f).trans (by rw [hrange])

/-! ### Maintenance and the lease -/

theorem maint_enters (hl : s.Live) (ht : s.Takes 0 r h) (hf : h.flags = 0) {op space ctx addr n : Nat} (hop : op ≤ 4)
    (hsp : space ≤ 2) (hctx : ctx < 1024) (hal : addr % 64 = 0) (hn : n % 64 = 0) (hpos : 0 < n) (hmax : n ≤ 2 ^ 40) :
    (s.basin.queue.length < 8 → exec (.maint 0 r h op space ctx addr n) s = .next (({ s with
      basin := { s.basin with queue := s.basin.queue ++ [{ op := op, space_ := space, ctx := ctx, addr := addr,
                                                           len := n, ring := some (0, r) }] }
      waits := s.waits ++ [waitOfCmd 0 r h .maint] } : State).seal s)) ∧
    (8 ≤ s.basin.queue.length → exec (.maint 0 r h op space ctx addr n) s = .next (({ s with
      waits := s.waits ++ [waitOfCmd 0 r h (.maintFull op space ctx addr n)] } : State).seal s)) := by
  have hbad {k : Cmd} (hkc : k.c = 0) : ([(decide (4 < op), 0x08), (decide (2 < space), 0x09),
      (k.c == 0 && decide (1024 ≤ ctx), 0x0A), (decide (addr % 64 ≠ 0), 0x10),
      (decide (n % 64 ≠ 0) || badLength n, 0x18)] : List (Bool × Nat)).any Prod.fst = false := by
    simp [hkc, badLength, hal, hn]
    omega
  have hrun {t : State} (hq : ∀ k : Cmd, k.c = 0 → k.r = r → k.h = h →
      (if s.basin.queue.length < 8 then
        ({ s with basin := { s.basin with queue := s.basin.queue ++ [{ op := op, space_ := space, ctx := ctx, addr := addr,
                                                                       len := n, ring := some (k.c, k.r) }] } } : State).await k .maint
       else s.await k (.maintFull op space ctx addr n)) = t) :
      exec (.maint 0 r h op space ctx addr n) s = .next (t.seal s) := by
    refine (exec_takes ht rfl fun k hkc hkr hkh hkp => ?_).trans (doneLive_of_live hl t)
    rw [State.doMaint, wellFormed_ok hkp (flags_zero hkh hf) (badList (hbad hkc)), if_neg (fun hd => hd.1 hkc)]
    dsimp only
    rw [if_pos hkc]
    exact hq k hkc hkr hkh
  refine ⟨fun hq => hrun fun k hkc hkr hkh => ?_, fun hq => hrun fun k hkc hkr hkh => ?_⟩
  · rw [if_pos hq, State.await, hkc, hkr, hkh] <;> rfl
  · rw [if_neg (by omega), State.await, hkc, hkr, hkh] <;> rfl

/-- The lease that a request of so many watts makes. -/
def leaseOf (now w us : Nat) : Option Lease := if w = 0 then none else some { watts := w, start := now, dur := 1000 * us }

theorem setLease_effect (s : State) (w us : Nat) : (s.setLease false w us).contexts = s.contexts ∧
    (s.setLease false w us).power = { s.power with drv := leaseOf s.ww.time w us } ∧ (s.setLease false w us).bit IRQ_PEND 5 = true := by
  refine ⟨(irq_kept _ 5).contexts, (irq_kept _ 5).power.trans rfl, irq_pending _ (by decide)⟩

theorem setPowerLease_grants (hl : s.Live) (ht : s.Takes 0 r h) (hf : h.flags = 0) {w us : Nat}
    (hok : leaseOk w 1 = true) (hus : w ≠ 0 → us ≠ 0) : Completes (.setPowerLease 0 r h w us) s fun u =>
      s.Passed u 0 r ∧ u.power = { s.power with drv := leaseOf s.ww.time w us } ∧ u.bit IRQ_PEND 5 = true := by
  obtain ⟨hctx, hpow, hirq⟩ := setLease_effect s w us
  have hfuses : (s.setLease false w us).fuses = s.fuses := (irq_kept _ 5).fuses
  have hbad : ([(!leaseOk w 1, 0x08), (decide (w ≠ 0) && decide (us = 0), 0x0C)] : List (Bool × Nat)).any Prod.fst = false := by
    simp only [List.any_cons, hok, Bool.not_true, List.any_nil, Bool.or_false, Bool.false_or, Bool.and_eq_false_iff,
      decide_eq_false_iff_not]
    exact (Decidable.em (w = 0)).imp (fun h h' => h' h) hus
  refine completes_live hl (exec_takes (t := (s.setLease false w us).advance 0 r) ht rfl fun k hkc hkr hkh hkp => ?_) ⟨?_, hpow, ?_⟩
  · rw [State.doSetPowerLease, wellFormed_ok hkp (flags_zero hkh hf) (badList hbad), onlyDriver_driver hkc,
      fin_quiet (hkh ▸ hf) rfl, hkc, hkr]
  · have := advance_passed (s.setLease false w us) 0 r
    rwa [State.Passed, ring_of_contexts hctx] at this
  · exact (seal_bit hfuses ..).trans hirq

/-! ### Teardown -/

/-- A context as step 1 of its teardown leaves it. -/
def Context.torn (x : Context) : Context :=
  { x with st := .teardown
           rings := x.rings.map fun e => (e.1, if e.1 < 8 ∧ e.2.enable then { e.2 with mode := RingMode.stopped } else e.2) }

theorem tearStop_idle (hw : s.waits = []) (ctx : Nat) : s.tearStop ctx = s.setContext ctx (s.context ctx).torn :=
  abortWaits_none (s := s.setContext ctx (s.context ctx).torn) hw _ _

/-- Contexts and waits as they are, for the memory side. -/
theorem still_memStable (c : SMap Context) (w : List Wait) (f : Fuses) :
    MemStable fun s => s.contexts = c ∧ s.waits = w ∧ s.fuses = f where
  fault m _ h := ⟨(fault_kept _ m).contexts.trans h.1, (fault_kept _ m).waits.trans h.2.1, (fault_kept _ m).fuses.trans h.2.2⟩
  reg _ _ h := h
  stack _ h := h
  lk _ _ h := h
  basin _ h := h
  port _ h := h
  hdm _ h := h
  host _ h := h
  emit _ h := h

/-- The cached leaves as they are, for the memory side. -/
theorem tlb_memStable (l : List TlbEntry) : MemStable fun s => s.xlt.tlb = l where
  fault m _ h := (congrArg Xlt.tlb (fault_kept _ m).xlt).trans h
  reg _ _ h := h
  stack _ h := h
  lk _ _ h := h
  basin _ h := h
  port _ h := h
  hdm _ h := h
  host _ h := h
  emit _ h := h

/-- A property that translation does not touch either outlives the end of a context's translations. -/
theorem dropContextXlt_stable {P : State → Prop} (hP : MemStable P) (hx : ∀ {s} (x : Xlt), P s → P { s with xlt := x })
    (h : P s) (ctx : Nat) : P (s.dropContextXlt ctx) :=
  hx _ (of_ite (hP.ncWrite (of_foldl P (fun _ _ ht => hx _ (hP.markRead ht _ _ _)) _ h) _ _ _ _ _) h)

theorem dropContextXlt_tlb {ctx : Nat} {e : TlbEntry} (h : e ∈ (s.dropContextXlt ctx).xlt.tlb) : e.ctx ≠ ctx :=
  of_decide_eq_true (List.mem_filter.1 h).2

theorem dropWatches_stable {P : State → Prop} (hP : MemStable P) (h : P s) (las : List Nat) :
    P (las.foldl (fun s la => s.dropWatch true la) s) := of_foldl P (fun _ _ ht => hP.dropWatch ht _ _) las h

/-- The end of a teardown that finds neither flights nor objects. -/
theorem tearEnd_idle (hfl : s.flights = []) (hobj : s.objCount = 0) (ctx : Nat) : ∃ t : State, s.tearEnd ctx = (t, 0) ∧
    t.context ctx = {} ∧ (∀ j, j ≠ ctx → t.context j = s.context j) ∧ t.waits = s.waits ∧ t.fuses = s.fuses ∧
      ∀ e ∈ t.xlt.tlb, e.ctx ≠ ctx := by
  have hload : s.loadedBy ctx = [] := by simp [State.loadedBy, hfl]
  have hend : s.tearEnd ctx = ((((s.dropContextXlt ctx).context ctx).rings.filter fun e => e.2.watch).map (fun e => lineOf e.2.db)
      |>.foldl (fun s la => s.dropWatch true la) ((s.dropContextXlt ctx).setContext ctx {}), 0) := by
    unfold State.tearEnd
    dsimp only
    rw [hload, List.foldl_nil, hobj] <;> rfl
  obtain ⟨hc, hw, hf⟩ := dropContextXlt_stable (s := s) (still_memStable s.contexts s.waits s.fuses) (fun _ h => h) ⟨rfl, rfl, rfl⟩ ctx
  have hmem : ∀ e ∈ (s.dropContextXlt ctx).xlt.tlb, e.ctx ≠ ctx := fun e he => dropContextXlt_tlb he
  refine ⟨_, hend, ?_⟩
  generalize s.dropContextXlt ctx = d at *
  generalize ((d.context ctx).rings.filter fun e => e.2.watch).map (fun e => lineOf e.2.db) = las
  have hdrop := dropWatches_stable (still_memStable (d.setContext ctx {}).contexts s.waits s.fuses)
    (s := d.setContext ctx {}) ⟨rfl, hw, hf⟩ las
  have htlb := dropWatches_stable (tlb_memStable d.xlt.tlb) (s := d.setContext ctx {}) rfl las
  obtain ⟨hctx, hwaits, hfuses⟩ := hdrop
  refine ⟨?_, fun j hj => ?_, hwaits, hfuses, fun e he => hmem e (htlb ▸ he)⟩
  · rw [context_of_contexts hctx, State.context_setContext_self]
  · rw [context_of_contexts hctx, State.context_setContext_of_ne hj, context_of_contexts hc]

/-- The wait of a teardown ends without a record. -/
theorem finish_teardown {t : State} {w : Wait} {ctx st n m : Nat} (ht : t.waits = [w]) (hk : w.kind = .teardown ctx st n m)
    (hf : w.flags = 0) {f : Fin} (hs : f.status = 0) :
    t.finish w f = ({ t with waits := [] } : State).advance w.ctx w.ring := by
  have hnil : t.waits.filter (· ≠ w) = [] := by simp [ht]
  have hend : ({ t with waits := [] } : State).endWatch w = { t with waits := [] } := by
    unfold State.endWatch
    rw [hk]
  rw [State.finish, hnil, hend, hf, endCmd_quiet (wantsRecord_quiet hs)]

/-- A teardown that nothing holds up ends as it is looked at. -/
theorem settleTeardown_done {v : State} {w : Wait} {ctx : Nat} (hw : v.waits = [w]) (hk : w.kind = .teardown ctx 1 0 0)
    (hf : w.flags = 0) (hc : w.ctx ≠ ctx) (hfl : v.flights = []) (hobj : v.objCount = 0) :
    ∃ t : State, v.settleTeardown false = ({ t with waits := [] } : State).advance w.ctx w.ring ∧ t.context ctx = {} ∧
      (∀ j, j ≠ ctx → t.context j = v.context j) ∧ t.fuses = v.fuses ∧ ∀ e ∈ t.xlt.tlb, e.ctx ≠ ctx := by
  have hready : v.tearReady ctx = true := by simp [State.tearReady, State.slotsOfCtx, State.ctxBusy, hfl, hw, hc]
  obtain ⟨t, hend, hctx, hother, hwaits, hfuses, htlb⟩ := tearEnd_idle hfl hobj ctx
  refine ⟨t, ?_, hctx, hother, hfuses, htlb⟩
  rw [State.settleTeardown, hw, List.foldl_cons, List.foldl_nil, State.tearStep, hk]
  dsimp only
  rw [if_neg (by decide), if_pos hready, hend]
  exact finish_teardown (hwaits.trans hw) hk hf rfl

/-- A teardown that finds nothing of its context at work ends at once. -/
theorem doTeardown_idle (hk : k.pre = []) (hf : k.h.flags = 0) (hc : k.c = 0) {ctx : Nat} (hpos : 0 < ctx) (hlt : ctx < 1024)
    (hst : (s.context ctx).st = .ready) (hfl : s.flights = []) (hw : s.waits = []) (hobj : s.objCount = 0) :
    ∃ t : State, s.doTeardown k ctx = ({ t with waits := [] } : State).advance 0 k.r ∧ t.context ctx = {} ∧
      (∀ j, j ≠ ctx → t.context j = s.context j) ∧ t.fuses = s.fuses ∧ ∀ e ∈ t.xlt.tlb, e.ctx ≠ ctx := by
  generalize hy : s.setContext ctx (s.context ctx).torn = y
  have hstop : s.tearStop ctx = y := by rw [tearStop_idle hw, hy]
  have hyfl : y.flights = [] := hy ▸ hfl
  have hyw : y.waits = [] := hy ▸ hw
  have hother (j : Nat) (hj : j ≠ ctx) : y.context j = s.context j := hy ▸ State.context_setContext_of_ne hj ..
  have hslots : y.slotsOfCtx ctx = [] := by simp [State.slotsOfCtx, hyfl]
  have hload : y.loadedBy ctx = [] := by simp [State.loadedBy, hyfl]
  obtain ⟨t, hset, hctx, htother, hfuses, htlb⟩ := settleTeardown_done (v := y.await k (.teardown ctx 1 0 0))
    (w := { ctx := k.c, ring := k.r, seq := k.h.seq, flags := k.h.flags, kind := .teardown ctx 1 0 0 }) (ctx := ctx)
    (by rw [State.await, hyw] <;> rfl) rfl hf (by rw [hc]; exact hpos.ne) hyfl (hy ▸ hobj)
  refine ⟨t, ?_, hctx, fun j hj => (htother j hj).trans (hother j hj), hfuses.trans (hy ▸ rfl), htlb⟩
  rw [State.doTeardown, wellFormed_ok hk (by rw [hf]) (badList (by simp; omega)), onlyDriver_driver hc]
  dsimp only
  rw [if_neg (by omega), named_ok (.inl hst)]
  rw [hstop, hslots]
  simp only [List.filter_nil, List.foldl_nil, List.isEmpty_nil, if_true, hload, State.tearHalt, hslots, List.length_nil]
  rw [hset, hc]

/-- A running flight holds its context's teardown up until it has moored. -/
theorem doTeardown_moors (hk : k.pre = []) (hf : k.h.flags = 0) (hc : k.c = 0) {ctx : Nat} (hpos : 0 < ctx) (hlt : ctx < 1024)
    (hst : (s.context ctx).st = .ready) {i : Nat} (hctx : (s.flight i).ctx = ctx) (hrun : (s.flight i).st = .running) :
    ((s.doTeardown k ctx).context ctx).st = .teardown ∧
      ({ ctx := k.c, ring := k.r, seq := k.h.seq, flags := k.h.flags, kind := .teardown ctx 0 0 0 } : Wait) ∈
        (s.doTeardown k ctx).waits := by
  have hstop : ((s.tearStop ctx).context ctx).st = .teardown :=
    (contextState_ringStable ctx .teardown).abortWaits (congrArg Context.st (State.context_setContext_self ..)) _ _
  have hflight := (flightState_ringStable i ctx .running).abortWaits (s := s.setContext ctx (s.context ctx).torn)
    ⟨hctx, hrun⟩ (fun w => w.ctx == ctx && w.kind.aborts) { status := ST_CONTEXT_ABORTED }
  have hflight' : ((s.tearStop ctx).flight i).ctx = ctx ∧ ((s.tearStop ctx).flight i).st = .running := hflight
  generalize hv : s.tearStop ctx = v at *
  have hslot : i ∈ (v.slotsOfCtx ctx).filter fun i => decide ((v.flight i).st = .running) := by
    refine List.mem_filter.2 ⟨List.mem_map.2 ⟨(i, v.flight i), List.mem_filter.2 ⟨mem_of_sget rfl ?_, ?_⟩, rfl⟩, by simp [hflight'.2]⟩
    · exact bound_ne_default (by rw [hflight'.2]; rfl)
    · simp [hflight'.1, hflight'.2, FState.bound_]
  have horder (l : List Nat) : ((l.foldl (fun s i => s.orderTag (s.flight i).tag fun t => { t with moor := true }) v).context
      ctx).st = .teardown :=
    of_foldl (fun s => (s.context ctx).st = .teardown) (fun t j ht => ((order_kept t _).context ctx).symm ▸ ht) l hstop
  have hset (l : List Nat) (t : State) (ht : (t.context ctx).st = .teardown) : ((l.foldl (fun s i =>
      if (s.flight i).st = .loaded ∧ (s.flight i).binding.isNone then s.setFlight i {} else s) t).context ctx).st = .teardown :=
    of_foldl (fun s => (s.context ctx).st = .teardown) (fun t j ht => by split <;> exact ht) l ht
  rw [State.doTeardown, wellFormed_ok hk (by rw [hf]) (badList (by simp; omega)), onlyDriver_driver hc]
  dsimp only
  rw [if_neg (by omega), named_ok (.inl hst)]
  rw [hv, if_neg (by simp; exact ⟨i, by simpa using hslot⟩)]
  exact ⟨hset _ _ (horder _), List.mem_append_right _ (List.mem_singleton.2 rfl)⟩

end Sys2Proof.Machine

/-- Settles O44, a command at a time: each passes the checks that the hypotheses decide and has the one effect left. -/
theorem driverRingCommands : Obligations.DriverRingCommands := by
  refine fun s c r h hl => ⟨doneLive_of_live hl _, xltEnable_effect hl, fun hoff hp => ?_, doneLive_of_live hl _, fun ht hf =>
    ⟨fun hc ho => deniedClauses hl ht hf hc ho, ?_⟩⟩
  · refine (congrArg (doneLive s) ?_).trans (doneLive_of_live hl _)
    rw [State.xltEnable, if_neg (by simp [hoff]), if_pos (by simp [hp])]
  rintro rfl
  refine ⟨fun ctx page count va e t hctx hpage hrange hent hst hon hclear hmap hheld =>
      mapRange_maps hl ht hf hctx hpage hrange hent hst hon hclear hmap hheld,
    fun ctx page count va hctx hpage hrange hst => ?_, fun n dpa hal hin => setBias_effect hl ht hf hal hin,
    fun op space ctx addr n hop hsp hctx hal hn hpos hmax => maint_enters hl ht hf hop hsp hctx hal hn hpos hmax,
    fun w us h1 h2 h3 => ?_, fun us => ?_, fun ctx hpos hlt hst => ⟨fun hfl hw hobj => ?_, fun k f hk hctx hrun => ?_⟩⟩
  · obtain ⟨hoff, hmap⟩ := unmapRange_unmaps hl ht hf hctx hpage hrange hst
    exact ⟨hoff, hmap, fun hon hfl hw => invalidateXlt_flushes hl ht hf hctx hpage hrange hst hon hfl hw⟩
  · have := setPowerLease_grants hl ht hf (w := w) (us := us) (by simp [leaseOk]; omega) (by omega)
    rwa [leaseOf, if_neg (by omega)] at this
  · obtain ⟨u, hu, hpass, hpow, -⟩ := setPowerLease_grants hl ht hf (w := 0) (us := us) (by simp [leaseOk]) (by omega)
    exact ⟨u, hu, hpass, hpow⟩
  · obtain ⟨t, hrun, hnone, hother, hfuses, htlb⟩ := doTeardown_idle (k := { c := 0, r := r, h := h }) rfl hf rfl hpos hlt hst hfl
      hw hobj
    refine completes_live hl (congrArg (doneLive s) ((arrive_takes ht _).trans hrun)) ⟨?_, ?_, htlb, rfl⟩
    · have hring : t.ring 0 r = s.ring 0 r := by rw [State.ring, State.ring, hother 0 hpos.ne]
      have := advance_passed ({ t with waits := [] } : State) 0 r
      have hring' : ({ t with waits := [] } : State).ring 0 r = s.ring 0 r := hring
      rwa [State.Passed, hring'] at this
    · exact (State.context_setContext_of_ne hpos.ne' ({ t with waits := [] } : State) _).trans hnone
  · have hfl : s.flight k = f := sget_of_sfind hk _
    obtain ⟨hst', hmem⟩ := doTeardown_moors (k := { c := 0, r := r, h := h }) (s := s) rfl hf rfl hpos hlt hst (hfl ▸ hctx) (hfl ▸ hrun)
    exact completes_live hl (congrArg (doneLive s) (arrive_takes ht _)) ⟨hst', hmem⟩

end

section
/-! SUPPORT. What the end of a command keeps (R485, R489, R500, R607): a property that faults, memory, rings and the collector
do not touch outlives a command's record, the abort of a context and the halt of the device. -/

open Sys2Proof Sys2Proof.Machine

namespace Sys2Proof.Machine

/-- A property that contexts, the collector, gate orders and the order to halt a bind do not touch either. -/
structure EndStable (P : State → Prop) : Prop extends RingStable P where
  contexts : ∀ {s} (x : SMap Context), P s → P { s with contexts := x }
  flt      : ∀ {s} (x : Collector), P s → P { s with flt := x }
  order    : ∀ {s} (f : Gate → Gate), P s → P (s.order f)
  haltBind : ∀ {s} (k : Nat) (b : Bool), P s → P (s.modFlight k fun f => { f with haltAtBind := some b })

namespace EndStable
variable {P : State → Prop} {s : State} (hP : EndStable P) (h : P s)
include hP h

theorem react (r : Reaction) : P (s.react r) := of_ite h (hP.flt _ h)

theorem haltFault : P s.haltFault := by
  have hreact := hP.react (hP.flt { s.flt with halted := true } h) .deviceHalt
  rw [State.haltFault, State.ownFaultBit]
  exact hP.order _ hreact

theorem haltOrder (k : Nat) (b : Bool) : P (s.haltOrder k b) := by
  have hbind : P (if (s.flight k).binding.isSome then s.modFlight k fun f => { f with haltAtBind := some b } else s) :=
    of_ite (hP.haltBind k b h) h
  rw [State.haltOrder, State.orderTag]
  exact hP.order _ hbind

theorem haltRings : P s.haltRings := hP.setBit (hP.abortWaits (hP.contexts _ h) _ _) _ _ (by decide)

theorem abortContext (c : Nat) : P (s.abortContext c) :=
  of_ite (hP.haltRings (hP.haltFault h)) (of_ite
    (of_foldl P (fun _ _ ht => hP.haltOrder ht _ _) _ (hP.abortWaits (hP.contexts _ h) _ _)) h)

theorem drainAborts : P s.drainAborts := by
  have hall := of_foldl P (f := State.abortContext) (fun _ _ ht => hP.abortContext ht _) s.flt.ctxAborts (hP.flt { s.flt with ctxAborts := [] } h)
  exact of_ite (hP.haltRings hall) hall

theorem ctxFault (c : Nat) : P (s.ctxFault c) :=
  of_ite (of_ite h (hP.haltRings (hP.fault (msgOf K_DEVICE_HALT 0 0) (msgOf_cls K_DEVICE_HALT 0 0) h)))
    (of_ite (hP.flt _ (hP.abortContext (hP.fault (msgOf K_CTX_ABORT 10 c) (msgOf_cls K_CTX_ABORT 10 c) h) _)) h)

theorem post (c r seq flags : Nat) (f : Fin) : P (s.post c r seq flags f) :=
  of_ite (hP.tryRecord h _ _) (hP.ctxFault (hP.tryRecord h _ _) _)

theorem endCmd (c r seq flags : Nat) (f : Fin) : P (s.endCmd c r seq flags f) :=
  of_ite (hP.post (hP.advance h _ _) _ _ _ _ _) (hP.advance h _ _)

/-- A wait ends. -/
theorem finish (w : Wait) (f : Fin) : P (s.finish w f) := hP.endCmd (hP.endWatch (hP.waits _ h) _) _ _ _ _ _

end EndStable

/-- A flight's state and its number of deferred starts, and the tiles, are no business of the end of a command; FATAL it stays. -/
theorem flight_endStable (k : Nat) (Q : Flight → Prop)
    (hfatal : ∀ f x, (f.fatal.isSome = true → x.isSome = true) → Q f → Q { f with fatal := x })
    (hhalt : ∀ f b, Q f → Q { f with haltAtBind := b }) : EndStable fun s => Q (s.flight k) where
  fault m _ h := by
    obtain ⟨x, hx, hf⟩ := (fault_sameRuns _ m).flight k
    exact hx ▸ hfatal _ x hf h
  reg _ _ h := h
  stack _ h := h
  lk _ _ h := h
  basin _ h := h
  port _ h := h
  hdm _ h := h
  host _ h := h
  emit _ h := h
  ring _ _ _ h := h
  waits _ h := h
  contexts _ h := h
  flt _ h := h
  order f h := by
    rw [State.flight, order_flights]
    exact h
  haltBind j b h := by
    rw [State.modFlight, State.flight_setFlight]
    split
    · next he => exact he ▸ hhalt _ _ h
    · exact h

theorem tiles_endStable (T : SMap Tile) : EndStable fun s => s.tiles = T where
  fault m _ h := (fault_kept _ m).tiles.trans h
  reg _ _ h := h
  stack _ h := h
  lk _ _ h := h
  basin _ h := h
  port _ h := h
  hdm _ h := h
  host _ h := h
  emit _ h := h
  ring _ _ _ h := h
  waits _ h := h
  contexts _ h := h
  flt _ h := h
  order f h := (order_kept _ f).tiles.trans h
  haltBind _ _ h := h

/-- No command's end makes a command wait. -/
theorem waits_endStable (Q : Wait → Prop) : EndStable fun s => ∀ w ∈ s.waits, Q w where
  fault m _ h := by
    rw [(fault_kept _ m).waits]
    exact h
  reg _ _ h := h
  stack _ h := h
  lk _ _ h := h
  basin _ h := h
  port _ h := h
  hdm _ h := h
  host _ h := h
  emit _ h := h
  ring _ _ _ h := h
  waits p h := fun w hw => h w (List.mem_filter.1 hw).1
  contexts _ h := h
  flt _ h := h
  order f h := by
    rw [(order_kept _ f).waits]
    exact h
  haltBind _ _ h := h

theorem finish_waits {s : State} {a w : Wait} {f : Fin} (h : w ∈ (s.finish a f).waits) : w ∈ s.waits ∧ w ≠ a := by
  have hP := waits_endStable fun v => v ∈ s.waits ∧ v ≠ a
  have hleft : ∀ v ∈ ({ s with waits := s.waits.filter (· ≠ a) } : State).waits, v ∈ s.waits ∧ v ≠ a := fun v hv =>
    ⟨(List.mem_filter.1 hv).1, of_decide_eq_true (List.mem_filter.1 hv).2⟩
  exact hP.endCmd (hP.endWatch hleft a) _ _ _ _ _ w h

/-- One wait, ended where a function says so. -/
def State.finishOne (f : WaitKind → Option Fin) (s : State) (w : Wait) : State :=
  match f w.kind with
  | some x => s.finish w x
  | none => s

theorem finishOne_waits {s : State} {f : WaitKind → Option Fin} {a w : Wait} (h : w ∈ (s.finishOne f a).waits) :
    w ∈ s.waits ∧ (w = a → f w.kind = none) := by
  unfold State.finishOne at h
  split at h
  · exact ⟨(finish_waits h).1, fun he => absurd he (finish_waits h).2⟩
  · next hk => exact ⟨h, fun he => he ▸ hk⟩

/-- Waits of a kind that all end: none of them is left. -/
theorem finishWaits_ends (s : State) (f : WaitKind → Option Fin) : ∀ w ∈ (s.finishWaits f).waits, f w.kind = none := by
  have hfold : ∀ (l : List Wait) (t : State), ∀ w ∈ (l.foldl (State.finishOne f) t).waits, w ∈ t.waits ∧ (w ∈ l → f w.kind = none) := by
    intro l
    induction l with
    | nil => exact fun t w hw => ⟨hw, fun h => absurd h List.not_mem_nil⟩
    | cons a l ih =>
      intro t w hw
      obtain ⟨hin, hend⟩ := ih _ w hw
      obtain ⟨hold, hself⟩ := finishOne_waits hin
      exact ⟨hold, fun h => (List.mem_cons.1 h).elim hself hend⟩
  intro w hw
  obtain ⟨hin, hend⟩ := hfold s.waits s w hw
  exact hend hin

theorem finishWaits_stable {P : State → Prop} (hP : EndStable P) {s : State} (h : P s) (f : WaitKind → Option Fin) : P (s.finishWaits f) := by
  refine of_foldl P (f := State.finishOne f) (fun t w ht => ?_) s.waits h
  unfold State.finishOne
  split
  · exact hP.finish ht _ _
  · exact ht

end Sys2Proof.Machine
end

section
/-! Flights (R229 to R247, R297): the commands of a ring that load, bind, run, moor, resume and halt one, and the events that
end their work. -/

open Sys2Proof Sys2Proof.Machine

namespace Sys2Proof.Machine
variable {s : State} {c r : Nat} {h : DescHdr} {k : Cmd}

/-! ### The flight that a command names -/

theorem ofFlight_ok {slot : Nat} {legal : Flight → Bool} (hc : (s.flight slot).ctx = k.c ∨ k.c = 0)
    (hlegal : legal (s.flight slot) = true) (act : State → State) : s.ofFlight k slot legal act = act s := by
  have hden : ¬((s.flight slot).used ∧ (s.flight slot).ctx ≠ k.c ∧ k.c ≠ 0) := fun h => hc.elim h.2.1 h.2.2
  simp only [State.ofFlight, if_neg hden, hlegal, Bool.not_true, Bool.false_eq_true, if_false]

theorem ofFlight_reject {slot : Nat} {legal : Flight → Bool} (hc : (s.flight slot).ctx = k.c ∨ k.c = 0)
    (hlegal : legal (s.flight slot) = false) (act : State → State) :
    s.ofFlight k slot legal act = s.fin k { status := ST_STATE_REJECT } := by
  have hden : ¬((s.flight slot).used ∧ (s.flight slot).ctx ≠ k.c ∧ k.c ≠ 0) := fun h => hc.elim h.2.1 h.2.2
  simp only [State.ofFlight, if_neg hden, hlegal, Bool.not_false, if_true]

theorem at_of {f : Flight} {l : List FState} (hst : f.st ∈ l) (hb : f.binding = none) : f.at_ l = true := by
  simp [Flight.at_, hst, hb]

theorem at_false {f : Flight} {l : List FState} (hst : f.st ∉ l) : f.at_ l = false := by
  simp [Flight.at_, hst]

theorem byteSlot {slot : Nat} (hs : slot < 256) : badByte slot = false := by simp [badByte, hs]

/-- What the end of a command with a record leaves of the flights, the tiles and the gate's orders. -/
theorem fin_still (hr : k.r < 8) (ho : s.CplOpen k.c) {f : Fin} (hs : f.status ≠ 0) :
    (s.fin k f).flights = s.flights ∧ (s.fin k f).gate = s.gate ∧ (s.fin k f).tiles = s.tiles := by
  have hfin : s.fin k f = (s.advance k.c k.r).recordPut k.c ((s.advance k.c k.r).recordBytes k.r k.h.seq f) := by
    rw [State.fin, State.endCmd, if_pos (wantsRecord_status hs), post_open (advance_cplOpen hr ho)]
  rw [hfin]
  exact ⟨rfl, rfl, rfl⟩

/-- A refused command of a flight. -/
theorem refused_still {i : Instr} {act : State → Cmd → State} (hl : s.Live) (ht : s.Takes c r h) (ho : s.CplOpen c)
    (hi : exec i s = doneLive s (s.arrive c r h act)) {f : Fin} (hs : f.status ≠ 0)
    (hact : act s { c := c, r := r, h := h } = s.fin { c := c, r := r, h := h } f) : Completes i s fun u =>
      s.Posts u c r h.seq f ∧ u.flights = s.flights ∧ u.gate = s.gate := by
  have hr := (takes_ring ht).1
  obtain ⟨hfl, hg, -⟩ := fin_still (k := { c := c, r := r, h := h }) hr ho hs
  exact completes_live hl (by rw [hi, arrive_takes ht, hact])
    ⟨fin_posts (k := { c := c, r := r, h := h }) hr ho (wantsRecord_status hs), hfl, hg⟩

/-! ### Orders that wait for the gate -/

/-- A command that waits, when its state has the waits of before. -/
theorem exec_awaits {i : Instr} {act : State → Cmd → State} (hl : s.Live) (ht : s.Takes c r h)
    (hi : exec i s = doneLive s (s.arrive c r h act)) {t : State} {w : WaitKind} (hw : t.waits = s.waits)
    (hact : act s { c := c, r := r, h := h } = t.await { c := c, r := r, h := h } w) :
    exec i s = .next (({ t with waits := s.waits ++ [waitOfCmd c r h w] } : State).seal s) := by
  rw [hi, arrive_takes ht, hact, doneLive_of_live hl, State.await, hw] <;> rfl

theorem orderTag_waits (s : State) (t : Nat) (f : TagRec → TagRec) : (s.orderTag t f).waits = s.waits := (order_kept s _).waits

section
variable {slot : Nat} (hl : s.Live) (ht : s.Takes c r h) (hf : h.flags = 0) (hs : slot < 256)
  (hc : (s.flight slot).ctx = c ∨ c = 0)
include hl ht hf hs hc

theorem moorFlight_orders (hst : (s.flight slot).st = .running) (hb : (s.flight slot).binding = none) :
    exec (.moorFlight c r h slot) s = .next (({ s.orderTag (s.flight slot).tag (fun t => { t with moor := true }) with
      waits := s.waits ++ [waitOfCmd c r h (.moor slot)] } : State).seal s) := by
  refine exec_awaits hl ht rfl (orderTag_waits ..) ?_
  rw [State.doMoor, wellFormed_ok rfl (flags_zero rfl hf) (badList (by simp [byteSlot hs])), ofFlight_ok hc (at_of (by simp [hst]) hb)]

theorem resumeFlight_orders (hst : (s.flight slot).st = .moored ∨ (s.flight slot).st = .held) (hb : (s.flight slot).binding = none) :
    exec (.resumeFlight c r h slot) s = .next (({ s.orderTag (s.flight slot).tag (fun t => { t with resume := true }) with
      waits := s.waits ++ [waitOfCmd c r h (.resume slot)] } : State).seal s) := by
  refine exec_awaits hl ht rfl (orderTag_waits ..) ?_
  rw [State.doResume, wellFormed_ok rfl (flags_zero rfl hf) (badList (by simp [byteSlot hs])),
    ofFlight_ok hc (at_of (by rcases hst with h | h <;> simp [h]) hb)]

theorem haltFlight_orders {rel : Nat} (hrel : rel ≤ 1) (hu : (s.flight slot).used = true) (hst : (s.flight slot).st ≠ .loaded)
    (hb : (s.flight slot).binding = none) : exec (.haltFlight c r h slot rel) s =
      .next (({ s.orderTag (s.flight slot).tag (fun t => { t with halt := true }) with
        waits := s.waits ++ [waitOfCmd c r h (.halt slot (rel == 1))] } : State).seal s) := by
  refine exec_awaits hl ht rfl (orderTag_waits ..) ?_
  rw [State.doHalt, wellFormed_ok rfl (flags_zero rfl hf) (badList (by simp [byteSlot hs, hrel]))]
  dsimp only
  rw [ofFlight_ok hc (by simp [hu, hst]), if_pos (.inl hst), State.haltOrder]
  rw [if_neg (by simp [hb])] <;> rfl

/-- A loaded flight that is halted with its release leaves its slot empty. -/
theorem haltFlight_releases (hst : (s.flight slot).st = .loaded) (hu : (s.flight slot).used = true)
    (hb : (s.flight slot).binding = none) : Completes (.haltFlight c r h slot 1) s fun u =>
      u.flight slot = {} ∧ s.Passed u c r ∧ ∀ j, j ≠ slot → u.flight j = s.flight j := by
  refine completes_live hl (exec_takes (t := (s.setFlight slot {}).advance c r) ht rfl fun k hkc hkr hkh hkp => ?_)
    ⟨State.flight_setFlight_self s slot {}, advance_passed (s.setFlight slot {}) c r, fun j hj => ?_⟩
  · rw [State.doHalt, wellFormed_ok hkp (flags_zero hkh hf) (badList (by simp [byteSlot hs]))]
    dsimp only
    rw [ofFlight_ok (hkc ▸ hc) (by simp [hu]), if_neg (by simp [hst, hb])]
    rw [if_pos (by decide), fin_quiet (hkh ▸ hf) rfl, hkc, hkr]
  · exact (State.flight_setFlight s slot j {}).trans (if_neg hj.symm)

theorem runFlight_arms (hst : (s.flight slot).st = .bound) (hb : (s.flight slot).binding = none) {n : Nat} (hn : s.ww.pound + 1 < n) :
    exec (.runFlight c r h slot n) s = .next (({ s.setFlight slot { s.flight slot with
        st := .armed, startPound := n, defers := 0, lockinDone := false, lockinOk := false } with
      waits := s.waits ++ [waitOfCmd c r h (.run slot)] } : State).seal s) := by
  refine exec_awaits (t := s.setFlight slot _) hl ht rfl rfl ?_
  rw [State.doRun, wellFormed_ok rfl (flags_zero rfl hf) (badList (by simp [byteSlot hs])), ofFlight_ok hc (at_of (by simp [hst]) hb),
    if_neg (by simpa [State.poundNow] using hn)] <;> rfl

theorem runFlight_late (hst : (s.flight slot).st = .bound) (hb : (s.flight slot).binding = none) {n : Nat} (hn : n ≤ s.ww.pound + 1)
    (ho : s.CplOpen c) : Completes (.runFlight c r h slot n) s fun u =>
      s.Posts u c r h.seq { status := 0x0201 } ∧ u.flights = s.flights := by
  obtain ⟨u, hu, hp, hfl, -⟩ := refused_still (i := .runFlight c r h slot n) (f := { status := ST_START_PASSED }) hl ht ho rfl
    (by decide) (by
      rw [State.doRun, wellFormed_ok rfl (flags_zero rfl hf) (badList (by simp [byteSlot hs])),
        ofFlight_ok hc (at_of (by simp [hst]) hb), if_pos (show n ≤ s.poundNow + 1 from hn)])
  exact ⟨u, hu, hp, hfl⟩

theorem moorFlight_rejects (hst : (s.flight slot).st ≠ .running) (ho : s.CplOpen c) : Completes (.moorFlight c r h slot) s fun u =>
    s.Posts u c r h.seq { status := 0x0001 } ∧ u.flights = s.flights ∧ u.gate = s.gate := by
  refine refused_still (f := { status := ST_STATE_REJECT }) hl ht ho rfl (by decide) ?_
  rw [State.doMoor, wellFormed_ok rfl (flags_zero rfl hf) (badList (by simp [byteSlot hs])),
    ofFlight_reject hc (at_false (by simpa using hst))]

end

/-! ### Bind (R231, R232) -/

theorem zeroForBind_still (s : State) (t : Nat) : (s.zeroForBind t).flights = s.flights ∧ (s.zeroForBind t).waits = s.waits := by
  unfold State.zeroForBind
  dsimp only
  split <;> exact ⟨rfl, rfl⟩

theorem startBind_still (s : State) (slot tag d : Nat) (e : Option EndFence) :
    (s.startBind slot tag d e).flight slot = (s.flight slot).starting tag d e ∧ (s.startBind slot tag d e).waits = s.waits := by
  refine of_foldl (fun t => t.flight slot = (s.flight slot).starting tag d e ∧ t.waits = s.waits) (fun t i ht => ?_) _
    ⟨State.flight_setFlight_self .., rfl⟩
  split
  · next p _ =>
    obtain ⟨hfl, hw⟩ := zeroForBind_still t p
    refine ⟨?_, hw.trans ht.2⟩
    rw [State.flight, State.modTile_flights, hfl]
    exact ht.1
  · exact ht

section
variable {slot tag fence off value : Nat} {o : Obj} (hl : s.Live) (ht : s.Takes c r h) (hf : h.flags = 0) (hs : slot < 256)
  (hc : (s.flight slot).ctx = c ∨ c = 0) (htag : tag < 256) (hobj : s.object c fence (OBJ_W ||| OBJ_FENCE) false = (s, .inl o))
  (hal : (o.va + off) % 8 = 0) (hlen : off + 8 ≤ o.len) (hst : (s.flight slot).st = .loaded)
  (hb : (s.flight slot).binding = none) (hsb : (s.flight slot).standby = false)
include hf hs hc htag hobj hal hlen hst hb hsb

/-- The outcomes of a bind whose command, object and flight pass their checks. -/
theorem doBind_outcomes : let m := (s.flight slot).image
    let k : Cmd := { c := c, r := r, h := h }
    let e : EndFence := { ctx := o.ctx, va := o.va + off, value := value }
    (∀ d, s.bindTime m = none → s.placement m = .inr (some d) → s.tagTaken slot tag = false → s.bindSlot slot m d = none →
      s.doBind k slot tag fence off value = (s.startBind slot tag d (some e)).await k (.bind slot)) ∧
    (s.bindTime m = none → s.placement m = .inr none → s.tagTaken slot tag = false →
      s.doBind k slot tag fence off value =
        (s.modFlight slot fun f => { f with standby := true, tag := tag, fence := some e }).fin k {}) ∧
    ∀ x, s.bindTime m = some x →
      s.doBind k slot tag fence off value = s.fin k { status := ST_REFUSED_AT_LOAD, detail := x.detail } := by
  dsimp only
  rw [State.doBind, wellFormed_ok rfl (flags_zero rfl hf) (badList (by simp [byteSlot hs, byteSlot htag])), withObj_ok (k := { c := c, r := r, h := h }) hobj,
    wellFormed_ok rfl (flags_zero rfl hf) (badList (by simp [hal, hlen])),
    ofFlight_ok hc (by simp [at_of (l := [.loaded]) (by simp [hst]) hb, hsb])]
  refine ⟨fun d h1 h2 h3 h4 => ?_, fun h1 h2 h3 => ?_, fun x h1 => ?_⟩
  · simp only [h1, h2, h3, h4, Bool.false_eq_true, if_false]
  · simp only [h1, h2, h3, Bool.false_eq_true, if_false]
  · simp only [h1]

include hl ht

theorem bindFlight_starts {d : Nat} (htime : s.bindTime (s.flight slot).image = none)
    (hplace : s.placement (s.flight slot).image = .inr (some d)) (hfree : s.tagTaken slot tag = false)
    (hslot : s.bindSlot slot (s.flight slot).image d = none) : Completes (.bindFlight c r h slot tag fence off value) s fun u =>
      u.waits = s.waits ++ [waitOfCmd c r h (.bind slot)] ∧ (u.flight slot).binding = some false ∧ (u.flight slot).tag = tag ∧
      (u.flight slot).devSlot = d ∧ (u.flight slot).st = .loaded ∧
      (u.flight slot).fence = some { ctx := o.ctx, va := o.va + off, value := value } := by
  obtain ⟨hfl, hw⟩ := startBind_still s slot tag d (some { ctx := o.ctx, va := o.va + off, value := value })
  refine completes_live hl (t := (s.startBind slot tag d (some { ctx := o.ctx, va := o.va + off, value := value })).await
    { c := c, r := r, h := h } (.bind slot)) ?_ ⟨?_, ?_⟩
  · refine (congrArg (doneLive s) (arrive_takes ht _)).trans (congrArg (doneLive s) ?_)
    exact (doBind_outcomes hf hs hc htag hobj hal hlen hst hb hsb).1 d htime hplace hfree hslot
  · exact congrArg (· ++ [_]) hw
  · have hfl' := (seal_flight (s := s) (t := (s.startBind slot tag d (some { ctx := o.ctx, va := o.va + off, value := value })).await
      { c := c, r := r, h := h } (.bind slot)) slot).trans hfl
    rw [hfl']
    exact ⟨rfl, rfl, rfl, rfl, rfl⟩

theorem bindFlight_standsBy (htime : s.bindTime (s.flight slot).image = none)
    (hplace : s.placement (s.flight slot).image = .inr none) (hfree : s.tagTaken slot tag = false) :
    Completes (.bindFlight c r h slot tag fence off value) s fun u =>
      s.Passed u c r ∧ (u.flight slot).standby = true ∧ (u.flight slot).tag = tag ∧ u.tiles = s.tiles := by
  refine completes_live hl (t := (s.setFlight slot { s.flight slot with
    standby := true, tag := tag, fence := some { ctx := o.ctx, va := o.va + off, value := value } }).advance c r) ?_ ⟨?_, ?_⟩
  · refine (congrArg (doneLive s) (arrive_takes ht _)).trans (congrArg (doneLive s) ?_)
    rw [(doBind_outcomes hf hs hc htag hobj hal hlen hst hb hsb).2.1 htime hplace hfree, fin_quiet hf rfl] <;> rfl
  · exact advance_passed (s.setFlight slot _) c r
  · have hfl : (s.setFlight slot { s.flight slot with
        standby := true, tag := tag, fence := some { ctx := o.ctx, va := o.va + off, value := value } }).flight slot = _ :=
      State.flight_setFlight_self ..
    exact ⟨congrArg Flight.standby hfl, congrArg Flight.tag hfl, rfl⟩

theorem bindFlight_refused {x : Refuse} (htime : s.bindTime (s.flight slot).image = some x) (ho : s.CplOpen c) :
    Completes (.bindFlight c r h slot tag fence off value) s fun u =>
      s.Posts u c r h.seq { status := 0x0005, detail := x.detail } ∧ u.flights = s.flights := by
  obtain ⟨u, hu, hp, hfl, -⟩ := refused_still (i := .bindFlight c r h slot tag fence off value)
    (f := { status := ST_REFUSED_AT_LOAD, detail := x.detail }) hl ht ho rfl (show ST_REFUSED_AT_LOAD ≠ 0 by decide)
    ((doBind_outcomes hf hs hc htag hobj hal hlen hst hb hsb).2.2 x htime)
  exact ⟨u, hu, hp, hfl⟩

end

/-! ### Load (R229 to R231) -/

theorem firstSome_none {α : Type} {l : List (Unit → Option α)} (h : firstSome l = none) : ∀ f ∈ l, f () = none := by
  induction l with
  | nil => exact fun f hf => absurd hf List.not_mem_nil
  | cons g l ih =>
    unfold firstSome at h
    split at h
    · exact absurd h (by simp)
    · next hg => exact List.forall_mem_cons.2 ⟨hg, ih h⟩

/-- An image that passes the checks of a load finds a slot. -/
theorem loadCheck_slot {m : Ram} {n : Nat} (h : s.loadCheck m n = none) : ∃ i, s.freeFlight = some i := by
  have hslot := firstSome_none h (fun _ => failIf s.freeFlight.isNone 4 0) (by simp)
  cases hfree : s.freeFlight with
  | some i => exact ⟨i, rfl⟩
  | none => simp [failIf, hfree] at hslot

theorem loadFlight_loads (hl : s.Live) (ht : s.Takes c r h) (hf : h.flags = 0) {img off n : Nat} {o : Obj} {gs : List XSeg}
    {bs : PBytes} (hal : off % 256 = 0) (hobj : s.object c img OBJ_R false = (s, .inl o)) (hlen : off + n ≤ o.len)
    (hx : s.ringXlate c o off n NEED_R false = (s, .inl gs)) (hread : s.readSegs o.ctx gs = (s, bs))
    (hsize : hdrSize (ramOf bs) = n) (ho : s.CplOpen c) : Completes (.loadFlight c r h img off n) s fun u =>
      s.Passed u c r ∧ u.tiles = s.tiles ∧
      (∀ e, s.loadCheck (ramOf bs) n = some e →
        s.Posts u c r h.seq { status := 0x0005, detail := e.detail } ∧ u.flights = s.flights) ∧
      ∀ i, s.loadCheck (ramOf bs) n = none → s.freeFlight = some i →
        u.flight i = { st := .loaded, ctx := c, size := n, image := ramOf bs } ∧
        ∀ j, j ≠ i → u.flight j = s.flight j := by
  have hrun : s.doLoad { c := c, r := r, h := h } img off n =
      match s.loadCheck (ramOf bs) n, s.freeFlight with
      | some e, _ => s.fin { c := c, r := r, h := h } { status := ST_REFUSED_AT_LOAD, detail := e.detail }
      | none, some i => (s.setFlight i { st := .loaded, ctx := c, size := n, image := ramOf bs }).fin { c := c, r := r, h := h }
          { result := i }
      | none, none => s := by
    rw [State.doLoad, wellFormed_ok rfl (flags_zero rfl hf) (badList (by simp [hal])), withObj_ok (k := { c := c, r := r, h := h }) hobj,
      wellFormed_ok rfl (flags_zero rfl hf) (badList (by simp [hlen])), withExtent_ok (k := { c := c, r := r, h := h }) hx]
    dsimp only
    rw [hread]
    dsimp only
    rw [if_neg (by simp [hsize])] <;> rfl
  have hi {t : State} (hd : s.doLoad { c := c, r := r, h := h } img off n = t) :
      exec (.loadFlight c r h img off n) s = doneLive s t :=
    (congrArg (doneLive s) (arrive_takes ht _)).trans (congrArg (doneLive s) hd)
  have hr := (takes_ring ht).1
  cases hcheck : s.loadCheck (ramOf bs) n with
  | some e =>
    rw [hcheck] at hrun
    have hne : ST_REFUSED_AT_LOAD ≠ 0 := by decide
    have hp := fin_posts (k := { c := c, r := r, h := h }) (f := { status := ST_REFUSED_AT_LOAD, detail := e.detail }) hr ho
      (wantsRecord_status hne)
    obtain ⟨hfl, -, htl⟩ := fin_still (k := { c := c, r := r, h := h }) (f := { status := ST_REFUSED_AT_LOAD, detail := e.detail })
      hr ho hne
    refine completes_live hl (hi hrun) ⟨hp.2.2, htl, fun e' he => ?_, fun i hn => absurd hn (by simp)⟩
    obtain rfl := Option.some.inj he
    exact ⟨hp, hfl⟩
  | none =>
    obtain ⟨i, hfree⟩ := loadCheck_slot hcheck
    rw [hcheck, hfree] at hrun
    dsimp only at hrun
    rw [fin_quiet hf rfl] at hrun
    refine completes_live hl (hi hrun) ⟨advance_passed (s.setFlight i _) c r, rfl, fun e he => absurd he (by simp),
      fun j _ hj => ?_⟩
    obtain rfl := Option.some.inj (hfree.symm.trans hj)
    have hset (j : Nat) := State.flight_setFlight s i j { st := .loaded, ctx := c, size := n, image := ramOf bs }
    exact ⟨(hset i).trans (if_pos rfl), fun j hj => (hset j).trans (if_neg hj.symm)⟩

/-! ### The images of a bind (R232, R233) -/

/-- A table without its entries of the default reads as it did. -/
theorem sget_filter_ne {α : Type} [DecidableEq α] (d : α) {m : SMap α} (hm : (m.map Prod.fst).Nodup) (k : Nat) :
    sget d (m.filter fun e => e.2 ≠ d) k = sget d m k := by
  induction m with
  | nil => rfl
  | cons e m ih =>
    obtain ⟨hnot, hm⟩ := List.nodup_cons.1 hm
    by_cases hd : e.2 = d
    · rw [List.filter_cons_of_neg (by simp [hd]), ih hm]
      by_cases he : e.1 = k
      · rw [sget, if_pos he, hd]
        exact sget_of_not_mem d (he ▸ hnot)
      · rw [sget, if_neg he]
    · rw [List.filter_cons_of_pos (by simp [hd])]
      simp only [sget, ih hm]

theorem sget_range {α : Type} (d : α) (g : Nat → α) {n j : Nat} (hj : j < n) :
    sget d ((List.range n).map fun i => (i, g i)) j = g j := by
  have hall : ∀ (l : List Nat), j ∈ l → sget d (l.map fun i => (i, g i)) j = g j := by
    intro l
    induction l with
    | nil => exact fun h => absurd h List.not_mem_nil
    | cons a l ih =>
      intro hm
      simp only [List.map_cons, sget]
      split
      · next he => exact he ▸ rfl
      · next he => exact ih ((List.mem_cons.1 hm).resolve_left (Ne.symm he))
  exact hall _ (List.mem_range.2 hj)

section
variable {x : Tile} (hinj : x.inject = none) (m : Ram) (f : Nat)
include hinj

omit hinj in
theorem writeImem_imem {n : Nat} (hn : n < tileImemCount m f) : sget 0 (x.writeImem m f).imem n =
    BitVec.ofNat 128 (m.num ((sectOf m SEC_INSTR).off + 16 * (tileImemFirst m f + n)) 16) := by
  have hkeys : (((List.range (tileImemCount m f)).map fun i => (i, BitVec.ofNat 128
      (m.num ((sectOf m SEC_INSTR).off + 16 * tileImemFirst m f + 16 * i) 16))).map Prod.fst).Nodup := by
    rw [List.map_map]
    exact (List.map_id _).symm ▸ List.nodup_range
  refine (sget_filter_ne (0 : Quad) hkeys n).trans ((sget_range _ _ hn).trans ?_)
  rw [Nat.mul_add, Nat.add_assoc]

theorem writeImem_inject : (x.writeImem m f).inject = none := by
  simp [Tile.writeImem, hinj]

/-- The hold chunks of an image leave the instruction memory and the injection alone. -/
theorem writeChunks_imem : (x.writeChunks m f).imem = x.imem ∧ (x.writeChunks m f).inject = none := by
  have hfold : ∀ (l : List Nat) (y : Tile), y.inject = none →
      (l.foldl (fun x c => x.putHold (chunkAddr m c) ((m.read ((sectOf m SEC_HOLD_DATA).off + chunkData m c) (chunkLen m c)).map
        fun b => (b, false))) y).imem = y.imem ∧
      (l.foldl (fun x c => x.putHold (chunkAddr m c) ((m.read ((sectOf m SEC_HOLD_DATA).off + chunkData m c) (chunkLen m c)).map
        fun b => (b, false))) y).inject = none := by
    intro l
    induction l with
    | nil => exact fun y hy => ⟨rfl, hy⟩
    | cons a l ih =>
      intro y hy
      rw [List.foldl_cons, putHold_eq hy]
      exact ih _ hy
  exact hfold _ x hinj

theorem writeImage_imem {n : Nat} (hn : n < tileImemCount m f) : sget 0 (x.writeImage m f).imem n =
    BitVec.ofNat 128 (m.num ((sectOf m SEC_INSTR).off + 16 * (tileImemFirst m f + n)) 16) :=
  (congrArg (fun l => sget 0 l n) (writeChunks_imem (writeImem_inject hinj m f) m f).1).trans (writeImem_imem m f hn)

end

theorem injUsed_still (s : State) (x y : Tile) : (s.injUsed x y).tiles = s.tiles ∧ (s.injUsed x y).fuses = s.fuses ∧
    (s.injUsed x y).flights = s.flights := by
  unfold State.injUsed
  split <;> exact ⟨rfl, rfl, rfl⟩

theorem imageTile_tile (s : State) (t : Nat) (m : Ram) (f j : Nat) : (s.imageTile t m f).tile j =
    if t = j then (s.tile t).writeImage m f else s.tile j := by
  obtain ⟨htl, hfu, -⟩ := injUsed_still (s.setTile t ((s.tile t).writeImage m f)) (s.tile t) ((s.tile t).writeImage m f)
  exact (tile_of_eq htl hfu j).trans (State.tile_setTile ..)

theorem imageTile_flights (s : State) (t : Nat) (m : Ram) (f : Nat) : (s.imageTile t m f).flights = s.flights :=
  (injUsed_still ..).2.2

theorem imageTile_fuses (s : State) (t : Nat) (m : Ram) (f : Nat) : (s.imageTile t m f).fuses = s.fuses :=
  (injUsed_still ..).2.1

/-- Images written one after another into different tiles. -/
theorem foldl_imageTile (m : Ram) (l : List (Nat × Nat)) (hl : (l.map Prod.fst).Nodup) (s : State) {t : State}
    (ht : l.foldl (fun s e => s.imageTile e.1 m e.2) s = t) : t.fuses = s.fuses ∧ t.flights = s.flights ∧ (∀ e ∈ l, t.tile e.1 = (s.tile e.1).writeImage m e.2) ∧
      ∀ j, j ∉ l.map Prod.fst → t.tile j = s.tile j := by
  induction l generalizing s with
  | nil => exact ht ▸ ⟨rfl, rfl, fun e he => absurd he List.not_mem_nil, fun j _ => rfl⟩
  | cons a l ih =>
    obtain ⟨hnot, hl⟩ := List.nodup_cons.1 hl
    obtain ⟨hfu, hfl, hin, hout⟩ := ih hl (s.imageTile a.1 m a.2) ht
    refine ⟨hfu.trans (imageTile_fuses ..), hfl.trans (imageTile_flights ..), List.forall_mem_cons.2 ⟨?_, fun e he => ?_⟩, fun j hj => ?_⟩
    · exact (hout a.1 hnot).trans ((imageTile_tile ..).trans (if_pos rfl))
    · have hne : a.1 ≠ e.1 := fun h => hnot (h ▸ List.mem_map_of_mem he)
      refine (hin e he).trans ?_
      rw [imageTile_tile, if_neg hne]
    · rw [List.map_cons, List.mem_cons, not_or] at hj
      refine (hout j hj.2).trans ?_
      rw [imageTile_tile, if_neg (Ne.symm hj.1)]

theorem bindImagesWritten_writes (hl : s.Live) {slot : Nat} (hb : (s.flight slot).binding = some false)
    (hnodup : ((s.tilesOf slot).map Prod.fst).Nodup) : Completes (.bindImagesWritten slot) s fun u =>
      u.flight slot = { s.flight slot with binding := some true, pos := 0 } ∧
      (∀ e ∈ s.tilesOf slot, (s.tile e.1).inject = none → let m := (s.flight slot).image
        (∀ n < tileImemCount m e.2, sget 0 (u.tile e.1).imem n =
          BitVec.ofNat 128 (m.num ((sectOf m SEC_INSTR).off + 16 * (tileImemFirst m e.2 + n)) 16)) ∧
        (u.tile e.1).buf0 = {} ∧ (u.tile e.1).buf1 = {}) ∧
      ∀ t, t ∉ (s.tilesOf slot).map Prod.fst → u.tile t = s.tile t := by
  generalize htdef : (s.tilesOf slot).foldl (fun t e => t.imageTile e.1 (s.flight slot).image e.2) s = t
  obtain ⟨hfu, hfl, hin, hout⟩ := foldl_imageTile (s.flight slot).image (s.tilesOf slot) hnodup s htdef
  have hflight : t.flight slot = s.flight slot := by rw [State.flight, hfl, State.flight]
  have hrun : s.doBindImages slot = t.setFlight slot { s.flight slot with binding := some true, pos := 0 } := by
    rw [State.doBindImages]
    dsimp only
    rw [if_pos hb, htdef, State.modFlight, hflight]
  have hseal (j : Nat) (x : Flight) : ((t.setFlight slot x).seal s).tile j = t.tile j :=
    seal_tile (t := t.setFlight slot x) hfu j
  refine completes_live hl (congrArg (doneLive s) hrun) ⟨State.flight_setFlight_self t slot _, fun e he hinj => ?_,
    fun j hj => (hseal ..).trans (hout j hj)⟩
  have htile := (hseal e.1 { s.flight slot with binding := some true, pos := 0 }).trans (hin e he)
  refine ⟨fun n hn => ?_, ?_, ?_⟩
  · exact (congrArg (fun x => sget 0 x.imem n) htile).trans (writeImage_imem hinj _ _ hn)
  · exact congrArg Tile.buf0 htile
  · exact congrArg Tile.buf1 htile

/-! ### Limits -/

theorem startDeferLimit_misses (hl : s.Live) {slot : Nat} (hst : (s.flight slot).st = .armed) (hd : 64 ≤ (s.flight slot).defers)
    (hset : (s.doDeferLimit slot).resettle = s.doDeferLimit slot) : Completes (.startDeferLimit slot) s fun u =>
      (u.flight slot).st = .bound ∧ (u.flight slot).defers = 0 ∧ ∀ w ∈ u.waits, w.kind ≠ .run slot := by
  have hrun : s.doDeferLimit slot = (s.setFlight slot { s.flight slot with st := .bound, defers := 0 }).finishWaits
      fun w => if w = .run slot then some { status := ST_START_MISSED } else none := if_pos ⟨hst, hd⟩
  have hP : EndStable fun t => (t.flight slot).st = .bound ∧ (t.flight slot).defers = 0 :=
    flight_endStable slot (fun f => f.st = .bound ∧ f.defers = 0) (fun _ _ _ h => h) fun _ _ h => h
  have hkept := finishWaits_stable hP (s := s.setFlight slot { s.flight slot with st := .bound, defers := 0 })
    (by rw [State.flight_setFlight_self]; exact ⟨rfl, rfl⟩) fun w => if w = .run slot then some { status := ST_START_MISSED } else none
  have hends := finishWaits_ends (s.setFlight slot { s.flight slot with st := .bound, defers := 0 })
    fun w => if w = .run slot then some { status := ST_START_MISSED } else none
  rw [← hrun] at hkept hends
  refine completes_live hl (t := s.doDeferLimit slot) (congrArg (doneLive s) hset) ⟨hkept.1, hkept.2, fun w hw hk => ?_⟩
  exact absurd ((if_pos hk).symm.trans (hends w hw)) (by simp)

/-- A FATAL event of a flight that is bound. -/
theorem fault_fatal {m : FaultMsg} (hcls : m.cls = 3) (hunit : m.unit = 11) (hb : (s.flight m.inst).st.bound_ = true) :
    ((s.fault m).flight m.inst).fatal.isSome = true := by
  have hesc : escClass m = 3 := if_pos hunit
  have hflights : (s.recorded m).flights = s.flights := by
    rw [State.recorded, recordFault_flights, countFault_flights]
  have hcollect : s.collect m = ((s.recorded m).fatalFlight m.inst m.status, []) := by
    have hreact : (s.recorded m).reactClass m m.cls = ((s.recorded m).fatalFlight m.inst m.status, []) := by
      unfold State.reactClass State.reactFatal scopeFlight
      rw [hcls, hunit] <;> rfl
    have hdef : s.collect m = if (s.countFault m).2 && decide (m.cls < escClass m) then
        (s.recorded m).reactClass m (escClass m)
      else if (s.countFault m).2 && decide (escClass m < m.cls) then
        (((s.recorded m).reactClass m m.cls).1.reactClass m (escClass m) |>.1,
          ((s.recorded m).reactClass m m.cls).2 ++ (((s.recorded m).reactClass m m.cls).1.reactClass m (escClass m)).2)
      else (s.recorded m).reactClass m m.cls := rfl
    rw [hdef, hesc, hcls, if_neg (by simp), if_neg (by simp), ← hcls, hreact]
  have hbound : ((s.recorded m).flight m.inst).st.bound_ = true := by
    rw [State.flight, hflights]
    exact hb
  rw [State.fault, hcollect, State.fatalFlight, if_pos hbound]
  dsimp only [List.foldl_nil]
  rw [State.flight, holdSlot_flights]
  have hset : (((s.recorded m).modFlight m.inst fun f => { f with fatal := some (f.fatal.getD m.status) }).flight m.inst).fatal =
      some (((s.recorded m).flight m.inst).fatal.getD m.status) := by rw [State.modFlight, State.flight_setFlight_self]
  exact congrArg Option.isSome hset

theorem barrierTimeout_fatal (hl : s.Live) {slot : Nat} (hst : (s.flight slot).st = .held) (hd : 64 ≤ (s.flight slot).barrierHeld) :
    Completes (.barrierTimeout slot) s fun u => (u.flight slot).fatal.isSome = true ∧ u.tiles = s.tiles := by
  have hrun : s.doBarrierTimeout slot = (s.fault { msgOf K_BARRIER_TIMEOUT 11 slot with slot := slot }).drainAborts :=
    if_pos ⟨hst, hd⟩
  have hfatal := fault_fatal (s := s) (m := { msgOf K_BARRIER_TIMEOUT 11 slot with slot := slot }) rfl rfl
    (show (s.flight slot).st.bound_ = true from hst ▸ rfl)
  have htiles := (fault_kept s { msgOf K_BARRIER_TIMEOUT 11 slot with slot := slot }).tiles
  have hP : EndStable fun t => (t.flight slot).fatal.isSome = true :=
    flight_endStable slot (fun f => f.fatal.isSome = true) (fun _ _ h => h) fun _ _ h => h
  exact completes_live hl (congrArg (doneLive s) hrun) ⟨hP.drainAborts hfatal, (tiles_endStable s.tiles).drainAborts htiles⟩

end Sys2Proof.Machine

/-- Settles O45: a command that its flight's state takes gives its order or starts its work, one that it does not take ends
with a record, and the events that end the work leave what R229 to R247 and R297 say. -/
theorem flightCommands : Obligations.FlightCommands := by
  unfold Obligations.FlightCommands
  refine fun s c r h k hl => ⟨fun ht hf hk hc => ⟨moorFlight_orders hl ht hf hk hc, resumeFlight_orders hl ht hf hk hc,
      fun rel hrel hu hst hb => haltFlight_orders hl ht hf hk hc hrel hu hst hb,
      fun hst hu hb => haltFlight_releases hl ht hf hk hc hst hu hb,
      fun hst hb => ⟨fun n hn => runFlight_arms hl ht hf hk hc hst hb hn, fun n hn ho => runFlight_late hl ht hf hk hc hst hb hn ho⟩,
      fun _ hst ho => moorFlight_rejects hl ht hf hk hc hst ho,
      fun tag fence off value o htag hobj hal hlen hst _ hb hsb =>
        ⟨fun d h1 h2 h3 h4 => bindFlight_starts hl ht hf hk hc htag hobj hal hlen hst hb hsb h1 h2 h3 h4,
        fun h1 h2 h3 => bindFlight_standsBy hl ht hf hk hc htag hobj hal hlen hst hb hsb h1 h2 h3,
        fun x h1 ho => bindFlight_refused hl ht hf hk hc htag hobj hal hlen hst hb hsb h1 ho⟩⟩,
    fun img off n o gs bs ht hf hal hobj hlen hx hread hsize ho => loadFlight_loads hl ht hf hal hobj hlen hx hread hsize ho,
    bindImagesWritten_writes hl, startDeferLimit_misses hl, fun hno hset => ?_, barrierTimeout_fatal hl, fun hno => ?_⟩
  · have hrun : s.doDeferLimit k = s := if_neg fun h => hno.elim (fun h' => h' h.1) (Nat.not_lt_of_le h.2)
    exact (congrArg (doneLive s) ((congrArg State.resettle hrun).trans hset)).trans (doneLive_of_live hl s)
  · have hrun : s.doBarrierTimeout k = s := if_neg fun h => hno.elim (fun h' => h' h.1) (Nat.not_lt_of_le h.2)
    exact (congrArg (doneLive s) hrun).trans (doneLive_of_live hl s)

end

section
/-! Snapshots (R305 to R311, R315): the order for one, its copy, its stream to the host, replicas, and restores. -/

open Sys2Proof Sys2Proof.Machine

namespace Sys2Proof.Machine
variable {s : State} {c r : Nat} {h : DescHdr}

/-! ### Commands -/

section
variable {slot : Nat} (hl : s.Live) (ht : s.Takes c r h) (hf : h.flags = 0) (hs : slot < 256)
  (hc : (s.flight slot).ctx = c ∨ c = 0) (hb : (s.flight slot).binding = none)
include hl ht hf hs hc hb

theorem snapshot_orders (off : Nat) (hst : (s.flight slot).st = .bound ∨ (s.flight slot).st = .running ∨
    (s.flight slot).st = .moored ∨ (s.flight slot).st = .done) : exec (.snapshot c r h slot 0 off) s =
      .next (({ s.orderTag (s.flight slot).tag (fun t => { t with snap := true }) with
        waits := s.waits ++ [waitOfCmd c r h (.snap slot none 0)] } : State).seal s) := by
  refine exec_awaits hl ht rfl (orderTag_waits ..) ?_
  rw [State.doSnapshot, wellFormed_ok rfl (flags_zero rfl hf) (badList (by simp [byteSlot hs]))]
  dsimp only
  rw [if_pos rfl, ofFlight_ok hc (at_of (by rcases hst with h | h | h | h <;> simp [h]) hb)]

omit hl ht in
/-- A restore from the device's own areas, when its flight may be restored. -/
theorem doRestore_own (off n : Nat) (hst : (s.flight slot).st = .bound ∨ (s.flight slot).st = .moored ∨
    (s.flight slot).st = .held ∨ (s.flight slot).st = .done) : let k : Cmd := { c := c, r := r, h := h }
    (∀ a, areaOf (s.flight slot) n = some a → snapRefuse (s.flight slot).image (s.flight slot).devSlot a.bytes = none →
      s.doRestore k slot 0 0 off n = (if (s.flight slot).overrun then s.modFlight slot fun f => { f with restoreDue := some a.bytes }
        else s.startRestore slot a.bytes false).await k (.restore slot (snapPound a.bytes))) ∧
    (areaOf (s.flight slot) n = none → s.doRestore k slot 0 0 off n =
      s.fin k { status := ST_BAD_DESCRIPTOR, detail := 0x18, result := 2 ^ 64 - 1 }) := by
  dsimp only
  rw [State.doRestore, wellFormed_ok rfl (flags_zero rfl hf) (badList (by simp [byteSlot hs]))]
  dsimp only
  rw [if_pos rfl, ofFlight_ok hc (at_of (by rcases hst with h | h | h | h <;> simp [h]) hb)]
  refine ⟨fun a ha href => ?_, fun ha => ?_⟩
  · simp only [ha, href]
  · simp only [ha]

theorem restore_starts {off n : Nat} (hst : (s.flight slot).st = .bound ∨ (s.flight slot).st = .moored ∨
    (s.flight slot).st = .held ∨ (s.flight slot).st = .done) {a : SnapArea} (ha : areaOf (s.flight slot) n = some a)
    (href : snapRefuse (s.flight slot).image (s.flight slot).devSlot a.bytes = none) :
    Completes (.restore c r h slot 0 0 off n) s fun u =>
      ((s.flight slot).overrun = false → (u.flight slot).restoring = some (snapPound a.bytes, false)) ∧
      ((s.flight slot).overrun = true → (u.flight slot).restoring = (s.flight slot).restoring ∧
        (u.flight slot).restoreDue = some a.bytes) ∧
      waitOfCmd c r h (.restore slot (snapPound a.bytes)) ∈ u.waits := by
  have hi {t : State} (hd : s.doRestore { c := c, r := r, h := h } slot 0 0 off n = t) :
      exec (.restore c r h slot 0 0 off n) s = doneLive s t :=
    (congrArg (doneLive s) (arrive_takes ht _)).trans (congrArg (doneLive s) hd)
  have hself : (s.startRestore slot a.bytes false).flight slot =
      { (s.restoreFrom slot a.bytes).flight slot with restoring := some (snapPound a.bytes, false) } := by
    rw [State.startRestore, State.modFlight, State.flight_setFlight_self]
  have hrun := (doRestore_own (r := r) hf hs hc hb off n hst).1 a ha href
  generalize s.startRestore slot a.bytes false = v at hself hrun
  refine completes_live hl (hi hrun) ⟨fun ho => ?_, fun ho => ?_,
    List.mem_append_right _ (List.mem_singleton.2 rfl)⟩
  · rw [if_neg (by simp [ho])]
    exact congrArg Flight.restoring hself
  · have hdue : (s.modFlight slot fun f => { f with restoreDue := some a.bytes }).flight slot =
        { s.flight slot with restoreDue := some a.bytes } := State.flight_setFlight_self ..
    rw [if_pos ho]
    have hkeep := congrArg Flight.restoring hdue
    have hput := congrArg Flight.restoreDue hdue
    exact ⟨hkeep, hput⟩

theorem restore_unknown {off n : Nat} (hst : (s.flight slot).st = .bound ∨ (s.flight slot).st = .moored ∨
    (s.flight slot).st = .held ∨ (s.flight slot).st = .done) (ha : areaOf (s.flight slot) n = none) (ho : s.CplOpen c) :
    Completes (.restore c r h slot 0 0 off n) s fun u =>
      s.Posts u c r h.seq { status := 0x000A, detail := 0x18, result := 2 ^ 64 - 1 } ∧ u.flights = s.flights := by
  obtain ⟨u, hu, hp, hfl, -⟩ := refused_still (i := .restore c r h slot 0 0 off n)
    (f := { status := ST_BAD_DESCRIPTOR, detail := 0x18, result := 2 ^ 64 - 1 }) hl ht ho rfl (by decide)
    ((doRestore_own (r := r) hf hs hc hb off n hst).2 ha)
  exact ⟨u, hu, hp, hfl⟩

end

/-! ### The copy of a snapshot and its stream -/

/-- A stream has at least one flit. -/
theorem dataFlits_ne_nil (typ src dst tile ticket head : Nat) (ps : List (Nat × PBytes)) :
    dataFlits typ src dst tile ticket head ps ≠ [] := by
  unfold dataFlits
  dsimp only
  split
  · simp
  · next h => simpa using h

theorem freeTicket_of {t : State} (h : t.tickets = s.tickets) : t.freeTicket = s.freeTicket := by
  rw [State.freeTicket, h, State.freeTicket]

/-- Flits that join those that wait. -/
theorem foldl_enqueue (fs : List Flit) (s : State) : fs.foldl (fun s g => s.enqueue OWN g) s =
    { s with transit := s.transit ++ fs.map fun f => { port := OWN, flit := f } } := by
  induction fs generalizing s with
  | nil => rw [List.foldl_nil, List.map_nil, List.append_nil]
  | cons f fs ih =>
    rw [List.foldl_cons, ih]
    simp [State.enqueue]

section
variable {slot l : Nat} {m : Bool} (hl : s.Live) (hsnap : (s.flight slot).snapping = some (l, m, false))
  (hstr : (s.flight slot).streams = [])
include hl hsnap hstr

/-- The end of a copy, with the streams that its snapshot owes. -/
theorem snapCopyDone_run : exec (.snapshotCopyDone slot) s =
    .next (((s.setFlight slot { s.flight slot with snapping := some (l, m, true), streams := (s.flight slot).replicaDue l }).sendStreams
      slot).seal s) := by
  refine Eq.trans (congrArg (doneLive s) ?_) (doneLive_of_live hl _)
  rw [State.doSnapCopyDone, hsnap]
  dsimp only
  rw [State.modFlight, hstr, List.nil_append]

theorem snapCopyDone_alone (hdue : (s.flight slot).replicaDue l = []) : exec (.snapshotCopyDone slot) s =
    .next ((s.setFlight slot { s.flight slot with snapping := some (l, m, true) }).seal s) := by
  have hsame : ({ s.flight slot with snapping := some (l, m, true), streams := [] } : Flight) =
      { s.flight slot with snapping := some (l, m, true) } := by rw [← hstr]
  rw [snapCopyDone_run hl hsnap hstr, hdue, hsame, State.sendStreams, State.flight_setFlight_self]
  dsimp only
  rw [hstr] <;> rfl

theorem snapCopyDone_streams {e : Nat × SnapArea} {n : Nat} (hdue : (s.flight slot).replicaDue l = [e])
    (hfree : s.freeTicket = some n) (hj : s.ww.joined = true) : Completes (.snapshotCopyDone slot) s fun u =>
      u.flight slot = { s.flight slot with snapping := some (l, m, true) } ∧ sfind? u.tickets n = some (272, slot) ∧
      s.transit <+: u.transit ∧ s.transit ≠ u.transit ∧ u.tiles = s.tiles := by
  have hrun := snapCopyDone_run hl hsnap hstr
  generalize hv : s.setFlight slot { s.flight slot with snapping := some (l, m, true), streams := (s.flight slot).replicaDue l } = v at hrun
  have hvf : v.flight slot = { s.flight slot with snapping := some (l, m, true), streams := [e] } := by
    rw [← hv, State.flight_setFlight_self, hdue]
  have hfree' : v.freeTicket = some n := (freeTicket_of (by rw [← hv] <;> rfl)).trans hfree
  have hj' : v.ww.joined = true := by rw [← hv]; exact hj
  have hset : v.modFlight slot (fun f => { f with streams := [] }) =
      v.setFlight slot { s.flight slot with snapping := some (l, m, true) } := by
    rw [State.modFlight, hvf, ← hstr]
  have hsend : v.sendStreams slot = (v.setFlight slot { s.flight slot with snapping := some (l, m, true) }).sendStream slot n e := by
    rw [State.sendStreams, hvf]
    dsimp only [List.length_singleton]
    unfold State.sendStreamsN
    rw [hvf, hfree']
    dsimp only
    rw [hset]
    exact if_pos hj'
  have hbase : v.tickets = s.tickets ∧ v.transit = s.transit ∧ v.tiles = s.tiles := by rw [← hv]; exact ⟨rfl, rfl, rfl⟩
  rw [hsend, State.sendStream, foldl_enqueue] at hrun
  refine ⟨_, hrun, State.flight_setFlight_self v slot _, (sfind_sput n (272, slot) _ n).trans (if_pos rfl),
    ⟨_, congrArg (· ++ _) hbase.2.1.symm⟩, fun heq => ?_, hbase.2.2⟩
  have hnil := List.append_cancel_left (as := s.transit) ((List.append_nil _).trans (heq.trans (congrArg (· ++ _) hbase.2.1)))
  exact dataFlits_ne_nil _ _ _ _ _ _ _ (List.map_eq_nil_iff.1 hnil.symm)

end

/-! ### A snapshot streamed out (R310) -/

/-- No entry of a table in canonical form lies before the first that a walk comes to. -/
theorem sget_dropWhile {α : Type} (d : α) (m : SMap α) {k j : Nat} (hj : k ≤ j) :
    sget d (m.dropWhile fun e => decide (e.1 < k)) j = sget d m j := by
  induction m with
  | nil => rfl
  | cons e m ih =>
    rw [List.dropWhile_cons]
    split
    · next he => exact ih.trans (if_neg (by have := of_decide_eq_true he; omega)).symm
    · rfl

theorem swf_dropWhile {α : Type} [DecidableEq α] {d : α} {m : SMap α} (h : swf d m = true) (p : Nat × α → Bool) :
    swf d (m.dropWhile p) = true := by
  induction m with
  | nil => exact h
  | cons e m ih =>
    rw [List.dropWhile_cons]
    split
    · exact ih ((swf_cons d e.1 e.2 m).1 h).2.2
    · exact h

theorem length_sslice {α : Type} (d : α) (m : SMap α) (k n : Nat) : (sslice d m k n).length = n := by
  induction n generalizing m k with
  | zero => rfl
  | succ n ih =>
    unfold sslice
    split
    · exact congrArg (· + 1) (ih ..)
    · split <;> exact congrArg (· + 1) (ih ..)

/-- A walk over a table in canonical form reads each of its keys. -/
theorem getD_sslice {α : Type} [DecidableEq α] {d : α} {m : SMap α} (h : swf d m = true) {k n i : Nat} (hi : i < n) :
    (sslice d m k n).getD i d = sget d m (k + i) := by
  induction n generalizing m k i with
  | zero => exact absurd hi (Nat.not_lt_zero _)
  | succ n ih =>
    have hwalk (j : Nat) (hj : k ≤ j) := sget_dropWhile d m hj
    have hwf := swf_dropWhile h fun e => decide (e.1 < k)
    unfold sslice
    split
    · next hnil =>
      rw [hnil] at hwalk
      cases i with
      | zero => exact hwalk k (Nat.le_refl k)
      | succ i =>
        refine (ih (m := []) (by rfl) (Nat.lt_of_succ_lt_succ hi)).trans ?_
        exact (hwalk (k + (i + 1)) (by omega))
    · next k' v rest hcons =>
      rw [hcons] at hwalk hwf
      obtain ⟨-, habove, hrest⟩ := (swf_cons d k' v rest).1 hwf
      split
      · next he =>
        subst he
        cases i with
        | zero => exact (if_pos rfl).symm.trans (hwalk k' (Nat.le_refl k'))
        | succ i =>
          refine (ih hrest (Nat.lt_of_succ_lt_succ hi)).trans (Eq.trans ?_ (hwalk (k' + (i + 1)) (by omega)))
          rw [sget, if_neg (by omega), Nat.add_assoc, Nat.add_comm 1 i]
      · next he =>
        cases i with
        | zero =>
          have hhead := List.head?_dropWhile_not (fun e : Nat × α => decide (e.1 < k)) m
          rw [hcons, List.head?_cons] at hhead
          have hlt : k < k' := by have := of_decide_eq_false hhead; omega
          refine ((sget_of_not_mem d fun hm => ?_).symm).trans (hwalk k (Nat.le_refl k))
          obtain ⟨e, hmem, hkey⟩ := List.mem_map.1 hm
          rcases List.mem_cons.1 hmem with rfl | hin
          · exact he hkey
          · have := habove e hin
            omega
        | succ i =>
          refine (ih hwf (Nat.lt_of_succ_lt_succ hi)).trans (Eq.trans ?_ (hwalk (k + (i + 1)) (by omega)))
          rw [Nat.add_assoc, Nat.add_comm 1 i]

theorem mem_linesOf {a n x : Nat} (h1 : a ≤ x) (h2 : x < a + n) : lineOf x ∈ linesOf a n := by
  unfold linesOf lineOf
  rw [if_neg (by omega)]
  refine List.mem_map.2 ⟨x / 64 - a / 64, List.mem_range.2 ?_, ?_⟩
  · have := Nat.div_le_div_right (c := 64) h1
    have := Nat.div_le_div_right (c := 64) (show x ≤ a + n - 1 by omega)
    omega
  · have := Nat.div_le_div_right (c := 64) h1
    omega

/-- A range's parts by lines, stored one after another. -/
def storeLines (a : Nat) (bs : PBytes) (m : Ram) (las : List Nat) : Ram :=
  las.foldl (fun m la => m.store (partAt a bs la 64).1 (bytesOf (partAt a bs la 64).2) (anyPoison (partAt a bs la 64).2)) m

theorem storeLines_byte (a : Nat) (bs : PBytes) (las : List Nat) (m : Ram) (x : Nat) :
    (storeLines a bs m las).byte x = if a ≤ x ∧ x < a + bs.length ∧ ∃ la ∈ las, la ≤ x ∧ x < la + 64 then
      (bytesOf bs).getD (x - a) 0 else m.byte x := by
  induction las generalizing m with
  | nil => simp [storeLines]
  | cons la las ih =>
    have hlen : (bytesOf (partAt a bs la 64).2).length = min (la + 64 - max a la) (bs.length - (max a la - a)) :=
      (List.length_map ..).trans (length_partAt ..)
    have hpos : (partAt a bs la 64).1 = max a la := rfl
    have hbytes : bytesOf (partAt a bs la 64).2 = (partAt a (bytesOf bs) la 64).2 := by
      simp [partAt, bytesOf, List.map_take, List.map_drop]
    refine (ih _).trans ?_
    rw [Ram.byte_store, hlen, hpos]
    by_cases hin : max a la ≤ x ∧ x < max a la + min (la + 64 - max a la) (bs.length - (max a la - a))
    · have hx : a ≤ x ∧ x < a + bs.length ∧ ∃ l ∈ la :: las, l ≤ x ∧ x < l + 64 :=
        ⟨by omega, by omega, la, List.mem_cons_self .., by omega, by omega⟩
      rw [if_pos hin, if_pos hx, hbytes, getD_partAt a _ _ hin.1 (by omega)]
      split <;> rfl
    · rw [if_neg hin]
      refine if_congr ⟨fun h => ?_, fun h => ?_⟩ rfl rfl
      · obtain ⟨h1, h2, l, hl, h3⟩ := h
        exact ⟨h1, h2, l, List.mem_cons_of_mem _ hl, h3⟩
      · obtain ⟨h1, h2, l, hl, h3⟩ := h
        rcases List.mem_cons.1 hl with rfl | hl
        · exact absurd (by omega) hin
        · exact ⟨h1, h2, l, hl, h3⟩

/-- An uncached write to host memory, through an open port. -/
theorem ucWrite_host (ho : s.port.ioOpen = true) (a : Nat) (bs : PBytes) : ∃ o, s.ucWrite true a bs =
    { s with host := storeLines a bs s.host (linesOf a bs.length), out := o } := by
  have hall : ∀ (las : List Nat) (t : State), t.port.ioOpen = true → ∃ o,
      (las.map fun la => let p := partAt a bs la 64; (p.1, bytesOf p.2, anyPoison p.2)).foldl
        (fun s p => s.hostWrite p.1 p.2.1 p.2.2) t = { t with host := storeLines a bs t.host las, out := o } := by
    intro las
    induction las with
    | nil => exact fun t _ => ⟨t.out, rfl⟩
    | cons la las ih =>
      intro t ht
      rw [List.map_cons, List.foldl_cons, hostWrite_open ht]
      exact ih _ ht
  simpa only [State.ucWrite, if_true, lineParts] using hall (linesOf a bs.length) s ho

theorem ucWrite_bytes {a x : Nat} {bs : PBytes} {m : Ram} : (storeLines a bs m (linesOf a bs.length)).byte x =
    if a ≤ x ∧ x < a + bs.length then (bytesOf bs).getD (x - a) 0 else m.byte x := by
  rw [storeLines_byte]
  refine if_congr ⟨fun h => ⟨h.1, h.2.1⟩, fun h => ⟨h.1, h.2, lineOf x, mem_linesOf h.1 h.2, Nat.div_mul_le_self x 64, ?_⟩⟩ rfl rfl
  unfold lineOf
  omega

theorem stickPoison_still (s : State) (c r : Nat) (bs : PBytes) : (s.stickPoison c r bs).host = s.host ∧
    (s.stickPoison c r bs).waits = s.waits ∧ ((s.stickPoison c r bs).ring c r).count = (s.ring c r).count := by
  unfold State.stickPoison
  split
  · exact ⟨rfl, rfl, by rw [State.ring_setRing_self]⟩
  · exact ⟨rfl, rfl, rfl⟩

/-- A snapshot with the poison of its words. -/
def SnapArea.out (a : SnapArea) : PBytes := (sslice 0 a.bytes.bytes 0 a.size).zipIdx.map fun b => (b.1, badMark (a.bytes.mark b.2))

theorem SnapArea.bytesOf_out (a : SnapArea) : bytesOf a.out = sslice 0 a.bytes.bytes 0 a.size :=
  (List.map_map ..).trans (List.zipIdx_map_fst 0 _)

theorem SnapArea.length_out (a : SnapArea) : a.out.length = a.size := by
  simp [SnapArea.out, length_sslice]

theorem doExportDone_run {w : Wait} {slot hd ctx va : Nat} {a : SnapArea} {g : XSeg} (hw : s.waits = [w])
    (hk : w.kind = .snap slot (some (hd, ctx, va)) 2 (some a))
    (hx : s.ringXlate w.ctx { handle := hd, ctx := ctx, va := va, len := a.size } 0 a.size NEED_W true = (s, .inl [g])) :
    s.doExportDone slot = ((s.writeSegs ctx [g] a.out).stickPoison w.ctx w.ring a.out).finish w { detail := a.pound % 2 ^ 32 } := by
  rw [State.doExportDone, hw, List.foldl_cons, List.foldl_nil, hk]
  refine (if_neg fun h => h rfl).trans ?_
  dsimp only
  rw [hx] <;> rfl

theorem snapshotExportDone_writes (hl : s.Live) {w : Wait} {slot hd ctx va : Nat} {a : SnapArea} {g : XSeg} (hw : s.waits = [w])
    (hk : w.kind = .snap slot (some (hd, ctx, va)) 2 (some a)) (hf : w.flags = 0) (hwf : a.bytes.wf = true)
    (hx : s.ringXlate w.ctx { handle := hd, ctx := ctx, va := va, len := a.size } 0 a.size NEED_W true = (s, .inl [g]))
    (hh : g.host = true) (ha : g.attr = 3) (hce : g.ce = false) (hlen : g.len = a.size) (ho : s.port.ioOpen = true)
    (hset : (s.doExportDone slot).resettle = s.doExportDone slot) : Completes (.snapshotExportDone slot) s fun u =>
      (∀ i < a.size, u.host.byte (g.pa + i) = a.bytes.byte i) ∧
      (∀ b, b < g.pa ∨ g.pa + a.size ≤ b → u.host.byte b = s.host.byte b) ∧ u.waits = [] ∧
      (u.ring w.ctx w.ring).count = ((s.ring w.ctx w.ring).count + 1) % 2 ^ 32 := by
  obtain ⟨o, hwrite⟩ := ucWrite_host ho g.pa a.out
  have hsegs : s.writeSegs ctx [g] a.out =
      { s with host := storeLines g.pa a.out s.host (linesOf g.pa a.out.length), out := o } := by
    rw [State.writeSegs, List.foldl_cons, List.foldl_nil]
    dsimp only
    rw [countSeg_off hce, State.pageWrite, ha, isUc_uncached, if_pos rfl, hh, List.take_of_length_le (by rw [SnapArea.length_out, hlen]), hwrite]
  have hrun := doExportDone_run hw hk hx
  rw [hsegs] at hrun
  obtain ⟨hhost, hwaits, hcount⟩ := stickPoison_still
    { s with host := storeLines g.pa a.out s.host (linesOf g.pa a.out.length), out := o } w.ctx w.ring a.out
  generalize ({ s with host := storeLines g.pa a.out s.host (linesOf g.pa a.out.length), out := o } : State).stickPoison w.ctx w.ring
    a.out = v at hrun hhost hwaits hcount
  have hend : v.finish w { detail := a.pound % 2 ^ 32 } = ({ v with waits := v.waits.filter (· ≠ w) } : State).advance w.ctx w.ring := by
    rw [State.finish, State.endWatch, hk, hf]
    exact endCmd_quiet (wantsRecord_quiet rfl) _
  rw [hend] at hrun
  have hbyte (x : Nat) : v.host.byte x = if g.pa ≤ x ∧ x < g.pa + a.size then
      (sslice 0 a.bytes.bytes 0 a.size).getD (x - g.pa) 0 else s.host.byte x := by
    rw [hhost]
    refine ucWrite_bytes.trans ?_
    rw [SnapArea.length_out, SnapArea.bytesOf_out]
  refine completes_live hl (congrArg (doneLive s) (hset.trans hrun)) ⟨fun i hi => ?_, fun b hb => ?_, ?_, ?_⟩
  · refine (hbyte (g.pa + i)).trans ?_
    rw [if_pos (by omega), Nat.add_sub_cancel_left, getD_sslice (d := (0 : Byte)) ((Bool.and_eq_true ..).mp hwf).1 hi, Nat.zero_add] <;> rfl
  · exact (hbyte b).trans (if_neg (by omega))
  · have hv : v.waits = [w] := hwaits.trans hw
    change v.waits.filter (· ≠ w) = []
    rw [hv]
    simp
  · have hp := (advance_passed ({ v with waits := v.waits.filter (· ≠ w) } : State) w.ctx w.ring).1
    exact hp.trans (congrArg (fun n => (n + 1) % 2 ^ 32) hcount)

/-! ### Replicas (R309) -/

theorem withArea_mem (f : Flight) (a : SnapArea) : a ∈ (f.withArea a).areas :=
  List.mem_append_right _ (List.mem_singleton.2 rfl)

section
variable {src slot key : Nat} {x : Incoming} (hl : s.Live)
  (hfind : s.remote.find? (fun e => decide (e.1 / 256 = src) && e.2.ended) = some (key, x))
include hl hfind

theorem replicaStreamEnd_keeps (hmine : s.replicaFlight (ramOf x.words) = some slot)
    (hok : snapRefuse (s.flight slot).image ((ramOf x.words).num 6 2) (ramOf x.words) = none)
    (hfetch : (s.flight slot).fetching = false) : Completes (.replicaStreamEnd src slot) s fun u =>
      sfind? u.remote key = none ∧ ∃ a ∈ (u.flight slot).areas, a.pound = snapPound (ramOf x.words) ∧ a.replica = true ∧
        a.complete = true ∧ a.size = snapBytes (ramOf x.words) := by
  let a : SnapArea := { pound := snapPound (ramOf x.words), replica := true, complete := true, size := snapBytes (ramOf x.words),
                        bytes := snapSeal ((ramOf x.words).write 0x27 (toLe 1 1)) (snapBytes (ramOf x.words)) }
  have hrun : s.doReplicaEnd src slot =
      ({ s with remote := sdel key s.remote } : State).setFlight slot ((s.flight slot).withArea a) := by
    rw [State.doReplicaEnd, hfind]
    refine (if_neg fun h => h hmine).trans ?_
    have hok' : snapRefuse (({ s with remote := sdel key s.remote } : State).flight slot).image ((ramOf x.words).num 6 2)
        (ramOf x.words) = none := hok
    rw [hok']
    exact if_neg (Bool.eq_false_iff.1 hfetch)
  have hset := State.flight_setFlight_self ({ s with remote := sdel key s.remote } : State) slot ((s.flight slot).withArea a)
  refine completes_live hl (congrArg (doneLive s) hrun) ⟨(sfind_sdel key s.remote key).trans (if_pos rfl), a, ?_, rfl, rfl, rfl, rfl⟩
  exact (congrArg (a ∈ ·.areas) hset).mpr (withArea_mem ..)

theorem replicaStreamEnd_drops (hmine : s.replicaFlight (ramOf x.words) ≠ some slot) :
    Completes (.replicaStreamEnd src slot) s fun u => u.flights = s.flights ∧ sfind? u.remote key = none := by
  refine completes_live hl (t := { s with remote := sdel key s.remote }) (congrArg (doneLive s) ?_)
    ⟨rfl, (sfind_sdel key s.remote key).trans (if_pos rfl)⟩
  rw [State.doReplicaEnd, hfind]
  exact if_pos hmine

end

/-! ### The end of a restore (R311, R315) -/

/-- A flight as the end of its RESTORE leaves it. -/
def Flight.restored (f : Flight) : Flight :=
  { f with restoring := none, st := .moored, causes := [], late := false, lockinDone := false, powerMoored := false,
           suspendMoored := false }

/-- What a waiting RESTORE of a slot ends with. -/
def restoreFin (slot l : Nat) (w : WaitKind) : Option Fin :=
  match w with
  | .restore i _ => if i = slot then some { detail := l % 2 ^ 32 } else none
  | _ => none

theorem restoreCopyDone_moors (hl : s.Live) {slot l : Nat} (hres : (s.flight slot).restoring = some (l, false))
    (hset : (s.doRestoreDone slot).resettle = s.doRestoreDone slot) : Completes (.restoreCopyDone slot) s fun u =>
      (u.flight slot).st = .moored ∧ (u.flight slot).restoring = none ∧ (u.flight slot).causes = [] ∧
      ∀ w ∈ u.waits, ∀ n, w.kind ≠ .restore slot n := by
  have hrun : s.doRestoreDone slot = (s.setFlight slot (s.flight slot).restored).finishWaits (restoreFin slot l) := by
    rw [State.doRestoreDone, hres] <;> rfl
  have hP : EndStable fun t => (t.flight slot).st = .moored ∧ (t.flight slot).restoring = none ∧ (t.flight slot).causes = [] :=
    flight_endStable slot (fun f => f.st = .moored ∧ f.restoring = none ∧ f.causes = []) (fun _ _ _ h => h) fun _ _ h => h
  have hkept := finishWaits_stable hP (s := s.setFlight slot (s.flight slot).restored)
    (by rw [State.flight_setFlight_self]; exact ⟨rfl, rfl, rfl⟩) (restoreFin slot l)
  have hends := finishWaits_ends (s.setFlight slot (s.flight slot).restored) (restoreFin slot l)
  rw [← hrun] at hkept hends
  obtain ⟨hst, hnone, hcauses⟩ := hkept
  refine completes_live hl (t := s.doRestoreDone slot) (congrArg (doneLive s) hset) ⟨hst, hnone, hcauses, fun w hw n hk => ?_⟩
  have hnot := hends w hw
  rw [hk, restoreFin, if_pos rfl] at hnot
  exact absurd hnot (by simp)

theorem mem_addMuster (tag bid n : Nat) (l : List MusterItem) : ∃ m ∈ addMuster tag bid n l, m.tag = tag ∧ m.barrier = bid := by
  induction l with
  | nil => exact ⟨_, List.mem_singleton.2 rfl, rfl, rfl⟩
  | cons a l ih =>
    unfold addMuster
    split
    · next h => exact ⟨_, List.mem_cons_self .., h.1, h.2⟩
    · split
      · exact ⟨_, List.mem_cons_self .., rfl, rfl⟩
      · obtain ⟨m, hm, h⟩ := ih
        exact ⟨m, List.mem_cons_of_mem _ hm, h⟩

theorem musterOnce_musters (s : State) (tag bid : Nat) : ∃ m ∈ (s.musterOnce tag bid).musters, m.tag = tag ∧ m.barrier = bid := by
  unfold State.musterOnce
  split
  · next h =>
    obtain ⟨m, hm, heq⟩ := List.any_eq_true.1 h
    exact ⟨m, hm, by simpa using heq⟩
  · exact mem_addMuster ..

theorem restoreCopyDone_musters (hl : s.Live) {slot l : Nat} (hres : (s.flight slot).restoring = some (l, true))
    (hset : (s.doRestoreDone slot).resettle = s.doRestoreDone slot) : Completes (.restoreCopyDone slot) s fun u =>
      (u.flight slot).restoring = none ∧ (u.flight slot).st = (s.flight slot).st ∧
      ∃ m ∈ u.musters, m.tag = (s.flight slot).tag ∧ m.barrier = 257 := by
  have hself := State.flight_setFlight_self s slot { s.flight slot with restoring := none }
  generalize hv : s.setFlight slot { s.flight slot with restoring := none } = v at hself
  have hrun : s.doRestoreDone slot = v.musterOnce (s.flight slot).tag 257 := by
    rw [State.doRestoreDone, hres]
    dsimp only
    rw [if_pos rfl, State.modFlight, hv, hself]
  have hflight : (v.musterOnce (s.flight slot).tag 257).flight slot = v.flight slot := by
    rw [State.flight, musterOnce_flights, State.flight]
  have hres' := congrArg Flight.restoring (hflight.trans hself)
  have hst' := congrArg Flight.st (hflight.trans hself)
  exact completes_live hl (congrArg (doneLive s) (hset.trans hrun)) ⟨hres', hst', musterOnce_musters v (s.flight slot).tag 257⟩

end Sys2Proof.Machine

/-- Settles O46: the order for a snapshot waits for the gate, its copy and its stream leave what R309 and R310 say, a replica
whose checks pass is kept, and a restore starts and ends as R311 and R315 say. -/
theorem snapshotCommands : Obligations.SnapshotCommands := by
  unfold Obligations.SnapshotCommands
  refine fun s k hl => ⟨fun c r h ht hf hk hc hb => ⟨fun off hst => snapshot_orders hl ht hf hk hc hb off hst,
      fun off n hst => ⟨fun a ha href => restore_starts hl ht hf hk hc hb hst ha href,
        fun ha ho => restore_unknown hl ht hf hk hc hb hst ha ho⟩⟩,
    fun l m hsnap hstr => ⟨fun hdue => snapCopyDone_alone hl hsnap hstr hdue,
      fun e n hdue hfree hj => snapCopyDone_streams hl hsnap hstr hdue hfree hj⟩,
    fun w hd ctx va a g hw hk hf hwf hx hh ha hce hlen ho hset =>
      snapshotExportDone_writes hl hw hk hf hwf hx hh ha hce hlen ho hset,
    fun src key x hfind => ⟨fun hmine hok hfetch => replicaStreamEnd_keeps hl hfind hmine hok hfetch,
      fun hmine => replicaStreamEnd_drops hl hfind hmine⟩,
    fun l hres hset => restoreCopyDone_moors hl hres hset, fun l hres hset => restoreCopyDone_musters hl hres hset⟩

end

section
/-! SUPPORT. Links (R275 to R291): what the moves of a port and the flits that it sends leave alone. -/

open Sys2Proof Sys2Proof.Machine

namespace Sys2Proof.Machine
variable {s t u : State}

/-! ### Registers of a port -/

theorem cnlReg_ne {p q a b : Nat} (ha : a < 0x100) (hb : b < 0x100) (h : a ≠ b) : cnlReg p a ≠ cnlReg q b := by
  unfold cnlReg
  omega

theorem cnlReg_not_fault {p a : Nat} (ha : a < 0x100) (h1 : a ≠ 0x34) (h2 : a ≠ 0x38) : faultReg (cnlReg p a) = false := by
  have hmod : cnlReg p a % 0x100 = a := by
    unfold cnlReg CNL
    omega
  have hbig : 0x10000 ≤ cnlReg p a := by
    unfold cnlReg CNL
    omega
  simp [faultReg, hmod, h1, h2]
  refine ⟨⟨⟨?_, ?_⟩, ?_⟩, ?_⟩ <;> (intro h; rw [h] at hbig; revert hbig; decide)

/-- Bits of other registers. -/
theorem bit_setBit_ne {o o' : Nat} (h : o' ≠ o) (s : State) (i : Nat) (b : Bool) (j : Nat) : (s.setBit o i b).bit o' j = s.bit o' j := by
  rw [State.bit, State.setBit, reg_setFld, if_neg h.symm, State.bit]

/-! ### States and registers of the links -/

/-- The links stand as before, and their CNL_CTL and CNL_ERR. -/
structure State.SameLinks (s t : State) : Prop where
  fuses : t.fuses = s.fuses
  st  : ∀ j, (t.canal j).st = (s.canal j).st
  bit : ∀ p off i, off = 0 ∨ off = 0x14 → t.bit (cnlReg p off) i = s.bit (cnlReg p off) i

theorem State.SameLinks.trans (h : s.SameLinks t) (g : t.SameLinks u) : s.SameLinks u :=
  ⟨g.fuses.trans h.fuses, fun j => (g.st j).trans (h.st j), fun p off i ho => (g.bit p off i ho).trans (h.bit p off i ho)⟩

theorem sameLinks_of (hf : t.fuses = s.fuses) (hc : t.canals = s.canals) (hr : t.regs = s.regs) : s.SameLinks t :=
  ⟨hf, fun j => by rw [State.canal, hc, State.canal], fun p off i _ => by simp only [State.bit, State.reg, hr, hf]⟩

theorem sameLinks_setCanal {p : Nat} {c : Canal} (h : c.st = (s.canal p).st) : s.SameLinks (s.setCanal p c) := by
  refine ⟨rfl, fun j => ?_, fun _ _ _ _ => rfl⟩
  rw [State.canal_setCanal]
  split
  · next he => exact he ▸ h
  · rfl

theorem sameLinks_ite {p : Prop} [Decidable p] {a b : State} (ha : s.SameLinks a) (hb : s.SameLinks b) :
    s.SameLinks (if p then a else b) := of_ite ha hb

theorem sameLinks_setBit {o : Nat} (h : ∀ p off, off = 0 ∨ off = 0x14 → cnlReg p off ≠ o) (i : Nat) (b : Bool) :
    s.SameLinks (s.setBit o i b) :=
  ⟨rfl, fun _ => rfl, fun p off j ho => bit_setBit_ne (h p off ho) s i b j⟩

theorem sameLinks_inj (p i : Nat) (b : Bool) : s.SameLinks (s.setBit (cnlReg p 0x18) i b) :=
  sameLinks_setBit (fun q off ho => cnlReg_ne (by omega) (by omega) (by omega)) i b

theorem sameLinks_low {o : Nat} (ho : o < CNL) (i : Nat) (b : Bool) : s.SameLinks (s.setBit o i b) :=
  sameLinks_setBit (fun p off _ h => by unfold cnlReg at h; omega) i b

theorem lineOut_sameLinks (s : State) (p : Nat) (f : Flit) : s.SameLinks (s.lineOut p f) := by
  have hrefl : s.SameLinks s := sameLinks_of rfl rfl rfl
  have hcrc := sameLinks_ite (p := (flitSequenced f.typ && s.bit (cnlReg p 0x18) 0) = true) (sameLinks_inj p 0 false) hrefl
  have hfec := sameLinks_ite (p := s.bit (cnlReg p 0x18) 1 = true) (hcrc.trans (sameLinks_inj p 1 false)) hcrc
  exact hfec.trans (sameLinks_of rfl rfl rfl)

theorem sendPlain_sameLinks (s : State) (p : Nat) (f : Flit) : s.SameLinks (s.sendPlain p f) :=
  (sameLinks_setCanal (c := { s.canal p with nakDue := false }) rfl).trans (lineOut_sameLinks ..)

theorem requeue_sameLinks (s : State) (p : Nat) : s.SameLinks (s.requeue p) :=
  (sameLinks_setCanal (c := { s.canal p with replay := [], resend := 0, resendAt := 0 }) rfl).trans (sameLinks_of rfl rfl rfl)

theorem foldl_sameLinks {α : Type} {f : State → α → State} (hf : ∀ (s : State) a, s.SameLinks (f s a)) (l : List α) (s : State) :
    s.SameLinks (l.foldl f s) := by
  induction l generalizing s with
  | nil => exact sameLinks_of rfl rfl rfl
  | cons a l ih => exact (hf s a).trans (ih _)

theorem groupLost_sameLinks (s : State) (dev : Nat) : s.SameLinks (s.groupLost dev) :=
  sameLinks_ite (sameLinks_of rfl rfl rfl) (foldl_sameLinks (fun s (e : Nat × Canal) => requeue_sameLinks s e.1) _ _)

theorem fault_sameLinks (s : State) (m : FaultMsg) : s.SameLinks (s.fault m) := by
  refine ⟨(fault_kept s m).fuses, fun j => by rw [State.canal, (fault_kept s m).canals, State.canal], fun p off i ho => fault_bit s m ?_ i⟩
  exact cnlReg_not_fault (by omega) (by omega) (by omega)

theorem setReg_sameLinks {o : Nat} (ho : o < CNL) (v : Reg) : s.SameLinks (s.setReg o v) := by
  refine ⟨rfl, fun _ => rfl, fun p off i _ => ?_⟩
  have hne : cnlReg p off ≠ o := by
    unfold cnlReg
    omega
  rw [State.bit, State.reg_setReg, if_neg hne.symm, State.bit]

theorem gateMin_sameLinks (s : State) : s.SameLinks s.gateMin := by
  have hfld : s.SameLinks (s.setFld TCK_GATE 22 16 (min (max s.ownGateMin s.ww.otherMin) 127)) := setReg_sameLinks (by decide) _
  exact sameLinks_ite ((hfld.trans (sameLinks_low (by decide) 5 true)).trans (fault_sameLinks ..)) hfld

theorem loseTime_sameLinks (s : State) : s.SameLinks s.loseTime := sameLinks_ite (sameLinks_of rfl rfl rfl) (sameLinks_of rfl rfl rfl)

theorem leftActive_sameLinks (s : State) (p : Nat) (up : Bool) : s.SameLinks (s.leftActive p up) := by
  have h := (groupLost_sameLinks s (s.canal p).peerDev).trans (gateMin_sameLinks _)
  exact sameLinks_ite (h.trans (loseTime_sameLinks _)) h

theorem lastAck_sameLinks (s : State) (p : Nat) : s.SameLinks (s.lastAck p) := by
  unfold State.lastAck
  dsimp only
  split
  · exact sendPlain_sameLinks ..
  · exact sameLinks_of rfl rfl rfl

end Sys2Proof.Machine
end

section
/-! Links and slots (R260, R261, R264, R275 to R281, R285): what leaves in a slot, resends, and the states of a link. -/

open Sys2Proof Sys2Proof.Machine

namespace Sys2Proof.Machine
variable {s : State} {p : Nat}

/-! ### A flit on the line -/

theorem lineOut_effect (s : State) (p : Nat) (f : Flit) :
    (s.lineOut p f).out = s.out ++ [.flit p (f.bytes (flitSequenced f.typ && s.bit (cnlReg p 0x18) 0)) (s.bit (cnlReg p 0x18) 1)] ∧
    (s.lineOut p f).canals = s.canals ∧ (s.lineOut p f).transit = s.transit := by
  unfold State.lineOut
  dsimp only
  split <;> split <;> exact ⟨rfl, rfl, rfl⟩

theorem canal_of_canals {t : State} (h : t.canals = s.canals) (j : Nat) : t.canal j = s.canal j := by
  rw [State.canal, h, State.canal]

theorem sendPlain_effect {f : Flit} (hf : flitSequenced f.typ = false) :
    (∃ fec, (s.sendPlain p f).out = s.out ++ [.flit p (((s.canal p).acks f).bytes false) fec]) ∧
    (s.sendPlain p f).transit = s.transit ∧ (s.sendPlain p f).canal p = { s.canal p with nakDue := false } := by
  obtain ⟨hout, hcan, htr⟩ := lineOut_effect (s.setCanal p { s.canal p with nakDue := false }) p ((s.canal p).acks f)
  have hseq : flitSequenced ((s.canal p).acks f).typ = false := hf
  rw [hseq, Bool.false_and] at hout
  exact ⟨⟨_, hout⟩, htr, (canal_of_canals hcan p).trans (State.canal_setCanal_self ..)⟩

theorem sendIdle_effect : (∃ fec, (s.sendIdle p).out = s.out ++ [.flit p (((s.canal p).acks
      { typ := FLIT_IDLE, dst := (s.canal p).peerDev, src := s.ww.index }).bytes false) fec]) ∧
    (s.sendIdle p).transit = s.transit ∧ (s.sendIdle p).canal p = { s.canal p with nakDue := false } := sendPlain_effect rfl

theorem portActive_of (h : (s.canal p).st = .active) : s.portActive p = true := decide_eq_true h

theorem not_portActive (h : (s.canal p).st ≠ .active) : s.portActive p = false := decide_eq_false h

/-! ### The flits that a slot takes -/

theorem firstOfBarges_sub (seen l : List QFlit) : ∀ q ∈ firstOfBarges seen l, q ∈ l := by
  induction l generalizing seen with
  | nil => exact fun q h => h
  | cons a l ih =>
    intro q hq
    unfold firstOfBarges at hq
    split at hq
    · exact List.mem_cons_of_mem _ (ih _ q hq)
    · exact (List.mem_cons.1 hq).elim (fun h => h ▸ List.mem_cons_self ..) fun h => List.mem_cons_of_mem _ (ih _ q h)

theorem takeQ_none {typ : Nat} {ok : QFlit → Bool} (h : ∀ q ∈ s.transit, q.flit.typ = typ → ok q = false) : s.takeQ typ ok = none := by
  have hnone : (firstOfBarges [] s.transit).find? (fun q => q.flit.typ == typ && ok q) = none :=
    List.find?_eq_none.2 fun q hq hok => by
      obtain ⟨ht, ho⟩ := (Bool.and_eq_true ..).mp hok
      exact absurd ho (by simp [h q (firstOfBarges_sub _ _ q hq) (by simpa using ht)])
  rw [State.takeQ, hnone] <;> rfl

/-- The first flit that waits leaves before the others. -/
theorem takeQ_head {q : QFlit} {qs : List QFlit} (ht : s.transit = q :: qs) {ok : QFlit → Bool} (hok : ok q = true) :
    s.takeQ q.flit.typ ok = some ({ s with transit := qs }, q) := by
  have hfind : (firstOfBarges [] s.transit).find? (fun x => x.flit.typ == q.flit.typ && ok x) = some q := by
    rw [ht]
    unfold firstOfBarges
    rw [if_neg (by simp), List.find?_cons_of_pos (by simp [hok])]
  rw [State.takeQ, hfind]
  simp [ht]

theorem lateKey_none {q : QFlit} (h : (s.canal p).missed = []) : s.lateKey p q = none := by
  rw [State.lateKey, h] <;> rfl

/-- No flit that waits may leave in a REPLAY slot. -/
theorem replayOrder_none (hcut : s.gate.cut = false) (h : ∀ q ∈ s.transit, s.leavesOn p q.flit = true →
    q.flit.typ = FLIT_SCHED ∧ q.late = false ∧ (s.canal p).missed = []) :
    (replayOrder p).findSome? (fun c => c s) = none := by
  have hother (typ : Nat) (hne : FLIT_SCHED ≠ typ) : s.takeFlit typ (s.leavesOn p) = none := by
    unfold State.takeFlit
    exact Option.map_eq_none_iff.2 (takeQ_none fun q hq ht =>
      Bool.eq_false_iff.2 fun hl => hne ((h q hq hl).1.symm.trans ht))
  have hlate : s.takeLate p = none := by
    unfold State.takeLate
    refine Option.map_eq_none_iff.2 (takeQ_none fun q hq ht => ?_)
    cases hl : s.leavesOn p q.flit with
    | false => rfl
    | true =>
      obtain ⟨-, hq', hm⟩ := h q hq hl
      simp [hq', hcut, lateKey_none hm]
  simp only [replayOrder, freightOrder, List.findSome?_cons, hlate, hother FLIT_LACK (by decide), hother FLIT_FREIGHT (by decide), ite_self,
    List.findSome?_nil]

theorem replaySlot_idle (hcut : s.gate.cut = false) (hre : (s.canal p).resend = 0)
    (h : ∀ q ∈ s.transit, s.leavesOn p q.flit = true → q.flit.typ = FLIT_SCHED ∧ q.late = false ∧ (s.canal p).missed = []) :
    s.replaySlot p = s.sendIdle p := by
  rw [State.replaySlot, hre, if_neg (Nat.lt_irrefl 0), State.sendFirst]
  split
  · rfl
  · rw [replayOrder_none hcut h]

/-- A late flit of the device's table leaves in a REPLAY slot. -/
theorem replaySlot_late (hre : (s.canal p).resend = 0) (hroom : (s.canal p).replay.length < 256) {q : QFlit} {qs : List QFlit}
    (ht : s.transit = q :: qs) (htyp : q.flit.typ = FLIT_SCHED) (hlate : q.late = true) (hroute : s.route q.flit = some (p, false)) :
    s.replaySlot p = ({ s with transit := qs } : State).sendSeq p q.flit := by
  have htake : s.takeLate p = some ({ s with transit := qs }, q.flit) := by
    have hok : (s.leavesOn p q.flit && (q.late || s.gate.cut || (s.lateKey p q).isSome)) = true := by
      simp [State.leavesOn, hroute, hlate]
    rw [State.takeLate, ← htyp, takeQ_head ht (ok := fun q => s.leavesOn p q.flit && (q.late || s.gate.cut || (s.lateKey p q).isSome)) hok,
      Option.map_some]
    dsimp only
    split
    · rw [if_pos hlate]
    · rfl
  have hfirst : (replayOrder p).findSome? (fun c => c s) = some ({ s with transit := qs }, q.flit) := by
    rw [replayOrder, List.findSome?_cons]
    dsimp only
    rw [htake]
  rw [State.replaySlot, hre, if_neg (Nat.lt_irrefl 0), State.sendFirst, if_neg (by omega), hfirst]
  dsimp only
  rw [if_neg (by simp [hroute]), State.sendFlit, if_pos (by rw [htyp] <;> rfl)]

/-! ### Slots -/

/-- The device as slot `k` of a pound begins. -/
def State.atSlot (s : State) (k : Nat) : State := s.clockTo (s.slotStamp k)

section
variable {k : Nat} (hl : s.Live) (ha : (s.canal p).st = .active) (hj : s.ww.joined = true) (hlaunch : s.launchAll = s)
  (hcut : s.gate.cut = false)
include ha hj hlaunch hcut

theorem doSlot_grid (hk : k < s.gridSlots) : s.doSlot p k =
    if k % 64 = 16 then (s.atSlot k).sendTime p k
    else if k % 32 = 0 then (s.atSlot k).replaySlot p
    else
      match (s.atSlot k).slotOwner p k with
      | some e => (s.atSlot k).ownedSlot p e
      | none => (s.atSlot k).sendFirst p (freightOrder p) := by
  rw [State.doSlot, if_neg (by simp [portActive_of ha]), if_neg (by simp [hj])]
  dsimp only
  rw [hlaunch, if_neg (by simp [hcut]), if_neg (by omega)] <;> rfl

include hl

theorem canalSlot_time (hk : k < s.gridSlots) (h16 : k % 64 = 16) : Completes (.canalSlot p k) s fun u =>
    (∃ fec, u.out = s.out ++ [.flit p (((s.canal p).acks (timeFlit s.ww.index (s.canal p).peerDev (s.slotStamp k)
      (s.canal p).echo.1 (s.canal p).echo.2)).bytes false) fec]) ∧
    u.transit = s.transit ∧ u.canal p = { s.canal p with nakDue := false } := by
  refine completes_live hl (congrArg (doneLive s) ((doSlot_grid ha hj hlaunch hcut hk).trans (if_pos h16))) ?_
  exact sendPlain_effect (s := s.atSlot k) (f := timeFlit s.ww.index (s.canal p).peerDev (s.slotStamp k)
    (s.canal p).echo.1 (s.canal p).echo.2) rfl

theorem canalSlot_past (hk : s.gridSlots ≤ k) : exec (.canalSlot p k) s = .next (s.seal s) := by
  refine (congrArg (doneLive s) ?_).trans (doneLive_of_live hl s)
  rw [State.doSlot, if_neg (by simp [portActive_of ha]), if_neg (by simp [hj])]
  dsimp only
  rw [hlaunch, if_neg (by simp [hcut]), if_pos hk]

omit hl in
theorem canalSlot_replay (hk : k < s.gridSlots) (h32 : k % 32 = 0) :
    exec (.canalSlot p k) s = doneLive s ((s.atSlot k).replaySlot p) :=
  congrArg (doneLive s) ((doSlot_grid ha hj hlaunch hcut hk).trans ((if_neg (by omega)).trans (if_pos h32)))

theorem canalSlot_idle (hk : k < s.gridSlots) (h32 : k % 32 = 0) (hre : (s.canal p).resend = 0)
    (h : ∀ q ∈ s.transit, s.leavesOn p q.flit = true → q.flit.typ = FLIT_SCHED ∧ q.late = false ∧ (s.canal p).missed = []) :
    Completes (.canalSlot p k) s fun u => (∃ fec, u.out = s.out ++ [.flit p (((s.canal p).acks
        { typ := FLIT_IDLE, dst := (s.canal p).peerDev, src := s.ww.index }).bytes false) fec]) ∧
      u.transit = s.transit ∧ u.canal p = { s.canal p with nakDue := false } :=
  completes_live hl ((canalSlot_replay ha hj hlaunch hcut hk h32).trans
    (congrArg (doneLive s) (replaySlot_idle (s := s.atSlot k) hcut hre h))) (sendIdle_effect (s := s.atSlot k))

theorem canalSlot_resends {f : Flit} (hk : k < s.gridSlots) (h32 : k % 32 = 0) (hre : 0 < (s.canal p).resend)
    (hf : (s.canal p).replay[(s.canal p).resendAt]? = some f) : Completes (.canalSlot p k) s fun u =>
      (∃ crc fec, u.out = s.out ++ [.flit p (f.bytes crc) fec]) ∧ (u.canal p).resend = (s.canal p).resend - 1 ∧
      (u.canal p).resendAt = (s.canal p).resendAt + 1 ∧ (u.canal p).replay = (s.canal p).replay := by
  have hrun : (s.atSlot k).replaySlot p = ((s.atSlot k).setCanal p { s.canal p with
      resend := (s.canal p).resend - 1, resendAt := (s.canal p).resendAt + 1 }).lineOut p f := by
    refine (if_pos hre).trans ?_
    rw [State.resendFlit]
    have hf' : ((s.atSlot k).canal p).replay[((s.atSlot k).canal p).resendAt]? = some f := hf
    dsimp only
    rw [hf'] <;> rfl
  obtain ⟨hout, hcan, -⟩ := lineOut_effect ((s.atSlot k).setCanal p { s.canal p with
      resend := (s.canal p).resend - 1, resendAt := (s.canal p).resendAt + 1 }) p f
  have hc := (canal_of_canals hcan p).trans (State.canal_setCanal_self (s.atSlot k) p _)
  rw [← hrun] at hout hc
  refine completes_live hl (canalSlot_replay ha hj hlaunch hcut hk h32) ⟨⟨_, _, hout⟩, ?_⟩
  have hkeep := congrArg Canal.replay hc
  exact ⟨congrArg Canal.resend hc, congrArg Canal.resendAt hc, hkeep⟩

theorem canalSlot_late {q : QFlit} {qs : List QFlit} (hk : k < s.gridSlots) (h32 : k % 32 = 0) (hre : (s.canal p).resend = 0)
    (hroom : (s.canal p).replay.length < 256) (ht : s.transit = q :: qs) (htyp : q.flit.typ = FLIT_SCHED) (hlate : q.late = true)
    (hroute : s.route q.flit = some (p, false)) :
    let f : Flit := { (s.canal p).acks q.flit with seq := (s.canal p).nextSeq }
    Completes (.canalSlot p k) s fun u =>
      (∃ crc fec, u.out = s.out ++ [.flit p (f.bytes crc) fec]) ∧ (u.canal p).replay = (s.canal p).replay ++ [f] ∧
      (u.canal p).nextSeq = ((s.canal p).nextSeq + 1) % 4096 ∧ u.transit = qs := by
  intro f
  have hrun := replaySlot_late (s := s.atSlot k) hre hroom ht htyp hlate hroute
  obtain ⟨hout, hcan, htr⟩ := lineOut_effect (({ s.atSlot k with transit := qs } : State).setCanal p { s.canal p with
      nakDue := false, nextSeq := ((s.canal p).nextSeq + 1) % 4096, replay := (s.canal p).replay ++ [f] }) p f
  have hc := (canal_of_canals hcan p).trans (State.canal_setCanal_self ({ s.atSlot k with transit := qs } : State) p _)
  refine completes_live hl ((canalSlot_replay ha hj hlaunch hcut hk h32).trans (congrArg (doneLive s) hrun)) ⟨⟨_, _, hout⟩, ?_⟩
  exact ⟨congrArg Canal.replay hc, congrArg Canal.nextSeq hc, htr⟩

end

theorem canalSlot_unjoined {k : Nat} (hl : s.Live) (ha : (s.canal p).st = .active) (hj : s.ww.joined = false) (h16 : k % 64 ≠ 16) :
    Completes (.canalSlot p k) s fun u => (∃ fec, u.out = s.out ++ [.flit p (((s.canal p).acks
        { typ := FLIT_IDLE, dst := (s.canal p).peerDev, src := s.ww.index }).bytes false) fec]) ∧ u.transit = s.transit := by
  have hrun : s.doSlot p k = s.sendIdle p := by
    rw [State.doSlot, if_neg (by simp [portActive_of ha]), if_pos (by simp [hj]), if_neg h16]
  obtain ⟨hout, htr, -⟩ := sendIdle_effect (s := s) (p := p)
  exact completes_live hl (congrArg (doneLive s) hrun) ⟨hout, htr⟩

/-! ### Replay -/

section
variable (hne : (s.canal p).replay ≠ [])
include hne

/-- Every flit of the replay buffer is resent. -/
theorem startReplay_effect (h8 : (s.canal p).resends < 8) : (s.startReplay p).fuses = s.fuses ∧
    (s.startReplay p).canal p = { s.canal p with resend := (s.canal p).replay.length, resendAt := 0, resends := (s.canal p).resends + 1 } ∧
    (s.startReplay p).bit (cnlReg p 0x14) 2 = true := by
  have hrun : s.startReplay p = ((s.setCanal p { s.canal p with
      resend := (s.canal p).replay.length, resendAt := 0, resends := (s.canal p).resends + 1 }).cnlErr p 2).fault
        (msgOf K_LINK_REPLAY 5 p) := by
    rw [State.startReplay]
    dsimp only
    rw [if_neg (by simp [hne]), if_neg (by omega)]
  generalize hv : s.setCanal p { s.canal p with
    resend := (s.canal p).replay.length, resendAt := 0, resends := (s.canal p).resends + 1 } = v at hrun
  have hk := fault_kept (v.cnlErr p 2) (msgOf K_LINK_REPLAY 5 p)
  rw [hrun]
  refine ⟨hk.fuses.trans (by rw [← hv] <;> rfl), ?_, ?_⟩
  · refine (canal_of_canals hk.canals p).trans ?_
    rw [← hv]
    exact State.canal_setCanal_self ..
  · rw [(fault_sameLinks ..).bit p 0x14 2 (.inr rfl)]
    exact bit_setBit_self _ _ _ (by decide)

theorem replayTimer_resends (hl : s.Live) (ha : (s.canal p).st = .active) (h8 : (s.canal p).resends < 8) :
    Completes (.replayTimerExpiry p) s fun u =>
      (u.canal p).resend = (s.canal p).replay.length ∧ (u.canal p).resendAt = 0 ∧
      (u.canal p).resends = (s.canal p).resends + 1 ∧ (u.canal p).st = .active ∧ u.bit (cnlReg p 0x14) 2 = true := by
  obtain ⟨hfu, hc, hbit⟩ := startReplay_effect hne h8
  have hst := (congrArg Canal.st hc).trans ha
  refine completes_live hl (congrArg (doneLive s) (if_pos (portActive_of ha)))
    ⟨congrArg Canal.resend hc, congrArg Canal.resendAt hc, congrArg Canal.resends hc, hst, ?_⟩
  rwa [seal_bit hfu]

theorem linkNak_resends (hl : s.Live) (ha : (s.canal p).st = .active) (h8 : (s.canal p).resends < 8) {n : Nat}
    (hn : (s.canal p).replay.findIdx? (fun g => g.seq == n) = none) : Completes (.linkNakReceive p n) s fun u =>
      (u.canal p).resend = (s.canal p).replay.length ∧ (u.canal p).resends = (s.canal p).resends + 1 := by
  obtain ⟨-, hc, -⟩ := startReplay_effect hne h8
  have htake : s.takeAck p n = s := by
    rw [State.takeAck]
    dsimp only
    rw [hn]
  have hrun : (if s.portActive p then (s.takeAck p n).startReplay p else s) = s.startReplay p := by
    rw [if_pos (portActive_of ha), htake]
  exact completes_live hl (congrArg (doneLive s) hrun) ⟨congrArg Canal.resend hc, congrArg Canal.resends hc⟩

end

/-! ### The moves of a port -/

/-- A link as a move to a state leaves it. -/
def Canal.moved (c : Canal) (st : PState) : Canal :=
  { c with st := st, enterAt := none, upstream := c.upstream && decide (st = .active), failures := 0, resends := 0,
           resend := 0, resendAt := 0 }

/-- The acknowledgements of a link that leaves ACTIVE, and its move. -/
def State.moving (s : State) (p : Nat) (st : PState) : State :=
  (if s.portActive p && decide (st ≠ .active) then s.lastAck p else s).modCanal p fun c => c.moved st

/-- A port that has moved: its state, and the registers of the links but RETRAIN. -/
theorem portTo_effect (s : State) (p : Nat) (st : PState) : (s.portTo p st).fuses = s.fuses ∧ ((s.portTo p st).canal p).st = st ∧
    (∀ q i, (s.portTo p st).bit (cnlReg q 0x14) i = s.bit (cnlReg q 0x14) i) ∧
    ∀ q i, i < 32 → (st = .training ∨ st = .retrain) ∨ i ≠ 2 → (s.portTo p st).bit (cnlReg q 0) i = s.bit (cnlReg q 0) i := by
  let moved := s.moving p st
  let cleared := if st = .training ∨ st = .retrain then moved else moved.setBit (cnlReg p 0x00) 2 false
  have hrun : s.portTo p st =
      if s.portActive p && decide (st ≠ .active) then cleared.leftActive p (s.canal p).upstream else cleared := rfl
  have hack : s.SameLinks (if s.portActive p && decide (st ≠ .active) then s.lastAck p else s) :=
    sameLinks_ite (lastAck_sameLinks s p) (sameLinks_of rfl rfl rfl)
  have hend : cleared.SameLinks (s.portTo p st) := by
    rw [hrun]
    exact sameLinks_ite (leftActive_sameLinks ..) (sameLinks_of rfl rfl rfl)
  have hfuses : cleared.fuses = s.fuses := of_ite (P := fun t => t.fuses = s.fuses) hack.fuses hack.fuses
  have hst : (cleared.canal p).st = st := by
    have hm : (moved.canal p).st = st := congrArg Canal.st (State.canal_setCanal_self ..)
    exact of_ite (P := fun t => (t.canal p).st = st) hm hm
  refine ⟨hend.fuses.trans hfuses, (hend.st p).trans hst, fun q i => ?_, fun q i hi h2 => ?_⟩
  · refine (hend.bit q 0x14 i (.inr rfl)).trans (Eq.trans ?_ (hack.bit q 0x14 i (.inr rfl)))
    exact of_ite (P := fun t => t.bit (cnlReg q 0x14) i = moved.bit (cnlReg q 0x14) i) rfl
      (bit_setBit_ne (cnlReg_ne (by decide) (by decide) (by decide)) ..)
  · refine (hend.bit q 0 i (.inl rfl)).trans (Eq.trans ?_ (hack.bit q 0 i (.inl rfl)))
    change State.bit (if st = .training ∨ st = .retrain then moved else _) _ _ = moved.bit _ _
    split
    · rfl
    · next hno =>
      rw [bit_setBit _ _ _ _ hi, if_neg fun h => h2.elim hno (· h.2.symm)]

theorem retireLink_effect (s : State) (p : Nat) : (s.retireLink p).fuses = s.fuses ∧ ((s.retireLink p).canal p).st = .retired ∧
    ((s.canal p).st ≠ .retired → (s.retireLink p).bit (cnlReg p 0x00) 3 = false) := by
  obtain ⟨hfu, hst, -, -⟩ := portTo_effect s p .retired
  unfold State.retireLink
  split
  · next h => exact ⟨rfl, h, fun hne => absurd h hne⟩
  · have hlinks := fault_sameLinks ((s.portTo p .retired).setBit (cnlReg p 0x00) 3 false) (msgOf K_LINK_RETIRED 5 p)
    refine ⟨hlinks.fuses.trans hfu, (hlinks.st p).trans hst, fun _ => ?_⟩
    rw [hlinks.bit p 0x00 3 (.inl rfl)]
    exact bit_setBit_self _ _ _ (by decide)

theorem linkFails_effect (ha : (s.canal p).st = .active) : (s.linkFails p).fuses = s.fuses ∧ ((s.linkFails p).canal p).st = .retrain ∧
    ∀ i, (s.linkFails p).bit (cnlReg p 0x14) i = s.bit (cnlReg p 0x14) i := by
  obtain ⟨hfu, hst, hbit, -⟩ := portTo_effect s p .retrain
  have hlinks := fault_sameLinks (s.portTo p .retrain) (msgOf K_LINK_RETRAIN 5 p)
  rw [State.linkFails, if_pos (portActive_of ha)]
  exact ⟨hlinks.fuses.trans hfu, (hlinks.st p).trans hst, fun i => (hlinks.bit p 0x14 i (.inr rfl)).trans (hbit p i)⟩

theorem replayTimer_fails (hl : s.Live) (ha : (s.canal p).st = .active) (hne : (s.canal p).replay ≠ []) (h8 : 8 ≤ (s.canal p).resends) :
    Completes (.replayTimerExpiry p) s fun u => (u.canal p).st = .retrain ∧ u.bit (cnlReg p 0x14) 3 = true := by
  have hrun : (if s.portActive p then s.startReplay p else s) = (s.cnlErr p 3).linkFails p := by
    rw [if_pos (portActive_of ha), State.startReplay]
    dsimp only
    rw [if_neg (by simp [hne]), if_pos h8]
  obtain ⟨hfu, hst, hbit⟩ := linkFails_effect (s := s.cnlErr p 3) (p := p) ha
  refine completes_live hl (congrArg (doneLive s) hrun) ⟨hst, ?_⟩
  rw [seal_bit (s := s) hfu, hbit]
  exact bit_setBit_self _ _ _ (by decide)

/-! ### The flits of a link that fails (R273, R277) -/

theorem requeue_canal (s : State) (q j : Nat) : (s.requeue q).canal j =
    if q = j then { s.canal q with replay := [], resend := 0, resendAt := 0 } else s.canal j := State.canal_setCanal ..

theorem requeue_transit (s : State) (q : Nat) : (s.requeue q).transit =
    (s.canal q).replay.map (fun f => { port := OWN, late := true, flit := f }) ++ s.transit := rfl

/-- What the requeueing of links does to the flits of one of them. -/
theorem foldl_requeue (l : List (Nat × Canal)) (s : State) (p : Nat) :
    let t := l.foldl (fun s e => s.requeue e.1) s
    (∀ x ∈ s.transit, x ∈ t.transit) ∧ ((s.canal p).replay = [] → (t.canal p).replay = []) ∧
    (p ∈ l.map Prod.fst → (t.canal p).replay = [] ∧
      ∀ f ∈ (s.canal p).replay, { port := OWN, late := true, flit := f } ∈ t.transit) := by
  induction l generalizing s with
  | nil => exact ⟨fun x h => h, id, fun h => absurd h List.not_mem_nil⟩
  | cons a l ih =>
    obtain ⟨htr, hempty, hin⟩ := ih (s.requeue a.1)
    have hkeep : ∀ x ∈ s.transit, x ∈ (s.requeue a.1).transit := fun x h => List.mem_append_right _ h
    refine ⟨fun x h => htr x (hkeep x h), fun h => hempty ?_, fun h => ?_⟩
    · rw [requeue_canal]
      split
      · rfl
      · exact h
    · by_cases he : a.1 = p
      · refine ⟨hempty (by rw [requeue_canal, if_pos he]), fun f hf => htr _ ?_⟩
        rw [requeue_transit, he]
        exact List.mem_append_left _ (List.mem_map_of_mem hf)
      · obtain ⟨hr, hall⟩ := hin ((List.mem_cons.1 h).resolve_left (Ne.symm he))
        refine ⟨hr, fun f hf => hall f ?_⟩
        rwa [requeue_canal, if_neg he]

/-- The links toward a device, as the table lists them. -/
theorem mem_linkGroup {dev q : Nat} : q ∈ s.linkGroup dev ↔
    ∃ c, (q, c) ∈ s.canals ∧ c.st = .active ∧ c.peerValid = true ∧ c.peerDev = dev := by
  simp [State.linkGroup, and_assoc]

theorem mem_of_sdel {α : Type} {k : Nat} {m : SMap α} {e : Nat × α} (h : e ∈ sdel k m) : e ∈ m := by
  induction m with
  | nil => exact h
  | cons a m ih =>
    obtain ⟨k', v⟩ := a
    unfold sdel at h
    split at h
    · exact List.mem_cons_of_mem _ (ih h)
    · exact (List.mem_cons.1 h).elim (fun he => he ▸ List.mem_cons_self ..) fun h => List.mem_cons_of_mem _ (ih h)

theorem mem_of_sset {α : Type} [DecidableEq α] {d v : α} {k : Nat} {m : SMap α} {e : Nat × α} (h : e ∈ sset d k v m) :
    e = (k, v) ∨ e ∈ m := by
  unfold sset at h
  split at h
  · exact .inr (mem_of_sdel h)
  · exact mem_sput h

theorem requeue_linkGroup {dev : Nat} (h : s.linkGroup dev = []) (q : Nat) : (s.requeue q).linkGroup dev = [] := by
  refine List.eq_nil_iff_forall_not_mem.2 fun j hj => ?_
  obtain ⟨c, hmem, hst, hv, hd⟩ := mem_linkGroup.1 hj
  have hno (c' : Canal) (hm : (j, c') ∈ s.canals) (h1 : c'.st = .active) (h2 : c'.peerValid = true) (h3 : c'.peerDev = dev) : False :=
    List.not_mem_nil (h ▸ mem_linkGroup.2 ⟨c', hm, h1, h2, h3⟩)
  have hput : (j, c) ∈ sset {} q { s.canal q with replay := [], resend := 0, resendAt := 0 } s.canals := hmem
  obtain heq | hold := mem_of_sset hput
  · obtain ⟨rfl, rfl⟩ := Prod.mk.inj heq
    have hst' : (s.canal j).st = .active := hst
    have hdef : s.canal j ≠ {} := fun he => by simp [he] at hst'
    exact hno (s.canal j) (mem_of_sget rfl hdef) hst hv hd
  · exact hno c hold hst hv hd

theorem foldl_linkGroup {dev : Nat} (l : List (Nat × Canal)) (s : State) (h : s.linkGroup dev = []) :
    (l.foldl (fun s e => s.requeue e.1) s).linkGroup dev = [] :=
  of_foldl (fun t => State.linkGroup t dev = []) (fun _ e ht => requeue_linkGroup ht e.1) l h

theorem linkGroup_of {t : State} (h : t.canals = s.canals) (dev : Nat) : t.linkGroup dev = s.linkGroup dev := by
  rw [State.linkGroup, h, State.linkGroup]

/-- Under R273 the flits of a link group that is lost wait for another way; those of one that has a port left stay. -/
theorem groupLost_flits (s : State) (p : Nat) : let dev := (s.canal p).peerDev
    let t := s.groupLost dev
    (t.linkGroup dev ≠ [] → (t.canal p).replay = (s.canal p).replay) ∧
    (t.linkGroup dev = [] → (s.canal p).peerValid = true → (t.canal p).replay = [] ∧
      ∀ f ∈ (s.canal p).replay, { port := OWN, late := true, flit := f } ∈ t.transit) := by
  intro dev t
  by_cases hg : s.linkGroup dev = []
  · have ht : t = (s.canals.filter fun e => e.2.peerValid && e.2.peerDev == dev && !e.2.replay.isEmpty).foldl
        (fun s e => s.requeue e.1) s := if_neg (by simp [hg])
    rw [ht]
    refine ⟨fun h => absurd (foldl_linkGroup _ s hg) h, fun _ hv => ?_⟩
    obtain ⟨-, hempty, hin⟩ := foldl_requeue
      (s.canals.filter fun e => e.2.peerValid && e.2.peerDev == dev && !e.2.replay.isEmpty) s p
    by_cases hr : (s.canal p).replay = []
    · exact ⟨hempty hr, fun f hf => absurd (hr ▸ hf) List.not_mem_nil⟩
    · have hdef : s.canal p ≠ {} := fun he => absurd (hv.symm.trans (congrArg Canal.peerValid he)) (by decide)
      exact hin (List.mem_map.2 ⟨(p, s.canal p), List.mem_filter.2 ⟨mem_of_sget rfl hdef, by simp [hv, hr, dev]⟩, rfl⟩)
  · have ht : t = s := if_pos (by simp [hg])
    rw [ht]
    exact ⟨fun _ => rfl, fun h => absurd h hg⟩

theorem gateMin_links (s : State) : s.gateMin.canals = s.canals ∧ s.gateMin.transit = s.transit := by
  unfold State.gateMin
  dsimp only
  split
  · exact ⟨(fault_kept ..).canals, fault_transit ..⟩
  · exact ⟨rfl, rfl⟩

theorem loseTime_links (s : State) : s.loseTime.canals = s.canals ∧ s.loseTime.transit = s.transit := by
  unfold State.loseTime
  split <;> exact ⟨rfl, rfl⟩

theorem leftActive_links (s : State) (p : Nat) (up : Bool) :
    (s.leftActive p up).canals = (s.groupLost (s.canal p).peerDev).canals ∧
    (s.leftActive p up).transit = (s.groupLost (s.canal p).peerDev).transit := by
  obtain ⟨hc, ht⟩ := gateMin_links (s.groupLost (s.canal p).peerDev)
  unfold State.leftActive
  dsimp only
  split
  · obtain ⟨hc', ht'⟩ := loseTime_links (s.groupLost (s.canal p).peerDev).gateMin
    exact ⟨hc'.trans hc, ht'.trans ht⟩
  · exact ⟨hc, ht⟩

/-- The last acknowledgement leaves the failing port itself alone. -/
theorem lastAck_canal (s : State) (p : Nat) : (s.lastAck p).canal p = s.canal p ∧ (s.lastAck p).fuses = s.fuses := by
  unfold State.lastAck
  dsimp only
  split
  · next q hq =>
    have hne : q ≠ p := by simpa using List.find?_some hq
    rw [State.sendTrain]
    obtain ⟨-, hcan, -⟩ := lineOut_effect (s.setCanal q { s.canal q with nakDue := false }) q ((s.canal q).acks
      { typ := FLIT_TRAIN, dst := (s.canal q).peerDev, src := s.ww.index,
        payload := padTo 240 (toLe 1 (s.canal p).peerPort ++ toLe 1 (bnat false) ++
          toLe 2 ((some (((s.canal p).expected + 4095) % 4096)).getD 0xFFFF)) })
    refine ⟨(canal_of_canals hcan p).trans ((State.canal_setCanal ..).trans (if_neg hne)), (sendPlain_sameLinks ..).fuses⟩
  · exact ⟨rfl, rfl⟩

/-- A link that fails: the flits in its replay buffer. -/
theorem linkFails_flits (ha : (s.canal p).st = .active) : let dev := (s.canal p).peerDev
    let u := s.linkFails p
    (u.linkGroup dev ≠ [] → (u.canal p).replay = (s.canal p).replay) ∧
    (u.linkGroup dev = [] → (s.canal p).peerValid = true → (u.canal p).replay = [] ∧
      ∀ f ∈ (s.canal p).replay, { port := OWN, late := true, flit := f } ∈ u.transit) := by
  intro dev u
  have hmoved : (s.moving p .retrain).canal p = (s.canal p).moved .retrain := by
    rw [State.moving, if_pos (by simp [portActive_of ha]), State.modCanal, State.canal_setCanal_self, (lastAck_canal s p).1]
  generalize hv : s.moving p .retrain = v at hmoved
  have hrun : u = (v.leftActive p (s.canal p).upstream).fault (msgOf K_LINK_RETRAIN 5 p) := by
    have hport : s.portTo p .retrain = v.leftActive p (s.canal p).upstream := by
      rw [← hv]
      exact if_pos (by simp [portActive_of ha])
    exact (if_pos (portActive_of ha)).trans (congrArg (fun t => State.fault t (msgOf K_LINK_RETRAIN 5 p)) hport)
  have hdev : (v.canal p).peerDev = dev := by rw [hmoved, Canal.moved]
  have hrep : (v.canal p).replay = (s.canal p).replay := by rw [hmoved, Canal.moved]
  have hval : (v.canal p).peerValid = (s.canal p).peerValid := by rw [hmoved, Canal.moved]
  obtain ⟨hcan, htr⟩ := leftActive_links v p (s.canal p).upstream
  obtain ⟨hstay, hgo⟩ := groupLost_flits v p
  rw [hdev] at hcan htr hstay hgo
  have hcanals : u.canals = (v.groupLost dev).canals := by rw [hrun, (fault_kept ..).canals, hcan]
  have htransit : u.transit = (v.groupLost dev).transit := by rw [hrun, fault_transit, htr]
  rw [linkGroup_of hcanals, canal_of_canals hcanals, htransit]
  rw [hrep, hval] at *
  exact ⟨hstay, hgo⟩

theorem link_lost (hl : s.Live) (ha : (s.canal p).st = .active) {i : Instr} (hi : exec i s = doneLive s (s.linkFails p)) :
    Completes i s fun u => (u.canal p).st = .retrain ∧
      (u.linkGroup (s.canal p).peerDev ≠ [] → (u.canal p).replay = (s.canal p).replay) ∧
      (u.linkGroup (s.canal p).peerDev = [] → (s.canal p).peerValid = true →
        (u.canal p).replay = [] ∧ ∀ f ∈ (s.canal p).replay, { port := OWN, late := true, flit := f } ∈ u.transit) := by
  obtain ⟨-, hst, -⟩ := linkFails_effect ha
  obtain ⟨hstay, hgo⟩ := linkFails_flits ha
  exact completes_live hl hi ⟨hst, hstay, hgo⟩

/-! ### Commands of a port -/

theorem inactive_idle (hl : s.Live) (hn : (s.canal p).st ≠ .active) : exec (.linkSilenceTimeout p) s = .next (s.seal s) ∧
    exec (.lossOfCodewordAlignment p) s = .next (s.seal s) ∧ exec (.replayTimerExpiry p) s = .next (s.seal s) ∧
    (∀ n, exec (.linkNakReceive p n) s = .next (s.seal s)) ∧ ∀ k, exec (.canalSlot p k) s = .next (s.seal s) := by
  have hno : ¬s.portActive p = true := by simp [not_portActive hn]
  have hidle {i : Instr} {t : State} (hi : exec i s = doneLive s t) (ht : t = s) : exec i s = .next (s.seal s) := by
    rw [hi, ht, doneLive_of_live hl]
  exact ⟨hidle rfl (if_neg hno), hidle rfl (if_neg hno), hidle rfl (if_neg hno), fun n => hidle rfl (if_neg hno),
    fun k => hidle rfl (if_pos (by simp [not_portActive hn]))⟩

theorem peerSignal_trains (hl : s.Live) (h : (s.canal p).st = .absent) : Completes (.peerSignalReturn p) s fun u =>
    (u.canal p).st = .training :=
  completes_live hl (congrArg (doneLive s) (if_pos h)) (portTo_effect s p .training).2.1

section
variable (hl : s.Live) (hp : p < s.fuses.variant.canals)
include hl hp

theorem linkRetire_retires : Completes (.linkRetire p) s fun u => (u.canal p).st = .retired ∧ u.bit (cnlReg p 0x00) 3 = false := by
  have hrun : ∃ t : State, t.fuses = s.fuses ∧ s.linkRetire p = (t.retireLink p).setBit (cnlReg p 0x00) 3 false := by
    rw [State.linkRetire, if_neg (by omega)]
    dsimp only
    refine ⟨_, ?_, rfl⟩
    split
    · exact (sendPlain_sameLinks ..).fuses
    · rfl
  obtain ⟨t, hfu, hrun⟩ := hrun
  obtain ⟨hfu', hst, -⟩ := retireLink_effect t p
  refine completes_live hl (congrArg (doneLive s) hrun) ⟨hst, ?_⟩
  rw [seal_bit (t := (t.retireLink p).setBit (cnlReg p 0x00) 3 false) (hfu'.trans hfu)]
  exact bit_setBit_self _ _ _ (by decide)

theorem linkRetrain_retrains (ha : (s.canal p).st = .active) : Completes (.linkRetrain p) s fun u =>
    (u.canal p).st = .retrain ∧ u.bit (cnlReg p 0x00) 2 = true := by
  obtain ⟨hfu, hst, -, hbit⟩ := portTo_effect (s.setBit (cnlReg p 0x00) 2 true) p .retrain
  have hrun : s.linkRetrain p = (s.setBit (cnlReg p 0x00) 2 true).portTo p .retrain := by
    rw [State.linkRetrain, if_neg (by omega), ha]
  refine completes_live hl (congrArg (doneLive s) hrun) ⟨hst, ?_⟩
  rw [seal_bit (s := s) hfu, hbit p 2 (by decide) (.inl (.inr rfl))]
  exact bit_setBit_self _ _ _ (by decide)

theorem linkRetrain_trains (ha : (s.canal p).st = .retired) : Completes (.linkRetrain p) s fun u => (u.canal p).st = .training := by
  have hrun : s.linkRetrain p = (s.setBit (cnlReg p 0x00) 2 true).portTo p .training := by
    rw [State.linkRetrain, if_neg (by omega), ha]
  exact completes_live hl (congrArg (doneLive s) hrun) (portTo_effect _ p .training).2.1

theorem portEnable_trains (hst : (s.canal p).st = .disabled) (h8 : 8 ≤ s.boot.step) (hpin : s.pins.pgLink = true) :
    Completes (.portEnable p) s fun u => (u.canal p).st = .training ∧ u.bit (cnlReg p 0x00) 0 = true := by
  obtain ⟨hfu, hst', -, hbit⟩ := portTo_effect (s.setBit (cnlReg p 0x00) 0 true) p .training
  have hself : (s.setBit (cnlReg p 0x00) 0 true).bit (cnlReg p 0x00) 0 = true := bit_setBit_self _ _ _ (by decide)
  have hmay : (s.setBit (cnlReg p 0x00) 0 true).mayTrain p = true := by
    rw [State.mayTrain, hself]
    simp [State.setBit, State.setFld, State.setReg, hp, hpin, hl]
  have hrun : s.portEnable p true = (s.setBit (cnlReg p 0x00) 0 true).portTo p .training := by
    rw [State.portEnable, if_neg (by omega)]
    dsimp only
    rw [if_neg (by decide), hmay]
    have hst' : ((s.setBit (cnlReg p 0x00) 0 true).canal p).st = .disabled := hst
    exact if_pos (by simp [hst', h8])
  refine completes_live hl (congrArg (doneLive s) hrun) ⟨hst', ?_⟩
  rw [seal_bit (s := s) hfu, hbit p 0 (by decide) (.inr (by decide))]
  exact hself

theorem portEnable_early (h8 : s.boot.step < 8) :
    exec (.portEnable p) s = .next ((s.setBit (cnlReg p 0x00) 0 true).seal s) := by
  refine (congrArg (doneLive s) ?_).trans (doneLive_of_live hl _)
  rw [State.portEnable, if_neg (by omega)]
  dsimp only
  rw [if_neg (by decide), if_neg]
  have : ¬8 ≤ s.boot.step := by omega
  simp [this]

end

end Sys2Proof.Machine

/-- Settles O42: what a slot of a joined link carries, its resends, and the states that a link takes with what becomes of its
flits, as R260, R261, R264, R273, R275 to R281 and R285 say. -/
theorem linksAndSlots : Obligations.LinksAndSlots := by
  unfold Obligations.LinksAndSlots
  refine fun s p hl => ⟨fun ha hj hlaunch hcut => ⟨fun k hk h16 => canalSlot_time hl ha hj hlaunch hcut hk h16,
      fun k hk => canalSlot_past hl ha hj hlaunch hcut hk,
      fun k hk h32 hre h => canalSlot_idle hl ha hj hlaunch hcut hk h32 hre h,
      fun k f hk h32 hre hf => canalSlot_resends hl ha hj hlaunch hcut hk h32 hre hf,
      fun k q qs hk h32 hre hroom ht htyp hlate hroute =>
        canalSlot_late hl ha hj hlaunch hcut hk h32 hre hroom ht htyp hlate hroute⟩,
    fun ha hj k h16 => canalSlot_unjoined hl ha hj h16,
    fun ha hne h8 => ⟨replayTimer_resends hne hl ha h8, fun n hn => linkNak_resends hne hl ha h8 hn⟩,
    fun ha hne h8 => replayTimer_fails hl ha hne h8, fun ha => ⟨link_lost hl ha rfl, link_lost hl ha rfl⟩,
    inactive_idle hl, peerSignal_trains hl, fun hp => ⟨linkRetire_retires hl hp, linkRetrain_retrains hl hp,
      linkRetrain_trains hl hp, portEnable_trains hl hp, portEnable_early hl hp, ?_, ?_⟩⟩
  · exact (congrArg (doneLive s) (if_pos hp)).trans (doneLive_of_live hl _)
  · exact (congrArg (doneLive s) (if_pos hp)).trans (doneLive_of_live hl _)

end

section
/-! Flits that arrive on a link (R253 to R259, R275, R281 to R285). -/

open Sys2Proof Sys2Proof.Machine

namespace Sys2Proof.Machine
variable {s : State} {p : Nat}

/-! ### Receiving -/

/-- What a received flit of an active link does. -/
theorem receive_active (ha : (s.canal p).st = .active) (x : RxFlit) (types : List Nat) (act : State → Flit → State) :
    s.receive p x types act = match x.read with
      | .uncorrectable => s.cnlErr p 0
      | .badCrc => s.cnlErr p 1
      | .flit f => if types.contains f.typ then act (s.ackFields p f) f else s := by
  rw [State.receive, ha] <;> rfl

theorem receive_uncorrectable (ha : (s.canal p).st = .active) {x : RxFlit} (hx : x.read = .uncorrectable) (types : List Nat)
    (act : State → Flit → State) : s.receive p x types act = s.setBit (cnlReg p 0x14) 0 true := by
  rw [receive_active ha, hx] <;> rfl

theorem receive_badCrc (ha : (s.canal p).st = .active) {x : RxFlit} (hx : x.read = .badCrc) (types : List Nat)
    (act : State → Flit → State) : s.receive p x types act = s.setBit (cnlReg p 0x14) 1 true := by
  rw [receive_active ha, hx] <;> rfl

theorem receive_flit (ha : (s.canal p).st = .active) {x : RxFlit} {f : Flit} (hx : x.read = .flit f) {types : List Nat}
    (ht : f.typ ∈ types) (act : State → Flit → State) : s.receive p x types act = act (s.ackFields p f) f := by
  rw [receive_active ha, hx]
  exact if_pos (by simpa using ht)

theorem ackFields_none {f : Flit} (h : f.ackv = false) : s.ackFields p f = s := if_pos (by simp [h])

/-- A flit without an acknowledgement. -/
theorem receive_plain (ha : (s.canal p).st = .active) {x : RxFlit} {f : Flit} (hx : x.read = .flit f) (hack : f.ackv = false)
    {types : List Nat} (ht : f.typ ∈ types) (act : State → Flit → State) : s.receive p x types act = act s f := by
  rw [receive_flit ha hx ht, ackFields_none hack]

theorem all_errs (hl : s.Live) {x : RxFlit} {t : State}
    (h : ∀ (types : List Nat) (act : State → Flit → State), s.receive p x types act = t) :
    exec (.dataFlitReceive p x.errs x.bytes) s = .next (t.seal s) ∧ exec (.lackReceive p x.errs x.bytes) s = .next (t.seal s) ∧
    exec (.idleFlitReceive p x.errs x.bytes) s = .next (t.seal s) ∧ exec (.absentFlitReceive p x.errs x.bytes) s = .next (t.seal s) ∧
    (∀ e0 e1 h sp crc bs, gateRx e0 e1 h sp crc bs = x → exec (.gateFlitReceive p e0 e1 h sp crc bs) s = .next (t.seal s)) ∧
    (∀ t4, exec (.timeFlitReceive p x.errs x.bytes t4) s = .next (t.seal s)) ∧
    ∀ r l, exec (.trainFlitReceive p x.errs x.bytes r l) s = .next (t.seal s) := by
  have hrun {i : Instr} {v : State} (hi : exec i s = doneLive s v) (hv : v = t) : exec i s = .next (t.seal s) := by
    rw [hi, hv, doneLive_of_live hl]
  exact ⟨hrun rfl (h ..), hrun rfl (h ..), hrun rfl (h ..), hrun rfl (h ..),
    fun e0 e1 hd sp crc bs hg => hrun rfl (hg ▸ h ..), fun t4 => hrun rfl (h ..), fun r l => hrun rfl (h ..)⟩

/-! ### Acknowledgements (R275, R276) -/

theorem takeAck_at {n i : Nat} (hi : (s.canal p).replay.findIdx? (fun g => g.seq == n) = some i) :
    s.takeAck p n = s.setCanal p { s.canal p with
      replay := (s.canal p).replay.drop (i + 1), resends := 0, resendAt := (s.canal p).resendAt - (i + 1),
      resend := (s.canal p).resend - ((i + 1) - (s.canal p).resendAt) } := by
  rw [State.takeAck]
  dsimp only
  rw [hi]

section
variable {x : RxFlit} {f : Flit} {i : Nat} (hl : s.Live) (ha : (s.canal p).st = .active) (hx : x.read = .flit f)
  (hack : f.ackv = true) (hi : (s.canal p).replay.findIdx? (fun g => g.seq == f.ack) = some i) (ht : f.typ = FLIT_IDLE)
include hl ha hx hack hi ht

theorem idle_acks (hn : f.nak = false) : Completes (.idleFlitReceive p x.errs x.bytes) s fun u =>
    (u.canal p).replay = (s.canal p).replay.drop (i + 1) ∧ (u.canal p).resends = 0 := by
  have hrun : s.receive p x [FLIT_IDLE] (fun s _ => s) = s.takeAck p f.ack := by
    rw [receive_flit ha hx (by simp [ht]), State.ackFields, if_neg (by simp [hack])]
    dsimp only
    rw [if_neg (by simp [hn])]
  rw [takeAck_at hi] at hrun
  have hc := State.canal_setCanal_self s p { s.canal p with
      replay := (s.canal p).replay.drop (i + 1), resends := 0, resendAt := (s.canal p).resendAt - (i + 1),
      resend := (s.canal p).resend - ((i + 1) - (s.canal p).resendAt) }
  exact completes_live hl (congrArg (doneLive s) hrun) ⟨congrArg Canal.replay hc, congrArg Canal.resends hc⟩

theorem idle_naks (hn : f.nak = true) (hmore : i + 1 < (s.canal p).replay.length) :
    Completes (.idleFlitReceive p x.errs x.bytes) s fun u =>
      (u.canal p).replay = (s.canal p).replay.drop (i + 1) ∧ (u.canal p).resend = (s.canal p).replay.length - (i + 1) ∧
      (u.canal p).resendAt = 0 ∧ (u.canal p).resends = 1 := by
  have hrun : s.receive p x [FLIT_IDLE] (fun s _ => s) = (s.takeAck p f.ack).startReplay p := by
    rw [receive_flit ha hx (by simp [ht]), State.ackFields, if_neg (by simp [hack])]
    exact if_pos hn
  have hc := State.canal_setCanal_self s p { s.canal p with
      replay := (s.canal p).replay.drop (i + 1), resends := 0, resendAt := (s.canal p).resendAt - (i + 1),
      resend := (s.canal p).resend - ((i + 1) - (s.canal p).resendAt) }
  rw [← takeAck_at hi] at hc
  have hrep := congrArg Canal.replay hc
  have hres := congrArg Canal.resends hc
  dsimp only at hrep hres
  obtain ⟨-, hc', -⟩ := startReplay_effect (s := s.takeAck p f.ack) (p := p)
    (by rw [hrep]; exact List.ne_nil_of_length_pos (by rw [List.length_drop]; omega)) (by rw [hres]; decide)
  refine completes_live hl (congrArg (doneLive s) hrun) ⟨?_, ?_, congrArg Canal.resendAt hc', ?_⟩
  · exact (congrArg Canal.replay hc').trans hrep
  · refine (congrArg Canal.resend hc').trans ?_
    rw [hrep, List.length_drop]
  · refine (congrArg Canal.resends hc').trans ?_
    rw [hres]

end

/-! ### Sequenced flits (R275) -/

/-- A link that has accepted a flit in order. -/
def Canal.accepted (c : Canal) : Canal := { c with expected := (c.expected + 1) % 4096, nakSent := false, nakDue := false }

theorem sequenced_takes {f : Flit} (hseq : f.seq = (s.canal p).expected)
    (hroom : ¬(f.typ = FLIT_FREIGHT ∧ f.dst ≠ s.ww.index ∧ 256 ≤ s.freightOf p)) (act : State → State) :
    s.sequenced p f act = act (s.setCanal p (s.canal p).accepted) := by
  rw [State.sequenced]
  rw [if_neg (by simp [hseq]), if_neg hroom] <;> rfl

theorem sequenced_full {f : Flit} (hseq : f.seq = (s.canal p).expected)
    (hfull : f.typ = FLIT_FREIGHT ∧ f.dst ≠ s.ww.index ∧ 256 ≤ s.freightOf p) (act : State → State) :
    s.sequenced p f act = s := by
  rw [State.sequenced]
  rw [if_neg (by simp [hseq]), if_pos hfull]

theorem sequenced_skips {f : Flit} (hseq : f.seq ≠ (s.canal p).expected) (act : State → State) : s.sequenced p f act =
    if (s.canal p).nakSent then s else s.setCanal p { s.canal p with nakSent := true, nakDue := true } := if_pos hseq

/-- The numbering of a link that has accepted a flit. -/
theorem accepted_next {u : State} (h : u.canals = (s.setCanal p (s.canal p).accepted).canals) :
    (u.canal p).expected = ((s.canal p).expected + 1) % 4096 ∧ (u.canal p).nakSent = false ∧ (u.canal p).nakDue = false := by
  have hc := (canal_of_canals h p).trans (State.canal_setCanal_self s p (s.canal p).accepted)
  rw [hc]
  exact ⟨rfl, rfl, rfl⟩

section
variable {x : RxFlit} {f : Flit} (hl : s.Live) (ha : (s.canal p).st = .active) (hx : x.read = .flit f) (hack : f.ackv = false)
include hl ha hx hack

theorem idle_plain (ht : f.typ = FLIT_IDLE) : exec (.idleFlitReceive p x.errs x.bytes) s = .next (s.seal s) :=
  (congrArg (doneLive s) (receive_plain ha hx hack (by simp [ht]) _)).trans (doneLive_of_live hl s)

/-- A data flit at its link. -/
theorem data_runs (ht : f.typ = FLIT_SCHED ∨ f.typ = FLIT_FREIGHT) : exec (.dataFlitReceive p x.errs x.bytes) s =
    .next ((s.sequenced p f fun s => if f.dst = s.ww.index then s.deliver f else s.enqueue p f).seal s) :=
  (congrArg (doneLive s) (receive_plain ha hx hack (by rcases ht with h | h <;> simp [h]) _)).trans (doneLive_of_live hl _)

theorem data_skipped (ht : f.typ = FLIT_SCHED ∨ f.typ = FLIT_FREIGHT) (hseq : f.seq ≠ (s.canal p).expected) :
    ((s.canal p).nakSent = false → exec (.dataFlitReceive p x.errs x.bytes) s =
      .next ((s.setCanal p { s.canal p with nakSent := true, nakDue := true }).seal s)) ∧
    ((s.canal p).nakSent = true → exec (.dataFlitReceive p x.errs x.bytes) s = .next (s.seal s)) := by
  rw [data_runs hl ha hx hack ht, sequenced_skips hseq]
  exact ⟨fun h => by rw [if_neg (by simp [h])], fun h => by rw [if_pos h]⟩

theorem data_full (ht : f.typ = FLIT_SCHED ∨ f.typ = FLIT_FREIGHT) (hseq : f.seq = (s.canal p).expected) (hd : f.dst ≠ s.ww.index)
    (hfr : f.typ = FLIT_FREIGHT) (hfull : 256 ≤ s.freightOf p) : exec (.dataFlitReceive p x.errs x.bytes) s = .next (s.seal s) := by
  rw [data_runs hl ha hx hack ht, sequenced_full hseq ⟨hfr, hd, hfull⟩]

theorem data_relayed (ht : f.typ = FLIT_SCHED ∨ f.typ = FLIT_FREIGHT) (hseq : f.seq = (s.canal p).expected) (hd : f.dst ≠ s.ww.index)
    (hroom : f.typ = FLIT_SCHED ∨ s.freightOf p < 256) : Completes (.dataFlitReceive p x.errs x.bytes) s fun u =>
      ((u.canal p).expected = ((s.canal p).expected + 1) % 4096 ∧ (u.canal p).nakSent = false ∧ (u.canal p).nakDue = false) ∧
      u.transit = s.transit ++ [{ port := p, flit := f }] ∧ u.tiles = s.tiles ∧ u.hdm = s.hdm := by
  have hfit : ¬(f.typ = FLIT_FREIGHT ∧ f.dst ≠ s.ww.index ∧ 256 ≤ s.freightOf p) := fun h =>
    hroom.elim (fun hs => absurd (hs.symm.trans h.1) (by decide)) fun hr => by omega
  refine ⟨_, data_runs hl ha hx hack ht, ?_⟩
  rw [sequenced_takes hseq hfit, if_neg (show f.dst ≠ (s.setCanal p (s.canal p).accepted).ww.index from hd)]
  exact ⟨accepted_next (s := s) rfl, rfl, rfl, rfl⟩

end

/-! ### A data flit at its destination (R257) -/

theorem holdWrite_setTile {t a : Nat} {bs : PBytes} (h : (s.tile t).inject = none) :
    s.holdWrite t a bs = s.setTile t ((s.tile t).putHold a bs) := by
  unfold State.holdWrite State.injUsed
  dsimp only
  rw [h] <;> rfl

/-- The words of a flit that is not a barge's first. -/
theorem flitWords_getD {f : Flit} (hf : f.first = false) (hlen : flitLen f ≤ 30) (hp : f.payload.length = 240) :
    (flitWords f).length = 8 * flitLen f ∧
    ∀ i < 8 * flitLen f, some ((flitWords f).getD i (0, false)).1 = f.payload[i]? := by
  have hword : flitWords f = ((f.payload.take (8 * flitLen f)).zipIdx).map fun b =>
      (b.1, bitOf (flitPoison f) ((0 + b.2) / 64)) := by
    unfold flitWords
    dsimp only
    rw [if_neg (by simp [hf]), List.drop_zero]
  have hl : (flitWords f).length = 8 * flitLen f := by
    rw [hword, List.length_map, List.length_zipIdx, List.length_take, hp]
    omega
  refine ⟨hl, fun i hi => ?_⟩
  have hin : i < f.payload.length := by omega
  have hget : (flitWords f)[i]? = some (f.payload[i], bitOf (flitPoison f) ((0 + (0 + i)) / 64)) := by
    rw [hword, List.getElem?_map, List.getElem?_zipIdx, List.getElem?_take, if_pos hi, List.getElem?_eq_getElem hin] <;> rfl
  rw [List.getD_eq_getElem?_getD, hget, List.getElem?_eq_getElem hin] <;> rfl

theorem data_delivered {x : RxFlit} {f : Flit} (hl : s.Live) (ha : (s.canal p).st = .active) (hx : x.read = .flit f)
    (hack : f.ackv = false) (ht : f.typ = FLIT_SCHED ∨ f.typ = FLIT_FREIGHT) {y : Incoming} {t : Nat}
    (hseq : f.seq = (s.canal p).expected) (hd : f.dst = s.ww.index) (hfirst : f.first = false) (hlast : f.last = false)
    (hstream : isStream f = false) (hy : sfind? s.remote (remoteKey f) = some y) (hden : y.denied = false)
    (hadd : headAdd y.head = false) (hphys : s.physTile (flitTile f) = some t) (hinj : (s.tile t).inject = none)
    (hfit : 8 * (flitWord f + flitLen f) ≤ 0x180000) (hlen : flitLen f ≤ 30) (hp : f.payload.length = 240) :
    Completes (.dataFlitReceive p x.errs x.bytes) s fun u =>
      ((u.canal p).expected = ((s.canal p).expected + 1) % 4096 ∧ (u.canal p).nakSent = false ∧ (u.canal p).nakDue = false) ∧
      (∀ i < 8 * flitLen f, some ((u.tile t).hold.byte (8 * flitWord f + i)) = f.payload[i]?) ∧
      (∀ a, a < 8 * flitWord f ∨ 8 * (flitWord f + flitLen f) ≤ a →
        (u.tile t).hold.byte a = (s.tile t).hold.byte a) ∧ u.remote = s.remote := by
  obtain ⟨hwl, hwords⟩ := flitWords_getD hfirst hlen hp
  have hnot : ¬(f.typ = FLIT_FREIGHT ∧ f.dst ≠ s.ww.index ∧ 256 ≤ s.freightOf p) := fun h => h.2.1 hd
  generalize hv : s.setCanal p (s.canal p).accepted = v
  have hvrest : v.remote = s.remote ∧ v.fuses = s.fuses ∧ v.tiles = s.tiles := by rw [← hv]; exact ⟨rfl, rfl, rfl⟩
  obtain ⟨hvrem, hvfu, hvtl⟩ := hvrest
  have hvtile : v.tile t = s.tile t := tile_of_eq hvtl hvfu t
  have hvphys : v.physTile (flitTile f) = some t := by rw [← hv]; exact hphys
  have htake : (flitWords f).take (HOLD_BYTES - 8 * flitWord f) = flitWords f :=
    List.take_of_length_le (by rw [hwl]; unfold HOLD_BYTES; omega)
  have hwrite : v.writeRemote f y = v.setTile t ((s.tile t).putHold (8 * flitWord f) (flitWords f)) := by
    rw [State.writeRemote, hvphys]
    dsimp only
    rw [if_neg (by simp [hadd]), htake, holdWrite_setTile (by rw [hvtile]; exact hinj), hvtile]
  have hdel : v.deliver f = v.setTile t ((s.tile t).putHold (8 * flitWord f) (flitWords f)) := by
    rw [State.deliver, if_neg (by simp [hstream])]
    dsimp only
    rw [if_neg (by simp [hfirst]), hvrem, hy]
    exact (if_pos (by simp [hlast])).trans ((if_neg (by simp [hden])).trans hwrite)
  have hrun : (s.sequenced p f fun s => if f.dst = s.ww.index then s.deliver f else s.enqueue p f) =
      v.setTile t ((s.tile t).putHold (8 * flitWord f) (flitWords f)) := by
    rw [sequenced_takes hseq hnot, hv, if_pos (by rw [← hv]; exact hd), hdel]
  have hself : ((v.setTile t ((s.tile t).putHold (8 * flitWord f) (flitWords f))).seal s).tile t =
      (s.tile t).putHold (8 * flitWord f) (flitWords f) :=
    (seal_tile (t := v.setTile t _) hvfu t).trans (State.tile_setTile_self ..)
  have hbyte (a : Nat) := putHold_byte hinj (8 * flitWord f) (flitWords f) a
  refine ⟨_, (data_runs hl ha hx hack ht).trans (congrArg (fun z : State => (Host.Outcome.next (z.seal s) : Host.Outcome State Fault Refusal)) hrun), ?_, fun i hi => ?_,
    fun a hout => ?_, hvrem⟩
  · exact accepted_next (s := s) (by rw [hv] <;> rfl)
  · rw [hself, hbyte, hwl, if_pos (by omega), Nat.add_sub_cancel_left]
    exact hwords i hi
  · rw [hself, hbyte, hwl, if_neg (by omega)]

/-! ### Landing acknowledgements (R200, R259) -/

section
variable {x : RxFlit} {f : Flit} (hl : s.Live) (ha : (s.canal p).st = .active) (hx : x.read = .flit f) (hack : f.ackv = false)
  (ht : f.typ = FLIT_LACK) (hseq : f.seq = (s.canal p).expected)
include hl ha hx hack ht hseq

/-- An acknowledgement flit at its link. -/
theorem lack_runs : exec (.lackReceive p x.errs x.bytes) s =
    .next ((if f.dst = s.ww.index then (lackWords f).foldl (fun s w => s.landTicket (w % 256) (bitOf w 8))
        (s.setCanal p (s.canal p).accepted)
      else (s.setCanal p (s.canal p).accepted).enqueue p f).seal s) := by
  refine (congrArg (doneLive s) ?_).trans (doneLive_of_live hl _)
  refine (receive_plain ha hx hack (by simp [ht]) _).trans (sequenced_takes hseq (fun h => absurd (ht.symm.trans h.1) (by decide)) _)

theorem lack_relayed (hd : f.dst ≠ s.ww.index) : Completes (.lackReceive p x.errs x.bytes) s fun u =>
    ((u.canal p).expected = ((s.canal p).expected + 1) % 4096 ∧ (u.canal p).nakSent = false ∧ (u.canal p).nakDue = false) ∧
    u.transit = s.transit ++ [{ port := p, flit := f }] ∧ u.tiles = s.tiles := by
  refine ⟨_, lack_runs hl ha hx hack ht hseq, ?_⟩
  rw [if_neg hd]
  exact ⟨accepted_next (s := s) rfl, rfl, rfl⟩

omit hl ha hx hack ht hseq in
theorem land_lc {y : Tile} (hle : ∀ n, y.lc n ≤ 0xFFFF) (c n : Nat) :
    (y.land c).lc n = min 0xFFFF (y.lc n + if n = c then 1 else 0) := by
  have hget : (y.land c).lc n = if c = n then min 0xFFFF (y.lc c + 1) else y.lc n := sget_sset ..
  have := hle n
  rw [hget]
  split
  · next h => rw [if_pos h.symm, h]
  · next h =>
    rw [if_neg (Ne.symm h)]
    omega

omit hl ha hx hack ht hseq in
/-- A barge to another device leaves flight and lands on its counter alone. -/
theorem landBarge_remote {t id : Nat} {b : BargeInst} (hb : (s.tile t).barges.find? (fun b => b.id == id) = some b)
    (hkind : (descOf b.desc).dstKind = 5) : s.landBarge t id =
      s.setTile t (({ s.tile t with barges := (s.tile t).barges.filter fun b => b.id ≠ id } : Tile).land b.lc) := by
  rw [State.landBarge, hb]
  exact if_neg (by simp [hkind])

theorem lack_lands {w t id : Nat} {b : BargeInst} (hd : f.dst = s.ww.index) (hw : lackWords f = [w]) (h8 : bitOf w 8 = false)
    (htk : sfind? s.tickets (w % 256) = some (t, id)) (hlow : t < 272)
    (hb : (s.tile t).barges.find? (fun b => b.id == id) = some b) (hkind : (descOf b.desc).dstKind = 5)
    (hle : ∀ n, (s.tile t).lc n ≤ 0xFFFF) : Completes (.lackReceive p x.errs x.bytes) s fun u =>
      ((u.canal p).expected = ((s.canal p).expected + 1) % 4096 ∧ (u.canal p).nakSent = false ∧ (u.canal p).nakDue = false) ∧
      sfind? u.tickets (w % 256) = none ∧ (u.tile t).barges = (s.tile t).barges.filter (fun b => b.id ≠ id) ∧
      ∀ n, (u.tile t).lc n = min 0xFFFF ((s.tile t).lc n + if n = b.lc then 1 else 0) := by
  generalize hv : s.setCanal p (s.canal p).accepted = v
  have hvrest : v.tickets = s.tickets ∧ v.fuses = s.fuses ∧ v.tiles = s.tiles := by rw [← hv]; exact ⟨rfl, rfl, rfl⟩
  obtain ⟨hvtk, hvfu, hvtl⟩ := hvrest
  have hvtile : v.tile t = s.tile t := tile_of_eq hvtl hvfu t
  generalize hy : ({ s.tile t with barges := (s.tile t).barges.filter fun b => b.id ≠ id } : Tile) = y
  have hland : ({ v with tickets := sdel (w % 256) v.tickets } : State).landBarge t id =
      ({ v with tickets := sdel (w % 256) v.tickets } : State).setTile t (y.land b.lc) := by
    have htile : ({ v with tickets := sdel (w % 256) v.tickets } : State).tile t = s.tile t := hvtile
    rw [landBarge_remote (by rw [htile]; exact hb) hkind, htile, hy]
  have hrun : v.landTicket (w % 256) false =
      ({ v with tickets := sdel (w % 256) v.tickets } : State).setTile t (y.land b.lc) := by
    rw [State.landTicket, hvtk, htk]
    refine (if_neg (by omega)).trans ?_
    rw [← hvtk]
    exact (if_neg (by simp)).trans hland
  have hexec : exec (.lackReceive p x.errs x.bytes) s =
      .next ((({ v with tickets := sdel (w % 256) v.tickets } : State).setTile t (y.land b.lc)).seal s) := by
    rw [lack_runs hl ha hx hack ht hseq, if_pos hd, hw, hv, List.foldl_cons, List.foldl_nil, h8, hrun]
  have hself : (((({ v with tickets := sdel (w % 256) v.tickets } : State).setTile t (y.land b.lc)).seal s).tile t) = y.land b.lc :=
    (seal_tile (t := ({ v with tickets := sdel (w % 256) v.tickets } : State).setTile t (y.land b.lc)) hvfu t).trans
      (State.tile_setTile_self ..)
  refine ⟨_, hexec, accepted_next (s := s) (by rw [hv] <;> rfl), (sfind_sdel (w % 256) v.tickets _).trans (if_pos rfl), ?_, fun n => ?_⟩
  · rw [hself, ← hy] <;> rfl
  · rw [hself]
    exact (land_lc (by rw [← hy]; exact hle) b.lc n).trans (by rw [← hy] <;> rfl)

end

/-! ### Time (R281, R282) -/

section
variable {x : RxFlit} {f : Flit} (hl : s.Live) (ha : (s.canal p).st = .active) (hx : x.read = .flit f) (hack : f.ackv = false)
  (ht : f.typ = FLIT_TIME) (t4 : Nat)
include ha hx hack ht

omit ha hx hack ht in
theorem exchange_fields (c : Canal) (f : Flit) (t4 : Nat) : (c.exchange f t4).echo = (stampAt f 0, t4) ∧
    (c.exchange f t4).upstream = c.upstream ∧ (¬(stampAt f 0x0C = 0 ∧ stampAt f 0x18 = 0) → (c.exchange f t4).flights =
      ((stampDiff (stampAt f 0x18) (stampAt f 0x0C) + stampDiff t4 (stampAt f 0)) / 2).toNat :: c.flights.take 63) := by
  unfold Canal.exchange
  dsimp only
  split
  · next h => exact ⟨rfl, rfl, fun hn => absurd h hn⟩
  · exact ⟨rfl, rfl, fun _ => rfl⟩

omit ha hx hack ht in
/-- Time comes to an instant, but neither back nor past the next lock. -/
theorem clockTo_stamp (s : State) (t : Nat) : (s.clockTo t).stamp = max s.stamp (min t (s.nextLock * 2 ^ 16)) := by
  have h : (s.clockTo t).stamp = max s.stamp (min t (s.nextLock * 2 ^ 16)) / 2 ^ 16 * 2 ^ 16 +
      max s.stamp (min t (s.nextLock * 2 ^ 16)) % 2 ^ 16 := rfl
  rw [h, Nat.div_add_mod']

omit ha hx hack ht in
/-- A correction is at most 50 ppm of the time since the last. -/
theorem slew_le (theta : Int) (dt : Nat) : 1000000 * (slew theta dt).natAbs ≤ 50 * dt := by
  have hmost : 1000000 * (dt * 50 / 1000000) ≤ dt * 50 := Nat.mul_div_le ..
  unfold slew
  dsimp only
  generalize dt * 50 / 1000000 = m at hmost
  omega

/-- A TIME flit at its link. -/
theorem time_runs : s.timeIn p x t4 =
    if s.ww.joined && (s.canal p).upstream then (s.setCanal p ((s.canal p).exchange f t4)).discipline p t4
    else s.setCanal p ((s.canal p).exchange f t4) := by
  refine (receive_plain ha hx hack (by simp [ht]) _).trans ?_
  have hself : (s.setCanal p ((s.canal p).exchange f t4)).canal p = (s.canal p).exchange f t4 := State.canal_setCanal_self ..
  rw [State.modCanal]
  dsimp only
  rw [hself, (exchange_fields (s.canal p) f t4).2.1] <;> rfl

include hl

theorem time_echoes (hno : (s.canal p).upstream = false ∨ s.ww.joined = false) : Completes (.timeFlitReceive p x.errs x.bytes t4) s fun u =>
    (u.canal p).echo = (stampAt f 0, t4) ∧ u.ww = s.ww ∧ (¬(stampAt f 0x0C = 0 ∧ stampAt f 0x18 = 0) → (u.canal p).flights =
      ((stampDiff (stampAt f 0x18) (stampAt f 0x0C) + stampDiff t4 (stampAt f 0)) / 2).toNat :: (s.canal p).flights.take 63) := by
  obtain ⟨hecho, -, hfl⟩ := exchange_fields (s.canal p) f t4
  have hc := State.canal_setCanal_self s p ((s.canal p).exchange f t4)
  have hrun := (time_runs ha hx hack ht t4).trans (if_neg (by rcases hno with h | h <;> simp [h]))
  exact completes_live hl (congrArg (doneLive s) hrun) ⟨(congrArg Canal.echo hc).trans hecho, rfl,
    fun hn => (congrArg Canal.flights hc).trans (hfl hn)⟩

theorem time_disciplines (hup : (s.canal p).upstream = true) (hj : s.ww.joined = true) :
    Completes (.timeFlitReceive p x.errs x.bytes t4) s fun u =>
      (u.canal p).echo = (stampAt f 0, t4) ∧ u.ww.pound = s.ww.pound ∧ u.ww.lockTime = s.ww.lockTime ∧
      u.ww.holdover = decide (4 ≤ s.ww.lmAbsent) ∧ u.ww.syncAt = u.stamp ∧ s.stamp ≤ u.stamp ∧
      ∃ d : Int, 1000000 * d.natAbs ≤ 50 * (if s.ww.syncAt = 0 then 0 else t4 - s.ww.syncAt) ∧
        u.stamp = max s.stamp (min ((t4 : Int) + d).toNat (s.nextLock * 2 ^ 16)) := by
  obtain ⟨hecho, -, -⟩ := exchange_fields (s.canal p) f t4
  have hc := State.canal_setCanal_self s p ((s.canal p).exchange f t4)
  have hrun := (time_runs ha hx hack ht t4).trans (if_pos (by simp [hj, hup]))
  generalize hv : s.setCanal p ((s.canal p).exchange f t4) = v at hrun hc
  have hww : v.ww = s.ww := by rw [← hv] <;> rfl
  have hstamp : v.stamp = s.stamp := by rw [State.stamp, hww, State.stamp]
  have hlock : v.nextLock = s.nextLock := by rw [← hv] <;> rfl
  generalize hd : slew (v.canal p).theta (if v.ww.syncAt = 0 then 0 else t4 - v.ww.syncAt) = d
  have hclock := clockTo_stamp v ((t4 : Int) + d).toNat
  rw [hstamp, hlock] at hclock
  have hfields : (v.clockTo ((t4 : Int) + d).toNat).ww.pound = v.ww.pound ∧ (v.clockTo ((t4 : Int) + d).toNat).ww.lockTime = v.ww.lockTime ∧
      (v.clockTo ((t4 : Int) + d).toNat).ww.lmAbsent = v.ww.lmAbsent ∧ (v.clockTo ((t4 : Int) + d).toNat).canals = v.canals :=
    ⟨rfl, rfl, rfl, rfl⟩
  generalize hz : v.clockTo ((t4 : Int) + d).toNat = z at hclock hfields
  obtain ⟨hpound, hlt, habs, hcan⟩ := hfields
  rw [hww] at hpound hlt habs
  have hdisc : v.discipline p t4 = { z with ww := { z.ww with syncAt := z.stamp, holdover := decide (4 ≤ z.ww.lmAbsent) } } := by
    rw [State.discipline, hd, hz]
  have hecho' : (z.canal p).echo = (stampAt f 0, t4) := by rw [canal_of_canals hcan, hc, hecho]
  refine completes_live hl (congrArg (doneLive s) (hrun.trans hdisc)) ⟨hecho', hpound, hlt, by rw [← habs] <;> rfl, rfl, ?_, d, ?_, hclock⟩
  · exact (Nat.le_max_left ..).trans_eq hclock.symm
  · rw [← hd, hww]
    exact slew_le ..

end

/-! ### Training and absent flits (R277, R280, R285) -/

section
variable {x : RxFlit} {f : Flit} (hl : s.Live) (ha : (s.canal p).st = .active) (hx : x.read = .flit f) (hack : f.ackv = false)
include hl ha hx hack

theorem train_runs (ht : f.typ = FLIT_TRAIN) (retire : Option Nat) (failed : Option (Nat × Nat)) {t : State}
    (h : (let v := match retire with
            | some q => if q < s.fuses.variant.canals then s.retireLink q else s
            | none => s
          match failed with
          | some (q, ack) => v.failedLink q ack
          | none => v) = t) :
    exec (.trainFlitReceive p x.errs x.bytes retire failed) s = .next (t.seal s) := by
  refine (congrArg (doneLive s) ?_).trans (doneLive_of_live hl t)
  exact (receive_plain ha hx hack (by simp [ht]) _).trans h

theorem train_idle (ht : f.typ = FLIT_TRAIN) : exec (.trainFlitReceive p x.errs x.bytes none none) s = .next (s.seal s) :=
  train_runs hl ha hx hack ht none none rfl

theorem train_retires (ht : f.typ = FLIT_TRAIN) {q : Nat} (hq : q < s.fuses.variant.canals) (hst : (s.canal q).st ≠ .retired) :
    Completes (.trainFlitReceive p x.errs x.bytes (some q) none) s fun u =>
      (u.canal q).st = .retired ∧ u.bit (cnlReg q 0x00) 3 = false := by
  obtain ⟨hfu, hret, hbit⟩ := retireLink_effect s q
  refine ⟨_, train_runs hl ha hx hack ht (some q) none (if_pos hq), hret, ?_⟩
  rw [seal_bit hfu]
  exact hbit hst

theorem train_requeues (ht : f.typ = FLIT_TRAIN) {q ack i : Nat} (hst : (s.canal q).st ≠ .active)
    (hi : (s.canal q).replay.findIdx? (fun g => g.seq == ack) = some i) :
    Completes (.trainFlitReceive p x.errs x.bytes none (some (q, ack))) s fun u =>
      (u.canal q).replay = [] ∧ u.transit = ((s.canal q).replay.drop (i + 1)).map
        (fun g => { port := OWN, late := true, flit := g }) ++ s.transit := by
  have hrun : s.failedLink q ack = (s.takeAck q ack).requeue q := if_neg (by simp [not_portActive hst])
  have hreq := (requeue_canal (s.takeAck q ack) q q).trans (if_pos rfl)
  have htr := requeue_transit (s.takeAck q ack) q
  have hrep : ((s.takeAck q ack).canal q).replay = (s.canal q).replay.drop (i + 1) := by
    rw [takeAck_at hi, State.canal_setCanal_self]
  have hold : (s.takeAck q ack).transit = s.transit := by rw [takeAck_at hi] <;> rfl
  rw [hrep, hold] at htr
  exact ⟨_, train_runs hl ha hx hack ht none (some (q, ack)) hrun, congrArg Canal.replay hreq, htr⟩

theorem absent_marks (ht : f.typ = FLIT_ABSENT) : Completes (.absentFlitReceive p x.errs x.bytes) s fun u =>
    (u.canal p).st = .absent ∧ u.bit (cnlReg p 0x14) 5 = true := by
  obtain ⟨hfu, hst, hbit, -⟩ := portTo_effect (s.cnlErr p 5) p .absent
  have hlinks := fault_sameLinks ((s.cnlErr p 5).portTo p .absent) (msgOf K_LINK_ABSENT 5 p)
  refine completes_live hl (congrArg (doneLive s) (receive_plain ha hx hack (by simp [ht]) _)) ⟨(hlinks.st p).trans hst, ?_⟩
  rw [seal_bit (s := s) (hlinks.fuses.trans hfu), hlinks.bit p 0x14 5 (.inr rfl), hbit]
  exact bit_setBit_self _ _ _ (by decide)

end

end Sys2Proof.Machine

/-- Settles O41: a flit that cannot be corrected or whose CRC fails sets its bit of CNL_ERR, an acknowledgement acts, a sequenced
flit is taken in order, and each type does what R257 to R259, R277, R281, R282 and R285 say. -/
theorem flitsArrive : Obligations.FlitsArrive := by
  unfold Obligations.FlitsArrive
  refine fun s p x hl ha => ⟨fun hx => all_errs hl (receive_uncorrectable ha hx), fun hx => all_errs hl (receive_badCrc ha hx),
    fun f i hx hack hi ht => ⟨idle_acks hl ha hx hack hi ht, idle_naks hl ha hx hack hi ht⟩,
    fun f hx hack => ⟨idle_plain hl ha hx hack,
      fun ht => ⟨fun hseq => (data_skipped hl ha hx hack ht hseq).1, fun hseq => (data_skipped hl ha hx hack ht hseq).2,
        data_full hl ha hx hack ht, data_relayed hl ha hx hack ht,
        fun y t hseq hd hfirst hlast hstream hy hden hadd hphys hinj hfit hlen hp =>
          data_delivered hl ha hx hack ht hseq hd hfirst hlast hstream hy hden hadd hphys hinj hfit hlen hp⟩,
      fun ht hseq => ⟨lack_relayed hl ha hx hack ht hseq,
        fun w t id b hd hw h8 htk hlow hb hkind hle => lack_lands hl ha hx hack ht hseq hd hw h8 htk hlow hb hkind hle⟩,
      fun ht t4 => ⟨time_echoes hl ha hx hack ht t4, time_disciplines hl ha hx hack ht t4⟩,
      fun ht => ⟨train_idle hl ha hx hack ht, fun q hq hst => train_retires hl ha hx hack ht hq hst,
        fun q ack i hst hi => train_requeues hl ha hx hack ht hst hi⟩,
      absent_marks hl ha hx hack⟩⟩

end

section
/-! Landings of accesses and barges (R168, R200, R421). -/

open Sys2Proof Sys2Proof.Machine

namespace Sys2Proof.Machine
variable {s : State} {t id : Nat}

/-! ### Requests that nothing holds back -/

theorem admitted_nothing (s : State) : s.admitted [] = s := by
  have h : s.port.curOk.filter (fun la => !(([] : List Touch).any fun t => t.1 == la)) = s.port.curOk :=
    List.filter_eq_self.2 fun _ _ => rfl
  unfold State.admitted
  rw [h]

theorem admitted_spent (h : s.port.curOk = []) (ts : List Touch) : s.admitted ts = s := by
  have hf : s.port.curOk.filter (fun la => !(ts.any fun t => t.1 == la)) = s.port.curOk := by rw [h, List.filter_nil]
  unfold State.admitted
  rw [hf]

/-! ### The counters of a landing -/

/-- What a tile keeps while an access of its own is performed. -/
structure Tile.SameLanding (x y : Tile) : Prop where
  accs : y.accs = x.accs
  lcs : y.lcs = x.lcs
  lcsat : y.lcsat = x.lcsat
  sched : y.sched = x.sched
  cyc : y.cyc = x.cyc
  hold : y.hold = x.hold

theorem Tile.SameLanding.rfl {x : Tile} : x.SameLanding x := ⟨Eq.refl _, Eq.refl _, Eq.refl _, Eq.refl _, Eq.refl _, Eq.refl _⟩

theorem putS_sameLanding (x : Tile) (r : Nat) (v : Word) (p : Bool) : x.SameLanding (x.putS r v p) := by
  unfold Tile.putS
  split
  · exact .rfl
  · exact ⟨rfl, rfl, rfl, rfl, rfl, rfl⟩

/-- Access `id` of tile `t` has landed on counter `c` (R168, R421). -/
def State.AccessLanded (s u : State) (t id c : Nat) : Prop :=
  (u.tile t).accs = (s.tile t).accs.filter (fun e => e.id ≠ id) ∧
  (∀ n, (u.tile t).lc n = if n = c then min 0xFFFF ((s.tile t).lc n + 1) else (s.tile t).lc n) ∧
  (u.tile t).lcsat = ((s.tile t).lcsat || decide (0xFFFF ≤ (s.tile t).landOn c)) ∧ (u.tile t).hold = (s.tile t).hold ∧
  ∀ j, j ≠ t → u.tile j = s.tile j

/-- A state as access `id` of tile `t` leaves flight in it. -/
def State.landAcc (v : State) (t id c : Nat) : State :=
  v.modTile t fun x => { x with accs := x.accs.filter fun e => e.id ≠ id }.land c

theorem landAcc_tile (v : State) (t id c : Nat) (hfu : v.fuses = s.fuses) :
    ((v.landAcc t id c).seal s).tile t = ({ v.tile t with accs := (v.tile t).accs.filter fun e => e.id ≠ id } : Tile).land c :=
  (seal_tile (t := v.landAcc t id c) hfu t).trans (State.tile_setTile_self ..)

theorem landAcc_sregs (v : State) (t id c : Nat) (hfu : v.fuses = s.fuses) :
    (((v.landAcc t id c).seal s).tile t).sregs = (v.tile t).sregs := by
  rw [landAcc_tile (s := s) v t id c hfu] <;> rfl

theorem landAcc_landed {v : State} {c : Nat} (hfu : v.fuses = s.fuses) (hsame : (s.tile t).SameLanding (v.tile t))
    (hrest : ∀ j, j ≠ t → v.tile j = s.tile j) : s.AccessLanded ((v.landAcc t id c).seal s) t id c := by
  have hself := landAcc_tile (s := s) v t id c hfu
  obtain ⟨haccs, hlcs, hsat, hsched, hcyc, hhold⟩ := hsame
  have hon : ({ v.tile t with accs := (v.tile t).accs.filter fun e => e.id ≠ id } : Tile).landOn c = (s.tile t).landOn c := by
    unfold Tile.landOn Tile.lc
    dsimp only
    rw [hlcs, hsched, hcyc]
  refine ⟨?_, fun n => ?_, ?_, ?_, fun j hj => ?_⟩
  · rw [hself, ← haccs] <;> rfl
  · rw [hself]
    refine (sget_sset ..).trans ?_
    have hlc (n : Nat) : (v.tile t).lc n = (s.tile t).lc n := by rw [Tile.lc, hlcs] <;> rfl
    by_cases hn : n = c
    · rw [if_pos hn.symm, if_pos hn, hn]
      exact congrArg (fun k => min 0xFFFF (k + 1)) (hlc c)
    · rw [if_neg (Ne.symm hn), if_neg hn]
      exact hlc n
  · rw [hself]
    exact (congrArg₂ (fun a n => a || decide (0xFFFF ≤ n)) hsat hon)
  · rw [hself]
    exact hhold
  · exact (seal_tile (t := v.landAcc t id c) hfu j).trans
      ((State.tile_setTile ..).trans ((if_neg (Ne.symm hj)).trans (hrest j hj)))

/-! ### Accesses that land -/

theorem access_waits (hl : s.Live) {a e : Access} (ha : (s.tile t).accs.find? (fun e => e.id == id) = some a)
    (he : e ∈ earlier (s.tile t).accs id)
    (h : a.rl = true ∨ e.aq = true ∨ a.kind = .fence ∨ e.kind = .fence ∨ (a.va < e.va + e.size ∧ e.va < a.va + a.size)) :
    exec (.globalAccessLanding t id) s = .next (s.seal s) := by
  have hw : a.waitsFor e = true := by
    unfold Access.waitsFor
    obtain h | h | h | h | ⟨h1, h2⟩ := h
    · simp [h]
    · simp [h]
    · simp [h]
    · simp [h]
    · simp [h1, h2]
  have hrun : s.doAccessLanding t id = s := by
    rw [State.doAccessLanding, ha]
    exact if_pos (by rw [List.any_eq_true.2 ⟨e, he, hw⟩]; rfl)
  refine (congrArg (doneLive s) hrun).trans (doneLive_of_live hl s)

section
variable (hl : s.Live) {a : Access} (ha : (s.tile t).accs.find? (fun e => e.id == id) = some a)
  (hfirst : earlier (s.tile t).accs id = [])
include hl ha hfirst

theorem access_lands {v : State} (hshut : s.accessShut t a = false)
    (hhome : s.atHome (.globalAccessLanding t id) none (s.accessTouches t a) (fun s => s.landAccess t id) = s.landAccess t id)
    (hv : v = if a.kind = .fence then s else s.performAccess t a) :
    exec (.globalAccessLanding t id) s = .next ((v.landAcc t id a.lc).seal s) := by
  have hopen : ((earlier (s.tile t).accs id).any a.waitsFor || s.accessShut t a) = false := by rw [hfirst, hshut] <;> rfl
  have hland : s.landAccess t id = v.landAcc t id a.lc := by
    rw [State.landAccess, ha]
    refine (if_neg (by rw [hopen]; decide)).trans ?_
    rw [hv]
    cases a.kind with
    | fence => rfl
    | gld rd => rfl
    | gst => rfl
    | gamo rd fn nf => rfl
  have hrun : s.doAccessLanding t id = v.landAcc t id a.lc := by
    rw [State.doAccessLanding, ha]
    exact (if_neg (by rw [hopen]; decide)).trans (hhome.trans hland)
  exact (congrArg (doneLive s) hrun).trans (doneLive_of_live hl _)

theorem fence_lands (hk : a.kind = .fence) : Completes (.globalAccessLanding t id) s fun u =>
    s.AccessLanded u t id a.lc ∧ u.hdm = s.hdm ∧ u.host = s.host ∧ (u.tile t).sregs = (s.tile t).sregs := by
  have htouch : s.accessTouches t a = [] := by rw [State.accessTouches, hk]
  refine ⟨_, access_lands hl ha hfirst (v := s) (by rw [State.accessShut, hk]) ?_ (if_pos hk).symm,
    landAcc_landed rfl .rfl fun _ _ => rfl, rfl, rfl, ?_⟩
  · rw [htouch, atHome_free (by simp), admitted_nothing]
  · exact landAcc_sregs s t id a.lc rfl

/-! #### Accesses to one uncached piece -/

section
variable {g : XSeg} (hsegs : s.segs t a.va a.size = (s, [g])) (hsize : a.size = 8) (hlen : g.len = 8) (hhost : g.host = false)
  (hattr : g.attr = 3) (hce : g.ce = false) (hpa : g.pa % 8 = 0) (hcur : s.port.curOk = [])
include hsegs hlen hhost hpa hcur

omit hl ha hfirst hcur in
theorem access_touches (wr : Bool) : ((s.segs t a.va a.size).2.flatMap fun g => touches g.host g.pa g.len wr) =
    [(lineOf g.pa, some wr)] := by
  rw [hsegs, List.flatMap_cons, List.flatMap_nil, List.append_nil, hhost, hlen]
  exact touches_single (by decide) (lineOf_word hpa) wr

omit hl ha hfirst in
theorem access_home {wr : Bool} (htouch : s.accessTouches t a =
      (s.segs t a.va a.size).2.flatMap fun g => touches g.host g.pa g.len wr)
    (hfree : s.homeBusy none (lineOf g.pa, some wr) = false) :
    s.atHome (.globalAccessLanding t id) none (s.accessTouches t a) (fun s => s.landAccess t id) = s.landAccess t id := by
  rw [htouch, access_touches hsegs hlen hhost hpa, atHome_line hfree, admitted_spent hcur]

include hsize hattr hce

theorem store_lands (hb : s.Backed g.pa) (hfree : s.homeBusy none (lineOf g.pa, some true) = false) (hk : a.kind = .gst)
    (hp : a.poison = false) : Completes (.globalAccessLanding t id) s fun u =>
      s.AccessLanded u t id a.lc ∧ (u.tile t).sregs = (s.tile t).sregs ∧
      (∀ i < 8, u.hdm.byte (g.pa + i) = a.value.extractLsb' (8 * i) 8) ∧
      ∀ b, b < g.pa ∨ g.pa + 8 ≤ b → u.hdm.byte b = s.hdm.byte b := by
  have hbytes : (toLe 8 a.value.toNat).length = 8 := toLe_length ..
  have hparts : lineParts g.pa ((toLe 8 a.value.toNat).map fun b => (b, false)) = [(g.pa, toLe 8 a.value.toNat, false)] :=
    lineParts_single (by omega) (by rw [hbytes]; exact lineOf_word hpa) false
  have hperf : s.performAccess t a = s.stkWriteLine g.pa (toLe 8 a.value.toNat) 0 := by
    unfold State.performAccess
    rw [hsegs, hk]
    dsimp only
    rw [countSeg_off hce, hsize, hp, hhost, hattr, State.reachStore, isUc_uncached]
    refine (if_pos rfl).trans ?_
    rw [State.ucWrite, hparts] <;> rfl
  have hshut : s.accessShut t a = false := by
    rw [State.accessShut, hk, hsegs]
    simp [hhost]
  obtain ⟨stk, regs, hst, hput⟩ := stkWriteLine_put hb 0 hpa (by rw [hbytes])
  have hv : s.stored (s.hdm.putWords g.pa (toLe 8 a.value.toNat) 0 (wordsOf g.pa (toLe 8 a.value.toNat).length)) stk regs =
      if a.kind = .fence then s else s.performAccess t a := by
    rw [if_neg (by simp [hk]), ← hst, hperf]
  rw [hst] at hput
  refine ⟨_, access_lands hl ha hfirst hshut (access_home hsegs hlen hhost hpa hcur (by rw [State.accessTouches, hk]) hfree) hv,
    landAcc_landed rfl .rfl fun _ _ => rfl, ?_, fun i hi => ?_, fun b hb => ?_⟩
  · exact landAcc_sregs (s := s) (s.stored _ stk regs) t id a.lc rfl
  · have hread := congrArg (fun l => l[i]?) hput.1
    rw [hbytes, Ram.read_eq, List.getElem?_map, List.getElem?_range hi, toLe_getElem? hi] at hread
    rw [BitVec.extractLsb', Nat.shiftRight_eq_div_pow]
    exact Option.some.inj hread
  · exact hput.2 b (by rw [hbytes]; exact hb)

theorem load_lands {rd : Nat} (hb : s.Backed (lineOf g.pa)) (hfree : s.homeBusy none (lineOf g.pa, some false) = false)
    (hk : a.kind = .gld rd) (hrd : 0 < rd) (hclean : s.CleanLine (lineOf g.pa)) :
    Completes (.globalAccessLanding t id) s fun u =>
      s.AccessLanded u t id a.lc ∧ u.hdm = s.hdm ∧
      (u.tile t).rs rd = BitVec.ofNat 64 (leNat ((List.range 8).map fun i => s.hdm.byte (g.pa + i))) := by
  have hperf : s.performAccess t a = s.modTile t fun x =>
      x.putS rd (BitVec.ofNat 64 (leNat ((List.range 8).map fun i => s.hdm.byte (g.pa + i)))) false := by
    have hucread : s.ucRead false g.pa 8 =
        (s, ((List.range 8).map fun i => s.hdm.byte (g.pa + i)).map fun b => (b, false)) := by
      have hpart : ((s.hdm.read (lineOf g.pa) 64).drop (g.pa - lineOf g.pa)).take 8 =
          (List.range 8).map fun i => s.hdm.byte (g.pa + i) := by
        rw [Ram.drop_take_read s.hdm (by unfold lineOf; omega) (by unfold lineOf; omega), Ram.read_eq]
      rw [State.ucRead, linesOf_single (by decide) (lineOf_word hpa), List.foldl_cons, List.foldl_nil]
      dsimp only
      rw [if_neg (by decide), stkReadLine_clean hb hclean (lineOf_aligned g.pa), List.nil_append]
      dsimp only
      rw [part_inside _ rfl, hpart]
    obtain ⟨hdata, hclear⟩ := data_clean ((List.range 8).map fun i => s.hdm.byte (g.pa + i))
    unfold State.performAccess
    rw [hsegs, hk]
    dsimp only
    rw [countSeg_off hce, hsize, hhost, hattr, isUc_uncached, if_pos rfl, hucread]
    dsimp only
    rw [hdata, hclear]
  have hv : (s.modTile t fun x =>
      x.putS rd (BitVec.ofNat 64 (leNat ((List.range 8).map fun i => s.hdm.byte (g.pa + i)))) false) =
      if a.kind = .fence then s else s.performAccess t a := by
    rw [if_neg (by simp [hk]), hperf]
  generalize BitVec.ofNat 64 (leNat ((List.range 8).map fun i => s.hdm.byte (g.pa + i))) = v at *
  have hself : (s.modTile t fun x => x.putS rd v false).tile t = (s.tile t).putS rd v false := State.tile_setTile_self ..
  refine ⟨_, access_lands hl ha hfirst (by rw [State.accessShut, hk])
    (access_home hsegs hlen hhost hpa hcur (by rw [State.accessTouches, hk]) hfree) hv,
    landAcc_landed rfl (by rw [hself]; exact putS_sameLanding ..) fun j hj =>
      (State.tile_setTile ..).trans (if_neg (Ne.symm hj)), rfl, ?_⟩
  have hregs := landAcc_sregs (s := s) (s.modTile t fun x => x.putS rd v false) t id a.lc rfl
  rw [Tile.rs, hregs, hself]
  exact (rs_putS (s.tile t) rd v false rd).trans (by rw [if_neg (by omega), if_pos rfl])

end
end

/-! ### A hold copy that lands (R168, R200) -/

/-- The barges of a tile with barge `id` changed. -/
def bargesMap (bs : List BargeInst) (id : Nat) (f : BargeInst → BargeInst) : List BargeInst :=
  bs.map fun x => if x.id = id then f x else x

theorem find_bargesMap (bs : List BargeInst) (id : Nat) {f : BargeInst → BargeInst} (hf : ∀ x, (f x).id = x.id) :
    (bargesMap bs id f).find? (fun b => b.id == id) = (bs.find? fun b => b.id == id).map f := by
  unfold bargesMap
  induction bs with
  | nil => rfl
  | cons x bs ih =>
    by_cases hx : x.id = id
    · simp [hx, hf]
    · have hne : (x.id == id) = false := by simp [hx]
      rw [List.map_cons, if_neg hx, List.find?_cons, List.find?_cons, hne]
      exact ih

/-- The other barges stand as they did. -/
theorem filter_bargesMap (bs : List BargeInst) (id : Nat) {f : BargeInst → BargeInst} (hf : ∀ x, (f x).id = x.id) :
    (bargesMap bs id f).filter (fun b => b.id ≠ id) = bs.filter fun b => b.id ≠ id := by
  unfold bargesMap
  induction bs with
  | nil => rfl
  | cons x bs ih =>
    rw [List.map_cons, List.filter_cons, List.filter_cons, ih]
    by_cases hx : x.id = id
    · rw [if_pos hx, if_neg (by simp [hf, hx]), if_neg (by simp [hx])]
    · rw [if_neg hx]

/-- Tile `t` of `v` has these barges in flight, and nothing else of its storage, its counters or other tiles has changed
(R166). -/
structure State.Rebarged (s v : State) (t : Nat) (bs : List BargeInst) : Prop where
  fuses : v.fuses = s.fuses
  port : v.port = s.port
  hdm : v.hdm = s.hdm
  self : v.tile t = { s.tile t with barges := bs }
  rest : ∀ j, j ≠ t → v.tile j = s.tile j

section
variable {b : BargeInst} (hb : (s.tile t).barges.find? (fun b => b.id == id) = some b) (hop : (descOf b.desc).op = 0)
  (hsrc : (descOf b.desc).srcKind = 1) (hdst : (descOf b.desc).dstKind = 1)
include hb hop hsrc hdst

omit hb hop in
/-- A hold copy makes no request of the host or of a berth. -/
theorem bargeRequests_hold {v : State} (hv : v.barge? t id = some b) : v.bargeRequests t id = v := by
  have hgo : v.bargeGo t id = v := by
    rw [State.bargeGo, hv]
    exact if_neg fun h => by rw [hdst] at h; exact absurd h.1 (by decide)
  have hreads : v.bargeHostReads t b (descOf b.desc) = (v, []) := by
    rw [State.bargeHostReads, hsrc]
    exact if_pos (by decide)
  rw [State.bargeRequests, hv]
  dsimp only
  rw [hreads, List.foldl_nil, hsrc, if_neg (by decide), hgo]

theorem bargeStart_hold : ∃ bs b', s.Rebarged (s.bargeStart t id) t bs ∧
    bs.filter (fun b => b.id ≠ id) = (s.tile t).barges.filter (fun b => b.id ≠ id) ∧
    bs.find? (fun b => b.id == id) = some b' ∧ b'.started = true ∧ b'.desc = b.desc ∧ b'.lc = b.lc ∧
    b'.berthTags = b.berthTags := by
  have hget : s.barge? t id = some b := hb
  by_cases hst : b.started = true
  · have hrun : s.bargeStart t id = s := by
      rw [State.bargeStart, hget]
      exact if_pos hst
    rw [hrun]
    exact ⟨_, b, ⟨rfl, rfl, rfl, rfl, fun _ _ => rfl⟩, rfl, hb, hst, rfl, rfl, rfl⟩
  · have hlist : s.indexList t (descOf b.desc) = (s, []) := if_neg (by simp [hop])
    have hf : ∀ x : BargeInst, ({ x with index := [], started := true } : BargeInst).id = x.id := fun _ => rfl
    generalize hv : s.modBarge t id (fun b => { b with index := [], started := true }) = v
    have hself : v.tile t = { s.tile t with
        barges := bargesMap (s.tile t).barges id fun b => { b with index := [], started := true } } := by
      rw [← hv]
      exact State.tile_setTile_self ..
    have hfind : (bargesMap (s.tile t).barges id fun b => { b with index := [], started := true }).find? (fun b => b.id == id) =
        some { b with index := [], started := true } := by rw [find_bargesMap _ id hf, hb, Option.map_some]
    have hbar : v.barge? t id = some { b with index := [], started := true } := by
      rw [State.barge?, hself]
      exact hfind
    have hrun : s.bargeStart t id = v := by
      rw [State.bargeStart, hget]
      refine (if_neg hst).trans ?_
      rw [hlist]
      dsimp only
      rw [hv]
      exact bargeRequests_hold (b := { b with index := [], started := true }) hsrc hdst hbar
    rw [hrun]
    refine ⟨_, _, ⟨?_, ?_, ?_, hself, fun j hj => ?_⟩, filter_bargesMap _ id hf, hfind, rfl, rfl, rfl, rfl⟩
    · rw [← hv] <;> rfl
    · rw [← hv] <;> rfl
    · rw [← hv] <;> rfl
    · rw [← hv]
      exact (State.tile_setTile ..).trans (if_neg (Ne.symm hj))

end

/-! #### The bytes of a hold copy -/

section
variable {b : BargeInst} (hop : (descOf b.desc).op = 0) (hcvt : (descOf b.desc).cvt = false)
  (hsrc : (descOf b.desc).srcKind = 1) (hdst : (descOf b.desc).dstKind = 1) (h1 : (descOf b.desc).c1 = 1)
  (h2 : (descOf b.desc).c2 = 1) (h3 : (descOf b.desc).c3 = 1)
  (hfrom : (descOf b.desc).src + (descOf b.desc).l0 ≤ 0x180000) (hto : (descOf b.desc).dst + (descOf b.desc).l0 ≤ 0x180000)
  (hinj : (s.tile t).inject = none) (hclean : ∀ a, (s.tile t).hold.mark a = 0)
include hop hcvt hsrc hdst h1 h2 h3 hfrom hto hinj hclean

/-- What a hold copy of one run writes. -/
def copied (x : Tile) (d : Desc) : PBytes := (x.hold.read d.src d.l0).map fun b => (b, false)

theorem moveBarge_hold : s.moveBarge t b = s.setTile t ((s.tile t).putHold (descOf b.desc).dst
    (copied (s.tile t) (descOf b.desc))) := by
  generalize hd : descOf b.desc = d at *
  have hbad : s.indexFaults t b = s := by
    unfold State.indexFaults
    rw [hd, badIndices, if_neg (by rw [hop]; decide)]
    rfl
  have hrecs : copyRecs d = [{ src := some d.src, poison := false, dst := d.dst, r := 0 }] := by
    unfold copyRecs iters
    rw [h1, h2, h3]
    simp [moveBy]
  have hread : s.epRead t b d.srcKind d.src d.l0 = (s, copied (s.tile t) d) := by
    unfold State.epRead
    rw [hsrc, if_pos (.inl rfl)]
    have hmod : d.src % 2 ^ 24 = d.src := Nat.mod_eq_of_lt (by omega)
    change s.holdRead t (d.src % 2 ^ 24) d.l0 = _
    rw [hmod, State.holdRead, holdErrors_clean fun _ _ => hclean _, holdBytes_clean fun _ _ => hclean _]
    rfl
  have hwrites : s.bargeWrites t b d = (s, [(d.dst, copied (s.tile t) d)]) := by
    have hrec : s.readRec t b d { src := some d.src, poison := false, dst := d.dst, r := 0 } =
        (s, copied (s.tile t) d, []) := by
      unfold State.readRec
      dsimp only
      rw [hread, hcvt] <;> rfl
    rw [State.bargeWrites, hop]
    change s.recsWrites t b d (copyRecs d) = _
    rw [State.recsWrites, hrecs, List.foldl_cons, List.foldl_nil]
    dsimp only
    rw [hrec, recWrites, hcvt] <;> rfl
  have hmod : d.dst % 2 ^ 24 = d.dst := Nat.mod_eq_of_lt (by omega)
  have hwrite : s.epWrite t d.dstKind d.dst (copied (s.tile t) d) =
      s.setTile t ((s.tile t).putHold d.dst (copied (s.tile t) d)) := by
    unfold State.epWrite
    rw [hdst, if_pos (.inl rfl)]
    change s.holdWrite t (d.dst % 2 ^ 24) _ = _
    rw [hmod, holdWrite_setTile hinj]
  unfold State.moveBarge
  rw [hd, hbad]
  dsimp only
  rw [if_neg (by rw [hop]; decide), hwrites, List.foldl_cons, List.foldl_nil]
  exact hwrite

end

/-! #### Its counters -/

/-- A barge to the tile's own hold leaves flight and lands on LC and, where it says so, on RLC (R200). -/
theorem landBarge_own {v : State} {b : BargeInst} (hb : (v.tile t).barges.find? (fun b => b.id == id) = some b)
    (hdst : (descOf b.desc).dstKind = 1) : ∃ y : Tile, (v.landBarge t id).fuses = v.fuses ∧ (v.landBarge t id).hdm = v.hdm ∧
      (v.landBarge t id).tile t = y ∧ (∀ j, j ≠ t → (v.landBarge t id).tile j = v.tile j) ∧
      y.barges = (v.tile t).barges.filter (fun b => b.id ≠ id) ∧ y.hold = (v.tile t).hold ∧ y.sregs = (v.tile t).sregs ∧
      ((∀ n, (v.tile t).lc n ≤ 0xFFFF) → ∀ n, y.lc n = min 0xFFFF ((v.tile t).lc n + (if n = b.lc then 1 else 0) +
        if (descOf b.desc).rlcEn = true ∧ n = (descOf b.desc).rlc then 1 else 0)) := by
  generalize hx : ({ v.tile t with barges := (v.tile t).barges.filter fun b => b.id ≠ id } : Tile) = x
  have hlc (n : Nat) : x.lc n = (v.tile t).lc n := by rw [← hx] <;> rfl
  have hfirst (hle : ∀ n, (v.tile t).lc n ≤ 0xFFFF) (n : Nat) :
      (x.land b.lc).lc n = min 0xFFFF ((v.tile t).lc n + if n = b.lc then 1 else 0) := by
    rw [land_lc (fun k => by rw [hlc]; exact hle k), hlc]
  by_cases hr : (descOf b.desc).rlcEn = true
  · have hrun : v.landBarge t id = (v.setTile t (x.land b.lc)).modTile t fun x => x.land (descOf b.desc).rlc := by
      rw [State.landBarge, hb]
      refine (if_pos (by simp [hr, hdst])).trans ?_
      rw [State.holdOf, if_pos hdst, ← hx] <;> rfl
    have hself : (v.landBarge t id).tile t = (x.land b.lc).land (descOf b.desc).rlc := by
      rw [hrun, State.modTile, State.tile_setTile_self, State.tile_setTile_self]
    refine ⟨_, by rw [hrun] <;> rfl, by rw [hrun] <;> rfl, hself, fun j hj => ?_, by rw [← hx] <;> rfl, by rw [← hx] <;> rfl,
      by rw [← hx] <;> rfl, fun hle n => ?_⟩
    · rw [hrun]
      exact (State.tile_setTile ..).trans ((if_neg (Ne.symm hj)).trans ((State.tile_setTile ..).trans (if_neg (Ne.symm hj))))
    · rw [land_lc (fun k => by rw [hfirst hle]; exact Nat.min_le_left ..), hfirst hle]
      simp only [hr, true_and]
      omega
  · have hrun : v.landBarge t id = v.setTile t (x.land b.lc) := by
      rw [State.landBarge, hb]
      refine (if_neg (by simp [hr])).trans ?_
      rw [← hx] <;> rfl
    have hself : (v.landBarge t id).tile t = x.land b.lc := by rw [hrun, State.tile_setTile_self]
    refine ⟨_, by rw [hrun] <;> rfl, by rw [hrun] <;> rfl, hself, fun j hj => ?_, by rw [← hx] <;> rfl, by rw [← hx] <;> rfl,
      by rw [← hx] <;> rfl, fun hle n => ?_⟩
    · rw [hrun]
      exact (State.tile_setTile ..).trans (if_neg (Ne.symm hj))
    · rw [hfirst hle, if_neg (fun h : _ ∧ _ => hr h.1), Nat.add_zero]

theorem barge_lands (hl : s.Live) (hle : ∀ c, (s.tile t).lc c ≤ 0xFFFF) {b : BargeInst}
    (hb : (s.tile t).barges.find? (fun b => b.id == id) = some b) (hop : (descOf b.desc).op = 0)
    (hcvt : (descOf b.desc).cvt = false) (hsrc : (descOf b.desc).srcKind = 1) (hdst : (descOf b.desc).dstKind = 1)
    (h1 : (descOf b.desc).c1 = 1) (h2 : (descOf b.desc).c2 = 1) (h3 : (descOf b.desc).c3 = 1)
    (hfrom : (descOf b.desc).src + (descOf b.desc).l0 ≤ 0x180000) (hto : (descOf b.desc).dst + (descOf b.desc).l0 ≤ 0x180000)
    (hinj : (s.tile t).inject = none) (hclean : ∀ a, (s.tile t).hold.mark a = 0) (hio : s.ioBusy (.barge t id) = false)
    (htags : b.berthTags = []) : Completes (.bargeLanding t id) s fun u =>
      (u.tile t).barges = (s.tile t).barges.filter (fun b => b.id ≠ id) ∧
      (∀ c, (u.tile t).lc c = min 0xFFFF ((s.tile t).lc c + (if c = b.lc then 1 else 0) +
        if (descOf b.desc).rlcEn = true ∧ c = (descOf b.desc).rlc then 1 else 0)) ∧
      (∀ i < (descOf b.desc).l0, (u.tile t).hold.byte ((descOf b.desc).dst + i) =
        (s.tile t).hold.byte ((descOf b.desc).src + i)) ∧
      (∀ a, a < (descOf b.desc).dst ∨ (descOf b.desc).dst + (descOf b.desc).l0 ≤ a →
        (u.tile t).hold.byte a = (s.tile t).hold.byte a) ∧
      (u.tile t).sregs = (s.tile t).sregs ∧ u.hdm = s.hdm ∧ ∀ t', t' ≠ t → u.tile t' = s.tile t' := by
  obtain ⟨bs, b', hv, hbs, hfind, hst, hdesc, hlc, htg⟩ := bargeStart_hold hb hop hsrc hdst
  generalize hvs : s.bargeStart t id = v at hv
  obtain ⟨hfu, hport, hhdm, hself, hrest⟩ := hv
  have hid : b'.id = id := by simpa using List.find?_some hfind
  have hvb : (v.tile t).barges.find? (fun b => b.id == id) = some b' := by rw [hself]; exact hfind
  have hd : descOf b'.desc = descOf b.desc := congrArg descOf hdesc
  generalize descOf b.desc = d at *
  have hready : v.bargeReady t b' = true := by
    have hbusy : v.ioBusy (.barge t id) = false := by
      rw [State.ioBusy, hport]
      exact hio
    have hshut : v.bargeShut t b' = false := by
      rw [State.bargeShut, hd, hdst]
      simp
    rw [State.bargeReady, hst, hid, hbusy, htg, htags, hshut] <;> rfl
  have htouch : v.bargeTouches t b' d = [] := by
    rw [State.bargeTouches, State.sideTouches, State.sideTouches, hsrc, hdst] <;> rfl
  have hinjv : (v.tile t).inject = none := by rw [hself]; exact hinj
  have hmove : v.moveBarge t b' = v.setTile t ((v.tile t).putHold d.dst (copied (v.tile t) d)) := by
    have := moveBarge_hold (s := v) (t := t) (b := b') (by rw [hd]; exact hop) (by rw [hd]; exact hcvt) (by rw [hd]; exact hsrc)
      (by rw [hd]; exact hdst) (by rw [hd]; exact h1) (by rw [hd]; exact h2) (by rw [hd]; exact h3) (by rw [hd]; exact hfrom)
      (by rw [hd]; exact hto) hinjv (by rw [hself]; exact hclean)
    rwa [hd] at this
  generalize hmv : v.moveBarge t b' = m at hmove
  have hmself : m.tile t = (v.tile t).putHold d.dst (copied (v.tile t) d) := by rw [hmove, State.tile_setTile_self]
  have hput := putHold_eq hinjv d.dst (copied (v.tile t) d)
  have hmb : (m.tile t).barges = bs := by rw [hmself, hput, hself]
  obtain ⟨y, hyfu, hyhdm, hyt, hyrest, hybar, hyhold, hyregs, hylc⟩ :=
    landBarge_own (v := m) (id := id) (by rw [hmb]; exact hfind) (by rw [hd]; exact hdst)
  have hrun : s.doBargeLanding t id = m.landBarge t id := by
    have hget : v.barge? t id = some b' := hvb
    rw [State.doBargeLanding, hvs]
    dsimp only
    rw [hget]
    dsimp only
    rw [hd, hready, if_neg (by simp [hdst]), if_neg (by simp [hdst]), htouch, atHome_free (by simp), admitted_nothing, hmv]
  have hmfu : m.fuses = s.fuses := by rw [hmove]; exact hfu
  generalize m.landBarge t id = u at *
  have hufu : u.fuses = s.fuses := hyfu.trans hmfu
  have hut : (u.seal s).tile t = y := (seal_tile (t := u) hufu t).trans hyt
  have hlen : (copied (v.tile t) d).length = d.l0 := by rw [copied, Ram.read_eq]; simp
  have hmlc (n : Nat) : (m.tile t).lc n = (s.tile t).lc n := by rw [hmself, hput, hself] <;> rfl
  refine ⟨_, (congrArg (doneLive s) hrun).trans (doneLive_of_live hl u), ?_, fun c => ?_, fun i hi => ?_, fun a ha => ?_, ?_, ?_,
    fun j hj => ?_⟩
  · rw [hut, hybar, hmb, hbs]
  · rw [hut, hylc (fun n => by rw [hmlc]; exact hle n), hmlc, hlc, hd]
  · rw [hut, hyhold, hmself, putHold_byte_inside hinjv _ _ (by rw [hlen]; exact hi), copied, Ram.read_eq, hself]
    simp [hi, List.getD_eq_getElem?_getD]
  · rw [hut, hyhold, hmself, putHold_byte_of_outside hinjv _ _ (by rw [hlen]; exact ha), hself]
  · rw [hut, hyregs, hmself, hput, hself]
  · exact hyhdm.trans (by rw [hmove]; exact hhdm)
  · exact (seal_tile (t := u) hufu j).trans ((hyrest j hj).trans (by
      rw [hmove]
      exact (State.tile_setTile ..).trans ((if_neg (Ne.symm hj)).trans (hrest j hj))))

end Sys2Proof.Machine

open Sys2Proof.Machine

/-- Settles O31. A landing that an earlier access holds back changes nothing; a fence, a store, a load and a hold copy of one
run each leave flight, count on their counters and move their bytes (R168, R200, R421). -/
theorem landingsCountAndMove : Obligations.LandingsCountAndMove := by
  unfold Obligations.LandingsCountAndMove
  intro s t id hl
  dsimp only
  intro hle
  refine ⟨fun a e ha he h => access_waits hl ha he h, fun a ha hfirst => ⟨fun hk => fence_lands hl ha hfirst hk,
    fun g hsegs hsize hlen hhost hattr hce hpa hb hbl hcur hwr hrd => ⟨fun hk hp =>
      store_lands hl ha hfirst hsegs hsize hlen hhost hattr hce hpa hcur hb hwr hk hp, fun rd hk h0 _ hclean =>
      load_lands hl ha hfirst hsegs hsize hlen hhost hattr hce hpa hcur hbl hrd hk h0 hclean⟩⟩,
    fun b hb hop hcvt hsrc hdst h1 h2 h3 hfrom hto hinj hclean hio htags =>
      barge_lands hl hle hb hop hcvt hsrc hdst h1 h2 h3 hfrom hto hinj hclean hio htags⟩

end

section
/-! SUPPORT. What the way into safe state keeps (R454, R554, R612): a property that no berth, canal, tile or translation
touches outlives it, and a record of the log of class GRAVE stays in the log. -/

open Sys2Proof Sys2Proof.Machine

namespace Sys2Proof.Machine

/-! ### Records that stay in the log (R616) -/

/-- A key that is not found is the key of no entry. -/
theorem ne_of_sfind_none {α : Type} {m : SMap α} {k : Nat} (h : sfind? m k = none) {e : Nat × α} (he : e ∈ m) : e.1 ≠ k := by
  induction m with
  | nil => exact absurd he List.not_mem_nil
  | cons x m ih =>
    obtain ⟨j, w⟩ := x
    by_cases hj : j = k
    · exact absurd h (by simp [sfind?, hj])
    · rw [sfind?, if_neg hj] at h
      rcases List.mem_cons.1 he with rfl | he
      · exact hj
      · exact ih h he

/-- Slot `i` of the log holds this record, and no other entry of the log is at that slot. -/
def HeldAt (log : SMap FaultRec) (i : Nat) (r : FaultRec) : Prop := (i, r) ∈ log ∧ ∀ e ∈ log, e.1 = i → e.2 = r

theorem heldAt_sput {log : SMap FaultRec} {i j : Nat} {r q : FaultRec} (h : HeldAt log i r) (hj : j ≠ i) :
    HeldAt (sput j q log) i r :=
  ⟨mem_sput_of_ne (k := j) (e := (i, r)) q (Ne.symm hj) h.1, fun e he hi => (mem_sput he).elim
    (fun hq => absurd ((congrArg Prod.fst hq).symm.trans hi) hj) fun he => h.2 e he hi⟩

theorem heldAt_of_free {log : SMap FaultRec} {i : Nat} (r : FaultRec) (h : sfind? log i = none) : HeldAt (sput i r log) i r :=
  ⟨mem_sput_self i r log, fun e he hi => (mem_sput he).elim (congrArg Prod.snd) fun he => absurd hi (ne_of_sfind_none h he)⟩

/-- The slot of the oldest record that passes a test is the slot of a record that passes it. -/
theorem oldestSlot_passes {log : SMap FaultRec} {p : FaultRec → Bool} {j : Nat} (h : oldestSlot log p = some j) :
    ∃ e ∈ log, e.1 = j ∧ p e.2 = true := by
  unfold oldestSlot at h
  refine List.foldlRecOn (motive := fun b : Option Nat => ∀ j, b = some j → ∃ e ∈ log, e.1 = j ∧ p e.2 = true)
    (log.filter fun e => p e.2) _ (fun j hj => absurd hj (by simp)) (fun b hb e he j hj => ?_) j h
  obtain ⟨hmem, hpass⟩ := List.mem_filter.1 he
  cases b with
  | none => exact ⟨e, hmem, Option.some.inj hj, hpass⟩
  | some k =>
    dsimp only at hj
    split at hj
    · exact ⟨e, hmem, Option.some.inj hj, hpass⟩
    · exact hb j hj

/-- A new record of a class up to GRAVE does not take a slot whose one record is GRAVE. -/
theorem logPlace_spares {log : SMap FaultRec} {c i j : Nat} {r : FaultRec} (hc : c ≤ 4) (h : HeldAt log i r) (hr : r.msg.cls = 4)
    (hj : logPlace log c = some j) : j ≠ i := by
  rintro rfl
  have hfull {p : FaultRec → Bool} (hp : p r = false) : oldestSlot log p ≠ some j := fun ho => by
    obtain ⟨e, he, hej, hpe⟩ := oldestSlot_passes ho
    rw [h.2 e he hej, hp] at hpe
    exact Bool.false_ne_true hpe
  have h0 : oldestSlot log (fun r => r.msg.cls == 0) ≠ some j := hfull (by simp [hr])
  have h1 : oldestSlot log (fun r => r.msg.cls == 1) ≠ some j := hfull (by simp [hr])
  have hlow : oldestSlot log (fun r => decide (r.msg.cls < c)) ≠ some j := hfull (by simp [hr, hc])
  unfold logPlace at hj
  split at hj
  · next k hk =>
    have hnone := List.find?_some hk
    rw [Option.some.inj hj] at hnone
    exact ne_of_sfind_none (Option.isNone_iff_eq_none.1 hnone) h.1 rfl
  · split at hj
    · next k hk => exact h0 (hk.trans hj)
    · split at hj
      · exact absurd hj (by simp)
      · split at hj
        · next k hk => exact h1 (hk.trans hj)
        · split at hj
          · exact absurd hj (by simp)
          · exact hlow hj

/-- The log holds a GRAVE record of this kind and unit in a slot of its own. -/
def State.HoldsGrave (s : State) (kind unit inst : Nat) : Prop :=
  ∃ i r, HeldAt s.flt.log i r ∧ r.msg.cls = 4 ∧ r.msg.kind = kind ∧ r.msg.unit = unit ∧ r.msg.inst = inst

section
variable {s : State} {kind unit inst : Nat}

theorem State.HoldsGrave.logged (h : s.HoldsGrave kind unit inst) : s.Logged kind unit inst := by
  obtain ⟨i, r, hr, -, hk⟩ := h
  exact ⟨(i, r), hr.1, hk⟩

theorem holdsGrave_of_log {t : State} (h : s.HoldsGrave kind unit inst) (hlog : t.flt.log = s.flt.log) :
    t.HoldsGrave kind unit inst := by
  unfold State.HoldsGrave
  rw [hlog]
  exact h

theorem logRecord_grave (h : s.HoldsGrave kind unit inst) {m : FaultMsg} (hm : m.cls ≤ 4) (esc : Bool) :
    (s.logRecord m esc).1.HoldsGrave kind unit inst := by
  unfold State.logRecord
  cases hj : logPlace s.flt.log m.cls with
  | none => exact holdsGrave_of_log h (congrArg Prod.snd (bump_stillView s (o := FLT_LOG_OVF) (by decide)))
  | some j =>
    obtain ⟨i, r, hr, hcls, hk⟩ := h
    have hkeep (q : FaultRec) : HeldAt (sput j q s.flt.log) i r := heldAt_sput hr (logPlace_spares hm hr hcls hj)
    have hbump : (if (freeSlot s.flt.log).isNone then s.bump FLT_LOG_OVF else s).flt.log = s.flt.log := by
      split
      · exact congrArg Prod.snd (bump_stillView s (o := FLT_LOG_OVF) (by decide))
      · rfl
    refine ⟨i, r, ?_, hcls, hk⟩
    dsimp only
    rw [hbump]
    exact hkeep _

/-- The message that a class-of-event reaction sends has a kind of its own. -/
theorem reactClass_sends (s : State) (m : FaultMsg) (c : Nat) : ∀ q ∈ (s.reactClass m c).2, q.cls ≤ 4 := by
  have hreplay (k : Nat) : ∀ q ∈ (s.replayFlight k).2, q.cls ≤ 4 := by
    unfold State.replayFlight
    dsimp only
    split
    · exact fun q hq => absurd hq List.not_mem_nil
    · split
      · intro q hq
        rw [List.mem_singleton.1 hq]
        exact msgOf_cls K_FLIGHT_REPLAY 11 k
      · exact fun q hq => absurd hq List.not_mem_nil
  unfold State.reactClass
  split
  · split
    · split
      · exact hreplay _
      · exact fun q hq => absurd hq List.not_mem_nil
    · exact fun q hq => absurd hq List.not_mem_nil
  all_goals exact fun q hq => absurd hq List.not_mem_nil

theorem collect_sends (m : FaultMsg) : ∀ q ∈ (s.collect m).2, q.cls ≤ 4 := by
  unfold State.collect
  dsimp only
  split
  · exact reactClass_sends _ m _
  · split
    · intro q hq
      exact (List.mem_append.1 hq).elim (reactClass_sends _ m _ q) (reactClass_sends _ m _ q)
    · exact reactClass_sends _ m _

theorem escClass_le (m : FaultMsg) : escClass m ≤ 4 := by
  unfold escClass
  split
  · decide
  · decide

theorem collect_grave (h : s.HoldsGrave kind unit inst) {m : FaultMsg} (hm : m.cls ≤ 4) :
    (s.collect m).1.HoldsGrave kind unit inst := by
  have hlog := (congrArg Prod.snd (collect_stillView s m)).trans (congrArg Prod.snd (recordFault_stillView ..))
  refine holdsGrave_of_log (logRecord_grave (holdsGrave_of_log h (countFault_log s m)) ?_ _) hlog
  have := escClass_le m
  dsimp only
  split
  · exact Nat.max_le.2 ⟨hm, this⟩
  · exact hm

theorem fault_grave (h : s.HoldsGrave kind unit inst) {m : FaultMsg} (hm : m.cls ≤ 4) :
    (s.fault m).HoldsGrave kind unit inst := by
  unfold State.fault
  refine List.foldlRecOn (motive := fun t : State => t.HoldsGrave kind unit inst) (s.collect m).2 _ (collect_grave h hm) ?_
  exact fun t ht q hq => collect_grave ht (collect_sends m q hq)

/-- A GRAVE message takes a free slot of the log, and no later message takes its place. -/
theorem logRecord_holdsGrave (hroom : s.LogRoom) {m : FaultMsg} (hm : m.cls = 4) (esc : Bool) :
    (s.logRecord m esc).1.HoldsGrave m.kind m.unit m.inst := by
  obtain ⟨j, hj⟩ := Option.isSome_iff_exists.1 hroom
  have hnone := List.find?_some hj
  have hfree : sfind? s.flt.log j = none := Option.isNone_iff_eq_none.1 hnone
  have hplace : logPlace s.flt.log m.cls = some j := by rw [logPlace, hj]
  unfold State.logRecord
  rw [hplace]
  dsimp only
  rw [hj]
  exact ⟨j, _, heldAt_of_free _ hfree, hm, rfl, rfl, rfl⟩

theorem fault_holdsGrave (hroom : s.LogRoom) {m : FaultMsg} (hm : m.cls = 4) : (s.fault m).HoldsGrave m.kind m.unit m.inst := by
  have hlog := (congrArg Prod.snd (collect_stillView s m)).trans (congrArg Prod.snd (recordFault_stillView ..))
  have hcount := countFault_log s m
  have hcls : (if (s.countFault m).2 then max m.cls (escClass m) else m.cls) = 4 := by
    have := escClass_le m
    split
    · rw [hm]
      exact Nat.max_eq_left this
    · exact hm
  rw [fault_alone s (.inl (by omega))]
  exact holdsGrave_of_log (logRecord_holdsGrave (s := (s.countFault m).1) (by rw [State.LogRoom, hcount]; exact hroom)
    (m := { m with cls := if (s.countFault m).2 then max m.cls (escClass m) else m.cls }) hcls (s.countFault m).2) hlog

end

end Sys2Proof.Machine
end

section
/-! SUPPORT. What the way into safe state keeps (R454, R554, R612): a property that no berth, canal, tile or translation
touches outlives it. -/

open Sys2Proof Sys2Proof.Machine

namespace Sys2Proof.Machine

theorem brtReg_ne_scratch (b off : Nat) : brtReg b off ≠ GLB_SCRATCH := by
  simp only [brtReg, BRT, GLB_SCRATCH]
  omega

theorem cnlReg_ne_scratch (p off : Nat) : cnlReg p off ≠ GLB_SCRATCH := by
  simp only [cnlReg, CNL, GLB_SCRATCH]
  omega

namespace MemStable
variable {P : State → Prop} {s : State} (hP : MemStable P) (h : P s)
include hP h

theorem report (kind unit inst addr : Nat) : P (s.report kind unit inst addr) := hP.fault _ (msgOf_cls kind unit inst) h

/-! ### Copies (R366 to R369) -/

theorem writeBack (agent : Nat) (host : Bool) (la : Nat) : P (s.writeBack agent host la) := by
  unfold State.writeBack
  split
  · exact h
  · exact of_ite (hP.removeCopy (hP.recallLine h _ _) _ _ _) (hP.basin _ h)

theorem copyRoom (agent : Nat) : P (s.copyRoom agent) := by
  unfold State.copyRoom
  dsimp only
  split
  · exact of_ite h (hP.writeBack h _ _ _)
  · exact h

theorem evictCopy (c : Copy) : P (s.evictCopy c) := by
  have hl := of_ite (p := 16 ≤ c.agent ∧ c.agent < 40) (hP.loseResv h (c.agent - 16) c.host c.addr) h
  exact of_ite (hP.putCopy (hP.copyRoom hl _) _) (hP.basin _ hl)

theorem placeCopy (agent : Nat) (host : Bool) (la : Nat) : P (s.placeCopy agent host la).1 := by
  unfold State.placeCopy
  dsimp only
  split
  · exact h
  · next w up leave _ =>
    generalize hu : (if up = 0 then s else _) = u
    have ha : P u := hu ▸ of_ite h (hP.basin _ h)
    refine of_ite ?_ ha
    split
    · exact hP.evictCopy ha _
    · exact ha

theorem lkInjUsed (k : Nat) : P (s.lkInjUsed k) := hP.setBit (hP.lk _ _ h) _ _ (by decide)

theorem rcInject (agent : Nat) : P (s.rcInject agent).1 :=
  of_fst_ite (hP.setBit h _ _ (by decide)) (of_fst_ite (hP.lkInjUsed h _) h)

theorem grant (agent : Nat) (host : Bool) (la : Nat) (st : LineSt) (data : LineData) (age : Nat) :
    P (s.grant agent host la st data age) := by
  have hplace : P (match s.copyOf agent host la with
      | some c => if c.victim then s.placeCopy agent host la else (s, c.way)
      | none => s.placeCopy agent host la).1 := by
    split
    · exact of_fst_ite (hP.placeCopy h _ _ _) h
    · exact hP.placeCopy h _ _ _
  have hinj := hP.rcInject hplace agent
  unfold State.grant
  dsimp only
  split
  · exact hP.basin _ hinj
  · exact hP.putLine (hP.basin _ hinj) _

theorem sharedRead (agent : Nat) (host : Bool) (la attr : Nat) : P (s.sharedRead agent host la attr).1 := by
  have hfill := hP.fillLine h host la (fillAge attr)
  unfold State.sharedRead
  dsimp only
  refine of_fst_ite ?_ (hP.grant ?_ ..)
  all_goals
    refine hP.basinCheck ?_ _ _
    split
    · exact hfill
    · split
      · exact hfill
      · next o _ =>
        refine of_ite hfill ?_
        have hrecall := hP.recallLine (hP.snoopOwner hfill host la .berthSnpData) host la
        generalize ((s.fillLine host la (fillAge attr)).snoopOwner host la .berthSnpData).recall host la = r at hrecall
        cases r.copyOf o host la with
        | none =>
          dsimp only
          split
          · exact hP.putLine hrecall _
          · exact hrecall
        | some c =>
          dsimp only
          split
          · exact hP.putLine (hP.putCopy hrecall _) _
          · exact hP.putCopy hrecall _

theorem copyCheck (agent : Nat) (host : Bool) (la : Nat) : P (s.copyCheck agent host la) := by
  unfold State.copyCheck
  split
  · exact h
  · next c _ =>
    have hbit := hP.setBit h 3 true (by decide : CMX_ERR ≠ GLB_SCRATCH)
    exact of_ite h (of_ite (of_ite (hP.cacheFault (hP.writeBack (hP.putCopy hbit _) _ _ _) _ _ _ _ _)
      (hP.cacheFault (hP.removeCopy hbit _ _ _) _ _ _ _ _)) (hP.setBit (hP.cacheFault (hP.removeCopy h _ _ _) _ _ _ _ _) _ _ (by decide)))

theorem agentRead (agent : Nat) (host : Bool) (la attr : Nat) : P (s.agentRead agent host la attr).1 := by
  have hc := hP.copyCheck h agent host la
  unfold State.agentRead
  dsimp only
  split
  · exact of_fst_ite (hP.putCopy hc _) (hP.putCopy (hP.placeCopy hc _ _ _) _)
  · exact hP.sharedRead hc agent host la attr

theorem ucRead (host : Bool) (a n : Nat) : P (s.ucRead host a n).1 := by
  unfold State.ucRead
  refine of_foldl_fst P (fun r la hr => ?_) _ h
  dsimp only
  split
  · exact hr
  · exact hP.stkReadLine hr la

/-! ### The tables of translation (R521, R522) -/

theorem readEntry (unit dpa : Nat) : P (s.readEntry unit dpa).1 :=
  of_fst_ite (hP.report (hP.setBit (hP.ncRead h _ _ _) _ _ (by decide)) _ _ _ _) (hP.ncRead h _ _ _)

omit h in
theorem walkFrom (unit va level : Nat) : ∀ {s : State} (tbl : Nat), P s → P (s.walkFrom unit va tbl level).1 := by
  induction level with
  | zero => exact fun _ h => h
  | succ level ih =>
    intro s tbl h
    have hc := hP.actCheck h (tgtHdm (tbl + 8 * vaIndex va level)) MID_WALKER NEED_R (tbl + 8 * vaIndex va level)
    have hr := hP.readEntry hc unit (tbl + 8 * vaIndex va level)
    unfold State.walkFrom
    exact of_fst_ite hc (of_fst_ite hr (of_fst_ite (ih _ hr) (of_fst_ite hr hr)))

/-- The walk's calls are named, so that the kernel compares names and does not run them. -/
theorem walk (unit ctx va : Nat) : P (s.walk unit ctx va).1 := by
  obtain ⟨r, hr⟩ : ∃ r, r = s.walk unit ctx va := ⟨_, rfl⟩
  obtain ⟨c, hc⟩ : ∃ c, c = s.actCheck (tgtHdm (s.rootAddr ctx)) MID_WALKER NEED_R (s.rootAddr ctx) := ⟨_, rfl⟩
  obtain ⟨e, he⟩ : ∃ e, e = c.1.readEntry unit (s.rootAddr ctx) := ⟨_, rfl⟩
  have hcP : P c.1 := hc ▸ hP.actCheck h ..
  have heP : P e.1 := he ▸ hP.readEntry hcP ..
  have hwP := hP.walkFrom unit va 5 (entPa e.2) heP
  rw [← hr]
  unfold State.walk at hr
  dsimp only at hr
  rw [← hc, ← he] at hr
  exact hr ▸ of_fst_ite hcP (of_fst_ite heP hwP)

end MemStable

/-- A property that tiles, berths, canals and cached translations do not touch either. -/
structure SafeStable (P : State → Prop) : Prop extends MemStable P where
  tile  : ∀ {s} (t : Nat) (x : Tile), P s → P (s.setTile t x)
  berth : ∀ {s} (b : Nat) (x : Berth), P s → P (s.setBerth b x)
  canal : ∀ {s} (p : Nat) (c : Canal), P s → P (s.setCanal p c)
  xlt   : ∀ {s} (x : Xlt), P s → P { s with xlt := x }

namespace SafeStable
variable {P : State → Prop} {s : State} (hP : SafeStable P) (h : P s)
include hP h

/-! ### Translation and its counters -/

theorem modTile (t : Nat) (f : Tile → Tile) : P (s.modTile t f) := hP.tile _ _ h

theorem modBarge (t id : Nat) (f : BargeInst → BargeInst) : P (s.modBarge t id f) := hP.modTile h _ _

theorem tlbFill (unit ctx va level entry : Nat) : P (s.tlbFill unit ctx va level entry) :=
  hP.xlt _ (of_ite (hP.setBit h _ _ (by decide)) h)

/-- The walk is named, as in `MemStable.walk`. -/
theorem lookup (unit ctx va : Nat) : P (s.lookup unit ctx va).1 := by
  obtain ⟨r, hr⟩ : ∃ r, r = s.lookup unit ctx va := ⟨_, rfl⟩
  obtain ⟨walk, hw⟩ : ∃ f, f = @State.walk := ⟨_, rfl⟩
  have hwalk {t : State} (ht : P t) : P (walk t unit ctx va).1 := hw ▸ hP.walk ht unit ctx va
  have hfill {t u : State} {x : Nat × Nat ⊕ XltFail} (ht : P t) (he : walk t unit ctx va = (u, x)) : P u := by
    simpa only [he] using hwalk ht
  rw [← hr]
  unfold State.lookup at hr
  rw [← hw] at hr
  split at hr
  · exact hr ▸ h
  · generalize s.xlt.tlb.find? (fun t => t.serves unit ctx va) = hit at hr
    cases hit with
    | none =>
      dsimp only at hr
      split at hr
      · next he => exact hr ▸ hP.tlbFill (hfill h he) ..
      · exact hr ▸ hwalk h
    | some e =>
      have hbad := hP.report (hP.setBit (hP.xlt { s.xlt with tlb := s.xlt.tlb.filter (· ≠ e) } h) 4 true
        (by decide : XLT_ERR ≠ GLB_SCRATCH)) K_XLT_PARITY 9 unit va
      dsimp only at hr
      split at hr
      · split at hr
        · next he => exact hr ▸ hP.tlbFill (hfill hbad he) ..
        · exact hr ▸ hwalk hbad
      · exact hr ▸ h

theorem countSeg (ctx : Nat) (g : XSeg) (wr : Bool) : P (s.countSeg ctx g wr) :=
  of_ite h (of_foldl P (fun _ _ ht => hP.xlt _ ht) _ h)

theorem sliceMiss (stream : Nat) (host : Bool) (la : Nat) : P (s.sliceMiss stream host la) := by
  refine of_ite h (of_foldl P (fun t a ht => of_ite ht ?_) _ (hP.basin _ h))
  have hf := hP.fillLine ht host a 3
  dsimp only
  split
  · exact hP.putLine hf _
  · exact hf

/-! ### Barges (R186 to R200) -/

theorem bargeReadLine (p : Nat) (host : Bool) (la : Nat) : P (s.bargeReadLine p host la).1 :=
  of_fst_ite (hP.agentRead (hP.copyCheck h _ _ _) p host la 0) (hP.ncReadLine (hP.copyCheck h _ _ _) _ _)

theorem bargeRead (p : Nat) (host : Bool) (attr a n : Nat) : P (s.bargeRead p host attr a n).1 := by
  refine of_fst_ite (hP.ucRead h _ _ _) (of_foldl_fst P (fun r la hr => ?_) _ h)
  exact hP.bargeReadLine hr p host la

omit h in
theorem segsFrom (unit k fuel : Nat) : ∀ {s : State} (va n : Nat), P s → P (s.segsFrom unit k fuel va n).1 := by
  induction fuel with
  | zero => exact fun _ _ h => h
  | succ fuel ih =>
    intro s va n h
    unfold State.segsFrom
    dsimp only
    refine of_fst_ite h ?_
    cases (s.flight k).curXlt.find? fun e => va / pageSize e.2.1 * pageSize e.2.1 == e.1 with
    | some e => exact ih _ _ h
    | none =>
      obtain ⟨⟨t, e | f⟩, hl⟩ : ∃ r, s.lookup unit (s.flightCtx k) va = r := ⟨_, rfl⟩
      all_goals
        have ht : P t := by simpa only [hl] using hP.lookup h unit (s.flightCtx k) va
        rw [hl]
        exact ih _ _ ht

theorem segs (t va n : Nat) : P (s.segs t va n).1 := by
  unfold State.segs
  split
  · exact hP.segsFrom _ _ _ _ _ h
  · exact h

theorem holdRead (p a n : Nat) : P (s.holdRead p a n).1 := by
  refine of_foldl P (fun u r hu => ?_) _ h
  exact hP.fault { msgOf r.1 1 p with addr := r.2, slot := _ } (msgOf_cls r.1 1 p) hu

theorem epRead (t : Nat) (b : BargeInst) (kind addr n : Nat) : P (s.epRead t b kind addr n).1 := by
  unfold State.epRead
  refine of_fst_ite ?_ (of_fst_ite h (of_fst_ite ?_ h))
  · split
    · exact hP.holdRead h _ _ _
    · exact h
  · refine of_foldl_fst P (fun r g hr => ?_) _ (hP.segs h _ _ _)
    dsimp only
    refine of_fst_ite (hP.ucRead (of_ite ?_ ?_) ..) (hP.bargeRead (of_ite ?_ ?_) ..)
    · exact hP.sliceMiss (hP.countSeg hr _ g false) _ _ _
    · exact hP.countSeg hr _ g false
    · exact hP.sliceMiss (hP.countSeg hr _ g false) _ _ _
    · exact hP.countSeg hr _ g false

theorem readRec (t : Nat) (b : BargeInst) (d : Desc) (q : Rec) : P (s.readRec t b d q).1 := by
  unfold State.readRec
  split
  · exact h
  · next a _ =>
    have hr := hP.epRead h t b d.srcKind a d.l0
    exact of_fst_ite (hP.epRead hr ..) hr

theorem recsWrites (t : Nat) (b : BargeInst) (d : Desc) (l : List Rec) : P (s.recsWrites t b d l).1 := by
  refine of_foldl_fst P (fun r q hr => ?_) _ h
  exact hP.readRec hr t b d q

theorem transposeWrites (t : Nat) (b : BargeInst) (d : Desc) : P (s.transposeWrites t b d).1 := by
  refine of_foldl_fst P (fun acc m ha => ?_) _ h
  refine of_foldl_fst P (fun r i hr => ?_) _ ha
  exact hP.readRec hr t b d _

theorem bargeWrites (t : Nat) (b : BargeInst) (d : Desc) : P (s.bargeWrites t b d).1 := by
  unfold State.bargeWrites
  split
  · exact hP.recsWrites h _ _ _ _
  · exact hP.recsWrites h _ _ _ _
  · exact hP.recsWrites h _ _ _ _
  · exact hP.transposeWrites h _ _ _
  · exact h

theorem indexFaults (t : Nat) (b : BargeInst) : P (s.indexFaults t b) := by
  refine of_foldl P (fun u _ hu => ?_) _ h
  exact hP.fault { msgOf K_BARGE_INDEX 1 t with slot := _ } (msgOf_cls K_BARGE_INDEX 1 t) hu

/-! ### Berths (R548 to R554) -/

theorem berthTx (b : Nat) (o : Out) : P (s.berthTx b o) :=
  hP.emit _ (of_ite (hP.fault _ (msgOf_cls K_BERTH_RETRY 8 b) (hP.setBit (hP.setBit h _ _ (brtReg_ne_scratch _ _)) _ _
    (brtReg_ne_scratch _ _))) h)

theorem berthMsg (b t id addr off len : Nat) (wr : Bool) (bytes : PBytes) : P (s.berthMsg b t id addr off len wr bytes).1 :=
  hP.berthTx (hP.berth _ _ h) _ _

theorem berthMissing (b t id off len : Nat) : P (s.berthMissing b t id off len) :=
  hP.fault _ (msgOf_cls K_BERTH_TIMEOUT 8 b) (hP.setBit (hP.modBarge h _ _ _) _ _ (brtReg_ne_scratch _ _))

theorem berthWrites (t : Nat) (b : BargeInst) (d : Desc) : P (s.berthWrites t b d) := by
  refine of_foldl P (fun u w hu => of_foldl P (fun v p hv => ?_) _ hu) _ (hP.bargeWrites (hP.indexFaults h _ _) _ _ _)
  exact of_ite (hP.berthMissing hv ..) (hP.modBarge (hP.berthMsg hv ..) _ _ _)

theorem bargeGo (t id : Nat) : P (s.bargeGo t id) := by
  unfold State.bargeGo
  split
  · exact h
  · exact of_ite (hP.berthWrites (hP.modBarge h _ _ _) _ _ _) h

theorem berthEnd (b : Nat) (o : BerthOut) : P (s.berthEnd b o) :=
  hP.bargeGo (hP.modBarge (hP.berth _ _ h) _ _ _) _ _

theorem berthGiveUp (b : Nat) (o : BerthOut) : P (s.berthGiveUp b o) := hP.berthEnd (hP.berthMissing h ..) _ _

theorem berthLoseLine (b : Nat) (c : Copy) : P (s.berthLoseLine b c) :=
  of_ite (hP.report (hP.setBit (hP.writeBack (hP.putCopy h _) _ _ _) _ _ (brtReg_ne_scratch _ _)) _ _ _ _)
    (hP.removeCopy h _ _ _)

theorem berthLoss (b : Nat) : P (s.berthLoss b) :=
  of_foldl P (fun _ _ ht => hP.berthLoseLine ht _ _) _ (of_foldl P (fun _ _ ht => hP.berthGiveUp ht _ _) _ h)

theorem berthSafe (b : Nat) : P (s.berthSafe b) := of_ite (hP.berth _ _ h) (hP.berthLoss (hP.berth _ _ h) _)

/-! ### Canals and the host's port (R280, R454, R463) -/

theorem lineOut (p : Nat) (f : Flit) : P (s.lineOut p f) := by
  have hcrc := of_ite (p := (flitSequenced f.typ && s.bit (cnlReg p 0x18) 0) = true)
    (hP.setBit h 0 false (cnlReg_ne_scratch p 0x18)) h
  exact hP.emit _ (of_ite (hP.setBit hcrc 1 false (cnlReg_ne_scratch p 0x18)) hcrc)

theorem sendAbsent (p : Nat) : P (s.sendAbsent p) :=
  of_foldl P (fun _ _ ht => hP.lineOut (hP.canal _ _ ht) _ _) _ h

theorem canalSafe (p : Nat) : P (s.canalSafe p) := hP.canal _ _ (of_ite (hP.sendAbsent h _) h)

theorem aer (e : AerErr) (header : Bool) : P (s.aer e header) := by
  have hset := hP.port { s.port with aer := if s.port.aer.contains e then s.port.aer else s.port.aer ++ [e] } h
  have hadv : P (if e = .poisonedTlp ∨ e = .completionTimeout ∨ e = .unexpectedCompletion then (s.aerSet e).advise e
    else s.aerSet e) := of_ite (of_ite hset (hP.port _ hset)) hset
  exact of_ite hadv (of_ite (hP.port _ hadv) (hP.port _ hadv))

end SafeStable

end Sys2Proof.Machine
end

section
/-! Power (R571 to R575, R580, R583, R590, R595). -/

open Sys2Proof Sys2Proof.Machine

namespace Sys2Proof.Machine
variable {s : State}

/-! ### Samples and limits (R571, R572) -/

/-- The sums and counts of power after one sample more. -/
def Power.sampled (w : Power) (c m l : Nat) : Power :=
  { w with samples := ((c, m, l) :: w.samples).take 8, sumC := w.sumC + c, sumM := w.sumM + m, sumL := w.sumL + l,
           count := w.count + 1, sinceEngage := min 8 (w.sinceEngage + 1), sinceRelease := min 8 (w.sinceRelease + 1) }

/-- The sum of every class of the samples kept. -/
def Power.total (w : Power) : Nat := w.samples.foldl (fun a e => a + e.1 + e.2.1 + e.2.2) 0

theorem railSample_runs (hl : s.Live) (c m l : Nat) : exec (.railSample c m l) s =
    .next (({ s with power := (s.power.sampled c m l).limit s.cap (s.bit PWR_CTL 8) } : State).seal s) :=
  (congrArg (doneLive s) (if_neg (by rw [hl]; decide))).trans (doneLive_of_live hl _)

theorem limit_samples (w : Power) (cap : Nat) (fast : Bool) : (w.limit cap fast).samples = w.samples ∧
    (w.limit cap fast).sumC = w.sumC ∧ (w.limit cap fast).sumM = w.sumM ∧ (w.limit cap fast).sumL = w.sumL ∧
    (w.limit cap fast).count = w.count := by
  unfold Power.limit
  dsimp only
  split
  · exact ⟨rfl, rfl, rfl, rfl, rfl⟩
  · split
    · split
      · split
        · exact ⟨rfl, rfl, rfl, rfl, rfl⟩
        · exact ⟨rfl, rfl, rfl, rfl, rfl⟩
      · exact ⟨rfl, rfl, rfl, rfl, rfl⟩
    · split
      · exact ⟨rfl, rfl, rfl, rfl, rfl⟩
      · exact ⟨rfl, rfl, rfl, rfl, rfl⟩

theorem limit_slow (w : Power) (cap : Nat) : w.limit cap false = w := by
  unfold Power.limit
  exact if_pos rfl

theorem limit_engages {w : Power} {cap : Nat} {x : PClass} (hover : 105 * cap * w.samples.length < 100 * w.total)
    (hwait : 8 ≤ w.sinceEngage) (hx : (prioOrder w.prio).find? (fun c => !w.limits.contains c) = some x) :
    w.limit cap true = { w with limits := x :: w.limits, sinceEngage := 0 } := by
  unfold Power.total at hover
  simp only [Power.limit, Bool.not_true, Bool.false_eq_true, if_false]
  rw [if_pos hover, hx]
  exact if_pos hwait

theorem limit_releases {w : Power} {cap : Nat} (hunder : 100 * w.total < 95 * cap * w.samples.length)
    (hwait : 8 ≤ w.sinceRelease) (hne : w.limits ≠ []) :
    w.limit cap true = { w with limits := w.limits.drop 1, sinceRelease := 0 } := by
  have hle : 95 * cap * w.samples.length ≤ 105 * cap * w.samples.length :=
    Nat.mul_le_mul_right _ (Nat.mul_le_mul_right _ (by decide))
  have hnot : ¬105 * cap * w.samples.length < 100 * w.total := by omega
  unfold Power.total at hunder hnot
  simp only [Power.limit, Bool.not_true, Bool.false_eq_true, if_false]
  rw [if_neg hnot, if_pos ⟨hunder, hwait, hne⟩]

theorem limit_between {w : Power} {cap : Nat} (hlow : 95 * cap * w.samples.length ≤ 100 * w.total)
    (hhigh : 100 * w.total ≤ 105 * cap * w.samples.length) : w.limit cap true = w := by
  unfold Power.total at hlow hhigh
  simp only [Power.limit, Bool.not_true, Bool.false_eq_true, if_false]
  rw [if_neg (Nat.not_lt.2 hhigh), if_neg fun h => Nat.not_lt.2 hlow h.1]

/-! ### Registers of the block -/

/-- A field all of whose bits are writable takes what is written. -/
theorem fld_writeReg {d : RegDef} {old v : Reg} (hlock : (d.goLock && old.getLsbD 31) = false) {hi lo : Nat} (hhi : hi < 32)
    (hrw : ∀ i ≤ hi, lo ≤ i → d.rw.testBit i = true ∧ d.w1c.testBit i = false ∧ d.w1s.testBit i = false) :
    bitsOf (writeReg d true old v).toNat hi lo = bitsOf v.toNat hi lo := by
  refine Nat.eq_of_testBit_eq fun k => ?_
  rw [testBit_bitsOf, testBit_bitsOf]
  by_cases hk : k < hi + 1 - lo
  · obtain ⟨h1, h2, h3⟩ := hrw (k + lo) (by omega) (by omega)
    have hbit := getLsbD_writeReg (v := v) hlock (i := k + lo) (by omega)
    rw [h1, h2, h3] at hbit
    exact congrArg _ (by simpa [BitVec.getLsbD] using hbit)
  · simp [hk]

theorem bitsOf_putBits_apart (w : Reg) {hi lo x y : Nat} (u : Nat) (h : y < lo ∨ hi < x) (hy : y < 32) :
    bitsOf (putBits w hi lo u).toNat y x = bitsOf w.toNat y x := by
  refine Nat.eq_of_testBit_eq fun k => ?_
  rw [testBit_bitsOf, testBit_bitsOf]
  by_cases hk : k < y + 1 - x
  · have hbit := getLsbD_putBits w (hi := hi) (lo := lo) (i := k + x) u (by omega)
    rw [if_neg (by omega)] at hbit
    exact congrArg _ (by simpa [BitVec.getLsbD] using hbit)
  · simp [hk]

/-- The fields of PWR_CTL and PWR_DROOP (R595). -/
def pwrCtlDef : RegDef := { rw := 0x107, reset := 0x100, warm := 0x107 }
def pwrDroopDef : RegDef := { rw := 0xFFFFFF, reset := 0x100A06, warm := 0xFFFFFF }

theorem fastLimits_off (hl : s.Live) : Completes .fastLimitDisable s fun u =>
    u.power.limits = [] ∧ u.bit PWR_CTL 8 = false ∧ u.fld PWR_CTL 2 0 = s.fld PWR_CTL 2 0 := by
  have hw : s.swWrite PWR_CTL (putBits (s.reg PWR_CTL) 8 8 0) =
      s.setReg PWR_CTL (writeReg pwrCtlDef true (s.reg PWR_CTL) (putBits (s.reg PWR_CTL) 8 8 0)) :=
    swWrite_quiet (d := pwrCtlDef) rfl rfl _
  generalize hv : writeReg pwrCtlDef true (s.reg PWR_CTL) (putBits (s.reg PWR_CTL) 8 8 0) = v at hw
  have hreg : (s.setReg PWR_CTL v).reg PWR_CTL = v := State.reg_setReg_self ..
  have h8 : v.getLsbD 8 = false := by
    rw [← hv, getLsbD_writeReg rfl (by decide), getLsbD_putBits _ _ (by decide), if_pos (by decide)]
    simp [pwrCtlDef]
  have hbit : (s.setReg PWR_CTL v).bit PWR_CTL 8 = false := by rw [State.bit, hreg, h8]
  have hrun : s.doFastLimitDisable = (s.setReg PWR_CTL v).releaseLimits := by
    rw [State.doFastLimitDisable, State.pwrCtl, hw]
    exact if_neg (by rw [hbit]; decide)
  refine completes_live hl (congrArg (doneLive s) hrun) ⟨rfl, ?_, ?_⟩
  · exact (seal_bit (t := (s.setReg PWR_CTL v).releaseLimits) rfl ..).trans hbit
  · refine (seal_fld (t := (s.setReg PWR_CTL v).releaseLimits) rfl ..).trans ?_
    have hrw : ∀ i ≤ 2, 0 ≤ i → pwrCtlDef.rw.testBit i = true ∧ pwrCtlDef.w1c.testBit i = false ∧ pwrCtlDef.w1s.testBit i = false := by
      decide
    change bitsOf ((s.setReg PWR_CTL v).reg PWR_CTL).toNat 2 0 = bitsOf (s.reg PWR_CTL).toNat 2 0
    rw [hreg, ← hv, fld_writeReg rfl (by decide) hrw, bitsOf_putBits_apart _ _ (.inl (by decide)) (by decide)]

theorem droop_written (hl : s.Live) {v : Reg}
    (h : bitsOf v.toNat 7 0 < bitsOf v.toNat 15 8 ∧ bitsOf v.toNat 15 8 < bitsOf v.toNat 23 16) :
    Completes (.pwrDroopWrite v) s fun u => u.fld PWR_DROOP 23 0 = bitsOf v.toNat 23 0 ∧ u.power = s.power := by
  have hw : s.swWrite PWR_DROOP v = s.setReg PWR_DROOP (writeReg pwrDroopDef true (s.reg PWR_DROOP) v) :=
    swWrite_quiet (d := pwrDroopDef) rfl rfl _
  have hrw : ∀ i ≤ 23, 0 ≤ i → pwrDroopDef.rw.testBit i = true ∧ pwrDroopDef.w1c.testBit i = false ∧
      pwrDroopDef.w1s.testBit i = false := by decide
  refine completes_live hl (congrArg (doneLive s) ((if_pos h).trans hw)) ⟨?_, rfl⟩
  generalize hx : writeReg pwrDroopDef true (s.reg PWR_DROOP) v = x
  refine (seal_fld (t := s.setReg PWR_DROOP x) rfl ..).trans ?_
  change bitsOf ((s.setReg PWR_DROOP x).reg PWR_DROOP).toNat 23 0 = bitsOf v.toNat 23 0
  rw [State.reg_setReg_self, ← hx, fld_writeReg rfl (by decide) hrw]

theorem droop_ignored (hl : s.Live) {v : Reg}
    (h : bitsOf v.toNat 15 8 ≤ bitsOf v.toNat 7 0 ∨ bitsOf v.toNat 23 16 ≤ bitsOf v.toNat 15 8) :
    exec (.pwrDroopWrite v) s = .next (s.seal s) :=
  (congrArg (doneLive s) (if_neg (by omega))).trans (doneLive_of_live hl s)

/-! ### Leases (R575) -/

theorem lease_absent (hl : s.Live) {towpath : Bool} (h : (if towpath then s.power.tow else s.power.drv) = none) :
    exec (.leaseExpiry towpath) s = .next (s.seal s) :=
  (congrArg (doneLive s) (if_pos (by rw [h]; rfl))).trans (doneLive_of_live hl s)

theorem lease_ends (hl : s.Live) {towpath : Bool} (h : (if towpath then s.power.tow else s.power.drv) ≠ none) :
    Completes (.leaseExpiry towpath) s fun u =>
      u.power = (if towpath then { s.power with tow := none } else { s.power with drv := none }) ∧ u.bit IRQ_PEND 5 = true := by
  generalize ht : ({ s with power := if towpath then { s.power with tow := none } else { s.power with drv := none } } : State) = t
  have hrun : s.doLeaseExpiry towpath = t.irq 5 := by
    rw [← ht]
    exact if_neg (by simpa using h)
  have hfu : (t.irq 5).fuses = s.fuses := (irq_kept t 5).fuses.trans (by rw [← ht])
  refine completes_live hl (congrArg (doneLive s) hrun) ⟨?_, ?_⟩
  · exact (irq_kept t 5).power.trans (by rw [← ht])
  · exact (seal_bit (t := t.irq 5) hfu ..).trans (irq_pending t (by decide))

/-! ### Conservative mode (R583) -/

/-- A decision made again leaves the power settings, the collector and the mark of divergence alone. -/
theorem modFlights_keep (s : State) (f : Nat → Flight → Flight) (ks : List Nat) :
    let t := ks.foldl (fun t k => t.modFlight k (f k)) s
    t.power = s.power ∧ t.flt = s.flt ∧ t.fuses = s.fuses ∧ t.regs = s.regs := by
  induction ks generalizing s with
  | nil => exact ⟨rfl, rfl, rfl, rfl⟩
  | cons k ks ih => exact ih (s.modFlight k (f k))

theorem redecide_keeps (s : State) : s.redecide.power = s.power ∧ s.redecide.flt = s.flt ∧ s.redecide.fuses = s.fuses ∧
    s.redecide.bit PWR_STAT 2 = s.bit PWR_STAT 2 := by
  unfold State.redecide
  split
  · exact ⟨rfl, rfl, rfl, rfl⟩
  · unfold State.decide_
    dsimp only
    generalize (_ ++ shed _ _ _ : List Nat) = moored
    generalize s.grants _ _ _ _ = out
    generalize ht : List.foldl _ s s.boundSlots = t
    obtain ⟨hpow, hflt, hfu, hregs⟩ : t.power = s.power ∧ t.flt = s.flt ∧ t.fuses = s.fuses ∧ t.regs = s.regs :=
      ht ▸ modFlights_keep s _ _
    generalize hu : (if moored.isEmpty then t else t.setBit PWR_STAT 3 true) = u
    have hkeep : u.power = s.power ∧ u.flt = s.flt ∧ u.fuses = s.fuses ∧ u.bit PWR_STAT 2 = s.bit PWR_STAT 2 := by
      have hbit : t.bit PWR_STAT 2 = s.bit PWR_STAT 2 := by rw [State.bit, State.reg, hregs, hfu] <;> rfl
      rw [← hu]
      split
      · exact ⟨hpow, hflt, hfu, hbit⟩
      · exact ⟨hpow, hflt, hfu, ((bit_setBit t PWR_STAT true PWR_STAT (by decide)).trans (if_neg (by decide))).trans hbit⟩
    split
    · exact hkeep
    · obtain ⟨port, out, hirq⟩ := irq_port u 5
      obtain ⟨hupow, huflt, hufu, hubit⟩ := hkeep
      rw [hirq]
      refine ⟨hupow, huflt, hufu, ?_⟩
      exact (bit_setBit_ne (by decide : PWR_STAT ≠ IRQ_PEND) u 5 true 2).trans hubit

theorem conservative_enters (hl : s.Live) (hoff : s.power.conservative = false) (hmet : s.power.divergeMet = true)
    (hroom : s.LogRoom) : Completes .conservativeEntry s fun u =>
      u.power.conservative = true ∧ u.power.divergeMet = false ∧ u.bit PWR_STAT 2 = true ∧ u.Logged 0x81 12 3 ∧
      u.power.factor = consFactor (s.power.ratio.getD (1, 1)) := by
  generalize ht : ({ s with power := { s.power with
      conservative := true, divergeMet := false, diverge := 0, agree := 0, factor := consFactor (s.power.ratio.getD (1, 1)) } } :
      State).setBit PWR_STAT 2 true = t
  have hrun : s.doConsEntry = (t.fault (msgOf K_PWR_DIVERGE 12 3)).redecide := by
    rw [← ht]
    exact if_neg (by simp [hoff, hmet])
  have hlog : (t.fault (msgOf K_PWR_DIVERGE 12 3)).Logged 0x81 12 3 :=
    fault_logged (m := msgOf K_PWR_DIVERGE 12 3) (by rw [← ht]; exact hroom) (.inr (by decide))
  have hk := fault_kept t (msgOf K_PWR_DIVERGE 12 3)
  have hb : (t.fault (msgOf K_PWR_DIVERGE 12 3)).bit PWR_STAT 2 = t.bit PWR_STAT 2 := fault_bit t _ (by decide) 2
  generalize t.fault (msgOf K_PWR_DIVERGE 12 3) = v at *
  obtain ⟨hpow, hflt, hfu, hbit⟩ := redecide_keeps v
  have hvp : v.redecide.power = t.power := hpow.trans hk.power
  have hvf : v.redecide.fuses = s.fuses := hfu.trans (hk.fuses.trans (by rw [← ht] <;> rfl))
  have htp : t.power = { s.power with
      conservative := true, divergeMet := false, diverge := 0, agree := 0, factor := consFactor (s.power.ratio.getD (1, 1)) } := by
    rw [← ht] <;> rfl
  have hset : t.bit PWR_STAT 2 = true := by rw [← ht]; exact bit_setBit_self _ PWR_STAT true (by decide)
  refine completes_live hl (congrArg (doneLive s) hrun) ⟨?_, ?_, ?_, ?_, ?_⟩
  · exact congrArg Power.conservative (hvp.trans htp)
  · exact congrArg Power.divergeMet (hvp.trans htp)
  · exact (seal_bit (t := v.redecide) hvf ..).trans (hbit.trans (hb.trans hset))
  · change ∃ e ∈ v.redecide.flt.log, _
    rw [hflt]
    exact hlog
  · exact congrArg Power.factor (hvp.trans htp)

theorem conservative_leaves (hl : s.Live) (hon : s.power.conservative = true) (hmet : s.power.agreeMet = true) :
    Completes .conservativeExit s fun u =>
      u.power.conservative = false ∧ u.power.agreeMet = false ∧ u.power.factor = (1, 1) := by
  generalize ht : ({ s with power := { s.power with
        conservative := false, agreeMet := false, diverge := 0, agree := 0, factor := (1, 1) } } : State) = t
  have hrun : s.doConsExit = t.redecide := by
    rw [← ht]
    exact if_neg (by simp [hon, hmet])
  have hpow : t.redecide.power = { s.power with conservative := false, agreeMet := false, diverge := 0, agree := 0, factor := (1, 1) } :=
    (redecide_keeps t).1.trans (by rw [← ht])
  exact completes_live hl (congrArg (doneLive s) hrun)
    ⟨congrArg Power.conservative hpow, congrArg Power.agreeMet hpow, congrArg Power.factor hpow⟩

/-! ### Flights moored for power (R580) -/

theorem powerMoor_resumes (hl : s.Live) {k : Nat}
    (h : (s.flight k).st = .moored ∧ (s.flight k).powerMoored = true ∧ 4 ≤ (s.flight k).countDecision.unmoored) :
    exec (.powerMoorResume k) s = .next ((s.setFlight k { s.flight k with resumeOrder := true }).seal s) :=
  (congrArg (doneLive s) (if_pos h)).trans (doneLive_of_live hl _)

theorem powerMoor_stays (hl : s.Live) {k : Nat}
    (h : ¬((s.flight k).st = .moored ∧ (s.flight k).powerMoored = true ∧ 4 ≤ (s.flight k).countDecision.unmoored)) :
    exec (.powerMoorResume k) s = .next (s.seal s) :=
  (congrArg (doneLive s) (if_neg h)).trans (doneLive_of_live hl s)

/-! ### Safe state (R590, R612) -/

/-- The pins but the pulse, and the temperatures, are no business of the way into safe state, and a GRAVE record stays in
the log. -/
theorem pins_safeStable (p : Pins) : SafeStable fun s => ({ s.pins with pulse := false } : Pins) = p where
  fault m _ h := (fault_pins _ m).trans h
  reg _ _ h := h
  stack _ h := h
  lk _ _ h := h
  basin _ h := h
  port _ h := h
  hdm _ h := h
  host _ h := h
  emit _ h := h
  tile _ _ h := h
  berth _ _ h := h
  canal _ _ h := h
  xlt _ h := h

theorem temp_safeStable (n x : Nat) : SafeStable fun s => (s.stack n).temp = x where
  fault m _ h := (fault_temp _ m n).trans h
  reg _ _ h := h
  stack {s j k} hk h := by
    have hget : (s.setStack j k).stack n = if j = n then k else s.stack n := sget_sset ..
    rw [hget]
    split
    · next hj => rw [hk, hj, h]
    · exact h
  lk _ _ h := h
  basin _ h := h
  port _ h := h
  hdm _ h := h
  host _ h := h
  emit _ h := h
  tile _ _ h := h
  berth _ _ h := h
  canal _ _ h := h
  xlt _ h := h

theorem grave_safeStable (kind unit inst : Nat) : SafeStable fun s => s.HoldsGrave kind unit inst where
  fault _ hm h := fault_grave h hm
  reg _ _ h := h
  stack _ h := h
  lk _ _ h := h
  basin _ h := h
  port _ h := h
  hdm _ h := h
  host _ h := h
  emit _ h := h
  tile _ _ h := h
  berth _ _ h := h
  canal _ _ h := h
  xlt _ h := h

/-- The last step into safe state: the clocks stop (R612). -/
def State.frozen (v : State) : State :=
  { v with boot := { v.boot with safe := true }
           tiles := v.tiles.map fun e => (e.1, { e.2 with running := false })
           stk := v.stk.map fun e => (e.1, if e.2.st = .active ∨ e.2.st = .selfRefresh then { e.2 with st := .safe } else e.2) }

/-- What a live device keeps on its way into safe state. -/
theorem enterSafe_effect (hl : s.boot.safe = false) : ∃ v, s.enterSafe = v.frozen ∧
    ∀ {P : State → Prop}, SafeStable P → P s → P v := by
  generalize hb : (List.range s.fuses.variant.berths).foldl State.berthSafe s = b
  generalize hc : (List.range b.fuses.variant.canals).foldl State.canalSafe b = c
  generalize hd : (if c.port.viralEn then ({ c with port := { c.port with viralSent := true } } : State).emit .viral else c) = d
  have hkeep {P : State → Prop} (hP : SafeStable P) (h : P s) : P (d.aer .uncorrectableInternal false) := by
    have hPb : P b := hb ▸ of_foldl P (fun _ _ ht => hP.berthSafe ht _) _ h
    have hPc : P c := hc ▸ of_foldl P (fun _ _ ht => hP.canalSafe ht _) _ hPb
    have hPd : P d := hd ▸ of_ite (hP.emit _ (hP.port _ hPc)) hPc
    exact hP.aer hPd _ _
  refine ⟨d.aer .uncorrectableInternal false, ?_, hkeep⟩
  unfold State.enterSafe
  refine (if_neg (by rw [hl]; decide)).trans ?_
  dsimp only
  rw [hb, hc, hd]
  rfl

theorem enterSafe_keeps {P : State → Prop} (hP : SafeStable P) (hfrozen : ∀ v : State, P v → P v.frozen) (h : P s) :
    P s.enterSafe := by
  by_cases hl : s.boot.safe = true
  · rw [State.enterSafe, if_pos hl]
    exact h
  · obtain ⟨v, hv, hkeep⟩ := enterSafe_effect (Bool.eq_false_iff.2 hl)
    rw [hv]
    exact hfrozen v (hkeep hP h)

theorem enterSafe_safe (s : State) : s.enterSafe.boot.safe = true := by
  by_cases hl : s.boot.safe = true
  · rw [State.enterSafe, if_pos hl]
    exact hl
  · obtain ⟨v, hv, -⟩ := enterSafe_effect (Bool.eq_false_iff.2 hl)
    rw [hv] <;> rfl

theorem enterSafe_pins (s : State) : ({ s.enterSafe.pins with pulse := false } : Pins) = { s.pins with pulse := false } :=
  enterSafe_keeps (pins_safeStable { s.pins with pulse := false }) (fun _ h => h) rfl

theorem frozen_temp (v : State) (n : Nat) : (v.frozen.stack n).temp = (v.stack n).temp := by
  have hget : v.frozen.stack n = (fun k : Stack => if k.st = .active ∨ k.st = .selfRefresh then { k with st := .safe } else k)
      (v.stack n) := sget_map (fun k : Stack => if k.st = .active ∨ k.st = .selfRefresh then { k with st := .safe } else k) rfl v.stk n
  rw [hget]
  dsimp only
  split
  · rfl
  · rfl

theorem enterSafe_temp (s : State) (n : Nat) : (s.enterSafe.stack n).temp = (s.stack n).temp :=
  enterSafe_keeps (temp_safeStable n (s.stack n).temp) (fun v h => (frozen_temp v n).trans h) rfl

theorem enterSafe_grave {kind unit inst : Nat} (h : s.HoldsGrave kind unit inst) : s.enterSafe.HoldsGrave kind unit inst :=
  enterSafe_keeps (grave_safeStable kind unit inst) (fun _ h => h) h

/-! ### Thermal trips (R590) -/

theorem readings_flt (s : State) (js ps : List (Nat × Nat)) : (s.readings js ps).flt = s.flt := by
  unfold State.readings
  dsimp only
  refine of_foldl (fun t => t.flt = s.flt) ?_ _ (of_foldl (fun t => t.flt = s.flt) (fun t p ht => ?_) _ rfl)
  · exact fun t r ht => ht
  · split
    · exact ht
    · exact ht

/-- A stack's reading alone. -/
theorem readings_stack {n : Nat} (h : s.fuses.stackFused n = true) (x : Nat) :
    ((s.readings [] [(n, x)]).stack n).temp = x := by
  have hnone : s.readings [] [(n, x)] = s.modStack n fun k => { k with temp := x } := by
    unfold State.readings
    simp only [List.filter_nil, List.map_nil, List.foldl_fixed]
    rw [List.filter_cons, if_pos h, List.filter_nil, List.foldl_cons, List.foldl_nil]
  have hget : (s.modStack n fun k => { k with temp := x }).stack n = { s.stack n with temp := x } := sget_sset_self ..
  rw [hnone, hget]

theorem tripped_reach {p x : Nat} (h : s.fuses.reachActive p = true) (hx : 120 ≤ x) : s.tripped [(p, x)] [] = [p] := by
  unfold State.tripped
  simp [h, hx, insertNat]

theorem tripped_stack {n x : Nat} (h : s.fuses.stackFused n = true) (hx : 105 ≤ x) : s.tripped [] [(n, x)] = [16 + n] := by
  unfold State.tripped
  simp [h, hx, insertNat]

/-- One sensor trips. -/
theorem thermalTrip_one {js ps : List (Nat × Nat)} {n : Nat} (hn : s.tripped js ps = [n]) (hroom : s.LogRoom) :
    Completes (.thermalTrip js ps) s fun u => u.pins.thermtripOut = true ∧ u.pins.faultOut = true ∧ u.boot.safe = true ∧
      (∀ k, (u.stack k).temp = ((s.readings js ps).stack k).temp) ∧ u.Logged 0x82 13 n := by
  generalize hr : s.readings js ps = r
  have hroom' : r.LogRoom := by
    rw [State.LogRoom, ← hr, readings_flt]
    exact hroom
  have hgrave : (r.fault (msgOf K_THERM_TRIP 13 n)).HoldsGrave 0x82 13 n :=
    fault_holdsGrave (m := msgOf K_THERM_TRIP 13 n) hroom' rfl
  have htemp := fault_temp r (msgOf K_THERM_TRIP 13 n)
  generalize hf : r.fault (msgOf K_THERM_TRIP 13 n) = f at hgrave htemp
  generalize hv : ({ f with pins := { f.pins with thermtripOut := true } } : State) = v
  have hrun : s.thermalTrip js ps = v.enterSafe := by
    unfold State.thermalTrip
    rw [hn]
    refine (if_neg (by simp)).trans ?_
    rw [hr, State.tripRecords, List.foldl_cons, List.foldl_nil, hf]
    exact congrArg State.enterSafe hv
  have hpins := enterSafe_pins v
  have hsafe := enterSafe_safe v
  have hlog := (enterSafe_grave (s := v) (by rw [← hv]; exact hgrave)).logged
  have htv (k : Nat) : (v.enterSafe.stack k).temp = (r.stack k).temp := (enterSafe_temp v k).trans (by rw [← hv]; exact htemp k)
  have htrip : v.pins.thermtripOut = true := by rw [← hv]
  generalize v.enterSafe = e at *
  refine completes_done (congrArg (done s) hrun) ⟨?_, ?_, hsafe, htv, hlog⟩
  · exact (congrArg Pins.thermtripOut hpins).trans htrip
  · exact if_pos hsafe

theorem thermalTrip_none {js ps : List (Nat × Nat)} (h : s.tripped js ps = []) :
    exec (.thermalTrip js ps) s = .next (s.seal s) := by
  refine congrArg (done s) ?_
  unfold State.thermalTrip
  rw [h] <;> rfl

end Sys2Proof.Machine

open Sys2Proof.Machine

/-- Settles O58. A sample engages or releases at most one limit; expiries, conservative mode and power moors act on their own
records; a trip is a GRAVE record that the way into safe state leaves in the log (R571 to R595). -/
theorem powerCommands : Obligations.PowerCommands := by
  unfold Obligations.PowerCommands
  intro s
  refine ⟨fun hl => ⟨fun c m l => ?_, fastLimits_off hl, fun v => ⟨droop_written hl, droop_ignored hl⟩,
      lease_absent hl (towpath := false), lease_absent hl (towpath := true), lease_ends hl (towpath := false),
      lease_ends hl (towpath := true), fun h => ?_, conservative_enters hl, fun h => ?_, conservative_leaves hl,
      fun k => ⟨powerMoor_resumes hl, powerMoor_stays hl⟩⟩, fun js ps => thermalTrip_none, fun p x ha hx hroom => ?_,
      fun n x hn hx hroom => ?_⟩
  · obtain ⟨h1, h2, h3, h4, h5⟩ := limit_samples (s.power.sampled c m l) s.cap (s.bit PWR_CTL 8)
    have hrun := railSample_runs hl c m l
    refine ⟨⟨_, hrun, h1, h2, h3, h4, h5⟩, fun hoff => ⟨_, hrun, ?_⟩, fun hon => ⟨fun x hover hwait hx => ⟨_, hrun, ?_⟩,
      fun x rest hunder hwait hlim => ⟨_, hrun, ?_⟩, fun hhigh hlow => ⟨_, hrun, ?_⟩⟩⟩
    · change (Power.limit _ _ _).limits = _
      rw [hoff, limit_slow] <;> rfl
    · have hlim := limit_engages (w := s.power.sampled c m l) (cap := s.cap) hover (by change 8 ≤ min 8 _; omega) hx
      rw [hon, hlim]
      exact ⟨rfl, rfl⟩
    · have hrel := limit_releases (w := s.power.sampled c m l) (cap := s.cap) hunder (by change 8 ≤ min 8 _; omega)
        (by change s.power.limits ≠ []; rw [hlim]; exact List.cons_ne_nil x rest)
      rw [hon, hrel]
      exact ⟨congrArg (List.drop 1) hlim, rfl⟩
    · change (Power.limit _ _ _).limits = _
      rw [hon, limit_between (w := s.power.sampled c m l) hlow hhigh] <;> rfl
  · refine (congrArg (doneLive s) (if_pos ?_)).trans (doneLive_of_live hl s)
    rcases h with h | h
    · simp [h]
    · simp [h]
  · refine (congrArg (doneLive s) (if_pos ?_)).trans (doneLive_of_live hl s)
    rcases h with h | h
    · simp [h]
    · simp [h]
  · obtain ⟨u, hu, htrip, hout, hsafe, -, hlog⟩ := thermalTrip_one (tripped_reach ha hx) hroom
    exact ⟨u, hu, htrip, hout, hsafe, hlog⟩
  · obtain ⟨u, hu, htrip, -, hsafe, htemp, hlog⟩ := thermalTrip_one (tripped_stack hn hx) hroom
    exact ⟨u, hu, htrip, hsafe, (htemp n).trans (readings_stack hn x), hlog⟩

end

section
/-! What a reset leaves (R469, R629 to R632). -/

open Sys2Proof Sys2Proof.Machine

namespace Sys2Proof.Machine

/-! ### Way tests of a reset (R388, R389) -/

/-- The disabled ways of a cache that a way belongs to. -/
def disabledAt (l : List (Bool × Nat × Nat)) (w : Bool × Nat × Nat) : Nat :=
  (l.filter fun x => x.1 == w.1 && x.2.1 == w.2.1).length

theorem disabledAt_append (l m : List (Bool × Nat × Nat)) (w : Bool × Nat × Nat) :
    disabledAt (l ++ m) w = disabledAt l w + disabledAt m w := by
  rw [disabledAt, List.filter_append, List.length_append] <;> rfl

theorem disabledAt_cons_self (w : Bool × Nat × Nat) (l : List (Bool × Nat × Nat)) : disabledAt (w :: l) w = disabledAt l w + 1 := by
  rw [disabledAt, List.filter_cons, if_pos (by simp), List.length_cons] <;> rfl

/-- A way within R389's limit is disabled without a message. -/
theorem bistWay_disables {t : State} {w : Bool × Nat × Nat} (hw : w.1 = true ∨ w.2.1 < 32)
    (hroom : disabledAt t.basin.disabled w + 1 ≤ 4) : ∃ rec, t.bistWay w =
      { t with basin := { t.basin with recovering := rec, disabled := t.basin.disabled ++ [w] } } := by
  refine ⟨t.basin.recovering.filter (· ≠ w), ?_⟩
  have hcache : ¬(!w.1 && decide (32 ≤ w.2.1)) = true := by
    rcases hw with h | h
    · simp [h]
    · simp [h]
  unfold State.bistWay State.failWay
  rw [if_neg hcache]
  exact (if_pos hroom).trans (if_neg (by decide))

theorem bistWays_disable (ws : List (Bool × Nat × Nat)) : ∀ {t : State},
    (∀ w ∈ ws, (w.1 = true ∨ w.2.1 < 32) ∧ disabledAt (t.basin.disabled ++ ws) w ≤ 4) → ∃ rec, ws.foldl State.bistWay t =
      { t with basin := { t.basin with recovering := rec, disabled := t.basin.disabled ++ ws } } := by
  induction ws with
  | nil => exact fun {t} _ => ⟨t.basin.recovering, by rw [List.append_nil] <;> rfl⟩
  | cons w ws ih =>
    intro t h
    obtain ⟨hw, hlim⟩ := h w List.mem_cons_self
    rw [disabledAt_append, disabledAt_cons_self] at hlim
    obtain ⟨rec, hrun⟩ := bistWay_disables hw (by omega : disabledAt t.basin.disabled w + 1 ≤ 4)
    obtain ⟨rec', hrest⟩ := ih (t := { t with basin := { t.basin with recovering := rec, disabled := t.basin.disabled ++ [w] } })
      fun v hv => by
        rw [List.append_assoc]
        exact h v (List.mem_cons_of_mem _ hv)
    refine ⟨rec', ?_⟩
    rw [List.foldl_cons, hrun, hrest]
    simp only [List.append_assoc, List.singleton_append]

/-! ### Steps 3 to 5 -/

/-- The lowest number that passes a test. -/
theorem filter_range_lowest {n k : Nat} {p : Nat → Bool} {l : List Nat} (h : (List.range n).filter p = k :: l) :
    k < n ∧ p k = true ∧ ∀ j < k, p j = false := by
  have hhead : ((List.range n).filter p).head? = some k := by rw [h] <;> rfl
  rw [List.head?_filter] at hhead
  obtain ⟨hp, hk, hlow⟩ := List.find?_range_eq_some.1 hhead
  exact ⟨List.mem_range.1 hk, hp, fun j hj => by simpa using hlow j hj⟩

theorem goodLks_fresh {t : State} (h : t.lks = []) : t.goodLks = (List.range 24).filter t.fuses.lkpGood.contains := by
  unfold State.goodLks
  refine List.filter_congr fun k _ => ?_
  have hk : t.lk k = lkDefault t.fuses k := by rw [State.lk, h] <;> rfl
  rw [hk, lkDefault]
  dsimp only
  cases t.fuses.lkpGood.contains k with
  | true => rfl
  | false => rfl

/-- The device after steps 3 to 5 (R631, R632): FUS_REPAIR, the disabled ways, the moor count and the lockkeeper in ROM. -/
def State.tested (t : State) (b : BistReport) (rec : List (Bool × Nat × Nat)) (k : Nat) (bs : SMap Berth) : State :=
  let ws := b.ways.filter fun w => !t.basin.disabled.contains w
  let r := t.setReg FUS_REPAIR (BitVec.ofNat 32 (min b.unrepairable 0xFFFF * 2 ^ 16 + min b.rows 0xFFFF))
  let v : State := { r with basin := { r.basin with recovering := rec, disabled := t.basin.disabled ++ ws } }
  { v with basin := { v.basin with moor := min t.basin.moor (16 - v.maxDisabled) }
           boot := { t.boot with step := 5 }
           lks := (t.modLk k fun x => { x with st := .active }).lks
           berths := bs }

theorem berthsStart_berths (s : State) : ∃ bs, s.berthsStart = { s with berths := bs } := by
  unfold State.berthsStart
  refine List.foldlRecOn (motive := fun t : State => ∃ bs, t = { s with berths := bs }) (List.range s.fuses.variant.berths) _
    ⟨s.berths, rfl⟩ fun t ht b _ => ?_
  obtain ⟨bs, rfl⟩ := ht
  split
  · exact ⟨_, rfl⟩
  · exact ⟨bs, rfl⟩

theorem selfTest_passes {t : State} {b : BistReport} (hrom : b.romOk = true) (htiles : b.tiles = []) (hlkps : b.lkps = [])
    (hways : ∀ w ∈ b.ways, (w.1 = true ∨ w.2.1 < 32) ∧ disabledAt (t.basin.disabled ++ b.ways) w ≤ 4) (hlks : t.lks = [])
    (hgood : 20 ≤ ((List.range 24).filter t.fuses.lkpGood.contains).length) :
    ∃ rec k bs, t.selfTest b = t.tested b rec k bs ∧ k < 24 ∧ t.fuses.lkpGood.contains k = true ∧
      ∀ j < k, t.fuses.lkpGood.contains j = false := by
  generalize hws : (b.ways.filter fun w => !t.basin.disabled.contains w) = ws
  generalize hr : t.setReg FUS_REPAIR (BitVec.ofNat 32 (min b.unrepairable 0xFFFF * 2 ^ 16 + min b.rows 0xFFFF)) = r
  have hrb : r.basin = t.basin := by rw [← hr] <;> rfl
  obtain ⟨rec, hdis⟩ := bistWays_disable ws (t := r) fun w hw => by
    have hmem : w ∈ b.ways := (List.mem_filter.1 (hws ▸ hw)).1
    have hsub : (t.basin.disabled ++ ws).Sublist (t.basin.disabled ++ b.ways) :=
      (hws ▸ List.filter_sublist : ws.Sublist b.ways).append_left _
    rw [hrb]
    exact ⟨(hways w hmem).1, (hsub.filter _).length_le.trans (hways w hmem).2⟩
  generalize hv : ({ r with basin := { r.basin with recovering := rec, disabled := t.basin.disabled ++ ws } } : State) = v
  rw [hrb] at hdis
  have hbist : t.bist b = { v with basin := { v.basin with moor := min v.basin.moor (16 - v.maxDisabled) } } := by
    unfold State.bist
    dsimp only
    rw [hr, htiles, hlkps, List.foldl_nil, List.foldl_nil, hrb, hws, hdis, ← hv, hrb]
  have hfresh := goodLks_fresh hlks
  obtain ⟨k, l, hkl⟩ := List.exists_cons_of_length_pos (by omega : 0 < ((List.range 24).filter t.fuses.lkpGood.contains).length)
  obtain ⟨hk, hgk, hlow⟩ := filter_range_lowest hkl
  generalize hy : (t.bist b).bootStep 5 = y
  have hygood : y.goodLks = k :: l := by
    rw [← hkl, ← hfresh, ← hy, hbist, ← hv, ← hr] <;> rfl
  obtain ⟨bs, hbs⟩ := berthsStart_berths y.romStart
  refine ⟨rec, k, bs, ?_, hk, hgk, hlow⟩
  have hrun : t.selfTest b = y.romStart.berthsStart := by
    have hcount : ((t.bist b).bootStep 3).goodLks.length = ((List.range 24).filter t.fuses.lkpGood.contains).length := by
      rw [← hfresh, hbist, ← hv, ← hr] <;> rfl
    unfold State.selfTest
    dsimp only
    rw [if_neg (by omega), if_neg (by simp [hrom]), ← hy] <;> rfl
  rw [hrun, hbs, State.romStart, hygood]
  dsimp only
  rw [← hy, hbist, ← hv, ← hr, ← hws] <;> rfl

/-! ### Bring-up without the host's link, and with it -/

theorem bringUp_waits {v : State} (h5 : v.boot.step = 5) (hlink : v.port.linkUp = false) : v.bringUp = v := by
  rw [State.bringUp, State.bootOn]
  refine (apply_ite (fun z : State => z = v) ..).mpr ?_
  split
  · rfl
  · rw [h5]
    exact if_neg (by rw [hlink]; decide)

/-- With the host's link up, bring-up waits for the image at step 6. -/
theorem bringUp_linked {v : State} (h5 : v.boot.step = 5) (hfail : v.boot.failed = none) (hsafe : v.boot.safe = false)
    (hlink : v.port.linkUp = true) (hready : v.boot.fwReady = false) (hsize : v.boot.fwSize = 0) :
    v.bringUp = v.bootStep 6 := by
  have hload : (v.bootStep 6).reloadFirmware = v.bootStep 6 :=
    if_pos (by simp [State.bootStep, hsize])
  have hstop : (v.bootStep 6).bootOn 7 = v.bootStep 6 := by
    rw [State.bootOn]
    refine (if_neg (by simp [State.bootStep, hfail, hsafe])).trans ?_
    exact if_neg (by simp [State.bootStep, hready])
  rw [State.bringUp, State.bootOn, if_neg (by simp [hfail, hsafe]), h5]
  refine (if_pos hlink).trans ?_
  rw [hload, hstop]

/-! ### What every reset clears (R469, R629, R630) -/

/-- The parts of the device that no reset keeps, and the results of steps 2 to 5. -/
structure State.Cleared (s u : State) (b : BistReport) : Prop where
  safe : u.boot.safe = false
  failed : u.boot.failed = none
  flights : u.flights = []
  contexts : u.contexts = []
  waits : u.waits = []
  canals : u.canals = []
  tickets : u.tickets = []
  musters : u.musters = []
  gate : u.gate = {}
  ww : u.ww = {}
  lines : u.basin.lines = []
  copies : u.basin.copies = []
  fwReady : u.boot.fwReady = false
  wayValid : u.boot.wayValid = false
  rows : u.fld FUS_REPAIR 15 0 = min b.rows 0xFFFF
  unrepairable : u.fld FUS_REPAIR 31 16 = min b.unrepairable 0xFFFF
  host : u.host = s.host
  rom : ∃ k < 24, (u.lk k).st = .active ∧ ∀ j < k, (u.lk j).st = .retired

theorem repair_fields (u r : Nat) : bitsOf (BitVec.ofNat 32 (min u 0xFFFF * 2 ^ 16 + min r 0xFFFF)).toNat 15 0 = min r 0xFFFF ∧
    bitsOf (BitVec.ofNat 32 (min u 0xFFFF * 2 ^ 16 + min r 0xFFFF)).toNat 31 16 = min u 0xFFFF := by
  rw [BitVec.toNat_ofNat, bitsOf, bitsOf]
  omega

/-- A base from which a reset begins its tests. -/
structure State.Emptied (s t : State) : Prop where
  fuses : t.fuses = s.fuses
  host : t.host = s.host
  flights : t.flights = []
  contexts : t.contexts = []
  waits : t.waits = []
  canals : t.canals = []
  tickets : t.tickets = []
  musters : t.musters = []
  gate : t.gate = {}
  ww : t.ww = {}
  lks : t.lks = []
  lines : t.basin.lines = []
  copies : t.basin.copies = []
  safe : t.boot.safe = false
  failed : t.boot.failed = none
  fwReady : t.boot.fwReady = false
  wayValid : t.boot.wayValid = false

theorem tested_lk {t : State} (hlks : t.lks = []) (b : BistReport) (rec : List (Bool × Nat × Nat)) (k : Nat) (bs : SMap Berth)
    (j : Nat) : (t.tested b rec k bs).lk j = if k = j then { t.lk k with st := .active } else lkDefault t.fuses j := by
  have hfresh : t.lk j = lkDefault t.fuses j := by rw [State.lk, hlks] <;> rfl
  rw [← hfresh]
  exact State.lk_setLk ..

theorem tested_reg (t : State) (b : BistReport) (rec : List (Bool × Nat × Nat)) (k : Nat) (bs : SMap Berth) (o : Nat) :
    (t.tested b rec k bs).reg o = if FUS_REPAIR = o then
      BitVec.ofNat 32 (min b.unrepairable 0xFFFF * 2 ^ 16 + min b.rows 0xFFFF) else t.reg o :=
  State.reg_setReg t FUS_REPAIR o (BitVec.ofNat 32 (min b.unrepairable 0xFFFF * 2 ^ 16 + min b.rows 0xFFFF))

theorem tested_cleared {s t : State} (h : s.Emptied t) {k : Nat} (hk : k < 24)
    (hlow : ∀ j < k, t.fuses.lkpGood.contains j = false) (n : Nat) (b : BistReport) (rec : List (Bool × Nat × Nat))
    (bs : SMap Berth) : s.Cleared (((t.tested b rec k bs).bootStep n).seal s) b := by
  obtain ⟨hrows, hbad⟩ := repair_fields b.unrepairable b.rows
  have hlk (j : Nat) : (((t.tested b rec k bs).bootStep n).seal s).lk j = (t.tested b rec k bs).lk j :=
    congrArg (fun f => sget (lkDefault f j) (t.tested b rec k bs).lks j) h.fuses.symm
  have hreg : (((t.tested b rec k bs).bootStep n).seal s).reg FUS_REPAIR =
      BitVec.ofNat 32 (min b.unrepairable 0xFFFF * 2 ^ 16 + min b.rows 0xFFFF) :=
    (seal_reg (t := (t.tested b rec k bs).bootStep n) h.fuses FUS_REPAIR).trans ((tested_reg t b rec k bs FUS_REPAIR).trans (if_pos rfl))
  exact {
    safe := h.safe, failed := h.failed, flights := h.flights, contexts := h.contexts, waits := h.waits, canals := h.canals
    tickets := h.tickets, musters := h.musters, gate := h.gate, ww := h.ww, lines := h.lines, copies := h.copies
    fwReady := h.fwReady, wayValid := h.wayValid, host := h.host
    rows := by rw [State.fld, hreg, hrows]
    unrepairable := by rw [State.fld, hreg, hbad]
    rom := by
      refine ⟨k, hk, ?_, fun j hj => ?_⟩
      · rw [hlk, tested_lk h.lks, if_pos rfl]
      · rw [hlk, tested_lk h.lks, if_neg (by omega), lkDefault, hlow j hj] <;> rfl }

end Sys2Proof.Machine
end

section
/-! Resets, the function-level reset, rails and the host's link (R6, R467 to R469, R613, R629 to R632). -/

open Sys2Proof Sys2Proof.Machine

namespace Sys2Proof.Machine
variable {s : State} {b : BistReport}

/-! ### Tables that a reset cuts to what differs from the reset state -/

/-- A value changed at every listed key, with the entries that then equal their default taken out. -/
theorem sget_kept {α : Type} [DecidableEq α] (D : Nat → α) (g : Nat → α → α) {m : SMap α} (hm : (m.map Prod.fst).Nodup) (k : Nat) :
    sget (D k) ((m.map fun e => (e.1, g e.1 e.2)).filter fun e => e.2 ≠ D e.1) k =
      if k ∈ m.map Prod.fst then g k (sget (D k) m k) else D k := by
  induction m with
  | nil => rfl
  | cons e m ih =>
    obtain ⟨j, v⟩ := e
    rw [List.map_cons, List.nodup_cons] at hm
    have hrest := ih hm.2
    rw [List.map_cons, List.filter_cons]
    by_cases hj : j = k
    · subst hj
      rw [if_neg hm.1] at hrest
      by_cases hd : g j v = D j
      · rw [if_neg (by simp [hd]), hrest, if_pos (by simp), sget, if_pos rfl, hd]
      · rw [if_pos (by simp [hd]), if_pos (by simp), sget, if_pos rfl, sget, if_pos rfl]
    · have hin : (k ∈ ((j, v) :: m).map Prod.fst) = (k ∈ m.map Prod.fst) := by simp [Ne.symm hj]
      have hval : sget (D k) ((j, v) :: m) k = sget (D k) m k := if_neg hj
      rw [hval]
      simp only [hin]
      split
      · exact (if_neg hj).trans hrest
      · exact hrest

theorem sget_of_not_listed {α : Type} {d : α} {m : SMap α} {k : Nat} (h : k ∉ m.map Prod.fst) : sget d m k = d := by
  induction m with
  | nil => rfl
  | cons e m ih =>
    rw [List.map_cons, List.mem_cons, not_or] at h
    exact (if_neg (Ne.symm h.1)).trans (ih h.2)

/-- A reset that keeps the retirement map (R630). -/
theorem resetTiles_kept (hm : (s.tiles.map Prod.fst).Nodup) (t : Nat) :
    ((sget (tileDefault s.fuses t) s.resetTiles t).st = .retired ↔ (s.tile t).st = .retired) ∧
      (sget (tileDefault s.fuses t) s.resetTiles t).service = (s.tile t).service := by
  have hget := sget_kept (tileDefault s.fuses) (fun j x => resetTile (s.reach (j / 17)) (j % 17) x) hm t
  rw [State.resetTiles, hget]
  split
  · refine ⟨?_, rfl⟩
    change (if (s.tile t).st = .retired ∨ (s.tile t).st = .off then (s.tile t).st
      else if ((s.reach (t / 17)).posOf (t % 17)).isSome then .free else .spare) = TileState.retired ↔ _
    split
    · exact Iff.rfl
    · next h =>
      refine iff_of_false ?_ fun hr => h (.inl hr)
      split
      · decide
      · decide
  · next h =>
    rw [State.tile, sget_of_not_listed h]
    exact ⟨Iff.rfl, rfl⟩

theorem resetReaches_kept (hm : (s.reaches.map Prod.fst).Nodup) (p : Nat) :
    (sget (reachDefault s.fuses p) s.resetReaches p).tileMap = (s.reach p).tileMap := by
  have hget := sget_kept (reachDefault s.fuses) (fun _ r => ({ tileMap := r.tileMap } : Reach)) hm p
  rw [State.resetReaches, hget]
  split
  · rfl
  · next h => rw [State.reach, sget_of_not_listed h]

/-! ### Cold reset -/

/-- The parts in the order of R629. -/
theorem State.Cleared.parts {u : State} (h : s.Cleared u b) :
    u.boot.safe = false ∧ u.boot.failed = none ∧ u.flights = [] ∧ u.contexts = [] ∧ u.waits = [] ∧ u.canals = [] ∧
    u.tickets = [] ∧ u.musters = [] ∧ u.gate = {} ∧ u.ww = {} ∧ u.basin.lines = [] ∧ u.basin.copies = [] ∧
    u.boot.fwReady = false ∧ u.boot.wayValid = false ∧ u.fld FUS_REPAIR 15 0 = min b.rows 0xFFFF ∧
    u.fld FUS_REPAIR 31 16 = min b.unrepairable 0xFFFF ∧ u.host = s.host ∧
    ∃ k < 24, (u.lk k).st = .active ∧ ∀ j < k, (u.lk j).st = .retired :=
  ⟨h.safe, h.failed, h.flights, h.contexts, h.waits, h.canals, h.tickets, h.musters, h.gate, h.ww, h.lines, h.copies, h.fwReady,
    h.wayValid, h.rows, h.unrepairable, h.host, h.rom⟩

theorem blank_emptied (s : State) (n : Nat) : s.Emptied ((s.blank.bootStep n)) := by
  constructor <;> rfl

theorem cold_parity (h : b.fuseParityOk = false) : Completes (.coldReset b) s fun u =>
    u.boot.step = 1 ∧ u.boot.failed = some 2 ∧ u.boot.safe = false ∧ u.hdm = {} ∧ u.host = s.host := by
  refine completes_done (congrArg (done s) (if_pos (by rw [h]; rfl))) ⟨rfl, rfl, rfl, rfl, rfl⟩

section
variable (hparity : b.fuseParityOk = true) (hrom : b.romOk = true) (htiles : b.tiles = []) (hlkps : b.lkps = [])
  (hgood : 20 ≤ ((List.range 24).filter s.fuses.lkpGood.contains).length)
include hparity hrom htiles hlkps hgood

theorem cold_tested (hways : ∀ w ∈ b.ways, (w.1 = true ∨ w.2.1 < 32) ∧ disabledAt b.ways w ≤ 4) :
    Completes (.coldReset b) s fun u => s.Cleared u b ∧ u.boot.step = 5 ∧ u.tiles = [] ∧ u.reaches = [] ∧ u.hdm = {} ∧
      u.stk = [] ∧ u.port = {} ∧ u.basin.disabled = b.ways ∧ u.boot.fwMin = max s.boot.fwMin s.fuses.fwMin ∧
      ∀ off, off ≠ FUS_REPAIR → u.reg off = regReset s.fuses off := by
  obtain ⟨rec, k, bs, htest, hk, -, hlow⟩ := selfTest_passes (t := s.blank.bootStep 2) hrom htiles hlkps hways rfl hgood
  have hrun : ((s.blank.bootStep 2).selfTest b).bringUp = (s.blank.bootStep 2).tested b rec k bs := by
    rw [htest]
    exact bringUp_waits rfl rfl
  refine completes_done (congrArg (done s) ((if_neg (by rw [hparity]; decide)).trans hrun))
    ⟨tested_cleared (blank_emptied s 2) hk hlow 5 b rec bs, rfl, rfl, rfl, rfl, rfl, rfl, ?_, rfl, fun off hoff => ?_⟩
  · exact List.filter_eq_self.2 fun w _ => rfl
  · exact (seal_reg (t := (s.blank.bootStep 2).tested b rec k bs) rfl off).trans
      ((tested_reg (s.blank.bootStep 2) b rec k bs off).trans (if_neg (Ne.symm hoff)))

end

/-! ### Warm and CXL reset -/

section
variable (hl : s.Live) (hrom : b.romOk = true) (htiles : b.tiles = []) (hlkps : b.lkps = [])
  (hgood : 20 ≤ ((List.range 24).filter s.fuses.lkpGood.contains).length)
  (hways : ∀ w ∈ b.ways, (w.1 = true ∨ w.2.1 < 32) ∧ disabledAt (s.basin.disabled ++ b.ways) w ≤ 4)
  (hlks : ∀ e ∈ s.lks, e.2.st ≠ .retired)
include hl hrom htiles hlkps hgood hways hlks

omit hl hrom htiles hlkps hgood hways in
theorem keptLks_none : ((s.lks.filter fun e => e.2.st == .retired).map fun e => (e.1, ({ st := .retired } : Lockkeeper))) = [] := by
  rw [List.filter_eq_nil_iff.2 fun e he => by simpa using hlks e he] <;> rfl

theorem warm_tested (htn : (s.tiles.map Prod.fst).Nodup) (hrn : (s.reaches.map Prod.fst).Nodup) :
    Completes (.warmReset b) s fun u => s.Cleared u b ∧ u.boot.step = 5 ∧ u.hdm = s.hdm ∧ u.boot.store = s.boot.store ∧
      u.port = {} ∧ u.basin.moor = min s.basin.moor (16 - u.maxDisabled) ∧
      (∀ p, (u.reach p).tileMap = (s.reach p).tileMap) ∧
      ∀ t, ((u.tile t).st = .retired ↔ (s.tile t).st = .retired) ∧ (u.tile t).service = (s.tile t).service := by
  have hnone : (s.warmBase.bootStep 2).lks = [] := keptLks_none hlks
  have hempty : s.Emptied (s.warmBase.bootStep 2) := {
    fuses := rfl, host := rfl, flights := rfl, contexts := rfl, waits := rfl, canals := rfl, tickets := rfl, musters := rfl
    gate := rfl, ww := rfl, lks := hnone, lines := rfl, copies := rfl, safe := rfl, failed := rfl, fwReady := rfl, wayValid := rfl }
  obtain ⟨rec, k, bs, htest, hk, -, hlow⟩ := selfTest_passes (t := s.warmBase.bootStep 2) hrom htiles hlkps hways hnone hgood
  have hrun : ((s.warmBase.bootStep 2).selfTest b).bringUp = (s.warmBase.bootStep 2).tested b rec k bs := by
    rw [htest]
    exact bringUp_waits rfl rfl
  exact completes_live hl (congrArg (doneLive s) hrun) ⟨tested_cleared hempty hk hlow 5 b rec bs, rfl, rfl, rfl, rfl, rfl,
    resetReaches_kept hrn, resetTiles_kept htn⟩

theorem cxl_tested (clr : Bool) : Completes (.cxlReset clr b) s fun u => s.Cleared u b ∧
    u.boot.step = (if s.port.linkUp then 6 else 5) ∧ u.hdm = (if clr then {} else s.hdm) ∧
    u.port = { linkUp := s.port.linkUp } ∧ u.reg GLB_SCRATCH = s.reg GLB_SCRATCH ∧
    u.basin.shr = (if clr then [] else s.basin.shr) := by
  have hnone : ((s.cxlBase clr).bootStep 2).lks = [] := keptLks_none hlks
  have hempty : s.Emptied ((s.cxlBase clr).bootStep 2) := {
    fuses := rfl, host := rfl, flights := rfl, contexts := rfl, waits := rfl, canals := rfl, tickets := rfl, musters := rfl
    gate := rfl, ww := rfl, lks := hnone, lines := rfl, copies := rfl, safe := rfl, failed := rfl, fwReady := rfl, wayValid := rfl }
  obtain ⟨rec, k, bs, htest, hk, -, hlow⟩ := selfTest_passes (t := (s.cxlBase clr).bootStep 2) hrom htiles hlkps hways hnone hgood
  have hscratch : (((s.cxlBase clr).bootStep 2).tested b rec k bs).reg GLB_SCRATCH = s.reg GLB_SCRATCH :=
    (tested_reg ((s.cxlBase clr).bootStep 2) b rec k bs GLB_SCRATCH).trans ((if_neg (by decide)).trans
      (sget_filter (fun o => o == GLB_SCRATCH) rfl s.regs))
  have hrun : (((s.cxlBase clr).bootStep 2).selfTest b).bringUp =
      (((s.cxlBase clr).bootStep 2).tested b rec k bs).bootStep (if s.port.linkUp then 6 else 5) := by
    rw [htest]
    by_cases hlink : s.port.linkUp = true
    · rw [if_pos hlink]
      exact bringUp_linked rfl rfl rfl hlink rfl rfl
    · rw [if_neg hlink]
      exact bringUp_waits rfl (Bool.eq_false_iff.2 hlink)
  exact completes_live hl (congrArg (doneLive s) hrun) ⟨tested_cleared hempty hk hlow _ b rec bs, rfl, rfl, rfl,
    (seal_reg (t := (((s.cxlBase clr).bootStep 2).tested b rec k bs).bootStep _) rfl GLB_SCRATCH).trans hscratch, rfl⟩

end

/-! ### The host's link (R636) -/

theorem hostLink_starts (hl : s.Live) (hfail : s.boot.failed = none) (h5 : s.boot.step = 5) (hready : s.boot.fwReady = false)
    (hsize : s.boot.fwSize = 0) : exec .hostLinkUp s =
      .next (({ s with
        port := { s.port with linkUp := true }
        boot := { s.boot with step := 6 } } : State).seal s) := by
  have hrun := bringUp_linked (v := { s with port := { s.port with linkUp := true } }) h5 hfail hl rfl hready hsize
  exact (congrArg (doneLive s) hrun).trans (doneLive_of_live hl _)

theorem hostLink_late (hl : s.Live) (h11 : s.boot.step = 11) : exec .hostLinkUp s =
    .next (({ s with port := { s.port with linkUp := true } } : State).seal s) := by
  generalize hv : ({ s with port := { s.port with linkUp := true } } : State) = v
  have hstep : v.boot.step = 11 := by rw [← hv]; exact h11
  have hrun : v.bringUp = v := by
    rw [State.bringUp, State.bootOn]
    split
    · rfl
    · rw [hstep] <;> rfl
  refine (congrArg (doneLive s) ?_).trans (doneLive_of_live hl v)
  rw [hv, hrun]

/-! ### Rails (R6) -/

theorem rail_unused {rail : Nat} (hr : rail ≤ 2) (h : s.railInService rail = false) :
    exec (.powerGoodLoss rail) s = .next (({ s with pins := s.pins.drop rail } : State).seal s) := by
  refine congrArg (done s) ((if_neg (by omega)).trans ?_)
  exact if_neg (by simp [h])

theorem frozen_running (v : State) (t : Nat) : (v.frozen.tile t).running = false := by
  have hdef : ({ tileDefault v.fuses t with running := false } : Tile) = tileDefault v.fuses t := by
    unfold tileDefault
    split
    · rfl
    · rfl
  have hget : v.frozen.tile t = { v.tile t with running := false } :=
    sget_map (fun x : Tile => { x with running := false }) hdef v.tiles t
  rw [hget]

theorem fuses_safeStable (f : Fuses) : SafeStable fun s => s.fuses = f where
  fault m _ h := (fault_kept _ m).fuses.trans h
  reg _ _ h := h
  stack _ h := h
  lk _ _ h := h
  basin _ h := h
  port _ h := h
  hdm _ h := h
  host _ h := h
  emit _ h := h
  tile _ _ h := h
  berth _ _ h := h
  canal _ _ h := h
  xlt _ h := h

theorem drop_pins {p : Pins} {rail : Nat} (hr : rail ≤ 2) : (p.drop rail).pgCore = (p.pgCore && rail != 0) ∧
    (p.drop rail).pgMem = (p.pgMem && rail != 1) ∧ (p.drop rail).pgLink = (p.pgLink && rail != 2) := by
  obtain rfl | rfl | rfl : rail = 0 ∨ rail = 1 ∨ rail = 2 := by omega
  · simp [Pins.drop]
  · simp [Pins.drop]
  · simp [Pins.drop]

theorem rail_lost {rail : Nat} (hr : rail ≤ 2) (hl : s.Live) (h : s.railInService rail = true) :
    Completes (.powerGoodLoss rail) s fun u =>
      u.boot.safe = true ∧ u.pins.faultOut = true ∧ u.pins.pgCore = (s.pins.pgCore && rail != 0) ∧
      u.pins.pgMem = (s.pins.pgMem && rail != 1) ∧ u.pins.pgLink = (s.pins.pgLink && rail != 2) ∧
      ∀ t, (u.tile t).running = false := by
  obtain ⟨hcore, hmem, hlink⟩ := drop_pins (p := s.pins) hr
  generalize hw : ({ s with pins := s.pins.drop rail } : State).fault (msgOf K_RAIL_LOSS 12 rail) = w
  have hrun : exec (.powerGoodLoss rail) s = done s w.enterSafe := by
    refine congrArg (done s) ((if_neg (by omega)).trans ?_)
    rw [← hw]
    exact if_pos (by simp [h, hl])
  have hwlive : w.boot.safe = false := by
    rw [← hw, (fault_kept _ _).boot]
    exact hl
  have hwpins : ({ w.pins with pulse := false } : Pins) = { s.pins.drop rail with pulse := false } := by
    rw [← hw]
    exact fault_pins _ _
  have hwfu : w.fuses = s.fuses := by
    rw [← hw, (fault_kept _ _).fuses]
  have hpins := (enterSafe_pins w).trans hwpins
  have hsafe := enterSafe_safe w
  have hfu : w.enterSafe.fuses = s.fuses := enterSafe_keeps (fuses_safeStable s.fuses) (fun _ h => h) hwfu
  have hstop (t : Nat) : (w.enterSafe.tile t).running = false := by
    obtain ⟨v, hv, -⟩ := enterSafe_effect hwlive
    rw [hv]
    exact frozen_running v t
  generalize w.enterSafe = e at *
  refine completes_done hrun ⟨hsafe, if_pos hsafe, ?_, ?_, ?_, fun t => ?_⟩
  · exact (congrArg Pins.pgCore hpins).trans hcore
  · exact (congrArg Pins.pgMem hpins).trans hmem
  · exact (congrArg Pins.pgLink hpins).trans hlink
  · rw [seal_tile (t := e) hfu t]
    exact hstop t

/-! ### The function-level reset (R467) -/

/-- A halt order acts on the orders of the gate and, of a flight whose bind is in progress, on what follows the bind. -/
theorem haltOrder_keeps (s : State) (k : Nat) (r : Bool) : (s.haltOrder k r).port = s.port ∧ (s.haltOrder k r).ww = s.ww ∧
    (s.haltOrder k r).regs = s.regs ∧ (s.haltOrder k r).fuses = s.fuses ∧
    ((s.haltOrder k r).flights = s.flights ∨
      (s.haltOrder k r).flights = sset {} k { s.flight k with haltAtBind := some r } s.flights) := by
  unfold State.haltOrder State.orderTag State.order
  dsimp only
  split
  · split
    · exact ⟨rfl, rfl, rfl, rfl, .inr rfl⟩
    · exact ⟨rfl, rfl, rfl, rfl, .inr rfl⟩
  · split
    · exact ⟨rfl, rfl, rfl, rfl, .inl rfl⟩
    · exact ⟨rfl, rfl, rfl, rfl, .inl rfl⟩

/-- An entry of a table stays, unless it is the one that is written. -/
theorem mem_sput_or {α : Type} (d : α) {k : Nat} (v : α) {m : SMap α} {e : Nat × α} (he : e ∈ m) :
    e ∈ sput k v m ∨ e.2 = sget d m k := by
  induction m with
  | nil => exact absurd he List.not_mem_nil
  | cons a m ih =>
    obtain ⟨j, w⟩ := a
    rw [sput]
    split
    · exact .inl (List.mem_cons_of_mem _ he)
    · split
      · next hk =>
        rcases List.mem_cons.1 he with rfl | he
        · exact .inr (if_pos hk.symm).symm
        · exact .inl (List.mem_cons_of_mem _ he)
      · next hk =>
        rcases List.mem_cons.1 he with rfl | he
        · exact .inl List.mem_cons_self
        · refine (ih he).imp (List.mem_cons_of_mem _) fun h => ?_
          rw [h]
          exact (if_neg (Ne.symm hk)).symm

/-- Some flight holds tiles. -/
def State.SomeBound (s : State) : Prop := ∃ e ∈ s.flights, e.2.st.bound_ = true

theorem haltOrder_someBound (h : s.SomeBound) (k : Nat) (r : Bool) : (s.haltOrder k r).SomeBound := by
  obtain ⟨e, he, hb⟩ := h
  obtain ⟨-, -, -, -, hf | hf⟩ := haltOrder_keeps s k r
  · exact ⟨e, hf ▸ he, hb⟩
  · have hne : ({ s.flight k with haltAtBind := some r } : Flight) ≠ {} := fun h =>
      absurd (congrArg Flight.haltAtBind h) (Option.some_ne_none r)
    rw [sset, if_neg hne] at hf
    rcases mem_sput_or {} { s.flight k with haltAtBind := some r } he with hin | heq
    · exact ⟨e, hf ▸ hin, hb⟩
    · refine ⟨(k, { s.flight k with haltAtBind := some r }), hf ▸ mem_sput_self k _ s.flights, ?_⟩
      have hst : e.2.st = (s.flight k).st := congrArg Flight.st heq
      exact (congrArg FState.bound_ hst).symm.trans hb

theorem boundSlots_ne_nil (h : s.SomeBound) : s.boundSlots ≠ [] := by
  obtain ⟨e, he, hb⟩ := h
  intro hnil
  exact absurd (mem_boundSlots.2 ⟨e.2, he, hb⟩) (hnil ▸ List.not_mem_nil)

/-- What the first steps of an FLR leave before the flights halt. -/
def State.flrStopped (s : State) : State :=
  let t := s.stopCopies.stacksRefresh
  { t with port := { t.port with
      busMaster := false, flrBusy := true, waitingRd := []
      outstanding := t.port.outstanding.map fun r => { r with user := IoUser.discard } } }

/-- The state in which an FLR waits for its flights. -/
def State.flrHalting (s : State) : State := s.flrStopped.slotsHeld.foldl (fun s k => s.haltOrder k false) s.flrStopped

theorem flr_runs (hl : s.Live) : exec .flr s = done s s.flrHalting.flrSettle := congrArg (done s) (if_neg (by rw [hl]; decide))

theorem flrHalting_keeps (s : State) : s.flrHalting.port = s.flrStopped.port ∧ s.flrHalting.ww = s.ww ∧
    s.flrHalting.regs = s.regs ∧ s.flrHalting.fuses = s.fuses := by
  refine of_foldl (fun t => t.port = s.flrStopped.port ∧ t.ww = s.ww ∧ t.regs = s.regs ∧ t.fuses = s.fuses)
    (fun t k ht => ?_) _ ⟨rfl, rfl, rfl, rfl⟩
  obtain ⟨hp, hw, hr, hf, -⟩ := haltOrder_keeps t k false
  exact ⟨hp.trans ht.1, hw.trans ht.2.1, hr.trans ht.2.2.1, hf.trans ht.2.2.2⟩

theorem flr_waits (hl : s.Live) (hj : s.ww.joined = true) (hb : s.boundSlots ≠ []) : Completes .flr s fun u =>
    u.port.flrBusy = true ∧ u.port.busMaster = false ∧ (∀ r ∈ u.port.outstanding, r.user = .discard) ∧ u.port.waitingRd = [] := by
  obtain ⟨hport, hww, -, -⟩ := flrHalting_keeps s
  have hsome : s.flrStopped.SomeBound := by
    obtain ⟨k, l, hkl⟩ := List.exists_cons_of_ne_nil hb
    obtain ⟨f, hf, hbf⟩ := mem_boundSlots.1 (hkl ▸ List.mem_cons_self : k ∈ s.boundSlots)
    exact ⟨(k, f), hf, hbf⟩
  have hbound : s.flrHalting.boundSlots ≠ [] :=
    boundSlots_ne_nil (of_foldl State.SomeBound (fun _ k ht => haltOrder_someBound ht k false) _ hsome)
  have hnot : s.flrHalting.flrReady = false := by
    unfold State.flrReady
    rw [hww, hj, List.isEmpty_eq_false_iff.2 hbound]
    simp
  have hstay : s.flrHalting.flrSettle = s.flrHalting := if_neg (by rw [hnot]; decide)
  refine completes_done ((flr_runs hl).trans (congrArg (done s) hstay)) ?_
  change s.flrHalting.port.flrBusy = true ∧ s.flrHalting.port.busMaster = false ∧
    (∀ r ∈ s.flrHalting.port.outstanding, r.user = .discard) ∧ s.flrHalting.port.waitingRd = []
  rw [hport]
  refine ⟨rfl, rfl, fun r hr => ?_, rfl⟩
  obtain ⟨q, -, rfl⟩ := List.mem_map.1 hr
  rfl

/-! #### The end of an FLR -/

theorem resetRegs_reg {lo hi o : Nat} (h : (!(decide (lo ≤ o) && decide (o < hi))) = true) (s : State) :
    (s.resetRegs lo hi).reg o = s.reg o :=
  sget_filter (fun o => !(decide (lo ≤ o) && decide (o < hi))) h s.regs

theorem scratch_memStable (v : Reg) (f : Fuses) : MemStable fun s => s.reg GLB_SCRATCH = v ∧ s.fuses = f where
  fault m _ h := ⟨(fault_reg _ m (by decide)).trans h.1, (fault_kept _ m).fuses.trans h.2⟩
  reg w ho h := ⟨(State.reg_setReg ..).trans ((if_neg ho).trans h.1), h.2⟩
  stack _ h := h
  lk _ _ h := h
  basin _ h := h
  port _ h := h
  hdm _ h := h
  host _ h := h
  emit _ h := h

theorem unbind_scratch {v : Reg} {f : Fuses} (h : s.reg GLB_SCRATCH = v ∧ s.fuses = f) (k : Nat) :
    (s.unbind k).reg GLB_SCRATCH = v ∧ (s.unbind k).fuses = f := by
  have htiles : (s.unbindTiles k).reg GLB_SCRATCH = v ∧ (s.unbindTiles k).fuses = f := by
    unfold State.unbindTiles
    refine of_foldl (fun t => t.reg GLB_SCRATCH = v ∧ t.fuses = f) ?_ _ h
    exact fun _ _ ht => ht
  exact htiles

/-- The parts that an FLR clears (R467). -/
theorem flrEnd_clears (s : State) : s.flrEnd.contexts = [] ∧ s.flrEnd.waits = [] ∧ s.flrEnd.flights = [] ∧
    s.flrEnd.port.flrBusy = false ∧ s.flrEnd.port.busMaster = false ∧ s.flrEnd.port.memSpace = false ∧ s.flrEnd.xlt = {} := by
  unfold State.flrEnd
  dsimp only
  split
  · exact ⟨rfl, rfl, rfl, rfl, rfl, rfl, rfl⟩
  · exact ⟨rfl, rfl, rfl, rfl, rfl, rfl, rfl⟩

theorem resetRegs_fuses (s : State) (lo hi : Nat) : (s.resetRegs lo hi).fuses = s.fuses := rfl

theorem flrFaultRing_fuses (s : State) : s.flrFaultRing.fuses = s.fuses := rfl

theorem flrFaultRing_scratch (s : State) : s.flrFaultRing.reg GLB_SCRATCH = s.reg GLB_SCRATCH :=
  (State.reg_setReg ..).trans ((if_neg (by decide)).trans (resetRegs_reg rfl s))

theorem flrEnd_scratch (s : State) : s.flrEnd.reg GLB_SCRATCH = s.reg GLB_SCRATCH ∧ s.flrEnd.fuses = s.fuses := by
  have hP := scratch_memStable (s.reg GLB_SCRATCH) s.fuses
  generalize hu : (s.flights.map Prod.fst).foldl (fun s k => s.unbind k) s = u
  generalize hd : (u.contexts.map Prod.fst).foldl State.dropContextXlt u = d
  have hPu : u.reg GLB_SCRATCH = s.reg GLB_SCRATCH ∧ u.fuses = s.fuses := by
    rw [← hu]
    exact of_foldl (fun t => t.reg GLB_SCRATCH = s.reg GLB_SCRATCH ∧ t.fuses = s.fuses)
      (fun t k ht => unbind_scratch ht k) _ ⟨rfl, rfl⟩
  have hPd : d.reg GLB_SCRATCH = s.reg GLB_SCRATCH ∧ d.fuses = s.fuses := by
    rw [← hd]
    exact of_foldl (fun t => t.reg GLB_SCRATCH = s.reg GLB_SCRATCH ∧ t.fuses = s.fuses)
      (fun t k ht => dropContextXlt_stable hP (fun _ h => h) ht k) _ hPu
  unfold State.flrEnd
  dsimp only
  rw [hu, hd]
  generalize he : (if 8 ≤ _ then _ else _ : State) = e
  have hPe : e.reg GLB_SCRATCH = s.reg GLB_SCRATCH ∧ e.fuses = s.fuses := by
    rw [← he]
    split
    · exact hPd
    · exact hPd
  rw [resetRegs_reg (lo := 0x20000) (hi := 0x28100) (by decide), resetRegs_reg (lo := 0x8000) (hi := 0x10000) (by decide),
    resetRegs_reg (lo := 0x6000) (hi := 0x7000) (by decide), resetRegs_reg (lo := 0x5000) (hi := 0x6000) (by decide),
    resetRegs_reg (lo := 0x4000) (hi := 0x5000) (by decide)]
  obtain ⟨hscratch, hfuses⟩ := hPe
  refine ⟨(flrFaultRing_scratch e).trans hscratch, ?_⟩
  rw [resetRegs_fuses, resetRegs_fuses, resetRegs_fuses, resetRegs_fuses, resetRegs_fuses, flrFaultRing_fuses, hfuses]

theorem flr_ends (hl : s.Live) (hj : s.ww.joined = false) (hout : s.port.outstanding = []) : Completes .flr s fun u =>
    u.contexts = [] ∧ u.waits = [] ∧ u.flights = [] ∧ u.port.flrBusy = false ∧ u.port.busMaster = false ∧
    u.port.memSpace = false ∧ u.xlt = {} ∧ u.reg GLB_SCRATCH = s.reg GLB_SCRATCH := by
  obtain ⟨hport, hww, hregs, hfu⟩ := flrHalting_keeps s
  have hleft : s.flrStopped.port.outstanding = [] := by
    change (List.map _ (List.map _ s.port.outstanding)) = []
    rw [hout] <;> rfl
  have hready : s.flrHalting.flrReady = true := by
    unfold State.flrReady
    rw [hport, hww, hj, hleft] <;> rfl
  have hrun : s.flrHalting.flrSettle = s.flrHalting.flrEnd := if_pos hready
  have hreg : s.flrHalting.reg GLB_SCRATCH = s.reg GLB_SCRATCH := by rw [State.reg, hregs, hfu] <;> rfl
  obtain ⟨hscratch, hendfu⟩ := flrEnd_scratch s.flrHalting
  obtain ⟨h1, h2, h3, h4, h5, h6, h7⟩ := flrEnd_clears s.flrHalting
  have hdone := (flr_runs hl).trans (congrArg (done s) hrun)
  generalize s.flrHalting.flrEnd = e at *
  refine completes_done hdone ⟨h1, h2, h3, h4, h5, h6, h7, ?_⟩
  exact (seal_reg (t := e) (hendfu.trans hfu) GLB_SCRATCH).trans (hscratch.trans hreg)

end Sys2Proof.Machine

open Sys2Proof.Machine

/-- Settles O38. Each reset builds its state anew and runs steps 2 to 5 on it; an FLR that need not wait for a flight ends at
once; a rail lost in service drops its pin and leads into safe state (R6, R467 to R469, R629 to R632). -/
theorem resetsAndRails : Obligations.ResetsAndRails := by
  unfold Obligations.ResetsAndRails
  intro s b
  refine ⟨cold_parity, fun hparity hrom htiles hlkps => ⟨fun hways hgood => ?_, fun hl hways hgood hlks htn hrn => ⟨?_, fun clr => ?_⟩⟩,
    flr_ends, flr_waits, fun rail hr hl h => rail_lost hr hl h, fun rail hr h => rail_unused hr h, hostLink_starts, hostLink_late⟩
  · obtain ⟨u, hu, hc, hrest⟩ := cold_tested hparity hrom htiles hlkps hgood hways
    exact ⟨u, hu, hc.parts, hrest⟩
  · obtain ⟨u, hu, hc, hrest⟩ := warm_tested hl hrom htiles hlkps hgood hways hlks htn hrn
    exact ⟨u, hu, hc.parts, hrest⟩
  · obtain ⟨u, hu, hc, hrest⟩ := cxl_tested hl hrom htiles hlkps hgood hways hlks clr
    exact ⟨u, hu, hc.parts, hrest⟩

end
